-- ==== Sys2Proof/Word.lean ====
section
/-! DEFINITION. The word types of Hjella and their plainest arithmetic (R3, R4, R9). -/

set_option linter.unusedVariables false

namespace Sys2Proof

/-- A scalar register, a global address, a 64-bit quantity (R4, R89). -/
abbrev Word := BitVec 64

/-- A register of space 0x3, or half of a 64-bit pair (R375). -/
abbrev W32 := BitVec 32

/-- One byte of a store. -/
abbrev Byte := BitVec 8

/-- Bits [hi:lo] of a 32-bit register, as a number (R4). -/
def fld (w : W32) (hi lo : Nat) : Nat := (w.toNat >>> lo) % 2 ^ (hi + 1 - lo)

/-- Bit `i` of a 32-bit register. -/
def bit (w : W32) (i : Nat) : Bool := w.toNat.testBit i

/-- Bits [hi:lo] of a 64-bit word, as a number. -/
def fld64 (w : Word) (hi lo : Nat) : Nat := (w.toNat >>> lo) % 2 ^ (hi + 1 - lo)

/-- A flag as one bit. -/
def b2n (b : Bool) : Nat := if b then 1 else 0

/-- A field value placed at bit `lo`. -/
def at' (v lo : Nat) : Nat := v <<< lo

/-- A 32-bit register from the sum of its placed fields. -/
def mk32 (n : Nat) : W32 := BitVec.ofNat 32 n

end Sys2Proof
end

