-- ==== Sys2Proof/Dolsis.lean ====
section
/-! DEFINITION. The Dolsis operations, the instruction word's fields, and the names of things commands act on (R89, R114, R119). -/

set_option linter.unusedVariables false

namespace Sys2Proof

/-- A Dolsis operation (R119), FENCE and XGET by their selector. -/
inductive Op where
  | add | sub | mul | mulhu | divu | remu | divs | rems | and | or | xor | shl | shr | sra
  | addi | subi | muli | mulhui | divui | remui | divsi | remsi | andi | ori | xori | shli | shri | srai
  | movhi | cmp | cmpi | plog | br | call | jr | halt | ld | st | tdset | tdget | tdadv
  | mma | mmb | epi | fnv | fnd | cvt | cvts
  | qpush | qpop | qmark | qrewind | qrelease | qcount
  | tgive | ttake | twait | cgive | ctake
  | kreserve | kstash | kfetch | kfree | gather | contrib
  | rand | randt | tmalloc | tmset | tmfree
  | fenceW | fenceRw | fenceE | fenceI | nop
  | xgetCause | xgetFpc | xgetFaddr | xgetSstat | xclr | xret
  deriving DecidableEq, Repr

/-- The operand fields of an instruction word, without OP (R114). -/
structure Fields where
  d : BitVec 5
  a : BitVec 5
  b : BitVec 5
  c : BitVec 5
  gn : Bool
  gp : BitVec 3
  imm : BitVec 32
  deriving DecidableEq, Repr

/-- A hardware thread of the pack: package, site, unit, thread (R89, R91). -/
structure Tid where
  pkg : Nat
  site : Nat
  unit : Nat
  thr : Nat
  deriving DecidableEq, Repr

/-- Bits [hi:lo] of IMM. -/
def Fields.i (f : Fields) (hi lo : Nat) : Nat := fld f.imm hi lo

/-- Bit `n` of IMM. -/
def Fields.ib (f : Fields) (n : Nat) : Bool := f.imm.toNat.testBit n

/-- IMM sign-extended to 64 bits (R119). -/
def Fields.sext (f : Fields) : Word := f.imm.signExtend 64

end Sys2Proof
end

