-- ==== Sys2Proof/Config.lean ====
section
/-! DEFINITION. What an implementation fixes, and the values the manual leaves open: constants without a body. -/

set_option linter.unusedVariables false

namespace Sys2Proof.Config

/-- A free value: whatever the manual leaves open, drawn at the state's own counter (log 3). -/
opaque freeValue : Nat → Nat

/-- The A32 code of a quotient by zero, which no rule states, by the dividend's code (log 4). -/
opaque divByZero : Nat → Nat

/-- The A32 code of the square root of a negative number, which no rule states, by the operand's code (log 12). -/
opaque sqrtNeg : Nat → Nat

/-- How many operations the input queue of an array or engine takes, less one (R92 gives no depth; log 5). -/
opaque engineDepth : Nat

/-- The fused device serial number of package `k` (R290, FUSE.SERLO). -/
opaque serial : Nat → Nat

/-- The fused Subsystem Vendor ID and Subsystem ID of package `k` (FUSE.SUBSYS). -/
opaque subsys : Nat → Nat

/-- Which four inner sites assembly test fused out of service in package `k`, and how (R18; log 9): number `i` of four, read by `fusedOut`. -/
opaque siteFuse : Nat → Nat → Nat

/-- The fused feature level, 0 to 7, of site `s` of package `k` (FUSE.SITEn). -/
opaque siteLevel : Nat → Nat → Nat

/-- The fused rollback counter of package `k` at its first power-on (R418). -/
opaque svnCounter : Nat → Nat

/-- The fused programmed key slots of package `k`, a 4-bit map (FUSE.STATE.KPROG). -/
opaque keyProgrammed : Nat → Nat

/-- The fused revoked key slots of package `k` at its first power-on (FUSE.STATE.KREV). -/
opaque keyRevoked : Nat → Nat

/-- The SM3 hash of key slot `i` of package `k`, as its 32 bytes (FUSE.KHASH). -/
opaque keyHash : Nat → Nat → List Byte

/-- DBGLOCK of package `k` (R420). -/
opaque dbgLock : Nat → Bool

/-- IDOK of package `k`: identity key and chain present (R421). -/
opaque idOk : Nat → Bool

/-- FERR of package `k`: the fuse array check failed (R411). -/
opaque fuseError : Nat → Bool

/-- The ROM version of package `k` (KEY.ROMVER). -/
opaque romVersion : Nat → Nat

/-- The SM3 digest of the boot ROM of package `k` (R422). -/
opaque romDigest : Nat → List Byte

/-- The public identity key of package `k`, 64 bytes (KEY.IDPUB). -/
opaque idPublic : Nat → List Byte

/-- The certificate chain of package `k` (KEY.CERT). -/
opaque certChain : Nat → List Byte

/-- TOPRISE of stack `j` of package `k`, in 0.25 °C (R256). -/
opaque topRise : Nat → Nat → Nat

/-- TTRIP of site `s` of package `k`, in 0.25 °C (R403). -/
opaque tripPoint : Nat → Nat → Nat

/-- The lanes fused bad at assembly on the die's own edge `e` of site `s` of package `k`, read by `fusedMask`, at most 16 (R262). -/
opaque fusedBad : Nat → Nat → Nat → Nat

/-- The CREDIT word of a die-to-die frame that returns these credits, by class, for which R264 gives no layout (log 122). -/
opaque creditWord : List (Nat × Nat) → Nat

/-- The hub die's fused mask revision (R439). -/
opaque maskRevision : Nat → Nat

/-- Jeninajo's JEP106 manufacturer code (R439). -/
opaque jep106 : Nat

/-- Jeninajo's PCI-SIG vendor identifier (R357). -/
opaque pciVendor : Nat

/-- SM3 of a byte string (GB/T 32905; the manual names the standard and does not restate it; log 6). -/
opaque sm3 : List Byte → List Byte

/-- SM2 verification under a distinguishing identifier of public key, message and signature (GB/T 32918; log 6). -/
opaque sm2Verify : List Byte → List Byte → List Byte → List Byte → Bool

/-- The SM2 signature of the identity key of package `k` over a byte string, with a nonce (GB/T 32918; log 6). -/
opaque sm2Sign : Nat → Nat → List Byte → List Byte

/-- The body of a standard response message, by responder, request code and request body (PCIe, SPDM, MCTP; log 7). -/
opaque standardBody : Nat → Nat → List Byte → List Byte

/-- A configuration space word of package `k` that the PCI Express standard defines, given what was last written to it (R357; log 7). -/
opaque configWord : Nat → Nat → Option Nat → Nat

end Sys2Proof.Config
end

