-- ==== Sys2Proof/Machine/Store.lean ====
section
/-! DEFINITION. Stores: sparse maps from a number to a record, and memory as a list of cells in one canonical form. -/

set_option linter.unusedVariables false

namespace Sys2Proof.Machine

/-- A sparse table by number. An index that is not listed holds the table's reset record. -/
abbrev Map (α : Type) := List (Nat × α)

/-- The record at index `i`, `d` where nothing is listed. -/
def mget {α : Type} (d : α) : Map α → Nat → α
  | [], _ => d
  | (k, v) :: r, i => if k = i then v else mget d r i

/-- Writes index `i`, keeping the indices in rising order. -/
def mins {α : Type} : Map α → Nat → α → Map α
  | [], i, v => [(i, v)]
  | (k, w) :: r, i, v =>
    if i < k then (i, v) :: (k, w) :: r
    else if i = k then (i, v) :: r
    else (k, w) :: mins r i v

/-- Changes the record at index `i`. -/
def mupd {α : Type} (d : α) (m : Map α) (i : Nat) (f : α → α) : Map α := mins m i (f (mget d m i))

/-- Changes every listed record, with its index. -/
def mmap {α : Type} (f : Nat → α → α) (m : Map α) : Map α := m.map (fun p => (p.1, f p.1 p.2))

/-- Some listed record meets the test. -/
def mAny {α : Type} (m : Map α) (t : Nat → α → Bool) : Bool := m.any (fun p => t p.1 p.2)

/-- The sum of a measure over the listed records. -/
def mSum {α : Type} (m : Map α) (f : α → Nat) : Nat := (m.map (fun p => f p.2)).foldl (· + ·) 0

/-- Inserts into a list ordered by `le`. -/
def insBy {α : Type} (le : α → α → Bool) (x : α) : List α → List α
  | [] => [x]
  | y :: r => if le x y then x :: y :: r else y :: insBy le x r

/-- Orders a list by `le`. -/
def sortBy {α : Type} (le : α → α → Bool) (l : List α) : List α := l.foldr (insBy le) []

/-- The element at an index, and the list without it. -/
def takeAt {α : Type} : List α → Nat → Option (α × List α)
  | [], _ => none
  | x :: r, 0 => some (x, r)
  | x :: r, n + 1 => (takeAt r n).map (fun p => (p.1, x :: p.2))

/-- Memory: cells at strictly rising addresses, none of them equal to what an unlisted address reads as. -/
abbrev Mem := List Host.Cell

/-- What a byte reads as that nothing has written: zero (DESIGN CHOICE, log 2). -/
def memInit : Byte := 0

/-- The byte at an address. -/
def memRd (m : Mem) (a : Nat) : Byte := mget memInit m a

/-- Writes one byte, keeping the canonical form. -/
def memWr (m : Mem) (a : Nat) (b : Byte) : Mem :=
  if b = memInit then m.filter (fun c => c.1 != a) else mins m a b

/-- The addresses of a memory rise strictly. -/
def rising : Mem → Bool
  | [] => true
  | [_] => true
  | a :: b :: r => decide (a.1 < b.1) && rising (b :: r)

/-- The canonical form of memory. -/
def Memory.wf (m : Mem) : Bool := rising m && m.all (fun c => c.2 != memInit)

/-- `n` bytes from address `a`. -/
def memRdN (m : Mem) (a : Nat) : Nat → List Byte
  | 0 => []
  | n + 1 => memRd m a :: memRdN m (a + 1) n

/-- Writes bytes from address `a` upward. -/
def memWrN (m : Mem) (a : Nat) : List Byte → Mem
  | [] => m
  | b :: r => memWrN (memWr m a b) (a + 1) r

/-- The number spelt by bytes, least significant first (R4). -/
def leVal : List Byte → Nat
  | [] => 0
  | b :: r => b.toNat + 256 * leVal r

/-- A number as `n` bytes, least significant first (R4). -/
def leBytes (v : Nat) : Nat → List Byte
  | 0 => []
  | n + 1 => BitVec.ofNat 8 v :: leBytes (v / 256) n

/-- A little-endian number of `n` bytes in memory. -/
def memRdLE (m : Mem) (a n : Nat) : Nat := leVal (memRdN m a n)

/-- Writes a little-endian number of `n` bytes. -/
def memWrLE (m : Mem) (a n v : Nat) : Mem := memWrN m a (leBytes v n)

end Sys2Proof.Machine
end

