-- ==== Sys2Proof/Machine/Formats.lean ====
section
/-! DEFINITION. Number formats and conversion (R32 to R48): exact values, the one rounding of R41, block exponents. -/

set_option linter.unusedVariables false

namespace Sys2Proof.Machine

/-- The formats of R32. -/
inductive Fmt where
  | f4 | f8f | f8g | b16 | h16 | a32 | o8f | o8g
  deriving DecidableEq, Repr

/-- The format a 4-bit code names; codes 0x8 to 0xF are reserved (R32). -/
def fmtOf : Nat → Option Fmt
  | 0 => some .f4
  | 1 => some .f8f
  | 2 => some .f8g
  | 3 => some .b16
  | 4 => some .h16
  | 5 => some .a32
  | 6 => some .o8f
  | 7 => some .o8g
  | _ => none

/-- The format named by a code that has been checked; A32 where it is reserved. -/
def fmtD (c : Nat) : Fmt := (fmtOf c).getD .a32

/-- Width of a code in bits (R32, R39). -/
def fmtBits : Fmt → Nat
  | .f4 => 4
  | .f8f | .f8g | .o8f | .o8g => 8
  | .b16 | .h16 => 16
  | .a32 => 32

/-- Bytes of one element; F4 is packed two to a byte and has none of its own (R39). -/
def fmtBytes (f : Fmt) : Nat := fmtBits f / 8

/-- Width of the mantissa field (R41). -/
def mbits : Fmt → Nat
  | .f4 => 1
  | .f8f | .o8f => 3
  | .f8g | .o8g => 2
  | .b16 => 7
  | .h16 => 10
  | .a32 => 23

/-- Exponent of the smallest normal (R41). -/
def emin : Fmt → Int
  | .f4 => 0
  | .f8f | .o8f => -6
  | .f8g | .o8g => -14
  | .b16 => -126
  | .h16 => -14
  | .a32 => -126

/-- The magnitude code of the largest finite value (R32). -/
def largestCode : Fmt → Nat
  | .f4 => 0x7
  | .f8f | .f8g => 0x7F
  | .b16 => 0x7F7F
  | .h16 => 0x7BFF
  | .a32 => 0x7F7FFFFF
  | .o8f => 0x77
  | .o8g => 0x7B

/-- The canonical NaN code (R36). -/
def canonNan : Fmt → Nat
  | .f4 => 0x8
  | .f8f | .f8g => 0x80
  | .b16 => 0x7FC0
  | .h16 => 0x7E00
  | .a32 => 0x7FC00000
  | .o8f | .o8g => 0x7F

/-- The formats that have infinities (R32). -/
def hasInf : Fmt → Bool
  | .f4 | .f8f | .f8g => false
  | _ => true

/-- A magnitude n / d × 2^e, d positive. -/
structure Mag where
  n : Nat
  d : Nat
  e : Int
  deriving DecidableEq, Repr

/-- An exact value: a real with its sign, an infinity, or NaN. -/
inductive Val where
  | nan
  | inf (neg : Bool)
  | fin (neg : Bool) (m : Mag)
  deriving DecidableEq, Repr

/-- The four conversion flags (R42). -/
structure Flg where
  sat : Bool := false
  nan : Bool := false
  flush : Bool := false
  uflow : Bool := false
  deriving DecidableEq, Repr

/-- The OR of two flag sets. -/
def Flg.or (a b : Flg) : Flg :=
  { sat := a.sat || b.sat, nan := a.nan || b.nan, flush := a.flush || b.flush, uflow := a.uflow || b.uflow }

/-- Flags as bits SAT[0], NAN[1], FLUSH[2], UFLOW[3] (R68, R130). -/
def flgBits (f : Flg) : Nat := b2n f.sat + 2 * b2n f.nan + 4 * b2n f.flush + 8 * b2n f.uflow

/-- Flags from their four bits. -/
def flgOf (n : Nat) : Flg :=
  { sat := n.testBit 0, nan := n.testBit 1, flush := n.testBit 2, uflow := n.testBit 3 }

/-- A number times a power of two, the exponent 0 or more. -/
def shl (n : Nat) (e : Int) : Nat := n * 2 ^ e.toNat

/-- The magnitude is zero. -/
def magZero (m : Mag) : Bool := m.n == 0

/-- floor(log2) of a positive magnitude. -/
def magLog (m : Mag) : Int :=
  let k : Int := (Nat.log2 m.n : Int) - (Nat.log2 m.d : Int)
  let ge := shl m.n (-k) ≥ shl m.d k
  (if ge then k else k - 1) + m.e

/-- The quotient of a magnitude by 2^u, as a fraction. -/
def magFrac (m : Mag) (u : Int) : Nat × Nat := (shl m.n (m.e - u), m.d * 2 ^ (u - m.e).toNat)

/-- Comparison of magnitudes: a ≤ b. -/
def magLe (a b : Mag) : Bool :=
  let x := min a.e b.e
  shl a.n (a.e - x) * b.d ≤ shl b.n (b.e - x) * a.d

/-- a < b. -/
def magLt (a b : Mag) : Bool := !magLe b a

/-- The larger magnitude. -/
def magMax (a b : Mag) : Mag := if magLe a b then b else a

/-- Product of magnitudes. -/
def magMul (a b : Mag) : Mag := { n := a.n * b.n, d := a.d * b.d, e := a.e + b.e }

/-- Quotient of magnitudes, the divisor positive. -/
def magDiv (a b : Mag) : Mag := { n := a.n * b.d, d := a.d * b.n, e := a.e - b.e }

/-- An integer as a magnitude. -/
def magNat (n : Nat) : Mag := { n := n, d := 1, e := 0 }

/-- 2^e. -/
def magPow (e : Int) : Mag := { n := 1, d := 1, e := e }

/-- The value zero. -/
def valZero : Val := .fin false (magNat 0)

/-- The value one. -/
def valOne : Val := .fin false (magNat 1)

/-- An integer as a value. -/
def valNat (n : Nat) : Val := .fin false (magNat n)

/-- Negation. -/
def Val.neg : Val → Val
  | .nan => .nan
  | .inf s => .inf (!s)
  | .fin s m => .fin (!s) m

/-- Exact sum. An exact zero sum is +0 (R66; DEDUCED for every other sum, log 8), but for two negative zeros. -/
def Val.add : Val → Val → Val
  | .nan, _ => .nan
  | _, .nan => .nan
  | .inf s, .inf t => if s = t then .inf s else .nan
  | .inf s, .fin _ _ => .inf s
  | .fin _ _, .inf s => .inf s
  | .fin s a, .fin t b =>
    let x := min a.e b.e
    let p := shl a.n (a.e - x) * b.d
    let q := shl b.n (b.e - x) * a.d
    let mk (n : Nat) : Mag := { n := n, d := a.d * b.d, e := x }
    if s = t then .fin s (mk (p + q))
    else if p = q then valZero
    else if q < p then .fin s (mk (p - q))
    else .fin t (mk (q - p))

/-- Exact difference. -/
def Val.sub (a b : Val) : Val := a.add b.neg

/-- Exact product; the sign of a zero product follows the operands (DEDUCED, log 8). -/
def Val.mul : Val → Val → Val
  | .nan, _ => .nan
  | _, .nan => .nan
  | .inf s, .inf t => .inf (s != t)
  | .inf s, .fin t m => if magZero m then .nan else .inf (s != t)
  | .fin s m, .inf t => if magZero m then .nan else .inf (s != t)
  | .fin s a, .fin t b => .fin (s != t) (magMul a b)

/-- The value is a zero. -/
def Val.isZero : Val → Bool
  | .fin _ m => magZero m
  | _ => false

/-- The value is NaN. -/
def Val.isNan : Val → Bool
  | .nan => true
  | _ => false

/-- Order of values, NaN never below: a < b. -/
def Val.lt : Val → Val → Bool
  | .nan, _ => false
  | _, .nan => false
  | .inf s, .inf t => s && !t
  | .inf s, .fin _ _ => s
  | .fin _ _, .inf t => !t
  | .fin s a, .fin t b =>
    if magZero a && magZero b then false
    else if s && !t then true
    else if !s && t then false
    else if s then magLt b a
    else magLt a b

/-- The magnitude of a value. -/
def Val.abs : Val → Val
  | .nan => .nan
  | .inf _ => .inf false
  | .fin _ m => .fin false m

/-- The value of a code (R32 to R36, R38). -/
def decode (f : Fmt) (code : Nat) : Val :=
  let w := fmtBits f
  let c := code % 2 ^ w
  let neg := c.testBit (w - 1)
  let mag := c % 2 ^ (w - 1)
  if !hasInf f then
    if c = 2 ^ (w - 1) then .nan
    else fin' f neg mag
  else if mag > largestCode f then
    if mag = infMag f then .inf neg else .nan
  else fin' f neg mag
where
  /-- A finite code: subnormal where E = 0 (R32). -/
  fin' (f : Fmt) (neg : Bool) (mag : Nat) : Val :=
    let e := mag / 2 ^ mbits f
    let m := mag % 2 ^ mbits f
    if e = 0 then .fin neg { n := m, d := 1, e := emin f - mbits f }
    else .fin neg { n := m + 2 ^ mbits f, d := 1, e := emin f - mbits f + (e : Int) - 1 }
  /-- The magnitude code of infinity (R32, R38). -/
  infMag : Fmt → Nat
    | .b16 => 0x7F80
    | .h16 => 0x7C00
    | .a32 => 0x7F800000
    | .o8f => 0x78
    | .o8g => 0x7C
    | _ => 0

/-- The largest finite magnitude of a format. -/
def largest (f : Fmt) : Mag :=
  match decode f (largestCode f) with
  | .fin _ m => m
  | _ => magNat 0

/-- A magnitude code with its sign bit. -/
def signed (f : Fmt) (mag : Nat) (neg : Bool) : Nat := mag + b2n neg * 2 ^ (fmtBits f - 1)

/-- zero(fmt, s) of R41. -/
def zeroCode (f : Fmt) (neg : Bool) : Nat :=
  match f with
  | .f4 | .f8f | .f8g => 0
  | _ => signed f 0 neg

/-- A rounding mode with its random value (R40): RNE, or SR with `bits` random bits `r` (R41; 8 bits in A16 by R66). -/
inductive Rnd where
  | rne
  | sr (bits r : Nat)
  deriving DecidableEq, Repr

/-- round_half_to_even of a fraction. -/
def roundEven (n d : Nat) : Nat :=
  let q := n / d
  let r := n % d
  if 2 * r < d then q else if d < 2 * r then q + 1 else if q % 2 = 0 then q else q + 1

/-- R41, the conversion of an exact value. -/
def convert (v : Val) (f : Fmt) (mode : Rnd) : Nat × Flg :=
  match v with
  | .nan => (canonNan f, { nan := true })
  | .inf s => (signed f (largestCode f) s, { sat := true })
  | .fin s a =>
    if magLt (largest f) a then (signed f (largestCode f) s, { sat := true })
    else if magZero a then (zeroCode f s, {})
    else if magLt a (magPow (emin f - mbits f - 1)) then (zeroCode f s, { flush := true })
    else
      let e := max (magLog a) (emin f)
      let (p, q) := magFrac a (e - mbits f)
      let n := match mode with
        | .rne => roundEven p q
        | .sr bits r => (p * 2 ^ bits / q + r) / 2 ^ bits
      if n = 0 then (zeroCode f s, { flush := true })
      else
        let sub := e = emin f ∧ n < 2 ^ mbits f
        let inexact := n * q ≠ p
        (signed f ((e - emin f).toNat * 2 ^ mbits f + n) s, { uflow := decide (sub ∧ inexact) })

/-- convert(x, A32, RNE). -/
def rneA (v : Val) : Nat × Flg := convert v .a32 .rne

/-- The value of an A32 code. -/
def ofA (c : Nat) : Val := decode .a32 c

/-- The value of a B16 code. -/
def ofB (c : Nat) : Val := decode .b16 c

/-- The block factor 2^(be - 127) of a block exponent code, NaN for 0xFF (R45). -/
def blockFactor (be : Nat) : Val := if be = 0xFF then .nan else .fin false (magPow ((be : Int) - 127))

/-- The quotient of a value by a positive finite scale (R41). -/
def Val.divMag (v : Val) (m : Mag) : Val :=
  match v with
  | .fin s a => .fin s (magDiv a m)
  | x => x

/-- The positive magnitude of a scale code; a scale is always positive and finite (R50). -/
def scaleMag (cur : Nat) : Mag :=
  match ofB cur with
  | .fin _ m => m
  | _ => magNat 1

/-- ceil(log2) of a positive magnitude. -/
def magCeilLog (m : Mag) : Int :=
  let k := magLog m
  if magLe m (magPow k) then k else k + 1

/-- The block exponent that quantise_block chooses (R47); the values are already divided by the scale. -/
def blockExp (xs : List Val) (f : Fmt) : Nat :=
  if xs.any Val.isNan then 0xFF
  else
    let a := xs.foldl (fun m x => match x with | .fin _ y => magMax m y | _ => m) (magNat 0)
    let be : Int := if magZero a then 127 else 127 + magCeilLog (magDiv a (largest f))
    (max 0 (min 254 be)).toNat

/-- quantise_block of R47: the exponent, and the codes with their flags. -/
def quantiseBlock (xs : List Val) (f : Fmt) (modes : List Rnd) : Nat × List (Nat × Flg) :=
  let be := blockExp xs f
  if be = 0xFF then (0xFF, xs.map (fun _ => (canonNan f, { nan := true })))
  else (be, (xs.zip modes).map (fun p => convert (p.1.divMag (magPow ((be : Int) - 127))) f p.2))

/-- A magnitude in B16 rounded toward +∞, 0x7F80 above the largest finite value (R51). -/
def amaxCode (v : Val) : Option Nat :=
  match v with
  | .nan => none
  | .inf _ => some 0x7F80
  | .fin _ a =>
    if magZero a then some 0
    else if magLt (largest .b16) a then some 0x7F80
    else
      let e := max (magLog a) (emin .b16)
      let (p, q) := magFrac a (e - 7)
      let n := (p + q - 1) / q
      some ((e - emin .b16).toNat * 128 + n)

/-- scale_from of R53: the new CUR, with ERR and SAT. `h` and the old CUR are B16 codes. -/
def scaleFrom (h target margin cur : Nat) : Nat × Bool × Bool :=
  let hm := h % 0x8000
  if target > 4 then (cur, true, false)
  else if hm > 0x7F80 then (cur, true, false)
  else if hm = 0 then (0x3F80, false, false)
  else if hm = 0x7F80 then (0x7F7F, false, true)
  else
    match ofB hm with
    | .fin _ a =>
      let s := magDiv (magMul a (magPow margin)) (largest (fmtD target))
      if magLt (largest .b16) s then (0x7F7F, false, true)
      else if magLt s (magPow (-126)) then (0x0080, false, false)
      else
        match amaxCode (.fin false s) with
        | some c => if c > 0x7F7F then (0x7F7F, false, true) else (c, false, false)
        | none => (cur, true, false)
    | _ => (cur, true, false)

/-- The larger of two history magnitudes, NaN when either is NaN; sign bits are ignored (R53). -/
def hmax (a b : Nat) : Nat :=
  let x := a % 0x8000
  let y := b % 0x8000
  if x > 0x7F80 then x else if y > 0x7F80 then y else max x y

end Sys2Proof.Machine
end

