-- ==== Sys2Proof/Messages.lean ====
section
/-! DEFINITION. The messages that packages, dies and the outside send one another, as the commands carry them. -/

set_option linter.unusedVariables false

namespace Sys2Proof

/-- How an SRAM or stack access comes out under its code (R253, R306, R307). -/
inductive Ecc where
  | ok
  /-- a correctable error, corrected and written back -/
  | ce
  /-- an uncorrectable error -/
  | ue
  deriving DecidableEq, Repr

/-- How a Thresher's read of one burst ends where it does not end clean (R211, R253, R255): the tensor and shard it reads for, the burst's byte offset in the shard's area, the outcome. -/
structure Upset where
  tensor : Nat
  shard : Nat
  off : Nat
  ecc : Ecc
  deriving DecidableEq, Repr

/-- A master of register space (R380, R384): a thread, the host through BAR0 or BAR2, the host through BAR4, the Husk controller, an engine of a site. -/
inductive Master where
  | thread
  | host
  | bar4
  | husk
  | engine (site kind : Nat)
  deriving DecidableEq, Repr

/-- AMAX and TOUCHED of one tracked scale group (R52, R216): slot, TAG, AMAX, TOUCHED. -/
structure ScaleMax where
  slot : Nat
  tag : Nat
  amax : Nat
  touched : Bool
  deriving DecidableEq, Repr

/-- The norm accumulator of one group: the sum in units of 2^-200 and the overflow mark (R209). -/
structure NormAcc where
  group : Nat
  sum : Nat
  ovf : Bool
  deriving DecidableEq, Repr

/-- NORM and FCLIP of one group (R209). -/
structure NormRes where
  group : Nat
  norm : Nat
  fclip : Nat
  deriving DecidableEq, Repr

/-- Outflow and inflow totals of one kind of holding for one step (R319). -/
structure FlowTot where
  kind : Nat
  outf : Nat
  inf : Nat
  deriving DecidableEq, Repr

/-- READY (R216): what a package reports when it is locally ready. -/
structure ReadyMsg where
  pos : Nat
  step : Nat
  epoch : Nat
  scales : List ScaleMax
  vref : List Nat
  norms : List NormAcc
  nan : Bool
  diverged : Bool
  mismatch : Bool
  flows : List FlowTot
  deriving DecidableEq, Repr

/-- COMMIT (R217). -/
structure CommitMsg where
  step : Nat
  epoch : Nat
  scales : List ScaleMax
  vsum : List Nat
  norms : List NormRes
  deriving DecidableEq, Repr

/-- MEMBER (R299): the next epoch, the membership as a 64-bit map, and the UP links of each position. -/
structure MemberMsg where
  epoch : Nat
  mem : Nat
  links : List Nat
  deriving DecidableEq, Repr

/-- A reduced record on its way from a root to the Thresher of a replica owner (R235, R309): step, tensor, tile origin / 32, ordinal, count, status word, the root's position, tile checksum, the 1,024 B16 codes. -/
structure RedRec where
  step : Nat
  tensor : Nat
  row : Nat
  col : Nat
  ord : Nat
  n : Nat
  sta : W32
  root : Nat
  chk : Nat
  data : List Nat
  deriving DecidableEq, Repr

/-- An end-of-step mark (R236). -/
structure EosMark where
  step : Nat
  tensor : Nat
  root : Nat
  deriving DecidableEq, Repr

/-- A parity delta of one block (R332): tensor, group of shards, member index in it, plane, block, the XOR, the new digest. -/
structure ParDelta where
  tensor : Nat
  group : Nat
  member : Nat
  plane : Nat
  block : Nat
  step : Nat
  delta : List Byte
  digest : Nat
  deriving DecidableEq, Repr

/-- The master that an access was made for, as a report names it (R255, R314): site, unit and thread, 0xFF where there is none. -/
structure Who where
  site : Nat
  unit : Nat := 0xFF
  thr : Nat := 0xFF
  deriving DecidableEq, Repr

/-- A request at a channel of a stack (R250, R251, R253): source 0 or 1 for a port, 2 for the zone's Thresher engine; stack offset; a read of `n` bytes, or a write of `data`; the symbol errors of the burst as it is read, as (symbol, error); the master it is made for; whether the flit CRC of a write passes (R254). -/
structure StackReq where
  src : Nat
  off : Nat
  write : Bool
  n : Nat
  data : List Byte
  err : List (Nat × Nat)
  who : Who := { site := 62 }
  crc : Bool := true
  deriving DecidableEq, Repr

/-- What the self-test of one edge finds (R262, step 2): at the started die's receiver and at the facing one, failing lanes and locked clocks. -/
structure EdgeTest where
  e : Nat
  failed : Nat
  ck : Nat
  farFailed : Nat
  farCk : Nat
  deriving DecidableEq, Repr

/-- The end of a link that an audit marker belongs to (R320). -/
inductive LinkEnd where
  | port (n : Nat)
  | edge (site e : Nat)
  deriving DecidableEq, Repr

/-- What is on its way between two packages of the pack, or inside one: an entry of a collective queue with its data, a reduced record, an end-of-step mark, a parity delta. -/
inductive Cargo where
  | coll (entry data : List Byte)
  | red (r : RedRec)
  | eos (m : EosMark)
  | delta (d : ParDelta)
  deriving DecidableEq, Repr

/-- A flit of the on-die network and the pack links (R264, R279, R285, R294, R295): its 256 bits, virtual channel (0 request, 1 response, 2 engine bulk, 3 management), links crossed so far, the position and site it comes from and goes to, its number in that sequence. -/
structure Flit where
  body : Nat
  ch : Nat
  hop : Nat := 0
  sp : Nat
  ss : Nat
  dp : Nat
  ds : Nat
  num : Nat
  deriving DecidableEq, Repr

/-- A flit that a die has to send: its bits, channel, and the position and site it goes to. -/
structure FlitReq where
  body : Nat
  ch : Nat
  dp : Nat
  ds : Nat
  deriving DecidableEq, Repr

/-- A holder report of R322: the holder's position, the queue's QID, the credits held. -/
structure HolderRep where
  pos : Nat
  qid : Nat
  n : Nat
  deriving DecidableEq, Repr

/-- A readiness supplement (R341): position, step, and the consumer index of each input queue, by QID. -/
structure Supplement where
  pos : Nat
  step : Nat
  cons : List (Nat × Nat)
  deriving DecidableEq, Repr

/-- A message of a governor or of the hub on the management channel (R280, R401): KIND 0x20 status, 0x21 OFFER, 0x22 ACCEPT, 0x23 REFUSE; from and to a site, 62 the hub. A status of the hub carries a recall in `amt` and a pool offer in `pool`. -/
structure GovMsg where
  kind : Nat
  src : Nat
  dst : Nat
  seq : Nat
  use : Nat
  cap : Nat
  amt : Nat := 0
  ref : Nat := 0
  pool : Nat := 0
  /-- the sender's feature level as it reports it (R281) -/
  level : Nat := 0
  deriving DecidableEq, Repr

/-- What AER records as an uncorrectable error (R366, R367): Poisoned TLP Received, Completer Abort, Unsupported Request, Uncorrectable Internal Error. -/
inductive AerErr where
  | poisoned
  | completerAbort
  | unsupported
  | internal
  deriving DecidableEq, Repr

/-- A configuration request (R357): reads by what they name, writes of what the model holds. -/
inductive CfgReq where
  | ids
  | classRev
  | subsys
  | serial (hi : Bool)
  | other (word : Nat)
  | setB (b : Nat)
  | setMsix (on mask : Bool)
  | setD0
  /-- AER's uncorrectable error status is read; bits written 1 are cleared -/
  | aer
  | clearAer (v : W32)
  | write (word : Nat) (v : W32)
  deriving DecidableEq, Repr

/-- An answer of the SPDM responder and of DOE (R373, R421, R422). -/
inductive SpdmResp where
  | none
  | version (vs : List Nat)
  | capabilities (cert chal meas sessions : Bool)
  /-- SM2_ECC_SM2_P256, SM3_256, SM3_256 for measurements -/
  | algorithms (asymSm2 hashSm3 measSm3 : Bool)
  | digests (slot0 : List Byte)
  | certificate (portion : List Byte) (left : Nat)
  | challengeAuth (sig : List Byte)
  | measurements (record sig : List Byte)
  | unsupported
  | unspecified
  /-- DOE Discovery: the protocols the instance supports -/
  | discovery (protocols : List Nat)
  deriving DecidableEq, Repr

/-- How a host request ended (R364 to R366): data, or its status. -/
inductive Cpl where
  | data (bs : List Byte)
  | written
  /-- Completer Abort, Unsupported Request, Request Retry Status -/
  | ca
  | ur
  | rrs
  deriving DecidableEq, Repr

/-- The values of a stream slot that are in effect at the replicas (R79). -/
structure Strm where
  ctl : W32 := 0
  k0 : W32 := 0
  k1 : W32 := 0
  k2 : W32 := 0
  k3 : W32 := 0
  deriving DecidableEq, Repr

/-- A consistent cut (R339): step, epoch, position, serial number, the COMMIT as received, registers by key, stream slots in effect. -/
structure Cut where
  step : Nat
  epoch : Nat
  pos : Nat
  serial : Nat
  floor : Nat
  commit : Option CommitMsg
  regs : List (Nat × W32)
  strm : List (Nat × Strm)
  deriving DecidableEq, Repr

/-- A message one package sends another on the management channel. -/
inductive Msg where
  /-- a follower logged an error or fatal record (R370) -/
  | errorPos (pos : Nat)
  /-- an arm of the warm-up exchange (R57) -/
  | arm (slot tag ncopy pre : Nat)
  /-- the combined PRE of a warm-up group (R57) -/
  | combined (slot tag pre : Nat)
  | ready (m : ReadyMsg)
  | commit (m : CommitMsg)
  | sealAck (pos step : Nat)
  /-- the combined sweep accumulator of a group (R212) -/
  | sweepAcc (pos step : Nat) (a : NormAcc)
  /-- NORM and FCLIP of a sweep group (R212) -/
  | sweepNorm (step : Nat) (r : NormRes)
  /-- the leader leaves HELD pack-wide (R344) -/
  | resume
  /-- a request that the pack revert, with the code it rests on (R343) -/
  | revertReq (pos cause : Nat)
  | revert (step epoch : Nat)
  | revertDone (pos step : Nat)
  | reclaim (step : Nat)
  | holderReport (r : HolderRep)
  | reclaimDone (pos : Nat)
  | supplement (m : Supplement)
  /-- a package's cut goes to its mirror's slot (R340) -/
  | cut (slot pos step : Nat)
  /-- a member reached permute barrier `n`, and the leader releases it (R245) -/
  | permBarrier (pos n : Nat)
  | permRelease (n : Nat)
  | permDone (pos : Nat)
  /-- ASSIGN (R296): position, serial of the package it is for, the assigned position that sends it on and its port -/
  | assign (pos serial via port : Nat)
  | member (m : MemberMsg)
  | memberAck (pos epoch : Nat)
  /-- PORT_DOWN (R301): both ends of the link, as position and port -/
  | portDown (pos port farPos farPort : Nat)
  | pkgFail (pos : Nat)
  /-- the digests of the new blocks of replica `rep` of a shard, for the owner of replica 0 (R223) -/
  | digests (step tensor shard rep : Nat) (digs : List Nat)
  | leadClaim (pos epoch : Nat)
  /-- the leader sends its image to a new member (R417) -/
  | image (pos : Nat)
  deriving DecidableEq, Repr

end Sys2Proof
end

