-- ==== Sys2Proof/Machine/Pack.lean ====
section
/-! DEFINITION. The records that the state of the pack is made of. -/

set_option linter.unusedVariables false

namespace Sys2Proof.Machine

/-- A tile descriptor, W0 to W4 (R120). -/
structure Tile where
  w0 : Word := 0
  w1 : Word := 0
  w2 : Word := 0
  w3 : Word := 0
  w4 : Word := 0
  deriving DecidableEq, Repr

/-- The state of a thread (R91). -/
inductive TState where
  | idle
  | ready
  | wait
  | fault
  deriving DecidableEq, Repr

/-- An operation handed to an array, an engine or a queue: its issue number, thread, fields, descriptor copies (R122) and the scalar operands read at issue. -/
structure OpRec where
  seq : Nat
  t : Tid
  pc : BitVec 16
  op : Op
  f : Fields
  td : Tile
  ta : Tile
  tb : Tile
  tc : Tile
  v : List Word
  deriving DecidableEq, Repr

/-- What a waiting thread waits for (R91). -/
inductive Wait where
  /-- a memory response, an access limit or a register still to be loaded; the instruction issues again -/
  | mem
  /-- issue held for a seal (R219); the instruction issues again -/
  | seal
  /-- a fence of R108 -/
  | fence (op : Op)
  /-- TTAKE (`take`) or TWAIT -/
  | token (ctr n : Nat) (take : Bool) (pd : Nat) (tmr : Option Nat)
  /-- CTAKE with all 16 credit-table entries in use (R153); the instruction issues again -/
  | credTab (pd : Nat) (tmr : Option Nat)
  /-- CTAKE in its queue's line -/
  | ctake (pos qid n pd : Nat) (tmr : Option Nat)
  /-- QPUSH or CONTRIB without the credits it needs -/
  | push (r : OpRec)
  /-- QPOP in its queue's line -/
  | qpop (pos qid n pd : Nat) (tmr : Option Nat)
  /-- KRESERVE in its stage's line -/
  | kres (stage mbid bytes pd : Nat)
  /-- the input queue of an array or engine is full (R92); the result predicate and the timer of an instruction that names one -/
  | room (r : OpRec) (pd : Nat) (tmr : Option Nat)
  /-- the response of a queue's home, the hub or a timer bank -/
  | resp (d : Nat)
  deriving DecidableEq, Repr

/-- A thread (R89, R110, R130). `preds` is p7 to p0, p0 hard-wired. -/
structure Thread where
  st : TState := .idle
  pc : BitVec 16 := 0
  regs : Map Word := []
  tiles : Map Tile := []
  preds : BitVec 8 := 1
  sstat : Nat := 0
  cause : Nat := 0
  fpc : BitVec 16 := 0
  faddr : Word := 0
  prio : Nat := 0
  theh : W32 := 0
  wait : Option Wait := none
  /-- when the wait began, among all waits of the package -/
  wseq : Nat := 0
  deriving DecidableEq, Repr

/-- A token counter (UNIT.TOKn). -/
structure Tok where
  count : Nat := 0
  sat : Bool := false
  deriving DecidableEq, Repr

/-- Where a stochastic draw comes from (R82): the key, STEP, the 16-bit field, SITEF and lane of its counter. -/
structure Draw where
  key : Nat
  step : Nat
  f16 : Nat
  site : Nat
  lane : Nat
  deriving DecidableEq, Repr

/-- What an A16 tile still has to take in, until a consuming descriptor gives its coordinates (R124). -/
inductive Late where
  /-- k-block `b`: its draw, the 1,024 contributions, and the flags already raised -/
  | blk (b : Nat) (dr : Draw) (xs : List Val) (fl : Flg)
  /-- a program write to the status word -/
  | sta (v : W32)
  deriving DecidableEq, Repr

/-- An accumulator tile (R59, R60, R68): element codes, status word, recorded slots, k-blocks since zeroing, deferred A16 work. -/
structure Acc where
  els : List Nat := List.replicate 1024 0
  sta : W32 := 0xFFFF0000#32
  sa : Nat := 0
  sb : Nat := 0
  kb : Nat := 0
  late : List Late := []
  deriving DecidableEq, Repr

/-- An entry of a unit's credit table (R153). -/
structure Cred where
  pos : Nat
  qid : Nat
  n : Nat
  deriving DecidableEq, Repr

/-- A load in flight: its issue number, thread, instruction index, address, size in bytes, sign extension, register. -/
structure Load where
  seq : Nat
  t : Tid
  pc : BitVec 16
  addr : Word
  size : Nat
  sx : Bool
  d : Nat
  /-- its read ended with an uncorrectable error: the register is never written (R255) -/
  stuck : Bool := false
  /-- it has reached the array of a status word: operations on the tile still in front of it (R448) -/
  reach : Option Nat := none
  deriving DecidableEq, Repr

/-- A store in flight. -/
structure Store where
  seq : Nat
  t : Tid
  pc : BitVec 16
  addr : Word
  size : Nat
  data : Word
  /-- it was discarded with the stack port it passed through (R252) -/
  stuck : Bool := false
  /-- as a load's -/
  reach : Option Nat := none
  deriving DecidableEq, Repr

/-- A master's access to a status word that waits at its array (R448): the tile, the word written or none for a read, the operations on the tile in front of it. -/
structure AccReq where
  site : Nat
  unit : Nat
  arr : Nat
  tile : Nat
  /-- the package whose master it is -/
  src : Nat
  w : Option W32
  ahead : Nat
  deriving DecidableEq, Repr

/-- A request at a queue's home engine (R131, R154). -/
structure QReq where
  seq : Nat
  r : OpRec
  /-- the home package's site and the queue -/
  site : Nat
  qid : Nat
  n : Nat
  deriving DecidableEq, Repr

/-- Tokens on their way to a counter (R100), from the instruction at `pc`. -/
structure Flight where
  seq : Nat
  pc : BitVec 16
  src : Tid
  dst : Tid
  ctr : Nat
  n : Nat
  /-- the package of the issuing thread must have performed its writes older than `seq` (R107) -/
  rel : Bool
  /-- running step of the sender (R317) -/
  step : Nat
  deriving DecidableEq, Repr

/-- A record of the error log (R314). -/
structure LogRec where
  code : Nat
  pos : Nat
  site : Nat
  unit : Nat
  thr : Nat
  step : Nat
  epoch : Nat
  seq : Nat
  a0 : Nat
  a1 : Nat
  a2 : Nat
  deriving DecidableEq, Repr

/-- A stream write that has not yet reached every replica: the slot, the register's place in it, the value (R79). -/
structure StrmPost where
  slot : Nat
  off : Nat
  v : W32
  deriving DecidableEq, Repr

/-- The leader's entry of the warm-up exchange (R57). -/
structure Arms where
  slot : Nat
  tag : Nat
  pre : Nat
  n : Nat
  deriving DecidableEq, Repr

/-- The totals of one flow bank (R319): outflow and inflow. -/
structure Flow where
  outf : Nat := 0
  inf : Nat := 0
  deriving DecidableEq, Repr

/-- The state of a compute site: fused and field state (R18, R19, R276). -/
inductive SiteSt where
  | active
  | spare
  | off
  | failed
  deriving DecidableEq, Repr

/-- What a Thresher holds of one tile in the running step (R197, R208): next ordinal, sum of counts, applied, records held ahead of their turn. -/
structure TileSt where
  next : Nat := 0
  cnt : Nat := 0
  done : Bool := false
  held : List RedRec := []
  deriving DecidableEq, Repr

/-- What an owner holds of one shard in the running step: complete (R208), stopped (R211), pass 1 run, NORM and FCLIP received, pass 2 run (R212), replicas compared (R223), digests received of other replicas. -/
structure ShardSt where
  mark : Bool := false
  stop : Bool := false
  p1 : Bool := false
  nr : Bool := false
  p2 : Bool := false
  cmp : Bool := false
  digs : List (Nat × List Nat) := []
  deriving DecidableEq, Repr

/-- The Threshers of a package (R207 to R212). Norm accumulators are the exact sums of the engines' accumulators, in units of 2^-200 (R209). -/
structure Thresher where
  /-- by tensor and tile: tensor × 2^32 + row × 2^16 + column -/
  tiles : Map TileSt := []
  /-- by tensor and shard: tensor × 2^16 + shard -/
  shards : Map ShardSt := []
  norms : Map (Nat × Bool) := []
  /-- records and marks that wait in staging: for a later step, or for a gather that still reads the ring slot they write (R211, R215) -/
  late : List RedRec := []
  lateMarks : List EosMark := []
  /-- the step is marked NaN (R211); a divergence has halted the job (R224) -/
  nan : Bool := false
  diverged : Bool := false
  /-- tensors whose enable waits for the owners' first digest pass (R204) -/
  passes : List Nat := []
  deriving DecidableEq, Repr

/-- A gather request resolved at a shard owner (R213): the gather's issue number, tensor, shard, owner package, replica, ring slot. -/
structure GReq where
  seq : Nat
  tensor : Nat
  shard : Nat
  pk : Nat
  rep : Nat
  slot : Nat
  deriving DecidableEq, Repr

/-- A record in an inbound queue (R226, R227, R233): site, queue, ring index, source position, mark or contribution, its fields, whether it is gleaned, its instance closed, the entry released. -/
structure Inb where
  site : Nat
  q : Nat
  idx : Nat
  src : Nat
  isMark : Bool
  group : Nat
  step : Nat
  tensor : Nat
  row : Nat
  col : Nat
  ord : Nat
  sta : W32
  data : List Nat
  glean : Bool := false
  closed : Bool := false
  freed : Bool := false
  /-- its TCHK failed (R233) -/
  bad : Bool := false
  /-- it arrived after its step had closed, and is classified once LSTEP reads that step (R239) -/
  after : Bool := false
  deriving DecidableEq, Repr

/-- An instance that has closed at its root and awaits delivery to its owners (R235). -/
structure Deliver where
  group : Nat
  step : Nat
  tensor : Nat
  row : Nat
  col : Nat
  ord : Nat
  /-- packages that have still to write it -/
  left : List Nat
  deriving DecidableEq, Repr

/-- A group's step at a package (R236, R237): deadline running, step closed, and the late map of the step after a closed one whose deadline has already expired. -/
structure CollSt where
  run : Bool := false
  closed : Bool := false
  exp : Option Nat := none
  deriving DecidableEq, Repr

/-- The collective engines and the permute of a package. -/
structure Colls where
  inb : List Inb := []
  /-- contributions taken, by (group, step, source) and (tensor, row, column, ordinal): what a second record is told by (R233) -/
  seen : List ((Nat × Nat × Nat) × (Nat × Nat × Nat × Nat)) := []
  out : List Deliver := []
  st : Map CollSt := []
  /-- destinations already sent for the head entry of an outgoing queue, by site × 4096 + queue -/
  sent : Map Nat := []
  /-- destinations that have still to write an outgoing entry: (queue key, index, count) -/
  acks : List (Nat × Nat × Nat) := []
  /-- credits of inbound queues held by each source position: (queue key, position, count) -/
  cred : List (Nat × Nat × Nat) := []
  gath : List GReq := []
  /-- tiles of gathers already written, by issue number and tile -/
  tilesIn : List (Nat × Nat) := []
  /-- permute (R244, R245): block of the entry running, barriers reached, waiting at one; the leader's members at a barrier, as position + 64 × ordinal, and done -/
  pblk : Nat := 0
  pbar : Nat := 0
  pwait : Bool := false
  lbar : List Nat := []
  ldone : List Nat := []
  deriving DecidableEq, Repr

/-- The leader's part of a seal (R217, R220) and of a sweep (R212): READYs held, members to acknowledge, REQ written, seal record, sweep accumulators by position. -/
structure Leader where
  ready : List ReadyMsg := []
  acks : List Nat := []
  req : Bool := false
  record : Option CommitMsg := none
  sweep : List (Nat × NormAcc) := []
  /-- RESUME was written and waits for builds and images (R329) -/
  resume : Bool := false
  /-- HOLD for the pack after the host link was lost (R221) -/
  hostLost : Bool := false
  /-- a revert runs (R344): members still to report; members still to finish the reclaim -/
  reverting : List Nat := []
  /-- a revert was asked for while a COMMIT is applied (R346) -/
  revPend : Bool := false
  reclaiming : List Nat := []
  /-- positions that MEMBER has added and that the running image is still to be sent to (R417) -/
  push : List Nat := []
  /-- flow totals of each position by step, for the audit of R319 -/
  flows : List (Nat × Nat × List FlowTot) := []
  deriving DecidableEq, Repr

/-- Protection and the seal at a package (R216 to R221, R325 to R354). -/
structure Prot where
  /-- COMMIT received, not yet applied (R219) -/
  commit : Option CommitMsg := none
  /-- the leader enters HELD once every ACK is in -/
  parked : Bool := false
  /-- own cut banks 0 and 1, then mirror banks 2 + 2j + b -/
  cuts : Map Cut := []
  /-- supplements received for other packages, by position -/
  supps : Map Supplement := []
  /-- the step whose supplement the mirror has acknowledged, plus one -/
  suppAck : Nat := 0
  /-- delta-stream records that still wait for credits (R336) -/
  dq : List (List Byte) := []
  /-- blocks marked for repair (R327): tensor, shard, plane, block -/
  repair : List (Nat × Nat × Nat × Nat) := []
  /-- parity groups this package holds and has still to build before the pack leaves HELD (R335): tensor × 2^16 + group -/
  build : List Nat := []
  /-- PROT.TMODE.MODE of each tensor as it is in effect: as it stood when the pack last left HELD (R329) -/
  modes : Map Nat := []
  /-- last eight changed fractions of a tensor, in 1/256 (R328) -/
  chg : Map (List Nat) := []
  /-- positions declared lost, as a 64-bit map (R301) -/
  gone : Nat := 0
  /-- seals since the last CUT record was pushed -/
  sinceCut : Nat := 0
  /-- CUT copies placed so far (R342) -/
  cutSeq : Nat := 0
  /-- the step, plus one, whose parity deltas, delta records and supplement have been sent (R332, R337, R341) -/
  prep : Nat := 0
  /-- an uncorrectable error, a TCHK mismatch or a failed schedule evaluation keeps the package from becoming ready (R210, R233, R255, R308) -/
  bad : Bool := false
  /-- DELTA tensors whose full image has still to be pushed (R338) -/
  image : List Nat := []
  /-- a written MEMNEXT waits for the next seal (R299) -/
  memPend : Bool := false
  /-- a REVERT came while a COMMIT was still to be applied, and takes effect after it (R220) -/
  revWait : Bool := false
  /-- a revert at this member (R344): 0 none, 1 quiesced and waiting for the reclaim -/
  rev : Nat := 0
  /-- UP links of each position as this member counts them (R301), and the PORT_DOWN reports it has taken -/
  links : Map Nat := []
  downs : List ((Nat × Nat) × (Nat × Nat)) := []
  /-- holder reports received at a home (R322) -/
  reps : List (Nat × List (Nat × Nat)) := []
  /-- tensors of a takeover whose blocks the host writes (R350) -/
  hostBlocks : List Nat := []
  deriving DecidableEq, Repr

/-- The channels of the stacks (R250, R253, R256): the source the rotation looks at next, refreshes postponed by bank, the burst the scrub reads next, each by key; the burst read last, as (source, stack, offset, bytes), the model's own record of a delivery. -/
structure Stacks where
  rot : Map Nat := []
  post : Map Nat := []
  scrub : Map Nat := []
  read : Option (Nat × Nat × Nat × List Byte) := none
  deriving DecidableEq, Repr

/-- What an end of a link counts by buffer class, modulo 2^32 (R320): flits sent and received, credits returned and received, and received flits whose credits are still to be returned. -/
structure Tot where
  sent : Map Nat := []
  rcv : Map Nat := []
  ret : Map Nat := []
  got : Map Nat := []
  owed : Map Nat := []
  /-- an audit marker of the last seal is still on its way to the other end -/
  mark : Bool := false
  deriving DecidableEq, Repr

/-- A frame or packet as its sender keeps it until it is acknowledged (R265, R271, R287): sequence number, flits, the credits and the map announcement it carries. -/
structure SentFrm where
  n : Nat := 0
  flits : List Flit
  ret : List (Nat × Nat) := []
  mapu : Option Nat := none
  /-- its buffer ended with an uncorrectable error: its flits are not delivered (R308) -/
  bad : Bool := false
  deriving DecidableEq, Repr

/-- One end of a pack link (R282 to R293): the receiver's part, then the sender's. -/
structure Link where
  /-- next FSEQ, a data frame has been received (ACKV), a NAK stands -/
  next : Nat := 0
  seen : Bool := false
  nak : Bool := false
  tot : Tot := {}
  /-- corrected symbols below a unit of PORT.FEC.CORR -/
  corr : Nat := 0
  /-- bytes 0 to 27 of the last valid beat; its BSEQ -/
  beat : List Byte := []
  rxseq : Nat := 0
  /-- the package and port at the other end of the cable; lane order found reversed, lanes found inverted (R282) -/
  peer : Option (Nat × Nat) := none
  rev : Bool := false
  pol : Nat := 0
  /-- frames not acknowledged, the next new FSEQ, where a NAK made it go back to; credits by buffer class -/
  retry : List SentFrm := []
  sn : Nat := 0
  back : Option Nat := none
  credits : Map Nat := []
  /-- next BSEQ; DOWN beats still to be sent (R292) -/
  bseq : Nat := 0
  dwn : Nat := 0
  deriving DecidableEq, Repr

/-- One end of a die-to-die edge (R260 to R275): the receiving bundle, and the sender's part of the other bundle. -/
structure Edge where
  /-- ECTL.STATE: 0 OFF, 1 TRAIN, 2 MAIN, 3 FALLBACK, 4 DOWN -/
  state : Nat := 0
  half : Bool := false
  /-- clocks locked, one bit a group -/
  ck : Nat := 0
  /-- lanes marked bad, and the marks that the lane map in use knows -/
  bad : Nat := 0
  map : Nat := 0
  autoret : Bool := true
  ferlim : Nat := 64
  fercnt : Nat := 0
  resend : Nat := 0
  fbk : Nat := 0
  /-- ELAST -/
  last : W32 := 0
  /-- next FSEQ or PSEQ to be taken; a NAK stands -/
  next : Nat := 0
  nak : Bool := false
  /-- CRC failures of the running 1 ms window; the receiver's time in frames, and by physical lane the times of its parity failures (R268) -/
  fails : Nat := 0
  now : Nat := 0
  lanes : Map (List Nat) := []
  /-- a switch announced: the FSEQ, into the fallback; the sender knows of it -/
  pend : Option (Nat × Bool) := none
  told : Bool := false
  /-- MAPU words that the next frames out of this end have still to carry -/
  ann : List Nat := []
  /-- sender: frames or packets not acknowledged, the next new number, where a NAK made it go back to, flits that wait to be sent again in another form, packet credits; packet buffers freed whose credits have not been returned -/
  retry : List SentFrm := []
  sn : Nat := 0
  back : Option Nat := none
  todo : List SentFrm := []
  credits : Nat := 1024
  powed : Nat := 0
  tot : Tot := {}
  /-- the seal, plus one, at which a retrain was last tried, or which the fallback was entered after -/
  tried : Nat := 1
  deriving DecidableEq, Repr

/-- The network of dies: edges by site × 8 + edge (edge 4 the hub port of sites 41 and 42; site 62 the hub's ends), the hub's routing version, tables written and not yet taken, dies' tables by site × 64 + destination. -/
structure Net where
  edges : Map Edge := []
  ver : Nat := 0
  sent : List (Nat × Nat × List Nat) := []
  tab : Map Nat := []
  tver : Map Nat := []
  /-- flits that stand at a site and have still to leave it -/
  hold : List (Nat × Flit) := []
  /-- next number of each sequence sent and received, and the reorder buffers (R279, R295) -/
  tx : Map Nat := []
  rx : Map Nat := []
  reord : List Flit := []
  /-- the flits that the last frame or packet delivered to their site, the model's own record -/
  got : List Flit := []
  deriving DecidableEq, Repr

/-- A governor (R280, R399 to R403): periods below its budget in a row, its message number, the OFFER that awaits an answer as (to, number, amount), the recall it has still to answer, the last status of each neighbour as (USE, CAP), the steps that budget and heat call for. -/
structure Gov where
  below : Nat := 0
  seq : Nat := 0
  offer : Option (Nat × Nat × Nat) := none
  rcl : Nat := 0
  nbr : Map (Nat × Nat) := []
  /-- receivers that an OFFER, ACCEPT or REFUSE has reached in this period -/
  told : List Nat := []
  capStep : Nat := 0
  heat : Nat := 0
  deriving DecidableEq, Repr

/-- The governors, the hub's budget and what it knows of the dies (R398 to R402). Amounts in 0.25 W. -/
structure Power where
  gov : Map Gov := []
  msgs : List GovMsg := []
  known : Map (Nat × Nat) := []
  /-- the hub's unanswered OFFERs: site, number, amount -/
  offers : List (Nat × Nat × Nat) := []
  pool : Nat := 0
  served : Nat := 0
  seq : Nat := 0
  /-- input samples since PLIM changed, the limit before; samples in a row below PLIM -/
  limAge : Nat := 200
  oldLim : Nat := 6500
  calm : Nat := 0
  deriving DecidableEq, Repr

/-- The Husk, the pins, the TAP, the boot and the responders. -/
structure Husk where
  /-- VAON is in range -/
  vaon : Bool := true
  /-- 0 S3, 1 S1, 2 P0 or P1 -/
  state : Nat := 0
  /-- the package is held in package reset by PERST_N; PERST_N, PWR_OK, REFCLK and LEAD_N as the Husk sees them -/
  rst : Bool := false
  perst : Bool := true
  pwrok : Bool := false
  ref : Bool := true
  leadLow : Bool := false
  /-- the package has failed for the loss of REFCLK (R390) -/
  failed : Bool := false
  /-- trip wires that have fired; THERM_N asserted; FAULT_N low for a lend-ready pulse -/
  trips : List Nat := []
  therm : Bool := false
  pulse : Bool := false
  /-- the quote being signed, without its signature -/
  quote : Option (List Byte) := none
  /-- MCTP endpoint ID, the last response: completion code and data -/
  eid : Nat := 0
  resp : Nat × List Byte := (0, [])
  /-- TAP: instruction in effect, boundary cells, what shifts out -/
  tapIr : Nat := 1
  tapCells : Nat := 0
  tapOut : Nat := 0
  /-- what the instruction register has shifted out -/
  irOut : Nat := 0
  /-- SPDM negotiated so far: 0 nothing, 1 version, 2 capabilities, 3 algorithms; the last answer -/
  spdm : Nat := 0
  answer : SpdmResp := .none
  /-- PCI Express: D3hot, B of Resizable BAR, MSI-X enabled and its function mask, other configuration words written; the last completion and the last interrupt message as address and data -/
  d3 : Bool := false
  barB : Nat := 36
  msixOn : Bool := false
  msixMask : Bool := false
  cfg : Map W32 := []
  /-- errors that AER has recorded, each once -/
  aer : List AerErr := []
  cpl : Cpl := .written
  msi : Option (Nat × Nat) := none
  deriving DecidableEq, Repr

/-- Fuses blown in the field (R418, R419): rollback counter and revoked slots, over what was fused. -/
structure Fuses where
  svn : Nat := 0
  rev : Nat := 0
  deriving DecidableEq, Repr

/-- A packet between packages: from, to, the queue it is for, the outgoing queue's key and ring index it came from, its content. -/
structure Wire where
  src : Nat
  dst : Nat
  dq : Nat
  qk : Nat
  idx : Nat
  body : Cargo
  deriving DecidableEq, Repr

/-- What a write needs that the written word does not hold: how STANDBY ends, the self-tests of a DIERESET, the image that RESTORE reads, an upset of an index, the read of a cosine table (R150, R206, R352, R395, R397). -/
structure WrX where
  stuck : Bool := false
  tests : List EdgeTest := []
  cuts : List Cut := []
  crc : Bool := false
  /-- bits of an index's first and second copy that flip as a doorbell stores it (R150) -/
  upset : Nat := 0
  ecc : Ecc := .ok
  deriving DecidableEq, Repr

/-- A posted write on its way to its domain and replicas (R379): the register whose BUSY covers it, its site and offset, the word. -/
structure Post where
  key : Nat
  site : Nat
  off : Nat
  v : W32
  x : WrX := {}
  deriving DecidableEq, Repr

/-- One package. Tables are keyed by number: a die-wide thread key, counter key, tile key or register key. -/
structure Pkg where
  /-- every register of space 0x3 that is not derived from the fields below -/
  regs : Map W32 := []
  thr : Map Thread := []
  tok : Map Tok := []
  acc : Map Acc := []
  /-- the thread of a unit that issued last (R92) -/
  last : Map Nat := []
  /-- each unit's credit table (R153) -/
  ctab : Map (List Cred) := []
  loads : List Load := []
  stores : List Store := []
  /-- operations handed to the arrays, and to the engines -/
  aops : List OpRec := []
  eops : List OpRec := []
  /-- accesses of masters that wait at an array for a status word (R448) -/
  accq : List AccReq := []
  /-- requests at the queue engines of this package's dies -/
  qops : List QReq := []
  /-- issue and wait numbers -/
  seq : Nat := 0
  /-- second copies of a queue's indices (R150), and the queue each engine served last (R156) -/
  qcopy : Map (W32 × W32) := []
  qlast : Map Nat := []
  log : Map LogRec := []
  logSeq : Nat := 0
  strm : Map Strm := []
  strmPost : List StrmPost := []
  /-- the registers whose BUSY bit reads 1 (R379) -/
  busy : List Nat := []
  /-- posted writes that have not yet reached their domain and every replica, and whose effect is not visible (R379) -/
  posts : List Post := []
  /-- slots whose arm has been sent in the current step (R57), by scale register key -/
  armed : List Nat := []
  /-- the leader's warm-up entries (R57) -/
  arms : List Arms := []
  /-- the groups whose combined value the leader has sent in the current step -/
  armDone : List (Nat × Nat) := []
  /-- stashed bytes by MBID and offset (R134) -/
  kst : Map Byte := []
  /-- booked balances by kind and place, and flow banks (R316, R319) -/
  booked : Map Nat := []
  flows : Map Flow := []
  /-- the sites fused SPARE or OFF, and what became of the others; an unlisted site is ACTIVE -/
  sites : Map SiteSt := []
  /-- dies that have finished their start (R371, R412) -/
  started : Map Bool := []
  /-- the straps that each die has read, as (site code, orientation code) (R17) -/
  straps : Map (Nat × Nat) := []
  /-- the correctable count of each die (R307) -/
  ce : Map Nat := []
  /-- SMB_ALERT_N is asserted (R436) -/
  smb : Bool := false
  /-- the HIF page and the MSI-X latches by key -/
  hif : Map W32 := []
  msix : Map Bool := []
  /-- messages sent to other packages, newest first -/
  sent : List Msg := []
  tr : Thresher := {}
  co : Colls := {}
  ld : Leader := {}
  pr : Prot := {}
  sk : Stacks := {}
  net : Net := {}
  /-- the ends of the pack links, by port -/
  links : Map Link := []
  /-- regions whose array clock has run since it last stopped, by site × 4 + region (R392) -/
  arun : Map Bool := []
  pw : Power := {}
  hk : Husk := {}
  fz : Fuses := {}
  /-- the hub's firmware memory (R416) -/
  fw : List Byte := []
  deriving DecidableEq, Repr

/-- The pack's machine: its packages, the memory of every store byte by byte (keyed by package index and the low 58 address bits), tokens between packages' units, messages sent, and the counter of free values. -/
structure Pack where
  pkgs : Map Pkg := []
  mem : Mem := []
  flight : List Flight := []
  /-- records, marks and deltas between packages, oldest first -/
  wire : List Wire := []
  /-- how many free values have been drawn (the model's own field, log 3) -/
  fresh : Nat := 0
  deriving DecidableEq, Repr

end Sys2Proof.Machine
end

