-- ==== Sys2Proof/Machine/Regs.lean ====
section
/-! DEFINITION. The registers of space 0x3: their places (R385), their values after cold reset, and their fields. -/

set_option linter.unusedVariables false

namespace Sys2Proof.Machine

/-- The key of the register at an offset of space 0x3 of a site. -/
def rk (site off : Nat) : Nat := site * 0x100000 + off

/-- The hub's site (R27). -/
def hubSite : Nat := 62

/-- A register of the hub. -/
def hubR (off : Nat) : Nat := rk 62 off

/-- Bits [hi:lo] of a register replaced by `v`. -/
def setF (w : W32) (hi lo v : Nat) : W32 :=
  mk32 (w.toNat - at' (fld w hi lo) lo + at' (v % 2 ^ (hi + 1 - lo)) lo)

/-- Bit `i` of a register replaced. -/
def setB (w : W32) (i : Nat) (b : Bool) : W32 := setF w i i (b2n b)

/-- Reset values of the die's registers (chapters 02, 05, 07, 13, 14, 18, 19) by offset. -/
def dieReset (off : Nat) : W32 :=
  if 0x10000 ≤ off ∧ off < 0x20000 then
    (let o := off % 0x400; if 0x300 ≤ o ∧ o < 0x340 then 0xFFFF0000#32 else 0)
  else if 0x40000 ≤ off ∧ off < 0x80000 then
    (if off % 0x80 = 0 then 0x00010000#32 else if off % 0x80 = 4 then 0x3F80#32 else 0)
  else if 0x80000 ≤ off ∧ off < 0xC0000 then
    (if off % 0x40 = 0 then
      (let q := (off - 0x80000) / 0x40
       mk32 (at' (if q < 512 then 0 else if q < 2560 then 1 else if q < 3584 then 2 else 3) 14))
     else 0)
  else if 0x8000 ≤ off ∧ off < 0xC000 then (if off % 0x20 = 0xC then 0xFFFFFFFF#32 else 0)
  else if off = 0x4004 then 0x028000A0#32
  else if off = 0x4008 then 0x5F000000#32
  else if off = 0x400C then 20
  else 0

/-- Reset values of the hub's registers by offset. -/
def hubReset (off : Nat) : W32 :=
  if off = 0x0C then 64
  else if off = 0x10 then 0x00480000#32
  else if off = 0x1200 then 64
  else if 0x10000 ≤ off ∧ off < 0x14000 then (if off % 0x20 = 0xC then 0xFFFFFFFF#32 else 0)
  else if off = 0x7018 then 0x00000002#32
  else if off = 0x14000 then 0x20000000#32
  else if off = 0x14004 then 6500
  else if off = 0x14014 then 0x00A00000#32
  else if off = 0x15000 then 0x800#32
  else if off = 0x17004 then 0xFF00#32
  else if off = 0x40000 then 0x33000000#32
  else if off = 0x40014 then 0x00200400#32
  else 0

/-- Reset values of a stack's registers by offset: both ports up, scrub every 24 hours. -/
def stackReset (off : Nat) : W32 := if off = 0 then 0x30180000#32 else 0

/-- A register's value after cold reset. -/
def regReset (a : Nat) : W32 :=
  let site := a / 0x100000
  let off := a % 0x100000
  if site < 48 then dieReset off else if site < 60 then stackReset off
  else if site = 62 then hubReset off else 0

end Sys2Proof.Machine
end

