-- ==== Sys2Proof/Machine/Base.lean ====
section
/-! DEFINITION. Reading and changing one package: registers, position, role, sites, the error log (R312 to R315). -/

set_option linter.unusedVariables false

namespace Sys2Proof.Machine

/-- The stored value of a register. -/
def Pkg.rd (g : Pkg) (a : Nat) : W32 := mget (regReset a) g.regs a

/-- Stores a register. -/
def Pkg.wr (g : Pkg) (a : Nat) (v : W32) : Pkg := { g with regs := mins g.regs a v }

/-- Field [hi:lo] of a register. -/
def Pkg.rf (g : Pkg) (a hi lo : Nat) : Nat := fld (g.rd a) hi lo

/-- Bit `i` of a register. -/
def Pkg.rb (g : Pkg) (a i : Nat) : Bool := bit (g.rd a) i

/-- Stores a field. -/
def Pkg.wf (g : Pkg) (a hi lo v : Nat) : Pkg := g.wr a (setF (g.rd a) hi lo v)

/-- Stores a bit. -/
def Pkg.wb (g : Pkg) (a i : Nat) (b : Bool) : Pkg := g.wr a (setB (g.rd a) i b)

/-- Adds to a register, saturating at all ones. -/
def Pkg.addSat (g : Pkg) (a n : Nat) : Pkg := g.wr a (mk32 (min ((g.rd a).toNat + n) 0xFFFFFFFF))

/-- A 64-bit value of a LO and HI pair (R377). -/
def Pkg.rd64 (g : Pkg) (lo hi : Nat) : Nat := (g.rd lo).toNat + ((g.rd hi).toNat <<< 32)

/-- Stores a LO and HI pair. -/
def Pkg.wr64 (g : Pkg) (lo hi v : Nat) : Pkg := (g.wr lo (mk32 v)).wr hi (mk32 (v >>> 32))

/-- PACK.ID, PACK.EPOCH, PACK.STAT and the membership registers. -/
def rPackId : Nat := hubR 0x7000
def rPackEpoch : Nat := hubR 0x7004
def rMemLo : Nat := hubR 0x7008
def rMemHi : Nat := hubR 0x700C
def rPackStat : Nat := hubR 0x7018

/-- SEAL.CTL, STAT, STEP, EPOCH, WAITLO, WAITHI. -/
def rSealCtl : Nat := hubR 0x2000
def rSealStat : Nat := hubR 0x2004
def rSealStep : Nat := hubR 0x2008
def rSealEpoch : Nat := hubR 0x200C
def rSealWaitLo : Nat := hubR 0x2010
def rSealWaitHi : Nat := hubR 0x2014

/-- PIPE registers. -/
def rPipeMode : Nat := hubR 0x5000
def rPipeSpill : Nat := hubR 0x5004
def rKpool : Nat := hubR 0x5008
def rVcur : Nat := hubR 0x500C
def rVref (t : Nat) : Nat := hubR (0x5010 + 4 * t)
def rVret : Nat := hubR 0x5020

/-- The package's position. -/
def Pkg.pos (g : Pkg) : Nat := g.rf rPackId 5 0

/-- The package has a position. -/
def Pkg.assigned (g : Pkg) : Bool := g.rb rPackId 6

/-- The package leads its pack. -/
def Pkg.leads (g : Pkg) : Bool := g.rb rPackId 7

/-- The current membership as a 64-bit map. -/
def Pkg.mem (g : Pkg) : Nat := g.rd64 rMemLo rMemHi

/-- The current epoch. -/
def Pkg.epoch (g : Pkg) : Nat := g.rf rPackEpoch 15 0

/-- SEAL.STEP, the last sealed step. -/
def Pkg.sealed (g : Pkg) : Nat := (g.rd rSealStep).toNat

/-- The running step, SEAL.STEP + 1 modulo 2^32 (R300). -/
def Pkg.step (g : Pkg) : Nat := (g.sealed + 1) % 2 ^ 32

/-- `a` is later than `b` (R300). -/
def later (a b : Nat) : Bool :=
  let d := (a + 2 ^ 32 - b % 2 ^ 32) % 2 ^ 32
  decide (1 ≤ d ∧ d < 2 ^ 31)

/-- SEAL.STAT.PHASE: 0 RUN, 1 COLLECT, 2 APPLY, 3 HELD, 4 HALTED. -/
def Pkg.phase (g : Pkg) : Nat := g.rf rSealStat 2 0

/-- PIPE.MODE.MODE: 0 OFF, 1 TRAIN, 2 GEN. -/
def Pkg.mode (g : Pkg) : Nat := g.rf rPipeMode 1 0

/-- The condition of R203, R231 and R386: PHASE reads HELD or MODE reads OFF. -/
def Pkg.calm (g : Pkg) : Bool := g.phase == 3 || g.mode == 0

/-- The inner sites, which alone may be fused SPARE or OFF (R18). -/
def innerSites : List Nat := [13, 14, 15, 16, 17, 18, 19, 20, 21, 22, 25, 26, 27, 28, 29, 30, 31, 32, 33, 34]

/-- The four sites that are not fused ACTIVE, each SPARE or OFF: four different inner sites, picked by the fuses (R18). -/
def fusedOut (k : Nat) : Map SiteSt :=
  ((List.range 4).foldl (fun (p : Map SiteSt × List Nat) i =>
    let v := Config.siteFuse k i
    let x := p.2.getD (v % p.2.length) 0
    (mins p.1 x (if v / p.2.length % 2 = 0 then .spare else .off), p.2.filter (· != x))) ([], innerSites)).1

/-- The state of a compute site (R18). -/
def Pkg.siteSt (g : Pkg) (s : Nat) : SiteSt := mget .active g.sites s

/-- The state package `k` is in before anything has happened to it: its sites as fused. -/
def coldPkg (k : Nat) : Pkg := { sites := fusedOut k }

/-- A compute site is a hole: OFF, SPARE or failed (R19). -/
def Pkg.hole (g : Pkg) (s : Nat) : Bool := g.siteSt s != .active

/-- The number of ones in the low 64 bits. -/
def popcount (n : Nat) : Nat := ((List.range 64).filter (fun i => n.testBit i)).length

/-- The positions of a 64-bit map, ascending. -/
def positions (m : Nat) : List Nat := (List.range 64).filter (fun i => m.testBit i)

/-- The lowest position of a map. -/
def lowest (m : Nat) : Nat := (positions m).headD 0

/-- ERRLOG.CTL, HEAD, TAIL, LOST. -/
def rErrCtl : Nat := hubR 0x20000
def rErrHead : Nat := hubR 0x20004
def rErrTail : Nat := hubR 0x20008
def rErrLost : Nat := hubR 0x2000C

/-- The class of a code: 0 event, 1 error, 2 fatal (R313, R314). -/
def codeClass (code : Nat) : Nat := code / 256 - 1

/-- HUSK.PINS (R436). -/
def rPins : Nat := hubR 0x15018

/-- The unread records' ring indices. -/
def Pkg.unread (g : Pkg) : List Nat :=
  let h := g.rf rErrHead 9 0
  let t := g.rf rErrTail 9 0
  (List.range ((h + 1024 - t) % 1024)).map (fun i => (t + i) % 1024)

/-- An empty record. -/
def noRec : LogRec :=
  { code := 0, pos := 0, site := 0, unit := 0, thr := 0, step := 0, epoch := 0, seq := 0, a0 := 0, a1 := 0, a2 := 0 }

/-- Saturating count of a dropped record in ERRLOG.LOST. -/
def Pkg.lost (g : Pkg) (err : Bool) : Pkg :=
  if err then g.wf rErrLost 31 16 (min (g.rf rErrLost 31 16 + 1) 0xFFFF)
  else g.wf rErrLost 15 0 (min (g.rf rErrLost 15 0 + 1) 0xFFFF)

/-- Places a record in the ring by R315. -/
def Pkg.put (g : Pkg) (r : LogRec) : Pkg :=
  let h := g.rf rErrHead 9 0
  let full := (h + 1) % 1024 = g.rf rErrTail 9 0
  if !full then { (g.wf rErrHead 9 0 ((h + 1) % 1024)) with log := mins g.log h r }
  else if codeClass r.code = 0 then g.lost false
  else
    let evs := g.unread.filter (fun i => codeClass (mget noRec g.log i).code == 0)
    match evs with
    | i :: _ => { (g.lost false) with log := mins g.log i r }
    | [] => g.lost true

/-- Sends a message to another package. -/
def Pkg.send (g : Pkg) (m : Msg) : Pkg := { g with sent := m :: g.sent }

/-- The package declares itself failed: PKG_FAIL, and FFAIL of R434 (R301). -/
def Pkg.failPkg (g : Pkg) : Pkg := if g.assigned then (g.send (.pkgFail g.pos)).wb rPins 3 true else g

/-- HIF.IVEC and HIF.EPOS keys of the HIF page. -/
def hIvec : Nat := 0x10
def hEposLo : Nat := 0x14
def hEposHi : Nat := 0x18

/-- A stored word of the HIF page or the MSI-X table; HIF registers reset to zero. -/
def Pkg.hrd (g : Pkg) (o : Nat) : W32 := mget 0 g.hif o

/-- Stores a word of the HIF page. -/
def Pkg.hwr (g : Pkg) (o : Nat) (v : W32) : Pkg := { g with hif := mins g.hif o v }

/-- Raises an MSI-X vector: its pending latch is set (R369). -/
def Pkg.raise (g : Pkg) (v : Nat) : Pkg := { g with msix := mins g.msix v true }

/-- Sets the bit of a position in HIF.EPOS and raises the error vector (R370). -/
def Pkg.errAt (g : Pkg) (p : Nat) : Pkg :=
  let o := if p < 32 then hEposLo else hEposHi
  let g := g.hwr o (setB (g.hrd o) (p % 32) true)
  if bit (g.hrd hIvec) 31 then g.raise (fld (g.hrd hIvec) 26 16) else g

/-- What an error or fatal record also does (R312, R370): SMB_ALERT_N, the error vector or the report to the leader. -/
def Pkg.alarm (g : Pkg) : Pkg :=
  let g := { g with smb := true }
  if g.leads then g.errAt g.pos
  else if g.assigned then g.send (.errorPos g.pos)
  else g

/-- AER records an error (R366, R367). -/
def Pkg.aerSet (g : Pkg) (e : AerErr) : Pkg := { g with hk := { g.hk with aer := if g.hk.aer.contains e then g.hk.aer else g.hk.aer ++ [e] } }

/-- Logs an occurrence (R312 to R315); a fatal one is an Uncorrectable Internal Error in AER (R367). -/
def Pkg.logAt (g : Pkg) (code site unit thr a0 a1 a2 : Nat) : Pkg :=
  let r : LogRec :=
    { code := code, pos := if g.assigned then g.pos else 0x3F, site := site, unit := unit, thr := thr,
      step := g.step, epoch := g.epoch, seq := g.logSeq % 2 ^ 32,
      a0 := a0 % 2 ^ 32, a1 := a1 % 2 ^ 32, a2 := a2 % 2 ^ 32 }
  let g := { (g.put r) with logSeq := g.logSeq + 1 }
  let g := if codeClass code = 2 then ((g.wb rErrCtl 30 true).wb rPins 4 true).aerSet .internal else g
  if codeClass code = 0 then g else g.alarm

/-- A log entry with no site, unit or thread. -/
def Pkg.logHub (g : Pkg) (code a0 a1 a2 : Nat) : Pkg := g.logAt code hubSite 0xFF 0xFF a0 a1 a2

/-- An ENGINE_ACCESS error report (R446). -/
def Pkg.engErr (g : Pkg) (site unit kind : Nat) (addr : Nat) : Pkg :=
  g.logAt 0x0202 site unit 0xFF kind (addr % 2 ^ 32) (addr >>> 32)

/-- The package at an index; one that nothing has touched is in its cold state. -/
def Pack.g (s : Pack) (k : Nat) : Pkg := mget (coldPkg k) s.pkgs k

/-- Replaces a package. -/
def Pack.put (s : Pack) (k : Nat) (g : Pkg) : Pack := { s with pkgs := mins s.pkgs k g }

/-- Changes a package. -/
def Pack.on (s : Pack) (k : Nat) (f : Pkg → Pkg) : Pack := s.put k (f (s.g k))

/-- A free value (log 3): whatever it is, and the state that has drawn it. -/
def Pack.draw (s : Pack) : Nat × Pack := (Config.freeValue s.fresh, { s with fresh := s.fresh + 1 })

/-- The revision floor of package `k`: the lowest fused level of its ACTIVE and SPARE sites (R281). -/
def floorOf (k : Nat) : Nat := (List.range 48).foldl (fun m i =>
  if mget SiteSt.active (fusedOut k) i = .off then m else min m (Config.siteLevel k i % 8)) 7

/-- The sites that carry pack ports, in port order (R12). -/
def portSites : List Nat := [0, 12, 24, 36, 11, 23, 35, 47]

/-- A register of port `n` (R12, the PORT block). -/
def rPort (n o : Nat) : Nat := rk (portSites.getD (n / 4) 0) (0x3000 + 0x40 * (n % 4) + o)

/-- PORT.CTL.STATE of port `n`: 0 OFF, 1 TRAIN, 2 UP, 3 FENCED, 4 DOWN. -/
def Pkg.portState (g : Pkg) (n : Nat) : Nat := g.rf (rPort n 0) 30 28

/-- The map of UP ports. -/
def Pkg.upPorts (g : Pkg) : List Nat := (List.range 32).filter (fun n => g.portState n == 2)

/-- The effective mask of a position: PMAP.MASK and UP ports, empty where HOPS is unusable (R294). -/
def Pkg.effMask (g : Pkg) (p : Nat) : List Nat :=
  let h := g.rf (hubR (0x7104 + 8 * p)) 3 0
  if 1 ≤ h ∧ h ≤ 8 then g.upPorts.filter (fun n => g.rb (hubR (0x7100 + 8 * p)) n) else []

/-- The package index at a position of the pack of package `k` (R294, R297): itself, or an assigned member reached by an UP port. -/
def Pack.at (s : Pack) (k p : Nat) : Option Nat :=
  let g := s.g k
  if g.assigned && g.pos == p then some k
  else if !g.mem.testBit p || (g.effMask p).isEmpty then none
  else (s.pkgs.find? (fun x => x.1 != k && x.2.assigned && x.2.pos == p && !x.2.upPorts.isEmpty)).map (·.1)

end Sys2Proof.Machine
end

