-- ==== Sys2Proof/Machine/Address.lean ====
section
/-! DEFINITION. The global address, the blocks of register space and clock gating (R27 to R30, R97, R145, R374, R381, R385). -/

set_option linter.unusedVariables false

namespace Sys2Proof.Machine

/-- A place an address names: package index, site, space, offset. -/
structure Loc where
  pk : Nat
  site : Nat
  space : Nat
  off : Nat
  deriving DecidableEq, Repr

/-- The key of a byte of memory: the package index over the low 58 bits of its global address. -/
def Loc.key (l : Loc) : Nat := l.pk * 2 ^ 58 + l.site * 2 ^ 52 + l.space * 2 ^ 48 + l.off

/-- A global address from its fields (R27). -/
def gaddr (pos site space off : Nat) : Nat := pos * 2 ^ 58 + site * 2 ^ 52 + space * 2 ^ 48 + off

/-- The blocks of space 0x3 (R385). -/
inductive Blk where
  | die | d2d | clus | port | gov | mbtr | unit | scale | queue
  | stack
  | hub | timer | seal | perm | ledger | pipe | stage | pack | coll | sched | qmap | mbt
  | pwr | husk | fuse | keyb | errlog | stream | prot | own | tens
  deriving DecidableEq, Repr

/-- The block at an offset of a site, with the offset inside it. -/
def blockOf (site off : Nat) : Option (Blk × Nat) :=
  if site < 48 then
    if off < 0x1000 then some (.die, off)
    else if off < 0x2000 then some (.d2d, off - 0x1000)
    else if off < 0x3000 then some (.clus, off - 0x2000)
    else if off < 0x4000 then some (.port, off - 0x3000)
    else if off < 0x5000 then some (.gov, off - 0x4000)
    else if 0x8000 ≤ off ∧ off < 0xC000 then some (.mbtr, off - 0x8000)
    else if 0x10000 ≤ off ∧ off < 0x20000 then some (.unit, off - 0x10000)
    else if 0x40000 ≤ off ∧ off < 0x80000 then some (.scale, off - 0x40000)
    else if 0x80000 ≤ off ∧ off < 0xC0000 then some (.queue, off - 0x80000)
    else none
  else if site < 60 then (if off < 0x100 then some (.stack, off) else none)
  else if site = 62 then
    if off < 0x1000 then some (.hub, off)
    else if off < 0x2000 then some (.timer, off - 0x1000)
    else if off < 0x3000 then some (.seal, off - 0x2000)
    else if off < 0x4000 then some (.perm, off - 0x3000)
    else if off < 0x5000 then some (.ledger, off - 0x4000)
    else if off < 0x6000 then some (.pipe, off - 0x5000)
    else if off < 0x7000 then some (.stage, off - 0x6000)
    else if off < 0x8000 then some (.pack, off - 0x7000)
    else if off < 0x9000 then some (.coll, off - 0x8000)
    else if 0xA000 ≤ off ∧ off < 0xC000 then some (.sched, off - 0xA000)
    else if 0xC000 ≤ off ∧ off < 0x10000 then some (.qmap, off - 0xC000)
    else if 0x10000 ≤ off ∧ off < 0x14000 then some (.mbt, off - 0x10000)
    else if 0x14000 ≤ off ∧ off < 0x15000 then some (.pwr, off - 0x14000)
    else if 0x15000 ≤ off ∧ off < 0x16000 then some (.husk, off - 0x15000)
    else if 0x16000 ≤ off ∧ off < 0x17000 then some (.fuse, off - 0x16000)
    else if 0x17000 ≤ off ∧ off < 0x18000 then some (.keyb, off - 0x17000)
    else if 0x20000 ≤ off ∧ off < 0x30000 then some (.errlog, off - 0x20000)
    else if 0x30000 ≤ off ∧ off < 0x40000 then some (.stream, off - 0x30000)
    else if 0x40000 ≤ off ∧ off < 0x60000 then some (.prot, off - 0x40000)
    else if 0x60000 ≤ off ∧ off < 0x80000 then some (.own, off - 0x60000)
    else if 0x80000 ≤ off ∧ off < 0x100000 then some (.tens, off - 0x80000)
    else none
  else none

/-- The key of a unit on a package: site × 64 + unit. -/
def uk (site u : Nat) : Nat := site * 64 + u

/-- DIE registers. -/
def rGateU (site j : Nat) : Nat := rk site (4 + 4 * j)
def rGateC (site : Nat) : Nat := rk site 0x14
def rGateB (site : Nat) : Nat := rk site 0x18
def rKshr (site : Nat) : Nat := rk site 0x1C
def rGstat (site : Nat) : Nat := rk site 0
def rGate0 : Nat := hubR 4
def rGates : Nat := hubR 8

/-- A unit is enabled. -/
def Pkg.unitOn (g : Pkg) (site u : Nat) : Bool := g.rb (rGateU site (u / 16)) (u % 16)

/-- A cluster buffer is enabled. -/
def Pkg.clusOn (g : Pkg) (site c : Nat) : Bool := g.rb (rGateC site) c

/-- A region buffer is enabled. -/
def Pkg.regionOn (g : Pkg) (site r : Nat) : Bool := g.rb (rGateB site) r

/-- The queue engine, the collective engine and the scale table of a die are enabled. -/
def Pkg.qengOn (g : Pkg) (site : Nat) : Bool := g.rb (rGateB site) 4
def Pkg.cengOn (g : Pkg) (site : Nat) : Bool := g.rb (rGateB site) 5
def Pkg.scaleOn (g : Pkg) (site : Nat) : Bool := g.rb (rGateB site) 6

/-- The hub's enables of R381. -/
def Pkg.streamOn (g : Pkg) : Bool := g.rb rGate0 0
def Pkg.pipeOn (g : Pkg) : Bool := g.rb rGate0 1
def Pkg.stateOn (g : Pkg) : Bool := g.rb rGate0 2
def Pkg.collOn (g : Pkg) : Bool := g.rb rGate0 3
def Pkg.protOn (g : Pkg) : Bool := g.rb rGate0 4
def Pkg.timerOn (g : Pkg) : Bool := g.rb rGate0 5

/-- Stack `j` is in self-refresh: STACK.CTL.SREF (R259). -/
def Pkg.selfRef (g : Pkg) (j : Nat) : Bool := g.rb (rk (48 + j) 0) 27

/-- Stack `j`'s memory is served: enabled, and not in self-refresh (R259, R381). -/
def Pkg.stackOn (g : Pkg) (j : Nat) : Bool := g.rb rGates j && !g.selfRef j

/-- A block of register space is served (R381). -/
def Pkg.blkOn (g : Pkg) (site : Nat) (b : Blk) (o : Nat) : Bool :=
  match b with
  | .unit => g.unitOn site (o / 0x400)
  | .scale => g.scaleOn site
  | .queue => g.qengOn site
  | .port => portSites.contains site
  | .mbtr | .pipe | .stage | .mbt => g.pipeOn
  | .stream => g.streamOn
  | .tens | .own | .sched => g.stateOn
  | .coll | .perm => g.collOn
  | .prot => g.protOn
  | .timer => g.timerOn
  | _ => true

/-- A register of queue `q` at its home (the QUEUE block). -/
def rQ (site q o : Nat) : Nat := rk site (0x80000 + 0x40 * q + o)

/-- QMAP.Qn. -/
def rQmap (q : Nat) : Nat := hubR (0xC000 + 4 * q)

/-- The home site of a queue that is mapped (R142). -/
def Pkg.home (g : Pkg) (q : Nat) : Option Nat :=
  if g.rb (rQmap q) 6 then some (g.rf (rQmap q) 5 0) else none

/-- QUEUE.CFG.EN and SIZE. -/
def Pkg.qEn (g : Pkg) (site q : Nat) : Bool := g.rb (rQ site q 0) 31
def Pkg.qSize (g : Pkg) (site q : Nat) : Nat := 2 ^ g.rf (rQ site q 0) 19 16

/-- QUEUE.BASE. -/
def Pkg.qBase (g : Pkg) (site q : Nat) : Nat := g.rd64 (rQ site q 4) (rQ site q 8)

/-- How an access stands before it is performed. -/
inductive Where where
  | ok (l : Loc)
  /-- invalid by R30 or R374, CAUSE 0x01 -/
  | invalid
  /-- gated by R381, CAUSE 0x02 -/
  | gated
  deriving DecidableEq, Repr

/-- A site that answers: a compute site that is no hole, a stack that has not failed, the hub (R30, R252). -/
def Pkg.siteOk (g : Pkg) (site : Nat) : Bool :=
  if site < 48 then !g.hole site else (decide (site < 60) && !g.rb (rk site 0) 30) || site == 62

/-- The space and offset of an address at a site of a package (R28, R145, R374, R381). -/
def Pkg.place (g : Pkg) (pk site space off : Nat) : Where :=
  let l : Loc := { pk := pk, site := site, space := space, off := off }
  if !g.siteOk site then .invalid
  else match space with
  | 0 =>
    if site < 48 ∧ off < 2 ^ 25 then (if g.unitOn site (off / 2 ^ 19) then .ok l else .gated) else .invalid
  | 1 =>
    if site < 48 ∧ off < 2 ^ 25 then (if g.clusOn site (off / 2 ^ 21) then .ok l else .gated) else .invalid
  | 2 =>
    if site < 48 ∧ off < 2 ^ 24 then (if g.regionOn site (off / 2 ^ 22) then .ok l else .gated) else .invalid
  | 3 =>
    match blockOf site off with
    | none => .invalid
    | some (b, o) =>
      if b = .queue ∧ g.home (o / 0x40) ≠ some site then .invalid
      else if g.blkOn site b o then .ok l else .gated
  | 4 =>
    let q := off / 2 ^ 21
    if site < 48 ∧ off < 2 ^ 33 then
      if !g.qengOn site then .gated
      else if g.home q ≠ some site ∨ !g.qEn site q ∨ g.qSize site q * 64 ≤ off % 2 ^ 21 then .invalid
      else .ok l
    else .invalid
  | 8 =>
    if 48 ≤ site ∧ site < 60 ∧ off < 0x1800000000 then (if g.stackOn (site - 48) then .ok l else .gated)
    else .invalid
  | _ => .invalid

/-- The ring byte behind a view of space 0x4 (R145): the place in the region buffer or stack. -/
def Pkg.ringLoc (g : Pkg) (l : Loc) : Loc :=
  if l.space = 4 then
    let q := l.off / 2 ^ 21
    let a := g.qBase l.site q + l.off % 2 ^ 21
    { pk := l.pk, site := (a >>> 52) % 64, space := (a >>> 48) % 16, off := a % 2 ^ 48 }
  else l

/-- Where an address leads for a master of package `k`; `own` is its own site for the alias 63 (R27 to R30). -/
def Pack.where' (s : Pack) (k : Nat) (own : Option Nat) (a : Nat) : Where :=
  let site := (a >>> 52) % 64
  match s.at k ((a >>> 58) % 64) with
  | none => .invalid
  | some pk =>
    match (if site = 63 then own else some site) with
    | none => .invalid
    | some st => (s.g pk).place pk st ((a >>> 48) % 16) (a % 2 ^ 48)

/-- One byte at a place. -/
def Pack.byte (s : Pack) (l : Loc) : Byte := memRd s.mem ((s.g l.pk).ringLoc l).key

/-- `n` bytes from a place. -/
def Pack.bytes (s : Pack) (l : Loc) (n : Nat) : List Byte := memRdN s.mem ((s.g l.pk).ringLoc l).key n

/-- Writes bytes from a place upward. DESIGN CHOICE, log 119: a direct write into a ring slot or a bank of an enabled tensor, which R204 calls unpredictable, is this plain write. -/
def Pack.store (s : Pack) (l : Loc) (bs : List Byte) : Pack :=
  { s with mem := memWrN s.mem ((s.g l.pk).ringLoc l).key bs }

/-- A byte of memory by the address a master of package `k` names. -/
def Pack.loadAt (s : Pack) (k : Nat) (own : Option Nat) (a n : Nat) : Option (List Byte) :=
  match s.where' k own a with
  | .ok l => some (s.bytes l n)
  | _ => none

/-- Writes bytes at an address a master of package `k` names; nothing where it is invalid or gated. -/
def Pack.storeAt (s : Pack) (k : Nat) (own : Option Nat) (a : Nat) (bs : List Byte) : Pack :=
  match s.where' k own a with
  | .ok l => s.store l bs
  | _ => s

/-- A span of bytes lies in one place: its first and last byte are served and belong to one site and space. -/
def Pack.spanOk (s : Pack) (k : Nat) (own : Option Nat) (a n : Nat) : Where :=
  match s.where' k own a, s.where' k own (a + n - 1) with
  | .ok l, .ok m => if l.pk = m.pk ∧ l.site = m.site ∧ l.space = m.space then .ok l else .invalid
  | .ok _, w => w
  | w, _ => w

end Sys2Proof.Machine
end

