-- ==== Sys2Proof/Machine/Operands.lean ====
section
/-! DEFINITION. The operand forms of Dolsis: what each field names, and the reserved-encoding check (R114 to R118, R123, R127 to R139). -/

set_option linter.unusedVariables false

namespace Sys2Proof

/-- The completion field CPL of R118: the token counter and the count. -/
def Fields.tctr (f : Fields) : Nat := f.i 25 20
def Fields.tcnt (f : Fields) : Nat := f.i 31 26

end Sys2Proof

namespace Sys2Proof.Machine

/-- What an operand field names (R116). -/
inductive Kind where
  | none
  /-- a scalar, an even scalar (RAND), a scalar group of three (EPI) -/
  | s
  | sEven
  | s3
  | p
  | t
  /-- a descriptor or 31 -/
  | tOpt
  | acc
  /-- a tile of array A -/
  | accA
  /-- CONTRIB's source: an accumulator when IMM[0] = 1, else a descriptor -/
  | src
  /-- COND, OPC -/
  | cond
  | opc
  deriving DecidableEq, Repr

/-- The form of an operation: its four fields and the IMM bits it uses. -/
structure Shape where
  d : Kind
  a : Kind
  b : Kind
  c : Kind
  imm : Nat
  deriving DecidableEq, Repr

/-- The operand columns of the opcode map (R119). -/
def shape : Op → Shape
  | .add | .sub | .mul | .mulhu | .divu | .remu | .divs | .rems | .and | .or | .xor | .shl | .shr | .sra =>
    ⟨.s, .s, .s, .none, 0⟩
  | .addi | .subi | .muli | .mulhui | .divui | .remui | .divsi | .remsi | .andi | .ori | .xori | .shli | .shri
  | .srai | .movhi => ⟨.s, .s, .none, .none, 0xFFFFFFFF⟩
  | .cmp => ⟨.p, .s, .s, .cond, 0⟩
  | .cmpi => ⟨.p, .s, .none, .cond, 0xFFFFFFFF⟩
  | .plog => ⟨.p, .p, .p, .opc, 0⟩
  | .br => ⟨.none, .none, .none, .none, 0xFFFFFFFF⟩
  | .call => ⟨.s, .none, .none, .none, 0xFFFFFFFF⟩
  | .jr => ⟨.none, .s, .none, .none, 0⟩
  | .halt | .nop | .xclr => ⟨.none, .none, .none, .none, 0⟩
  | .ld => ⟨.s, .s, .none, .none, 0xEFFFFFFF⟩
  | .st => ⟨.none, .s, .s, .none, 0xCFFFFFFF⟩
  | .tdset => ⟨.t, .s, .none, .none, 0x7⟩
  | .tdget => ⟨.s, .t, .none, .none, 0x7⟩
  | .tdadv => ⟨.t, .s, .none, .none, 0x1⟩
  | .mma => ⟨.acc, .t, .t, .none, 0x07FFFFFF⟩
  | .mmb => ⟨.accA, .t, .t, .t, 0x003FFFFF⟩
  | .epi => ⟨.t, .acc, .tOpt, .s3, 0xFFF3FFFF⟩
  | .fnv => ⟨.t, .t, .none, .s, 0xFFF7FFFF⟩
  | .fnd => ⟨.t, .t, .t, .s, 0xFFF7FFFF⟩
  | .cvt => ⟨.t, .t, .none, .none, 0xFFF7FFFF⟩
  | .cvts => ⟨.s, .s, .none, .none, 0x3FF⟩
  | .qpush => ⟨.none, .s, .s, .none, 0xFFF000FF⟩
  | .qpop => ⟨.p, .s, .s, .s, 0xFFF001FF⟩
  | .qmark | .qrewind => ⟨.none, .none, .s, .none, 0⟩
  | .qrelease => ⟨.none, .none, .s, .none, 0xFFFF⟩
  | .qcount => ⟨.s, .none, .s, .none, 0⟩
  | .tgive => ⟨.none, .s, .none, .none, 0xFFFF⟩
  | .ttake | .twait => ⟨.p, .none, .none, .s, 0xFFFF007F⟩
  | .cgive => ⟨.none, .none, .s, .none, 0xFF⟩
  | .ctake => ⟨.p, .none, .s, .s, 0x1FF⟩
  | .kreserve => ⟨.p, .none, .s, .s, 0⟩
  | .kstash => ⟨.none, .t, .s, .s, 0xFFF00000⟩
  | .kfetch => ⟨.t, .none, .s, .s, 0xFFF00000⟩
  | .kfree => ⟨.none, .none, .s, .none, 0⟩
  | .gather => ⟨.t, .s, .none, .none, 0xFFF007FF⟩
  | .contrib => ⟨.t, .src, .s, .s, 0xFFF0007F⟩
  | .rand => ⟨.sEven, .s, .s, .none, 0x7FF⟩
  | .randt => ⟨.t, .s, .s, .none, 0xFFF7FFFF⟩
  | .tmalloc => ⟨.s, .none, .none, .p, 0⟩
  | .tmset => ⟨.none, .s, .s, .none, 0⟩
  | .tmfree => ⟨.none, .s, .none, .none, 0⟩
  | .fenceW | .fenceRw | .fenceE | .fenceI => ⟨.none, .none, .none, .none, 0x3⟩
  | .xgetCause | .xgetFpc | .xgetFaddr | .xgetSstat => ⟨.s, .none, .none, .none, 0x3⟩
  | .xret => ⟨.none, .none, .none, .none, 0x1⟩

/-- A field value is in the range of its kind, and zero where the opcode does not use it (R116, R117). -/
def Kind.ok (k : Kind) (f : Fields) (v : Nat) : Bool :=
  match k with
  | .none => v == 0
  | .s => true
  | .sEven => v % 2 == 0
  | .s3 => decide (v ≤ 29)
  | .p | .t => decide (v < 8)
  | .tOpt => decide (v < 8) || v == 31
  | .acc => decide (v < 16)
  | .accA => decide (v < 8)
  | .src => if f.ib 0 then decide (v < 16) else decide (v < 8)
  | .cond => decide (v < 6)
  | .opc => decide (v < 4)

/-- The modifier and count values that are reserved (R117 and the instruction's own rules). -/
def modsOk (op : Op) (f : Fields) : Bool :=
  match op with
  | .tdset | .tdget => decide (f.i 2 0 ≤ 4)
  | .epi => decide (f.i 1 0 < 2) && f.i 5 4 != 3
  | .fnv | .fnd | .cvt => decide (f.i 1 0 < 2)
  | .cvts => decide (f.i 3 0 < 8) && decide (f.i 7 4 < 8) && f.i 9 8 == 0
  | .qpush | .cgive | .ctake => f.i 7 0 != 0
  | .tgive => f.i 15 0 != 0
  | .ttake | .twait => f.i 31 16 != 0
  | .fenceW => f.i 1 0 == 0
  | .fenceRw => f.i 1 0 == 1
  | .fenceE => f.i 1 0 == 2
  | .fenceI => f.i 1 0 == 3
  | .xgetCause => f.i 1 0 == 0
  | .xgetFpc => f.i 1 0 == 1
  | .xgetFaddr => f.i 1 0 == 2
  | .xgetSstat => f.i 1 0 == 3
  | _ => true

/-- The check of R117. -/
def encOk (op : Op) (f : Fields) : Bool :=
  let h := shape op
  h.d.ok f f.d.toNat && h.a.ok f f.a.toNat && h.b.ok f f.b.toNat && h.c.ok f f.c.toNat
    && (f.imm.toNat &&& (0xFFFFFFFF - h.imm)) == 0 && modsOk op f

/-- The scalars a field names. -/
def Kind.scalars (k : Kind) (v : Nat) : List Nat :=
  match k with
  | .s => [v]
  | .sEven => [v, v + 1]
  | .s3 => [v, v + 1, v + 2]
  | _ => []

/-- Every scalar an instruction reads or writes, MBREG included (R111, R123, R128, R137). -/
def scalarsOf (op : Op) (f : Fields) : List Nat :=
  let h := shape op
  h.d.scalars f.d.toNat ++ h.a.scalars f.a.toNat ++ h.b.scalars f.b.toNat ++ h.c.scalars f.c.toNat ++
    (match op with
     | .mma => [f.i 16 12]
     | .mmb => [f.i 8 4]
     | .fnv | .fnd | .cvt => [f.i 7 3]
     | .contrib => [f.i 6 2]
     | _ => [])

/-- A QID operand (R131): POSITION and QID, other bits zero. -/
def qidOf (v : Word) : Option (Nat × Nat) :=
  let n := v.toNat
  if n % 2 ^ 58 < 4096 then some (n / 2 ^ 58, n % 4096) else none

/-- A timer operand (R132, R139). -/
def tmrOf (v : Word) : Option Nat := if v.toNat < 64 then some v.toNat else none

/-- Fields of a tile descriptor (R120). -/
def Tile.base (t : Tile) : Nat := t.w0.toNat
def Tile.bebase (t : Tile) : Nat := t.w1.toNat
def Tile.stat (t : Tile) : Nat := t.w2.toNat
def Tile.stride (t : Tile) : Nat := fld64 t.w3 31 0
def Tile.bestride (t : Tile) : Nat := fld64 t.w3 63 32
def Tile.orgi (t : Tile) : Nat := fld64 t.w4 19 0
def Tile.orgj (t : Tile) : Nat := fld64 t.w4 39 20
def Tile.slot (t : Tile) : Nat := fld64 t.w4 50 40
def Tile.fmtCode (t : Tile) : Nat := fld64 t.w4 54 51
def Tile.blk (t : Tile) : Bool := fld64 t.w4 55 55 == 1
def Tile.baxis (t : Tile) : Nat := fld64 t.w4 56 56
def Tile.rsv (t : Tile) : Nat := fld64 t.w4 63 57
def Tile.fmt (t : Tile) : Fmt := fmtD t.fmtCode

/-- Word `n` of a descriptor. -/
def Tile.word (t : Tile) (n : Nat) : Word :=
  match n with
  | 0 => t.w0
  | 1 => t.w1
  | 2 => t.w2
  | 3 => t.w3
  | _ => t.w4

/-- A descriptor with word `n` written (TDSET, R121). -/
def Tile.setWord (t : Tile) (n : Nat) (v : Word) : Tile :=
  match n with
  | 0 => { t with w0 := v }
  | 1 => { t with w1 := v }
  | 2 => { t with w2 := v }
  | 3 => { t with w3 := v }
  | _ => { t with w4 := v }

/-- What is wrong with a descriptor when it is used (R37, R45, R120): the cause, if any. A32 is refused in stack memory and queue rings. -/
def Tile.bad (t : Tile) : Option Nat :=
  if t.rsv ≠ 0 ∨ 8 ≤ t.fmtCode then some 3
  else
    let f := t.fmt
    let sp := (t.base >>> 48) % 16
    if t.blk && f != .f4 && f != .f8f then some 6
    else if f == .f4 && !t.blk then some 6
    else if t.blk && t.baxis == 0 && t.orgj % 32 != 0 then some 6
    else if t.blk && t.baxis == 1 && t.orgi % 32 != 0 then some 6
    else if f == .a32 && !(sp == 0 || sp == 1 || sp == 2) then some 6
    else none

/-- A signed 64-bit number. -/
def sval (v : Word) : Int := v.toInt

/-- A number taken modulo 2^n, of either sign. -/
def imod (x : Int) (n : Nat) : Nat := (x % (2 ^ n : Nat)).toNat

/-- TDADV (R121): the moved descriptor, none where it raises CAUSE 0x06. -/
def Tile.advance (t : Tile) (axis : Nat) (v : Int) : Option Tile :=
  let f := t.fmt
  let along := t.blk && ((axis == 1 && t.baxis == 0) || (axis == 0 && t.baxis == 1))
  if along && v % 32 != 0 then none
  else if f == .f4 && axis == 1 && v % 2 != 0 then none
  else
    let dbase : Int := if axis == 0 then v * t.stride else v * fmtBits f / 8
    let dbe : Int :=
      if !t.blk then 0
      else
        let n := if along then v / 32 else v
        if axis == 0 then n * t.bestride else n
    let w4 := t.w4.toNat
    let w4' :=
      if axis == 0 then w4 - t.orgi + imod (t.orgi + v) 20
      else w4 - t.orgj * 2 ^ 20 + imod (t.orgj + v) 20 * 2 ^ 20
    some { t with
      w0 := BitVec.ofNat 64 (imod (t.base + dbase) 64),
      w1 := BitVec.ofNat 64 (imod (t.bebase + dbe) 64),
      w4 := BitVec.ofNat 64 w4' }

/-- The byte address of element (r, c) of a view (R120). -/
def Tile.elem (t : Tile) (r c : Nat) : Nat := (t.base + r * t.stride + c * fmtBits t.fmt / 8) % 2 ^ 64

/-- The address of the block exponent of element (r, c) (R120). -/
def Tile.beAddr (t : Tile) (r c : Nat) : Nat :=
  (if t.baxis == 0 then t.bebase + r * t.bestride + c / 32 else t.bebase + r / 32 * t.bestride + c) % 2 ^ 64

end Sys2Proof.Machine
end

