-- ==== Sys2Proof/Machine/Flags.lean ====
section
/-! DEFINITION. Every flag computation: the scalar status SSTAT (R130), the tile status word (R68), comparisons (R119), the predicates. -/

set_option linter.unusedVariables false

namespace Sys2Proof.Machine

/-- The value of predicate `i`; p0 always reads 1 (R89). -/
def Thread.pred (th : Thread) (i : Nat) : Bool := i == 0 || th.preds.toNat.testBit i

/-- Writes predicate `i`; a write to p0 is ignored (R89, R119). -/
def Thread.setPred (th : Thread) (i : Nat) (b : Bool) : Thread :=
  if i = 0 then th
  else if b then { th with preds := th.preds ||| BitVec.ofNat 8 (2 ^ i) }
  else { th with preds := th.preds &&& ~~~(BitVec.ofNat 8 (2 ^ i)) }

/-- SSTAT with flags ORed in (R129, R130). -/
def Thread.orStat (th : Thread) (f : Flg) : Thread := { th with sstat := th.sstat ||| flgBits f }

/-- The condition COND of CMP and CMPI (R119). -/
def condHolds (c : Nat) (x y : Word) : Bool :=
  match c with
  | 0 => x == y
  | 1 => x != y
  | 2 => x.ult y
  | 3 => !x.ult y
  | 4 => x.slt y
  | _ => !x.slt y

/-- The predicate operation OPC of PLOG (R119). -/
def plogOp (c : Nat) (x y : Bool) : Bool :=
  match c with
  | 0 => x && y
  | 1 => x || y
  | 2 => x != y
  | _ => x && !y

/-- The status word of a tile that a zeroing MMA has just reset, with its mode (R60, R68, R75). -/
def staZero (a16 onelo : Bool) : W32 :=
  mk32 (0xFFFF0000 + at' (b2n a16) 8 + at' (b2n onelo) 9)

/-- Accumulation flags of k-block `b` gathered into a status word; FIRSTK takes the first block that sets one (R68). DESIGN CHOICE, log 110: after a program has written the word, FIRSTK is recorded again only where it reads 0xFFFF and bits [3:0] are 0. -/
def staAcc (w : W32) (b : Nat) (f : Flg) : W32 :=
  let n := flgBits f
  if n = 0 then w
  else
    let w := if fld w 3 0 = 0 ∧ fld w 31 16 = 0xFFFF ∧ b ≤ 0xFFFE then setF w 31 16 b else w
    setF w 3 0 (fld w 3 0 ||| n)

/-- Epilogue flags: bits [7:4] cleared, then gathered (R68). -/
def staEpi (w : W32) (f : Flg) : W32 := setF w 7 4 (flgBits f)

/-- A program write to a status word: FIRSTK is RW, bits [7:0] clear where 1 is written (R68). -/
def staWrite (w v : W32) : W32 :=
  setF (setF w 31 16 (fld v 31 16)) 7 0 (fld w 7 0 &&& (0xFF - fld v 7 0))

/-- MODE and ONELO of a status word. -/
def staA16 (w : W32) : Bool := bit w 8
def staOnelo (w : W32) : Bool := bit w 9

end Sys2Proof.Machine
end

