-- ==== Sys2Proof/Machine/Ops.lean ====
section
/-! DEFINITION. Threads, issue, exceptions, tokens and credits: the operations the instructions share (R89 to R113). -/

set_option linter.unusedVariables false

namespace Sys2Proof

/-- The key of a thread on its package. -/
def Tid.key (t : Tid) : Nat := Machine.uk t.site t.unit * 16 + t.thr

end Sys2Proof

namespace Sys2Proof.Machine

/-- The key of a token counter. -/
def ck (site u c : Nat) : Nat := uk site u * 64 + c

/-- The key of an accumulator tile: array 0 or 1, tile 0 to 7. -/
def ak (site u arr n : Nat) : Nat := (uk site u * 2 + arr) * 8 + n

/-- A thread of a package. -/
def Pkg.th (g : Pkg) (t : Tid) : Thread := mget {} g.thr t.key

/-- Replaces a thread. -/
def Pkg.setTh (g : Pkg) (t : Tid) (th : Thread) : Pkg := { g with thr := mins g.thr t.key th }

/-- Changes a thread. -/
def Pkg.onTh (g : Pkg) (t : Tid) (f : Thread → Thread) : Pkg := g.setTh t (f (g.th t))

/-- Scalar register `i`. -/
def Thread.s (th : Thread) (i : Nat) : Word := mget 0 th.regs i

/-- Writes scalar register `i`. -/
def Thread.setS (th : Thread) (i : Nat) (v : Word) : Thread := { th with regs := mins th.regs i v }

/-- Descriptor `i`. -/
def Thread.td (th : Thread) (i : Nat) : Tile := mget {} th.tiles i

/-- Writes descriptor `i`. -/
def Thread.setTd (th : Thread) (i : Nat) (d : Tile) : Thread := { th with tiles := mins th.tiles i d }

/-- The thread continues at `pc`, ready, its wait over. -/
def Thread.go (th : Thread) (pc : BitVec 16) : Thread := { th with pc := pc, st := .ready, wait := none }

/-- The thread goes on to its next instruction. -/
def Thread.adv (th : Thread) : Thread := th.go (th.pc + 1)

/-- WAITON of a wait (R91, the instructions' own rules). DESIGN CHOICE, log 107: a wait for QCOUNT's answer and the hold of a seal, for which no rule names a code, read 0b10. -/
def Wait.on : Wait → Nat
  | .token .. | .credTab .. | .ctake .. | .push _ => 1
  | .mem | .seal | .fence _ | .kres .. | .room .. | .resp _ => 2
  | .qpop .. => 3

/-- UNIT.THSTn.WAITON. -/
def Thread.waitOn (th : Thread) : Nat :=
  match th.st, th.wait with
  | .wait, some w => w.on
  | _, _ => 0

/-- STATE's code (R91). -/
def TState.code : TState → Nat
  | .idle => 0
  | .ready => 1
  | .wait => 2
  | .fault => 3

/-- The enable bit in THEHn of a cause's class, and whether the class is access (R110, the THEH table). -/
def causeBit (cause : Nat) : Nat := if cause = 0x10 then 17 else if cause = 0x20 then 18 else if cause = 0x30 then 19 else 16

/-- The class is access. -/
def causeAccess (cause : Nat) : Bool := decide (cause < 0x10)

/-- The exception's record in the thread: CAUSE, FPC, FADDR, zero for other causes than access (R111). -/
def Thread.record (th : Thread) (pc : BitVec 16) (cause : Nat) (addr : Word) : Thread :=
  { th with cause := cause, fpc := pc, faddr := if causeAccess cause then addr else 0 }

/-- The THREAD_FAULT report of R112. -/
def Pkg.threadFault (g : Pkg) (t : Tid) (cause : Nat) (addr : Word) : Pkg :=
  g.logAt 0x0201 t.site t.unit t.thr cause (addr.toNat % 2 ^ 32) (addr.toNat / 2 ^ 32)

/-- Taking an exception (R111 to R113): recorded, then the handler, FAULT, or for a Kennel overrun the next instruction. -/
def Pkg.except (g : Pkg) (t : Tid) (pc : BitVec 16) (cause : Nat) (addr : Word) : Pkg :=
  let th := (g.th t).record pc cause addr
  if bit th.theh (causeBit cause) then
    g.setTh t ({ th with theh := setB th.theh (causeBit cause) false }.go (BitVec.ofNat 16 (fld th.theh 15 0)))
  else if cause = 0x10 then g.setTh t (th.go (pc + 1))
  else
    let g := g.setTh t { th with st := .fault, wait := none }
    if causeAccess cause then g.threadFault t cause addr else g

/-- Returning from a handler (R113): to FPC, or FPC + 1, with the class of CAUSE enabled again. DESIGN CHOICE, log 107: in a thread that has recorded no exception, CAUSE reads 0 and the class is access. -/
def Thread.xret (th : Thread) (skip : Bool) : Thread :=
  { th with theh := setB th.theh (causeBit th.cause) true }.go (th.fpc + BitVec.ofNat 16 (b2n skip))

/-- A fault that a remote target reports (R111); after the thread was stopped (R96) it is recorded and logged, the thread stays IDLE. DESIGN CHOICE, log 108: R96 speaks of a load's access fault, and every late fault of an IDLE thread is treated so; a late fault that reaches a thread already in FAULT is taken as one that reaches a running thread. -/
def Pkg.lateFault (g : Pkg) (t : Tid) (pc : BitVec 16) (cause : Nat) (addr : Word) : Pkg :=
  if (g.th t).st = .idle then
    (g.onTh t (fun th => th.record pc cause addr)).threadFault t cause addr
  else g.except t pc cause addr

/-- The threads of a unit that are READY, in ascending number. -/
def Pkg.readyThreads (g : Pkg) (site u : Nat) : List Nat :=
  (List.range 16).filter (fun n => (mget ({} : Thread) g.thr (uk site u * 16 + n)).st == .ready)

/-- The thread that issues next on a unit (R92). -/
def Pkg.chosen (g : Pkg) (site u : Nat) : Option Nat :=
  let prio (n : Nat) := (mget ({} : Thread) g.thr (uk site u * 16 + n)).prio
  let rs := g.readyThreads site u
  let top := rs.foldl (fun m n => max m (prio n)) 0
  let cs := rs.filter (fun n => prio n == top)
  let last := mget 15 g.last (uk site u)
  match cs.find? (fun n => decide (last < n)) with
  | some n => some n
  | none => cs.head?

/-- The compute die stands at its site and the boot has started it (R415). -/
def Pkg.dieLive (g : Pkg) (site : Nat) : Bool := decide (site < 48) && !g.hole site && mget false g.started site

/-- Thread `t` is the one its unit issues from now (R92, R381). -/
def Pkg.canIssue (g : Pkg) (t : Tid) : Bool :=
  g.dieLive t.site && decide (t.unit < 64) && g.unitOn t.site t.unit && g.chosen t.site t.unit == some t.thr

/-- Issue is held for a seal, from COMMIT to the end of the apply (R219), or in P1: HELD or HALTED. -/
def Pkg.issueHeld (g : Pkg) : Bool := g.pr.commit.isSome || g.pr.parked || g.phase == 3 || g.phase == 4

/-- A thread begins to wait. -/
def Pkg.waitTh (g : Pkg) (t : Tid) (w : Wait) : Pkg :=
  { (g.onTh t (fun th => { th with st := .wait, wait := some w, wseq := g.seq })) with seq := g.seq + 1 }

/-- Loads of a thread in flight; accesses of a unit in flight (R98). -/
def Pkg.loadsOf (g : Pkg) (t : Tid) : List Load := g.loads.filter (fun l => l.t == t)
def Pkg.storesOf (g : Pkg) (t : Tid) : List Store := g.stores.filter (fun l => l.t == t)
def Pkg.unitFlight (g : Pkg) (t : Tid) : Nat :=
  (g.loads.filter (fun l => l.t.site == t.site && l.t.unit == t.unit)).length +
    (g.stores.filter (fun l => l.t.site == t.site && l.t.unit == t.unit)).length

/-- An operation's output writes count as writes of the issuing thread (R108). -/
def outWrite : Op → Bool
  | .epi | .cvt | .fnv | .fnd | .randt => true
  | _ => false

/-- Every write of the thread older than `seq` has been performed (R107, R108). -/
def Pkg.writesDone (g : Pkg) (t : Tid) (seq : Nat) : Bool :=
  !(g.stores.any (fun x => x.t == t && decide (x.seq < seq))) &&
    !((g.aops ++ g.eops).any (fun x => x.t == t && decide (x.seq < seq) && outWrite x.op))

/-- Every load of the thread older than `seq` has been performed. -/
def Pkg.readsDone (g : Pkg) (t : Tid) (seq : Nat) : Bool :=
  !(g.loads.any (fun x => x.t == t && decide (x.seq < seq)))

/-- A scalar the instruction names awaits a load (R111). -/
def Pkg.awaits (g : Pkg) (t : Tid) (op : Op) (f : Fields) : Bool :=
  (g.loadsOf t).any (fun l => (scalarsOf op f).contains l.d)

/-- Where an instruction leaves its thread. A trap names the address of an access fault; where there is none, FADDR is a free value (log 11). -/
inductive Next where
  | adv
  | goto (pc : BitVec 16)
  | trap (cause : Nat) (addr : Option Word)
  | wait (w : Wait)
  | halt
  deriving DecidableEq, Repr

/-- Applies the outcome of an issued instruction to its thread. -/
def Pkg.finish (g : Pkg) (t : Tid) (nx : Next) : Pkg :=
  match nx with
  | .adv => g.onTh t Thread.adv
  | .goto pc => g.onTh t (fun th => th.go pc)
  | .trap c a => g.except t (g.th t).pc c (a.getD 0)
  | .wait w => g.waitTh t w
  | .halt => g.onTh t (fun th => { th.adv with st := .idle })

/-- Applies the outcome, drawing the FADDR of an access fault that has no address. -/
def Pack.leave (s : Pack) (t : Tid) (nx : Next) : Pack :=
  match nx with
  | .trap c none =>
    if causeAccess c then
      let d := s.draw
      d.2.on t.pkg (fun g => g.finish t (.trap c (some (BitVec.ofNat 64 d.1))))
    else s.on t.pkg (fun g => g.finish t (.trap c none))
  | nx => s.on t.pkg (fun g => g.finish t nx)

/-- Marks a thread as the one that issued last, takes an issue number; its region's array clock runs (R92, R392). -/
def Pkg.issued (g : Pkg) (t : Tid) : Pkg :=
  { g with last := mins g.last (uk t.site t.unit) t.thr, seq := g.seq + 1, arun := mins g.arun (t.site * 4 + t.unit / 16) true }

/-- The body of an instruction: given the thread as it stands at issue, what it does to the pack and to its thread. -/
abbrev Body := Thread → Pack → Pack × Next

/-- Issue (R92, R111, R115, R117, R219): the thread's unit issues the instruction, if the thread is the one it issues from; a command for any other thread changes nothing (log 10). -/
def issue (op : Op) (t : Tid) (f : Fields) (body : Body) (s : Pack) : Pack :=
  let g := s.g t.pkg
  if !g.canIssue t then s
  else if g.issueHeld then s.on t.pkg (fun g => g.waitTh t .seal)
  else
    let s0 := s
    let s := s.on t.pkg (fun g => g.issued t)
    let th := g.th t
    let fin (nx : Next) (s : Pack) : Pack := s.leave t nx
    if !encOk op f then fin (.trap 3 none) s
    else if th.pred f.gp.toNat == f.gn then fin .adv s
    else if g.awaits t op f then fin (.wait .mem) s0
    else
      let r := body th s
      fin r.2 r.1

/-- Changes the issuing thread's registers in the body of an instruction. -/
def Pack.onTh (s : Pack) (t : Tid) (h : Thread → Thread) : Pack := s.on t.pkg (fun g => g.onTh t h)

/-- A token counter. -/
def Pkg.tk (g : Pkg) (site u c : Nat) : Tok := mget {} g.tok (ck site u c)

/-- Replaces a token counter. -/
def Pkg.setTk (g : Pkg) (site u c : Nat) (x : Tok) : Pkg := { g with tok := mins g.tok (ck site u c) x }

/-- The waiting threads of a package whose wait meets a test, oldest first. -/
def Pkg.waiters (g : Pkg) (test : Nat → Wait → Bool) : List Nat :=
  let ws := g.thr.filter (fun p => match p.2.st, p.2.wait with
    | .wait, some w => test p.1 w
    | _, _ => false)
  (sortBy (fun a b => decide (a.2.wseq < b.2.wseq) || (a.2.wseq == b.2.wseq && decide (a.1 ≤ b.1))) ws).map (·.1)

/-- The thread a key names, on package `k`. -/
def tidOf (k key : Nat) : Tid := { pkg := k, site := key / 1024, unit := key / 16 % 64, thr := key % 16 }

/-- A waiting thread is released with its result predicate (R132). -/
def Pkg.release (g : Pkg) (key pd : Nat) (b : Bool) : Pkg :=
  { g with thr := mupd {} g.thr key (fun th => (th.setPred pd b).adv) }

/-- A waiting thread becomes READY at the same instruction, which issues again. -/
def Pkg.retry (g : Pkg) (key : Nat) : Pkg := { g with thr := mupd {} g.thr key (fun th => th.go th.pc) }

/-- Booked balances by kind and place (R316): kind × 2^32 + place. -/
def Pkg.book (g : Pkg) (kind place : Nat) (d : Int) : Pkg :=
  let i := kind * 2 ^ 32 + place
  { g with booked := mins g.booked i (((mget 0 g.booked i : Nat) : Int) + d).toNat }

/-- The booked balance of a kind at a place. -/
def Pkg.balance (g : Pkg) (kind place : Nat) : Nat := mget 0 g.booked (kind * 2 ^ 32 + place)

/-- The register LEDGER.RECLn: units booked, n = 0 SATURATED to 6 withdrawals (R324). -/
def rRecl (n : Nat) : Nat := hubR (0x4020 + 4 * n)

/-- A flow of a kind in the bank of a step: outflow or inflow (R319). -/
def Pkg.flow (g : Pkg) (kind step : Nat) (out : Bool) (n : Nat) : Pkg :=
  { g with flows := mupd {} g.flows (kind * 4 + step % 4) (fun b =>
      if out then { b with outf := (b.outf + n) % 2 ^ 64 } else { b with inf := (b.inf + n) % 2 ^ 64 }) }

/-- Waiting TTAKEs of a counter are served in the order they began to wait; one that cannot be met holds back the rest (R101). -/
def Pkg.serveTakes (site u c : Nat) : List Nat → Pkg → Pkg
  | [], g => g
  | key :: r, g =>
    match (mget ({} : Thread) g.thr key).wait with
    | some (.token _ n true pd _) =>
      let x := g.tk site u c
      if n ≤ x.count then
        Pkg.serveTakes site u c r
          (((g.setTk site u c { x with count := x.count - n }).book 0 site (-(n : Int))).release key pd true)
      else g
    | _ => Pkg.serveTakes site u c r g

/-- Waiting TWAITs that the count meets are released (R101). -/
def Pkg.serveWaits (site u c : Nat) : List Nat → Pkg → Pkg
  | [], g => g
  | key :: r, g =>
    match (mget ({} : Thread) g.thr key).wait with
    | some (.token _ n false pd _) =>
      Pkg.serveWaits site u c r (if n ≤ (g.tk site u c).count then g.release key pd true else g)
    | _ => Pkg.serveWaits site u c r g

/-- Serves every waiter of a counter (R101, steps 2 and 3). -/
def Pkg.serveTok (g : Pkg) (site u c : Nat) : Pkg :=
  let mine (take : Bool) (key : Nat) (w : Wait) : Bool :=
    key / 16 == uk site u && (match w with
      | .token i _ t _ _ => i == c && t == take
      | _ => false)
  let g := Pkg.serveTakes site u c (g.waiters (mine true)) g
  Pkg.serveWaits site u c (g.waiters (mine false)) g

/-- A waiting TTAKE has left its counter's line otherwise than by being served: those it held back are served (R101). -/
def Pkg.lineLeft (g : Pkg) (key : Nat) (w : Option Wait) : Pkg :=
  match w with
  | some (.token c _ true _ _) => g.serveTok (key / 1024) (key / 16 % 64) c
  | _ => g

/-- A delivery of tokens to a counter, saturating at 65,535 (R101, R102). -/
def Pkg.deliver (g : Pkg) (site u c n : Nat) : Pkg :=
  if n = 0 then g
  else
    let x := g.tk site u c
    let m := min (x.count + n) 65535
    let lost := x.count + n - m
    let g := (g.setTk site u c { count := m, sat := x.sat || decide (0 < lost) }).book 0 site ((m : Int) - x.count)
    let g := if lost = 0 then g
      else (g.addSat (rRecl 0) lost).logAt 0x0203 site u 0xFF c lost 0
    g.serveTok site u c

/-- A program write to COUNT books a grant or a withdrawal, and its value stands (R101, R102). -/
def Pkg.writeCount (g : Pkg) (site u c v : Nat) : Pkg :=
  let old := (g.tk site u c).count
  let g := (g.setTk site u c { g.tk site u c with count := v }).book 0 site ((v : Int) - old)
  let g := if old < v then g.addSat (rRecl 5) (v - old) else if v < old then g.addSat (rRecl 6) (old - v) else g
  g.serveTok site u c

/-- The completion count of an operation, delivered to its thread's unit (R103). -/
def Pkg.complete (g : Pkg) (t : Tid) (f : Fields) : Pkg := g.deliver t.site t.unit f.tctr f.tcnt

/-- Threads waiting for memory or a fence of accesses are looked at again after an access or operation ends. FENCE.E is looked at by `Pack.look`. -/
def Pkg.wake (g : Pkg) (k : Nat) (t : Tid) : Pkg :=
  let th := g.th t
  if th.st != .wait then g
  else match th.wait with
    | some .mem => g.setTh t (th.go th.pc)
    | some (.fence op) =>
      let met := match op with
        | .fenceW => g.writesDone t th.wseq
        | .fenceRw => g.writesDone t th.wseq && g.readsDone t th.wseq
        | .fenceE => false
        | _ => true
      if met then g.setTh t th.adv else g
    | _ => g

/-- The operations of a thread that its package's arrays and engines hold, and its requests at the queues of every package. -/
def Pack.opsOf (s : Pack) (t : Tid) : List OpRec :=
  ((s.g t.pkg).aops ++ (s.g t.pkg).eops).filter (fun r => r.t == t) ++
    s.pkgs.flatMap (fun p => (p.2.qops.filter (fun q => q.r.t == t)).map (·.r))

/-- Every engine, array and queue instruction of a thread older than `seq` has completed, wherever it was sent (R108, R140). -/
def Pack.engDone (s : Pack) (t : Tid) (seq : Nat) : Bool := (s.opsOf t).all (fun r => decide (seq ≤ r.seq))

/-- A thread is looked at again after one of its operations has ended. -/
def Pack.look (s : Pack) (t : Tid) : Pack :=
  let th := (s.g t.pkg).th t
  match th.st, th.wait with
  | .wait, some (.fence .fenceE) => if s.engDone t th.wseq then s.on t.pkg (fun g => g.onTh t Thread.adv) else s
  | _, _ => s.on t.pkg (fun g => g.wake t.pkg t)

/-- Credits a unit holds for a queue (R153). -/
def Pkg.credits (g : Pkg) (site u pos q : Nat) : Nat :=
  match (mget [] g.ctab (uk site u)).find? (fun e => e.pos == pos && e.qid == q) with
  | some e => e.n
  | none => 0

/-- Sets the credits a unit holds; an entry is freed at zero (R153). -/
def Pkg.setCredits (g : Pkg) (site u pos q n : Nat) : Pkg :=
  let es := mget [] g.ctab (uk site u)
  let rest := es.filter (fun e => !(e.pos == pos && e.qid == q))
  let es' := if n = 0 then rest else rest ++ [{ pos := pos, qid := q, n := n }]
  let g := { g with ctab := mins g.ctab (uk site u) es' }
  if n = 0 && rest.length < es.length then
    (g.waiters (fun key w => key / 16 == uk site u && (match w with | .credTab .. => true | _ => false))).foldl
      (fun g key => g.retry key) g
  else g

/-- The unit's table has room for a queue: an entry of its own, or fewer than 16 in use (R153). -/
def Pkg.credRoom (g : Pkg) (site u pos q : Nat) : Bool :=
  let es := mget [] g.ctab (uk site u)
  decide (es.length < 16) || es.any (fun e => e.pos == pos && e.qid == q)

end Sys2Proof.Machine
end

