-- ==== Sys2Proof/Syntax.lean ====
section
/-! DEFINITION. The commands of Hjella: one constructor for each row of the opcode table. -/

set_option linter.unusedVariables false

namespace Sys2Proof

/-- A command. `k` is the package it happens at, `m` the master that makes an access, `t` a thread with the fields `f` of the instruction word it issues; other operands are numbers of register blocks, queues, ports and the like, indices into what is in flight, and what messages carry. -/
inductive Instr where
  /-- ADD: Scalar register-form add, sd := sa + sb modulo 2^64 (R119). -/
  | add (t : Tid) (f : Fields)
  /-- SUB: Scalar register-form subtract (R119). -/
  | sub (t : Tid) (f : Fields)
  /-- MUL: Scalar register-form multiply, low 64 bits (R119). -/
  | mul (t : Tid) (f : Fields)
  /-- MULHU: Scalar register-form unsigned multiply, high 64 bits (R119). -/
  | mulhu (t : Tid) (f : Fields)
  /-- DIVU: Scalar unsigned divide; a zero divisor raises CAUSE 0x30 (R119). -/
  | divu (t : Tid) (f : Fields)
  /-- REMU: Scalar unsigned remainder; a zero divisor raises CAUSE 0x30 (R119). -/
  | remu (t : Tid) (f : Fields)
  /-- DIVS: Scalar signed divide truncating toward zero (R119). -/
  | divs (t : Tid) (f : Fields)
  /-- REMS: Scalar signed remainder with the sign of the dividend (R119). -/
  | rems (t : Tid) (f : Fields)
  /-- AND: Scalar register-form bitwise AND (R119). -/
  | and (t : Tid) (f : Fields)
  /-- OR: Scalar register-form bitwise OR (R119). -/
  | or (t : Tid) (f : Fields)
  /-- XOR: Scalar register-form bitwise XOR (R119). -/
  | xor (t : Tid) (f : Fields)
  /-- SHL: Scalar register-form shift left by the low 6 bits of sb (R119). -/
  | shl (t : Tid) (f : Fields)
  /-- SHR: Scalar register-form logical shift right (R119). -/
  | shr (t : Tid) (f : Fields)
  /-- SRA: Scalar register-form arithmetic shift right (R119). -/
  | sra (t : Tid) (f : Fields)
  /-- ADDI: Scalar immediate-form add with sext(IMM) (R119). -/
  | addi (t : Tid) (f : Fields)
  /-- SUBI: Scalar immediate-form subtract (R119). -/
  | subi (t : Tid) (f : Fields)
  /-- MULI: Scalar immediate-form multiply, low 64 bits (R119). -/
  | muli (t : Tid) (f : Fields)
  /-- MULHUI: Scalar immediate-form unsigned multiply, high 64 bits (R119). -/
  | mulhui (t : Tid) (f : Fields)
  /-- DIVUI: Scalar immediate-form unsigned divide (R119). -/
  | divui (t : Tid) (f : Fields)
  /-- REMUI: Scalar immediate-form unsigned remainder (R119). -/
  | remui (t : Tid) (f : Fields)
  /-- DIVSI: Scalar immediate-form signed divide (R119). -/
  | divsi (t : Tid) (f : Fields)
  /-- REMSI: Scalar immediate-form signed remainder (R119). -/
  | remsi (t : Tid) (f : Fields)
  /-- ANDI: Scalar immediate-form bitwise AND (R119). -/
  | andi (t : Tid) (f : Fields)
  /-- ORI: Scalar immediate-form bitwise OR (R119). -/
  | ori (t : Tid) (f : Fields)
  /-- XORI: Scalar immediate-form bitwise XOR (R119). -/
  | xori (t : Tid) (f : Fields)
  /-- SHLI: Scalar immediate-form shift left (R119). -/
  | shli (t : Tid) (f : Fields)
  /-- SHRI: Scalar immediate-form logical shift right (R119). -/
  | shri (t : Tid) (f : Fields)
  /-- SRAI: Scalar immediate-form arithmetic shift right (R119). -/
  | srai (t : Tid) (f : Fields)
  /-- MOVHI: Writes IMM into the upper half of sd over sa's low word (R119). -/
  | movhi (t : Tid) (f : Fields)
  /-- CMP: Compares two scalars under COND into a predicate (R119). -/
  | cmp (t : Tid) (f : Fields)
  /-- CMPI: Compares a scalar with sext(IMM) under COND into a predicate (R119). -/
  | cmpi (t : Tid) (f : Fields)
  /-- PLOG: Combines two predicates under OPC (R119). -/
  | plog (t : Tid) (f : Fields)
  /-- BR: PC-relative branch modulo 2^16 (R119). -/
  | br (t : Tid) (f : Fields)
  /-- CALL: Saves PC + 1 in sd and branches (R119). -/
  | call (t : Tid) (f : Fields)
  /-- JR: Jumps to sa[15:0] (R119). -/
  | jr (t : Tid) (f : Fields)
  /-- HALT: Ends the thread exactly as a write of RUN = 0 (R96). -/
  | halt (t : Tid) (f : Fields)
  /-- LD: Issues an aligned load of 1 to 8 bytes from a global address (R98). -/
  | ld (t : Tid) (f : Fields)
  /-- ST: Issues an aligned store of 1 to 8 bytes to a global address (R98). -/
  | st (t : Tid) (f : Fields)
  /-- TDSET: Writes one word of a tile descriptor (R121). -/
  | tdset (t : Tid) (f : Fields)
  /-- TDGET: Reads one word of a tile descriptor into a scalar (R121). -/
  | tdget (t : Tid) (f : Fields)
  /-- TDADV: Moves a descriptor's view along rows or columns (R121). -/
  | tdadv (t : Tid) (f : Fields)
  /-- MMA: Hands a 32x32 matrix product with K up to 4,096 to an array (R124). -/
  | mma (t : Tid) (f : Fields)
  /-- MMB: Hands the paired backward products dX and dW to both arrays (R125). -/
  | mmb (t : Tid) (f : Fields)
  /-- EPI: Hands an epilogue that converts an accumulator tile into an output tile (R127). -/
  | epi (t : Tid) (f : Fields)
  /-- FNV: Evaluates a value table over a tile and converts the result (R128). -/
  | fnv (t : Tid) (f : Fields)
  /-- FND: Computes dy times the derivative table at the saved input (R128). -/
  | fnd (t : Tid) (f : Fields)
  /-- CVT: Converts a tile into the output format and scale (R128). -/
  | cvt (t : Tid) (f : Fields)
  /-- CVTS: Converts a scalar code between formats with RNE (R129). -/
  | cvts (t : Tid) (f : Fields)
  /-- QPUSH: Pushes N entries to a queue using held credits (R131). -/
  | qpush (t : Tid) (f : Fields)
  /-- QPOP: Pops N entries from a queue, optionally under a timer (R131). -/
  | qpop (t : Tid) (f : Fields)
  /-- QMARK: Sets the queue mark to the consumer index (R131). -/
  | qmark (t : Tid) (f : Fields)
  /-- QREWIND: Sets the consumer index back to the mark (R131). -/
  | qrewind (t : Tid) (f : Fields)
  /-- QRELEASE: Releases up to N consumed entries and returns their credits (R151). -/
  | qrelease (t : Tid) (f : Fields)
  /-- QCOUNT: Reads READY and HELD of a queue into a scalar (R155). -/
  | qcount (t : Tid) (f : Fields)
  /-- TGIVE: Sends N tokens to a counter on any unit of the pack (R100). -/
  | tgive (t : Tid) (f : Fields)
  /-- TTAKE: Waits for N tokens on a local counter and subtracts them (R100). -/
  | ttake (t : Tid) (f : Fields)
  /-- TWAIT: Waits for N tokens on a local counter without subtracting (R100). -/
  | twait (t : Tid) (f : Fields)
  /-- CGIVE: Returns unused queue credits to AVAIL (R151). -/
  | cgive (t : Tid) (f : Fields)
  /-- CTAKE: Requests n credits of a queue for the unit (R104). -/
  | ctake (t : Tid) (f : Fields)
  /-- KRESERVE: Requests a Kennel reservation for an MBID (R133). -/
  | kreserve (t : Tid) (f : Fields)
  /-- KSTASH: Writes a tile record into an MBID's Kennel reservation (R134). -/
  | kstash (t : Tid) (f : Fields)
  /-- KFETCH: Reads a Kennel record back into a tile (R135). -/
  | kfetch (t : Tid) (f : Fields)
  /-- KFREE: Releases an MBID's whole Kennel reservation (R177). -/
  | kfree (t : Tid) (f : Fields)
  /-- GATHER: Gathers a sheaf view of a tensor at a version tag (R136). -/
  | gather (t : Tid) (f : Fields)
  /-- CONTRIB: Issues one reduce-scatter contribution record to a collective queue (R137). -/
  | contrib (t : Tid) (f : Fields)
  /-- RAND: Draws 128 random bits from a stream slot into two scalars (R138). -/
  | rand (t : Tid) (f : Fields)
  /-- RANDT: Writes N + 1 consecutive draws to memory (R138). -/
  | randt (t : Tid) (f : Fields)
  /-- TMALLOC: Allocates a free timer, or refuses with CONFLICT (R139). -/
  | tmalloc (t : Tid) (f : Fields)
  /-- TMSET: Starts or restarts a timer with a tick count (R139). -/
  | tmset (t : Tid) (f : Fields)
  /-- TMFREE: Ends every wait on a timer and frees it (R139). -/
  | tmfree (t : Tid) (f : Fields)
  /-- FENCE_W: Orders later accesses after all earlier writes (R108). -/
  | fenceW (t : Tid) (f : Fields)
  /-- FENCE_RW: Orders later accesses after all earlier reads and writes (R108). -/
  | fenceRw (t : Tid) (f : Fields)
  /-- FENCE_E: Waits for every earlier engine, array and queue instruction (R108). -/
  | fenceE (t : Tid) (f : Fields)
  /-- FENCE_I: Discards the fetch buffer (R108). -/
  | fenceI (t : Tid) (f : Fields)
  /-- NOP: Does nothing (R119). -/
  | nop (t : Tid) (f : Fields)
  /-- XGET_CAUSE: Reads CAUSE of the last exception (R113). -/
  | xgetCause (t : Tid) (f : Fields)
  /-- XGET_FPC: Reads FPC of the last exception (R113). -/
  | xgetFpc (t : Tid) (f : Fields)
  /-- XGET_FADDR: Reads the fault address of the last access fault (R113). -/
  | xgetFaddr (t : Tid) (f : Fields)
  /-- XGET_SSTAT: Reads the sticky scalar status (R130). -/
  | xgetSstat (t : Tid) (f : Fields)
  /-- XCLR: Clears SSTAT (R130). -/
  | xclr (t : Tid) (f : Fields)
  /-- XRET: Returns from a handler to FPC or FPC + 1 and re-enables the class (R113). -/
  | xret (t : Tid) (f : Fields)
  /-- LOAD_RESPONSE: A load's response arrives and writes the register, or reports a remote access fault (R111). -/
  | loadResponse (k : Nat) (i : Nat) (ecc : Ecc)
  /-- STORE_ACK: A store's acknowledgement arrives at the unit (R99). -/
  | storeAck (k : Nat) (i : Nat) (ecc : Ecc)
  /-- TOKEN_DELIVERY: Tokens arrive at a counter and waiting TTAKEs and TWAITs are served (R101). -/
  | tokenDelivery (i : Nat)
  /-- CTAKE_GRANT: A waiting CTAKE is granted credits as they return (R153). -/
  | ctakeGrant (k : Nat) (site : Nat) (q : Nat)
  /-- QPOP_SATISFIED: A waiting QPOP is served once READY reaches N (R131). `x`: index bits that flip (R150), how the ring's read comes out (R148). -/
  | qpopSatisfied (k : Nat) (site : Nat) (q : Nat) (x : Nat × Ecc)
  /-- KRESERVE_GRANT: A waiting KRESERVE is granted when its admission conditions hold (R175). -/
  | kreserveGrant (k : Nat) (j : Nat)
  /-- ENGINE_QUEUE_ROOM: A thread waiting on a full engine input queue issues once it has room (R92). -/
  | engineQueueRoom (t : Tid)
  /-- ARRAY_OPERATION_COMPLETE: An MMA, MMB or epilogue finishes on its array (R63). -/
  | arrayOperationComplete (k : Nat) (site : Nat) (u : Nat) (arr : Nat) (ecc : Ecc) (a : Nat)
  /-- ENGINE_COMPLETION: An engine operation finishes and delivers its completion count (R103). -/
  | engineCompletion (k : Nat) (i : Nat) (ecc : Ecc) (a : Nat)
  /-- RUN_START: A write of RUN = 1 starts an IDLE or FAULT thread at THPCn (R96). -/
  | runStart (k : Nat) (m : Master) (site : Nat) (u : Nat) (n : Nat)
  /-- RUN_STOP: A write of RUN = 0 stops a thread at its next instruction boundary (R96). -/
  | runStop (k : Nat) (m : Master) (site : Nat) (u : Nat) (n : Nat)
  /-- TOKEN_COUNT_WRITE: A write to a token COUNT books a grant or withdrawal and releases waiters (R102). -/
  | tokenCountWrite (k : Nat) (m : Master) (site : Nat) (u : Nat) (c : Nat) (v : Nat) (sat : Bool)
  /-- ACCST_ACCESS: A read or write of an accumulator tile status word is performed at its array (R448). -/
  | accstAccess (k : Nat) (m : Master) (site : Nat) (u : Nat) (arr : Nat) (n : Nat) (w : Option W32)
  /-- SCALE_CUR_WRITE: A write of a scale slot's CUR, ignored with ERR unless positive and finite (R50). -/
  | scaleCurWrite (k : Nat) (m : Master) (site : Nat) (n : Nat) (v : W32)
  /-- SCALE_FILL_DISCARD: A write of FILL = 0 discards history and may enter warm-up (R55). -/
  | scaleFillDiscard (k : Nat) (m : Master) (site : Nat) (n : Nat) (v : W32)
  /-- SCALE_ARM: A write of ARM = 1 sends the slot's PRE to the leader (R57). -/
  | scaleArm (k : Nat) (m : Master) (site : Nat) (n : Nat) (v : W32)
  /-- WARMUP_ARM_RECEIPT: The leader combines an arm and sends the combined value when the count reaches NCOPY (R57). -/
  | warmupArmReceipt (k : Nat) (slot : Nat) (tag : Nat) (ncopy : Nat) (pre : Nat)
  /-- WARMUP_COMBINED: A package sets CUR from the combined PRE on every copy in warm-up (R57). -/
  | warmupCombined (k : Nat) (slot : Nat) (tag : Nat) (pre : Nat)
  /-- STREAM_CTL_WRITE: A write to STREAM.CTL is staged or applied when it reaches the replicas (R79). -/
  | streamCtlWrite (k : Nat) (m : Master) (n : Nat) (v : W32)
  /-- STREAM_KEY_WRITE: A write to a STREAM.KEY word is staged or applied (R79). -/
  | streamKeyWrite (k : Nat) (m : Master) (n : Nat) (w : Nat) (v : W32)
  /-- POSTED_WRITE_COMPLETE: A posted write reaches its domain and replicas and BUSY clears (R379). -/
  | postedWriteComplete (k : Nat) (site : Nat) (off : Nat)
  /-- QMAP_WRITE: A write to a QID map entry, ignored while the queue is enabled (R143). -/
  | qmapWrite (k : Nat) (m : Master) (q : Nat) (v : W32)
  /-- QUEUE_ENABLE: A write of CFG.EN = 1 checks and arms a queue (R159). -/
  | queueEnable (k : Nat) (m : Master) (site : Nat) (q : Nat) (v : W32)
  /-- QUEUE_DISABLE: A write of CFG.EN = 0 disables a drained queue or is refused (R159). -/
  | queueDisable (k : Nat) (m : Master) (site : Nat) (q : Nat) (v : W32)
  /-- QUEUE_DOOR_PUSH: A doorbell PUSH advances P for a host-fed queue (R154). `n`: N, and the index bits that flip (R150), as for the doorbells below. -/
  | queueDoorPush (k : Nat) (m : Master) (site : Nat) (q : Nat) (n : Nat × Nat)
  /-- QUEUE_DOOR_CONSUME: A doorbell CONSUME advances C for a host-consumed queue (R154). -/
  | queueDoorConsume (k : Nat) (m : Master) (site : Nat) (q : Nat) (n : Nat × Nat)
  /-- QUEUE_DOOR_CONSUME_RELEASE: A doorbell CONSUME_RELEASE advances C and L and returns credits (R154). -/
  | queueDoorConsumeRelease (k : Nat) (m : Master) (site : Nat) (q : Nat) (n : Nat × Nat)
  /-- HIF_DOOR_FORWARD: A write to HIF.DOOR is forwarded to the queue's home (R154). -/
  | hifDoorForward (k : Nat) (q : Nat) (op : Nat) (n : Nat × Nat)
  /-- QUEUE_ENGINE_SLICE: The queue engine serves one queue's pending work for a slice (R156). `x`: as for QPOP_SATISFIED. -/
  | queueEngineSlice (k : Nat) (site : Nat) (x : Nat × Ecc)
  /-- CLUS_TMAP_WRITE: A write assigning threads of a cluster to thin stages (R164). -/
  | clusTmapWrite (k : Nat) (m : Master) (site : Nat) (c : Nat) (hi : Bool) (v : W32)
  /-- STAGE_ENABLE: A write of STAGE.CTL.EN = 1 is checked for configuration and CONFLICT (R166). -/
  | stageEnable (k : Nat) (m : Master) (j : Nat) (v : W32)
  /-- STAGE_DISABLE: A write of STAGE.CTL.EN = 0, refused while reservations are held (R166). -/
  | stageDisable (k : Nat) (m : Master) (j : Nat) (v : W32)
  /-- PIPE_MODE_WRITE: A write of PIPE.MODE, refused while entries or stages are active (R184). -/
  | pipeModeWrite (k : Nat) (m : Master) (v : W32)
  /-- PIPE_SPILL_WRITE: A write dividing the spill arena, refused as CONFLICT or HELD (R173). -/
  | pipeSpillWrite (k : Nat) (m : Master) (v : W32)
  /-- MBT_CTL_WRITE: A write to a micro-batch entry that moves version references (R171). -/
  | mbtCtlWrite (k : Nat) (m : Master) (n : Nat) (v : W32)
  /-- TENS_ENABLE: A write of TENS.CTL.EN = 1 checks the tensor and starts digest passes (R204). -/
  | tensEnable (k : Nat) (m : Master) (t : Nat) (v : W32)
  /-- TENS_ENABLE_PASS_DONE: Every owner finishes its initial digest pass and EN reads 1 (R204). `t`: the tensor, and the reads that end uncorrectable, as for the three passes below. -/
  | tensEnablePassDone (k : Nat) (t : Nat × List Upset)
  /-- TENS_DISABLE: A write of TENS.CTL.EN = 0 disables a tensor (R203). -/
  | tensDisable (k : Nat) (m : Master) (t : Nat) (v : W32)
  /-- OWN_WRITE: A write to an owner entry, ignored while an enabled tensor uses it (R201). -/
  | ownWrite (k : Nat) (m : Master) (e : Nat) (hi : Bool) (v : W32)
  /-- SCHED_ENABLE: A write of SCHED.CTL.EN = 1 checks and initialises an optimiser group (R206). `v`: the word, and how the cosine table's read comes out. -/
  | schedEnable (k : Nat) (m : Master) (j : Nat) (v : W32 × Ecc)
  /-- SCHED_DISABLE: A write of SCHED.CTL.EN = 0, refused while a tensor names the group (R206). -/
  | schedDisable (k : Nat) (m : Master) (j : Nat) (v : W32)
  /-- REDUCED_RECORD: A Thresher receives a reduced record and adds or applies it (R197). -/
  | reducedRecord (k : Nat) (i : Nat) (us : List Upset)
  /-- END_OF_STEP_MARK: An end-of-step mark from a root completes its shards for the step (R208). -/
  | endOfStepMark (k : Nat) (i : Nat × List Upset)
  /-- SWEEP_PASS1: Once every shard of a sweep group is complete, Threshers sum the norm (R212). -/
  | sweepPass1 (k : Nat) (j : Nat × List Upset)
  /-- SWEEP_NORM_BROADCAST: The leader's NORM and FCLIP arrive and pass 2 updates the state (R212). -/
  | sweepNormBroadcast (k : Nat) (step : Nat) (r : NormRes × List Upset)
  /-- GATHER_REQUEST: A shard owner resolves a tag and serves the gather's blocks (R213). -/
  | gatherRequest (k : Nat) (i : Nat) (n : Nat)
  /-- GATHER_TILE: A sheaf tile arrives at the gathering engine and is verified and converted (R241). -/
  | gatherTile (k : Nat) (i : Nat) (j : Nat) (us : List Upset) (chk : Bool)
  /-- REPLICA_DIGESTS: Replica 0's owner receives replica digests and compares them (R223). `events`, `mine`: what the re-reads of R224 found, as (replica, block), and at replica 0's own blocks. -/
  | replicaDigests (k : Nat) (t : Nat) (n : Nat) (r : Nat) (digs : List Nat) (events : List (Nat × Nat)) (mine : List Nat)
  /-- LOCALLY_READY: A package becomes locally ready for the step and sends READY (R216). -/
  | locallyReady (k : Nat)
  /-- READY: The leader receives READY and sends COMMIT once all members are ready (R217). -/
  | ready (k : Nat) (msg : ReadyMsg)
  /-- COMMIT: A package receives COMMIT, forwards it and holds issue (R219). -/
  | commit (k : Nat) (msg : CommitMsg)
  /-- SEAL_APPLY: After step s's operations complete the package applies the seal and sends ACK (R219). -/
  | sealApply (k : Nat) (ue : List Nat)
  /-- SEAL_ACK: The leader receives ACKs and PHASE leaves APPLY (R219). -/
  | sealAck (k : Nat) (pos : Nat) (step : Nat)
  /-- SEAL_RESUME: A write of SEAL.CTL.RESUME at the leader leaves HELD pack-wide (R344). -/
  | sealResume (k : Nat) (m : Master) (v : W32)
  /-- SEAL_REQ: A write of SEAL.CTL.REQ at the leader allows the next seal (R217). -/
  | sealReq (k : Nat) (m : Master) (v : W32)
  /-- HOST_LINK_LOST: The leader's host link stays down 1 ms and the pack holds after the next seal (R221). -/
  | hostLinkLost (k : Nat)
  /-- COLL_ENABLE: A write of COLL.CTL.EN = 1 checks the group and takes a timer (R231). -/
  | collEnable (k : Nat) (m : Master) (j : Nat) (v : W32)
  /-- COLL_DISABLE: A write of COLL.CTL.EN = 0 disables a group and frees its timer (R231). -/
  | collDisable (k : Nat) (m : Master) (j : Nat) (v : W32)
  /-- COLL_SEND: The collective engine sends an outgoing entry once an inbound credit is held (R229). `q`: the queue, and how the entry's read comes out. -/
  | collSend (k : Nat) (site : Nat) (q : Nat × Ecc)
  /-- INBOUND_RECORD: A contribution record arrives at a root and is verified and classified (R233). -/
  | inboundRecord (k : Nat) (i : Nat) (upset : Nat)
  /-- MARK_ARRIVAL: A MARK arrives at a package, starting or completing the step's deadline (R237). -/
  | markArrival (k : Nat) (i : Nat) (upset : Nat)
  /-- COLL_DEADLINE_EXPIRY: A group's deadline expires, marking late members and closing the step (R237). -/
  | collDeadlineExpiry (k : Nat) (j : Nat)
  /-- STEP_CLOSE: Once all instances of a step are delivered the root sends end-of-step marks (R236). -/
  | stepClose (k : Nat) (j : Nat)
  /-- BCAST_DELIVERY: The engine delivers a broadcast entry to each member's destination queue (R242). -/
  | bcastDelivery (k : Nat) (i : Nat) (upset : Nat)
  /-- PERM_START: A write of PERM.CTL.START runs the permute table, or is refused outside HELD (R244). -/
  | permStart (k : Nat) (m : Master) (v : W32)
  /-- PERM_BLOCK: A permuted block arrives, is verified, written and acknowledged (R244). `ecc`: how the source's read comes out, and at which byte; `lost`: the CRC fails on arrival. -/
  | permBlock (k : Nat) (ecc : Ecc × Nat) (lost : Bool)
  /-- PERM_BARRIER_RELEASE: The leader releases a permute barrier once every member reaches it (R245). `p`: the position that reports, and the barrier's ordinal. -/
  | permBarrierRelease (k : Nat) (p : Nat × Nat)
  /-- PERM_DONE: A member's table finishes and the leader sets ALLDONE when all have (R245). -/
  | permDone (k : Nat) (p : Nat)
  /-- STACK_REQUEST: A channel grants a request and performs the read or write under ECC (R250). -/
  | stackRequest (k : Nat) (j : Nat) (c : Nat) (rs : List StackReq)
  /-- STACK_PARTIAL_WRITE: A write of less than a burst is an atomic read-modify-write (R251): at channel `c`, among the other requests there. -/
  | stackPartialWrite (k : Nat) (j : Nat) (c : Nat) (r : StackReq) (others : List StackReq)
  /-- REFRESH: A bank's refresh falls due and is scheduled, or forced after postponement (R256). -/
  | refresh (k : Nat) (j : Nat) (c : Nat) (b : Nat) (pending : Bool)
  /-- PATROL_SCRUB: The scrub reads a burst and writes back a correctable error (R253). -/
  | patrolScrub (k : Nat) (j : Nat) (c : Nat) (err : List (Nat × Nat))
  /-- STACK_PORT_LOST: A stack port's link is lost and the stack runs on one port (R252). -/
  | stackPortLost (k : Nat) (j : Nat) (p : Nat)
  /-- STACK_SENSOR_SAMPLE: A zone sensor sample updates the channels' throttle levels (R256). -/
  | stackSensorSample (k : Nat) (j : Nat) (z : Nat) (tz : Nat)
  /-- SELF_REFRESH_EXIT: A stack leaves self-refresh and SREF clears (R259). -/
  | selfRefreshExit (k : Nat) (j : Nat)
  /-- DIE_START: A die's edges self-test, exchange masks and train (R262). -/
  | dieStart (k : Nat) (site : Nat) (strapSite : Nat) (strapOri : Nat) (tests : List EdgeTest)
  /-- D2D_FRAME: A main-path frame is received and checked, acknowledged or NAKed (R265). `gap`: clean frames since the last; `errs`: what the lanes turn over; `bufs`: how the retry and the input buffer come out. -/
  | d2dFrame (k : Nat) (site : Nat) (e : Nat) (gap : Nat) (new : List FlitReq) (errs : List (Nat × Nat)) (bufs : Ecc × Ecc)
  /-- D2D_FERLIM_WINDOW: A 1 ms frame-error window ends and may trigger the fallback (R267). -/
  | d2dFerlimWindow (k : Nat) (site : Nat) (e : Nat)
  /-- D2D_MAP_SWITCH: Both ends apply an announced lane map or fallback at the switch frame (R268). -/
  | d2dMapSwitch (k : Nat) (site : Nat) (e : Nat)
  /-- D2D_PACKET: A fallback packet is received and checked (R271). `x`: TYPE, and flits that the sending die has; `way`: what the lanes turn over, how the retry and the input buffer come out. -/
  | d2dPacket (k : Nat) (site : Nat) (e : Nat) (x : Nat × List FlitReq) (way : List (Nat × Nat) × Ecc × Ecc)
  /-- D2D_BUNDLE_TIMEOUT: A bundle receives no good frame or packet for 2 µs and goes down (R275). -/
  | d2dBundleTimeout (k : Nat) (site : Nat) (e : Nat)
  /-- D2D_CLOCK_LOSS: A forwarded clock loses lock and its group's lanes become bad (R268). -/
  | d2dClockLoss (k : Nat) (site : Nat) (e : Nat) (grp : Nat)
  /-- D2D_EBAD_WRITE: A written 1 in D2D.EBAD marks a lane bad as if declared (R268). -/
  | d2dEbadWrite (k : Nat) (m : Master) (site : Nat) (e : Nat) (n : Nat) (v : W32)
  /-- D2D_RETRAIN: A fallback edge retrains after a seal and returns to the main path or resumes (R274). `failed`: lanes that fail, and whether the far end's test passes. -/
  | d2dRetrain (k : Nat) (site : Nat) (e : Nat) (failed : Nat × Bool)
  /-- GOVERNOR_SILENCE: No governor message from a die reaches the hub for 40 µs (R276). -/
  | governorSilence (k : Nat) (site : Nat)
  /-- ROUTING_COMPUTE: The hub recomputes and writes routing tables after a change (R278). -/
  | routingCompute (k : Nat)
  /-- ROUTING_TABLE: A die replaces its routing table with a newer version (R278). -/
  | routingTable (k : Nat) (site : Nat)
  /-- GOV_PERIOD: Every 10 µs a governor measures use and sends its message (R280). `use`: USE, and the feature level that the die reports. -/
  | govPeriod (k : Nat) (site : Nat) (use : Nat × Nat)
  /-- OFFER: A governor receives a budget OFFER and accepts or refuses it (R400). -/
  | offer (k : Nat) (i : Nat)
  /-- ACCEPT: A giver receives ACCEPT for its offer (R280). -/
  | accept (k : Nat) (i : Nat)
  /-- REFUSE: A giver receives REFUSE and takes its amount back (R280). -/
  | refuse (k : Nat) (i : Nat)
  /-- HUB_STATUS_MESSAGE: A die receives the hub's status message with a pool offer or a recall (R401). -/
  | hubStatusMessage (k : Nat) (i : Nat)
  /-- HUB_BUDGET_PERIOD: Every 10 µs the hub computes the die allowance and sends status messages (R398). -/
  | hubBudgetPeriod (k : Nat) (nondie : Nat)
  /-- INPUT_SAMPLE: The hub samples input current and may start the emergency throttle (R402). -/
  | inputSample (k : Nat) (amps : Nat) (pin : Nat)
  /-- EMERGENCY_END: The emergency throttle ends after PIN stays below PLIM for 20 µs (R402). -/
  | emergencyEnd (k : Nat)
  /-- JUNCTION_SAMPLE: A junction temperature sample that may signal a trip (R403). -/
  | junctionSample (k : Nat) (site : Nat) (tj : Nat)
  /-- THERMAL_THROTTLE_STEP: Every 10 µs a hot or cooling die moves its throttle step by one (R403). -/
  | thermalThrottleStep (k : Nat) (site : Nat)
  /-- THERMAL_TRIP: A trip wire fires and the Husk shuts the package down to S3 (R404). -/
  | thermalTrip (k : Nat)
  /-- ARRAY_CLOCK_IDLE_STOP: A region's array clock stops after IDLEUS with no work (R392). -/
  | arrayClockIdleStop (k : Nat) (site : Nat) (r : Nat)
  /-- PLL_LOCK_LOSS: A die PLL loses lock and its die stops (R388). -/
  | pllLockLoss (k : Nat) (site : Nat)
  /-- PACK_BEAT: A valid beat is received on a port (R290): from port `m` of package `j`. -/
  | packBeat (k : Nat) (n : Nat) (j : Nat) (m : Nat) (errs : List (Nat × Nat × Nat))
  /-- BEAT_WINDOW_EXPIRY: A 1 µs window ends without a beat and MISS grows (R291). -/
  | beatWindowExpiry (k : Nat) (n : Nat)
  /-- PACK_DATA_FRAME: A data frame is received, decoded and checked (R287). `way`: what the lanes do, how the retry and the input buffer come out. -/
  | packDataFrame (k : Nat) (n : Nat) (slot : Nat) (new : List FlitReq) (way : List (Nat × Nat × Nat) × Ecc × Ecc)
  /-- PACK_CONTROL_CODEWORD: A control codeword returns ACK, NAK and credits (R286). -/
  | packControlCodeword (k : Nat) (n : Nat) (slot : Nat) (errs : List (Nat × Nat × Nat))
  /-- PORT_TRAIN: A DOWN port whose partner's beats return trains and enters FENCED (R293). `c`: the cable's other end, the lane order and the polarity found. -/
  | portTrain (k : Nat) (n : Nat) (c : (Nat × Nat) × Bool × Nat)
  /-- PORT_ISOLATE: A write of PORT.CTL.ISOLATE forces the port DOWN (R292). -/
  | portIsolate (k : Nat) (m : Master) (n : Nat) (v : W32)
  /-- PACK_PMAP_WRITE: A write to a position route map takes effect between routing decisions (R294). -/
  | packPmapWrite (k : Nat) (m : Master) (p : Nat) (hops : Bool) (v : W32)
  /-- PACK_ASSIGN_REQ: A write of PACK.STAT.REQ at the leader sends ASSIGN (R296). -/
  | packAssignReq (k : Nat) (m : Master) (v : W32)
  /-- ASSIGN: A package receives ASSIGN and takes its position if allowed (R296). `p`: the position and the serial number. -/
  | assign (k : Nat) (n : Nat) (p : Nat × Nat)
  /-- PACK_MEMNEXT_WRITE: A write of the next membership, sent as MEMBER at a seal or at once (R299). -/
  | packMemnextWrite (k : Nat) (m : Master) (hi : Bool) (v : W32)
  /-- MEMBER: A package applies a new membership and epoch and acknowledges (R299). -/
  | member (k : Nat) (msg : MemberMsg)
  /-- PORT_DOWN: A flooded PORT_DOWN lowers LINKS and may declare a position lost (R301). -/
  | portDown (k : Nat) (pos : Nat) (port : Nat) (farPos : Nat) (farPort : Nat)
  /-- PKG_FAIL: A PKG_FAIL message declares its sender's position lost (R301). -/
  | pkgFail (k : Nat) (p : Nat)
  /-- LEAD_CLAIM: A member receives LEAD_CLAIM and accepts it if all lower positions are lost (R302). -/
  | leadClaim (k : Nat) (p : Nat) (epoch : Nat)
  /-- PARTITION_TIMEOUT: 20 µs pass without a claim and the member halts with PARTITION (R302). -/
  | partitionTimeout (k : Nat)
  /-- SERDES_HUB_SILENCE: A SerDes die hears nothing from its hub for 40 µs and sends DOWN beats (R301). -/
  | serdesHubSilence (k : Nat) (site : Nat)
  /-- AUDIT_MARKER: A link audit marker is received and checked against local counts (R320): from the end `far` of package `j`. -/
  | auditMarker (k : Nat) (l : LinkEnd) (j : Nat) (far : LinkEnd)
  /-- RECLAIM: A member receives RECLAIM and sends holder reports (R322). -/
  | reclaim (k : Nat) (step : Nat)
  /-- HOLDER_REPORT: A queue home receives holder reports and writes off lost credits (R322). -/
  | holderReport (k : Nat) (p : Nat) (rs : List (Nat × Nat))
  /-- RECLAIM_DONE: The leader receives RECLAIM_DONE from every member (R322). -/
  | reclaimDone (k : Nat) (p : Nat)
  /-- REVERT_REQUEST: The leader receives a revert request and reverts, halts or merges it (R343). -/
  | revertRequest (k : Nat)
  /-- REVERT: A member receives REVERT and runs the revert to the last seal (R344). -/
  | revertMsg (k : Nat) (step : Nat) (epoch : Nat)
  /-- REVERT_DONE: The leader receives REVERT_DONE and the pack holds (R344). -/
  | revertDone (k : Nat) (p : Nat) (step : Nat)
  /-- PROT_REVERT: A write of PROT.CTL.REVERT at the leader requests a revert (R344). -/
  | protRevert (k : Nat) (m : Master) (v : W32)
  /-- PROT_RESTORE: A write of PROT.CTL.RESTORE restores the pack from an image (R352). -/
  | protRestore (k : Nat) (m : Master) (v : W32) (cuts : List Cut) (crc : Bool)
  /-- PROT_UNASSIGN: A write of UNASSIGN returns a ready pack of one to unassigned (R354). -/
  | protUnassign (k : Nat) (m : Master) (v : W32)
  /-- PROT_HOSTDONE: A write of HOSTDONE ends the host's part of a rebuild (R350). -/
  | protHostdone (k : Nat) (m : Master) (v : W32)
  /-- PROT_TMODE_WRITE: A write of a tensor's protection mode, checked for parity (R329). -/
  | protTmodeWrite (k : Nat) (m : Master) (t : Nat) (v : W32)
  /-- PROT_SPCTL_WRITE: A write of a spare entry that clears USED (R347). -/
  | protSpctlWrite (k : Nat) (m : Master) (n : Nat) (v : W32)
  /-- SPARE_TAKEOVER: After the revert the leader assigns a spare and rebuilds the lost position (R350). -/
  | spareTakeover (k : Nat) (hostCut : Option Cut)
  /-- PARITY_DELTA: A parity holder receives a block delta and XORs it into the pending slot (R332). -/
  | parityDelta (k : Nat) (i : Nat)
  /-- PARITY_BUILD: A holder builds its parity along the member chain (R335). -/
  | parityBuild (k : Nat) (t : Nat) (j : Nat)
  /-- CUT_MIRROR: A mirror receives and stores another package's cut (R340). -/
  | cutMirror (k : Nat) (slot : Nat) (c : Cut)
  /-- READINESS_SUPPLEMENT: A mirror receives a package's input-queue consumer indices before READY (R341). -/
  | readinessSupplement (k : Nat) (msg : Supplement)
  /-- HOST_MEMORY_READ: A host read request through a BAR to a non-register space (R364). -/
  | hostMemoryRead (k : Nat) (bar : Nat) (off : Nat) (n : Nat) (ecc : Ecc)
  /-- HOST_MEMORY_WRITE: A host write request through a BAR to a non-register space (R364). `bs`: the bytes with their enables, and whether the request is poisoned. -/
  | hostMemoryWrite (k : Nat) (bar : Nat) (off : Nat) (bs : List (Option Byte) × Bool) (ecc : Ecc)
  /-- HOST_READ_TIMEOUT: A host read unanswered for 10 ms completes with Completer Abort (R365). -/
  | hostReadTimeout (k : Nat) (bar : Nat) (off : Nat) (n : Nat)
  /-- CONFIG_REQUEST: A configuration space request is answered or retried (R357). -/
  | configRequest (k : Nat) (r : CfgReq)
  /-- HOT_RESET: A Hot Reset, link disable or DL_Down resets configuration and HIF state (R372). -/
  | hotReset (k : Nat)
  /-- D3HOT: The function enters D3hot and stops BAR service (R372). -/
  | d3hot (k : Nat)
  /-- MSIX_MESSAGE: A pending unmasked vector's message is sent and its latch cleared (R369). -/
  | msixMessage (k : Nat) (v : Nat)
  /-- DOE_DISCOVERY: A DOE Discovery request is answered (R373). -/
  | doeDiscovery (k : Nat)
  /-- DOE_ABORT: A DOE Abort discards the request in progress and SPDM state (R373). -/
  | doeAbort (k : Nat)
  /-- GET_VERSION: SPDM GET_VERSION is answered (R373). -/
  | getVersion (k : Nat)
  /-- GET_CAPABILITIES: SPDM GET_CAPABILITIES is answered (R373). -/
  | getCapabilities (k : Nat)
  /-- NEGOTIATE_ALGORITHMS: SPDM NEGOTIATE_ALGORITHMS is answered (R373). -/
  | negotiateAlgorithms (k : Nat)
  /-- GET_DIGESTS: SPDM GET_DIGESTS is answered (R373). -/
  | getDigests (k : Nat)
  /-- GET_CERTIFICATE: SPDM GET_CERTIFICATE returns slot 0's chain or an error (R421). -/
  | getCertificate (k : Nat) (off : Nat) (len : Nat)
  /-- CHALLENGE: SPDM CHALLENGE is signed with the identity key or refused (R421). -/
  | challenge (k : Nat) (req : List Byte)
  /-- GET_MEASUREMENTS: SPDM GET_MEASUREMENTS returns the five signed measurements (R422). -/
  | getMeasurements (k : Nat) (req : List Byte)
  /-- SPDM_UNSUPPORTED_REQUEST: Any other SPDM request is answered with ERROR UnsupportedRequest (R373). -/
  | spdmUnsupportedRequest (k : Nat)
  /-- SET_ENDPOINT_ID: MCTP control Set Endpoint ID (R437). -/
  | setEndpointId (k : Nat) (e : Nat)
  /-- GET_ENDPOINT_ID: MCTP control Get Endpoint ID (R437). -/
  | getEndpointId (k : Nat)
  /-- GET_MCTP_VERSION_SUPPORT: MCTP control Get MCTP Version Support (R437). -/
  | getMctpVersionSupport (k : Nat)
  /-- GET_MESSAGE_TYPE_SUPPORT: MCTP control Get Message Type Support (R437). -/
  | getMessageTypeSupport (k : Nat)
  /-- MCTP_READ: Vendor READ returns Husk-domain register words (R438). -/
  | mctpRead (k : Nat) (o : Nat) (n : Nat)
  /-- MCTP_WRITE: Vendor WRITE writes one Husk-domain word with privilege (R438). -/
  | mctpWrite (k : Nat) (o : Nat) (v : W32)
  /-- BSEND: Vendor BSEND places a board message in BBUF and sets BV (R438). -/
  | bsend (k : Nat) (bs : List Byte)
  /-- HTAKE: Vendor HTAKE returns the host message and clears HV (R438). -/
  | htake (k : Nat)
  /-- SMB_ALERT_RESPONSE: The package answers the Alert Response Address and releases SMB_ALERT_N (R436). -/
  | smbAlertResponse (k : Nat)
  /-- ERRLOG_TAIL_WRITE: A write of ERRLOG.TAIL frees read records and may release SMB_ALERT_N (R315). -/
  | errlogTailWrite (k : Nat) (m : Master) (v : W32)
  /-- DIE_GATEU_WRITE: A masked write enabling or clearing unit clock gates (R382). -/
  | dieGateuWrite (k : Nat) (m : Master) (site : Nat) (j : Nat) (v : W32)
  /-- DIE_GATEC_WRITE: A masked write enabling or clearing cluster buffer gates (R382). -/
  | dieGatecWrite (k : Nat) (m : Master) (site : Nat) (v : W32)
  /-- DIE_GATEB_WRITE: A masked write of region buffer and engine gates (R382). -/
  | dieGatebWrite (k : Nat) (m : Master) (site : Nat) (v : W32)
  /-- HUB_GATE0_WRITE: A masked write of the hub block gates (R382). -/
  | hubGate0Write (k : Nat) (m : Master) (v : W32)
  /-- HUB_GATES_WRITE: A masked write of the stack gates, completed once applied (R382). -/
  | hubGatesWrite (k : Nat) (m : Master) (v : W32)
  /-- DIE_KSHR_WRITE: A write of the Kennel shares, applied whole or refused (R386). -/
  | dieKshrWrite (k : Nat) (m : Master) (site : Nat) (v : W32)
  /-- TIMER_REL: A write of TIMER.REL frees a TMALLOC timer (R387). -/
  | timerRel (k : Nat) (m : Master) (n : Nat)
  /-- TIMER_EXPIRY: A timer reaches its tick and ends every wait that names it (R139). -/
  | timerExpiry (k : Nat) (n : Nat)
  /-- PWR_LIMIT_WRITE: A write of PLIM changes the package input limit (R398). -/
  | pwrLimitWrite (k : Nat) (m : Master) (v : W32)
  /-- WAKE: PWR.CMD WAKE powers the rails and starts the package (R396). -/
  | wake (k : Nat) (m : Master)
  /-- STANDBY: PWR.CMD STANDBY moves the package to S1, or is refused (R395). -/
  | standby (k : Nat) (m : Master) (force : Bool) (stuck : Bool)
  /-- OFF: PWR.CMD OFF moves the package to S3, or is refused (R396). -/
  | powerOff (k : Nat) (m : Master) (force : Bool)
  /-- PKGRESET: PWR.CMD PKGRESET performs a package reset (R397). -/
  | pkgreset (k : Nat) (m : Master)
  /-- DIERESET: PWR.CMD DIERESET resets one die, declaring it failed (R397). -/
  | diereset (k : Nat) (m : Master) (site : Nat) (tests : List EdgeTest)
  /-- PWR_OK_RISE: PWR_OK is recognised high and AUTOWAKE may wake the package (R430). -/
  | pwrOkRise (k : Nat)
  /-- PWR_OK_FALL: PWR_OK falls and the regulators are disabled into S3 (R430). -/
  | pwrOkFall (k : Nat)
  /-- VAON_RISE: VAON rises, a power-on reset runs and the fuses load (R410). -/
  | vaonRise (k : Nat)
  /-- VAON_INTERLOCK: VAON falls below 2.9 V with VIN present and the regulators are disabled (R432). -/
  | vaonInterlock (k : Nat)
  /-- PERST_ASSERT: An assertion of PERST_N is recognised as a package reset (R371). -/
  | perstAssert (k : Nat)
  /-- PERST_RELEASE: A release of PERST_N starts the boot (R371). -/
  | perstRelease (k : Nat)
  /-- REFCLK_LOSS: REFCLK is lost and the package fails and holds (R390). -/
  | refclkLoss (k : Nat)
  /-- HUSK_TRIM: Every 1 ms the Husk trims its oscillator against a reference (R391). -/
  | huskTrim (k : Nat)
  /-- HSEND: A write of HUSK.MBCTL.HSEND posts a host message to the board (R407). -/
  | hsend (k : Nat) (m : Master) (len : Nat)
  /-- BACK: A write of HUSK.MBCTL.BACK releases the board message (R407). -/
  | back (k : Nat) (m : Master) (v : W32)
  /-- HUSK_ISO_WRITE: A write of HUSK.ISO drives a port's lanes idle or releases them (R405). -/
  | huskIsoWrite (k : Nat) (m : Master) (v : W32)
  /-- QREQ: A write of HUSK.QCTL.QREQ starts forming a signed quote (R408). -/
  | qreq (k : Nat) (m : Master)
  /-- QUOTE_DONE: The quote is signed and stored and DONE sets (R408). -/
  | quoteDone (k : Nat)
  /-- HUSK_NONCE_WRITE: A write of HUSK.NONCE clears DONE (R408). -/
  | huskNonceWrite (k : Nat) (m : Master) (w : Nat) (v : W32)
  /-- LEND_READY_PULSE: The lend-ready pattern timer drives FAULT_N low or releases it (R435). -/
  | lendReadyPulse (k : Nat)
  /-- LOAD: A write of KEY.BCTL.LOAD checks the image in the load area (R415). -/
  | load (k : Nat) (m : Master)
  /-- LOAD_COMPLETE: A verified image is installed and PHASE becomes RUN, or FAILED (R416). -/
  | loadComplete (k : Nat)
  /-- IMAGE_PUSH: A new member receives the leader's image and verifies it (R417). -/
  | imagePush (k : Nat)
  /-- ADVSVN: A write of FUSE.CTL.ADVSVN blows rollback fuses up to the running SVN (R418). -/
  | advsvn (k : Nat) (m : Master)
  /-- REVOKE: A write of FUSE.CTL.REVOKE blows a key slot's revoke fuse (R419). -/
  | revoke (k : Nat) (m : Master) (mask : Nat)
  /-- TAP_RESET: TRST_N or five TMS-high cycles place the TAP in Test-Logic-Reset (R439). -/
  | tapReset (k : Nat)
  /-- BYPASS: TAP BYPASS instruction (R440). -/
  | bypass (k : Nat)
  /-- IDCODE: TAP IDCODE instruction (R439). -/
  | idcode (k : Nat)
  /-- SAMPLE_PRELOAD: TAP SAMPLE/PRELOAD instruction (R440). -/
  | samplePreload (k : Nat) (cells : Nat)
  /-- EXTEST: TAP EXTEST drives the boundary cells and takes ports and host link down (R442). -/
  | extest (k : Nat) (cells : Nat)
  /-- EXTEST_PULSE: TAP EXTEST_PULSE on the AC-coupled lanes (R442). -/
  | extestPulse (k : Nat) (cells : Nat)
  /-- EXTEST_TRAIN: TAP EXTEST_TRAIN on the AC-coupled lanes (R442). -/
  | extestTrain (k : Nat) (cells : Nat)
  /-- REGISTER_WRITE: A write to a register that has no row of its own, under its access codes (R6). -/
  | registerWrite (k : Nat) (m : Master) (site : Nat) (off : Nat) (v : W32)
  /-- REFCLK_RETURN: REFCLK becomes present again in S1 or S3, so that WAKE is no longer refused (R396). -/
  | refclkReturn (k : Nat)
  /-- VAON_LOSS: VAON is removed after VIN has fallen below 1 V, which powers down the Husk and its domain (R431). -/
  | vaonLoss (k : Nat)
  /-- FOLLOWER_ERROR_POSITION: The leader receives a follower's report of a logged error or fatal record, sets its bit in HIF.EPOS and raises the error vector (R370). -/
  | followerErrorPosition (k : Nat) (p : Nat)
  /-- SWEEP_ACCUMULATOR: The leader receives a package's combined sweep norm accumulator and, once it holds every member's, computes NORM and FCLIP and broadcasts them (R212). -/
  | sweepAccumulator (k : Nat) (p : Nat) (step : Nat) (a : NormAcc)
  /-- GOVERNOR_MESSAGE: The hub or a neighbour receives a governor status message, records USE and CAP, and declares the die failed if LEVEL differs from its fused level (R281). -/
  | governorMessage (k : Nat) (site : Nat) (i : Nat)
  deriving DecidableEq, Repr

end Sys2Proof
end

