-- ==== Sys2Proof/Decode.lean ====
section
/-! DEFINITION. Decoding: the opcode table gives the commands no bits; the Dolsis instruction word, its decoder and its encoder (R90, R114, R119). -/

set_option linter.unusedVariables false

namespace Sys2Proof

/-- The command a word of the opcode table spells: the table gives no row any bits. -/
def decodeTableWord (nbits w : Nat) : Option Instr := none

/-- The major opcode of an operation (R119). -/
def Op.code : Op → Nat
  | .add => 0x00
  | .sub => 0x01
  | .mul => 0x02
  | .mulhu => 0x03
  | .divu => 0x04
  | .remu => 0x05
  | .divs => 0x06
  | .rems => 0x07
  | .and => 0x08
  | .or => 0x09
  | .xor => 0x0A
  | .shl => 0x0B
  | .shr => 0x0C
  | .sra => 0x0D
  | .addi => 0x10
  | .subi => 0x11
  | .muli => 0x12
  | .mulhui => 0x13
  | .divui => 0x14
  | .remui => 0x15
  | .divsi => 0x16
  | .remsi => 0x17
  | .andi => 0x18
  | .ori => 0x19
  | .xori => 0x1A
  | .shli => 0x1B
  | .shri => 0x1C
  | .srai => 0x1D
  | .movhi => 0x1E
  | .cmp => 0x20
  | .cmpi => 0x21
  | .plog => 0x22
  | .br => 0x28
  | .call => 0x29
  | .jr => 0x2A
  | .halt => 0x2B
  | .ld => 0x30
  | .st => 0x31
  | .tdset => 0x40
  | .tdget => 0x41
  | .tdadv => 0x42
  | .mma => 0x50
  | .mmb => 0x51
  | .epi => 0x52
  | .fnv => 0x60
  | .fnd => 0x61
  | .cvt => 0x62
  | .cvts => 0x63
  | .qpush => 0x70
  | .qpop => 0x71
  | .qmark => 0x72
  | .qrewind => 0x73
  | .qrelease => 0x74
  | .qcount => 0x75
  | .tgive => 0x80
  | .ttake => 0x81
  | .twait => 0x82
  | .cgive => 0x83
  | .ctake => 0x84
  | .kreserve => 0x90
  | .kstash => 0x91
  | .kfetch => 0x92
  | .kfree => 0x93
  | .gather => 0xA0
  | .contrib => 0xA1
  | .rand => 0xB0
  | .randt => 0xB1
  | .tmalloc => 0xB4
  | .tmset => 0xB5
  | .tmfree => 0xB6
  | .nop => 0xC4
  | .xclr => 0xC9
  | .xret => 0xCA
  | .fenceW | .fenceRw | .fenceE | .fenceI => 0xC0
  | .xgetCause | .xgetFpc | .xgetFaddr | .xgetSstat => 0xC8

/-- The selector in IMM[1:0] of FENCE and XGET (R119); none where the operation has none. -/
def Op.sel : Op → Option Nat
  | .fenceW => some 0
  | .fenceRw => some 1
  | .fenceE => some 2
  | .fenceI => some 3
  | .xgetCause => some 0
  | .xgetFpc => some 1
  | .xgetFaddr => some 2
  | .xgetSstat => some 3
  | _ => none

/-- The operation of a major opcode and a selector (R119); none where the opcode map lists none. -/
def Op.ofCode (c sel : Nat) : Option Op :=
  match c with
  | 0x00 => some .add
  | 0x01 => some .sub
  | 0x02 => some .mul
  | 0x03 => some .mulhu
  | 0x04 => some .divu
  | 0x05 => some .remu
  | 0x06 => some .divs
  | 0x07 => some .rems
  | 0x08 => some .and
  | 0x09 => some .or
  | 0x0A => some .xor
  | 0x0B => some .shl
  | 0x0C => some .shr
  | 0x0D => some .sra
  | 0x10 => some .addi
  | 0x11 => some .subi
  | 0x12 => some .muli
  | 0x13 => some .mulhui
  | 0x14 => some .divui
  | 0x15 => some .remui
  | 0x16 => some .divsi
  | 0x17 => some .remsi
  | 0x18 => some .andi
  | 0x19 => some .ori
  | 0x1A => some .xori
  | 0x1B => some .shli
  | 0x1C => some .shri
  | 0x1D => some .srai
  | 0x1E => some .movhi
  | 0x20 => some .cmp
  | 0x21 => some .cmpi
  | 0x22 => some .plog
  | 0x28 => some .br
  | 0x29 => some .call
  | 0x2A => some .jr
  | 0x2B => some .halt
  | 0x30 => some .ld
  | 0x31 => some .st
  | 0x40 => some .tdset
  | 0x41 => some .tdget
  | 0x42 => some .tdadv
  | 0x50 => some .mma
  | 0x51 => some .mmb
  | 0x52 => some .epi
  | 0x60 => some .fnv
  | 0x61 => some .fnd
  | 0x62 => some .cvt
  | 0x63 => some .cvts
  | 0x70 => some .qpush
  | 0x71 => some .qpop
  | 0x72 => some .qmark
  | 0x73 => some .qrewind
  | 0x74 => some .qrelease
  | 0x75 => some .qcount
  | 0x80 => some .tgive
  | 0x81 => some .ttake
  | 0x82 => some .twait
  | 0x83 => some .cgive
  | 0x84 => some .ctake
  | 0x90 => some .kreserve
  | 0x91 => some .kstash
  | 0x92 => some .kfetch
  | 0x93 => some .kfree
  | 0xA0 => some .gather
  | 0xA1 => some .contrib
  | 0xB0 => some .rand
  | 0xB1 => some .randt
  | 0xB4 => some .tmalloc
  | 0xB5 => some .tmset
  | 0xB6 => some .tmfree
  | 0xC4 => some .nop
  | 0xC9 => some .xclr
  | 0xCA => some .xret
  | 0xC0 => some (match sel with | 0 => .fenceW | 1 => .fenceRw | 2 => .fenceE | _ => .fenceI)
  | 0xC8 => some (match sel with | 0 => .xgetCause | 1 => .xgetFpc | 2 => .xgetFaddr | _ => .xgetSstat)
  | _ => none

/-- The fields of an instruction word (R114). -/
def Fields.ofWord (w : Word) : Fields :=
  { d := w.extractLsb' 51 5, a := w.extractLsb' 46 5, b := w.extractLsb' 41 5, c := w.extractLsb' 36 5, gn := w.getLsbD 35,
    gp := w.extractLsb' 32 3, imm := w.extractLsb' 0 32 }

/-- An instruction word decoded (R114, R119): the operation and its fields; none for an opcode that the map does not list. Reserved field values are R117's check at issue. -/
def decodeWord (w : Word) : Option (Op × Fields) :=
  let f := Fields.ofWord w
  (Op.ofCode (w.extractLsb' 56 8).toNat (f.i 1 0)).map (fun o => (o, f))

/-- An instruction encoded (R114). -/
def encodeWord (op : Op) (f : Fields) : Word :=
  BitVec.ofNat 8 op.code ++ (f.d ++ (f.a ++ (f.b ++ (f.c ++ (BitVec.ofBool f.gn ++ (f.gp ++ f.imm))))))

/-- The command by which a thread issues an operation. -/
def Op.toInstr (t : Tid) (f : Fields) : Op → Instr
  | .add => .add t f
  | .sub => .sub t f
  | .mul => .mul t f
  | .mulhu => .mulhu t f
  | .divu => .divu t f
  | .remu => .remu t f
  | .divs => .divs t f
  | .rems => .rems t f
  | .and => .and t f
  | .or => .or t f
  | .xor => .xor t f
  | .shl => .shl t f
  | .shr => .shr t f
  | .sra => .sra t f
  | .addi => .addi t f
  | .subi => .subi t f
  | .muli => .muli t f
  | .mulhui => .mulhui t f
  | .divui => .divui t f
  | .remui => .remui t f
  | .divsi => .divsi t f
  | .remsi => .remsi t f
  | .andi => .andi t f
  | .ori => .ori t f
  | .xori => .xori t f
  | .shli => .shli t f
  | .shri => .shri t f
  | .srai => .srai t f
  | .movhi => .movhi t f
  | .cmp => .cmp t f
  | .cmpi => .cmpi t f
  | .plog => .plog t f
  | .br => .br t f
  | .call => .call t f
  | .jr => .jr t f
  | .halt => .halt t f
  | .ld => .ld t f
  | .st => .st t f
  | .tdset => .tdset t f
  | .tdget => .tdget t f
  | .tdadv => .tdadv t f
  | .mma => .mma t f
  | .mmb => .mmb t f
  | .epi => .epi t f
  | .fnv => .fnv t f
  | .fnd => .fnd t f
  | .cvt => .cvt t f
  | .cvts => .cvts t f
  | .qpush => .qpush t f
  | .qpop => .qpop t f
  | .qmark => .qmark t f
  | .qrewind => .qrewind t f
  | .qrelease => .qrelease t f
  | .qcount => .qcount t f
  | .tgive => .tgive t f
  | .ttake => .ttake t f
  | .twait => .twait t f
  | .cgive => .cgive t f
  | .ctake => .ctake t f
  | .kreserve => .kreserve t f
  | .kstash => .kstash t f
  | .kfetch => .kfetch t f
  | .kfree => .kfree t f
  | .gather => .gather t f
  | .contrib => .contrib t f
  | .rand => .rand t f
  | .randt => .randt t f
  | .tmalloc => .tmalloc t f
  | .tmset => .tmset t f
  | .tmfree => .tmfree t f
  | .nop => .nop t f
  | .xclr => .xclr t f
  | .xret => .xret t f
  | .fenceW => .fenceW t f
  | .fenceRw => .fenceRw t f
  | .fenceE => .fenceE t f
  | .fenceI => .fenceI t f
  | .xgetCause => .xgetCause t f
  | .xgetFpc => .xgetFpc t f
  | .xgetFaddr => .xgetFaddr t f
  | .xgetSstat => .xgetSstat t f

/-- The word that a thread fetches next, from its own unit's SRAM (R90). -/
def Machine.Pack.fetchWord (s : Machine.Pack) (t : Tid) : Word :=
  BitVec.ofNat 64 (Machine.leVal (s.bytes { pk := t.pkg, site := t.site, space := 0, off := t.unit * 2 ^ 19 + 8 * ((s.g t.pkg).th t).pc.toNat } 8))

/-- The command by which a thread issues what it fetches; none where the opcode map lists no such opcode. -/
def Machine.Pack.fetched (s : Machine.Pack) (t : Tid) : Option Instr :=
  (decodeWord (s.fetchWord t)).map (fun p => p.1.toInstr t p.2)

end Sys2Proof
end

