-- ==== Sys2Proof/Machine/Rng.lean ====
section
/-! DEFINITION. The counter-based generator and the counters of its uses (R76, R82, R83). -/

set_option linter.unusedVariables false

namespace Sys2Proof.Machine

/-- rotl32 of R76. -/
def rotl32 (v : W32) (n : Nat) : W32 := v.rotateLeft (n % 32)

/-- The four words of the generator's state or key. -/
structure Quad where
  w0 : W32
  w1 : W32
  w2 : W32
  w3 : W32
  deriving DecidableEq, Repr

/-- Word `j` of four, `j` taken modulo 4. -/
def Quad.word (k : Quad) (j : Nat) : W32 :=
  match j % 4 with
  | 0 => k.w0
  | 1 => k.w1
  | 2 => k.w2
  | _ => k.w3

/-- A 128-bit number as four words, word 0 least significant. -/
def Quad.ofNat (n : Nat) : Quad :=
  { w0 := mk32 n, w1 := mk32 (n >>> 32), w2 := mk32 (n >>> 64), w3 := mk32 (n >>> 96) }

/-- Four words as a 128-bit number. -/
def Quad.toNat (q : Quad) : Nat :=
  q.w0.toNat + (q.w1.toNat <<< 32) + (q.w2.toNat <<< 64) + (q.w3.toNat <<< 96)

/-- The round key of R76. -/
def roundKey (k : Quad) (r j : Nat) : W32 := rotl32 (k.word (j + r)) r + mk32 r * 0x5A4EC1B3#32 + mk32 j

/-- The four words, each mixed with its round key. -/
def addKey (k x : Quad) (r : Nat) : Quad :=
  { w0 := x.w0 ^^^ roundKey k r 0, w1 := x.w1 ^^^ roundKey k r 1,
    w2 := x.w2 ^^^ roundKey k r 2, w3 := x.w3 ^^^ roundKey k r 3 }

/-- One round of R76, after its key. -/
def mixRound (x : Quad) : Quad :=
  let a0 := x.w0 + x.w1
  let a3 := rotl32 (x.w3 ^^^ a0) 13
  let a2 := x.w2 + a3
  let a1 := rotl32 (x.w1 ^^^ a2) 9
  let b0 := a0 + a1
  let b3 := rotl32 (a3 ^^^ b0) 11
  let b2 := a2 + b3
  let b1 := rotl32 (a1 ^^^ b2) 5
  { w0 := b1, w1 := b2, w2 := b3, w3 := b0 }

/-- `n` rounds from round `r`. -/
def rounds (k : Quad) : Nat → Nat → Quad → Quad
  | 0, _, x => x
  | n + 1, r, x => rounds k n (r + 1) (mixRound (addKey k x r))

/-- One call of the generator: 128 output bits (R76). -/
def gen (key : Quad) (ctr : Nat) : Nat := (addKey key (rounds key 10 0 (Quad.ofNat ctr)) 10).toNat

/-- The counter of R82 from its fields, each taken modulo its width (R83). -/
def counter (step f16 site lane d : Nat) : Nat :=
  ((step % 2 ^ 32) <<< 96) + ((f16 % 2 ^ 16) <<< 80) + ((site % 256) <<< 72) + ((lane % 256) <<< 64) + d % 2 ^ 64

/-- The draw index of an A16 accumulation of element (I, J) in k-block b (R82, R83). -/
def accIndex (b i j : Nat) : Nat := ((b % 2 ^ 24) <<< 36) + ((i % 2 ^ 20) <<< 16) + (j % 2 ^ 20) / 16

/-- The logical index of element (I, J) of a destination tensor (R82, R83). -/
def elemIndex (i j : Nat) : Nat := (i % 2 ^ 20) * 2 ^ 20 + j % 2 ^ 20

/-- The 16 bits of element L from a call at index L >> 3 (R82). -/
def draw16 (key : Quad) (step f16 site lane l : Nat) : Nat :=
  (gen key (counter step f16 site lane (l / 8)) >>> (16 * (l % 8))) % 2 ^ 16

/-- The 8 bits of accumulation element (I, J) (R67, R82). -/
def draw8 (key : Quad) (step mbid site lane b i j : Nat) : Nat :=
  (gen key (counter step mbid site lane (accIndex b i j)) >>> (8 * (j % 16))) % 256

end Sys2Proof.Machine
end

