-- ==== Sys2Proof/Machine/Matrix.lean ====
section
/-! DEFINITION. Matrix arithmetic: the k-block sum, the accumulator, the epilogue's steps, function tables (R59 to R75). -/

set_option linter.unusedVariables false

namespace Sys2Proof.Machine

/-- An infinity of a 16-bit operand read as the largest finite value, with SAT (R64). -/
def tameInf (f : Fmt) (v : Val) : Val × Flg :=
  match v with
  | .inf s => (.fin s (largest f), { sat := true })
  | x => (x, {})

/-- An operand of an MMA: its format, its value without block factor, its block exponent code where it is blocked. -/
structure Opnd where
  fmt : Fmt
  val : Val
  be : Option Nat
  deriving DecidableEq, Repr

/-- The exponent a block exponent contributes to R65: be - 127, or 0. -/
def Opnd.shift (o : Opnd) : Int :=
  match o.be with
  | some b => (b : Int) - 127
  | none => 0

/-- The value of R64: NaN in a NaN block. -/
def Opnd.value (o : Opnd) : Val := if o.be = some 0xFF then .nan else o.val

/-- The product of R64, with SAT where an infinity was read as the largest finite value. -/
def product (a b : Opnd) : Val × Flg :=
  let x := tameInf a.fmt a.value
  let y := tameInf b.fmt b.value
  (x.1.mul y.1, x.2.or y.2)

/-- One product truncated to the window's last place, as a signed integer count of that place (R65). -/
def truncTo (lsb : Int) : Val → Int
  | .fin s m =>
    let (p, q) := magFrac m lsb
    let t : Int := (p / q : Nat)
    if s then -t else t
  | _ => 0

/-- The largest exponent of the non-zero products. -/
def topExp : List Val → Option Int
  | [] => none
  | .fin s m :: r =>
    if magZero m then topExp r
    else match topExp r with
      | some e => some (max e (magLog m))
      | none => some (magLog m)
  | _ :: r => topExp r

/-- block_contribution of R65 over the products of one k-block; `sh` is ea + eb, `w` the window. -/
def blockContribution (ps : List Val) (sh : Int) (w : Nat) (acc : Fmt) : Val × Flg :=
  if ps.any Val.isNan then (.nan, { nan := true })
  else match topExp ps with
    | none => (valZero, {})
    | some e =>
      let lsb := e - (w : Int) + 1
      let s := (ps.map (truncTo lsb)).foldl (· + ·) (0 : Int)
      let neg := decide (s < 0)
      let x : Mag := { n := s.natAbs, d := 1, e := lsb + sh }
      if s = 0 then (valZero, {})
      else if magLt (largest acc) x then (.fin neg (largest acc), { sat := true })
      else if magLt x (magPow (emin acc - mbits acc)) then (valZero, { flush := true })
      else (.fin neg x, {})

/-- A zero of either sign as +0: an exact zero sum is +0 (R66). -/
def plusZero (v : Val) : Val := if v.isZero then valZero else v

/-- R66: an element with one contribution added, A32 or A16 (`r8` the SR bits). -/
def accAdd (a16 : Bool) (acc : Nat) (x : Val) (r8 : Nat) : Nat × Flg :=
  let f : Fmt := if a16 then .b16 else .a32
  convert (plusZero ((decode f acc).add x)) f (if a16 then .sr 8 r8 else .rne)

/-- rne24 of R75: binary32 with infinities; a sum that rounds beyond the largest finite value is infinite with SAT. -/
def rne24 (v : Val) : Nat × Flg :=
  match v with
  | .inf s => (signed .a32 0x7F800000 s, {})
  | .fin s m =>
    if magLe { n := 2 ^ 25 - 1, d := 1, e := 103 } m then (signed .a32 0x7F800000 s, { sat := true })
    else if magLt (largest .a32) m then (signed .a32 0x7F7FFFFF s, {})
    else rneA v
  | .nan => rneA .nan

/-- Onelo accumulation of one k-block: each product alone, in ascending k (R75). -/
def accOnelo : List Val → Nat → Flg → Nat × Flg
  | [], acc, f => (acc, f)
  | p :: r, acc, f =>
    let n := rne24 (plusZero ((ofA acc).add p))
    accOnelo r n.1 (f.or n.2)

/-- An operand format is of 16 bits. -/
def is16 (f : Fmt) : Bool := f == .b16 || f == .h16

/-- One element over one k-block: contribution and accumulation with their flags (R64 to R66, R75). -/
def elemBlock (onelo a16 : Bool) (as bs : List Opnd) (acc r8 : Nat) : Nat × Flg :=
  if onelo then accOnelo ((as.zip bs).map (fun p => p.1.value.mul p.2.value)) acc {}
  else
    let ps := (as.zip bs).map (fun p => product p.1 p.2)
    let fp := ps.foldl (fun f p => f.or p.2) ({} : Flg)
    let sh := match as, bs with
      | a :: _, b :: _ => a.shift + b.shift
      | _, _ => 0
    let w := match as, bs with
      | a :: _, b :: _ => if is16 a.fmt || is16 b.fmt then 48 else 32
      | _, _ => 32
    let c := blockContribution (ps.map (·.1)) sh w (if a16 then .b16 else .a32)
    let n := accAdd a16 acc c.1 r8
    (n.1, (fp.or c.2).or n.2)

/-- The formats an MMA takes, native and Onelo (R61, R75). -/
def mmaFmtOk (onelo : Bool) (f : Fmt) : Bool :=
  match f with
  | .b16 | .h16 => true
  | .f4 | .f8f | .f8g => !onelo
  | .o8f | .o8g => onelo
  | .a32 => false

/-- Array cycles of one k-block (R62), of an MMA of `k`, with fill and drain. -/
def mmaCycles (fa fb : Fmt) (onelo a16 : Bool) (k : Nat) : Nat :=
  let w16 := is16 fa || is16 fb
  let c :=
    if onelo then (if w16 then 512 else 256)
    else if w16 then (if a16 then 32 else 64)
    else if fa == .f4 && fb == .f4 then 16
    else (if a16 then 16 else 32)
  k / 32 * c + 24

/-- A function table in parts (R72): bounds, tails and the coefficients in ascending address order. -/
structure FnTab where
  lo : Nat
  wshift : Int
  la : Nat
  lb : Nat
  ha : Nat
  hb : Nat
  coef : List Nat
  deriving DecidableEq, Repr

/-- A byte as a two's complement number. -/
def s8 (b : Nat) : Int := if b % 256 < 128 then ((b % 256 : Nat) : Int) else ((b % 256 : Nat) : Int) - 256

/-- Pairs of bytes as 16-bit numbers. -/
def halves : List Byte → List Nat
  | a :: b :: r => (a.toNat + 256 * b.toNat) :: halves r
  | _ => []

/-- A table read from its 1,552 bytes; none where R72 rejects it. -/
def fnTabOf (bs : List Byte) : Option FnTab :=
  let h := halves bs
  let w := s8 ((bs.getD 2 0).toNat)
  let t : FnTab :=
    { lo := h.getD 0 0, wshift := w, la := h.getD 2 0, lb := h.getD 3 0, ha := h.getD 4 0, hb := h.getD 5 0,
      coef := h.drop 8 }
  let loOk := match ofB t.lo with
    | .fin _ _ => true
    | _ => false
  if loOk && decide (-60 ≤ w ∧ w ≤ 60) && bs.getD 3 0 == 0 && ((bs.drop 12).take 4).all (· == 0) then some t
  else none

/-- floor of a non-negative magnitude. -/
def magFloor (m : Mag) : Nat := (magFrac m 0).1 / (magFrac m 0).2

/-- A value rounded to A32 with its flags joined to those gathered so far. -/
def stepA (p : Val × Flg) : Val × Flg :=
  let r := rneA p.1
  (ofA r.1, p.2.or r.2)

/-- tail of R73. -/
def fnTail (a b : Nat) (d : Val) : Val × Flg :=
  let d := stepA (d, {})
  let y := stepA ((ofB b).mul d.1, d.2)
  stepA (y.1.add (ofB a), y.2)

/-- fn_eval of R73 on an A32 value. -/
def fnEval (x : Val) (t : FnTab) : Val × Flg :=
  let lo := ofB t.lo
  let w := magPow t.wshift
  let hi := lo.add (.fin false (magPow (t.wshift + 8)))
  match x with
  | .nan => (.nan, { nan := true })
  | _ =>
    if x.lt lo then fnTail t.la t.lb (x.sub lo)
    else if !(x.lt hi) then fnTail t.ha t.hb (x.sub hi)
    else
      let i := match x.sub lo with
        | .fin _ m => magFloor (magDiv m w)
        | _ => 0
      let start := lo.add (.fin false (magMul (magNat i) w))
      let tt := stepA (x.sub start, {})
      let c (j : Nat) : Val := ofB (t.coef.getD (3 * i + j) 0)
      let y := stepA (tt.1.mul (c 2), tt.2)
      let y := stepA (y.1.add (c 1), y.2)
      let y := stepA (tt.1.mul y.1, y.2)
      stepA (y.1.add (c 0), y.2)

/-- The epilogue of one element up to the bias (R69): the accumulator, the two scales as B16 codes, the bias. -/
def epiValue (acc : Val) (sa sb : Nat) (bias : Option Val) : Val × Flg :=
  let sab := stepA ((ofB sa).mul (ofB sb), {})
  let y := stepA (acc.mul sab.1, sab.2)
  match bias with
  | some b => stepA (y.1.add b, y.2)
  | none => y

/-- An operand held as codes, read as a real value (R74): convert(code × block factor × scale, A32, RNE). -/
def readReal (f : Fmt) (code : Nat) (be : Option Nat) (scale : Option Nat) : Val × Flg :=
  let v := decode f code
  let v := match be with
    | some b => v.mul (blockFactor b)
    | none => v
  let v := match scale with
    | some s => v.mul (ofB s)
    | none => v
  stepA (v, {})

end Sys2Proof.Machine
end

