-- ==== Sys2Proof/Machine/Tables.lean ====
section
/-! DEFINITION. The tables of sharded state and protection as registers, the map of stack memory, and what an error of a store leaves behind (R201 to R206, R246 to R256, R307, R325, R329, R330). -/

set_option linter.unusedVariables false

namespace Sys2Proof.Machine

/-- A register of tensor `t`, of owner entry `e`, of optimiser group `g`. -/
def rTens (t o : Nat) : Nat := hubR (0x80000 + 0x20 * t + o)
def rOwn (e o : Nat) : Nat := hubR (0x60000 + 8 * e + o)
def rSched (j o : Nat) : Nat := hubR (0xA000 + 0x80 * j + o)

/-- Fields of TENS (R201, R202); NSH is the number of shards by R201, which an enable copies into its field. -/
def Pkg.tEn (g : Pkg) (t : Nat) : Bool := g.rb (rTens t 0) 29
def Pkg.tUpd (g : Pkg) (t : Nat) : Bool := g.rb (rTens t 0) 28
def Pkg.tDecay (g : Pkg) (t : Nat) : Bool := g.rb (rTens t 0) 27
def Pkg.tGroup (g : Pkg) (t : Nat) : Nat := g.rf (rTens t 0) 25 20
def Pkg.kacc (g : Pkg) (t : Nat) : Nat := g.rf (rTens t 0) 19 14 + 1
def Pkg.nver (g : Pkg) (t : Nat) : Nat := g.rf (rTens t 0) 13 12 + 1
def Pkg.repl (g : Pkg) (t : Nat) : Nat := g.rf (rTens t 0) 11 10 + 1
def Pkg.sslot (g : Pkg) (t : Nat) : Nat := g.rf (rTens t 0) 9 0
def Pkg.cols32 (g : Pkg) (t : Nat) : Nat := g.rf (rTens t 4) 31 16
def Pkg.rows32 (g : Pkg) (t : Nat) : Nat := g.rf (rTens t 4) 15 0
def Pkg.shr32 (g : Pkg) (t : Nat) : Nat := g.rf (rTens t 8) 15 0
def Pkg.nsh (g : Pkg) (t : Nat) : Nat := (g.rows32 t + g.shr32 t - 1) / g.shr32 t
def Pkg.own0 (g : Pkg) (t : Nat) : Nat := g.rf (rTens t 0xC) 13 0

/-- Fields of TENS.VER. -/
def Pkg.cbank (g : Pkg) (t : Nat) : Nat := g.rf (rTens t 0x10) 31 31
def Pkg.tCur (g : Pkg) (t : Nat) : Nat := g.rf (rTens t 0x10) 30 28
def Pkg.wslot (g : Pkg) (t : Nat) : Nat := g.rf (rTens t 0x10) 27 25
def Pkg.sv (g : Pkg) (t i : Nat) : Bool := g.rb (rTens t 0x10) (20 + i)
def Pkg.slotVtag (g : Pkg) (t i : Nat) : Nat := g.rf (rTens t 0x10) (2 * i + 1) (2 * i)

/-- Fields of SCHED.CTL. -/
def Pkg.sEn (g : Pkg) (j : Nat) : Bool := g.rb (rSched j 0) 29
def Pkg.sweep (g : Pkg) (j : Nat) : Bool := g.rb (rSched j 0) 28
def Pkg.nclip (g : Pkg) (j : Nat) : Bool := g.rb (rSched j 0) 27
def Pkg.eclip (g : Pkg) (j : Nat) : Bool := g.rb (rSched j 0) 26
def Pkg.rule (g : Pkg) (j : Nat) : Nat := g.rf (rSched j 0) 25 24
def Pkg.lrKind (g : Pkg) (j : Nat) : Nat := g.rf (rSched j 0) 23 22

/-- An A32 register of a group, as a value. -/
def Pkg.sv32 (g : Pkg) (j o : Nat) : Val := ofA (g.rd (rSched j o)).toNat

/-- Fields of an owner entry. -/
def Pkg.ownPos (g : Pkg) (e : Nat) : Nat := g.rf (rOwn e 4) 15 10
def Pkg.ownStack (g : Pkg) (e : Nat) : Nat := g.rf (rOwn e 4) 9 6
def Pkg.ownValid (g : Pkg) (e : Nat) : Bool := g.rb (rOwn e 4) 30
def Pkg.ownBase (g : Pkg) (e : Nat) : Nat := g.rf (rOwn e 4) 4 0 * 2 ^ 32 + g.rf (rOwn e 0) 31 12 * 4096

/-- Parameters of a full shard, and of a shard in rows of tiles (R201, R205). -/
def Pkg.shardLen (g : Pkg) (t : Nat) : Nat := 32 * g.shr32 t * (32 * g.cols32 t)

/-- Rounded up to whole 4 KiB blocks. -/
def up4k (n : Nat) : Nat := (n + 4095) / 4096 * 4096

/-- Bytes of a plane and its blocks (R205). -/
def Pkg.planeBytes (g : Pkg) (t : Nat) : Nat := up4k (2 * g.shardLen t)
def Pkg.planeBlocks (g : Pkg) (t : Nat) : Nat := g.planeBytes t / 4096

/-- Moment planes of one bank (R205). -/
def Pkg.moments (g : Pkg) (t : Nat) : Nat :=
  match g.rule (g.tGroup t) with
  | 0 => 0
  | 2 => 2
  | _ => 1

/-- The accumulation slot is present (R205). -/
def Pkg.hasAcc (g : Pkg) (t : Nat) : Bool := decide (2 ≤ g.kacc t) || g.sweep (g.tGroup t)

/-- The plane of ring slot `i`, of moment `j` of a bank, of the accumulation slot; the number of planes (R205). -/
def Pkg.plSlot (g : Pkg) (t i : Nat) : Nat := i
def Pkg.plMom (g : Pkg) (t bank j : Nat) : Nat := g.nver t + 1 + bank * g.moments t + j
def Pkg.plAcc (g : Pkg) (t : Nat) : Nat := g.nver t + 1 + 2 * g.moments t
def Pkg.planes (g : Pkg) (t : Nat) : Nat := g.plAcc t + b2n (g.hasAcc t)

/-- Bytes of a shard area (R205). -/
def Pkg.areaBytes (g : Pkg) (t : Nat) : Nat := g.planes t * g.planeBytes t + up4k (4 * g.planes t * g.planeBlocks t)

/-- The owner entry of replica `r` of shard `n` (R201). -/
def Pkg.ownerOf (g : Pkg) (t n r : Nat) : Nat := g.own0 t + r * g.nsh t + n

/-- An owner's position has been declared failed (R213). -/
def Pkg.lostPos (g : Pkg) (p : Nat) : Bool := g.pr.gone.testBit p

/-- The replica that serves and counts: 0, or the lowest whose owner has not been declared failed (R208, R213). -/
def Pkg.firstRep (g : Pkg) (t n : Nat) : Nat :=
  ((List.range (g.repl t)).find? (fun r => !g.lostPos (g.ownPos (g.ownerOf t n r)))).getD 0

/-- The root position of a shard (R233's instance). -/
def Pkg.rootOf (g : Pkg) (t n : Nat) : Nat := g.ownPos (g.ownerOf t n (g.firstRep t n))

/-- The replica of a shard that this package owns. -/
def Pkg.myRep (g : Pkg) (t n : Nat) : Option Nat :=
  (List.range (g.repl t)).find? (fun r => g.ownPos (g.ownerOf t n r) == g.pos)

/-- The shards of a tensor with a replica on this package. -/
def Pkg.myShards (g : Pkg) (t : Nat) : List Nat := (List.range (g.nsh t)).filter (fun n => (g.myRep t n).isSome)

/-- The enabled tensors. -/
def Pkg.tensors (g : Pkg) : List Nat :=
  g.regs.filterMap (fun p =>
    if hubR 0x80000 ≤ p.1 ∧ p.1 < hubR 0x100000 ∧ (p.1 - hubR 0x80000) % 0x20 = 0 ∧ bit p.2 29 then
      some ((p.1 - hubR 0x80000) / 0x20)
    else none)

/-- The enabled tensors that are updated every step. -/
def Pkg.updTensors (g : Pkg) : List Nat := g.tensors.filter (fun t => g.tUpd t)

/-- The place of byte `o` of a plane of an owner's shard area, on the package of index `k`. -/
def Pkg.planeLoc (g : Pkg) (k t n r plane o : Nat) : Loc :=
  let e := g.ownerOf t n r
  { pk := k, site := 48 + g.ownStack e, space := 8, off := g.ownBase e + plane * g.planeBytes t + o }

/-- The place of a block's digest word (R205). -/
def Pkg.digLoc (g : Pkg) (k t n r plane b : Nat) : Loc :=
  g.planeLoc k t n r (g.planes t) (4 * (plane * g.planeBlocks t + b))

/-- Channel, address in the channel and bank of a stack offset (R248). -/
def chanOf (a : Nat) : Nat := (a >>> 8) % 128 ^^^ (a >>> 15) % 128
def localOf (a : Nat) : Nat := (a >>> 15) % 2 ^ 22 * 256 + a % 256
def bankOf (a : Nat) : Nat := (localOf a >>> 8) % 32 ^^^ (localOf a >>> 13) % 32

/-- The stack offset of a burst of a channel, the map of R248 read backward. -/
def burstAddr (chan burst : Nat) : Nat :=
  let hi := burst * 64 / 256
  hi * 2 ^ 15 + (chan ^^^ hi % 128) * 256 + burst * 64 % 256

/-- The protected blocks of committed state that hold a stack offset: tensor, shard, logical plane, block (R325). -/
def Pkg.protBlocks (g : Pkg) (stack off : Nat) : List (Nat × Nat × Nat × Nat) :=
  g.tensors.flatMap (fun t => (g.myShards t).flatMap (fun n =>
    let e := g.ownerOf t n ((g.myRep t n).getD 0)
    if g.ownStack e ≠ stack ∨ off < g.ownBase e then []
    else (List.range (1 + g.moments t)).filterMap (fun i =>
      let pl := if i = 0 then g.plSlot t (g.tCur t) else g.plMom t (g.cbank t) (i - 1)
      let o := off - g.ownBase e
      if pl * g.planeBytes t ≤ o ∧ o < (pl + 1) * g.planeBytes t then some (t, n, i, (o - pl * g.planeBytes t) / 4096) else none)))

/-- A register of the PROT block; TMODE of a tensor. -/
def rProt (o : Nat) : Nat := hubR (0x40000 + o)
def rTmode (t : Nat) : Nat := rProt (0x10000 + 4 * t)

/-- MODE as it is in effect, MODE as it is written, k and PH0 of a tensor (R329, R330). -/
def Pkg.tmode (g : Pkg) (t : Nat) : Nat := mget 0 g.pr.modes t
def Pkg.tmodeSet (g : Pkg) (t : Nat) : Nat := g.rf (rTmode t) 31 30
def Pkg.pgroup (g : Pkg) (t : Nat) : Nat := g.rf (rTmode t) 29 26 + 1
def Pkg.ph0 (g : Pkg) (t : Nat) : Nat := g.rf (rTmode t) 13 0

/-- The pack leaves HELD: the modes written take effect (R329). -/
def Pkg.modesIn (g : Pkg) : Pkg :=
  { g with pr := { g.pr with modes := g.regs.filterMap (fun p =>
      if rTmode 0 ≤ p.1 ∧ p.1 ≤ rTmode 16383 ∧ p.1 % 4 = 0 ∧ fld p.2 31 30 ≠ 0 then some ((p.1 - rTmode 0) / 4, fld p.2 31 30) else none) } }

/-- Parity groups of a tensor, and the shards of group `j` (R330). -/
def Pkg.pgroups (g : Pkg) (t : Nat) : Nat := (g.nsh t + g.pgroup t - 1) / g.pgroup t
def Pkg.pmembers (g : Pkg) (t j : Nat) : List Nat :=
  (List.range (min (g.pgroup t) (g.nsh t - j * g.pgroup t))).map (fun i => j * g.pgroup t + i)

/-- The owner entry of a group's holder. -/
def Pkg.holder (g : Pkg) (t j : Nat) : Nat := g.ph0 t + j

/-- Logical planes of the protected state: weights, then m and v (R331). -/
def Pkg.lplanes (g : Pkg) (t : Nat) : Nat := 1 + g.moments t

/-- A register of stack `j`. -/
def rStack (j o : Nat) : Nat := rk (48 + j) o

/-- STACK.CTL.FAIL and PORTS. -/
def Pkg.stackFail (g : Pkg) (j : Nat) : Bool := g.rb (rStack j 0) 30
def Pkg.stackPort (g : Pkg) (j p : Nat) : Bool := g.rb (rStack j 0) (28 + p)

/-- The throttle level of channel `c` (R256). -/
def Pkg.chLevel (g : Pkg) (j c : Nat) : Nat := g.rf (rStack j (0x30 + 4 * (c / 16))) (2 * (c % 16) + 1) (2 * (c % 16))

/-- The key of a channel, of a bank. -/
def chKey (j c : Nat) : Nat := j * 128 + c
def bankKey (j c b : Nat) : Nat := chKey j c * 32 + b

/-- Banks of a channel whose refresh can no longer be postponed (R250, R256). -/
def Pkg.forced (g : Pkg) (j c : Nat) : Option Nat := (List.range 32).find? (fun b => decide (8 ≤ mget 0 g.sk.post (bankKey j c b)))

/-- Refreshes postponed at a bank. -/
def Pkg.setPost (g : Pkg) (j c b n : Nat) : Pkg := { g with sk := { g.sk with post := mins g.sk.post (bankKey j c b) n } }

/-- A thread as the master of an access. -/
def whoT (t : Tid) : Who := { site := t.site, unit := t.unit, thr := t.thr }

/-- An uncorrectable error of a stack: counted, logged with the master that asked, its block marked for repair; the package will not be ready and asks for a revert (R255, R327, R343). -/
def Pkg.stackUe (g : Pkg) (w : Who) (stack chan burst : Nat) : Pkg :=
  let st := 48 + stack
  let g := g.wf (rk st 0xC) 31 16 (min (g.rf (rk st 0xC) 31 16 + 1) 0xFFFF)
  let g := g.wr (rk st 0x50) (mk32 (2 ^ 31 + chan % 128 * 2 ^ 24 + burst % 2 ^ 24))
  let g := g.logAt 0x020A w.site w.unit w.thr stack chan burst
  let marks := g.protBlocks stack (burstAddr chan burst)
  { (g.send (.revertReq g.pos 0x020A)) with pr := { g.pr with bad := true, repair := g.pr.repair ++ marks.filter (fun x => !g.pr.repair.contains x) } }

/-- A corrected error of a stack (R253). -/
def Pkg.stackCe (g : Pkg) (stack chan burst : Nat) : Pkg :=
  let st := 48 + stack
  let g := g.wf (rk st 0xC) 15 0 (min (g.rf (rk st 0xC) 15 0 + 1) 0xFFFF)
  let g := g.wr (rk st 0x54) (mk32 (2 ^ 31 + chan % 128 * 2 ^ 24 + burst % 2 ^ 24))
  g.logAt 0x0110 st 0xFF 0xFF stack chan burst

/-- The parity blocks of groups this package holds that lie at a stack offset are to be built anew (R327). -/
def Pkg.parityMark (g : Pkg) (j off : Nat) : Pkg :=
  let marks := (g.tensors.filter (fun t => g.tmode t == 1)).flatMap (fun t => (List.range (g.pgroups t)).filterMap (fun i =>
    let e := g.holder t i
    if g.ownPos e = g.pos ∧ g.ownStack e = j ∧ g.ownBase e ≤ off ∧ off < g.ownBase e + 2 * g.lplanes t * g.planeBytes t
    then some (t * 65536 + i) else none))
  { g with pr := { g.pr with build := g.pr.build ++ marks.filter (fun x => !g.pr.build.contains x) } }

/-- An uncorrectable burst of a request or scrub (R255, R327). -/
def Pkg.burstUe (g : Pkg) (w : Who) (j off : Nat) : Pkg :=
  (g.stackUe w j (chanOf off) (localOf off / 64)).parityMark j off

/-- A corrected error of an on-die store (R307): the die's correctable count and an SRAM_CE event. -/
def Pkg.sramCe (g : Pkg) (site space off : Nat) : Pkg :=
  { g with ce := mupd 0 g.ce site (fun n => n + 1) }.logAt 0x0111 site 0xFF 0xFF space (off % 2 ^ 32) (off / 2 ^ 32)

/-- An uncorrectable error of an on-die store (R307, R308): the package will not be ready, and asks for a revert (R343). -/
def Pkg.sramUe (g : Pkg) (site space off : Nat) : Pkg :=
  let g := (g.logAt 0x020B site 0xFF 0xFF space (off % 2 ^ 32) (off / 2 ^ 32)).send (.revertReq g.pos 0x020B)
  { g with pr := { g.pr with bad := true } }

/-- How an access of a master to a place came out under its code (R253, R255, R306, R307). -/
def Pack.eccAt (s : Pack) (w : Who) (l : Loc) (e : Ecc) : Pack :=
  let m := (s.g l.pk).ringLoc l
  match e with
  | .ok => s
  | .ce => s.on m.pk (fun g =>
      if m.site < 48 then g.sramCe m.site m.space m.off else g.stackCe (m.site - 48) (chanOf m.off) (localOf m.off / 64))
  | .ue => s.on m.pk (fun g =>
      if m.site < 48 then g.sramUe m.site m.space m.off else g.burstUe w (m.site - 48) m.off)

/-- A request to a place of stack memory has to wait: its channel is at throttle level 3, or a refresh that cannot be postponed comes first (R250, R256). -/
def Pack.chWaits (s : Pack) (l : Loc) : Bool :=
  let g := s.g l.pk
  let m := g.ringLoc l
  decide (48 ≤ m.site ∧ m.site < 60 ∧ m.space = 8) &&
    (g.chLevel (m.site - 48) (chanOf m.off) == 3 || (g.forced (m.site - 48) (chanOf m.off)).isSome)

end Sys2Proof.Machine
end

