-- ==== Sys2Proof/Machine/ScalarOps.lean ====
section
/-! DEFINITION. The bodies of the scalar, memory, descriptor, token, timer, fence and exception-control instructions (R98, R100, R105, R108, R113, R119, R121, R129, R132, R139). -/

set_option linter.unusedVariables false

namespace Sys2Proof.Machine

/-- sd := sa op sb. -/
def aluR (t : Tid) (f : Fields) (op : Word → Word → Word) : Body := fun th s =>
  (s.onTh t (fun x => x.setS f.d.toNat (op (th.s f.a.toNat) (th.s f.b.toNat))), .adv)

/-- sd := sa op sext(IMM). -/
def aluI (t : Tid) (f : Fields) (op : Word → Word → Word) : Body := fun th s =>
  (s.onTh t (fun x => x.setS f.d.toNat (op (th.s f.a.toNat) f.sext)), .adv)

/-- A division or remainder: by zero it raises CAUSE 0x30 and leaves sd (R119). -/
def divBy (t : Tid) (f : Fields) (op : Word → Word → Word) (y : Word) : Body := fun th s =>
  if y = 0 then (s, .trap 0x30 none)
  else (s.onTh t (fun x => x.setS f.d.toNat (op (th.s f.a.toNat) y)), .adv)

/-- Register and immediate forms of a division. -/
def divR (t : Tid) (f : Fields) (op : Word → Word → Word) : Body := fun th s =>
  divBy t f op (th.s f.b.toNat) th s
def divI (t : Tid) (f : Fields) (op : Word → Word → Word) : Body := divBy t f op f.sext

/-- The high 64 bits of the unsigned product. -/
def mulhu (x y : Word) : Word := BitVec.ofNat 64 (x.toNat * y.toNat / 2 ^ 64)

/-- Shifts use the low 6 bits of their second operand (R119). -/
def shlW (x y : Word) : Word := x <<< (y.toNat % 64)
def shrW (x y : Word) : Word := x >>> (y.toNat % 64)
def sraW (x y : Word) : Word := x.sshiftRight (y.toNat % 64)

/-- MOVHI: IMM << 32 with sa[31:0]. -/
def movhiBody (t : Tid) (f : Fields) : Body := fun th s =>
  (s.onTh t (fun x => x.setS f.d.toNat (f.imm ++ (th.s f.a.toNat).setWidth 32)), .adv)

/-- CMP and CMPI against a second operand. -/
def cmpBody (t : Tid) (f : Fields) (y : Thread → Word) : Body := fun th s =>
  (s.onTh t (fun x => x.setPred f.d.toNat (condHolds f.c.toNat (th.s f.a.toNat) (y th))), .adv)

/-- PLOG. -/
def plogBody (t : Tid) (f : Fields) : Body := fun th s =>
  (s.onTh t (fun x => x.setPred f.d.toNat (plogOp f.c.toNat (th.pred f.a.toNat) (th.pred f.b.toNat))), .adv)

/-- The branch target: (PC + IMM) mod 2^16, PC the word index of the branch itself. -/
def branchTo (th : Thread) (f : Fields) : BitVec 16 := th.pc + f.imm.setWidth 16

/-- BR, CALL, JR. -/
def brBody (f : Fields) : Body := fun th s => (s, .goto (branchTo th f))
def callBody (t : Tid) (f : Fields) : Body := fun th s =>
  (s.onTh t (fun x => x.setS f.d.toNat ((th.pc + 1).setWidth 64)), .goto (branchTo th f))
def jrBody (f : Fields) : Body := fun th s => (s, .goto ((th.s f.a.toNat).setWidth 16))

/-- sa + OFF of LD and ST, OFF signed. -/
def lsAddr (th : Thread) (f : Fields) : Word := th.s f.a.toNat + (f.imm.setWidth 28).signExtend 64

/-- Site, space and offset are a pair of R28 with no bit above the decoded range, whatever is gated or a hole. -/
def staticOk (site space off : Nat) : Bool :=
  match space with
  | 0 | 1 => decide (site < 48 ∧ off < 2 ^ 25)
  | 2 => decide (site < 48 ∧ off < 2 ^ 24)
  | 3 => (blockOf site off).isSome
  | 4 => decide (site < 48 ∧ off < 2 ^ 33)
  | 8 => decide (48 ≤ site ∧ site < 60 ∧ off < 0x1800000000)
  | _ => false

/-- What the unit finds wrong with an access at issue (R28, R30, R98, R375): the cause. -/
def Pack.issueBad (s : Pack) (t : Tid) (a size : Nat) : Option Nat :=
  let site := if (a >>> 52) % 64 = 63 then t.site else (a >>> 52) % 64
  let space := (a >>> 48) % 16
  if a % size ≠ 0 ∨ (space = 3 ∧ size ≠ 4) then some 5
  else if (s.at t.pkg ((a >>> 58) % 64)).isNone || !staticOk site space (a % 2 ^ 48) then some 1
  else none

/-- The tiles an array operation writes or reads, as (array, tile) pairs. -/
def OpRec.tiles (r : OpRec) : List (Nat × Nat) :=
  let a := r.f.a.toNat
  let d := r.f.d.toNat
  match r.op with
  | .mma => [(d / 8, d % 8)]
  | .mmb => [(0, d % 8), (1, r.f.i 21 19)]
  | .epi => [(a / 8, a % 8)]
  | .contrib => if r.f.ib 0 then [(a / 8, a % 8)] else []
  | _ => []

/-- The accumulator tile whose status word is at an offset of register space, with its unit: (unit, array, tile). -/
def accstOf (site off : Nat) : Option (Nat × Nat × Nat) :=
  match blockOf site off with
  | some (.unit, o) =>
    let x := o % 0x400
    if 0x300 ≤ x ∧ x < 0x340 then some (o / 0x400, (x - 0x300) / 0x20, (x - 0x300) % 0x20 / 4) else none
  | _ => none

/-- Operations on a tile that its array still holds. -/
def Pkg.tileAhead (g : Pkg) (site u arr n : Nat) : Nat :=
  (g.aops.filter (fun r => r.t.site == site && r.t.unit == u && r.tiles.contains (arr, n))).length

/-- The status word that an address names as thread `t` sees it: package, site, unit, array, tile. -/
def Pack.accTarget (s : Pack) (t : Tid) (a : Nat) : Option (Nat × Nat × Nat × Nat × Nat) :=
  match s.where' t.pkg (some t.site) a with
  | .ok p => if p.space = 3 then (accstOf p.site p.off).map (fun x => (p.pk, p.site, x.1, x.2.1, x.2.2)) else none
  | _ => none

/-- A thread's access to a status word of its own unit stands in its array's order from issue (R63): the operations in front of it. -/
def Pack.reachAtIssue (s : Pack) (t : Tid) (a : Nat) : Option Nat :=
  match s.accTarget t a with
  | some (pk, site, u, arr, n) =>
    if pk = t.pkg ∧ site = t.site ∧ u = t.unit then some ((s.g pk).tileAhead site u arr n) else none
  | none => none

/-- LD: the access is put in flight (R98, R111). -/
def ldBody (t : Tid) (f : Fields) : Body := fun th s =>
  let a := lsAddr th f
  let size := 2 ^ f.i 31 30
  let g := s.g t.pkg
  match s.issueBad t a.toNat size with
  | some c => (s, .trap c (some a))
  | none =>
    if 8 ≤ (g.loadsOf t).length ∨ 64 ≤ g.unitFlight t then (s, .wait .mem)
    else
      let l : Load := { seq := g.seq, t := t, pc := th.pc, addr := a, size := size, sx := f.ib 29, d := f.d.toNat, reach := s.reachAtIssue t a.toNat }
      (s.on t.pkg (fun g => { g with loads := g.loads ++ [l] }), .adv)

/-- ST: the access is put in flight (R98). -/
def stBody (t : Tid) (f : Fields) : Body := fun th s =>
  let a := lsAddr th f
  let size := 2 ^ f.i 31 30
  let g := s.g t.pkg
  match s.issueBad t a.toNat size with
  | some c => (s, .trap c (some a))
  | none =>
    if 16 ≤ (g.storesOf t).length ∨ 64 ≤ g.unitFlight t then (s, .wait .mem)
    else
      let l : Store := { seq := g.seq, t := t, pc := th.pc, addr := a, size := size, data := th.s f.b.toNat, reach := s.reachAtIssue t a.toNat }
      (s.on t.pkg (fun g => { g with stores := g.stores ++ [l] }), .adv)

/-- TDSET, TDGET, TDADV (R121). A move along columns needs the element size, so a reserved format code raises CAUSE 0x03 there (R32; log 101). -/
def tdsetBody (t : Tid) (f : Fields) : Body := fun th s =>
  (s.onTh t (fun x => x.setTd f.d.toNat ((x.td f.d.toNat).setWord (f.i 2 0) (th.s f.a.toNat))), .adv)
def tdgetBody (t : Tid) (f : Fields) : Body := fun th s =>
  (s.onTh t (fun x => x.setS f.d.toNat ((th.td f.a.toNat).word (f.i 2 0))), .adv)
def tdadvBody (t : Tid) (f : Fields) : Body := fun th s =>
  if f.i 0 0 = 1 ∧ 8 ≤ (th.td f.d.toNat).fmtCode then (s, .trap 3 none)
  else match (th.td f.d.toNat).advance (f.i 0 0) (sval (th.s f.a.toNat)) with
  | some d => (s.onTh t (fun x => x.setTd f.d.toNat d), .adv)
  | none => (s, .trap 6 none)

/-- CVTS: both scales 1.0, the flags into SSTAT (R129). -/
def cvtsBody (t : Tid) (f : Fields) : Body := fun th s =>
  let src := fmtD (f.i 3 0)
  let r := convert (decode src (th.s f.a.toNat).toNat) (fmtD (f.i 7 4)) .rne
  (s.onTh t (fun x => (x.setS f.d.toNat (BitVec.ofNat 64 r.1)).orStat r.2), .adv)

/-- XGET, XCLR, XRET (R113, R130). -/
def xgetBody (t : Tid) (f : Fields) (v : Thread → Word) : Body := fun th s =>
  (s.onTh t (fun x => x.setS f.d.toNat (v th)), .adv)
def xclrBody (t : Tid) : Body := fun th s => (s.onTh t (fun x => { x with sstat := 0 }), .adv)
def xretBody (t : Tid) (f : Fields) : Body := fun th s =>
  let x := th.xret (f.ib 0)
  (s.onTh t (fun _ => x), .goto x.pc)

/-- FENCE.W, FENCE.RW, FENCE.E: the thread waits until what the fence names is done (R108). -/
def fenceBody (t : Tid) (op : Op) : Body := fun th s =>
  let g := s.g t.pkg
  let met := match op with
    | .fenceW => g.writesDone t g.seq
    | .fenceRw => g.writesDone t g.seq && g.readsDone t g.seq
    | .fenceE => s.engDone t g.seq
    | _ => true
  if met then (s, .adv) else (s, .wait (.fence op))

/-- TGIVE: tokens leave for a counter; they arrive after the thread's earlier writes (R100, R107, R132). A hole or a gated unit is reported with the response (R111). -/
def tgiveBody (t : Tid) (f : Fields) : Body := fun th s =>
  let a := (th.s f.a.toNat).toNat
  let pos := a / 2 ^ 58
  let site := (a / 2 ^ 52) % 64
  let n := f.i 15 0
  if a % 2 ^ 52 / 2 ^ 12 ≠ 0 ∨ (48 ≤ site ∧ site ≠ 63) then (s, .trap 1 none)
  else
    match s.at t.pkg pos with
    | none => (s, .trap 1 none)
    | some pk =>
      let st := if site = 63 then t.site else site
      let g := s.g t.pkg
      let x : Flight :=
        { seq := g.seq, pc := th.pc, src := t, dst := { pkg := pk, site := st, unit := (a / 64) % 64, thr := 0 },
          ctr := a % 64, n := n, rel := true, step := g.step }
      let s := if pk = t.pkg then s else s.on t.pkg (fun g => g.flow 0 g.step true n)
      ({ s with flight := s.flight ++ [x] }, .adv)

/-- A register of timer `n`. -/
def rTmr (n o : Nat) : Nat := hubR (0x1000 + 8 * n + o)

/-- Timer `n` is allocated, has expired. -/
def Pkg.tmrAlloc (g : Pkg) (n : Nat) : Bool := g.rb (rTmr n 0) 31
def Pkg.tmrExp (g : Pkg) (n : Nat) : Bool := g.rb (rTmr n 0) 30

/-- The lowest-numbered free timer (R387). -/
def Pkg.freeTimer (g : Pkg) : Option Nat := (List.range 64).find? (fun n => !g.tmrAlloc n)

/-- A wait names a timer. -/
def Wait.timer : Wait → Option Nat
  | .token _ _ _ _ x => x
  | .ctake _ _ _ _ x => x
  | .qpop _ _ _ _ x => x
  | .credTab _ x => x
  | .room _ _ x => x
  | _ => none

/-- The result predicate of a wait. -/
def Wait.pd : Wait → Nat
  | .token _ _ _ p _ => p
  | .ctake _ _ _ p _ => p
  | .qpop _ _ _ p _ => p
  | .kres _ _ _ p => p
  | .credTab p _ => p
  | .room _ p _ => p
  | _ => 0

/-- Every wait that names a timer ends with its predicate cleared, and a request it had at a queue leaves the line; the TTAKEs it held back are served (R101, R105, R131, R139). DESIGN CHOICE, log 109: a QPOP that its timer ends delivers no completion count, for nothing is taken and no rule says that it does. -/
def Pkg.endTimer (g : Pkg) (k n : Nat) : Pkg :=
  let ws := (g.waiters (fun _ w => w.timer == some n)).map (fun key => (key, (mget ({} : Thread) g.thr key).wait))
  let g := ws.foldl (fun g p =>
    let g := { g with qops := g.qops.filter (fun q =>
      !(q.r.t == tidOf k p.1 && (q.r.op == Op.ctake || q.r.op == Op.qpop))) }
    g.release p.1 ((p.2.map Wait.pd).getD 0) false) g
  ws.foldl (fun g p => g.lineLeft p.1 p.2) g

/-- Requests waiting at the queues of other packages for threads of package `k` whose timer has ended leave the line. -/
def Pack.dropWaits (s : Pack) (k n : Nat) : Pack :=
  let keys := (s.g k).waiters (fun _ w => w.timer == some n)
  { s with pkgs := mmap (fun j g => if j = k then g else
      { g with qops := g.qops.filter (fun q => !(q.r.t.pkg == k && keys.contains q.r.t.key &&
          (q.r.op == Op.ctake || q.r.op == Op.qpop))) }) s.pkgs }

/-- Ends every wait that names timer `n` of package `k`. -/
def Pack.endTimer (s : Pack) (k n : Nat) : Pack := (s.dropWaits k n).on k (fun g => g.endTimer k n)

/-- The timer an instruction names, checked (R132): none where it names none; `.error` raises CAUSE 0x06. -/
def Pkg.namedTimer (g : Pkg) (named : Bool) (v : Word) : Option (Option Nat) :=
  if !named then some none
  else match tmrOf v with
    | some n => if g.tmrAlloc n then some (some n) else none
    | none => none

/-- TTAKE and TWAIT (R100, R101, R105, R132). A TTAKE behind waiting TTAKEs of its counter waits its turn. -/
def takeBody (t : Tid) (f : Fields) (take : Bool) : Body := fun th s =>
  let g := s.g t.pkg
  match g.namedTimer (f.ib 6) (th.s f.c.toNat) with
  | none => (s, .trap 6 none)
  | some tmr =>
    let c := f.i 5 0
    let n := f.i 31 16
    let pd := f.d.toNat
    let line := g.waiters (fun key w => key / 16 == uk t.site t.unit && (match w with
      | .token i _ true _ _ => i == c
      | _ => false))
    let x := g.tk t.site t.unit c
    if n ≤ x.count ∧ (take = false ∨ line = []) then
      let s := if take then
        s.on t.pkg (fun g => (g.setTk t.site t.unit c { x with count := x.count - n }).book 0 t.site (-(n : Int)))
        else s
      (s.onTh t (fun x => x.setPred pd true), .adv)
    else
      match tmr with
      | some m =>
        if g.tmrExp m then (s.onTh t (fun x => x.setPred pd false), .adv)
        else (s, .wait (.token c n take pd tmr))
      | none => (s, .wait (.token c n take pd tmr))

/-- TMALLOC (R139, R383): the lowest free timer, or the CONFLICT refusal. -/
def tmallocBody (t : Tid) (f : Fields) : Body := fun th s =>
  let g := s.g t.pkg
  if !g.timerOn then (s, .trap 2 none)
  else match g.freeTimer with
    | some n =>
      ((s.on t.pkg (fun g => g.wr (rTmr n 0) 0x88000000#32)).onTh t
        (fun x => (x.setS f.d.toNat (BitVec.ofNat 64 n)).setPred f.c.toNat true), .adv)
    | none =>
      (s.onTh t (fun x => (x.setS f.d.toNat (BitVec.allOnes 64)).setPred f.c.toNat false), .adv)

/-- Starts timer `n` with a count: RUN, not expired (R139). -/
def Pkg.tmrStart (g : Pkg) (n count : Nat) : Pkg :=
  (g.wr (rTmr n 0) (setF (g.rd (rTmr n 0)) 30 29 1)).wr (rTmr n 4) (mk32 count)

/-- Frees timer `n`. -/
def Pkg.tmrFree (g : Pkg) (n : Nat) : Pkg := (g.wr (rTmr n 0) 0).wr (rTmr n 4) 0

/-- TMSET and TMFREE (R139). -/
def tmsetBody (t : Tid) (f : Fields) : Body := fun th s =>
  let g := s.g t.pkg
  if !g.timerOn then (s, .trap 2 none)
  else match g.namedTimer true (th.s f.a.toNat) with
    | some (some n) => (s.on t.pkg (fun g => g.tmrStart n ((th.s f.b.toNat).toNat % 2 ^ 32)), .adv)
    | _ => (s, .trap 6 none)
def tmfreeBody (t : Tid) (f : Fields) : Body := fun th s =>
  let g := s.g t.pkg
  if !g.timerOn then (s, .trap 2 none)
  else match g.namedTimer true (th.s f.a.toNat) with
    | some (some n) => ((s.endTimer t.pkg n).on t.pkg (fun g => g.tmrFree n), .adv)
    | _ => (s, .trap 6 none)

/-- A register of stream slot `n`. -/
def rStrm (n o : Nat) : Nat := hubR (0x30000 + 0x40 * n + o)

/-- The draw source of a slot in effect: its key, STEP, SITEF and LANEF; none where VALID is 0 (R80, R82). -/
def Pkg.drawOf (g : Pkg) (slot f16 : Nat) : Option Draw :=
  let e := mget {} g.strm slot
  if bit e.ctl 0 then
    some { key := ({ w0 := e.k0, w1 := e.k1, w2 := e.k2, w3 := e.k3 } : Quad).toNat,
           step := (g.rd (rStrm slot 0x14)).toNat, f16 := f16, site := fld e.ctl 15 8, lane := fld e.ctl 23 16 }
  else none

/-- A draw at an index: 128 bits (R76, R82). -/
def Draw.at (d : Draw) (i : Nat) : Nat := gen (Quad.ofNat d.key) (counter d.step d.f16 d.site d.lane i)

/-- SEQEN of a slot in effect. -/
def Pkg.seqen (g : Pkg) (slot : Nat) : Bool := bit (mget {} g.strm slot).ctl 24

/-- CURSOR of a slot, advanced by `n` (R85). -/
def Pkg.cursor (g : Pkg) (slot : Nat) : Nat := g.rd64 (rStrm slot 0x18) (rStrm slot 0x1C)
def Pkg.advCursor (g : Pkg) (slot n : Nat) : Pkg :=
  g.wr64 (rStrm slot 0x18) (rStrm slot 0x1C) ((g.cursor slot + n) % 2 ^ 64)

/-- RAND (R85, R138): 128 bits into sd and sd+1. -/
def randBody (t : Tid) (f : Fields) : Body := fun th s =>
  let g := s.g t.pkg
  let slot := f.i 9 0
  let seq := f.ib 10
  if !g.streamOn then (s, .trap 2 none)
  else match g.drawOf slot ((th.s f.a.toNat).toNat % 2 ^ 16) with
    | none => (s, .trap 6 none)
    | some d =>
      if seq && !g.seqen slot then (s, .trap 6 none)
      else
        let i := if seq then g.cursor slot else (th.s f.b.toNat).toNat
        let v := d.at i
        let s := if seq then s.on t.pkg (fun g => g.advCursor slot 1) else s
        (s.onTh t (fun x => (x.setS f.d.toNat (BitVec.ofNat 64 v)).setS (f.d.toNat + 1) (BitVec.ofNat 64 (v >>> 64))), .adv)

end Sys2Proof.Machine
end

