-- ==== Sys2Proof/Machine/TileOps.lean ====
section
/-! DEFINITION. Views in memory, scale slots, conversions into a view, and the array and table operations (R44 to R75, R120 to R128). -/

set_option linter.unusedVariables false

namespace Sys2Proof.Machine

/-- A register of scale slot `n` of a site. -/
def rScale (site n o : Nat) : Nat := rk site (0x40000 + 0x80 * n + o)

/-- CUR, VALID, WARM and ARM of a slot. -/
def Pkg.cur (g : Pkg) (site n : Nat) : Nat := g.rf (rScale site n 4) 15 0
def Pkg.slotValid (g : Pkg) (site n : Nat) : Bool := g.rb (rScale site n 0) 0
def Pkg.slotWarm (g : Pkg) (site n : Nat) : Nat := g.rf (rScale site n 0) 21 18
def Pkg.slotArm (g : Pkg) (site n : Nat) : Bool := g.rb (rScale site n 0) 30

/-- A conversion into slot `n` is held for ARM: tracked, in warm-up, not armed (R56). -/
def Pkg.heldConv (g : Pkg) (site n : Nat) : Bool :=
  g.slotValid site n && decide (0 < g.slotWarm site n) && !g.slotArm site n

/-- The larger recorded magnitude; a NaN that a program wrote stays (R51, R53). -/
def raiseMax (old new : Nat) : Nat := if old % 0x8000 > 0x7F80 then old else max (old % 0x8000) new

/-- Records the values converted into a slot: AMAX and TOUCHED, or PRE in a pre-pass (R51, R56). -/
def Pkg.recordAmax (g : Pkg) (site n : Nat) (pre : Bool) (vs : List Val) : Pkg :=
  if !g.slotValid site n then g
  else
    let m := vs.foldl (fun m v => match amaxCode v with | some c => max m c | none => m) 0
    if pre then g.wf (rScale site n 0xC) 31 16 (raiseMax (g.rf (rScale site n 0xC) 31 16) m)
    else (g.wf (rScale site n 8) 15 0 (raiseMax (g.rf (rScale site n 8) 15 0) m)).wb (rScale site n 8) 16 true

/-- The codes spelt by the bytes of one row (R39). -/
def codesOf (f : Fmt) (bs : List Byte) : List Nat :=
  match f with
  | .f4 => bs.flatMap (fun b => [b.toNat % 16, b.toNat / 16])
  | .f8f | .f8g | .o8f | .o8g => bs.map (·.toNat)
  | .b16 | .h16 => halves bs
  | .a32 => words bs
where
  /-- Groups of four bytes as 32-bit numbers. -/
  words : List Byte → List Nat
    | a :: b :: c :: d :: r => leVal [a, b, c, d] :: words r
    | _ => []

/-- The bytes that spell the codes of one row (R39). -/
def bytesOf (f : Fmt) (cs : List Nat) : List Byte :=
  match f with
  | .f4 => nibs cs
  | _ => cs.flatMap (fun c => leBytes c (fmtBytes f))
where
  /-- Pairs of F4 codes, the even element in the low nibble. -/
  nibs : List Nat → List Byte
    | a :: b :: r => BitVec.ofNat 8 (a % 16 + 16 * (b % 16)) :: nibs r
    | [a] => [BitVec.ofNat 8 (a % 16)]
    | [] => []

/-- Bytes of one row of `cols` elements. -/
def rowBytes (f : Fmt) (cols : Nat) : Nat := cols * fmtBits f / 8

/-- What is wrong with a span of bytes that an operation of thread `t` reads or writes, as the access itself finds it (R30, R375, R381): the cause and the address. -/
def Pack.spanBad (s : Pack) (t : Tid) (a n : Nat) : Option (Nat × Nat) :=
  match s.spanOk t.pkg (some t.site) a n with
  | .ok l => if l.space = 3 then some (5, a) else none
  | .invalid => some (1, a)
  | .gated => some (2, a)

/-- What the unit finds wrong with such a span at issue: what no target has to report (R30, R111, R375). -/
def Pack.spanStatic (s : Pack) (t : Tid) (a n : Nat) : Option (Nat × Nat) :=
  let site := if (a >>> 52) % 64 = 63 then t.site else (a >>> 52) % 64
  let space := (a >>> 48) % 16
  let b := a + n - 1
  if (s.at t.pkg ((a >>> 58) % 64)).isNone || a >>> 48 != b >>> 48 || !staticOk site space (a % 2 ^ 48) || !staticOk site space (b % 2 ^ 48) then
    some (1, a)
  else if space = 3 then some (5, a) else none

/-- The first span of a view of `rows` × `cols` that fails a check: its rows, then its block exponents. -/
def viewFind (chk : Nat → Nat → Option (Nat × Nat)) (d : Tile) (rows cols : Nat) : Option (Nat × Nat) :=
  let r1 := (List.range rows).findSome? (fun r => chk (d.elem r 0) (rowBytes d.fmt cols))
  match r1 with
  | some x => some x
  | none =>
    if d.blk then
      if d.baxis == 0 then (List.range rows).findSome? (fun r => chk (d.beAddr r 0) (cols / 32))
      else (List.range (rows / 32)).findSome? (fun r => chk (d.beAddr (32 * r) 0) cols)
    else none

/-- What is wrong with the addresses of a view, seen from thread `t`: the cause and the address. -/
def Pack.viewBad (s : Pack) (t : Tid) (d : Tile) (rows cols : Nat) : Option (Nat × Nat) := viewFind (s.spanBad t) d rows cols

/-- Bytes at an address seen from thread `t`; a gap reads as nothing has been written. -/
def Pack.rdN (s : Pack) (t : Tid) (a n : Nat) : List Byte :=
  (s.loadAt t.pkg (some t.site) a n).getD (List.replicate n memInit)

/-- The element codes of a view, row by row. -/
def Pack.codes (s : Pack) (t : Tid) (d : Tile) (rows cols : Nat) : List (List Nat) :=
  (List.range rows).map (fun r => codesOf d.fmt (s.rdN t (d.elem r 0) (rowBytes d.fmt cols)))

/-- The block exponent of each element of a view, row by row (R120); none where BLK = 0. -/
def Pack.exps (s : Pack) (t : Tid) (d : Tile) (rows cols : Nat) : List (List (Option Nat)) :=
  (List.range rows).map (fun r =>
    if !d.blk then List.replicate cols none
    else if d.baxis == 0 then
      let bs := s.rdN t (d.beAddr r 0) (cols / 32)
      (List.range cols).map (fun c => some (bs.getD (c / 32) 0).toNat)
    else (s.rdN t (d.beAddr r 0) cols).map (fun b => some b.toNat))

/-- A view as MMA operands, row by row. -/
def Pack.view (s : Pack) (t : Tid) (d : Tile) (rows cols : Nat) : List (List Opnd) :=
  ((s.codes t d rows cols).zip (s.exps t d rows cols)).map (fun p =>
    (p.1.zip p.2).map (fun q => { fmt := d.fmt, val := Machine.decode d.fmt q.1, be := q.2 }))

/-- Rows and columns exchanged. -/
def transpose {α : Type} (m : List (List α)) : List (List α) :=
  match m with
  | [] => []
  | r :: _ => (List.range r.length).map (fun j => m.filterMap (fun x => x[j]?))

/-- A matrix cut into elements in row order. -/
def flat {α : Type} (m : List (List α)) : List α := m.flatten

/-- A list of 1,024 elements cut into rows of 32. -/
def rows32 {α : Type} (l : List α) : List (List α) := (List.range 32).map (fun i => (l.drop (32 * i)).take 32)

/-- k-block `b` of an operand row. -/
def kblock {α : Type} (l : List α) (b : Nat) : List α := (l.drop (32 * b)).take 32

/-- One k-block over the 32 × 32 tile in A32 or Onelo mode: elements and flags. -/
def tileBlock (onelo : Bool) (as bs : List (List Opnd)) (b : Nat) (els : List Nat) : List Nat × Flg :=
  let rs := as.map (fun r => kblock r b)
  let cs := bs.map (fun c => kblock c b)
  let prs := rs.flatMap (fun r => cs.map (fun c => (r, c)))
  let out := (prs.zip els).map (fun p => elemBlock onelo false p.1.1 p.1.2 p.2 0)
  (out.map (·.1), out.foldl (fun f x => f.or x.2) {})

/-- The contributions of one k-block in A16 mode, before any is added: values and flags (R65). -/
def tileContrib (as bs : List (List Opnd)) (b : Nat) : List Val × Flg :=
  let rs := as.map (fun r => kblock r b)
  let cs := bs.map (fun c => kblock c b)
  let out := rs.flatMap (fun r => cs.map (fun c =>
    let ps := (r.zip c).map (fun p => product p.1 p.2)
    let fp := ps.foldl (fun f p => f.or p.2) ({} : Flg)
    let sh := match r, c with
      | x :: _, y :: _ => x.shift + y.shift
      | _, _ => 0
    let w := match r, c with
      | x :: _, y :: _ => if is16 x.fmt || is16 y.fmt then 48 else 32
      | _, _ => 32
    let v := blockContribution (ps.map (·.1)) sh w .b16
    (v.1, fp.or v.2)))
  (out.map (·.1), out.foldl (fun f x => f.or x.2) {})

/-- Takes `n` k-blocks from `b` into a tile in A32 or Onelo mode (R63, R66, R68). -/
def Acc.blocks (onelo : Bool) (as bs : List (List Opnd)) : Nat → Nat → Acc → Acc
  | 0, _, x => x
  | n + 1, b, x =>
    let r := tileBlock onelo as bs b x.els
    Acc.blocks onelo as bs n (b + 1) { x with els := r.1, sta := staAcc x.sta x.kb r.2, kb := x.kb + 1 }

/-- Takes `n` k-blocks from `b` into a tile in A16 mode: each waits for its coordinates (R124). -/
def Acc.lateBlocks (dr : Draw) (as bs : List (List Opnd)) : Nat → Nat → Acc → Acc
  | 0, _, x => x
  | n + 1, b, x =>
    let r := tileContrib as bs b
    Acc.lateBlocks dr as bs n (b + 1) { x with late := x.late ++ [.blk x.kb dr r.1 r.2], kb := x.kb + 1 }

/-- One deferred item taken in, with the logical coordinates of the tile's origin (R66, R67, R82, R124). -/
def Acc.takeLate (i0 j0 : Nat) (x : Acc) : Late → Acc
  | .sta v => { x with sta := staWrite x.sta v }
  | .blk b dr xs fl =>
    let out := ((x.els.zip xs).zip (List.range 1024)).map (fun p =>
      let i := i0 + p.2 / 32
      let j := j0 + p.2 % 32
      let r8 := (dr.at (accIndex b i j) >>> (8 * (j % 2 ^ 20 % 16))) % 256
      accAdd true p.1.1 p.1.2 r8)
    { x with els := out.map (·.1), sta := staAcc x.sta b (out.foldl (fun f p => f.or p.2) fl) }

/-- A tile with its deferred work done at the coordinates of a consuming descriptor. -/
def Acc.settle (x : Acc) (i0 j0 : Nat) : Acc := { x.late.foldl (Acc.takeLate i0 j0) x with late := [] }

/-- A tile that a zeroing MMA has just reset (R60, R126). -/
def Acc.zero (a16 onelo : Bool) (sa sb : Nat) : Acc := { sta := staZero a16 onelo, sa := sa, sb := sb }

/-- One product into one tile: `zero`, the modes, the operand slots, the draw, rows of A, columns of B, k-blocks (R60, R66, R75). -/
def Acc.mma (x : Acc) (zero a16 onelo : Bool) (sa sb : Nat) (dr : Option Draw) (as bs : List (List Opnd)) (n : Nat) : Acc :=
  let x := if zero then Acc.zero a16 onelo sa sb else x
  match a16, dr with
  | true, some d => Acc.lateBlocks d as bs n 0 x
  | _, _ => Acc.blocks onelo as bs n 0 x

/-- A tile of a package. -/
def Pkg.tile (g : Pkg) (site u arr n : Nat) : Acc := mget {} g.acc (ak site u arr n)

/-- Replaces a tile. -/
def Pkg.setTile (g : Pkg) (site u arr n : Nat) (x : Acc) : Pkg := { g with acc := mins g.acc (ak site u arr n) x }

/-- The arrays an operation occupies. -/
def OpRec.arrays (r : OpRec) : List Nat := r.tiles.map (·.1)

/-- The modes and slots a tile is left with by a zeroing operation: (A16, ONELO, sa, sb). -/
def OpRec.zeroes (r : OpRec) (arr n : Nat) : Option (Bool × Bool × Nat × Nat) :=
  match r.op with
  | .mma =>
    if r.f.ib 7 ∧ (r.f.d.toNat / 8, r.f.d.toNat % 8) = (arr, n) then some (r.f.ib 10, r.f.ib 11, r.ta.slot, r.tb.slot)
    else none
  | .mmb =>
    if arr = 0 ∧ n = r.f.d.toNat % 8 ∧ r.f.ib 0 then some (r.f.ib 2, r.f.ib 3, r.ta.slot, r.tb.slot)
    else if arr = 1 ∧ n = r.f.i 21 19 ∧ r.f.ib 1 then some (r.f.ib 2, r.f.ib 3, r.tc.slot, r.ta.slot)
    else none
  | _ => none

/-- The operations whose threads wait for room in an input queue, in the order they began to wait (R92). -/
def Pkg.roomWaits (g : Pkg) : List OpRec :=
  (g.waiters (fun _ w => match w with | .room .. => true | _ => false)).filterMap (fun key =>
    match (mget ({} : Thread) g.thr key).wait with
    | some (.room r _ _) => some r
    | _ => none)

/-- The modes and slots of a tile as it stands: A16, ONELO, and the two operand slots (R60, R75, R126). -/
def Pkg.tileNow (g : Pkg) (site u arr n : Nat) : Bool × Bool × Nat × Nat :=
  let x := g.tile site u arr n
  (staA16 x.sta, staOnelo x.sta, x.sa, x.sb)

/-- The modes and slots a tile will have once everything issued to its array has run (R60, R63, R126). -/
def Pkg.tileMode (g : Pkg) (site u arr n : Nat) : Bool × Bool × Nat × Nat :=
  let qs := (g.aops ++ g.roomWaits).filter (fun r => r.t.site == site && r.t.unit == u)
  match (qs.filterMap (fun r => r.zeroes arr n)).getLast? with
  | some m => m
  | none => g.tileNow site u arr n

/-- The tiles an accumulating operation adds to, with the modes and slots they must have (R60, R75, R126). -/
def OpRec.needs (r : OpRec) : List ((Nat × Nat) × (Bool × Bool × Nat × Nat)) :=
  let d := r.f.d.toNat
  match r.op with
  | .mma => if r.f.ib 7 then [] else [((d / 8, d % 8), (r.f.ib 10, r.f.ib 11, r.ta.slot, r.tb.slot))]
  | .mmb =>
    (if r.f.ib 0 then [] else [((0, d % 8), (r.f.ib 2, r.f.ib 3, r.ta.slot, r.tb.slot))]) ++
      (if r.f.ib 1 then [] else [((1, r.f.i 21 19), (r.f.ib 2, r.f.ib 3, r.tc.slot, r.ta.slot))])
  | _ => []

/-- The first of several checks that fails. -/
def firstBad : List (Option (Nat × Option Word)) → Option (Nat × Option Word)
  | [] => none
  | some x :: _ => some x
  | none :: r => firstBad r

/-- A check that fails with a cause and no address. -/
def need (ok : Bool) (c : Nat) : Option (Nat × Option Word) := if ok then none else some (c, none)

/-- The cause of a bad descriptor. -/
def tileChk (d : Tile) : Option (Nat × Option Word) := d.bad.map (fun c => (c, none))

/-- The cause of a bad view at issue (R111); what only its targets can report comes with the access, by `viewBad`. -/
def viewChk (s : Pack) (t : Tid) (d : Tile) (rows cols : Nat) : Option (Nat × Option Word) :=
  (viewFind (s.spanStatic t) d rows cols).map (fun p => (p.1, some (BitVec.ofNat 64 p.2)))

/-- The extents of an MMA's two operand views: rows and columns of A and of B as stored (R124). -/
def mmaExt (f : Fields) : (Nat × Nat) × (Nat × Nat) :=
  let k := 32 * (f.i 6 0 + 1)
  ((if f.ib 8 then (k, 32) else (32, k)), (if f.ib 9 then (32, k) else (k, 32)))

/-- What stops an MMA at issue (R60, R61, R75, R80, R117, R120, R124, R126). -/
def mmaChk (s : Pack) (t : Tid) (f : Fields) (a b : Tile) : Option (Nat × Option Word) :=
  let g := s.g t.pkg
  let onelo := f.ib 11
  let a16 := f.ib 10
  let e := mmaExt f
  let d := f.d.toNat
  firstBad [tileChk a, tileChk b,
    need (mmaFmtOk onelo a.fmt && mmaFmtOk onelo b.fmt) 6,
    need (!(onelo && (a16 || a.blk || b.blk))) 6,
    need (!a.blk || a.baxis == f.i 8 8) 6,
    need (!b.blk || b.baxis == 1 - f.i 9 9) 6,
    need (f.ib 7 || g.tileMode t.site t.unit (d / 8) (d % 8) == (a16, onelo, a.slot, b.slot)) 6,
    need (!a16 || g.streamOn) 2,
    need (!a16 || (g.drawOf (f.i 26 17) 0).isSome) 6,
    viewChk s t a e.1.1 e.1.2, viewChk s t b e.2.1 e.2.2]

/-- What stops an MMB at issue (R71, R125, R126): `y` dY, `w` W, `x` X. -/
def mmbChk (s : Pack) (t : Tid) (f : Fields) (y w x : Tile) : Option (Nat × Option Word) :=
  let g := s.g t.pkg
  let onelo := f.ib 3
  let a16 := f.ib 2
  let d := f.d.toNat
  firstBad [tileChk y, tileChk w, tileChk x,
    need (mmaFmtOk onelo y.fmt && mmaFmtOk onelo w.fmt && mmaFmtOk onelo x.fmt) 6,
    need (!(onelo && (a16 || w.blk || x.blk))) 6,
    need (!y.blk) 6, need (!w.blk || w.baxis == 0) 6, need (!x.blk || x.baxis == 1) 6,
    need (f.ib 0 || g.tileMode t.site t.unit 0 (d % 8) == (a16, onelo, y.slot, w.slot)) 6,
    need (f.ib 1 || g.tileMode t.site t.unit 1 (f.i 21 19) == (a16, onelo, x.slot, y.slot)) 6,
    need (!a16 || g.streamOn) 2,
    need (!a16 || (g.drawOf (f.i 18 9) 0).isSome) 6,
    viewChk s t y 32 32, viewChk s t w 32 32, viewChk s t x 32 32]

/-- The largest number of operations an input queue takes (R92 gives no depth; log 5). -/
def inputDepth : Nat := Config.engineDepth + 1

/-- Operations of a unit waiting at an array. -/
def Pkg.arrayLoad (g : Pkg) (t : Tid) (arr : Nat) : Nat :=
  (g.aops.filter (fun r => r.t.site == t.site && r.t.unit == t.unit && r.arrays.contains arr)).length

/-- Operations waiting at an engine: the unit's table engine, or an engine of the die. -/
def sameEngine (a b : OpRec) : Bool :=
  let tbl (o : Op) : Bool := o == .fnv || o == .fnd || o == .cvt
  a.t.site == b.t.site &&
    (if tbl a.op then tbl b.op && a.t.unit == b.t.unit
     else if a.op == .randt then b.op == .randt && a.t.unit == b.t.unit
     else a.op == b.op || (a.op == .kstash && b.op == .kfetch) || (a.op == .kfetch && b.op == .kstash))

/-- The operation is handed to arrays rather than to an engine. -/
def OpRec.toArray (r : OpRec) : Bool := !r.arrays.isEmpty

/-- The input queue an operation would enter has room. -/
def Pkg.room (g : Pkg) (r : OpRec) : Bool :=
  if r.toArray then r.arrays.all (fun a => decide (g.arrayLoad r.t a < inputDepth))
  else decide ((g.eops.filter (fun x => sameEngine r x)).length < inputDepth)

/-- The operation enters its queue. -/
def Pkg.handOver (g : Pkg) (r : OpRec) : Pkg :=
  if r.toArray then { g with aops := g.aops ++ [r] } else { g with eops := g.eops ++ [r] }

/-- Two operations enter one input queue. -/
def sameInput (a b : OpRec) : Bool :=
  if a.toArray then a.t.site == b.t.site && a.t.unit == b.t.unit && a.arrays.any (fun x => b.arrays.contains x)
  else !b.toArray && sameEngine a b

/-- Hands an operation over; with a full input queue, or behind a thread that waits for room in it, the thread waits (R63, R92). -/
def Pack.hand (s : Pack) (r : OpRec) : Pack × Next :=
  let g := s.g r.t.pkg
  if g.room r && g.roomWaits.all (fun x => !sameInput r x) then (s.on r.t.pkg (fun g => g.handOver r), .adv)
  else (s, .wait (.room r 0 none))

/-- The record of an instruction: descriptors and scalars copied at issue (R122). -/
def mkOp (g : Pkg) (op : Op) (t : Tid) (f : Fields) (th : Thread) (v : List Word) : OpRec :=
  { seq := g.seq, t := t, pc := th.pc, op := op, f := f, td := th.td f.d.toNat, ta := th.td f.a.toNat, tb := th.td f.b.toNat,
    tc := th.td f.c.toNat, v := v }

/-- MMA and MMB: checked and handed to their arrays (R92, R123 to R126). -/
def mmaBody (t : Tid) (f : Fields) : Body := fun th s =>
  match mmaChk s t f (th.td f.a.toNat) (th.td f.b.toNat) with
  | some x => (s, .trap x.1 x.2)
  | none => s.hand (mkOp (s.g t.pkg) .mma t f th [th.s (f.i 16 12)])
def mmbBody (t : Tid) (f : Fields) : Body := fun th s =>
  match mmbChk s t f (th.td f.a.toNat) (th.td f.b.toNat) (th.td f.c.toNat) with
  | some x => (s, .trap x.1 x.2)
  | none => s.hand (mkOp (s.g t.pkg) .mmb t f th [th.s (f.i 8 4)])

/-- The table at an address of a unit: the cause that refuses it (R72), or the table. -/
def Pack.table (s : Pack) (t : Tid) (a : Nat) : FnTab ⊕ (Nat × Option Word) :=
  let fault (c : Nat) : FnTab ⊕ (Nat × Option Word) := .inr (c, some (BitVec.ofNat 64 a))
  let site := if (a >>> 52) % 64 = 63 then t.site else (a >>> 52) % 64
  let own : Bool := s.at t.pkg ((a >>> 58) % 64) == some t.pkg && site == t.site && (a >>> 48) % 16 == 0 && a % 2 ^ 48 / 2 ^ 19 == t.unit
  if s.where' t.pkg (some t.site) a = .invalid then fault 1
  else if !own then fault 6
  else if a % 2048 ≠ 0 then fault 5
  else match fnTabOf (s.bytes { pk := t.pkg, site := t.site, space := 0, off := a % 2 ^ 48 } 1552) with
    | some x => .inl x
    | none => fault 6

/-- The check of a table. -/
def tabChk (s : Pack) (t : Tid) (a : Word) : Option (Nat × Option Word) :=
  match s.table t a.toNat with
  | .inl _ => none
  | .inr x => some x

/-- An O8 format, valid only for CVT and in Onelo mode (R38). -/
def isO8 (f : Fmt) : Bool := f == .o8f || f == .o8g

/-- The format of a bias (R127). -/
def biasFmt (n : Nat) : Fmt := match n with
  | 0 => .b16
  | 1 => .h16
  | _ => .a32

/-- What stops an EPI at issue (R37, R38, R69, R72, R80, R120, R127, R381). -/
def epiChk (s : Pack) (t : Tid) (f : Fields) (out save : Tile) (v : List Word) : Option (Nat × Option Word) :=
  let g := s.g t.pkg
  let a := f.a.toNat
  let sv := f.b.toNat != 31
  let onelo := (g.tileMode t.site t.unit (a / 8) (a % 8)).2.1
  let ba := (v.getD 0 0).toNat
  firstBad [tileChk out, if sv then tileChk save else none,
    need (g.scaleOn t.site) 2,
    need (!isO8 out.fmt || onelo) 6,
    need (!sv || !isO8 save.fmt) 6,
    need (f.i 1 0 == 0 || g.streamOn) 2,
    need (f.i 1 0 == 0 || (g.drawOf (f.i 17 8) 0).isSome) 6,
    if f.ib 3 then
      (s.spanStatic t ba (32 * fmtBytes (biasFmt (f.i 5 4)))).map (fun p => (p.1, some (BitVec.ofNat 64 p.2)))
    else none,
    if f.ib 7 then tabChk s t (v.getD 1 0) else none]

/-- EPI (R127): handed to its array. -/
def epiBody (t : Tid) (f : Fields) : Body := fun th s =>
  let c := f.c.toNat
  let v := [th.s c, th.s (c + 1), th.s (c + 2)]
  match epiChk s t f (th.td f.d.toNat) (th.td f.b.toNat) v with
  | some x => (s, .trap x.1 x.2)
  | none => s.hand (mkOp (s.g t.pkg) .epi t f th v)

/-- What stops FNV, FND or CVT at issue (R38, R72, R74, R80, R120, R128, R381). -/
def eltChk (s : Pack) (op : Op) (t : Tid) (f : Fields) (out x y : Tile) (tab : Word) : Option (Nat × Option Word) :=
  let g := s.g t.pkg
  let two := op == .fnd
  let cv := op == .cvt
  firstBad [tileChk out, tileChk x, if two then tileChk y else none,
    need (cv || !(isO8 out.fmt || isO8 x.fmt || (two && isO8 y.fmt))) 6,
    need (g.scaleOn t.site) 2,
    need (f.i 1 0 == 0 || g.streamOn) 2,
    need (f.i 1 0 == 0 || (g.drawOf (f.i 17 8) 0).isSome) 6,
    if cv then none else tabChk s t tab,
    viewChk s t x 32 32, if two then viewChk s t y 32 32 else none]

/-- FNV, FND, CVT (R128): handed to the unit's function-table engine. -/
def eltBody (op : Op) (t : Tid) (f : Fields) : Body := fun th s =>
  let tab := th.s f.c.toNat
  match eltChk s op t f (th.td f.d.toNat) (th.td f.a.toNat) (th.td f.b.toNat) tab with
  | some x => (s, .trap x.1 x.2)
  | none => s.hand (mkOp (s.g t.pkg) op t f th [tab, th.s (f.i 7 3)])

/-- The values of a matrix converted into the codes of a target, with its block exponents: codes row by row, exponents in block order, flags (R41, R47, R82). -/
def convTile (vs : List (List Val)) (d : Tile) (scale : Nat) (rnd : Nat → Nat → Rnd) : List (List Nat) × List (List Nat) × Flg :=
  let m := scaleMag scale
  let q := vs.map (fun r => r.map (fun v => v.divMag m))
  let n := q.length
  let w := (q.headD []).length
  let orF (l : List (Nat × Flg)) : Flg := l.foldl (fun f x => f.or x.2) {}
  if !d.blk then
    let out := (q.zip (List.range n)).map (fun p => (p.1.zip (List.range w)).map (fun e => convert e.1 d.fmt (rnd p.2 e.2)))
    (out.map (fun r => r.map (·.1)), [], orF (flat out))
  else
    -- blocks run along the rows of `z`: the view's columns when BAXIS = 0, its rows when BAXIS = 1
    let z := if d.baxis == 0 then q else transpose q
    let md (i j : Nat) : Rnd := if d.baxis == 0 then rnd i j else rnd j i
    let out := (z.zip (List.range z.length)).map (fun p =>
      (List.range (p.1.length / 32)).map (fun b =>
        quantiseBlock (kblock p.1 b) d.fmt ((List.range 32).map (fun j => md p.2 (32 * b + j)))))
    let codes := out.map (fun r => (r.map (fun x => x.2.map (·.1))).flatten)
    let exps := out.map (fun r => r.map (·.1))
    let fl := out.foldl (fun f r => r.foldl (fun f x => f.or (orF x.2)) f) ({} : Flg)
    (if d.baxis == 0 then codes else transpose codes, if d.baxis == 0 then exps else transpose exps, fl)

/-- Writes bytes seen from thread `t`; an output write to a place that is invalid or gated ends with an ENGINE_ACCESS report of the output writer (R446). -/
def Pack.wrOut (s : Pack) (t : Tid) (a : Nat) (bs : List Byte) : Pack :=
  match s.spanOk t.pkg (some t.site) a bs.length with
  | .ok l => if l.space = 3 then s.on t.pkg (fun g => g.engErr t.site t.unit 0x0A a) else s.store l bs
  | _ => s.on t.pkg (fun g => g.engErr t.site t.unit 0x0A a)

/-- Writes the rows of a view and its block exponents; the first place that cannot be written ends the writing with one report. -/
def Pack.wrView (s : Pack) (t : Tid) (d : Tile) (codes exps : List (List Nat)) : Pack :=
  match s.viewBad t d codes.length (codes.headD []).length with
  | some p => s.on t.pkg (fun g => g.engErr t.site t.unit 0x0A p.2)
  | none =>
    let s := (codes.zip (List.range codes.length)).foldl (fun s p => s.wrOut t (d.elem p.2 0) (bytesOf d.fmt p.1)) s
    (exps.zip (List.range exps.length)).foldl (fun s p =>
      let a := if d.baxis == 0 then d.beAddr p.2 0 else d.beAddr (32 * p.2) 0
      s.wrOut t a (p.1.map (fun e => BitVec.ofNat 8 e))) s

/-- The rounding of each element of a conversion: RNE, or SR with the draw of its logical index (R40, R82). -/
def rndOf (sr : Bool) (dr : Option Draw) (d : Tile) (i j : Nat) : Rnd :=
  match sr, dr with
  | true, some x =>
    let l := elemIndex (d.orgi + i) (d.orgj + j)
    .sr 16 ((x.at (l / 8) >>> (16 * (l % 8))) % 2 ^ 16)
  | _, _ => .rne

/-- Converts values into a view and writes it, recording AMAX; in a pre-pass only PRE is raised (R47, R51, R56). -/
def Pack.convOut (s : Pack) (t : Tid) (d : Tile) (vs : List (List Val)) (pre sr : Bool) (dr : Option Draw) : Pack × Flg :=
  let g := s.g t.pkg
  let cur := g.cur t.site d.slot
  let s := s.on t.pkg (fun g => g.recordAmax t.site d.slot pre (flat vs))
  if pre then (s, {})
  else
    let r := convTile vs d cur (rndOf sr dr d)
    (s.wrView t d r.1 r.2.1, r.2.2)

/-- Writes a 4-byte word seen from thread `t`. -/
def Pack.wrWord (s : Pack) (t : Tid) (a : Nat) (v : W32) : Pack := s.wrOut t a (leBytes v.toNat 4)

/-- Performs an MMA or MMB at its arrays (R63 to R67, R70, R71, R124, R125). -/
def Pack.runMma (s : Pack) (r : OpRec) : Pack :=
  let g := s.g r.t.pkg
  let t := r.t
  let mbid := (r.v.getD 0 0).toNat % 2 ^ 16
  if r.op == .mma then
    let e := mmaExt r.f
    let va := s.view t r.ta e.1.1 e.1.2
    let vb := s.view t r.tb e.2.1 e.2.2
    let as := if r.f.ib 8 then transpose va else va
    let bs := if r.f.ib 9 then vb else transpose vb
    let d := r.f.d.toNat
    let dr := if r.f.ib 10 then g.drawOf (r.f.i 26 17) mbid else none
    s.on t.pkg (fun g => g.setTile t.site t.unit (d / 8) (d % 8)
      ((g.tile t.site t.unit (d / 8) (d % 8)).mma (r.f.ib 7) (r.f.ib 10) (r.f.ib 11) r.ta.slot r.tb.slot dr as bs (r.f.i 6 0 + 1)))
  else
    let y := s.view t r.ta 32 32
    let w := s.view t r.tb 32 32
    let x := s.view t r.tc 32 32
    let a16 := r.f.ib 2
    let dr := if a16 then g.drawOf (r.f.i 18 9) mbid else none
    let drB := dr.map (fun d => { d with lane := d.lane ^^^ 0x80 })
    let d := r.f.d.toNat % 8
    let n := r.f.i 21 19
    s.on t.pkg (fun g =>
      let ga := g.setTile t.site t.unit 0 d
        ((g.tile t.site t.unit 0 d).mma (r.f.ib 0) a16 (r.f.ib 3) r.ta.slot r.tb.slot dr y w 1)
      ga.setTile t.site t.unit 1 n
        ((g.tile t.site t.unit 1 n).mma (r.f.ib 1) a16 (r.f.ib 3) r.tc.slot r.ta.slot drB (transpose x) (transpose y) 1))

/-- The value of a tile's element code in the tile's mode. -/
def Acc.val (x : Acc) (c : Nat) : Val := Machine.decode (if staA16 x.sta then .b16 else .a32) c

/-- The epilogue's value of every element before its output conversion, with flags; the saved input is the value before the table (R69). -/
def epiTile (x : Acc) (sa sb : Nat) (bias : Option (List Val × Bool)) : List (List Val) × Flg :=
  let out := (x.els.zip (List.range 1024)).map (fun p =>
    epiValue (x.val p.1) sa sb (bias.map (fun b => b.1.getD (if b.2 then p.2 / 32 else p.2 % 32) valZero)))
  (rows32 (out.map (·.1)), out.foldl (fun f v => f.or v.2) {})

/-- Values through a function table, with flags (R73). -/
def tabTile (tab : FnTab) (vs : List (List Val)) : List (List Val) × Flg :=
  let out := vs.map (fun r => r.map (fun v => fnEval v tab))
  (out.map (fun r => r.map (·.1)), (flat out).foldl (fun f v => f.or v.2) {})

/-- Performs an EPI (R69, R126, R127). -/
def Pack.runEpi (s : Pack) (r : OpRec) : Pack :=
  let t := r.t
  let g := s.g t.pkg
  let n := r.f.a.toNat
  let x := (g.tile t.site t.unit (n / 8) (n % 8)).settle r.td.orgi r.td.orgj
  let bf := biasFmt (r.f.i 5 4)
  let bias := if r.f.ib 3 then
      some ((codesOf bf (s.rdN t (r.v.getD 0 0).toNat (32 * fmtBytes bf))).map (Machine.decode bf), r.f.ib 6)
    else none
  let y := epiTile x (g.cur t.site x.sa) (g.cur t.site x.sb) bias
  let pre := r.f.ib 2
  let sv := r.f.b.toNat != 31 && !pre
  let o1 := if sv then s.convOut t r.tb y.1 false false none else (s, {})
  let z := if r.f.ib 7 then
      (match o1.1.table t (r.v.getD 1 0).toNat with
       | .inl tab => tabTile tab y.1
       | .inr _ => (y.1, {}))
    else (y.1, {})
  let dr := g.drawOf (r.f.i 17 8) ((r.v.getD 2 0).toNat % 2 ^ 16)
  let o2 := o1.1.convOut t r.td z.1 pre (r.f.i 1 0 == 1) dr
  let sta := staEpi x.sta (((y.2.or o1.2).or z.2).or o2.2)
  let s := o2.1.on t.pkg (fun g => g.setTile t.site t.unit (n / 8) (n % 8) { x with sta := sta })
  if pre then s
  else
    let s := if r.td.stat = 0 then s else s.wrWord t r.td.stat sta
    if sv ∧ r.tb.stat ≠ 0 then s.wrWord t r.tb.stat (staEpi sta o1.2) else s

/-- The input values of an element-wise instruction, transposed where TR = 1; for a table instruction rounded to A32 (R74, R128). -/
def Pack.eltIn (s : Pack) (t : Tid) (d : Tile) (tr a32 : Bool) : List (List Val) × Flg :=
  let cur := (s.g t.pkg).cur t.site d.slot
  let m := ((s.codes t d 32 32).zip (s.exps t d 32 32)).map (fun p => (p.1.zip p.2).map (fun q =>
    if a32 then readReal d.fmt q.1 q.2 (some cur)
    else
      let v := Machine.decode d.fmt q.1
      let v := match q.2 with
        | some b => v.mul (blockFactor b)
        | none => v
      (v.mul (ofB cur), ({} : Flg))))
  let m := if tr then transpose m else m
  (m.map (fun r => r.map (·.1)), (flat m).foldl (fun f v => f.or v.2) {})

/-- Flags ORed into bits [7:4] of the word at an address, or into SSTAT where it is 0 (R128). -/
def Pack.orFlags (s : Pack) (t : Tid) (a : Nat) (f : Flg) : Pack :=
  if a = 0 then s.onTh t (fun x => x.orStat f)
  else
    let w := mk32 (leVal (s.rdN t a 4))
    s.wrWord t a (setF w 7 4 (fld w 7 4 ||| flgBits f))

/-- Performs FNV, FND or CVT (R74, R128). -/
def Pack.runElt (s : Pack) (r : OpRec) : Pack :=
  let t := r.t
  let g := s.g t.pkg
  let tr := r.f.ib 18
  let x := s.eltIn t r.ta tr (r.op != .cvt)
  let tab := match s.table t (r.v.getD 0 0).toNat with
    | .inl t => some t
    | .inr _ => none
  let y : List (List Val) × Flg :=
    match r.op, tab with
    | .fnv, some tb => let z := tabTile tb x.1; (z.1, x.2.or z.2)
    | .fnd, some tb =>
      let xs := s.eltIn t r.tb tr true
      let z := tabTile tb xs.1
      let m := (x.1.zip z.1).map (fun p => (p.1.zip p.2).map (fun q => stepA (q.1.mul q.2, {})))
      (m.map (fun r => r.map (·.1)), (flat m).foldl (fun f v => f.or v.2) ((x.2.or xs.2).or z.2))
    | _, _ => x
  let dr := g.drawOf (r.f.i 17 8) ((r.v.getD 1 0).toNat % 2 ^ 16)
  let o := s.convOut t r.td y.1 (r.f.ib 2) (r.f.i 1 0 == 1) dr
  o.1.orFlags t r.td.stat (y.2.or o.2)

/-- RANDT (R85, R138): what stops it at issue. -/
def randtChk (s : Pack) (t : Tid) (f : Fields) : Option (Nat × Option Word) :=
  let g := s.g t.pkg
  let slot := f.i 9 0
  firstBad [need (((g.th t).td f.d.toNat).rsv == 0) 3, need g.streamOn 2, need (g.drawOf slot 0).isSome 6, need (!f.ib 10 || g.seqen slot) 6]

/-- RANDT: a sequential one takes its CURSOR values in one atomic advance; the records are written by the engine. -/
def randtBody (t : Tid) (f : Fields) : Body := fun th s =>
  let g := s.g t.pkg
  match randtChk s t f with
  | some x => (s, .trap x.1 x.2)
  | none =>
    let n := f.i 18 11 + 1
    let slot := f.i 9 0
    let i := if f.ib 10 then BitVec.ofNat 64 (g.cursor slot) else th.s f.b.toNat
    let s := if f.ib 10 then s.on t.pkg (fun g => g.advCursor slot n) else s
    s.hand (mkOp (s.g t.pkg) .randt t f th [th.s f.a.toNat, i])

/-- Performs RANDT: N + 1 draws as 16-byte records from tdst.BASE (R138). A slot that is no longer valid ends it with an error report (R80). -/
def Pack.runRandt (s : Pack) (r : OpRec) : Pack :=
  let t := r.t
  let n := r.f.i 18 11 + 1
  match (s.g t.pkg).drawOf (r.f.i 9 0) ((r.v.getD 0 0).toNat % 2 ^ 16) with
  | none => s.on t.pkg (fun g => g.engErr t.site t.unit 0x0A 0)
  | some d =>
    let i := (r.v.getD 1 0).toNat
    s.wrOut t r.td.base ((List.range n).flatMap (fun k => leBytes (d.at ((i + k) % 2 ^ 64)) 16))

/-- The slots an operation converts into without the pre-pass flag (R56). -/
def OpRec.convSlots (r : OpRec) : List Nat :=
  match r.op with
  | .epi => if r.f.ib 2 then [] else r.td.slot :: (if r.f.b.toNat != 31 then [r.tb.slot] else [])
  | .fnv | .fnd | .cvt => if r.f.ib 2 then [] else [r.td.slot]
  | .gather => [r.td.slot]
  | _ => []

/-- What an operation reads fails as its accesses find it (R30, R111, R381), or a tile it adds to or converts has another mode by now (R38, R60, R75, R126): the cause. -/
def Pack.opBad (s : Pack) (r : OpRec) : Option (Nat × Option Word) :=
  let g := s.g r.t.pkg
  let view (d : Tile) (rows cols : Nat) : Option (Nat × Option Word) :=
    (s.viewBad r.t d rows cols).map (fun p => (p.1, some (BitVec.ofNat 64 p.2)))
  let tiles := need (r.needs.all (fun x => g.tileNow r.t.site r.t.unit x.1.1 x.1.2 == x.2)) 6
  match r.op with
  | .mma => let e := mmaExt r.f; firstBad [tiles, view r.ta e.1.1 e.1.2, view r.tb e.2.1 e.2.2]
  | .mmb => firstBad [tiles, view r.ta 32 32, view r.tb 32 32, view r.tc 32 32]
  | .epi =>
    let n := r.f.a.toNat
    firstBad [need (!isO8 r.td.fmt || (g.tileNow r.t.site r.t.unit (n / 8) (n % 8)).2.1) 6,
      if r.f.ib 3 then
        (s.spanBad r.t (r.v.getD 0 0).toNat (32 * fmtBytes (biasFmt (r.f.i 5 4)))).map (fun p => (p.1, some (BitVec.ofNat 64 p.2)))
      else none]
  | .fnv | .cvt => view r.ta 32 32
  | .fnd => firstBad [view r.ta 32 32, view r.tb 32 32]
  | _ => none

/-- An operation is held for ARM (R56). -/
def Pkg.held (g : Pkg) (r : OpRec) : Bool := r.convSlots.any (fun n => g.heldConv r.t.site n)

end Sys2Proof.Machine
end

