-- ==== Sys2Proof/Machine/QueueOps.lean ====
section
/-! DEFINITION. Hardware queues: indices, credits, the queue engine, doorbells, enabling, integrity, seal and revert actions (R131, R141 to R162). -/

set_option linter.unusedVariables false

namespace Sys2Proof.Machine

/-- The four indices of a queue (R149). -/
structure Ix where
  p : Nat
  c : Nat
  m : Nat
  l : Nat
  deriving DecidableEq, Repr

/-- d(x, y) = (x − y) mod 2^16 (R149). -/
def ringDist (x y : Nat) : Nat := (x + 65536 - y % 65536) % 65536

/-- The indices in QUEUE.PC and QUEUE.ML. -/
def Pkg.ix (g : Pkg) (site q : Nat) : Ix :=
  let a := g.rd (rQ site q 0xC)
  let b := g.rd (rQ site q 0x10)
  { p := fld a 15 0, c := fld a 31 16, m := fld b 15 0, l := fld b 31 16 }

/-- The words of QUEUE.PC and QUEUE.ML. -/
def Ix.pc (x : Ix) : W32 := mk32 (x.p % 65536 + 65536 * (x.c % 65536))
def Ix.ml (x : Ix) : W32 := mk32 (x.m % 65536 + 65536 * (x.l % 65536))

/-- The order of R149: d(P, L) ≤ SIZE and L ≤ M ≤ C ≤ P in the order of the ring. -/
def Ix.ok (x : Ix) (size : Nat) : Bool :=
  decide (ringDist x.p x.l ≤ size) && decide (ringDist x.m x.l ≤ ringDist x.c x.l) && decide (ringDist x.c x.l ≤ ringDist x.p x.l)

/-- Writes both copies of the indices (R150). -/
def Pkg.setIx (g : Pkg) (site q : Nat) (x : Ix) : Pkg :=
  let g := (g.wr (rQ site q 0xC) x.pc).wr (rQ site q 0x10) x.ml
  { g with qcopy := mins g.qcopy (rQ site q 0) (x.pc, x.ml) }

/-- The two copies agree (R150). -/
def Pkg.copiesOk (g : Pkg) (site q : Nat) : Bool :=
  mget (0, 0) g.qcopy (rQ site q 0) == (g.rd (rQ site q 0xC), g.rd (rQ site q 0x10))

/-- READY and HELD. -/
def Ix.ready (x : Ix) : Nat := ringDist x.p x.c
def Ix.held (x : Ix) : Nat := ringDist x.c x.l

/-- AVAIL and OUT (R152). -/
def Pkg.avail (g : Pkg) (site q : Nat) : Nat := g.rf (rQ site q 0x18) 15 0
def Pkg.outc (g : Pkg) (site q : Nat) : Nat := g.rf (rQ site q 0x18) 31 16
def Pkg.setCred (g : Pkg) (site q avail out : Nat) : Pkg := g.wr (rQ site q 0x18) (mk32 (avail + 65536 * out))

/-- CFG.STATE, PROD, CHOST, INPUT. -/
def Pkg.qState (g : Pkg) (site q : Nat) : Nat := g.rf (rQ site q 0) 30 29
def Pkg.qProd (g : Pkg) (site q : Nat) : Nat := g.rf (rQ site q 0) 21 20
def Pkg.qChost (g : Pkg) (site q : Nat) : Bool := g.rb (rQ site q 0) 22
def Pkg.qInput (g : Pkg) (site q : Nat) : Bool := g.rb (rQ site q 0) 23

/-- The class of a QID (R141). -/
def qClass (q : Nat) : Nat := if q < 512 then 0 else if q < 2560 then 1 else if q < 3584 then 2 else 3

/-- QCOUNT: READY and HELD, 0 where EN = 0 (R155). -/
def Pkg.qcount (g : Pkg) (site q : Nat) : W32 :=
  if g.qEn site q then mk32 ((g.ix site q).ready + 65536 * (g.ix site q).held) else 0

/-- The entry of an index in a queue's ring, as a place. -/
def Pkg.entryLoc (g : Pkg) (k site q i : Nat) : Loc :=
  let a := g.qBase site q + 64 * (i % g.qSize site q)
  { pk := k, site := (a >>> 52) % 64, space := (a >>> 48) % 16, off := a % 2 ^ 48 }

/-- The SEQ word of an entry (R146). -/
def seqWord (q i : Nat) : Nat := q * 65536 + i % 65536

/-- CHK of an entry's payload at an index (R146). -/
def chkOf (q i : Nat) (payload : List Byte) : Nat := crc32c (payload.take 60 ++ leBytes (seqWord q i) 4)

/-- An entry of 64 bytes whose CHK is right. -/
def chkOk (q i : Nat) (e : List Byte) : Bool := leVal ((e.drop 60).take 4) == chkOf q i e

/-- A release of waiting CTAKE or QPOP of a thread on any package. -/
def Pack.releaseT (s : Pack) (t : Tid) (pd : Nat) (b : Bool) : Pack := s.on t.pkg (fun g => g.release t.key pd b)

/-- The requests of a thread's wait leave their line wherever it stands (R96): nothing is taken. -/
def Pack.leaveLines (s : Pack) (t : Tid) : Pack :=
  { s with pkgs := mmap (fun _ g => { g with qops := g.qops.filter (fun q =>
      !(q.r.t == t && (q.r.op == .ctake || q.r.op == .qpop))) }) s.pkgs }

/-- A late fault at a thread on any package (R96, R111); where it has no address FADDR is a free value (log 11). A wait of the thread ends, and the TTAKEs it held back are served (R101). -/
def Pack.faultAt (s : Pack) (t : Tid) (pc : BitVec 16) (cause : Nat) (addr : Option Word) : Pack :=
  let th := (s.g t.pkg).th t
  let w := if th.st = .wait then th.wait else none
  let s := if th.st = .wait then s.leaveLines t else s
  let fin (a : Word) (s : Pack) : Pack := s.on t.pkg (fun g => (g.lateFault t pc cause a).lineLeft t.key w)
  match addr with
  | some a => fin a s
  | none =>
    if causeAccess cause then
      let d := s.draw
      fin (BitVec.ofNat 64 d.1) d.2
    else fin 0 s

/-- Every package in ascending index. -/
def Pack.ids (s : Pack) : List Nat := s.pkgs.map (·.1)

/-- Applies a change to every package. -/
def Pack.all (s : Pack) (f : Nat → Pkg → Pkg) : Pack := { s with pkgs := mmap f s.pkgs }

/-- An instruction that the queue engine of its queue's home performs (R131). -/
def queueOp : Op → Bool
  | .qpush | .qpop | .qmark | .qrewind | .qrelease | .qcount | .cgive | .ctake => true
  | _ => false

/-- The input queue of a die's queue engine has room (R92): QPOPs and CTAKEs that stand in a queue's line have left it (log 5). -/
def Pkg.engRoom (g : Pkg) (site : Nat) : Bool :=
  decide ((g.qops.filter (fun x => x.site == site && x.r.op != .ctake && x.r.op != .qpop)).length < inputDepth)

/-- A CONTRIB consumes its unit's credit for its queue as it is handed over (R96, R131); none where the unit holds none. -/
def Pack.spendCredit (s : Pack) (r : OpRec) : Option Pack :=
  match qidOf (r.v.getD 0 0) with
  | none => none
  | some (pos, q) =>
    let c := (s.g r.t.pkg).credits r.t.site r.t.unit pos q
    if c = 0 then none
    else some (s.on r.t.pkg (fun g => (g.setCredits r.t.site r.t.unit pos q (c - 1)).book 1 r.t.site (-1)))

/-- Waiting QPUSHes and CONTRIBs of a unit that now hold their credits are handed to the queue's home (R131, R228), or wait for room there (R92). -/
def Pack.pushWaiters (s : Pack) (k site u : Nat) : Pack :=
  let g := s.g k
  (g.waiters (fun key w => key / 16 == uk site u && (match w with | .push _ => true | _ => false))).foldl (fun s key =>
    let g := s.g k
    match (mget ({} : Thread) g.thr key).wait with
    | some (.push r) =>
      let qv := if r.op == .contrib then r.v.getD 0 0 else r.v.getD 1 0
      let n := if r.op == .contrib then 1 else r.f.i 7 0
      match qidOf qv with
      | none => s
      | some (pos, q) =>
        if n ≤ g.credits site u pos q then
          match s.at k pos with
          | none => s
          | some pk =>
            match (s.g pk).home q with
            | none => s
            | some hs =>
              let room := if r.op == .contrib then g.room r && g.roomWaits.all (fun x => !sameInput r x) else (s.g pk).engRoom hs
              if !room then s.on k (fun g => g.onTh (tidOf k key) (fun th => { th with wait := some (.room r 0 none) }))
              else
                let s := s.on k (fun g => (g.setCredits site u pos q (g.credits site u pos q - n)).book 1 site (-(n : Int)))
                let s := if r.op == .contrib then
                    s.on k (fun g => g.handOver { r with v := r.v.take 4 ++ [BitVec.ofNat 64 hs] })
                  else
                    let s := if pk = k then s else s.on k (fun g => g.flow 1 g.step true n)
                    s.on pk (fun g => { g with qops := g.qops ++ [{ seq := r.seq, r := r, site := hs, qid := q, n := n }] })
                s.on k (fun g => g.onTh (tidOf k key) Thread.adv)
        else s
    | _ => s) s

/-- Credits arrive at a unit (CTAKE). -/
def Pack.giveCredits (s : Pack) (t : Tid) (pos q n : Nat) : Pack :=
  (s.on t.pkg (fun g => (g.setCredits t.site t.unit pos q (g.credits t.site t.unit pos q + n)).book 1 t.site n)).pushWaiters
    t.pkg t.site t.unit

/-- The key of a queue at its home. -/
def qkey (site q : Nat) : Nat := site * 4096 + q

/-- Credits of an inbound queue held by a source position (R230). -/
def Pkg.credOf (g : Pkg) (qk p : Nat) : Nat :=
  match g.co.cred.find? (fun x => x.1 == qk && x.2.1 == p) with
  | some x => x.2.2
  | none => 0

/-- Sets them. -/
def Pkg.setCredOf (g : Pkg) (qk p n : Nat) : Pkg :=
  let rest := g.co.cred.filter (fun x => !(x.1 == qk && x.2.1 == p))
  { g with co := { g.co with cred := if n = 0 then rest else rest ++ [(qk, p, n)] } }

/-- Returns the credit of an inbound entry to its queue's grant of a source (R230). -/
def Pkg.credBack (g : Pkg) (qk p : Nat) : Pkg := (g.setCredOf qk p (g.credOf qk p - 1)).book 5 qk (-1)

/-- The threads of every package that wait on a queue, with what they wait for. -/
def Pack.queueWaiters (s : Pack) (k q : Nat) : List (Nat × Nat × Wait) :=
  s.pkgs.flatMap (fun p =>
    let names (pos i : Nat) : Bool := i == q && s.at p.1 pos == some k
    (p.2.waiters (fun _ w => match w with
      | .ctake pos i _ _ _ => names pos i
      | .qpop pos i _ _ _ => names pos i
      | .push r =>
        (match qidOf (if r.op == .contrib then r.v.getD 0 0 else r.v.getD 1 0) with
         | some (pos, i) => names pos i
         | none => false)
      | _ => false)).filterMap (fun key =>
        (mget ({} : Thread) p.2.thr key).wait.map (fun w => (p.1, key, w))))

/-- Ends every wait on a queue: QPOP and CTAKE with pd := 0 and their completion, a waiting QPUSH with a cause (R158, R159). -/
def Pack.endQueueWaits (s : Pack) (k q cause : Nat) : Pack :=
  let ws := s.queueWaiters k q
  let reqs := ((s.g k).qops.filter (fun x => x.qid == q && (x.r.op == .ctake || x.r.op == .qpop))).map (·.r)
  let s := s.on k (fun g => { g with qops := g.qops.filter (fun x =>
    !(x.qid == q && (x.r.op == .ctake || x.r.op == .qpop))) })
  let s := ws.foldl (fun s w =>
    match w.2.2 with
    | .push r => s.faultAt (tidOf w.1 w.2.1) r.pc cause none
    | x => s.on w.1 (fun g => g.release w.2.1 x.pd false)) s
  reqs.foldl (fun s r => if r.op == .qpop then s.on r.t.pkg (fun g => g.complete r.t r.f) else s) s

/-- Clears the credit-table entries of every unit for a queue of package `k`; the credits withdrawn (R158, R162). -/
def Pack.clearCredits (s : Pack) (k q : Nat) : Pack :=
  let pos := (s.g k).pos
  s.all (fun j g =>
    if s.at j pos == some k then
      (g.ctab.map (·.1)).foldl (fun g u =>
        let site := u / 64
        let n := g.credits site (u % 64) pos q
        if n = 0 then g else (g.setCredits site (u % 64) pos q 0).book 1 site (-(n : Int))) g
    else g)

/-- R158: a queue is disabled for an integrity error; `idx` selects the cause, `at` the index that failed. The credits that collective engines hold for it are withdrawn too (R230). -/
def Pack.integrity (s : Pack) (k site q : Nat) (idx : Bool) (at' : Nat) : Pack :=
  let g := s.g k
  let x := g.ix site q
  let lost := ringDist x.p x.l + g.outc site q
  let s := s.on k (fun g =>
    let g := g.wr (rQ site q 0) (setF (setB (g.rd (rQ site q 0)) 31 false) 30 29 2)
    let g := (g.setIx site q { p := 0, c := 0, m := 0, l := 0 }).setCred site q 0 0
    let g := (g.wr (rQ site q 0x1C) (setB (setF (g.rd (rQ site q 0x1C)) 31 16 at') (if idx then 0 else 1) true)).addSat (rRecl 1) lost
    let g := { g with booked := mins (mins (mins g.booked (2 * 2 ^ 32 + site * 4096 + q) 0) (8 * 2 ^ 32 + site * 4096 + q) 0) (5 * 2 ^ 32 + site * 4096 + q) 0,
                      co := { g.co with cred := g.co.cred.filter (fun x => !(x.1 == site * 4096 + q)) } }
    let g := g.logAt 0x0204 site 0xFF 0xFF q (if idx then 1 else 2) at'
    if qClass q == 1 || qClass q == 2 || g.qInput site q then g.send (.revertReq g.pos 0x0204) else g)
  (s.clearCredits k q).endQueueWaits k q 0x20

/-- Stores new indices and checks both copies and the order (R150); a fault disables the queue. DESIGN CHOICE, log 112: AT of an IDX failure holds the new P, whichever index failed. -/
def Pack.moveIx (s : Pack) (k site q : Nat) (upset : Nat) (x : Ix) : Pack :=
  let old := (s.g k).ix site q
  let s := s.on k (fun g =>
    let g := g.setIx site q x
    let g := { g with qcopy := mupd (0, 0) g.qcopy (rQ site q 0) (fun c => (c.1 ^^^ mk32 upset, c.2 ^^^ mk32 (upset >>> 32))) }
    g.book 2 (site * 4096 + q) ((ringDist x.p x.l : Nat) - (ringDist old.p old.l : Nat)))
  let g := s.g k
  if g.copiesOk site q && x.ok (g.qSize site q) then s else s.integrity k site q true x.p

/-- A raise of the completion vector after a push (R370). -/
def Pkg.pushVec (g : Pkg) (q : Nat) : Pkg :=
  let w := g.hrd (0x20000 + 4 * q)
  if q < 512 ∧ bit w 31 then g.raise (fld w 10 0) else g

/-- What keeps a request from its queue: off 0x01, disabled by an integrity error 0x20 (R131, R158), gated 0x02. -/
def Pkg.qFault (g : Pkg) (site q : Nat) : Option Nat :=
  if !g.qengOn site then some 2
  else match g.qState site q with
    | 1 => none
    | 2 => some 0x20
    | _ => some 1

/-- What keeps a request of an operation from its queue. QCOUNT of a queue that is not running reads 0 (R155). -/
def Pkg.reqFault (g : Pkg) (site q : Nat) (op : Op) : Option Nat :=
  if op == .qcount && g.qengOn site then none else g.qFault site q

/-- The operand checks of R151 and R152 at the home: CAUSE 0x06. -/
def Pkg.qOperand (g : Pkg) (site q : Nat) (r : OpRec) (n : Nat) : Bool :=
  match r.op with
  | .qpush | .qpop => decide (n ≤ g.qSize site q)
  | .ctake => decide (n ≤ g.qSize site q) && g.qProd site q == 0
  | .cgive => g.qProd site q == 0
  | .qmark | .qrewind | .qrelease => !g.qInput site q
  | _ => true

/-- Outcome of looking at one request: served (removed), or still waiting. -/
abbrev Served := Pack × Bool

/-- Writes pushed entries with their CHK into the ring (R147). -/
def Pack.ringWrite (s : Pack) (k site q : Nat) (src : List Byte) : Nat → Nat → Pack
  | 0, _ => s
  | n + 1, i =>
    let g := s.g k
    let pay := src.take 60
    let e := pay ++ leBytes (chkOf q i pay) 4
    Pack.ringWrite (s.store (g.entryLoc k site q i) e) k site q (src.drop 64) n (i + 1)

/-- The entries of consecutive indices. -/
def Pack.ringRead (s : Pack) (k site q : Nat) : Nat → Nat → List (Nat × List Byte)
  | 0, _ => []
  | n + 1, i =>
    ((i % 65536), s.bytes ((s.g k).entryLoc k site q i) 64) :: Pack.ringRead s k site q n (i + 1)

/-- A master's span that an engine may use: valid, served, and not space 0x3 (R375). -/
def Pack.engSpan (s : Pack) (k : Nat) (own : Nat) (a n : Nat) : Option Loc :=
  match s.spanOk k (some own) a n with
  | .ok l => if l.space = 3 then none else some l
  | _ => none

/-- A transfer that reached another package is counted there (R317, R319). -/
def Pack.inflow (s : Pack) (k kind from' n : Nat) : Pack :=
  if from' = k then s else s.on k (fun g => g.flow kind (s.g from').step false n)

/-- One request at the head of what a queue can serve (R131, R147, R148, R151, R153). `ecc`: how the read of a QPUSH's source or of a QPOP's ring comes out; an uncorrectable one ends the operation with its report (R255, R308). -/
def Pack.serveReq (s : Pack) (k site q upset : Nat) (ecc : Ecc) (x : QReq) : Served :=
  let g := s.g k
  let r := x.r
  let t := r.t
  let n := x.n
  let i := g.ix site q
  let s := if r.op == .qpush then s.inflow k 1 t.pkg n else s
  match g.reqFault site q r.op with
  | some c => (s.faultAt t r.pc c none, true)
  | none =>
    if !g.qOperand site q r n then (s.faultAt t r.pc 6 none, true)
    else match r.op with
      | .qpush =>
        let back (s : Pack) : Pack := s.on k (fun g => g.setCred site q (g.avail site q + n) (g.outc site q - n))
        match s.engSpan t.pkg t.site (r.v.getD 0 0).toNat (64 * n) with
        | none =>
          let s := (back s).on k (fun g => g.engErr site 0xFF 1 (r.v.getD 0 0).toNat)
          (s.on t.pkg (fun g => g.complete t r.f), true)
        | some l =>
          let s := s.eccAt { site := site } l ecc
          if ecc = .ue then ((back s).on t.pkg (fun g => g.complete t r.f), true)
          else
          let s := s.ringWrite k site q (s.bytes l (64 * n)) n i.p
          let s := s.on k (fun g => g.setCred site q (g.avail site q) (g.outc site q - n))
          let s := s.moveIx k site q upset { i with p := (i.p + n) % 65536 }
          let s := s.on k (fun g => g.pushVec q)
          (s.on t.pkg (fun g => g.complete t r.f), true)
      | .qpop =>
        if i.ready < n || (g.qInput site q && (g.phase == 1 || g.pr.commit.isSome)) then (s, false)
        else
          let s := s.eccAt { site := site } (g.entryLoc k site q i.c) ecc
          let es := s.ringRead k site q n i.c
          if ecc = .ue then
            let d := s.draw
            ((d.2.releaseT t r.f.d.toNat (d.1 % 2 == 1)).on t.pkg (fun g => g.complete t r.f), true)
          else match es.find? (fun e => !chkOk q e.1 e.2) with
          | some e => (s.integrity k site q false e.1, true)
          | none =>
            match s.engSpan t.pkg t.site (r.v.getD 0 0).toNat (64 * n) with
            | none =>
              let d := s.draw
              let s := d.2.on k (fun g => g.engErr site 0xFF 1 (r.v.getD 0 0).toNat)
              let s := s.releaseT t r.f.d.toNat (d.1 % 2 == 1)
              (s.on t.pkg (fun g => g.complete t r.f), true)
            | some l =>
              let s := s.store l (es.flatMap (·.2))
              let s := s.moveIx k site q upset { i with c := (i.c + n) % 65536 }
              if (s.g k).qState site q ≠ 1 then (s, true)
              else
                let s := s.releaseT t r.f.d.toNat true
                (s.on t.pkg (fun g => g.complete t r.f), true)
      | .qmark => (s.moveIx k site q upset { i with m := i.c }, true)
      | .qrewind => (s.moveIx k site q upset { i with c := i.m }, true)
      | .qrelease =>
        let m := min n i.held
        let l := (i.l + m) % 65536
        let mk := if ringDist i.m i.l < m then l else i.m
        let s := s.on k (fun g => g.setCred site q (g.avail site q + m) (g.outc site q))
        -- the released entries of an inbound queue give back the credits of the engines that sent them (R230)
        let s := if qClass q = 2 ∧ g.qProd site q = 2 then
            (s.ringRead k site q m i.l).foldl (fun s e => s.on k (fun g => g.credBack (qkey site q) (leVal ((e.2.drop 24).take 1) % 64))) s
          else s
        let s := if m < n then s.on k (fun g => g.logAt 0x0104 site t.unit t.thr q n m) else s
        (s.moveIx k site q upset { i with l := l, m := mk }, true)
      | .qcount =>
        (s.on t.pkg (fun g => g.onTh t (fun th =>
          let th' := th.setS r.f.d.toNat ((g.qcount site q).setWidth 64)
          match th.st, th.wait with
          | .wait, some (.resp _) => th'.adv
          | _, _ => th')), true)
      | .ctake =>
        if g.avail site q < n ∨ !(s.g t.pkg).credRoom t.site t.unit g.pos q then (s, false)
        else
          let s := s.on k (fun g => g.setCred site q (g.avail site q - n) (g.outc site q + n))
          let s := if t.pkg = k then s else (s.on k (fun g => g.flow 1 g.step true n)).on t.pkg (fun h => h.flow 1 g.step false n)
          ((s.releaseT t r.f.d.toNat true).giveCredits t g.pos q n, true)
      | .cgive =>
        let h := (s.g t.pkg).credits t.site t.unit g.pos q
        let m := min n h
        let s := s.on t.pkg (fun u => (u.setCredits t.site t.unit g.pos q (h - m)).book 1 t.site (-(m : Int)))
        let s := if t.pkg = k then s else (s.on t.pkg (fun u => u.flow 1 u.step true m)).inflow k 1 t.pkg m
        let s := s.on k (fun g => g.setCred site q (g.avail site q + m) (g.outc site q - m))
        (if m < n then s.on k (fun g => g.logAt 0x0104 site t.unit t.thr q n m) else s, true)
      | _ => (s, true)

/-- The requests of a queue in order; a thread's later request, and every QPOP or CTAKE behind one that cannot be met, waits (R107, R131, R153). `upset` and `ecc` fall on the first that is served. -/
def Pack.servePass (k site q upset : Nat) (ecc : Ecc) : List QReq → Pack → List Tid → Bool → Bool → Pack
  | [], s, _, _, _ => s
  | x :: rest, s, held, pop, take =>
    let t := x.r.t
    let stay (held : List Tid) (pop take : Bool) : Pack := Pack.servePass k site q upset ecc rest s held pop take
    if !((s.g k).qops.contains x) then stay held pop take
    else if held.contains t then stay held pop take
    else if (x.r.op == .qpush || x.r.op == .cgive) && !((s.g t.pkg).writesDone t x.seq) then stay (t :: held) pop take
    else if (x.r.op == .qpop && pop) || (x.r.op == .ctake && take) then stay held pop take
    else
      let r := s.serveReq k site q upset ecc x
      if r.2 then
        let s := (r.1.on k (fun g => { g with qops := g.qops.erase x })).look t
        Pack.servePass k site q 0 .ok rest s held pop take
      else stay held (pop || x.r.op == .qpop) (take || x.r.op == .ctake)

/-- Serves a queue: its requests in order, then again for the waits that the first pass has met (R153, R156). -/
def Pack.serveQueue (s : Pack) (k site q upset : Nat) (ecc : Ecc) : Pack :=
  let reqs (s : Pack) : List QReq := (s.g k).qops.filter (fun x => x.site == site && x.qid == q)
  let s := Pack.servePass k site q upset ecc (reqs s) s [] false false
  Pack.servePass k site q 0 .ok (reqs s) s [] false false

/-- A queue has pending work for its engine (R156): a request, or the first QPOP or CTAKE of its line where it can now be met or must be refused. -/
def Pkg.queueWork (g : Pkg) (site q : Nat) : Bool :=
  let reqs := g.qops.filter (fun x => x.site == site && x.qid == q)
  let bad (x : QReq) : Bool := (g.reqFault site q x.r.op).isSome || !g.qOperand site q x.r x.n
  let first (op : Op) (ok : QReq → Bool) : Bool := match reqs.find? (fun x => x.r.op == op) with
    | some x => bad x || ok x
    | none => false
  reqs.any (fun x => x.r.op != .ctake && x.r.op != .qpop) || first .ctake (fun x => decide (x.n ≤ g.avail site q)) ||
    first .qpop (fun x => decide (x.n ≤ (g.ix site q).ready))

/-- The queue the engine of a die serves next: ascending QID from the one served last, wrapping, among those with pending work (R156; log 49). -/
def Pkg.nextQueue (g : Pkg) (site : Nat) : Option Nat :=
  let qs := sortBy (fun a b => decide (a ≤ b)) (((g.qops.filter (fun x => x.site == site)).map (·.qid)).filter (g.queueWork site))
  let last := mget 4095 g.qlast site
  match qs.find? (fun q => decide (last < q)) with
  | some q => some q
  | none => qs.head?

/-- Issue of a queue instruction: where it goes, or the trap (R131, R143). -/
def Pack.queueTo (s : Pack) (t : Tid) (v : Word) : Option (Nat × Nat × Nat × Nat) :=
  match qidOf v with
  | none => none
  | some (pos, q) =>
    match s.at t.pkg pos with
    | none => none
    | some pk => ((s.g pk).home q).map (fun hs => (pos, q, pk, hs))

/-- Sends a request to a queue's home. -/
def Pack.sendReq (s : Pack) (pk hs q n : Nat) (r : OpRec) : Pack :=
  s.on pk (fun g => { g with qops := g.qops ++ [{ seq := r.seq, r := r, site := hs, qid := q, n := n }] })

/-- The body of a queue instruction that goes to the home engine and lets the thread go on or wait; with the engine's input queue full it waits (R92). -/
def qBody (op : Op) (t : Tid) (f : Fields) (n : Nat) (vals : Thread → List Word) (after : Nat → Nat → Next) : Body := fun th s =>
  match s.queueTo t (th.s f.b.toNat) with
  | none => (s, .trap 1 none)
  | some (pos, q, pk, hs) =>
    let r := mkOp (s.g t.pkg) op t f th (vals th)
    if (s.g pk).engRoom hs then (s.sendReq pk hs q n r, after pos q) else (s, .wait (.room r 0 none))

/-- QPUSH (R104, R131): N credits the unit holds are consumed, else the thread waits for them. -/
def qpushBody (t : Tid) (f : Fields) : Body := fun th s =>
  let n := f.i 7 0
  let a := th.s f.a.toNat
  match s.queueTo t (th.s f.b.toNat) with
  | none => (s, .trap 1 none)
  | some (pos, q, pk, hs) =>
    let g := s.g t.pkg
    let r := mkOp g .qpush t f th [a, th.s f.b.toNat]
    if a.toNat % 64 ≠ 0 then (s, .trap 5 (some a))
    else
      let c := g.credits t.site t.unit pos q
      if n ≤ c ∧ !(s.g pk).engRoom hs then (s, .wait (.room r 0 none))
      else if n ≤ c then
        let s := s.on t.pkg (fun g => (g.setCredits t.site t.unit pos q (c - n)).book 1 t.site (-(n : Int)))
        let s := if pk = t.pkg then s else s.on t.pkg (fun g => g.flow 1 g.step true n)
        (s.sendReq pk hs q n r, .adv)
      else
        match (s.g pk).qFault hs q with
        | some x => (s, .trap x none)
        | none => if n ≤ (s.g pk).qSize hs q then (s, .wait (.push r)) else (s, .trap 6 none)

/-- QPOP (R105, R131). With its timer expired it goes to its queue's home only where it can be met at once, or must be refused there (R139). -/
def qpopBody (t : Tid) (f : Fields) : Body := fun th s =>
  let n := f.i 7 0
  let a := th.s f.a.toNat
  let g := s.g t.pkg
  match s.queueTo t (th.s f.b.toNat), g.namedTimer (f.ib 8) (th.s f.c.toNat) with
  | none, _ => (s, .trap 1 none)
  | some _, none => (s, .trap 6 none)
  | some (pos, q, pk, hs), some tmr =>
    if a.toNat % 64 ≠ 0 then (s, .trap 5 (some a))
    else
      let h := s.g pk
      let line := h.qops.any (fun x => x.site == hs && x.qid == q && x.r.op == .qpop)
      let met := (h.qFault hs q).isSome || (decide (n ≤ (h.ix hs q).ready) && !line)
      let r := mkOp g .qpop t f th [a]
      if tmr.any g.tmrExp && !met then (s.onTh t (fun x => x.setPred f.d.toNat false), .adv)
      else if !h.engRoom hs then (s, .wait (.room r f.d.toNat tmr))
      else (s.sendReq pk hs q n r, .wait (.qpop pos q n f.d.toNat tmr))

/-- CTAKE (R104, R105, R132, R153). -/
def ctakeBody (t : Tid) (f : Fields) : Body := fun th s =>
  let n := f.i 7 0
  let g := s.g t.pkg
  match s.queueTo t (th.s f.b.toNat), g.namedTimer (f.ib 8) (th.s f.c.toNat) with
  | none, _ => (s, .trap 1 none)
  | some _, none => (s, .trap 6 none)
  | some (pos, q, pk, hs), some tmr =>
    let h := s.g pk
    let room := g.credRoom t.site t.unit pos q
    let line := h.qops.any (fun x => x.site == hs && x.qid == q && x.r.op == .ctake)
    let met := room && ((h.qFault hs q).isSome || (decide (n ≤ h.avail hs q) && !line))
    let r := mkOp g .ctake t f th []
    if tmr.any g.tmrExp && !met then (s.onTh t (fun x => x.setPred f.d.toNat false), .adv)
    else if !room then (s, .wait (.credTab f.d.toNat tmr))
    else if !h.engRoom hs then (s, .wait (.room r f.d.toNat tmr))
    else (s.sendReq pk hs q n r, .wait (.ctake pos q n f.d.toNat tmr))

/-- A refused doorbell (R154). -/
def Pkg.doorNo (g : Pkg) (site q op n : Nat) : Pkg := g.logAt 0x0105 site 0xFF 0xFF q op n

/-- A doorbell at a queue's home (R154). One whose N its field forbids moves nothing: R10 lets an unpredictable result create or lose no entry and no credit (R368; log 113). -/
def Pack.door (s : Pack) (k site q op n upset : Nat) : Pack :=
  let g := s.g k
  let i := g.ix site q
  if op = 0 ∨ n = 0 ∨ 32768 < n then s
  else if g.qState site q ≠ 1 then s.on k (fun g => g.doorNo site q op n)
  else if op = 1 then
    if g.qProd site q ≠ 1 then s.on k (fun g => g.doorNo site q op n)
    else if g.avail site q < n then s.on k (fun g => g.logAt 0x0106 site 0xFF 0xFF q n (g.avail site q))
    else
      let s := s.on k (fun g => g.setCred site q (g.avail site q - n) (g.outc site q))
      (s.moveIx k site q upset { i with p := (i.p + n) % 65536 }).on k (fun g => g.pushVec q)
  else if !g.qChost site q then s.on k (fun g => g.doorNo site q op n)
  else
    let m := min n i.ready
    let s := if m < n then s.on k (fun g => g.logAt 0x0104 site 0xFF 0xFF q n m) else s
    let c := (i.c + m) % 65536
    if op = 2 then s.moveIx k site q upset { i with c := c }
    else
      let l := (i.l + m) % 65536
      let mk := if ringDist i.m i.l < m then l else i.m
      let s := s.on k (fun g => g.setCred site q (g.avail site q + m) (g.outc site q))
      s.moveIx k site q upset { p := i.p, c := c, m := mk, l := l }

/-- Kennel share of region `r` of a die, in bytes (R386). -/
def Pkg.share (g : Pkg) (site r : Nat) : Nat := g.rf (rKshr site) (8 * r + 4) (8 * r) * 262144

/-- The span of a queue: its ring, and for class 0b10 its data area (R144, R226). -/
def Pkg.qSpan (g : Pkg) (site q : Nat) : Nat := (if qClass q = 2 then 2112 else 64) * g.qSize site q

/-- BASE lies where R144 allows it. DEDUCED, log 112: the stack is one of the queue's own package, whose POSITION BASE names. -/
def Pkg.baseOk (g : Pkg) (site q : Nat) : Bool :=
  let a := g.qBase site q
  let st := (a >>> 52) % 64
  let sp := (a >>> 48) % 16
  let off := a % 2 ^ 48
  let n := g.qSpan site q
  decide (a % 64 = 0) && a >>> 58 == g.pos &&
    (if sp = 2 then
       st == site && decide (off < 2 ^ 24) &&
         decide (off % 2 ^ 22 + n ≤ 2 ^ 22 - g.share site (off / 2 ^ 22)) && g.regionOn site (off / 2 ^ 22)
     else if sp = 8 then
       decide (48 ≤ st ∧ st < 60) && decide (off + n ≤ 0x1800000000) && g.stackOn (st - 48)
     else false)

/-- The configuration checks of R159. -/
def Pkg.qCfgOk (g : Pkg) (site q : Nat) : Bool :=
  let c := qClass q
  let p := g.qProd site q
  let l := g.rf (rQ site q 0) 19 16
  decide (4 ≤ l) &&
    (match c with
     | 0 => p == 0 || p == 1
     | 1 => p == 0
     | 2 => p == 0 || p == 2
     | _ => p == 0 || p == 1) &&
    (!g.qChost site q || c == 0) && (!g.qInput site q || p == 1) && g.baseOk site q

/-- A passing enable: credits and data position as R159 sets them. -/
def Pkg.qArm (g : Pkg) (site q : Nat) : Pkg :=
  let g := g.wr (rQ site q 0) (setF (setB (g.rd (rQ site q 0)) 31 true) 30 29 1)
  let g := g.setCred site q (g.qSize site q) 0
  let g := (g.wr (rQ site q 0x20) (mk32 g.step)).wr64 (rQ site q 0x24) (rQ site q 0x28) 0
  { g with booked := mins (mins g.booked (2 * 2 ^ 32 + site * 4096 + q) 0) (8 * 2 ^ 32 + site * 4096 + q) (g.qSize site q) }

/-- A write to QUEUE.CFG (R159). -/
def Pack.qCfgWrite (s : Pack) (k site q : Nat) (v : W32) : Pack :=
  let g := s.g k
  let a := rQ site q 0
  if g.qEn site q then
    if bit v 31 then s
    else
      let i := g.ix site q
      if ringDist i.p i.l ≠ 0 ∨ g.outc site q ≠ 0 then s.on k (fun g => g.wb (rQ site q 0x1C) 2 true)
      else
        let s := s.on k (fun g =>
          let g := g.wr a (setF (setB (g.rd a) 31 false) 30 29 0)
          { g with booked := mins g.booked (8 * 2 ^ 32 + site * 4096 + q) 0 })
        s.endQueueWaits k q 1
  else
    let w := setF (setF (g.rd a) 25 22 (fld v 25 22)) 21 16 (fld v 21 16)
    let s := s.on k (fun g => g.wr a w)
    if bit v 31 then
      let g := s.g k
      if g.qCfgOk site q then (s.moveIx k site q 0 { p := 0, c := 0, m := 0, l := 0 }).on k (fun g => g.qArm site q) else s.on k (fun g => g.wb (rQ site q 0x1C) 3 true)
    else s

/-- The seal's update of an input queue (R161). -/
def Pack.qSeal (s : Pack) (k site q next : Nat) : Pack :=
  let i := (s.g k).ix site q
  let n := ringDist i.c i.l
  let s := s.on k (fun g =>
    let g := g.setCred site q (g.avail site q + n) (g.outc site q)
    let g := g.wr64 (rQ site q 0x24) (rQ site q 0x28) (g.rd64 (rQ site q 0x24) (rQ site q 0x28) + n)
    g.wr (rQ site q 0x20) (mk32 next))
  s.moveIx k site q 0 { i with l := i.c, m := i.c }

/-- The revert action of a queue: 1 KEEP, 2 FLUSH, 3 REWIND (R162). -/
def Pkg.qAction (g : Pkg) (site q : Nat) : Nat :=
  if g.qInput site q then 3
  else match g.rf (rQ site q 0) 25 24 with
    | 0 => if qClass q = 0 ∨ qClass q = 3 then 1 else 2
    | n => n

/-- A queue is flushed (R162, R352): every entry and credit of it is gone, booked as REVERT (R317). -/
def Pack.qFlush (s : Pack) (k site q : Nat) : Pack :=
  let g := s.g k
  let i := g.ix site q
  let n := ringDist i.p i.l
  let s := s.on k (fun g => (g.setCred site q (g.qSize site q) 0).addSat (rRecl 2) n)
  (s.moveIx k site q 0 { p := i.p, c := i.p, m := i.p, l := i.p }).clearCredits k q

/-- A queue takes its revert action (R162); flushed entries are booked as REVERT (R317). -/
def Pack.qRevert (s : Pack) (k site q : Nat) : Pack :=
  let g := s.g k
  let i := g.ix site q
  match g.qAction site q with
  | 3 => s.moveIx k site q 0 { i with c := i.m }
  | 2 => s.qFlush k site q
  | _ => s

/-- The queues that are mapped and enabled at their home, as (site, QID). -/
def Pkg.liveQueues (g : Pkg) : List (Nat × Nat) :=
  g.regs.filterMap (fun p =>
    let site := p.1 / 0x100000
    let off := p.1 % 0x100000
    if site < 48 ∧ 0x80000 ≤ off ∧ off < 0xC0000 ∧ off % 0x40 = 0 ∧ bit p.2 31 then
      (let q := (off - 0x80000) / 0x40
       if g.home q = some site then some (site, q) else none)
    else none)

end Sys2Proof.Machine
end

