-- ==== Sys2Proof/Machine/PipeOps.lean ====
section
/-! DEFINITION. Thin stages, the micro-batch table, the Kennel, the pipeline registers and the Kennel shares (R133 to R135, R163 to R184, R386). -/

set_option linter.unusedVariables false

namespace Sys2Proof.Machine

/-- CLUS.TMAP of cluster `c`, its LO or HI word. -/
def rTmap (site c hi : Nat) : Nat := rk site (0x2000 + 8 * c + 4 * hi)

/-- The thin stage of a thread (R163): none where V = 0. -/
def Pkg.stageOf (g : Pkg) (t : Tid) : Option Nat :=
  let w := g.rd (rTmap t.site (t.unit / 4) (t.thr / 8))
  let n := 4 * (t.thr % 8)
  if bit w (n + 3) then some (fld w (n + 2) n) else none

/-- A register of thin stage `j`, of MBT entry `n`. -/
def rStage (j o : Nat) : Nat := hubR (0x6000 + 0x40 * j + o)
def rMbt (n o : Nat) : Nat := hubR (0x10000 + 0x20 * n + o)

/-- Fields of a stage. -/
def Pkg.stEn (g : Pkg) (j : Nat) : Bool := g.rb (rStage j 0) 27
def Pkg.stKcap (g : Pkg) (j : Nat) : Nat := g.rf (rStage j 4) 17 0
def Pkg.stInfl (g : Pkg) (j : Nat) : Nat := g.rf (rStage j 0x14) 9 0
def Pkg.stUsed (g : Pkg) (j : Nat) : Nat := g.rf (rStage j 0x18) 26 0

/-- The Kennel capacity of a stage in granules: that of an enabled stage (R133, R166, R383). -/
def Pkg.stCap (g : Pkg) (j : Nat) : Nat := if g.stEn j then g.stKcap j * 256 else 0

/-- Fields of an MBT entry. -/
def Pkg.mbHeld (g : Pkg) (n : Nat) : Bool := g.rb (rMbt n 0) 18
def Pkg.mbStage (g : Pkg) (n : Nat) : Nat := g.rf (rMbt n 0) 21 19
def Pkg.mbValid (g : Pkg) (n : Nat) : Bool := g.rb (rMbt n 0) 28
def Pkg.mbTag (g : Pkg) (n : Nat) : Nat := g.rf (rMbt n 0) 23 22
def Pkg.mbRecomp (g : Pkg) (n : Nat) : Bool := g.rb (rMbt n 0) 29
def Pkg.mbGran (g : Pkg) (n : Nat) : Nat := g.rf (rMbt n 0x10) 26 0

/-- Any reservation is held on the package. -/
def Pkg.anyHeld (g : Pkg) : Bool := (List.range 512).any (fun n => g.mbHeld n)

/-- READY of the gradient input queue of a stage (R175). -/
def Pkg.bqReady (g : Pkg) (j : Nat) : Nat :=
  let q := g.rf (rStage j 8) 27 16
  match g.home q with
  | some site => if g.qEn site q then (g.ix site q).ready else 0
  | none => 0

/-- The conditions of R175 for a request of `n` granules. -/
def Pkg.kGrantOk (g : Pkg) (j n : Nat) : Bool :=
  let c := g.rd (rStage j 0)
  decide (g.stUsed j + n ≤ g.stCap j) && (fld c 25 16 == 0 || decide (g.stInfl j < fld c 25 16)) &&
    (bit c 26 || g.bqReady j == 0)

/-- A reservation is made (R174). -/
def Pkg.kGrant (g : Pkg) (j mbid n : Nat) : Pkg :=
  let g := g.wr (rMbt mbid 0) (setB (setF (g.rd (rMbt mbid 0)) 21 19 j) 18 true)
  let g := g.wf (rMbt mbid 0x10) 26 0 n
  ((g.wf (rStage j 0x14) 9 0 (g.stInfl j + 1)).wf (rStage j 0x18) 26 0 (g.stUsed j + n)).book 3 j n

/-- The threads that wait in KRESERVE for a stage, oldest first. -/
def Pkg.kLine (g : Pkg) (j : Nat) : List Nat :=
  g.waiters (fun _ w => match w with
    | .kres i _ _ _ => i == j
    | _ => false)

/-- Granules of a byte count (R174). -/
def granules (n : Nat) : Nat := (n + 4095) / 4096

/-- KRESERVE (R133, R163, R175). -/
def kreserveBody (t : Tid) (f : Fields) : Body := fun th s =>
  let g := s.g t.pkg
  let mbid := (th.s f.b.toNat).toNat % 2 ^ 16
  let n := (th.s f.c.toNat).toNat
  let pd (b : Bool) (s : Pack) : Pack := s.onTh t (fun x => x.setPred f.d.toNat b)
  if !g.pipeOn then (s, .trap 2 none)
  else if 511 < mbid ∨ n % 64 ≠ 0 then (s, .trap 6 none)
  else if g.mbHeld mbid then (s, .trap 6 none)
  else match g.stageOf t with
    | none => (pd false s, .adv)
    | some j =>
      let m := granules n
      if g.stCap j < m then (pd false s, .adv)
      else if g.kLine j = [] ∧ g.kGrantOk j m then
        (pd true (s.on t.pkg (fun g => g.kGrant j mbid m)), .adv)
      else (s, .wait (.kres j mbid n f.d.toNat))

/-- The oldest waiting KRESERVE of a stage is granted when it can be (R175). One whose MBID has gained a reservation since it began to wait keeps its place, neither granted nor faulted: the spec does not say what becomes of it (DESIGN CHOICE, log 116). -/
def Pkg.kServe (g : Pkg) (j : Nat) : Pkg :=
  match g.kLine j with
  | [] => g
  | key :: _ =>
    match (mget ({} : Thread) g.thr key).wait with
    | some (.kres _ mbid n pd) =>
      if g.kGrantOk j (granules n) && !g.mbHeld mbid then (g.kGrant j mbid (granules n)).release key pd true else g
    | _ => g

/-- KFREE's effect on the entry (R177). -/
def Pkg.kFree (g : Pkg) (mbid : Nat) : Pkg :=
  let j := g.mbStage mbid
  let n := g.mbGran mbid
  let g := if g.mbHeld mbid then
      ((g.wf (rStage j 0x14) 9 0 (g.stInfl j - 1)).wf (rStage j 0x18) 26 0 (g.stUsed j - n)).book 3 j (-(n : Int))
    else g
  let c := g.rd (rMbt mbid 0)
  let g := g.wr (rMbt mbid 0) (setB (setF c 30 29 0) 18 false)
  let g := (g.wf (rMbt mbid 0x10) 26 0 0).wr (rMbt mbid 0xC) 0xFFFFFFFF#32
  { g with kst := g.kst.filter (fun c => c.1 / 2 ^ 40 != mbid) }

/-- Kennel operations handed over for an MBID. -/
def Pkg.kBusy (g : Pkg) (mbid : Nat) : Bool :=
  g.eops.any (fun r => (r.op == .kstash || r.op == .kfetch) && (r.v.getD 0 0).toNat % 2 ^ 16 == mbid)

/-- KFREE (R135, R177): after every KSTASH and KFETCH already handed over for the MBID. -/
def kfreeBody (t : Tid) (f : Fields) : Body := fun th s =>
  let g := s.g t.pkg
  let mbid := (th.s f.b.toNat).toNat % 2 ^ 16
  if !g.pipeOn then (s, .trap 2 none)
  else if 511 < mbid then (s, .trap 6 none)
  else if g.kBusy mbid then s.hand (mkOp g .kfree t f th [th.s f.b.toNat])
  else (s.on t.pkg (fun g => g.kFree mbid), .adv)

/-- Bytes of a record (R134). -/
def recBytes (d : Tile) : Nat := 128 * fmtBits d.fmt + (if d.blk then 64 else 0)

/-- A span of a reservation overlaps the anchor range of a stage; an empty range holds nothing (R165, R178). -/
def Pkg.inAnchor (g : Pkg) (j off n : Nat) : Bool :=
  let lo := (g.rd (rStage j 0xC)).toNat
  let hi := (g.rd (rStage j 0x10)).toNat
  decide (lo < hi ∧ off / 64 < hi ∧ lo < (off + n + 63) / 64)

/-- A span of a reservation overlaps the anchor range of an enabled stage (R178). -/
def Pkg.anchored (g : Pkg) (off n : Nat) : Bool :=
  (List.range 8).any (fun j => g.stEn j && g.inAnchor j off n)

/-- The global number of the thin stage whose anchor range an overrun overlaps (R165). -/
def Pkg.anchorStage (g : Pkg) (off n : Nat) : Nat :=
  g.rf (rStage (((List.range 8).find? (fun j => g.stEn j && g.inAnchor j off n)).getD 0) 0) 8 0

/-- What an overrun does to the micro-batch (R178), and the revert request of an orphan. -/
def Pkg.overrun (g : Pkg) (t : Tid) (mbid off n : Nat) : Pkg :=
  let g := g.wb (rMbt mbid 0) 29 true
  let g := if (g.rd (rMbt mbid 0xC)).toNat = 0xFFFFFFFF then g.wr (rMbt mbid 0xC) (mk32 (off / 64)) else g
  if g.anchored off n then
    ((g.wb (rMbt mbid 0) 30 true).logAt 0x0205 t.site t.unit t.thr mbid (off / 64) (g.anchorStage off n)).send
      (.revertReq g.pos 0x0205)
  else g

/-- A format whose records R134 gives a size; O8 the engine itself refuses (R38). -/
def kFmtOk (d : Tile) : Bool := d.fmt != .a32

/-- KSTASH (R112, R134, R178). -/
def kstashBody (t : Tid) (f : Fields) : Body := fun th s =>
  let g := s.g t.pkg
  let mbid := (th.s f.b.toNat).toNat % 2 ^ 16
  let off := (th.s f.c.toNat).toNat
  let d := th.td f.a.toNat
  match firstBad [need g.pipeOn 2, need (decide (mbid ≤ 511)) 6, tileChk d, need (kFmtOk d) 6, need (off % 64 == 0) 5,
      viewChk s t d 32 32] with
  | some x => (s, .trap x.1 x.2)
  | none =>
    if g.mbGran mbid * 4096 < off + recBytes d ∨ !g.mbHeld mbid then
      let s := s.on t.pkg (fun g => g.overrun t mbid off (recBytes d))
      let s := if bit th.theh 17 then s
        else s.on t.pkg (fun g => g.logAt 0x0102 t.site t.unit t.thr mbid (off / 64) 0)
      -- the KSTASH has ended, and delivers its count (R103, R170)
      (s.on t.pkg (fun g => g.complete t f), .trap 0x10 none)
    else s.hand (mkOp g .kstash t f th [th.s f.b.toNat, th.s f.c.toNat])

/-- KFETCH (R135). -/
def kfetchBody (t : Tid) (f : Fields) : Body := fun th s =>
  let g := s.g t.pkg
  let mbid := (th.s f.b.toNat).toNat % 2 ^ 16
  let off := (th.s f.c.toNat).toNat
  let d := th.td f.d.toNat
  match firstBad [need g.pipeOn 2, need (decide (mbid ≤ 511)) 6, tileChk d, need (kFmtOk d) 6, need (off % 64 == 0) 5] with
  | some x => (s, .trap x.1 x.2)
  | none =>
    if g.mbGran mbid * 4096 < off + recBytes d ∨ !g.mbHeld mbid then (s, .trap 1 none)
    else s.hand (mkOp g .kfetch t f th [th.s f.b.toNat, th.s f.c.toNat])

/-- The key of a byte of a reservation. -/
def kkey (mbid off : Nat) : Nat := mbid * 2 ^ 40 + off

/-- Writes the bytes of a record. -/
def Pkg.kWrite (g : Pkg) (mbid off : Nat) : List Byte → Pkg
  | [] => g
  | b :: r => Pkg.kWrite { g with kst := mins g.kst (kkey mbid off) b } mbid (off + 1) r

/-- Takes the bytes of a span of a reservation as never stashed. -/
def Pkg.kForget (g : Pkg) (mbid off n : Nat) : Pkg :=
  { g with kst := g.kst.filter (fun c => !decide (kkey mbid off ≤ c.1 ∧ c.1 < kkey mbid off + n)) }

/-- Performs a KSTASH (R134, R179): the window's elements, then its 32 block exponents; what fills the other 32 bytes that R134 gives a blocked record is not stated, and they read as never stashed (log 102). -/
def Pack.runKstash (s : Pack) (r : OpRec) : Pack :=
  let t := r.t
  let g := s.g t.pkg
  let mbid := (r.v.getD 0 0).toNat % 2 ^ 16
  let off := (r.v.getD 1 0).toNat
  if isO8 r.ta.fmt then s.on t.pkg (fun g => g.engErr t.site t.unit 7 r.ta.base)
  else if g.mbRecomp mbid && !g.anchored off (recBytes r.ta) then s
  else
    match s.viewBad t r.ta 32 32 with
    | some p => s.on t.pkg (fun g => g.engErr t.site t.unit 7 p.2)
    | none =>
      let cs := (s.codes t r.ta 32 32).flatMap (bytesOf r.ta.fmt)
      let es := if r.ta.blk then
          (if r.ta.baxis == 0 then (s.exps t r.ta 32 32).map (fun x => BitVec.ofNat 8 ((x.headD none).getD 0))
           else (((s.exps t r.ta 32 32).headD []).map (fun x => BitVec.ofNat 8 (x.getD 0))))
        else []
      s.on t.pkg (fun g => (g.kForget mbid off (recBytes r.ta)).kWrite mbid off (cs ++ es))

/-- The bytes of a span of a reservation: one never stashed reads as the arena last held it, a free value that stays until it is written (R135, log 3). -/
def Pack.kRead (s : Pack) (k mbid off n : Nat) : List Byte × Pack :=
  let g := s.g k
  let bs := (List.range n).map (fun i =>
    match g.kst.find? (fun c => c.1 == kkey mbid (off + i)) with
    | some c => c.2
    | none => BitVec.ofNat 8 (Config.freeValue (s.fresh + i)))
  (bs, { s with fresh := s.fresh + n }.on k (fun g => g.kWrite mbid off bs))

/-- Performs a KFETCH (R135). -/
def Pack.runKfetch (s : Pack) (r : OpRec) : Pack :=
  let t := r.t
  let mbid := (r.v.getD 0 0).toNat % 2 ^ 16
  let off := (r.v.getD 1 0).toNat
  let d := r.td
  if isO8 d.fmt then s.on t.pkg (fun g => g.engErr t.site t.unit 7 d.base)
  else
  match s.viewBad t d 32 32 with
  | some p => s.on t.pkg (fun g => g.engErr t.site t.unit 7 p.2)
  | none =>
    let x := s.kRead t.pkg mbid off (recBytes d)
    let n := rowBytes d.fmt 32
    let codes := (List.range 32).map (fun i => codesOf d.fmt ((x.1.drop (n * i)).take n))
    let es := ((x.1.drop (32 * n)).take 32).map (·.toNat)
    let exps := if !d.blk then [] else if d.baxis == 0 then es.map (fun e => [e]) else [es]
    x.2.wrView t d codes exps

/-- The sum of KCAP over the enabled stages but `j`. -/
def Pkg.kcapSum (g : Pkg) (j : Nat) : Nat :=
  (List.range 8).foldl (fun n i => if g.stEn i ∧ i ≠ j then n + g.stKcap i else n) 0

/-- A write to a register of stage `j` (R166): `o` its place in the stage. Posted under STAGE.CTL.BUSY. -/
def Pkg.stageWrite (g : Pkg) (j o : Nat) (v : W32) : Pkg :=
  if 0x20 ≤ o ∧ o < 0x40 then g.wr (rStage j o) v
  else if o = 0 then
    let a := rStage j 0
    let c := g.rd a
    let c := setF c 30 28 (fld c 30 28 &&& (7 - fld v 30 28))
    let g := g.wr a c
    if bit c 27 then
      if bit v 27 then g
      else if g.stInfl j ≠ 0 then g.wb a 28 true
      else g.wb a 27 false
    else
      let old := g
      let g := g.wr a (setF (setF c 26 16 (fld v 26 16)) 8 0 (fld v 8 0))
      if !bit v 27 then g
      else
        let fq := g.rf (rStage j 8) 11 0
        let bq := g.rf (rStage j 8) 27 16
        if fq < 512 ∨ 2559 < fq ∨ bq < 512 ∨ 2559 < bq ∨ (g.rd (rStage j 0x10)).toNat < (g.rd (rStage j 0xC)).toNat then
          g.wb a 29 true
        -- a CONFLICT refuses the request whole (R383)
        else if g.rf rKpool 18 0 < g.kcapSum j + g.stKcap j then old.wb a 30 true
        else g.wb a 27 true
  else if g.stEn j then g
  else match o with
    | 4 => g.wf (rStage j 4) 17 0 (fld v 17 0)
    | 8 => g.wr (rStage j 8) (setF (setF 0 27 16 (fld v 27 16)) 11 0 (fld v 11 0))
    | 0xC | 0x10 => g.wr (rStage j o) v
    | _ => g

/-- The Kennel shares of every die, in units of 256 KiB, with those of `site` replaced by `w`. -/
def Pkg.shareSum (g : Pkg) (site : Nat) (w : W32) : Nat :=
  (List.range 48).foldl (fun n s =>
    let x := if s = site then w else g.rd (rKshr s)
    n + fld x 4 0 + fld x 12 8 + fld x 20 16 + fld x 28 24) 0

/-- KPOOL for given shares and overflow, in MiB (R173). -/
def kpoolOf (shares kovf : Nat) : Nat := shares / 4 + kovf * 1024

/-- KPOOL follows the shares and the overflow (R173, R386). -/
def Pkg.poolSet (g : Pkg) : Pkg := g.wf rKpool 18 0 (kpoolOf (g.shareSum 48 0) (g.rf rPipeSpill 8 0))

/-- A write to PIPE.SPILL (R173, R383). -/
def Pkg.spillWrite (g : Pkg) (v : W32) : Pkg :=
  let a := rPipeSpill
  let g := g.wr a (setB (g.rd a) 31 (bit (g.rd a) 31 && !bit v 31))
  let kovf := fld v 8 0
  let dstg := fld v 24 16
  let pool := kpoolOf (g.shareSum 48 0) kovf
  if 256 < kovf ∨ 24 < (kovf + 11) / 12 + (dstg + 11) / 12 ∨ pool < g.kcapSum 8 then g.wb a 31 true
  else if g.anyHeld then g.wb rPipeMode 30 true
  else ((g.wf a 8 0 kovf).wf a 24 16 dstg).wf rKpool 18 0 pool

/-- A write to PIPE.MODE (R184): refused while an MBT entry is valid or a stage is enabled, also where it changes nothing (log 103). MODE 0b11 is a free value (R10, R368, log 3). -/
def Pack.modeWrite (s : Pack) (k : Nat) (v : W32) : Pack :=
  let s := s.on k (fun g => g.wr rPipeMode (setB (g.rd rPipeMode) 30 (g.rb rPipeMode 30 && !bit v 30)))
  let g := s.g k
  let m := fld v 1 0
  if (List.range 512).any (fun n => g.mbValid n) || (List.range 8).any (fun j => g.stEn j) then
    s.on k (fun g => g.wb rPipeMode 30 true)
  else if m = 3 then
    let d := s.draw
    d.2.on k (fun g => g.wf rPipeMode 1 0 (d.1 % 4))
  else s.on k (fun g => g.wf rPipeMode 1 0 m)

/-- Moves a reference count of a version tag (R171, R316 kind 4). -/
def Pkg.vref (g : Pkg) (t : Nat) (up : Bool) : Pkg :=
  let n := g.rf (rVref t) 9 0
  (g.wf (rVref t) 9 0 (if up then n + 1 else n - 1)).book 4 t (if up then 1 else -1)

/-- A write to a register of MBT entry `n` (R170, R171). -/
def Pkg.mbtWrite (g : Pkg) (n o : Nat) (v : W32) : Pkg :=
  match o with
  | 0 =>
    let c := g.rd (rMbt n 0)
    let was := bit c 28
    let now := bit v 28
    if was && !now && bit c 18 then g.logHub 0x0107 n 0 0
    else if now && bit v 27 != (g.mode == 2) then g.logHub 0x0108 n g.mode 0
    else
      let t0 := fld c 23 22
      let t1 := fld v 23 22
      let g := g.wr (rMbt n 0) (setF (setF c 28 22 (fld v 28 22)) 15 0 (fld v 15 0))
      if !was && now then g.vref t1 true
      else if was && !now then g.vref t0 false
      else if was && now && t0 != t1 then (g.vref t0 false).vref t1 true
      else g
  | 4 | 8 | 0x14 | 0x18 | 0x1C => g.wr (rMbt n o) v
  | _ => g

/-- A thread is IDLE or FAULT on all four units of a cluster (R164). -/
def Pkg.quietThread (g : Pkg) (site c n : Nat) : Bool :=
  (List.range 4).all (fun u =>
    let st := (mget ({} : Thread) g.thr (uk site (4 * c + u) * 16 + n)).st
    st == .idle || st == .fault)

/-- A write to CLUS.TMAP (R164): the entries of quiet threads change. -/
def Pkg.tmapWrite (g : Pkg) (site c hi : Nat) (v : W32) : Pkg :=
  let a := rTmap site c hi
  g.wr a ((List.range 8).foldl (fun w n =>
    if g.quietThread site c (8 * hi + n) then setF w (4 * n + 3) (4 * n) (fld v (4 * n + 3) (4 * n)) else w) (g.rd a))

/-- New shares would cover the ring of an enabled queue (R386). -/
def Pkg.shareCovers (g : Pkg) (site : Nat) (w : W32) : Bool :=
  g.liveQueues.any (fun p =>
    let a := g.qBase p.1 p.2
    let off := a % 2 ^ 48
    p.1 == site && (a >>> 48) % 16 == 2 &&
      decide (2 ^ 22 - fld w (8 * (off / 2 ^ 22) + 4) (8 * (off / 2 ^ 22)) * 262144 < off % 2 ^ 22 + g.qSpan p.1 p.2))

/-- A write to DIE.KSHR (R386): whole, or refused with CFGE, HELD or CONF. -/
def Pkg.kshrWrite (g : Pkg) (site : Nat) (v : W32) : Pkg :=
  let w := mk32 (fld v 4 0 + at' (fld v 12 8) 8 + at' (fld v 20 16) 16 + at' (fld v 28 24) 24)
  let pool := kpoolOf (g.shareSum site w) (g.rf rPipeSpill 8 0)
  if 16 < fld v 4 0 ∨ 16 < fld v 12 8 ∨ 16 < fld v 20 16 ∨ 16 < fld v 28 24 then g.wb (rGstat site) 3 true
  else if !g.calm ∨ g.anyHeld then g.wb (rGstat site) 2 true
  else if pool < g.kcapSum 8 ∨ g.shareCovers site w then g.wb (rGstat site) 1 true
  else (g.wr (rKshr site) w).wf rKpool 18 0 pool

/-- Every waiting KRESERVE ends with pd := 0 (R183). -/
def Pkg.endKres (g : Pkg) : Pkg :=
  (g.waiters (fun _ w => match w with | .kres .. => true | _ => false)).foldl (fun g key =>
    g.release key (((mget ({} : Thread) g.thr key).wait.map Wait.pd).getD 0) false) g

/-- Every MBT entry at its reset value, and its reference returned (R183). -/
def Pkg.mbtReset (g : Pkg) : Pkg :=
  (List.range 512).foldl (fun g n =>
    let g := g.kFree n
    let g := if g.mbValid n then g.vref (g.mbTag n) false else g
    [0, 4, 8, 0x10, 0x14, 0x18, 0x1C].foldl (fun g o => g.wr (rMbt n o) 0) g) g

/-- The pipeline's part of a revert to seal `s` (R183): the waiting KRESERVEs have ended when the threads were stopped. -/
def Pkg.pipeRevert (g : Pkg) (step : Nat) : Pkg :=
  (List.range 512).foldl (fun g n =>
    if later (g.rd (rMbt n 4)).toNat step then
      let held := g.mbGran n
      let g := if g.mbHeld n then (g.kFree n).addSat (rRecl 2) held else g.kFree n
      let g := if g.mbValid n then (g.vref (g.mbTag n) false).addSat (rRecl 2) 1 else g
      g.wr (rMbt n 0) (setF (setB (g.rd (rMbt n 0)) 28 false) 26 24 0)
    else g) g

end Sys2Proof.Machine
end

