-- ==== Sys2Proof/Machine/ScaleOps.lean ====
section
/-! DEFINITION. The scale table and its warm-up exchange, and the stream slots (R49 to R58, R78 to R86). -/

set_option linter.unusedVariables false

namespace Sys2Proof.Machine

/-- History entry `i` of a slot, 0 the newest. -/
def Pkg.hist (g : Pkg) (site n i : Nat) : Nat :=
  let w := g.rd (rScale site n (0x10 + 4 * (i / 2)))
  if i % 2 = 0 then fld w 15 0 else fld w 31 16

/-- Writes a history of 32 entries. -/
def Pkg.setHist (g : Pkg) (site n : Nat) (h : List Nat) : Pkg :=
  (List.range 16).foldl (fun g i =>
    g.wr (rScale site n (0x10 + 4 * i)) (mk32 (h.getD (2 * i) 0 + 65536 * h.getD (2 * i + 1) 0))) g

/-- CUR := scale_from(h) with ERR and SAT (R53). -/
def Pkg.setCur (g : Pkg) (site n h : Nat) : Pkg :=
  let c := g.rd (rScale site n 0)
  let r := scaleFrom h (fld c 4 1) (fld c 13 10) (g.cur site n)
  let g := g.wf (rScale site n 4) 15 0 r.1
  let g := if r.2.1 then g.wb (rScale site n 0) 29 true else g
  if r.2.2 then g.wb (rScale site n 0) 28 true else g

/-- The warm-up length a slot enters with: HWARM, 4 where it is 0 (R50). -/
def warmLen (c : W32) : Nat := if fld c 17 14 = 0 then 4 else fld c 17 14

/-- The warm-up entry test of R55. -/
def Pkg.warmTest (g : Pkg) (site n : Nat) : Pkg :=
  let c := g.rd (rScale site n 0)
  if bit c 0 ∧ fld c 27 22 = 0 ∧ fld c 21 18 = 0 then g.wf (rScale site n 0) 21 18 (warmLen c) else g

/-- roll of R53. -/
def Pkg.roll (g : Pkg) (site n amax : Nat) : Pkg :=
  let c := g.rd (rScale site n 0)
  let h := amax :: (List.range 31).map (fun i => g.hist site n i)
  let fill := min (fld c 27 22 + 1) (fld c 9 5 + 1)
  let warm := fld c 21 18 - 1
  let g := g.setHist site n h
  let g := g.wr (rScale site n 0) (setF (setF c 27 22 fill) 21 18 warm)
  let g := if warm = 0 then g.setCur site n ((h.take fill).foldl hmax 0) else g
  let g := (g.wr (rScale site n 8) 0).wf (rScale site n 0xC) 31 16 0
  g.wb (rScale site n 0) 30 false

/-- The slots of the package with VALID = 1, as (site, slot). -/
def Pkg.validSlots (g : Pkg) : List (Nat × Nat) :=
  g.regs.filterMap (fun p =>
    let site := p.1 / 0x100000
    let off := p.1 % 0x100000
    if site < 48 ∧ 0x40000 ≤ off ∧ off < 0x80000 ∧ off % 0x80 = 0 ∧ bit p.2 0 then some (site, (off - 0x40000) / 0x80)
    else none)

/-- TAG of a slot. -/
def Pkg.slotTag (g : Pkg) (site n : Nat) : Nat := g.rf (rScale site n 0xC) 15 0

/-- Adds one copy to the combination of a group: AMAX by maximum, TOUCHED by OR (R52). -/
def addMax (x : ScaleMax) : List ScaleMax → List ScaleMax
  | [] => [x]
  | y :: r =>
    if x.slot = y.slot ∧ x.tag = y.tag then { y with amax := hmax x.amax y.amax, touched := x.touched || y.touched } :: r
    else y :: addMax x r

/-- The package's combinations for READY (R216). -/
def Pkg.scaleMaxes (g : Pkg) : List ScaleMax :=
  g.validSlots.foldl (fun l p =>
    let w := g.rd (rScale p.1 p.2 8)
    addMax { slot := p.2, tag := g.slotTag p.1 p.2, amax := fld w 15 0 % 0x8000, touched := bit w 16 } l) []

/-- Every tracked slot rolls with its group's combined values, then takes the entry test (R52, R53, R55). -/
def Pkg.rollAll (g : Pkg) (comb : List ScaleMax) : Pkg :=
  let g := g.validSlots.foldl (fun g p =>
    match comb.find? (fun x => x.slot == p.2 && x.tag == g.slotTag p.1 p.2) with
    | some x => (if x.touched then g.roll p.1 p.2 x.amax else g).warmTest p.1 p.2
    | none => g.warmTest p.1 p.2) g
  { g with armed := [], armDone := [] }

/-- A write of ARM = 1 (R57): the arm is sent to the leader once per step. -/
def Pkg.armSlot (g : Pkg) (site n : Nat) : Pkg :=
  let key := rScale site n 0
  if g.slotWarm site n = 0 ∨ g.slotArm site n ∨ g.armed.contains key then g
  else
    ({ g with armed := key :: g.armed }).send
      (.arm n (g.slotTag site n) (g.rf (rScale site n 0x50) 15 0) (g.rf (rScale site n 0xC) 31 16))

/-- A write to SCALE.CTL (R50, R55, R57). FILL changes only by a write of 0. -/
def Pkg.scaleCtl (g : Pkg) (site n : Nat) (v : W32) : Pkg :=
  let a := rScale site n 0
  let c := g.rd a
  let c := setF c 29 28 (fld c 29 28 &&& (3 - fld v 29 28))
  let c := if fld v 27 22 = 0 then setF c 27 22 0 else c
  let c := setF c 17 0 (fld v 17 0)
  let g := (g.wr a c).warmTest site n
  if bit v 30 then g.armSlot site n else g

/-- A write to a register of a scale slot (R50). -/
def Pkg.scaleWrite (g : Pkg) (site n o : Nat) (v : W32) : Pkg :=
  match o with
  | 0 => g.scaleCtl site n v
  | 4 =>
    let c := fld v 15 0
    if 0 < c ∧ c < 0x7F80 then g.wf (rScale site n 4) 15 0 c else g.wb (rScale site n 0) 29 true
  | 8 => g.wf (rScale site n 8) 16 0 (fld v 16 0)
  | 0xC => g.wr (rScale site n 0xC) v
  | 0x50 => g.wf (rScale site n 0x50) 15 0 (fld v 15 0)
  | _ => if 0x10 ≤ o ∧ o < 0x50 then g.wr (rScale site n o) v else g

/-- The leader combines one arm (R57): the group's entry, and the combined value once NCOPY arms are in. -/
def Pkg.armReceipt (g : Pkg) (slot tag ncopy pre : Nat) : Pkg :=
  if g.armDone.contains (slot, tag) then g
  else
    let e := (g.arms.find? (fun x => x.slot == slot && x.tag == tag)).getD { slot := slot, tag := tag, pre := 0, n := 0 }
    let rest := g.arms.filter (fun x => !(x.slot == slot && x.tag == tag))
    let e := { e with pre := hmax e.pre pre, n := e.n + 1 }
    if max ncopy 1 ≤ e.n then
      ({ g with arms := rest, armDone := (slot, tag) :: g.armDone }).send (.combined slot tag e.pre)
    else { g with arms := rest ++ [e] }

/-- A package sets CUR from the combined PRE on every copy in warm-up (R57). -/
def Pkg.armCombined (g : Pkg) (slot tag pre : Nat) : Pkg :=
  (List.range 48).foldl (fun g site =>
    if 0 < g.slotWarm site slot ∧ g.slotTag site slot = tag then
      (g.setCur site slot pre).wb (rScale site slot 0) 30 true
    else g) g

/-- A revert or a restore discards the warm-up exchange of the step: what the leader holds, and what has been sent (R57, R58). -/
def Pkg.armsClear (g : Pkg) : Pkg := { g with arms := [], armed := [], armDone := [] }

/-- The values in effect of a slot's registers, as written. -/
def Pkg.strmWritten (g : Pkg) (n : Nat) : Strm :=
  { ctl := mk32 (fld (g.rd (rStrm n 0)) 24 0), k0 := g.rd (rStrm n 4), k1 := g.rd (rStrm n 8),
    k2 := g.rd (rStrm n 0xC), k3 := g.rd (rStrm n 0x10) }

/-- VALID in effect of a slot. -/
def Pkg.strmValid (g : Pkg) (n : Nat) : Bool := bit (mget {} g.strm n).ctl 0

/-- A write of one word takes effect; a slot coming into use takes the running step and CURSOR 0 (R79). -/
def Pkg.strmEffect (g : Pkg) (x : StrmPost) : Pkg :=
  let e := mget {} g.strm x.slot
  let e' := match x.off with
    | 0 => { e with ctl := mk32 (fld x.v 24 0) }
    | 4 => { e with k0 := x.v }
    | 8 => { e with k1 := x.v }
    | 0xC => { e with k2 := x.v }
    | _ => { e with k3 := x.v }
  let g := { g with strm := mins g.strm x.slot e' }
  if !bit e.ctl 0 && bit e'.ctl 0 then (g.wr (rStrm x.slot 0x14) (mk32 g.step)).wr64 (rStrm x.slot 0x18) (rStrm x.slot 0x1C) 0
  else g

/-- The package is in P1: HELD or HALTED. -/
def Pkg.inP1 (g : Pkg) : Bool := g.phase == 3 || g.phase == 4

/-- A write to STREAM.CTL or a KEY word (R79): staged while VALID in effect is 1, else on its way to the replicas. -/
def Pkg.strmWrite (g : Pkg) (n o : Nat) (v : W32) : Pkg :=
  let a := rStrm n o
  let ctl := rStrm n 0
  let g :=
    if o = 0 then g.wr a (setB (setF (setF (g.rd a) 24 8 (fld v 24 8)) 0 0 (fld v 0 0)) 29 (g.rb a 29 && !bit v 29))
    else g.wr a v
  let x : StrmPost := { slot := n, off := o, v := g.rd a }
  if g.strmValid n then (if g.inP1 then g.strmEffect x else g.wb ctl 30 true)
  else { g with strmPost := g.strmPost ++ [x] }

/-- Posted writes of a slot reach every replica (R79, R379). -/
def Pkg.strmLand (g : Pkg) (n : Nat) : Pkg :=
  let xs := g.strmPost.filter (fun x => x.slot == n)
  xs.foldl Pkg.strmEffect { g with strmPost := g.strmPost.filter (fun x => x.slot != n) }

/-- The seal's update of every slot (R84): staged values, STEP and CURSOR. -/
def Pkg.strmSeal (g : Pkg) (next : Nat) : Pkg :=
  (g.strm.filter (fun p => bit p.2.ctl 0)).foldl (fun g p =>
    let n := p.1
    let g := (g.wr (rStrm n 0x14) (mk32 next)).wr64 (rStrm n 0x18) (rStrm n 0x1C) 0
    if g.rb (rStrm n 0) 30 then
      { (g.wb (rStrm n 0) 30 false) with strm := mins g.strm n (g.strmWritten n) }
    else g) g

end Sys2Proof.Machine
end

