-- ==== Sys2Proof/Machine/ThresherOps.lean ====
section
/-! DEFINITION. Tensors, owners, optimiser groups and the Thresher (R195 to R215, R222 to R224). -/

set_option linter.unusedVariables false

namespace Sys2Proof.Machine

/-- The digest stored for a block, and the digest of what the block holds (R223). -/
def Pack.digStored (s : Pack) (k t n r plane b : Nat) : Nat := leVal (s.bytes ((s.g k).digLoc k t n r plane b) 4)
def Pack.digNow (s : Pack) (k t n r plane b : Nat) : Nat := crc32c (s.bytes ((s.g k).planeLoc k t n r plane (4096 * b)) 4096)

/-- Writes the digest of a block (R223). -/
def Pack.digest (s : Pack) (k t n r plane b : Nat) : Pack :=
  s.store ((s.g k).digLoc k t n r plane b) (leBytes (s.digNow k t n r plane b) 4)

/-- Writes the digests of every block of a plane. -/
def Pack.digestPlane (s : Pack) (k t n r plane : Nat) : Pack :=
  (List.range ((s.g k).planeBlocks t)).foldl (fun s b => s.digest k t n r plane b) s

/-- The byte offset in a plane of element (i, 0) of tile (row, col) of shard `n` (R205). -/
def Pkg.rowOff (g : Pkg) (t n row col i : Nat) : Nat :=
  2 * ((32 * row + i - 32 * n * g.shr32 t) * (32 * g.cols32 t) + 32 * col)

/-- The 1,024 B16 codes of a tile in a plane. -/
def Pack.planeTile (s : Pack) (k t n r plane row col : Nat) : List Nat :=
  let g := s.g k
  (List.range 32).flatMap (fun i => halves (s.bytes (g.planeLoc k t n r plane (g.rowOff t n row col i)) 64))

/-- Writes a tile into a plane, and the digests of the blocks it touches. -/
def Pack.wrPlaneTile (s : Pack) (k t n r plane row col : Nat) (cs : List Nat) : Pack :=
  let g := s.g k
  let s := (List.range 32).foldl (fun s i =>
    s.store (g.planeLoc k t n r plane (g.rowOff t n row col i)) (((cs.drop (32 * i)).take 32).flatMap (fun c => leBytes c 2))) s
  let bs := ((List.range 32).map (fun i => g.rowOff t n row col i / 4096)).eraseDups
  bs.foldl (fun s b => s.digest k t n r plane b) s

/-- rne of R208: a value rounded to A32. -/
def rneV (v : Val) : Val := ofA (rneA v).1

/-- An A32 quotient; a quotient by zero is a value no rule states (log 4). -/
def divA (a b : Val) : Val :=
  match a, b with
  | .nan, _ => .nan
  | _, .nan => .nan
  | .fin s x, .fin t y =>
    if magZero y then ofA (Config.divByZero (rneA a).1 % 2 ^ 32) else rneV (.fin (s != t) (magDiv x y))
  | x, _ => x

/-- floor of the square root, by `n` halving steps from bit `n`. -/
def isqrt (v : Nat) : Nat → Nat → Nat
  | 0, r => r
  | n + 1, r => isqrt v n (if (r + 2 ^ n) * (r + 2 ^ n) ≤ v then r + 2 ^ n else r)

/-- The square root of a dyadic magnitude, correctly rounded to A32: 40 or more bits and a sticky bit. -/
def sqrtMag (m : Mag) : Val :=
  if magZero m then valZero
  else
    let e := if m.e % 2 = 0 then m.e - 80 else m.e - 81
    let v := shl m.n (m.e - e)
    let r := isqrt v (Nat.log2 v / 2 + 1) 0
    rneV (.fin false { n := 2 * r + b2n (r * r != v), d := 1, e := e / 2 - 1 })

/-- sqrt of R208; that of a negative number is a value no rule states (log 12). -/
def sqrtA (v : Val) : Val :=
  match v with
  | .nan => .nan
  | .inf _ => v
  | .fin neg m => if magZero m then v else if neg then ofA (Config.sqrtNeg (rneA v).1 % 2 ^ 32) else sqrtMag m

/-- The smaller and the larger of two values; NaN stays NaN (log 13). -/
def minV (a b : Val) : Val := if a.isNan || b.isNan then .nan else if b.lt a then b else a
def maxV (a b : Val) : Val := if a.isNan || b.isNan then .nan else if a.lt b then b else a

/-- sign of R208. -/
def signV (v : Val) : Val :=
  match v with
  | .nan => .nan
  | .inf s => .fin s (magNat 1)
  | .fin s m => if magZero m then valZero else .fin s (magNat 1)

/-- The constants of one step for one group (R208). -/
structure StepK where
  rule : Nat
  eclip : Bool
  clipe : Val
  fclip : Val
  lr : Val
  lambda : Val
  decay : Bool
  beta1 : Val
  beta2 : Val
  omb1 : Val
  omb2 : Val
  c1 : Val
  c2 : Val
  eps : Val
  deriving DecidableEq, Repr

/-- The step's constants of a tensor's group. -/
def Pkg.stepK (g : Pkg) (t : Nat) : StepK :=
  let j := g.tGroup t
  { rule := g.rule j, eclip := g.eclip j, clipe := g.sv32 j 0x1C, fclip := g.sv32 j 0x40, lr := g.sv32 j 0x38,
    lambda := g.sv32 j 0x18, decay := g.tDecay t, beta1 := g.sv32 j 0xC, beta2 := g.sv32 j 0x10,
    omb1 := rneV (valOne.sub (g.sv32 j 0xC)), omb2 := rneV (valOne.sub (g.sv32 j 0x10)),
    c1 := rneV (valOne.sub (g.sv32 j 0x44)), c2 := rneV (valOne.sub (g.sv32 j 0x48)), eps := g.sv32 j 0x14 }

/-- The first two lines of thresh_apply: the gradient divided by its count, clipped. -/
def gradOf (q : StepK) (g16 n : Nat) : Val :=
  let g := if n = 0 then valZero else divA (ofB g16) (valNat n)
  if q.eclip then minV (maxV g q.clipe.neg) q.clipe else g

/-- The rest of thresh_apply for one parameter: the new w, m and v before their conversion to B16 (R208). -/
def thApply (q : StepK) (g w m v : Val) : Val × Val × Val :=
  let g := rneV (g.mul q.fclip)
  let w := if q.decay then rneV (w.sub (rneV ((rneV (q.lr.mul q.lambda)).mul w))) else w
  let r : Val × Val × Val :=
    match q.rule with
    | 0 => (g, m, v)
    | 1 =>
      let m := rneV ((rneV (q.beta1.mul m)).add g)
      (m, m, v)
    | 2 =>
      let m := rneV ((rneV (q.beta1.mul m)).add (rneV (q.omb1.mul g)))
      let v := rneV ((rneV (q.beta2.mul v)).add (rneV (q.omb2.mul (rneV (g.mul g)))))
      let d := divA (divA m q.c1) (rneV ((sqrtA (divA v q.c2)).add q.eps))
      (d, m, v)
    | _ =>
      let c := rneV ((rneV (q.beta1.mul m)).add (rneV (q.omb1.mul g)))
      (signV c, rneV ((rneV (q.beta2.mul m)).add (rneV (q.omb2.mul g))), v)
  (rneV (w.sub (rneV (q.lr.mul r.1))), r.2.1, r.2.2)

/-- The random value of parameter `p` for a kind of plane (R82, R208). -/
def stateRnd (dr : Draw) (step kind p : Nat) : Rnd :=
  let d := { dr with step := step, lane := dr.lane / 4 * 4 + kind }
  .sr 16 ((d.at (p / 8) >>> (16 * (p % 8))) % 2 ^ 16)

/-- A square in units of 2^-200, bits below dropped (R209). -/
def squareUnits (v : Val) : Nat :=
  match v with
  | .fin _ m => let q := magMul m m; (magFrac q (-200)).1 / (magFrac q (-200)).2
  | _ => 0

/-- Adds squares to a group's norm accumulator; a sum that reaches 2^280 sets the overflow mark (R209). -/
def Pkg.addNorm (g : Pkg) (j n : Nat) : Pkg :=
  let x := mget (0, false) g.tr.norms j
  let sum := x.1 + n
  { g with tr := { g.tr with norms := mins g.tr.norms j (sum % 2 ^ 480, x.2 || decide (2 ^ 480 ≤ sum)) } }

/-- The keys of a tile and of a shard. -/
def tileKey (t row col : Nat) : Nat := t * 2 ^ 32 + row * 2 ^ 16 + col
def shardKey (t n : Nat) : Nat := t * 2 ^ 16 + n

/-- The Thresher's record of a tile and of a shard. -/
def Pkg.tileSt (g : Pkg) (t row col : Nat) : TileSt := mget {} g.tr.tiles (tileKey t row col)
def Pkg.setTileSt (g : Pkg) (t row col : Nat) (x : TileSt) : Pkg :=
  { g with tr := { g.tr with tiles := mins g.tr.tiles (tileKey t row col) x } }
def Pkg.shardSt (g : Pkg) (t n : Nat) : ShardSt := mget {} g.tr.shards (shardKey t n)
def Pkg.setShard (g : Pkg) (t n : Nat) (x : ShardSt) : Pkg :=
  { g with tr := { g.tr with shards := mins g.tr.shards (shardKey t n) x } }

/-- GSAT and GNAN of a tensor, and the step's NaN mark (R211). -/
def Pkg.gSat (g : Pkg) (t : Nat) (b : Bool) : Pkg := if b then g.wb (rTens t 0x18) 1 true else g
def Pkg.gNan (g : Pkg) (t : Nat) (b : Bool) : Pkg :=
  if b then { (g.wb (rTens t 0x18) 0 true) with tr := { g.tr with nan := true } } else g

/-- A shard's update stops (R211): the package will not be ready, and a revert is requested (R343). -/
def Pkg.stopShard (g : Pkg) (t n cause : Nat) : Pkg :=
  (g.setShard t n { g.shardSt t n with stop := true }).send (.revertReq g.pos cause)

/-- The owner's stack is gated: the Thresher's access faults, and the shard's update stops (R211, R259). -/
def Pkg.shardGated (g : Pkg) (t n r : Nat) : Pkg :=
  let j := g.ownStack (g.ownerOf t n r)
  if g.stackOn j then g
  else (g.engErr (48 + j) 0xFF 6 (gaddr g.pos (48 + j) 8 (g.planeLoc 0 t n r 0 0).off)).setShard t n { g.shardSt t n with stop := true }

/-- The outcomes of the reads made for one shard: each is recorded at its burst, and an uncorrectable one stops the shard's update (R211, R253, R255), as an access to a gated stack does (R259). -/
def Pack.shardReads (s : Pack) (k t n r : Nat) (us : List Upset) : Pack :=
  let s := s.on k (fun g => g.shardGated t n r)
  (us.filter (fun u => u.tensor == t && u.shard == n)).foldl (fun s u =>
    let g := s.g k
    if g.areaBytes t ≤ u.off then s
    else
      let l := g.planeLoc k t n r 0 u.off
      let s := s.eccAt { site := l.site } l u.ecc
      if u.ecc = .ue then s.on k (fun g => g.setShard t n { g.shardSt t n with stop := true }) else s) s

/-- The package adds this shard's squares to the norm (R208). -/
def Pkg.normOwner (g : Pkg) (t n : Nat) : Bool := g.rootOf t n == g.pos

/-- Converts values to B16 with SR and gathers the flags of R211. -/
def stateCodes (dr : Draw) (step kind : Nat) (vs : List (Nat × Val)) : List Nat × Flg :=
  let out := vs.map (fun p => convert p.2 .b16 (stateRnd dr step kind p.1))
  (out.map (·.1), out.foldl (fun f x => f.or x.2) {})

/-- The indices in the whole tensor of the parameters of a tile (R201). -/
def Pkg.tileParams (g : Pkg) (t row col : Nat) : List Nat :=
  (List.range 1024).map (fun x => (32 * row + x / 32) * (32 * g.cols32 t) + 32 * col + x % 32)

/-- thresh_apply over one tile (R208): `g16` the gradient, `n` the count; `norm` adds the squares. -/
def Pack.applyTile (s : Pack) (k t n r row col : Nat) (g16 : List Nat) (cnt : Nat) (norm : Bool) : Pack :=
  let g := s.g k
  match g.drawOf (g.sslot t) 0 with
  | none => s.on k (fun g => (g.engErr (48 + g.ownStack (g.ownerOf t n r)) 0xFF 6 0).stopShard t n 0x0202)
  | some dr =>
    let q := g.stepK t
    let nm := g.moments t
    let cb := g.cbank t
    let gs := g16.map (fun c => gradOf q c cnt)
    let ws := (s.planeTile k t n r (g.plSlot t (g.tCur t)) row col).map ofB
    let ms := if 0 < nm then (s.planeTile k t n r (g.plMom t cb 0) row col).map ofB else List.replicate 1024 valZero
    let vs := if nm = 2 then (s.planeTile k t n r (g.plMom t cb 1) row col).map ofB else List.replicate 1024 valZero
    let out := ((gs.zip ws).zip (ms.zip vs)).map (fun p => thApply q p.1.1 p.1.2 p.2.1 p.2.2)
    let ps := g.tileParams t row col
    let cw := stateCodes dr g.step 0 (ps.zip (out.map (·.1)))
    let cm := stateCodes dr g.step 1 (ps.zip (out.map (·.2.1)))
    let cv := stateCodes dr g.step 2 (ps.zip (out.map (·.2.2)))
    let s := s.wrPlaneTile k t n r (g.plSlot t (g.wslot t)) row col cw.1
    let s := if 0 < nm then s.wrPlaneTile k t n r (g.plMom t (1 - cb) 0) row col cm.1 else s
    let s := if nm = 2 then s.wrPlaneTile k t n r (g.plMom t (1 - cb) 1) row col cv.1 else s
    let fl := (cw.2.or (if 0 < nm then cm.2 else {})).or (if nm = 2 then cv.2 else {})
    s.on k (fun g =>
      let g := if norm && g.normOwner t n then g.addNorm (g.tGroup t) ((gs.map squareUnits).foldl (· + ·) 0) else g
      (((g.gSat t fl.sat).gNan t (fl.nan || gs.any Val.isNan))).setTileSt t row col
        { g.tileSt t row col with done := true, next := 0 })

/-- Adds a record to the accumulation slot (R197): an exact copy, or A32 sum and SR. -/
def Pack.slotAdd (s : Pack) (k t n r row col ord : Nat) (data : List Nat) : Pack :=
  let g := s.g k
  let pl := g.plAcc t
  if ord = 0 then s.wrPlaneTile k t n r pl row col data
  else
    match g.drawOf (g.sslot t) ord with
    | none => s.on k (fun g => (g.engErr (48 + g.ownStack (g.ownerOf t n r)) 0xFF 6 0).stopShard t n 0x0202)
    | some dr =>
      let old := s.planeTile k t n r pl row col
      let vs := (old.zip data).map (fun p => (ofB p.1).add (ofB p.2))
      let c := stateCodes dr g.step 3 ((g.tileParams t row col).zip vs)
      (s.wrPlaneTile k t n r pl row col c.1).on k (fun g => (g.gSat t c.2.sat).gNan t c.2.nan)

/-- Takes one record whose turn it is (R197, R208, R212). -/
def Pack.takeRec (s : Pack) (k t n r row col ord : Nat) (data : List Nat) (cnt : Nat) : Pack :=
  let g := s.g k
  let sw := g.sweep (g.tGroup t)
  if g.kacc t = 1 && !sw then s.applyTile k t n r row col data cnt true
  else
    let s := s.slotAdd k t n r row col ord data
    let s := s.on k (fun g =>
      let x := g.tileSt t row col
      g.setTileSt t row col { x with next := ord + 1, cnt := x.cnt + cnt })
    if ord + 1 = g.kacc t then
      if sw then s.on k (fun g => g.setTileSt t row col { g.tileSt t row col with done := true, next := 0 })
      else
        s.applyTile k t n r row col (s.planeTile k t n r (g.plAcc t) row col) ((s.g k).tileSt t row col).cnt true
    else s

/-- A gather that resolved to a ring slot of a shard has still to read it (R215). -/
def Pack.gatherReads (s : Pack) (k t n slot : Nat) : Bool :=
  mAny s.pkgs (fun _ g => g.co.gath.any (fun x => x.pk == k && x.tensor == t && x.shard == n && x.slot == slot))

/-- Taking the record of an ordinal now would write WSLOT while a gather still reads it (R208, R215). -/
def Pack.mustWait (s : Pack) (k t n ord : Nat) : Bool :=
  let g := s.g k
  !g.sweep (g.tGroup t) && decide (g.kacc t ≤ ord + 1) && s.gatherReads k t n (g.wslot t)

/-- Takes the held records of a tile whose turn has come (R197); one that would write a slot still being read stays held (R215). -/
def Pack.takeHeld (k t n r row col : Nat) : Nat → Pack → Pack
  | 0, s => s
  | f + 1, s =>
    let x := (s.g k).tileSt t row col
    if x.done || ((s.g k).shardSt t n).stop || s.mustWait k t n x.next then s
    else match x.held.find? (fun y => y.ord == x.next) with
      | none => s
      | some y =>
        let s := s.on k (fun g => g.shardGated t n r)
        if ((s.g k).shardSt t n).stop then s
        else
          let s := s.on k (fun g => g.setTileSt t row col { x with held := x.held.filter (fun z => z.ord != y.ord) })
          Pack.takeHeld k t n r row col f (s.takeRec k t n r row col y.ord y.data y.n)

/-- The bytes a reduced record's tile checksum covers (R309). -/
def redBytes (x : RedRec) : List Byte :=
  x.data.flatMap (fun c => leBytes c 2) ++ leBytes x.tensor 4 ++ leBytes x.row 2 ++ leBytes x.col 2 ++ leBytes x.step 4 ++
    leBytes x.ord 2

/-- The shard of a tile. -/
def Pkg.shardOf (g : Pkg) (t row : Nat) : Nat := row / g.shr32 t

/-- A reduced record in the step being updated (R197, R208 to R211, R215). `none`: the staging has no room, and the record stays upstream. -/
def Pack.takeRed (s : Pack) (k : Nat) (x : RedRec) (us : List Upset) : Option Pack :=
  let g := s.g k
  let t := x.tensor
  let n := g.shardOf t x.row
  match g.myRep t n with
  | none => some s
  | some r =>
    if !(g.tEn t && g.tUpd t) then some (s.on k (fun g => g.engErr (48 + g.ownStack (g.ownerOf t n r)) 0xFF 6 0))
    else if (g.shardSt t n).stop then some s
    else
      let ord := if g.kacc t = 1 then 0 else x.ord
      let ts := g.tileSt t x.row x.col
      if ts.done || decide (ord < ts.next) || ts.held.any (fun y => y.ord == ord) then
        some (s.on k (fun g => (g.logAt 0x0214 (48 + g.ownStack (g.ownerOf t n r)) 0xFF 0xFF t (x.row * 65536 + x.col) ord).stopShard t n 0x0214))
      else if crc32c (redBytes x) ≠ x.chk then
        some (s.on k (fun g => (g.logAt 0x020C (48 + g.ownStack (g.ownerOf t n r)) 0xFF 0xFF t (x.row * 65536 + x.col) x.step).stopShard t n 0x020C))
      else
        let now := decide (ord = ts.next) && !s.mustWait k t n ord
        if !now && decide (4 ≤ ts.held.length) then none
        else
          let s := (if now then s.shardReads k t n r us else s).on k (fun g => (g.gSat t (bit x.sta 0)).gNan t (bit x.sta 1))
          if ((s.g k).shardSt t n).stop then some s
          else if now then some (Pack.takeHeld k t n r x.row x.col 64 (s.takeRec k t n r x.row x.col ord x.data x.n))
          else some (s.on k (fun g => g.setTileSt t x.row x.col { ts with held := { x with ord := ord } :: ts.held }))

/-- A reduced record arrives at the owner (R211): stale, in turn, or for a later step. -/
def Pack.redArrive (s : Pack) (k : Nat) (x : RedRec) (us : List Upset) : Option Pack :=
  let g := s.g k
  if x.step = g.step then s.takeRed k x us
  else if later g.step x.step then
    some (s.on k (fun g => g.logHub 0x010D (g.tGroup x.tensor) x.step x.root))
  else if (g.tr.late.filter (fun y => y.tensor == x.tensor && y.row == x.row && y.col == x.col)).length < 4 then
    some (s.on k (fun g => { g with tr := { g.tr with late := g.tr.late ++ [x] } }))
  else none

/-- The tiles of a shard: rows and columns of tiles (R201). -/
def Pkg.shardTiles (g : Pkg) (t n : Nat) : List (Nat × Nat) :=
  let hi := min (g.rows32 t) ((n + 1) * g.shr32 t)
  (List.range (hi - n * g.shr32 t)).flatMap (fun i => (List.range (g.cols32 t)).map (fun c => (n * g.shr32 t + i, c)))

/-- Completes one tile of a marked shard: held records in order, missing ordinals as +0 with count 0 (R208). -/
def Pack.finishTile (k t n r row col : Nat) : Nat → Pack → Pack
  | 0, s => s
  | f + 1, s =>
    let x := (s.g k).tileSt t row col
    if x.done || ((s.g k).shardSt t n).stop then s
    else
      let y := x.held.find? (fun y => y.ord == x.next)
      let s := s.on k (fun g => g.setTileSt t row col { x with held := x.held.filter (fun z => z.ord != x.next) })
      Pack.finishTile k t n r row col f
        (s.takeRec k t n r row col x.next ((y.map (·.data)).getD (List.replicate 1024 0)) ((y.map (·.n)).getD 0))

/-- The shard holds everything the step gives it: complete, and in sweep mode through pass 2 (R212, R216). -/
def Pkg.shardDone (g : Pkg) (t n : Nat) : Bool :=
  let x := g.shardSt t n
  x.mark && !x.stop && (!g.sweep (g.tGroup t) || x.p2)

/-- Planes written in a step: WSLOT and the inactive bank (R208, R223). -/
def Pkg.newPlanes (g : Pkg) (t : Nat) : List (Nat × Nat) :=
  (g.plSlot t (g.wslot t), g.plSlot t (g.tCur t)) ::
    (List.range (g.moments t)).map (fun j => (g.plMom t (1 - g.cbank t) j, g.plMom t (g.cbank t) j))

/-- The new digests of a shard, plane after plane (R223). -/
def Pack.newDigests (s : Pack) (k t n r : Nat) : List Nat :=
  let g := s.g k
  (g.newPlanes t).flatMap (fun p => (List.range (g.planeBlocks t)).map (fun b => s.digStored k t n r p.1 b))

/-- The owner of a further replica of a finished shard sends the digests of its new blocks to the owner of replica 0 (R223). -/
def Pack.sendDigests (s : Pack) (k t n : Nat) : Pack :=
  let g := s.g k
  match g.myRep t n with
  | none => s
  | some r =>
    if !g.shardDone t n ∨ g.firstRep t n = r then s
    else s.on k (fun g => g.send (.digests g.step t n r (s.newDigests k t n r)))

/-- An end-of-step mark completes the shards whose root sent it (R208); a shard whose WSLOT is still read waits, and the mark with it (R215). -/
def Pack.takeEos (s : Pack) (k : Nat) (m : EosMark) (us : List Upset) : Pack :=
  let g := s.g k
  if !g.tEn m.tensor then s
  else
    (g.myShards m.tensor).foldl (fun s n =>
      let g := s.g k
      match g.myRep m.tensor n with
      | none => s
      | some r =>
        if g.rootOf m.tensor n ≠ m.root ∨ (g.shardSt m.tensor n).mark then s
        else if s.mustWait k m.tensor n (g.kacc m.tensor - 1) && (g.shardTiles m.tensor n).any (fun p => !(g.tileSt m.tensor p.1 p.2).done) then
          s.on k (fun g => { g with tr := { g.tr with lateMarks := if g.tr.lateMarks.contains m then g.tr.lateMarks else g.tr.lateMarks ++ [m] } })
        else
          let s := s.shardReads k m.tensor n r us
          let s := (g.shardTiles m.tensor n).foldl (fun s p => Pack.finishTile k m.tensor n r p.1 p.2 64 s) s
          (s.on k (fun g => g.setShard m.tensor n { g.shardSt m.tensor n with mark := true })).sendDigests k m.tensor n) s

/-- An end-of-step mark arrives (R208, R211). -/
def Pack.eosArrive (s : Pack) (k : Nat) (m : EosMark) (us : List Upset) : Pack :=
  let g := s.g k
  if m.step = g.step then s.takeEos k m us
  else if later g.step m.step then s.on k (fun g => g.logHub 0x010D (g.tGroup m.tensor) m.step m.root)
  else s.on k (fun g => { g with tr := { g.tr with lateMarks := g.tr.lateMarks ++ [m] } })

/-- The tensors of a group with a shard on this package. -/
def Pkg.groupTensors (g : Pkg) (j : Nat) : List Nat := g.updTensors.filter (fun t => g.tGroup t == j && !(g.myShards t).isEmpty)

/-- Every local shard of a group is complete (R212). -/
def Pkg.groupComplete (g : Pkg) (j : Nat) : Bool :=
  (g.groupTensors j).all (fun t => (g.myShards t).all (fun n => (g.shardSt t n).mark && !(g.shardSt t n).stop))

/-- Pass 1 of a sweep (R212): the squares of every slot are summed and the accumulator goes to the leader. -/
def Pack.sweepPass1 (s : Pack) (k j : Nat) (us : List Upset) : Pack :=
  let g := s.g k
  let shards := (g.groupTensors j).flatMap (fun t => (g.myShards t).map (fun n => (t, n)))
  if !(g.sEn j && g.sweep j && g.groupComplete j) || shards.any (fun p => (g.shardSt p.1 p.2).p1) then s
  else
    let s := shards.foldl (fun s p =>
      let g := s.g k
      let t := p.1
      let q := g.stepK t
      let r := (g.myRep t p.2).getD 0
      let s := s.shardReads k t p.2 r us
      if ((s.g k).shardSt t p.2).stop then s
      else
      let gs := (g.shardTiles t p.2).flatMap (fun c =>
        (s.planeTile k t p.2 r (g.plAcc t) c.1 c.2).map (fun x => gradOf q x (g.tileSt t c.1 c.2).cnt))
      s.on k (fun g =>
        let g := if g.normOwner t p.2 then g.addNorm j ((gs.map squareUnits).foldl (· + ·) 0) else g
        (g.gNan t (gs.any Val.isNan)).setShard t p.2 { g.shardSt t p.2 with p1 := true })) s
    if shards.any (fun p => ((s.g k).shardSt p.1 p.2).stop) then s
    else s.on k (fun g =>
      let x := mget (0, false) g.tr.norms j
      g.send (.sweepAcc g.pos g.step { group := j, sum := x.1, ovf := x.2 }))

/-- NORM of an exact sum (R209). -/
def normOf (sum : Nat) (ovf : Bool) : Nat :=
  if ovf || decide (2 ^ 480 ≤ sum) then largestCode .a32
  else (rneA (sqrtMag { n := sum, d := 1, e := -200 })).1

/-- NORM and FCLIP of a group (R209). -/
def Pkg.normRes (g : Pkg) (j sum : Nat) (ovf : Bool) : NormRes :=
  let norm := normOf sum ovf
  let clipn := g.sv32 j 0x20
  let f := if !g.nclip j || !(clipn.lt (ofA norm)) then 0x3F800000 else (rneA (divA clipn (ofA norm))).1
  { group := j, norm := norm, fclip := f }

/-- Pass 2 of a sweep for the shards whose NORM and FCLIP have arrived (R212); one whose WSLOT is still read waits (R215). -/
def Pack.sweepRun (s : Pack) (k j : Nat) (us : List Upset) : Pack :=
  let g := s.g k
  let shards := (g.groupTensors j).flatMap (fun t => (g.myShards t).map (fun n => (t, n)))
  shards.foldl (fun s p =>
    let g := s.g k
    let t := p.1
    let x := g.shardSt t p.2
    if !x.p1 || !x.nr || x.p2 || x.stop || s.gatherReads k t p.2 (g.wslot t) then s
    else
      let r := (g.myRep t p.2).getD 0
      let s := s.shardReads k t p.2 r us
      if ((s.g k).shardSt t p.2).stop then s
      else
        let s := (g.shardTiles t p.2).foldl (fun s c =>
          s.applyTile k t p.2 r c.1 c.2 (s.planeTile k t p.2 r (g.plAcc t) c.1 c.2) ((s.g k).tileSt t c.1 c.2).cnt false) s
        (s.on k (fun g => g.setShard t p.2 { g.shardSt t p.2 with p2 := true })).sendDigests k t p.2) s

/-- NORM and FCLIP of a sweep arrive, and every tile is applied from its slot (R212). -/
def Pack.sweepPass2 (s : Pack) (k : Nat) (m : NormRes) (us : List Upset) : Pack :=
  let j := m.group
  let s := s.on k (fun g =>
    let g := (g.wr (rSched j 0x3C) (mk32 m.norm)).wr (rSched j 0x40) (mk32 m.fclip)
    (g.groupTensors j).foldl (fun g t => (g.myShards t).foldl (fun g n =>
      if (g.shardSt t n).p1 then g.setShard t n { g.shardSt t n with nr := true } else g) g) g)
  s.sweepRun k j us

/-- The records that wait in staging, oldest first: each that can be taken is (R211, R219). -/
def Pack.lateRecs (k : Nat) : List RedRec → Pack → Pack
  | [], s => s
  | x :: r, s =>
    Pack.lateRecs k r (match s.redArrive k x [] with
      | some s => s
      | none => s.on k (fun g => { g with tr := { g.tr with late := g.tr.late ++ [x] } }))

/-- Staged records are looked at until a look takes none. -/
def Pack.lateRounds (k : Nat) : Nat → Pack → Pack
  | 0, s => s
  | n + 1, s =>
    let rs := (s.g k).tr.late
    let s := Pack.lateRecs k rs (s.on k (fun g => { g with tr := { g.tr with late := [] } }))
    if (s.g k).tr.late.length = rs.length then s else Pack.lateRounds k n s

/-- A Thresher looks again at what it holds: held records whose slot is free, staged records, marks that wait, sweeps that wait (R197, R211, R212, R215). -/
def Pack.thRetry (s : Pack) (k : Nat) : Pack :=
  let s := ((s.g k).tr.tiles.filter (fun p => !p.2.held.isEmpty)).foldl (fun s p =>
    let t := p.1 / 2 ^ 32
    let row := p.1 / 2 ^ 16 % 2 ^ 16
    let n := (s.g k).shardOf t row
    match (s.g k).myRep t n with
    | none => s
    | some r => Pack.takeHeld k t n r row (p.1 % 2 ^ 16) 64 s) s
  let s := Pack.lateRounds k ((s.g k).tr.late.length + 1) s
  let ms := (s.g k).tr.lateMarks
  let s := ms.foldl (fun s m => s.eosArrive k m []) (s.on k (fun g => { g with tr := { g.tr with lateMarks := [] } }))
  ((List.range 64).filter (fun j => (s.g k).sEn j && (s.g k).sweep j)).foldl (fun s j => s.sweepRun k j []) s

/-- The Thresher's part of a revert (R198, R222). -/
def Pkg.thresherRevert (g : Pkg) : Pkg := { g with tr := { passes := g.tr.passes } }

/-- The most frequent value and whether it is a strict majority. -/
def majority (l : List Nat) : Option Nat := l.find? (fun x => decide (l.length < 2 * (l.filter (· == x)).length))

/-- The winning digest of one block (R224): a strict majority, or the one value that clean copies hold. -/
def winner (ds : List (Nat × Bool)) : Option Nat :=
  match majority (ds.map (·.1)) with
  | some x => some x
  | none =>
    match ((ds.filter (·.2)).map (·.1)).eraseDups with
    | [x] => some x
    | _ => none

/-- Copies a block of an owner's plane into another owner's, with its digest. -/
def Pack.copyBlock (s : Pack) (k1 r1 k2 r2 t n plane b : Nat) : Pack :=
  let s' := s.store ((s.g k2).planeLoc k2 t n r2 plane (4096 * b)) (s.bytes ((s.g k1).planeLoc k1 t n r1 plane (4096 * b)) 4096)
  s'.digest k2 t n r2 plane b

/-- The re-reads that test a copy of a block for cleanness found an event: the replica, the block as an index of the new digests (R224). Parity, which the test also consults, is refused where REPL is not 1 (R329). -/
def cleanAt (events : List (Nat × Nat)) (r i : Nat) : Bool := !events.contains (r, i)

/-- A divergence halts the job: DIVG, and a refused seal (R218, R224). -/
def Pkg.diverge (g : Pkg) (t : Nat) : Pkg := { (g.wb (rTens t 0x18) 2 true) with tr := { g.tr with diverged := true } }

/-- Resolves the comparison of a shard once every replica's digests are in (R224). `reps`: replica, package, digests; `events`: what the re-reads found. The winner's digest is verified after each copy; where it fails the case is the third of R224 (log 114). -/
def Pack.compare (s : Pack) (k t n : Nat) (reps : List (Nat × Nat × List Nat)) (events : List (Nat × Nat)) : Pack :=
  let g := s.g k
  let nb := g.planeBlocks t
  let pls := (g.newPlanes t).map (·.1)
  let idx := (List.range pls.length).flatMap (fun i => (List.range nb).map (fun b => (i * nb + b, pls.getD i 0, b)))
  let s := idx.foldl (fun s p =>
    let ds := reps.map (fun x => (x.2.2.getD p.1 0, cleanAt events x.1 p.1))
    if (ds.map (·.1)).eraseDups.length ≤ 1 then s
    else match winner ds with
      | none => s.on k (fun g => g.diverge t)
      | some w =>
        match reps.find? (fun x => x.2.2.getD p.1 0 == w) with
        | none => s
        | some src =>
          let bad := reps.filter (fun x => x.2.2.getD p.1 0 != w)
          let s := bad.foldl (fun s x => s.copyBlock src.2.1 src.1 x.2.1 x.1 t n p.2.1 p.2.2) s
          if bad.all (fun x => s.digNow x.2.1 t n x.1 p.2.1 p.2.2 == w) then s.on k (fun g => g.logHub 0x0109 t (n * 65536 + p.2.1) p.2.2)
          else s.on k (fun g => g.diverge t)) s
  reps.foldl (fun s x => s.on x.2.1 (fun g => g.setShard t n { g.shardSt t n with cmp := true, digs := [] })) s

/-- Replica 0's owner receives the digests that the owner of replica `r` has sent and compares them once all are in (R223, R224). `events`, `mine`: what the re-reads found at the replicas' blocks, and at its own. -/
def Pack.replicaDigests (s : Pack) (k t n r : Nat) (digs : List Nat) (events : List (Nat × Nat)) (mine : List Nat) : Pack :=
  let g := s.g k
  let sent := match s.at k (g.ownPos (g.ownerOf t n r)) with
    | some pk => (s.g pk).sent.contains (.digests g.step t n r digs)
    | none => false
  match g.myRep t n with
  | none => s
  | some r0 =>
    if g.firstRep t n ≠ r0 ∨ r = r0 ∨ g.repl t ≤ r ∨ !g.shardDone t n ∨ !sent then s
    else
      let x := g.shardSt t n
      let ds := (r, digs) :: x.digs.filter (fun d => d.1 != r)
      let s := s.on k (fun g => g.setShard t n { x with digs := ds })
      let others := (List.range (g.repl t)).filter (fun i => i != r0 && !g.lostPos (g.ownPos (g.ownerOf t n i)))
      if others.all (fun i => ds.any (fun d => d.1 == i)) then
        let reps := others.filterMap (fun i =>
          match ds.find? (fun d => d.1 == i), s.at k (g.ownPos (g.ownerOf t n i)) with
          | some d, some pk => some (i, pk, d.2)
          | _, _ => none)
        s.compare k t n ((r0, k, s.newDigests k t n r0) :: reps) (events ++ mine.map (fun b => (r0, b)))
      else s

end Sys2Proof.Machine
end

