-- ==== Sys2Proof/Machine/SchedOps.lean ====
section
/-! DEFINITION. Writes to TENS, OWN and SCHED, and the learning-rate schedule (R200 to R206, R210). -/

set_option linter.unusedVariables false

namespace Sys2Proof.Machine

/-- The stack whose cosine table the hub's evaluator reads (R206). -/
def Pkg.tableStack (g : Pkg) (j : Nat) : Nat :=
  let ss := (g.tensors.filter (fun t => g.tGroup t == j)).flatMap (fun t =>
    (g.myShards t).map (fun n => g.ownStack (g.ownerOf t n ((g.myRep t n).getD 0))))
  ss.foldl min (ss.headD 0)

/-- The cosine table of a group, where it can be read (R72, R206, R210). -/
def Pack.cosTable (s : Pack) (k j : Nat) : Option FnTab :=
  let g := s.g k
  let off := g.rf (rSched j 0x30) 25 0 * 2048
  match g.place k (48 + g.tableStack j) 8 off with
  | .ok l => fnTabOf (s.bytes l 1552)
  | _ => none

/-- lr_of (R210): the learning rate of update `t`; none where the cosine table cannot be evaluated. -/
def Pack.lrOf (s : Pack) (k j t : Nat) : Option Val :=
  let g := s.g k
  let warm := g.rf (rSched j 0x28) 15 0
  let lr0 := g.sv32 j 4
  let fl := g.sv32 j 8
  if t < warm then some (rneV (lr0.mul (rneV (divA (valNat (t + 1)) (valNat warm)))))
  else
    let a := rneV (lr0.sub fl)
    let x := minV (rneV (divA (valNat (t - warm)) (valNat (g.rd (rSched j 0x2C)).toNat))) valOne
    match g.lrKind j with
    | 0 => some lr0
    | 1 => some (rneV (fl.add (rneV (a.mul (rneV (valOne.sub x))))))
    | 2 => some (rneV (lr0.mul (g.sv32 j 0x4C)))
    | _ => (s.cosTable k j).map (fun tab => rneV (fl.add (rneV (a.mul (rneV (fnEval x tab).1)))))

/-- An A32 code of a value. -/
def codeA (v : Val) : W32 := mk32 (rneA v).1

/-- How the evaluator's read of a group's cosine table ended (R206, R253, R255). -/
def Pack.tableRead (s : Pack) (k j : Nat) (e : Ecc) : Pack :=
  let g := s.g k
  s.eccAt { site := hubSite } { pk := k, site := 48 + g.tableStack j, space := 8, off := g.rf (rSched j 0x30) 25 0 * 2048 } e

/-- The commit's update of a group (R210): T, B1POW, B2POW, GPOW, LR. `ue`: the read of its cosine table ends with an uncorrectable error. -/
def Pack.schedStep (s : Pack) (k j : Nat) (ue : Bool) : Pack :=
  let g := s.g k
  let t := ((g.rd (rSched j 0x34)).toNat + 1) % 2 ^ 32
  let warm := g.rf (rSched j 0x28) 15 0
  let sev := g.rf (rSched j 0x28) 31 16
  let g1 := g.wr (rSched j 0x34) (mk32 t)
  let g1 := g1.wr (rSched j 0x44) (codeA ((g.sv32 j 0x44).mul (g.sv32 j 0xC)))
  let g1 := g1.wr (rSched j 0x48) (codeA ((g.sv32 j 0x48).mul (g.sv32 j 0x10)))
  let g1 := if g.lrKind j = 2 ∧ warm < t ∧ (t - warm) % sev = 0 then
      g1.wr (rSched j 0x4C) (codeA ((g.sv32 j 0x4C).mul (g.sv32 j 0x24))) else g1
  let s := s.put k g1
  let bad := ue && g.lrKind j == 3 && decide (warm ≤ t)
  let s := if bad then s.tableRead k j .ue else s
  match (if bad then none else s.lrOf k j t) with
  | some v => s.on k (fun g => g.wr (rSched j 0x38) (codeA v))
  | none => s.on k (fun g =>
      let g := (g.engErr hubSite 0xFF 9 (gaddr g.pos (48 + g.tableStack j) 8 (g.rf (rSched j 0x30) 25 0 * 2048))).send
        (.revertReq g.pos 0x0202)
      { g with pr := { g.pr with bad := true } })

/-- An A32 register is finite. -/
def finA (w : W32) : Bool := match ofA w.toNat with
  | .fin _ _ => true
  | _ => false

/-- A rate lies in [0, 1). -/
def rateOk (w : W32) : Bool := match ofA w.toNat with
  | .fin neg m => magZero m || (!neg && magLt m (magNat 1))
  | _ => false

/-- A group's lr_of(0) reads its cosine table (R206, R210). -/
def Pkg.readsTable (g : Pkg) (j : Nat) : Bool := g.lrKind j == 3 && g.rf (rSched j 0x28) 15 0 == 0

/-- The checks of a group enable (R206). `ue`: the cosine table cannot be read for an uncorrectable error. -/
def Pack.schedOk (s : Pack) (k j : Nat) (ue : Bool) : Bool :=
  let g := s.g k
  rateOk (g.rd (rSched j 0xC)) && rateOk (g.rd (rSched j 0x10)) &&
    ([4, 8, 0xC, 0x10, 0x14, 0x18, 0x1C, 0x20, 0x24].all (fun o => finA (g.rd (rSched j o)))) &&
    !(g.lrKind j == 2 && g.rf (rSched j 0x28) 31 16 == 0) &&
    !((g.lrKind j == 1 || g.lrKind j == 3) && (g.rd (rSched j 0x2C)).toNat == 0) &&
    (g.lrKind j != 3 || ((s.lrOf k j 0).isSome && !(ue && g.readsTable j)))

/-- A passing group enable (R206). -/
def Pack.schedArm (s : Pack) (k j : Nat) : Pack :=
  let s := s.on k (fun g =>
    let g := (g.wb (rSched j 0) 29 true).wr (rSched j 0x34) 0
    let g := (g.wr (rSched j 0x44) (g.rd (rSched j 0xC))).wr (rSched j 0x48) (g.rd (rSched j 0x10))
    ((g.wr (rSched j 0x4C) 0x3F800000#32).wr (rSched j 0x3C) 0).wr (rSched j 0x40) 0x3F800000#32)
  s.on k (fun g => g.wr (rSched j 0x38) (codeA ((s.lrOf k j 0).getD valZero)))

/-- A write to a register of a group (R203, R206). `ecc`: how the read of the cosine table, which an enable may make, ends. -/
def Pack.schedWrite (s : Pack) (k j o : Nat) (v : W32) (ecc : Ecc) : Pack :=
  let a := rSched j 0
  let s := if o = 0 then s.on k (fun g => g.wb a 30 (g.rb a 30 && !bit v 30)) else s
  let g := s.g k
  if !g.calm then s
  else if g.sEn j then
    if o = 0 ∧ !bit v 29 then
      if g.tensors.any (fun t => g.tGroup t == j) then s.on k (fun g => g.wb a 30 true)
      else s.on k (fun g => g.wb a 29 false)
    else s
  else if o = 0 then
    let s := s.on k (fun g => g.wr a (setF (g.rd a) 28 22 (fld v 28 22)))
    if !bit v 29 then s
    else
    let s := if (s.g k).readsTable j then s.tableRead k j ecc else s
    if s.schedOk k j (ecc == .ue) then s.schedArm k j
    else s.on k (fun g => g.wb a 30 true)
  else if o = 0x30 then s.on k (fun g => g.wf (rSched j 0x30) 25 0 (fld v 25 0))
  else if o ≤ 0x2C then s.on k (fun g => g.wr (rSched j o) v)
  else s

/-- An owner entry that an enabled tensor references (R201). -/
def Pkg.ownUsed (g : Pkg) (e : Nat) : Bool :=
  g.tensors.any (fun t => decide (g.own0 t ≤ e ∧ e < g.own0 t + g.repl t * g.nsh t))

/-- A write to an owner entry (R201): `hi` its upper word. -/
def Pkg.ownWrite (g : Pkg) (e : Nat) (hi : Bool) (v : W32) : Pkg :=
  if g.ownUsed e then g
  else if hi then
    g.wr (rOwn e 4) (mk32 (at' (fld v 30 30) 30 + at' (fld v 15 10) 10 + at' (fld v 9 6) 6 + fld v 4 0))
  else g.wr (rOwn e 0) (mk32 (at' (fld v 31 12) 12))

/-- The checks of a tensor enable (R203). -/
def Pkg.tensOk (g : Pkg) (t : Nat) : Bool :=
  let nsh := g.nsh t
  let es := (List.range (g.repl t * nsh)).map (fun i => g.own0 t + i)
  g.rows32 t != 0 && g.cols32 t != 0 && g.shr32 t != 0 && decide (g.own0 t + g.repl t * nsh ≤ 16384) &&
    es.all (fun e => g.ownValid e && decide (g.ownStack e < 12) && decide (g.ownBase e + g.areaBytes t ≤ 0x1200000000)) &&
    (List.range nsh).all (fun n =>
      let ps := (List.range (g.repl t)).map (fun r => g.ownPos (g.own0 t + r * nsh + n))
      ps.eraseDups.length == ps.length) &&
    g.sEn (g.tGroup t) && g.strmValid (g.sslot t)

/-- A passing tensor enable (R204): the version state is set and the owners begin their digest passes. -/
def Pkg.tensArm (g : Pkg) (t : Nat) : Pkg :=
  let g := g.wf (rTens t 8) 31 16 (g.nsh t)
  let g := g.wr (rTens t 0x10) (mk32 (at' 1 25 + at' 1 20 + g.rf rVcur 1 0))
  { g with tr := { g.tr with passes := t :: g.tr.passes.filter (· != t) } }

/-- A write to a register of a tensor (R203). -/
def Pkg.tensWrite (g : Pkg) (t o : Nat) (v : W32) : Pkg :=
  let a := rTens t 0
  let g := match o with
    | 0 => g.wb a 30 (g.rb a 30 && !bit v 30)
    | 0x18 => g.wf (rTens t 0x18) 3 0 (g.rf (rTens t 0x18) 3 0 &&& (15 - fld v 3 0))
    | _ => g
  if !g.calm || g.tr.passes.contains t then g
  else if g.tEn t then (if o = 0 ∧ !bit v 29 then g.wb a 29 false else g)
  else match o with
    | 0 =>
      let g := g.wr a (setF (setF (g.rd a) 28 27 (fld v 28 27)) 25 0 (fld v 25 0))
      if !bit v 29 then g else if g.tensOk t then g.tensArm t else g.wb a 30 true
    | 4 => g.wr (rTens t 4) v
    | 8 => g.wf (rTens t 8) 15 0 (fld v 15 0)
    | 0xC => g.wf (rTens t 0xC) 13 0 (fld v 13 0)
    | _ => g

/-- Every owner finishes the first pass of a tensor's enable: digests of slot 0 and bank 0, then EN (R204). An owner whose read ends uncorrectable, or whose stack is gated, has not finished it: EN stays 0 (R211, R259, log 115). -/
def Pack.tensPass (s : Pack) (k t : Nat) (us : List Upset) : Pack :=
  let g := s.g k
  if !g.tr.passes.contains t then s
  else
    let r := (List.range (g.nsh t)).foldl (fun a n =>
      (List.range (g.repl t)).foldl (fun (a : Pack × Bool) r =>
        match a.1.at k (g.ownPos (g.ownerOf t n r)) with
        | none => a
        | some pk =>
          let us := us.filter (fun u => u.tensor == t && u.shard == n)
          let s := a.1.shardReads pk t n r us
          if !(s.g pk).stackOn (g.ownStack (g.ownerOf t n r)) then
            (s.on pk (fun h => h.engErr (48 + g.ownStack (g.ownerOf t n r)) 0xFF 6 0), false)
          else if us.any (fun u => u.ecc == .ue) then (s, false)
          else
            ((g.plSlot t 0 :: (List.range (g.moments t)).map (fun j => g.plMom t 0 j)).foldl (fun s p =>
              s.digestPlane pk t n r p) s, a.2)) a) (s, true)
    if r.2 then r.1.on k (fun g => { (g.wb (rTens t 0) 29 true) with tr := { g.tr with passes := g.tr.passes.filter (· != t) } })
    else r.1

end Sys2Proof.Machine
end

