-- ==== Sys2Proof/Machine/ProtOps.lean ====
section
/-! DEFINITION. Protection of sealed state: parity, the delta stream, the consistent cut (R325 to R342). -/

set_option linter.unusedVariables false

namespace Sys2Proof.Machine

/-- The plane that holds logical plane `i`, committed and new (R325, R332). -/
def Pkg.oldPlane (g : Pkg) (t i : Nat) : Nat := if i = 0 then g.plSlot t (g.tCur t) else g.plMom t (g.cbank t) (i - 1)
def Pkg.newPlane (g : Pkg) (t i : Nat) : Nat := if i = 0 then g.plSlot t (g.wslot t) else g.plMom t (1 - g.cbank t) (i - 1)

/-- Places in a parity area (R331): slot `x` of a block, the byte of its selector, a member's digest word. -/
def Pkg.parOff (g : Pkg) (t x ib : Nat) : Nat := x * g.lplanes t * g.planeBytes t + 4096 * ib
def Pkg.selOff (g : Pkg) (t ib : Nat) : Nat := 2 * g.lplanes t * g.planeBytes t + ib / 4
def Pkg.pdigOff (g : Pkg) (t m ib x : Nat) : Nat :=
  let nb := g.lplanes t * g.planeBlocks t
  2 * g.lplanes t * g.planeBytes t + up4k ((nb + 3) / 4) + 8 * (m * nb + ib) + 4 * x
def Pkg.parBytes (g : Pkg) (t : Nat) : Nat :=
  let nb := g.lplanes t * g.planeBlocks t
  2 * g.lplanes t * g.planeBytes t + up4k ((nb + 3) / 4) + up4k (8 * g.pgroup t * nb)

/-- A place in the parity area of group `j`, on the package of index `k`. -/
def Pkg.parLoc (g : Pkg) (k t j o : Nat) : Loc :=
  let e := g.holder t j
  { pk := k, site := 48 + g.ownStack e, space := 8, off := g.ownBase e + o }

/-- The selector of a block: CUR and PEND. -/
def Pack.sel (s : Pack) (k t j ib : Nat) : Nat :=
  leVal (s.bytes ((s.g k).parLoc k t j ((s.g k).selOff t ib)) 1) / 4 ^ (ib % 4) % 4

/-- Writes the selector of a block. -/
def Pack.setSel (s : Pack) (k t j ib v : Nat) : Pack :=
  let l := (s.g k).parLoc k t j ((s.g k).selOff t ib)
  let b := leVal (s.bytes l 1)
  s.store l (leBytes (b - b / 4 ^ (ib % 4) % 4 * 4 ^ (ib % 4) + v % 4 * 4 ^ (ib % 4)) 1)

/-- Exclusive or of byte strings. -/
def xorBytes (a b : List Byte) : List Byte := (a.zip b).map (fun p => p.1 ^^^ p.2)

/-- Changes every block's selector of the groups this package holds. -/
def Pack.mapSel (s : Pack) (k : Nat) (f : Nat → Nat) : Pack :=
  let g := s.g k
  (g.tensors.filter (fun t => g.tmode t == 1)).foldl (fun s t =>
    (List.range (g.pgroups t)).foldl (fun s j =>
      if g.ownPos (g.holder t j) ≠ g.pos then s
      else (List.range (g.lplanes t * g.planeBlocks t)).foldl (fun s ib => s.setSel k t j ib (f (s.sel k t j ib))) s) s) s

/-- At the seal a pending block becomes current; at a revert it is dropped (R333). -/
def Pack.parityCommit (s : Pack) (k : Nat) : Pack := s.mapSel k (fun v => if 2 ≤ v then 1 - v % 2 else v)
def Pack.parityRevert (s : Pack) (k : Nat) : Pack := s.mapSel k (fun v => v % 2)

/-- A holder takes one delta (R332). On a block's first delta of the step the other members' digest words are carried over with the slot (log 16). -/
def Pack.parityDelta (s : Pack) (k : Nat) (d : ParDelta) : Pack :=
  let g := s.g k
  let t := d.tensor
  let j := d.group
  let ib := d.plane * g.planeBlocks t + d.block
  let v := s.sel k t j ib
  let cur := v % 2
  let src := if 2 ≤ v then 1 - cur else cur
  let old := s.bytes (g.parLoc k t j (g.parOff t src ib)) 4096
  let s := s.store (g.parLoc k t j (g.parOff t (1 - cur) ib)) (xorBytes old d.delta)
  let s := if 2 ≤ v then s
    else (List.range (g.pmembers t j).length).foldl (fun s m =>
      s.store (g.parLoc k t j (g.pdigOff t m ib (1 - cur))) (s.bytes (g.parLoc k t j (g.pdigOff t m ib cur)) 4)) s
  let s := s.setSel k t j ib (cur + 2)
  s.store (g.parLoc k t j (g.pdigOff t d.member ib (1 - cur))) (leBytes d.digest 4)

/-- The blocks of a shard whose new digest differs from its committed one, as (logical plane, block). -/
def Pack.changed (s : Pack) (k t n r : Nat) : List (Nat × Nat) :=
  let g := s.g k
  (List.range (g.lplanes t)).flatMap (fun i =>
    ((List.range (g.planeBlocks t)).filter (fun b =>
      s.digStored k t n r (g.newPlane t i) b != s.digStored k t n r (g.oldPlane t i) b)).map (fun b => (i, b)))

/-- The deltas that the owners of PARITY shards on this package send (R332). -/
def Pack.sendDeltas (s : Pack) (k : Nat) : Pack :=
  let g := s.g k
  (g.updTensors.filter (fun t => g.tmode t == 1)).foldl (fun s t =>
    ((g.myShards t).filter (fun n => g.myRep t n == some 0)).foldl (fun s n =>
      let j := n / g.pgroup t
      match s.at k (g.ownPos (g.holder t j)) with
      | none => s
      | some hk =>
        { s with wire := s.wire ++ (s.changed k t n 0).map (fun p =>
            { src := k, dst := hk, dq := 0, qk := 0, idx := 0,
              body := Cargo.delta {
                tensor := t, group := j, member := n % g.pgroup t, plane := p.1, block := p.2, step := g.step,
                delta := xorBytes (s.bytes (g.planeLoc k t n 0 (g.oldPlane t p.1) (4096 * p.2)) 4096)
                  (s.bytes (g.planeLoc k t n 0 (g.newPlane t p.1) (4096 * p.2)) 4096),
                digest := s.digStored k t n 0 (g.newPlane t p.1) p.2 } }) }) s) s

/-- The exclusive or of the members' committed blocks. -/
def Pack.parityOf (s : Pack) (k t j i b : Nat) : List Byte :=
  let g := s.g k
  (g.pmembers t j).foldl (fun acc n =>
    match s.at k (g.ownPos (g.ownerOf t n 0)) with
    | none => acc
    | some pk => xorBytes acc (s.bytes (g.planeLoc pk t n 0 (g.oldPlane t i) (4096 * b)) 4096)) (List.replicate 4096 0)

/-- A holder builds the parity of one group (R335). -/
def Pack.parityBuild (s : Pack) (k t j : Nat) : Pack :=
  let g := s.g k
  if !(g.tEn t && (g.tmodeSet t == 1 || g.tmode t == 1) && g.ownPos (g.holder t j) == g.pos && decide (j < g.pgroups t)) then s
  else
    let s := (List.range (g.lplanes t)).foldl (fun s i => (List.range (g.planeBlocks t)).foldl (fun s b =>
      let ib := i * g.planeBlocks t + b
      let s := s.store (g.parLoc k t j (g.parOff t 0 ib)) (s.parityOf k t j i b)
      let s := s.setSel k t j ib 0
      ((g.pmembers t j).zip (List.range (g.pmembers t j).length)).foldl (fun s p =>
        match s.at k (g.ownPos (g.ownerOf t p.1 0)) with
        | none => s
        | some pk => s.store (g.parLoc k t j (g.pdigOff t p.2 ib 0)) (s.bytes (g.digLoc pk t p.1 0 (g.oldPlane t i) b) 4)) s) s) s
    s.on k (fun g => { g with pr := { g.pr with build := g.pr.build.filter (· != t * 65536 + j) } })

/-- A delta-stream record (R336): KIND, PLANE, NBLK, STEP, TENSOR, SHARD, SADDR, DADDR, FIRST. -/
def Pkg.dqRec (g : Pkg) (kind plane nblk step tensor shard saddr daddr first : Nat) : List Byte :=
  leBytes kind 1 ++ leBytes plane 1 ++ leBytes nblk 2 ++ leBytes step 4 ++ leBytes tensor 4 ++ leBytes shard 4 ++
    leBytes saddr 8 ++ leBytes daddr 8 ++ leBytes first 4 ++ leBytes g.epoch 2 ++ leBytes g.pos 1 ++ List.replicate 21 0

/-- Queues a record for the delta stream. -/
def Pkg.dqAdd (g : Pkg) (r : List Byte) : Pkg := { g with pr := { g.pr with dq := g.pr.dq ++ [r] } }

/-- PROT.DQ.DQID's home site, where it is an enabled class 0b00 queue of its kind (R336). -/
def Pkg.dqHome (g : Pkg) : Option (Nat × Nat) :=
  let q := g.rf (rProt 0x10) 11 0
  match g.home q with
  | some site => if g.qState site q = 1 ∧ g.qProd site q = 0 ∧ g.qChost site q ∧ qClass q = 0 ∧ g.qengOn site then some (site, q) else none
  | none => none

/-- The delta writer pushes what credits allow (R336). -/
def Pack.dqPump (k : Nat) : Nat → Pack → Pack
  | 0, s => s
  | n + 1, s =>
    let g := s.g k
    match g.dqHome, g.pr.dq with
    | some (site, q), r :: rest =>
      if g.avail site q = 0 then s
      else
        let i := g.ix site q
        let s := s.ringWrite k site q r 1 i.p
        let s := s.on k (fun g => { (g.setCred site q (g.avail site q - 1) (g.outc site q)) with pr := { g.pr with dq := rest } })
        Pack.dqPump k n ((s.moveIx k site q 0 { i with p := (i.p + 1) % 65536 }).on k (fun g => g.pushVec q))
    | _, _ => s

/-- Pushes every record that credits allow. -/
def Pack.dqRun (s : Pack) (k : Nat) : Pack := Pack.dqPump k (s.g k).pr.dq.length s

/-- Records of a kind that the host has not released, or that are not yet pushed. -/
def Pack.dqWaits (s : Pack) (k : Nat) (kinds : List Nat) : Bool :=
  let g := s.g k
  let has (e : List Byte) : Bool := kinds.contains ((e.headD 0).toNat)
  g.pr.dq.any has ||
    (match g.dqHome with
     | none => false
     | some (site, q) =>
       let i := g.ix site q
       (s.ringRead k site q (ringDist i.p i.l) i.l).any (fun e => has e.2))

/-- Runs of consecutive blocks of one plane, at most 256 long: first block and length. -/
def runs : List Nat → List (Nat × Nat)
  | [] => []
  | b :: r =>
    match runs r with
    | (f, n) :: rest => if f = b + 1 ∧ n < 256 then (b, n + 1) :: rest else (b, 1) :: (f, n) :: rest
    | [] => [(b, 1)]

/-- The records of the blocks of one shard: BLOCK of the new state, or IMAGE of the committed (R337, R338). -/
def Pkg.blockRecs (g : Pkg) (kind step t n : Nat) (plane : Nat → Nat) (bs : List (Nat × Nat)) : List (List Byte) :=
  (List.range (g.lplanes t)).flatMap (fun i =>
    (runs ((bs.filter (fun p => p.1 == i)).map (·.2))).map (fun p =>
      let l := g.planeLoc 0 t n 0 (plane i) (4096 * p.1)
      let d := g.digLoc 0 t n 0 (plane i) p.1
      g.dqRec kind i p.2 step t n (gaddr g.pos l.site 8 l.off) (gaddr g.pos d.site 8 d.off) p.1))

/-- Replica-0 shards of a tensor on this package. -/
def Pkg.zeroShards (g : Pkg) (t : Nat) : List Nat := (g.myShards t).filter (fun n => g.myRep t n == some 0)

/-- The BLOCK records of the running step (R337). -/
def Pack.dqBlocks (s : Pack) (k : Nat) : Pack :=
  let g := s.g k
  let rs := (g.updTensors.filter (fun t => g.tmode t == 2)).flatMap (fun t =>
    (g.zeroShards t).flatMap (fun n => g.blockRecs 0x30 g.step t n (g.newPlane t) (s.changed k t n 0)))
  (s.on k (fun g => { g with pr := { g.pr with dq := g.pr.dq ++ rs } })).dqRun k

/-- The full image of the enabled DELTA tensors that owe one (R338). -/
def Pack.dqImages (s : Pack) (k : Nat) : Pack :=
  let g := s.g k
  let rs := (g.pr.image.filter g.tEn).flatMap (fun t =>
    (g.zeroShards t).flatMap (fun n =>
      g.blockRecs 0x31 g.sealed t n (g.oldPlane t)
        ((List.range (g.lplanes t)).flatMap (fun i => (List.range (g.planeBlocks t)).map (fun b => (i, b))))) ++
      (if (g.zeroShards t).isEmpty then [] else [g.dqRec 0x32 0 0 g.sealed t 0 0 0 0]))
  (s.on k (fun g => { g with pr := { g.pr with dq := g.pr.dq ++ rs, image := g.pr.image.filter (fun t => !g.tEn t) } })).dqRun k

/-- The registers that a cut carries (R339), as a test on a register's key and value. -/
def Pkg.cutReg (g : Pkg) (a : Nat) (v : W32) : Bool :=
  let site := a / 0x100000
  let off := a % 0x100000
  if site < 48 then
    if 0x80000 ≤ off ∧ off < 0xC0000 then
      (let q := (off - 0x80000) / 0x40
       let o := off % 0x40
       g.home q == some site && g.qEn site q && (o == 0 || o == 4 || o == 8 || (g.qInput site q && (o == 0x10 || o == 0x20 || o == 0x24 || o == 0x28))))
    else if 0x40000 ≤ off ∧ off < 0x80000 then g.slotValid site ((off - 0x40000) / 0x80)
    else false
  else if site = 62 then
    if 0xC000 ≤ off ∧ off < 0x10000 then true
    else if off = 0x500C ∨ off = 0x5020 then true
    else if 0x80000 ≤ off then (off % 0x20 == 0x10 && g.tEn ((off - 0x80000) / 0x20))
    else if 0xA000 ≤ off ∧ off < 0xC000 then
      (let o := off % 0x80
       g.sEn ((off - 0xA000) / 0x80) && decide (0x34 ≤ o ∧ o < 0x50))
    else if 0x30000 ≤ off ∧ off < 0x40000 then decide (off % 0x40 = 0x14 ∨ off % 0x40 = 0x18 ∨ off % 0x40 = 0x1C)
    else false
  else false

/-- The package's serial number. -/
def serialOf (k : Nat) : Nat := Config.serial k % 2 ^ 64

/-- The cut of the state as it stands (R339). -/
def Pkg.makeCut (g : Pkg) (k : Nat) (c : Option CommitMsg) : Cut :=
  { step := g.sealed, epoch := g.rf rSealEpoch 15 0, pos := g.pos, serial := serialOf k, floor := floorOf k, commit := c,
    regs := g.regs.filter (fun p => g.cutReg p.1 p.2), strm := g.strm }

/-- MIRV, MIRROR, MSLOT, CUTN. -/
def Pkg.mirv (g : Pkg) : Bool := g.rb (rProt 0) 17
def Pkg.mirror (g : Pkg) : Nat := g.rf (rProt 0) 15 10
def Pkg.mslot (g : Pkg) : Nat := g.rf (rProt 0) 19 18
def Pkg.cutn (g : Pkg) : Nat := g.rf (rProt 0) 9 2

/-- Cut copies a stack's share of the delta staging holds, and the place of copy `n`: in rotation over the stacks, a ring in each (R173, R342). -/
def Pkg.cutSlots (g : Pkg) : Nat := g.rf rPipeSpill 24 16 * 64 / 12
def Pkg.cutPlace (g : Pkg) (n : Nat) : Nat :=
  gaddr g.pos (48 + n % 12) 8 (0x1200000000 + n / 12 % g.cutSlots * 2 ^ 24)

/-- The stack that comes next lacks 16 MiB: its copies that the host has not released fill its share (R342). -/
def Pack.stageRoom (s : Pack) (k : Nat) : Bool :=
  let g := s.g k
  let st := 48 + g.pr.cutSeq % 12
  let mine (e : List Byte) : Bool := (e.headD 0).toNat == 0x35 && leVal ((e.drop 16).take 8) / 2 ^ 52 % 64 == st
  let used := match g.dqHome with
    | none => 0
    | some (site, q) =>
      let i := g.ix site q
      ((s.ringRead k site q (ringDist i.p i.l) i.l).filter (fun e => mine e.2)).length
  decide (used + (g.pr.dq.filter mine).length < g.cutSlots)

/-- The cut of a seal (R339 to R342): own bank, mirror, CUT record when due. -/
def Pack.sealCut (s : Pack) (k : Nat) (c : Option CommitMsg) : Pack :=
  let s := s.on k (fun g =>
    let g := { g with pr := { g.pr with cuts := mins g.pr.cuts (g.sealed % 2) (g.makeCut k c), sinceCut := g.pr.sinceCut + 1 } }
    if g.mirv then g.send (.cut g.mslot g.pos g.sealed) else g)
  let g := s.g k
  if g.cutn = 0 ∨ g.pr.sinceCut < g.cutn then s
  else
    let s := s.on k (fun g => { g with pr := { g.pr with sinceCut := 0 } })
    if s.stageRoom k then
      (s.on k (fun g =>
        { (g.dqAdd (g.dqRec 0x35 0 4096 g.sealed 0 0 (g.cutPlace g.pr.cutSeq) 0 0)) with
          pr := { (g.dqAdd (g.dqRec 0x35 0 4096 g.sealed 0 0 (g.cutPlace g.pr.cutSeq) 0 0)).pr with cutSeq := g.pr.cutSeq + 1 } })).dqRun k
    else s.on k (fun g => g.wb (rProt 4) 27 true)

/-- A mirror receives and stores a cut (R340). -/
def Pkg.cutMirror (g : Pkg) (slot : Nat) (c : Cut) : Pkg :=
  { g with pr := { g.pr with cuts := mins g.pr.cuts (2 + 2 * (slot % 4) + c.step % 2) c } }

/-- Advice for a tensor (R328), after TENS.CHG has been latched. -/
def Pkg.advise (g : Pkg) (t : Nat) : Pkg :=
  let ns := (g.myShards t).length
  let blocks := ns * g.lplanes t * g.planeBlocks t
  let h := ((g.rd (rTens t 0x14)).toNat :: mget [] g.pr.chg t).take 8
  let avg := if blocks = 0 then 0 else min 255 (256 * h.foldl (· + ·) 0 / (h.length * blocks))
  let adv := if ns = 0 then 0
    else if g.rf (rProt 0x14) 15 0 * 2 ^ 20 ≤ blocks * 4096 ∧ g.rf (rProt 0x14) 23 16 ≤ avg then 1 else 2
  let g := { g with pr := { g.pr with chg := mins g.pr.chg t h } }
  (g.wf (rTmode t) 25 24 adv).wf (rTmode t) 23 16 avg

/-- The checks of a write that sets MODE = PARITY (R329). -/
def Pkg.parityOk (g : Pkg) (t : Nat) (v : W32) : Bool :=
  let pk := fld v 29 26
  let k := pk + 1
  let ph0 := fld v 13 0
  decide (3 ≤ pk) && g.repl t == 1 &&
    (List.range ((g.nsh t + k - 1) / k)).all (fun j =>
      let ms := (List.range (min k (g.nsh t - j * k))).map (fun i => g.ownPos (g.ownerOf t (j * k + i) 0))
      let e := ph0 + j
      let nb := g.lplanes t * g.planeBlocks t
      let bytes := 2 * g.lplanes t * g.planeBytes t + up4k ((nb + 3) / 4) + up4k (8 * k * nb)
      ms.eraseDups.length == ms.length && g.ownValid e && decide (g.ownStack e < 12) && !ms.contains (g.ownPos e) &&
        decide (g.ownBase e + bytes ≤ 0x1200000000))

/-- A write to TMODE (R203, R329): fields change while the pack is calm and EN of the tensor is 0; a new mode owes its build or image, and takes effect when the pack next leaves HELD. -/
def Pkg.tmodeWrite (g : Pkg) (t : Nat) (v : W32) : Pkg :=
  if !g.calm ∨ g.tEn t then g
  else
    let m := fld v 31 30
    if m = 1 ∧ !g.parityOk t v then g.wb (rProt 0) 30 true
    else
      let old := g.tmodeSet t
      let g := g.wr (rTmode t) (setF (setF (g.rd (rTmode t)) 31 26 (fld v 31 26)) 13 0 (fld v 13 0))
      if m = old then g
      else
        let mine := (List.range (g.pgroups t)).filter (fun j => g.ownPos (g.holder t j) == g.pos)
        let b := g.pr.build.filter (fun x => x / 65536 != t)
        let i := g.pr.image.filter (· != t)
        { g with pr := { g.pr with build := if m = 1 then b ++ mine.map (fun j => t * 65536 + j) else b,
                                   image := if m = 2 then i ++ [t] else i } }

end Sys2Proof.Machine
end

