-- ==== Sys2Proof/Machine/SealOps.lean ====
section
/-! DEFINITION. The step seal and its audit (R172, R216 to R221, R316 to R321). -/

set_option linter.unusedVariables false

namespace Sys2Proof.Machine

/-- A register of the LEDGER block. -/
def rLedger (o : Nat) : Nat := hubR (0x4000 + o)

/-- STALE counts a message or frame of another epoch (R299). -/
def Pkg.stale (g : Pkg) : Pkg := g.wf rPackStat 31 16 (min 65535 (g.rf rPackStat 31 16 + 1))

/-- The member has halted with cause PARTITION, and takes no further part (R302, R303). -/
def Pkg.parted (g : Pkg) : Bool := g.phase == 4 && g.rf rSealStat 15 8 == 0xA

/-- SEAL.CTL.AUTO and HOLD. -/
def Pkg.sealAuto (g : Pkg) : Bool := g.rb rSealCtl 0
def Pkg.sealHold (g : Pkg) : Bool := g.rb rSealCtl 1

/-- SEAL.STAT.PHASE and CAUSE written; the leader's entry into HELD or HALTED raises SVEC (R370). -/
def Pkg.setPhase (g : Pkg) (p : Nat) : Pkg :=
  let enters := (p == 3 || p == 4) && g.phase != p && g.leads && bit (g.hrd hIvec) 15
  let g := g.wf rSealStat 2 0 p
  if enters then g.raise (fld (g.hrd hIvec) 10 0) else g
def Pkg.setCause (g : Pkg) (c : Nat) : Pkg := g.wf rSealStat 15 8 c

/-- Holds a package in P1, HALTED with a cause (R218), and logs SEAL_HALT. -/
def Pkg.halt (g : Pkg) (cause : Nat) : Pkg :=
  if g.phase = 4 then g else ((g.setPhase 4).setCause cause).logHub 0x0302 cause g.step 0

/-- The packages of the pack that package `k` leads or belongs to, itself included, as it can reach them. -/
def Pack.members (s : Pack) (k : Nat) : List Nat := (positions (s.g k).mem).filterMap (fun p => s.at k p)

/-- Changes every member. -/
def Pack.onMembers (s : Pack) (k : Nat) (f : Pkg → Pkg) : Pack := (s.members k).foldl (fun s j => s.on j f) s

/-- Halts the whole pack (R218). -/
def Pack.haltAll (s : Pack) (k cause : Nat) : Pack := s.onMembers k (fun g => g.halt cause)

/-- Threads that wait for a seal issue again. -/
def Pkg.unhold (g : Pkg) : Pkg :=
  (g.waiters (fun _ w => match w with | .seal => true | _ => false)).foldl (fun g key => g.retry key) g

/-- No other replica of a shard has an owner that is still there to compare with (R223). -/
def Pkg.loneRep (g : Pkg) (t n : Nat) : Bool :=
  (List.range (g.repl t)).all (fun i => g.myRep t n == some i || g.lostPos (g.ownPos (g.ownerOf t n i)))

/-- Everything the step gives this package's shards is done (R216). -/
def Pkg.shardsReady (g : Pkg) : Bool :=
  g.updTensors.all (fun t => (g.myShards t).all (fun n => g.shardDone t n && (g.loneRep t n || (g.shardSt t n).cmp)))

/-- Protection work of the step is acknowledged (R334). -/
def Pack.protReady (s : Pack) (k : Nat) : Bool :=
  let g := s.g k
  !s.wire.any (fun w => w.src == k && (match w.body with | .delta _ => true | _ => false)) &&
    !s.dqWaits k [0x30] && (!g.mirv || g.pr.suppAck == g.step + 1)

/-- The readiness supplement (R341): C of each input queue. -/
def Pkg.supplement (g : Pkg) : Supplement :=
  { pos := g.pos, step := g.step,
    cons := (g.liveQueues.filter (fun p => g.qInput p.1 p.2)).map (fun p => (p.2, (g.ix p.1 p.2).c)) }

/-- A QPOP on an input queue has completed since the supplement that the mirror holds: READY would not go with its C (R341). -/
def Pack.suppOld (s : Pack) (k : Nat) : Bool :=
  let g := s.g k
  g.mirv && (match s.at k g.mirror with
    | some j => (mget ({ pos := g.pos, step := g.step, cons := [] } : Supplement) (s.g j).pr.supps g.pos).cons != g.supplement.cons
    | none => false)

/-- The flow totals of a step's bank (R319). -/
def Pkg.flowTotals (g : Pkg) (step : Nat) : List FlowTot :=
  [0, 1, 2, 5].map (fun k =>
    let b := mget ({} : Flow) g.flows (k * 4 + step % 4)
    { kind := k, outf := b.outf, inf := b.inf })

/-- The READY of a package (R216). -/
def Pkg.readyMsg (g : Pkg) : ReadyMsg :=
  { pos := g.pos, step := g.step, epoch := g.epoch, scales := g.scaleMaxes,
    vref := (List.range 4).map (fun t => g.rf (rVref t) 9 0),
    norms := (g.tr.norms.filter (fun p => g.sEn p.1 && !g.sweep p.1)).map (fun p => { group := p.1, sum := p.2.1, ovf := p.2.2 }),
    nan := g.tr.nan, diverged := g.tr.diverged, mismatch := g.rb (rLedger 0) 31,
    flows := g.flowTotals ((g.step + 2 ^ 32 - 2) % 2 ^ 32) }

/-- A package becomes locally ready (R216, R334, R337, R341): first the step's protection work is sent; once it is acknowledged, READY. A supplement that no longer holds the C of the input queues is sent anew first. -/
def Pack.locallyReady (s : Pack) (k : Nat) : Pack :=
  let g := s.g k
  if g.phase ≠ 0 ∨ !g.assigned ∨ g.pr.bad ∨ !g.shardsReady then s
  else
    let s := if g.pr.prep = g.step + 1 then s
      else
        let s := (s.sendDeltas k).dqBlocks k
        s.on k (fun g =>
          let g := { g with pr := { g.pr with prep := g.step + 1 } }
          if g.mirv then g.send (.supplement g.supplement) else g)
    if !s.protReady k then s
    else if s.suppOld k then s.on k (fun g => { (g.send (.supplement g.supplement)) with pr := { g.pr with suppAck := 0 } })
    else s.on k (fun g => (g.setPhase 1).send (.ready g.readyMsg))

/-- The readiness supplement reaches the mirror, which keeps and acknowledges it (R341). -/
def Pack.takeSupplement (s : Pack) (k : Nat) (m : Supplement) : Pack :=
  let s := s.on k (fun g => { g with pr := { g.pr with supps := mins g.pr.supps m.pos m } })
  match s.at k m.pos with
  | none => s
  | some j => s.on j (fun g => if g.mirv && g.step == m.step then { g with pr := { g.pr with suppAck := m.step + 1 } } else g)

/-- Combines scale maxima of the packages (R52). -/
def combineScales (ms : List ReadyMsg) : List ScaleMax := ms.foldl (fun l m => m.scales.foldl (fun l x => addMax x l) l) []

/-- Sums of VREF over the pack (R172). -/
def sumVref (ms : List ReadyMsg) : List Nat :=
  (List.range 4).map (fun t => (ms.map (fun m => m.vref.getD t 0)).foldl (· + ·) 0)

/-- The exact sum of a group's accumulators (R209). -/
def sumNorm (ms : List ReadyMsg) (j : Nat) : Nat × Bool :=
  (ms.flatMap (·.norms)).foldl (fun a x => if x.group = j then (a.1 + x.sum, a.2 || x.ovf) else a) (0, false)

/-- The enabled groups that carry a norm in the seal (R209, R212). -/
def Pkg.nativeGroups (g : Pkg) : List Nat := (List.range 64).filter (fun j => g.sEn j && !g.sweep j)

/-- The pack-wide flow totals of a kind balance (R319). -/
def flowsBalance (ms : List ReadyMsg) : Bool :=
  [0, 1, 2, 5].all (fun k =>
    let fs := (ms.flatMap (·.flows)).filter (fun f => f.kind == k)
    (fs.map (·.outf)).foldl (· + ·) 0 % 2 ^ 64 == (fs.map (·.inf)).foldl (· + ·) 0 % 2 ^ 64)

/-- The kinds whose totals do not balance, as a mask. -/
def flowMask (ms : List ReadyMsg) : Nat :=
  ([0, 1, 2, 5].filter (fun k =>
    let fs := (ms.flatMap (·.flows)).filter (fun f => f.kind == k)
    (fs.map (·.outf)).foldl (· + ·) 0 % 2 ^ 64 != (fs.map (·.inf)).foldl (· + ·) 0 % 2 ^ 64)).foldl (fun n k => n + 2 ^ k) 0

/-- A ledger mismatch at a package (R321). -/
def Pkg.mismatch (g : Pkg) (mask step : Nat) : Pkg :=
  if mask = 0 then g
  else
    let g := g.wr (rLedger 0) (mk32 ((g.rd (rLedger 0)).toNat ||| (2 ^ 31 + mask)))
    g.logHub 0x0301 mask step 0

/-- The epoch that follows the seal: one more where a written MEMNEXT waits for it (R217, R299). -/
def Pkg.nextEpoch (g : Pkg) : Nat := if g.pr.memPend then (g.epoch + 1) % 65536 else g.epoch

/-- Why the leader refuses a seal (R218, R321). -/
def Pkg.refusal (g : Pkg) (ms : List ReadyMsg) : Option Nat :=
  if ms.any (·.nan) then some 1
  else if ms.any (·.diverged) then some 2
  else if (sumVref ms).getD ((g.rf rVcur 1 0 + 1) % 4) 0 ≠ 0 then some 3
  else if ms.any (·.mismatch) ∨ !flowsBalance ms then some 5
  else none

/-- COMMIT of the running step from the READYs held (R217). -/
def Pkg.commitMsg (g : Pkg) (ms : List ReadyMsg) : CommitMsg :=
  { step := g.step, epoch := g.nextEpoch, scales := combineScales ms, vsum := sumVref ms,
    norms := g.nativeGroups.map (fun j => g.normRes j (sumNorm ms j).1 (sumNorm ms j).2) }

/-- The leader seals once it holds every READY and the next seal is allowed; or refuses and halts the pack (R217, R218, R321). -/
def Pack.trySeal (s : Pack) (k : Nat) : Pack :=
  let g := s.g k
  let ms := g.ld.ready
  if !g.leads ∨ 2 ≤ g.phase ∨ !(positions g.mem).all (fun p => ms.any (fun m => m.pos == p)) ∨ !(g.sealAuto || g.ld.req) then s
  else
    let bal := flowsBalance ms
    let s := s.on k (fun g =>
      let g := { g with ld := { g.ld with ready := [], req := false } }
      if bal then g.wr (rLedger 8) (mk32 ((g.step + 2 ^ 32 - 2) % 2 ^ 32)) else g.mismatch (flowMask ms) ((g.step + 2 ^ 32 - 2) % 2 ^ 32))
    match g.refusal ms with
    | some c => s.haltAll k c
    | none => s.on k (fun g =>
        let c := g.commitMsg ms
        { (g.send (.commit c)) with ld := { g.ld with record := some c, acks := positions g.mem } })

/-- The leader receives READY (R217). -/
def Pack.takeReady (s : Pack) (k : Nat) (m : ReadyMsg) : Pack :=
  let g := s.g k
  if !g.leads then s
  else if m.epoch ≠ g.epoch then s.on k Pkg.stale
  else if m.step ≠ g.step ∨ !g.mem.testBit m.pos ∨ 2 ≤ g.phase then s
  else (s.on k (fun g => { g with ld := { g.ld with ready := m :: g.ld.ready.filter (fun x => x.pos != m.pos) } })).trySeal k

/-- A write of SEAL.CTL.REQ at the leader (R217). -/
def Pack.sealReq (s : Pack) (k : Nat) : Pack :=
  if (s.g k).leads then (s.on k (fun g => { g with ld := { g.ld with req := true } })).trySeal k else s

/-- A package receives COMMIT, forwards it and holds issue (R217, R219). -/
def Pkg.takeCommit (g : Pkg) (m : CommitMsg) : Pkg :=
  if m.epoch ≠ g.epoch ∧ m.epoch ≠ (g.epoch + 1) % 65536 then g.stale
  else if g.phase = 1 ∧ m.step = g.step ∧ g.pr.commit = none then
    { ((g.setPhase 2).send (.commit m)) with pr := { g.pr with commit := some m } }
  else g

/-- Operations of the step still execute at a package; what it has sent to another counts until it is acknowledged there (R219, R318). -/
def Pack.executing (s : Pack) (k : Nat) : Bool :=
  let g := s.g k
  !g.loads.isEmpty || !g.stores.isEmpty || !g.aops.isEmpty || !g.eops.isEmpty ||
    g.qops.any (fun x => x.r.op != .ctake && x.r.op != .qpop) || s.flight.any (fun x => x.src.pkg == k) ||
    s.pkgs.any (fun p => p.2.qops.any (fun x => x.r.t.pkg == k && x.r.op != .ctake && x.r.op != .qpop)) ||
    s.wire.any (fun w => w.src == k && (match w.body with | .coll _ _ => true | _ => false))

/-- Item 1 of R219 for one tensor: bank, slots, tags, and the changed blocks. -/
def Pack.flip (s : Pack) (k t : Nat) : Pack :=
  let g := s.g k
  let chg := ((g.myShards t).map (fun n => (s.changed k t n ((g.myRep t n).getD 0)).length)).foldl (· + ·) 0
  let nv := g.nver t
  let v := g.rd (rTens t 0x10)
  let w := g.wslot t
  let vc := (g.rf rVcur 1 0 + 1) % 4
  let v := setB (setF (setF (setB v 31 (g.cbank t == 0)) 30 28 w) (2 * w + 1) (2 * w) vc) (20 + w) true
  let v := setF v 27 25 ((w + 1) % (nv + 1))
  -- the ring is written in rotation: the oldest readable slot is the next one after WSLOT that SV names
  let on := ((List.range (nv + 1)).map (fun i => (w + 1 + i) % (nv + 1))).filter (fun i => bit v (20 + i))
  let v := if nv < on.length then setB v (20 + on.headD 0) false else v
  s.on k (fun g => (g.wr (rTens t 0x10) v).wr (rTens t 0x14) (mk32 chg))

/-- VCUR and VRET at a seal (R172). -/
def Pkg.sealVersions (g : Pkg) (vsum : List Nat) : Pkg :=
  let vc := (g.rf rVcur 1 0 + 1) % 4
  let g := g.wf rVcur 1 0 vc
  (List.range 4).foldl (fun g t =>
    if t = vc then g.wb rVret t false else if vsum.getD t 0 = 0 then g.wb rVret t true else g) g

/-- The local audit (R316, R318): the mask of kinds whose actual holdings differ from the booked. -/
def Pkg.audit (g : Pkg) : Nat :=
  let toks (site : Nat) : Nat := ((g.tok.filter (fun p => p.1 / 4096 == site)).map (fun p => p.2.count)).foldl (· + ·) 0
  let held (site : Nat) : Nat := ((g.ctab.filter (fun p => p.1 / 64 == site)).flatMap (fun p => p.2.map (·.n))).foldl (· + ·) 0
  let live := List.range 48
  let k0 := live.any (fun x => toks x != g.balance 0 x)
  let k1 := live.any (fun x => held x != g.balance 1 x) ||
    g.liveQueues.any (fun p => let i := g.ix p.1 p.2; g.avail p.1 p.2 + g.outc p.1 p.2 + ringDist i.p i.l != g.qSize p.1 p.2)
  let k2 := g.liveQueues.any (fun p => let i := g.ix p.1 p.2; ringDist i.p i.l != g.balance 2 (p.1 * 4096 + p.2))
  let k3 := (List.range 8).any (fun j =>
    let used := ((List.range 512).map (fun n => if g.mbHeld n && g.mbStage n == j then g.mbGran n else 0)).foldl (· + ·) 0
    used != g.stUsed j || used != g.balance 3 j)
  let k4 := (List.range 4).any (fun t =>
    let n := ((List.range 512).filter (fun n => g.mbValid n && g.mbTag n == t)).length
    n != g.rf (rVref t) 9 0 || n != g.balance 4 t)
  let k5 := g.liveQueues.any (fun p => let key := p.1 * 4096 + p.2
    ((g.co.cred.filter (fun x => x.1 == key)).map (fun x => x.2.2)).foldl (· + ·) 0 != g.balance 5 key)
  b2n k0 + 2 * b2n k1 + 4 * b2n k2 + 8 * b2n k3 + 16 * b2n k4 + 32 * b2n k5

/-- Runs the local audit of a step (R318, R321). -/
def Pkg.runAudit (g : Pkg) (step : Nat) : Pkg := (g.wr (rLedger 4) (mk32 step)).mismatch g.audit step

/-- Each end of every up edge and every UP port sends an audit marker (R320). -/
def Pkg.auditSend (g : Pkg) : Pkg :=
  { g with net := { g.net with edges := mmap (fun _ x => if x.state = 2 ∨ x.state = 3 then { x with tot := { x.tot with mark := true } } else x) g.net.edges },
           links := mmap (fun n x => if g.portState n = 2 then { x with tot := { x.tot with mark := true } } else x) g.links }

/-- NORM and FCLIP of the native groups, from COMMIT (R219, item 6). -/
def Pkg.takeNorms (g : Pkg) (ns : List NormRes) : Pkg :=
  ns.foldl (fun g r =>
    if g.sEn r.group && !g.sweep r.group then (g.wr (rSched r.group 0x3C) (mk32 r.norm)).wr (rSched r.group 0x40) (mk32 r.fclip) else g) g

/-- The count of links of each position of a membership that MEMBER carries (R299): its trained ports that face members. `new`: the package that takes a position over. -/
def Pack.linkCounts (s : Pack) (mem : Nat) (new : Option (Nat × Nat) := none) : List Nat :=
  (List.range 64).map (fun p =>
    let at' : Option Pkg := match new with
      | some (q, j) => if q = p then some (s.g j) else (s.pkgs.find? (fun x => x.2.assigned && x.2.pos == p)).map (·.2)
      | none => (s.pkgs.find? (fun x => x.2.assigned && x.2.pos == p)).map (·.2)
    if !mem.testBit p then 0
    else match at' with
      | none => 0
      | some x => ((List.range 32).filter (fun n => (x.portState n == 2 || x.portState n == 3) && x.rb (rPort n 4) 31 &&
          x.rb (rPort n 4) 30 && mem.testBit (x.rf (rPort n 4) 18 13))).length)

/-- The leader sends MEMBER once a written MEMNEXT may be applied (R299). -/
def Pack.sendMember (s : Pack) (k : Nat) : Pack :=
  let g := s.g k
  if g.leads && g.pr.memPend then
    let m := g.rd64 (hubR 0x7010) (hubR 0x7014)
    s.on k (fun g => { (g.send (.member { epoch := (g.epoch + 1) % 65536, mem := m, links := s.linkCounts m })) with
      pr := { g.pr with memPend := false } })
  else s

/-- The package leaves APPLY: HELD with SEAL.CTL.HOLD, else RUN (R219, R221). -/
def Pkg.leaveApply (g : Pkg) (hold : Bool) : Pkg :=
  let g := { g with pr := { g.pr with parked := false } }
  if hold then (g.setPhase 3).setCause (if g.ld.hostLost then 4 else 0) else ((g.setPhase 0).setCause 0).unhold

/-- Threads of the leader resume as soon as it has applied; PHASE leaves APPLY with the last ACK (R219). -/
def Pkg.resumeIssue (g : Pkg) : Pkg := if g.issueHeld then g else g.unhold

/-- Once the step's operations are complete, a package applies the seal (R219, R333, R337, R339). `ue`: the groups whose cosine table's read ends with an uncorrectable error. -/
def Pack.sealApply (s : Pack) (k : Nat) (ue : List Nat) : Pack :=
  let g := s.g k
  match g.pr.commit with
  | none => s
  | some m =>
    if s.executing k then s
    else
      let step := g.step
      let next := (step + 1) % 2 ^ 32
      let s := s.on k (fun g => (g.runAudit step).auditSend)
      let s := g.updTensors.foldl (fun s t => s.flip k t) s
      let s := (s.parityCommit k).on k (fun g => g.updTensors.foldl Pkg.advise g)
      let s := s.on k (fun g => g.rollAll m.scales)
      let s := s.on k (fun g => (g.sealVersions m.vsum).strmSeal next)
      let s := ((s.g k).liveQueues.filter (fun p => (s.g k).qInput p.1 p.2)).foldl (fun s p => s.qSeal k p.1 p.2 next) s
      let s := ((List.range 64).filter (fun j => g.sEn j)).foldl (fun s j => s.schedStep k j (ue.contains j)) s
      let s := s.on k (fun g =>
        let g := g.takeNorms m.norms
        { g with tr := { late := g.tr.late, lateMarks := g.tr.lateMarks, passes := g.tr.passes },
                 flows := g.flows.filter (fun p => p.1 % 4 != (step + 2) % 4) })
      let s := s.on k (fun g =>
        let g := ((g.wr rSealStep (mk32 step)).wf rSealEpoch 15 0 m.epoch).wb rPackStat 1 false
        let g := (g.wr (hubR 0x15010) (mk32 step)).wr (hubR 0x15014) (mk32 (m.epoch % 65536))
        (g.wf (rProt 4) 15 8 0).send (.sealAck g.pos step))
      let s := (s.on k (fun g => g.dqAdd (g.dqRec 0x33 0 0 step 0 0 0 0 0))).dqRun k
      let s := s.sealCut k (some m)
      let s := s.thRetry k
      let s := s.on k (fun g => { g with pr := { g.pr with commit := none } })
      let hold := (s.g k).sealHold || (s.g k).ld.hostLost
      if (s.g k).leads then ((s.on k (fun g => { g with pr := { g.pr with parked := hold } })).sendMember k).on k Pkg.resumeIssue
      else s.on k (fun g => g.leaveApply hold)

/-- The leader receives an ACK (R219). -/
def Pkg.takeAck (g : Pkg) (p step : Nat) : Pkg :=
  if g.leads ∧ g.phase = 2 ∧ step = g.sealed ∧ g.pr.commit = none then
    let acks := g.ld.acks.filter (· != p)
    let g := { g with ld := { g.ld with acks := acks } }
    if acks.isEmpty then g.leaveApply g.pr.parked else g
  else g

/-- Builds or images of enabled tensors that keep the pack in HELD (R329, R335, R338). -/
def Pack.owes (s : Pack) (k : Nat) : Bool :=
  (s.members k).any (fun j => (s.g j).pr.build.any (fun x => (s.g j).tEn (x / 65536)) || (s.g j).pr.image.any (s.g j).tEn || s.dqWaits j [0x31, 0x32])

/-- The pack leaves HELD once RESUME is written and nothing is owed, and the modes written take effect (R329, R338, R344). -/
def Pack.tryResume (s : Pack) (k : Nat) : Pack :=
  let g := s.g k
  if !g.ld.resume ∨ g.phase ≠ 3 ∨ s.owes k then s
  else
    let s := s.on k (fun g => { (g.send .resume) with ld := { g.ld with resume := false, hostLost := false } })
    s.onMembers k (fun g => if g.phase = 3 then
        ((({ g.modesIn with ld := { g.ld with hostLost := false } }).setPhase 0).setCause 0).unhold
      else g)

/-- A write of SEAL.CTL.RESUME: at the leader in HELD; the first RESUME after a tensor becomes DELTA starts its full image (R218, R338). -/
def Pack.sealResume (s : Pack) (k : Nat) : Pack :=
  let g := s.g k
  if !g.leads ∨ g.phase ≠ 3 then s
  else
    let s := s.on k (fun g => { g with ld := { g.ld with resume := true } })
    let s := (s.members k).foldl (fun s j => s.dqImages j) s
    s.tryResume k

/-- A write to SEAL.CTL (R217, R218): HOLD and AUTO, then REQ and RESUME. -/
def Pack.sealCtl (s : Pack) (k : Nat) (v : W32) : Pack :=
  let s := s.on k (fun g => g.wf rSealCtl 1 0 (fld v 1 0))
  let s := if bit v 2 then s.sealReq k else s.trySeal k
  if bit v 3 then s.sealResume k else s

/-- The leader's host link has been down for 1 ms (R221). -/
def Pack.hostLinkLost (s : Pack) (k : Nat) : Pack :=
  if (s.g k).leads then
    s.onMembers k (fun g => { (g.wb rSealCtl 1 true) with ld := { g.ld with hostLost := true } })
  else s

/-- The leader holds the accumulators of every member and computes the sweep's NORM and FCLIP (R212). -/
def Pkg.takeSweep (g : Pkg) (p step : Nat) (a : NormAcc) : Pkg :=
  if !g.leads ∨ step ≠ g.step ∨ !g.mem.testBit p then g
  else
    let l := (p, a) :: g.ld.sweep.filter (fun x => !(x.1 == p && x.2.group == a.group))
    let g := { g with ld := { g.ld with sweep := l } }
    let mine := l.filter (fun x => x.2.group == a.group)
    if (positions g.mem).all (fun q => mine.any (fun x => x.1 == q)) then
      let sum := (mine.map (fun x => x.2.sum)).foldl (· + ·) 0
      let g := g.send (.sweepNorm g.step (g.normRes a.group sum (mine.any (fun x => x.2.ovf))))
      { g with ld := { g.ld with sweep := l.filter (fun x => x.2.group != a.group) } }
    else g

end Sys2Proof.Machine
end

