-- ==== Sys2Proof/Machine/CollOps.lean ====
section
/-! DEFINITION. CONTRIB, GATHER, the collective engines, deadlines, broadcast and the permute (R136, R137, R213, R214, R225 to R245). -/

set_option linter.unusedVariables false

namespace Sys2Proof.Machine

/-- A register of reduction group `j`. -/
def rColl (j o : Nat) : Nat := hubR (0x8000 + 0x40 * j + o)

/-- Fields of COLL (R231). -/
def Pkg.cEn (g : Pkg) (j : Nat) : Bool := g.rb (rColl j 0) 28
def Pkg.policy (g : Pkg) (j : Nat) : Nat := g.rf (rColl j 0) 27 26
def Pkg.iqid (g : Pkg) (j : Nat) : Nat := g.rf (rColl j 0) 11 0
def Pkg.cMem (g : Pkg) (j : Nat) : Nat := g.rd64 (rColl j 4) (rColl j 8)
def Pkg.lstep (g : Pkg) (j : Nat) : Nat := (g.rd (rColl j 0x1C)).toNat
def Pkg.openStep (g : Pkg) (j : Nat) : Nat := (g.lstep j + 1) % 2 ^ 32
def Pkg.cTimer (g : Pkg) (j : Nat) : Option Nat := if g.rb (rColl j 0x10) 6 then some (g.rf (rColl j 0x10) 5 0) else none

/-- The policy runs a deadline: GLEAN or CHAFF (R237). -/
def Pkg.timed (g : Pkg) (j : Nat) : Bool := g.policy j == 1 || g.policy j == 2

/-- Most credits of an inbound queue that the engines of one position hold (R230). -/
def Pkg.credCap (g : Pkg) (j site q : Nat) : Nat := g.qSize site q / max 1 (popcount (g.cMem j))

/-- The checks of a group enable but for the timer (R231). -/
def Pkg.collOk (g : Pkg) (j : Nat) : Bool :=
  let q := g.iqid j
  match g.home q with
  | none => false
  | some site =>
    qClass q == 2 && g.qProd site q == 2 && g.qEn site q && g.cMem j != 0 && g.policy j != 3 &&
      (!g.timed j || (g.rd (rColl j 0xC)).toNat != 0) && decide (4 ≤ g.credCap j site q)

/-- The control word of a timer that group `j` owns, not running: ALLOC, OWNER 0b10, OGRP (R387). -/
def collTimer (j : Nat) : W32 := mk32 (2 ^ 31 + 2 ^ 28 + j % 64 * 2 ^ 21)

/-- A passing enable, with the timer it takes (R231, R387). -/
def Pkg.collArm (g : Pkg) (j : Nat) : Pkg :=
  let ok (g : Pkg) : Pkg := (g.wb (rColl j 0) 28 true).wr (rColl j 0x1C) (mk32 g.sealed)
  if g.timed j then
    match g.freeTimer with
    | some n => ok ((g.wr (rTmr n 0) (collTimer j)).wr (rColl j 0x10) (mk32 (64 + n)))
    | none => g.wb (rColl j 0) 30 true
  else ok g

/-- A group is disabled and its timer freed (R231). -/
def Pkg.collOff (g : Pkg) (j : Nat) : Pkg :=
  let g := match g.cTimer j with
    | some n => (g.tmrFree n).wr (rColl j 0x10) 0
    | none => g
  { (g.wb (rColl j 0) 28 false) with co := { g.co with st := mins g.co.st j {} } }

/-- A write to a register of a group (R231). -/
def Pkg.collWrite (g : Pkg) (j o : Nat) (v : W32) : Pkg :=
  let a := rColl j 0
  match o with
  | 0x20 | 0x24 | 0x28 => g.wr (rColl j o) v
  | 0 =>
    let g := g.wf a 30 29 (g.rf a 30 29 &&& (3 - fld v 30 29))
    if !g.calm then g
    else if g.cEn j then (if bit v 28 then g else g.collOff j)
    else
      let g := g.wr a (setF (setF (g.rd a) 27 26 (fld v 27 26)) 11 0 (fld v 11 0))
      if !bit v 28 then g else if g.collOk j then g.collArm j else g.wb a 29 true
  | 4 | 8 | 0xC => if g.calm && !g.cEn j then g.wr (rColl j o) v else g
  | _ => g

/-- The place of the data of an index of a class 0b10 queue (R226). -/
def Pkg.dataLoc (g : Pkg) (k site q i : Nat) : Loc :=
  let a := g.qBase site q + 64 * g.qSize site q + 2048 * (i % g.qSize site q)
  { pk := k, site := (a >>> 52) % 64, space := (a >>> 48) % 16, off := a % 2 ^ 48 }

/-- A field of an entry (R227). -/
def eField (e : List Byte) (lo n : Nat) : Nat := leVal ((e.drop lo).take n)

/-- TCHK of an entry over its data (R227). -/
def tchkOf (e data : List Byte) : Nat := crc32c (data ++ e.take 20)

/-- What a CONTRIB's entry would be refused for when it is filled (R196, R200, R208, R228): an ENGINE_ACCESS, or GRAD_ORDINAL with its arguments. -/
def Pkg.contribBad (g : Pkg) (d : Tile) (tens mbid : Nat) : Option (Nat × Nat × Nat) :=
  if 16384 ≤ tens ∨ !g.tEn tens ∨ !g.tUpd tens ∨ d.orgi % 32 ≠ 0 ∨ d.orgj % 32 ≠ 0 then some (0x0202, 0, 0)
  else
    let ord := g.rf (rMbt mbid 0) 15 0
    if g.kacc tens ≠ 1 ∧ g.kacc tens ≤ ord then some (0x0206, ord, g.kacc tens) else none

/-- CONTRIB at issue (R131, R137, R228): checked, handed to its array or the collective engine, a credit consumed when it is (R96). -/
def contribBody (t : Tid) (f : Fields) : Body := fun th s =>
  let g := s.g t.pkg
  let acc := f.ib 0
  let src := th.td f.a.toNat
  let mbid := (th.s (f.i 6 2)).toNat % 2 ^ 16
  match s.queueTo t (th.s f.b.toNat) with
  | none => (s, .trap 1 none)
  | some (pos, q, pk, hs) =>
    match firstBad [need ((th.td f.d.toNat).rsv == 0) 3, if acc then none else tileChk src,
        need (acc || (src.fmt == .b16 && !src.blk)) 6, need g.pipeOn 2, need (decide (mbid ≤ 511)) 6,
        if acc then none else viewChk s t src 32 32] with
    | some x => (s, .trap x.1 x.2)
    | none =>
      let sta : Nat := if acc then 0 else if src.stat = 0 then 0xFFFF0000 else leVal (s.rdN t src.stat 4)
      let r := mkOp g .contrib t f th [th.s f.b.toNat, th.s f.c.toNat, BitVec.ofNat 64 mbid, BitVec.ofNat 64 sta]
      let r := { r with v := r.v ++ [BitVec.ofNat 64 hs] }
      if 1 ≤ g.credits t.site t.unit pos q then
        let h := s.hand r
        if h.2 = .adv then ((h.1.spendCredit r).getD h.1, .adv) else h
      else
        match (s.g pk).qFault hs q with
        | some x => (s, .trap x none)
        | none => (s, .wait (.push r))

/-- The B16 codes a CONTRIB sends and their status word; an accumulator source runs its epilogue (R68, R137). -/
def Pack.contribTile (s : Pack) (r : OpRec) : List Nat × W32 × Pack :=
  let t := r.t
  let g := s.g t.pkg
  if r.f.ib 0 then
    let n := r.f.a.toNat
    let x := (g.tile t.site t.unit (n / 8) (n % 8)).settle r.td.orgi r.td.orgj
    let y := epiTile x (g.cur t.site x.sa) (g.cur t.site x.sb) none
    let out := (flat y.1).map (fun v => convert v .b16 .rne)
    let sta := staEpi x.sta (out.foldl (fun f c => f.or c.2) y.2)
    let s := s.on t.pkg (fun g => g.setTile t.site t.unit (n / 8) (n % 8) { x with sta := sta })
    (out.map (·.1), sta, if r.td.stat = 0 then s else s.wrWord t r.td.stat sta)
  else
    let m := s.codes t r.ta 32 32
    (flat (if r.f.ib 1 then transpose m else m), mk32 (r.v.getD 3 0).toNat, s)

/-- The credit of a CONTRIB that has placed no entry returns to its queue (R104). -/
def Pack.contribBack (s : Pack) (r : OpRec) : Pack :=
  match qidOf (r.v.getD 0 0) with
  | none => s
  | some (pos, q) =>
    match s.at r.t.pkg pos with
    | none => s
    | some pk =>
      let hs := (r.v.getD 4 0).toNat
      s.on pk (fun g => g.setCred hs q (g.avail hs q + 1) (g.outc hs q - 1))

/-- Performs a CONTRIB (R137, R228): the entry and its data are written in the outgoing queue, or it ends with an error report and its credit returns. -/
def Pack.runContrib (s : Pack) (r : OpRec) : Pack :=
  let t := r.t
  match if r.f.ib 0 then none else s.viewBad t r.ta 32 32 with
  | some p => (s.contribBack r).on t.pkg (fun g => g.engErr t.site t.unit 2 p.2)
  | none =>
  match qidOf (r.v.getD 0 0) with
  | none => s
  | some (pos, q) =>
    match s.at t.pkg pos with
    | none => s
    | some pk =>
      let hs := (r.v.getD 4 0).toNat
      let tens := (r.v.getD 1 0).toNat % 2 ^ 32
      let mbid := (r.v.getD 2 0).toNat
      let c := s.contribTile r
      let g := c.2.2.g t.pkg
      match g.contribBad r.td tens mbid with
      | some x =>
        Pack.contribBack (c.2.2.on t.pkg (fun g =>
          if x.1 = 0x0206 then g.logAt 0x0206 t.site t.unit t.thr tens x.2.1 x.2.2 else g.engErr t.site t.unit 2 tens)) r
      | none =>
        let data := c.1.flatMap (fun x => leBytes x 2)
        let head := leBytes 0x10 1 ++ leBytes 0 1 ++ leBytes (g.rf (rMbt mbid 0) 15 0) 2 ++ leBytes (g.rd (rMbt mbid 4)).toNat 4 ++
          leBytes tens 4 ++ leBytes (r.td.orgi / 32) 2 ++ leBytes (r.td.orgj / 32) 2 ++ leBytes c.2.1.toNat 4
        let e := head ++ leBytes (crc32c (data ++ head)) 4 ++ leBytes g.pos 1 ++ leBytes (g.tGroup tens) 1 ++ List.replicate 34 0
        let s := c.2.2
        let i := (s.g pk).ix hs q
        if (s.g pk).qState hs q ≠ 1 then s
        else
          let s := s.store ((s.g pk).dataLoc pk hs q i.p) data
          let s := s.ringWrite pk hs q e 1 i.p
          let s := s.on pk (fun g => g.setCred hs q (g.avail hs q) (g.outc hs q - 1))
          (s.inflow pk 1 t.pkg 1).moveIx pk hs q 0 { i with p := (i.p + 1) % 65536 }

/-- GATHER at issue (R136): handed to the die's gathering engine, which itself refuses an O8 or A32 view (R37, R38). -/
def gatherBody (t : Tid) (f : Fields) : Body := fun th s =>
  let g := s.g t.pkg
  let d := th.td f.d.toNat
  match firstBad [tileChk d, need (g.scaleOn t.site) 2, need (g.cengOn t.site) 2, need g.stateOn 2,
      viewChk s t d 32 (32 * (f.i 10 3 + 1))] with
  | some x => (s, .trap x.1 x.2)
  | none => s.hand (mkOp g .gather t f th [th.s f.a.toNat])

/-- The gather a command names: the `i`-th engine operation of the package. -/
def Pack.gatherAt (s : Pack) (k i : Nat) : Option OpRec :=
  match (s.g k).eops[i]? with
  | some r => if r.op == .gather then some r else none
  | none => none

/-- Rows and columns of the tensor that a gather reads (R136). -/
def gatherExt (r : OpRec) : Nat × Nat := if r.f.ib 2 then (32 * (r.f.i 10 3 + 1), 32) else (32, 32 * (r.f.i 10 3 + 1))

/-- A gather ends: its completion is delivered, its requests are dropped, and tiles that still arrive are discarded (R103, R241). The Threshers of the owners it read look again at what waited for it (R215). -/
def Pack.gatherEnd (s : Pack) (k : Nat) (r : OpRec) : Pack :=
  let owners := (((s.g k).co.gath.filter (fun x => x.seq == r.seq)).map (·.pk)).eraseDups
  let s := s.on k (fun g =>
    { g with eops := g.eops.erase r,
             co := { g.co with gath := g.co.gath.filter (fun x => x.seq != r.seq), tilesIn := g.co.tilesIn.filter (fun x => x.1 != r.seq) } }.complete r.t r.f)
  owners.foldl (fun s pk => s.thRetry pk) (s.look r.t)

/-- The shards a gather touches. -/
def Pkg.gatherShards (g : Pkg) (r : OpRec) (t : Nat) : List Nat :=
  let lo := g.shardOf t (r.td.orgi / 32)
  let hi := g.shardOf t ((r.td.orgi + (gatherExt r).1 - 1) / 32)
  (List.range (hi + 1 - lo)).map (fun n => lo + n)

/-- The ring slot a tag resolves to at an owner (R213): none where it is not held or retired. -/
def Pkg.resolve (g : Pkg) (t tag : Nat) : Option Nat :=
  if !g.tUpd t then some (g.tCur t)
  else if g.rb rVret tag then none
  else (List.range 5).find? (fun i => g.sv t i && g.slotVtag t i == tag)

/-- A shard owner resolves the tag of a gather's request (R136, R200, R213). -/
def Pack.gatherRequest (s : Pack) (k i n : Nat) : Pack :=
  match s.gatherAt k i with
  | none => s
  | some r =>
    let g := s.g k
    let t := (r.v.getD 0 0).toNat % 2 ^ 32
    let e := gatherExt r
    if isO8 r.td.fmt ∨ r.td.fmt = .a32 ∨ 16384 ≤ t ∨ !g.tEn t ∨ 32 * g.rows32 t < r.td.orgi + e.1 ∨ 32 * g.cols32 t < r.td.orgj + e.2 then
      (s.on k (fun g => g.engErr r.t.site r.t.unit 4 r.td.base)).gatherEnd k r
    else if !(g.gatherShards r t).contains n ∨ g.co.gath.any (fun x => x.seq == r.seq && x.shard == n) then s
    else
      let rep := g.firstRep t n
      match s.at k (g.rootOf t n) with
      | none => (s.on k (fun g => g.engErr r.t.site r.t.unit 4 r.td.base)).gatherEnd k r
      | some pk =>
        match (s.g pk).resolve t (r.f.i 1 0) with
        | none =>
          let s := s.on pk (fun h => (h.wb (rTens t 0x18) 3 true).engErr (48 + h.ownStack (h.ownerOf t n rep)) 0xFF 5 t)
          s.gatherEnd k r
        | some slot =>
          s.on k (fun g => { g with co := { g.co with gath := g.co.gath ++
            [{ seq := r.seq, tensor := t, shard := n, pk := pk, rep := rep, slot := slot }] } })

/-- Element (i, j) of a tensor at the version its gather resolved to. -/
def Pack.stateElem (s : Pack) (g : Pkg) (x : GReq) (i j : Nat) : Nat :=
  leVal (s.bytes (g.planeLoc x.pk x.tensor x.shard x.rep x.slot (2 * ((i - 32 * x.shard * g.shr32 x.tensor) * (32 * g.cols32 x.tensor) + j))) 2)

/-- The first block a gather's tile reads whose digest does not match (R214). -/
def Pack.badDigest (s : Pack) (g : Pkg) (xs : List GReq) (i0 j0 : Nat) : Option (GReq × Nat) :=
  (List.range 32).findSome? (fun i =>
    match xs.find? (fun x => x.shard == g.shardOf x.tensor ((i0 + i) / 32)) with
    | none => none
    | some x =>
      let o (j : Nat) := 2 * ((i0 + i - 32 * x.shard * g.shr32 x.tensor) * (32 * g.cols32 x.tensor) + j)
      [o j0 / 4096, o (j0 + 31) / 4096].eraseDups.findSome? (fun b =>
        if s.digStored x.pk x.tensor x.shard x.rep x.slot b = s.digNow x.pk x.tensor x.shard x.rep x.slot b then none
        else some (x, b)))

/-- The descriptor of tile `j` of a gather's view. -/
def gatherView (d : Tile) (j : Nat) : Tile :=
  { d with w0 := d.w0 + BitVec.ofNat 64 (4 * j * fmtBits d.fmt),
           w1 := d.w1 + BitVec.ofNat 64 (if d.baxis = 0 then j else 32 * j),
           w4 := BitVec.ofNat 64 (d.w4.toNat - d.orgj * 2 ^ 20 + (d.orgj + 32 * j) % 2 ^ 20 * 2 ^ 20) }

/-- The outcomes of an owner's reads for a gather are recorded at their bursts, under the engine that gathers (R214, R253, R255). -/
def Pack.gatherReadsAt (s : Pack) (w : Who) (xs : List GReq) (us : List Upset) : Pack :=
  us.foldl (fun s u =>
    match xs.find? (fun x => x.tensor == u.tensor && x.shard == u.shard) with
    | none => s
    | some x =>
      let h := s.g x.pk
      if h.areaBytes x.tensor ≤ u.off then s else s.eccAt w (h.planeLoc x.pk x.tensor x.shard x.rep 0 u.off) u.ecc) s

/-- The stack of an owner that a gather reads is gated (R259). -/
def Pack.ownerGated (s : Pack) (x : GReq) : Bool :=
  let h := s.g x.pk
  !h.stackOn (h.ownStack (h.ownerOf x.tensor x.shard x.rep))

/-- A tile of a gather arrives, is verified, converted and written (R136, R214, R241, R310), once every shard that the gather touches has resolved its tag; a destination that is invalid or gated ends the gather with its report (R111, R446). The stack's outcome is the older stage's and is reported before a digest (R305). `us`: reads of the owners that do not end clean; `chk`: the tile's checksum verifies. -/
def Pack.gatherTile (s : Pack) (k i j : Nat) (us : List Upset) (chk : Bool) : Pack :=
  match s.gatherAt k i with
  | none => s
  | some r =>
    let g := s.g k
    let t := (r.v.getD 0 0).toNat % 2 ^ 32
    let xs := g.co.gath.filter (fun x => x.seq == r.seq)
    let tr := r.f.ib 2
    let i0 := r.td.orgi + (if tr then 32 * j else 0)
    let j0 := r.td.orgj + (if tr then 0 else 32 * j)
    let ready := (g.gatherShards r t).all (fun n => xs.any (fun x => x.shard == n))
    let us := us.filter (fun u => xs.any (fun x => x.tensor == u.tensor && x.shard == u.shard))
    let who : Who := { site := r.t.site, unit := r.t.unit, thr := r.t.thr }
    if r.f.i 10 3 < j ∨ !ready ∨ g.co.tilesIn.contains (r.seq, j) ∨ g.held r then s
    else if xs.any (fun x => s.ownerGated x) then (s.on k (fun g => g.engErr r.t.site r.t.unit 4 r.td.base)).gatherEnd k r
    else
    let s := s.gatherReadsAt who xs us
    if us.any (fun u => u.ecc == .ue) then s.gatherEnd k r
    else match s.badDigest g xs i0 j0 with
      | some (x, b) =>
        let l := g.planeLoc x.pk x.tensor x.shard x.rep x.slot (4096 * b)
        let a := gaddr (s.g x.pk).pos l.site 8 l.off
        let s := s.on x.pk (fun h => (h.logAt 0x0207 l.site 0xFF 0xFF t (a % 2 ^ 32) (a / 2 ^ 32)).send (.revertReq h.pos 0x0207))
        s.gatherEnd k r
      | none =>
        if !chk then
          (s.on k (fun g => (g.logAt 0x020C r.t.site r.t.unit r.t.thr t (i0 / 32 * 65536 + j0 / 32) g.step).send (.revertReq g.pos 0x020C))).gatherEnd k r
        else match s.viewBad r.t (gatherView r.td j) 32 32 with
        | some p => (s.on k (fun g => g.engErr r.t.site r.t.unit 4 p.2)).gatherEnd k r
        | none =>
          let m := (List.range 32).map (fun a => (List.range 32).map (fun b =>
            match xs.find? (fun x => x.shard == g.shardOf t ((i0 + a) / 32)) with
            | some x => ofB (s.stateElem g x (i0 + a) (j0 + b))
            | none => valZero))
          let m := if tr then transpose m else m
          let o := s.convOut r.t (gatherView r.td j) m false false none
          let s := o.1.orFlags r.t r.td.stat o.2
          let s := s.on k (fun g => { g with co := { g.co with tilesIn := (r.seq, j) :: g.co.tilesIn } })
          if (List.range (r.f.i 10 3 + 1)).all (fun j => (s.g k).co.tilesIn.contains (r.seq, j)) then s.gatherEnd k r else s

/-- Releases the entry at L of a queue whose consumer is the engine: L, and C and M where they stand there. -/
def Pack.releaseHead (s : Pack) (k site q : Nat) : Pack :=
  let i := (s.g k).ix site q
  let l := (i.l + 1) % 65536
  let s := s.on k (fun g => g.setCred site q (g.avail site q + 1) (g.outc site q))
  s.moveIx k site q 0 { p := i.p, c := if i.c = i.l then l else i.c, m := if i.m = i.l then l else i.m, l := l }

/-- Releases outgoing entries at the head that every destination has written (R229). -/
def Pack.freeOut (k site q : Nat) : Nat → Pack → Pack
  | 0, s => s
  | n + 1, s =>
    let i := (s.g k).ix site q
    if i.l ≠ i.c ∧ (s.g k).co.acks.contains (qkey site q, i.l, 0) then
      let s := s.on k (fun g => { g with co := { g.co with acks := g.co.acks.erase (qkey site q, i.l, 0) } })
      Pack.freeOut k site q n (s.releaseHead k site q)
    else s

/-- One destination has written an outgoing entry, or been passed over (R229, R242). -/
def Pkg.ackOut (g : Pkg) (qk idx : Nat) : Pkg :=
  { g with co := { g.co with acks := g.co.acks.map (fun x => if x.1 = qk ∧ x.2.1 = idx then (x.1, x.2.1, x.2.2 - 1) else x) } }

/-- The destinations of an outgoing entry, as (position, queue) pairs; none where the entry has no member list (R229, R232, R242). -/
def Pkg.destsOf (g : Pkg) (e : List Byte) : Option (List (Nat × Nat)) :=
  let kind := eField e 0 1
  let t := eField e 8 4
  let j := if kind = 0x10 then g.tGroup t else eField e 25 1 % 64
  if kind = 0x10 then some [(g.rootOf t (g.shardOf t (eField e 12 2)), g.iqid j)]
  else if !g.cEn j then none
  else some ((positions (g.cMem j)).map (fun p => (p, if kind = 0x12 then eField e 26 2 % 4096 else g.iqid j)))

/-- The head outgoing entry is done with: consumed, its destinations' writes awaited. -/
def Pack.passHead (s : Pack) (k site q : Nat) : Pack :=
  let i := (s.g k).ix site q
  let s := s.on k (fun g => { g with co := { g.co with sent := mins g.co.sent (qkey site q) 0 } })
  let s := s.moveIx k site q 0 { i with c := (i.c + 1) % 65536 }
  Pack.freeOut k site q 65536 s

/-- What an entry carries with it: the tile of a CONTRIB, the first BYTES bytes of a BCAST, nothing with a MARK (R226, R229, R242). -/
def carried (e data : List Byte) : List Byte :=
  match eField e 0 1 with
  | 0x10 => data
  | 0x12 => data.take (eField e 28 4)
  | _ => []

/-- The collective engine sends the head entry of an outgoing queue to its next destination once it holds a credit there (R227, R229, R230, R242). `ecc`: how its read of the entry and its data comes out; an uncorrectable one ends the operation with its report (R255, R308). -/
def Pack.collSend (s : Pack) (k site q : Nat) (ecc : Ecc) : Pack :=
  let g := s.g k
  let i := g.ix site q
  let qk := qkey site q
  if qClass q ≠ 2 ∨ g.home q ≠ some site ∨ g.qState site q ≠ 1 ∨ g.qProd site q ≠ 0 ∨ !g.cengOn site ∨ !g.qengOn site ∨ i.p = i.c then s
  else
    let e := s.bytes (g.entryLoc k site q i.c) 64
    let data := carried e (s.bytes (g.dataLoc k site q i.c) 2048)
    let s := s.eccAt { site := site } (g.entryLoc k site q i.c) ecc
    let kind := eField e 0 1
    let drop (s : Pack) : Pack :=
      (s.on k (fun g => { g with co := { g.co with acks := g.co.acks ++ [(qk, i.c, 0)] } })).passHead k site q
    if ecc = .ue then s
    else if !chkOk q i.c e then s.integrity k site q false i.c
    else if kind ≠ 0x10 ∧ kind ≠ 0x11 ∧ kind ≠ 0x12 then drop (s.on k (fun g => g.logAt 0x010A site 0xFF 0xFF q kind g.pos))
    else match g.destsOf e with
      | none => drop (s.on k (fun g => g.engErr site 0xFF 2 (eField e 25 1)))
      | some ds =>
        let n := mget 0 g.co.sent qk
        -- the destinations' writes are counted from the first that is served (R229)
        let open' (s : Pack) : Pack := if n = 0 then s.on k (fun g => { g with co := { g.co with acks := g.co.acks ++ [(qk, i.c, ds.length)] } }) else s
        let skip (s : Pack) (p dq : Nat) : Pack := (open' s).on k (fun g => (g.logAt 0x0209 site 0xFF 0xFF dq p 0).ackOut qk i.c)
        let next (s : Pack) : Pack :=
          let s := s.on k (fun g => { g with co := { g.co with sent := mins g.co.sent qk (n + 1) } })
          if ds.length ≤ n + 1 then s.passHead k site q else s
        match ds[n]? with
        | none => (open' s).passHead k site q
        | some (p, dq) =>
          match s.at k p with
          | none => s
          | some pk =>
            let h := s.g pk
            match h.home dq with
            | none => if kind = 0x12 then next (skip s p dq) else s
            | some ds' =>
              if qClass dq ≠ 2 ∨ h.qProd ds' dq ≠ 2 then
                (if kind = 0x12 then next (skip s p dq) else s)
              else
                let j := if kind = 0x10 then g.tGroup (eField e 8 4) else eField e 25 1 % 64
                let c := h.credOf (qkey ds' dq) g.pos
                if h.qState ds' dq ≠ 1 ∨ h.avail ds' dq = 0 ∨ h.credCap j ds' dq ≤ c then s
                else
                  let s := s.on pk (fun h =>
                    ((h.setCred ds' dq (h.avail ds' dq - 1) (h.outc ds' dq + 1)).setCredOf (qkey ds' dq) g.pos (c + 1)).book 5 (qkey ds' dq) 1)
                  let s := if pk = k then s else s.on k (fun g => g.flow 5 g.step true 1)
                  let e := e.take 24 ++ leBytes g.pos 1 ++ (e.drop 25)
                  let s := open' s
                  next { s with wire := s.wire ++ [{ src := k, dst := pk, dq := dq, qk := qk, idx := i.c, body := .coll e data }] }

/-- Releases inbound entries at the head that are freed (R233, R235, R236). -/
def Pack.freeIn (k site q : Nat) : Nat → Pack → Pack
  | 0, s => s
  | n + 1, s =>
    let g := s.g k
    let i := g.ix site q
    match g.co.inb.find? (fun x => x.site == site && x.q == q && x.idx == i.l && x.freed) with
    | none => s
    | some x =>
      let s := s.on k (fun g => { (g.credBack (qkey site q) x.src) with co := { (g.credBack (qkey site q) x.src).co with inb := g.co.inb.erase x } })
      Pack.freeIn k site q n (s.releaseHead k site q)

/-- Marks inbound records that meet a test as freed and releases what stands at the head. -/
def Pack.freeWhere (s : Pack) (k : Nat) (test : Inb → Bool) : Pack :=
  let hits := (s.g k).co.inb.filter test
  let s := s.on k (fun g => { g with co := { g.co with inb := g.co.inb.map (fun x => if test x then { x with freed := true } else x) } })
  ((hits.map (fun x => (x.site, x.q))).eraseDups).foldl (fun s p => Pack.freeIn k p.1 p.2 65536 s) s

/-- One level of tree_sum: neighbours added into A32, an absent one passed over (R234). -/
def treeLevel : List (Option (List Nat × Flg)) → List (Option (List Nat × Flg))
  | a :: b :: r =>
    (match a, b with
     | some x, some y =>
       let out := (x.1.zip y.1).map (fun p => rneA ((ofA p.1).add (ofA p.2)))
       some (out.map (·.1), out.foldl (fun f c => f.or c.2) (x.2.or y.2))
     | some x, none => some x
     | none, y => y) :: treeLevel r
  | l => l

/-- tree_sum of R234, with fuel for the levels. -/
def treeSum : Nat → List (Option (List Nat × Flg)) → Option (List Nat × Flg)
  | 0, l => l.headD none
  | n + 1, l => if l.length ≤ 1 then l.headD none else treeSum n (treeLevel l)

/-- Members ascending, rotated so that the root has rank 0 (R234). -/
def ranks (mem root : Nat) : List Nat :=
  let l := positions mem
  (l.dropWhile (· != root)) ++ (l.takeWhile (· != root))

/-- A B16 code in A32 (R43). -/
def widen (c : Nat) : Nat := (rneA (ofB c)).1

/-- reduce of R234: the on-time records by position, then the gleaned in ascending position; the codes and the status word. -/
def reduceTile (mem root : Nat) (ont glean : List Inb) : Option (List Nat × W32) :=
  let lvl := (ranks mem root).map (fun p => (ont.find? (fun x => x.src == p)).map (fun x => (x.data.map widen, ({} : Flg))))
  let gl := sortBy (fun a b => decide (a.src ≤ b.src)) glean
  let s := gl.foldl (fun acc x =>
    let y := x.data.map widen
    match acc with
    | none => some (y, ({} : Flg))
    | some a =>
      let out := (a.1.zip y).map (fun p => rneA ((ofA p.1).add (ofA p.2)))
      some (out.map (·.1), out.foldl (fun f c => f.or c.2) a.2)) (treeSum 64 lvl)
  s.map (fun a =>
    let out := a.1.map (fun c => convert (ofA c) .b16 .rne)
    let fl := out.foldl (fun f c => f.or c.2) a.2
    let st := (ont ++ glean).foldl (fun n x => n ||| fld x.sta 3 0 ||| fld x.sta 7 4) (flgBits fl)
    (out.map (·.1), mk32 (0xFFFF0000 + st)))

/-- The records of one instance: on time, or gleaned into it. -/
def Pkg.onTime (g : Pkg) (j step t row col ord : Nat) : List Inb :=
  g.co.inb.filter (fun x => !x.isMark && !x.closed && !x.bad && !x.freed && !x.glean && !x.after && x.group == j && x.step == step && x.tensor == t &&
    x.row == row && x.col == col && x.ord == ord)
def Pkg.gleaned (g : Pkg) (j step t row col ord : Nat) : List Inb :=
  g.co.inb.filter (fun x => !x.isMark && !x.closed && !x.freed && x.glean && x.group == j && (x.step + 1) % 2 ^ 32 == step && x.tensor == t &&
    x.row == row && x.col == col && x.ord == ord)

/-- An instance closes: it is reduced and sent to every replica owner (R234 to R236). -/
def Pack.closeInst (s : Pack) (k j step t row col ord : Nat) : Pack :=
  let g := s.g k
  let ont := g.onTime j step t row col ord
  let gl := g.gleaned j step t row col ord
  match reduceTile (g.cMem j) g.pos ont gl with
  | none => s
  | some r =>
    let n := g.shardOf t row
    let pks := ((List.range (g.repl t)).filterMap (fun i => s.at k (g.ownPos (g.ownerOf t n i)))).eraseDups
    let rec0 : RedRec := { step := step, tensor := t, row := row, col := col, ord := ord, n := ont.length + gl.length,
                           sta := r.2, root := g.pos, chk := 0, data := r.1 }
    let rec1 := { rec0 with chk := crc32c (redBytes rec0) }
    let s := s.on k (fun g => { g with co := { g.co with
      inb := g.co.inb.map (fun x => if ont.contains x || gl.contains x then { x with closed := true } else x),
      out := g.co.out ++ [{ group := j, step := step, tensor := t, row := row, col := col, ord := ord, left := pks }] } })
    { s with wire := s.wire ++ pks.map (fun p => { src := k, dst := p, dq := 0, qk := 0, idx := 0, body := Cargo.red rec1 }) }

/-- The open instances of a group, as (tensor, row, col, ord). -/
def Pkg.openInsts (g : Pkg) (j : Nat) : List (Nat × Nat × Nat × Nat) :=
  ((g.co.inb.filter (fun x => !x.isMark && !x.closed && !x.bad && !x.freed && !x.after && x.group == j &&
    (if x.glean then x.step == g.lstep j else x.step == g.openStep j))).map
    (fun x => (x.tensor, x.row, x.col, x.ord))).eraseDups

/-- An instance has a record that failed its check (R233). -/
def Pkg.instBad (g : Pkg) (j step : Nat) (p : Nat × Nat × Nat × Nat) : Bool :=
  g.co.inb.any (fun x => x.bad && x.group == j && x.step == step && x.tensor == p.1 && x.row == p.2.1 && x.col == p.2.2.1 && x.ord == p.2.2.2)

/-- Closes every instance of the open step that has a record from every member (R236). -/
def Pack.closeFull (s : Pack) (k j : Nat) : Pack :=
  let g := s.g k
  let c := g.openStep j
  if (mget ({} : CollSt) g.co.st j).closed then s
  else (g.openInsts j).foldl (fun s p =>
    let g := s.g k
    let ont := g.onTime j c p.1 p.2.1 p.2.2.1 p.2.2.2
    if (positions (g.cMem j)).all (fun q => ont.any (fun x => x.src == q)) && !g.instBad j c p then
      s.closeInst k j c p.1 p.2.1 p.2.2.1 p.2.2.2
    else s) s

/-- The MARKs present of a step, by source position. -/
def Pkg.markedOf (g : Pkg) (j step : Nat) : List Nat :=
  (g.co.inb.filter (fun x => x.isMark && !x.freed && !x.after && x.group == j && x.step == step)).map (·.src)

/-- The deadline's timer starts, or is cancelled (R139, R237). -/
def Pkg.deadlineOn (g : Pkg) (j : Nat) : Pkg :=
  let g := match g.cTimer j with
    | some n => g.tmrStart n (g.rd (rColl j 0xC)).toNat
    | none => g
  { g with co := { g.co with st := mupd {} g.co.st j (fun x => { x with run := true }) } }
def Pkg.deadlineOff (g : Pkg) (j : Nat) : Pkg :=
  let g := match g.cTimer j with
    | some n => if (mget ({} : CollSt) g.co.st j).run then (g.wr (rTmr n 0) (collTimer j)).wr (rTmr n 4) 0 else g
    | none => g
  { g with co := { g.co with st := mupd {} g.co.st j (fun x => { x with run := false }) } }

/-- With a step closed and not yet delivered, the MARKs of the step after it run its deadline (R237). -/
def Pkg.nextMarks (g : Pkg) (j : Nat) : Pkg :=
  let ms := g.markedOf j ((g.openStep j + 1) % 2 ^ 32)
  let st := mget ({} : CollSt) g.co.st j
  if !st.closed || !g.timed j || st.exp.isSome then g
  else if (positions (g.cMem j)).all (fun p => ms.contains p) then g.deadlineOff j
  else if !ms.isEmpty && !st.run then g.deadlineOn j
  else g

/-- The step closes at a package: every open instance closes with the records present (R236, R237, R239). -/
def Pack.closeStep (s : Pack) (k j late : Nat) : Pack :=
  let g := s.g k
  let c := g.openStep j
  let s := (g.openInsts j).foldl (fun s p => if (s.g k).instBad j c p then s else s.closeInst k j c p.1 p.2.1 p.2.2.1 p.2.2.2) s
  s.on k (fun g =>
    let g := g.deadlineOff j
    ({ (g.wr64 (rColl j 0x14) (rColl j 0x18) late) with co := { g.co with st := mins g.co.st j { closed := true } } }).nextMarks j)

/-- Members whose MARK of the open step is present. -/
def Pkg.marked (g : Pkg) (j : Nat) : List Nat := g.markedOf j (g.openStep j)

/-- The MARKs of the open step are looked at: the deadline starts at the first, the step closes with the last (R237, R238). -/
def Pack.lookMarks (s : Pack) (k j : Nat) : Pack :=
  let g := s.g k
  let ms := g.marked j
  let st := mget ({} : CollSt) g.co.st j
  if st.closed then s.on k (fun g => g.nextMarks j)
  else if (positions (g.cMem j)).all (fun p => ms.contains p) then s.closeStep k j 0
  else if !ms.isEmpty && g.timed j && !st.run then s.on k (fun g => g.deadlineOn j)
  else s

/-- Classifies a late record by policy (R239). -/
def Pkg.lateRec (g : Pkg) (x : Inb) : Inb × Pkg :=
  let j := x.group
  if x.isMark then ({ x with freed := true }, g)
  else if x.step == g.lstep j then
    if g.policy j = 1 then ({ x with glean := true }, g.addSat (rColl j 0x20) 1)
    else ({ x with freed := true }, (g.addSat (rColl j 0x24) 1).logHub 0x010C j x.step x.src)
  else ({ x with freed := true }, (g.addSat (rColl j 0x24) 1).logHub 0x010D j x.step x.src)

/-- The entry of a packet is written into its inbound queue with its data (R226, R229). -/
def Pack.landEntry (s : Pack) (k site upset : Nat) (w : Wire) (e data : List Byte) : Pack :=
  let g := s.g k
  let q := w.dq
  let i := g.ix site q
  let s := s.store (g.dataLoc k site q i.p) data
  let s := s.ringWrite k site q (e.take 60) 1 i.p
  let s := s.on k (fun g => g.setCred site q (g.avail site q) (g.outc site q - 1))
  let s := (s.inflow k 5 w.src 1).moveIx k site q upset { i with p := (i.p + 1) % 65536 }
  let s := s.on w.src (fun g => g.ackOut w.qk w.idx)
  let s := { s with wire := s.wire.erase w }
  Pack.freeOut w.src (w.qk / 4096) (w.qk % 4096) 65536 s

/-- The oldest packet of an outgoing queue to one destination (R229). -/
def Pack.oldest (s : Pack) (w : Wire) : Bool :=
  s.wire.find? (fun x => x.src == w.src && x.dst == w.dst && x.qk == w.qk && (match x.body with | .coll .. => true | _ => false)) == some w

/-- A packet that a receiving command names: at index `i`, for package `k`, an entry of a kind, in push order. -/
def Pack.collWire (s : Pack) (k i kind : Nat) : Option (Wire × List Byte × List Byte) :=
  match s.wire[i]? with
  | some w =>
    match w.body with
    | .coll e d => if w.dst = k ∧ eField e 0 1 = kind ∧ s.oldest w then some (w, e, d) else none
    | _ => none
  | none => none

/-- A contribution or mark arrives at a package (R233, R237 to R239). -/
def Pack.arrive (s : Pack) (k upset : Nat) (w : Wire) (e data : List Byte) (mark : Bool) : Pack :=
  match (s.g k).home w.dq with
  | none => { s with wire := s.wire.erase w }
  | some site =>
    let idx := ((s.g k).ix site w.dq).p
    let s := s.landEntry k site upset w e data
    let g := s.g k
    let j := eField e 25 1 % 64
    let t := eField e 8 4
    let step := eField e 4 4
    let src := eField e 24 1 % 64
    let x : Inb := { site := site, q := w.dq, idx := idx, src := src, isMark := mark, group := j, step := step, tensor := t,
                     row := eField e 12 2, col := eField e 14 2,
                     ord := if g.kacc t = 1 then 0 else eField e 2 2, sta := mk32 (eField e 16 4), data := halves data }
    let c := g.openStep j
    let st := mget ({} : CollSt) g.co.st j
    let x := { x with after := (step == c && st.closed) || (step == (c + 1) % 2 ^ 32 && st.exp.isSome) }
    let key := ((j, step, src), (t, x.row, x.col, x.ord))
    let add (s : Pack) (x : Inb) : Pack := s.on k (fun g => { g with co := { g.co with inb := g.co.inb ++ [x] } })
    let note (s : Pack) : Pack := s.on k (fun g => { g with co := { g.co with seen := key :: g.co.seen } })
    let drop (s : Pack) : Pack := (add s x).freeWhere k (fun y => y == x)
    if g.qState site w.dq ≠ 1 then s
    else if !(g.cEn j && g.iqid j == w.dq) ∨ !(g.cMem j).testBit src then drop (s.on k (fun g => g.logAt 0x010E site 0xFF 0xFF j step src))
    else if mark then
      if later c step then drop s
      else if g.co.inb.any (fun y => y.isMark && !y.freed && y.group == j && y.step == step && y.src == src) then
        drop (s.on k (fun g => g.logAt 0x010F site 0xFF 0xFF j step src))
      else (add s x).lookMarks k j
    else if eField e 20 4 ≠ tchkOf e data then
      (add s { x with bad := true }).on k (fun g =>
        ({ (g.logAt 0x0208 site 0xFF 0xFF j step src) with pr := { g.pr with bad := true } }).send (.revertReq g.pos 0x0208))
    else if !g.tEn t then drop (s.on k (fun g => g.engErr site 0xFF 3 t))
    else if g.co.seen.contains key then drop (s.on k (fun g => g.logAt 0x010F site 0xFF 0xFF j step src))
    else if later c step then
      let r := g.lateRec x
      let s := add (s.put k r.2) r.1
      let s := if r.1.glean then note s else s
      s.freeWhere k (fun y => y == r.1 && y.freed)
    else (add (note s) x).closeFull k j

/-- A contribution record arrives at a root (R233). -/
def Pack.inboundRecord (s : Pack) (k i upset : Nat) : Pack :=
  match s.collWire k i 0x10 with
  | some (w, e, d) => s.arrive k upset w e d false
  | none => s

/-- A MARK arrives at a package (R237). -/
def Pack.markArrival (s : Pack) (k i upset : Nat) : Pack :=
  match s.collWire k i 0x11 with
  | some (w, e, d) => s.arrive k upset w e d true
  | none => s

/-- A broadcast arrives: the entry and its first BYTES bytes (R242). -/
def Pack.bcastDelivery (s : Pack) (k i upset : Nat) : Pack :=
  match s.collWire k i 0x12 with
  | some (w, e, d) =>
    (match (s.g k).home w.dq with
     | none => { s with wire := s.wire.erase w }
     | some site => s.landEntry k site upset w e d)
  | none => s

/-- The deadline of a group expires (R237): for the open step, or for the one after a closed step that is not yet delivered. -/
def Pack.deadline (s : Pack) (k j : Nat) : Pack :=
  let g := s.g k
  let st := mget ({} : CollSt) g.co.st j
  if !st.run then s
  else
    let step := if st.closed then (g.openStep j + 1) % 2 ^ 32 else g.openStep j
    let ms := g.markedOf j step
    let late := ((positions (g.cMem j)).filter (fun p => !ms.contains p)).foldl (fun n p => n + 2 ^ p) 0
    let s := s.on k (fun g =>
      let g := (g.addSat (rColl j 0x28) (popcount late)).logHub 0x010B j step (late % 2 ^ 32)
      let g := match g.cTimer j with
        | some n => (g.wr (rTmr n 0) (setF (g.rd (rTmr n 0)) 30 29 2)).wr (rTmr n 4) 0
        | none => g
      { g with co := { g.co with st := mins g.co.st j { st with run := false, exp := if st.closed then some late else none } } })
    if st.closed then s else s.closeStep k j late

/-- Once every instance of a closed step is delivered, the end-of-step marks go out and the next step opens (R236, R239). -/
def Pack.stepClose (s : Pack) (k j : Nat) : Pack :=
  let g := s.g k
  let c := g.openStep j
  if !(mget ({} : CollSt) g.co.st j).closed ∨ g.co.out.any (fun x => x.group == j && x.step == c) ∨
      g.co.inb.any (fun x => x.bad && x.group == j && x.step == c) then s
  else
    let marks := (g.updTensors.filter (fun t => g.tGroup t == j)).flatMap (fun t =>
      (((List.range (g.nsh t)).filter (fun n => g.rootOf t n == g.pos)).flatMap (fun n =>
        (List.range (g.repl t)).filterMap (fun r => s.at k (g.ownPos (g.ownerOf t n r))))).eraseDups.map (fun p => (t, p)))
    let s := { s with wire := s.wire ++ marks.map (fun (m : Nat × Nat) =>
      ({ src := k, dst := m.2, dq := 0, qk := 0, idx := 0, body := Cargo.eos { step := c, tensor := m.1, root := g.pos } } : Wire)) }
    let st := mget ({} : CollSt) g.co.st j
    let s := s.on k (fun g => { (g.wr (rColl j 0x1C) (mk32 c)) with co := { g.co with
      st := mins g.co.st j { run := st.run }, seen := g.co.seen.filter (fun x => !(x.1.1 == j && later c x.1.2.1)) } })
    let s := s.freeWhere k (fun x => x.isMark && x.group == j && x.step == c)
    let s := s.on k (fun g =>
      let r := g.co.inb.foldl (fun (a : List Inb × Pkg) (x : Inb) =>
        if x.group = j ∧ !x.closed ∧ !x.freed ∧ x.glean ∧ x.step ≠ c then
          -- gleaned for an instance of step c that had closed already (log 118)
          (a.1 ++ [{ x with freed := true }], (a.2.addSat (rColl j 0x24) 1).logHub 0x010D j x.step x.src)
        else if x.group = j ∧ !x.closed ∧ !x.freed ∧ !x.glean ∧ (x.step = c ∨ later c x.step) then
          (let y := a.2.lateRec x
           (a.1 ++ [y.1], y.2))
        else (a.1 ++ [x], a.2)) ([], g)
      { r.2 with co := { r.2.co with inb := r.1 } : Pkg })
    let s := s.freeWhere k (fun x => x.freed)
    let s := match st.exp with
      | some late => s.closeStep k j late
      | none => s
    (s.lookMarks k j).closeFull k j

/-- A reduced record reaches an owner; once every owner has it, the root releases the instance (R197, R235). -/
def Pack.reducedRecord (s : Pack) (k i : Nat) (us : List Upset) : Pack :=
  match s.wire[i]? with
  | none => s
  | some w =>
    match w.body with
    | .red x =>
      if w.dst ≠ k then s
      else match s.redArrive k x us with
        | none => s
        | some s =>
          let s := s.thRetry k
          let s := { s with wire := s.wire.erase w }
          let same (d : Deliver) : Bool := d.step == x.step && d.tensor == x.tensor && d.row == x.row && d.col == x.col && d.ord == x.ord
          let s := s.on w.src (fun g => { g with co := { g.co with out := g.co.out.map (fun d =>
            if same d then { d with left := d.left.filter (· != k) } else d) } })
          match (s.g w.src).co.out.find? (fun d => same d && d.left.isEmpty) with
          | none => s
          | some d =>
            let s := s.on w.src (fun g => { g with co := { g.co with out := g.co.out.erase d } })
            s.freeWhere w.src (fun y => y.closed && y.group == d.group && y.tensor == d.tensor && y.row == d.row && y.col == d.col && y.ord == d.ord)
    | _ => s

/-- An end-of-step mark reaches an owner (R208). -/
def Pack.eosMark (s : Pack) (k i : Nat) (us : List Upset) : Pack :=
  match s.wire[i]? with
  | none => s
  | some w =>
    match w.body with
    | .eos m => if w.dst = k then ({ s with wire := s.wire.erase w }).eosArrive k m us else s
    | _ => s

/-- A parity delta reaches its holder and is acknowledged (R332); one of a reverted step is discarded (R333). -/
def Pack.parityArrive (s : Pack) (k i : Nat) : Pack :=
  match s.wire[i]? with
  | none => s
  | some w =>
    match w.body with
    | .delta d =>
      if w.dst ≠ k then s
      else
        let s := { s with wire := s.wire.erase w }
        if d.step = (s.g k).step then s.parityDelta k d else s
    | _ => s

/-- The collective's part of a revert to seal `step` (R240). -/
def Pkg.collRevert (g : Pkg) (step : Nat) : Pkg :=
  let g := g.co.inb.foldl (fun g x => if x.glean ∧ !x.closed then g.addSat (rColl x.group 0x24) 1 else g) g
  let g := { g with co := { g.co with inb := [], seen := [], out := [], sent := [], acks := [], cred := [], gath := [], tilesIn := [], st := [] } }
  (List.range 64).foldl (fun g j =>
    if g.cEn j then
      let g := g.wr (rColl j 0x1C) (mk32 step)
      match g.cTimer j with
      | some n => (g.wr (rTmr n 0) (collTimer j)).wr (rTmr n 4) 0
      | none => g
    else g) g

/-- PERM registers. -/
def rPerm (o : Nat) : Nat := hubR (0x3000 + o)

/-- Bytes of entry `i` of the permute table. -/
def Pack.permEntry (s : Pack) (k i : Nat) : Option (List Byte) :=
  let g := s.g k
  let a := g.rd64 (rPerm 4) (rPerm 8) + 64 * i
  match s.spanOk k none a 64 with
  | .ok l => some (s.bytes l 64)
  | _ => none

/-- The table stops on an error (R244). -/
def Pkg.permErr (g : Pkg) : Pkg := (g.wb (rPerm 0) 31 false).wb (rPerm 0) 29 true

/-- The table has finished at this package (R244, R245). -/
def Pkg.permFin (g : Pkg) : Pkg := (((g.wb (rPerm 0) 31 false).wb (rPerm 0) 28 true).send (.permDone g.pos))

/-- An entry is well formed for this package (R30, R243, R244). -/
def Pack.permOk (s : Pack) (k : Nat) (e : List Byte) : Bool :=
  let g := s.g k
  let fl := eField e 36 4
  let n := eField e 32 4
  let blk (a : Nat) : Bool := decide (a % 4096 = 0) && (match s.spanOk k none a (4096 * n) with | .ok l => l.space == 8 | _ => false)
  let word (a : Nat) : Bool := decide (a % 4 = 0) && (match s.spanOk k none a (4 * n) with | .ok l => l.space == 8 | _ => false)
  fl < 2 && (e.drop 40).all (· == 0) &&
    (if fl = 1 then true
     else n < 65536 && n != 0 && eField e 0 8 >>> 58 == g.pos && blk (eField e 0 8) && blk (eField e 8 8) && word (eField e 16 8) && word (eField e 24 8))

/-- The permute stands at its next entry: at the end it finishes, at a barrier it reports and waits, at a bad entry it stops (R244, R245). -/
def Pack.permLook (s : Pack) (k : Nat) : Pack :=
  let g := s.g k
  let i := g.rf (rPerm 0xC) 31 16
  if g.rf (rPerm 0xC) 15 0 ≤ i then s.on k Pkg.permFin
  else match s.permEntry k i with
    | none => s.on k Pkg.permErr
    | some e =>
      if !s.permOk k e then s.on k Pkg.permErr
      else if eField e 36 4 = 1 then
        s.on k (fun g => ({ g with co := { g.co with pwait := true } }).send (.permBarrier g.pos g.co.pbar))
      else s

/-- A write of PERM.CTL.START (R244). -/
def Pack.permStart (s : Pack) (k : Nat) : Pack :=
  let g := s.g k
  if g.rb (rPerm 0) 31 then s
  else if g.phase ≠ 3 then s.on k (fun g => g.wb (rPerm 0) 30 true)
  else
    let s := s.on k (fun g =>
      let g := (g.wb (rPerm 0) 31 true).wf (rPerm 0xC) 31 16 0
      { g with co := { g.co with pblk := 0, pbar := 0, pwait := false } })
    -- what the leader holds of an earlier run of this member is void
    let s := match s.at k (g.rf rPackStat 15 10) with
      | some l => s.on l (fun h => { (h.wb (rPerm 0) 27 false) with
          co := { h.co with lbar := h.co.lbar.filter (fun x => x % 64 != g.pos), ldone := h.co.ldone.filter (· != g.pos) } })
      | none => s
    s.permLook k

/-- The entries of a package's table between two barriers of the given ordinals, as they are listed. -/
def Pack.permSeg (s : Pack) (j n : Nat) : List (List Byte) :=
  ((List.range ((s.g j).rf (rPerm 0xC) 15 0)).foldl (fun (a : Nat × List (List Byte)) i =>
    match s.permEntry j i with
    | none => a
    | some e => if eField e 36 4 = 1 then (a.1 + 1, a.2) else if a.1 = n then (a.1, a.2 ++ [e]) else a) (0, [])).2

/-- A running move on some package, which no barrier separates from this one, writes the block at `a` that entry `e` reads (R245). -/
def Pack.permClash (s : Pack) (k : Nat) (e : List Byte) (a : Nat) : Bool :=
  (s.members k).any (fun j => (s.g j).rb (rPerm 0) 31 && (s.permSeg j (s.g k).co.pbar).any (fun f =>
    let d := eField f 8 8
    decide (d ≤ a ∧ a < d + 4096 * eField f 32 4) && !(j == k && f == e && eField e 0 8 == d)))

/-- The next block of the running entry is moved: verified at the source, verified on arrival, written, acknowledged (R244). `lost`: the CRC fails on arrival; `ecc`: how the source's read ends, at byte `off` of the block. A block that a move not held apart by a barrier writes is a free value, and so is its check (R10, R245, log 26). -/
def Pack.permBlock (s : Pack) (k : Nat) (ecc : Ecc) (off : Nat) (lost : Bool) : Pack :=
  let g := s.g k
  let i := g.rf (rPerm 0xC) 31 16
  if !g.rb (rPerm 0) 31 ∨ g.co.pwait then s
  else match s.permEntry k i with
    | none => s.on k Pkg.permErr
    | some e =>
      let b := g.co.pblk
      let src := eField e 0 8 + 4096 * b
      let dst := eField e 8 8 + 4096 * b
      match s.spanOk k none src 4096, s.spanOk k none dst 4096, s.spanOk k none (eField e 16 8 + 4 * b) 4, s.spanOk k none (eField e 24 8 + 4 * b) 4 with
      | .ok a, .ok d, .ok sd, .ok dd =>
        let clash := s.permClash k e src
        let bs := if clash then (List.range 4096).map (fun i => BitVec.ofNat 8 (Config.freeValue (s.fresh + i))) else s.bytes a 4096
        let okay := if clash then Config.freeValue (s.fresh + 4096) % 2 == 1 else crc32c bs == leVal (s.bytes sd 4)
        let s := if clash then { s with fresh := s.fresh + 4097 } else s
        let s := s.eccAt { site := hubSite } { a with off := a.off + off % 4096 } ecc
        if ecc = .ue then s.on k Pkg.permErr
        else
          if lost ∨ !okay then
            s.on k (fun g => (g.logAt 0x0207 a.site 0xFF 0xFF 0xFFFFFFFF (src % 2 ^ 32) (src / 2 ^ 32)).permErr)
          else
            let s := (s.store d bs).store dd (leBytes (crc32c bs) 4)
            if b + 1 < eField e 32 4 then s.on k (fun g => { g with co := { g.co with pblk := b + 1 } })
            else
              (s.on k (fun g => { (g.wf (rPerm 0xC) 31 16 (i + 1)) with co := { g.co with pblk := 0 } })).permLook k
      | _, _, _, _ => s.on k Pkg.permErr

/-- The member at a position stands at its permute barrier of an ordinal. -/
def Pack.permStands (s : Pack) (k p n : Nat) : Bool :=
  match s.at k p with
  | some j => (s.g j).rb (rPerm 0) 31 && (s.g j).co.pwait && (s.g j).co.pbar == n
  | none => false

/-- The leader learns that a member is at its permute barrier of ordinal `n`, and releases it once all are (R245). -/
def Pack.permBarrier (s : Pack) (k p n : Nat) : Pack :=
  let g := s.g k
  if !g.leads ∨ !g.mem.testBit p ∨ !s.permStands k p n then s
  else
    let l := (p + 64 * n) :: g.co.lbar.filter (· != p + 64 * n)
    if !(positions g.mem).all (fun q => l.contains (q + 64 * n) && s.permStands k q n) then s.on k (fun g => { g with co := { g.co with lbar := l } })
    else
      let s := s.on k (fun g => ({ g with co := { g.co with lbar := [] } }).send (.permRelease n))
      (s.members k).foldl (fun s j =>
        if !(s.g j).co.pwait then s
        else
          (s.on j (fun h => { (h.wf (rPerm 0xC) 31 16 (h.rf (rPerm 0xC) 31 16 + 1)) with
            co := { h.co with pwait := false, pbar := h.co.pbar + 1 } })).permLook j) s

/-- The leader learns that a member's table has finished (R245); a report of one that runs again is void. -/
def Pkg.permDone (g : Pkg) (p : Nat) (running : Bool) : Pkg :=
  if !g.leads ∨ !g.mem.testBit p ∨ running then g
  else
    let l := p :: g.co.ldone.filter (· != p)
    if (positions g.mem).all (fun q => l.contains q) then { (g.wb (rPerm 0) 27 true) with co := { g.co with ldone := [] } }
    else { g with co := { g.co with ldone := l } }

/-- A write to a register of the permute but for START. -/
def Pkg.permWrite (g : Pkg) (o : Nat) (v : W32) : Pkg :=
  match o with
  | 0 => g.wf (rPerm 0) 30 28 (g.rf (rPerm 0) 30 28 &&& (7 - fld v 30 28))
  | 4 | 8 => g.wr (rPerm o) v
  | 0xC => g.wf (rPerm 0xC) 15 0 (fld v 15 0)
  | _ => g

end Sys2Proof.Machine
end

