-- ==== Sys2Proof/Machine/LinkOps.lean ====
section
/-! DEFINITION. Flits: the ways they take over dies and pack links, their numbers, the reorder buffers; what both kinds of link keep of them (R24, R275, R277, R279, R292 to R295, R320). -/

set_option linter.unusedVariables false

namespace Sys2Proof.Machine

/-! What a link counts -/

/-- Adds to a running total by class, modulo 2^32. -/
def bump (m : Map Nat) (cs : List (Nat × Nat)) : Map Nat := cs.foldl (fun (m : Map Nat) c => mupd 0 m c.1 (fun v => (v + c.2) % 2 ^ 32)) m

/-- Flits sent, by class; flits received; credits returned; credits received (R320). -/
def Tot.send (t : Tot) (cs : List Nat) : Tot := { t with sent := bump t.sent (cs.map (fun c => (c, 1))) }
def Tot.take (t : Tot) (cs : List Nat) : Tot :=
  { t with rcv := bump t.rcv (cs.map (fun c => (c, 1))), owed := bump t.owed (cs.map (fun c => (c, 1))) }
def Tot.give (t : Tot) (rs : List (Nat × Nat)) : Tot :=
  { t with ret := bump t.ret rs, owed := rs.foldl (fun (m : Map Nat) r => mupd 0 m r.1 (· - r.2)) t.owed }
def Tot.credit (t : Tot) (rs : List (Nat × Nat)) : Tot := { t with got := bump t.got rs }

/-- The credits that stand to be returned, at most `m` of a class. -/
def Tot.due (t : Tot) (m : Nat) : List (Nat × Nat) := (t.owed.filter (fun p => decide (0 < p.2))).map (fun p => (p.1, min m p.2))

/-- The checks of an audit marker that carries the flits sent and credits returned of the totals `y` of the other end (R320). -/
def Tot.audit (t y : Tot) : Bool :=
  (List.range 32).all (fun c =>
    mget 0 t.rcv c == mget 0 y.sent c && mget 0 t.got c == mget 0 y.ret c &&
      mget 0 t.owed c == (mget 0 t.rcv c + 2 ^ 32 - mget 0 t.ret c) % 2 ^ 32)

/-- The buffer class of a flit on a pack link (R285). -/
def flitCls (f : Flit) : Nat := 8 * f.ch + f.hop

/-- `a` is at or before `b` in a sequence modulo `m`. -/
def seqLe (m a b : Nat) : Bool := decide ((b + m - a % m) % m < m / 2)

/-! The way of a flit -/

/-- Where a flit goes next: it has arrived, an edge of the die, a pack port of the die, nowhere for now. -/
inductive Way where
  | here
  | edge (e : Nat)
  | port (n : Nat)
  | lost
  deriving DecidableEq, Repr

/-- The hub's choice of die 41 or 42 for a destination: fewer crossings, 41 on a tie (log 120). -/
def Pkg.hubWay (g : Pkg) (d : Nat) : Way :=
  let at' (s : Nat) : Option Nat := let x := mget 7 g.net.tab (s * 64 + d); if g.hole s || x % 8 == 7 then none else some (x / 256)
  match at' 41, at' 42 with
  | some a, some b => .edge (if b < a then 1 else 0)
  | some _, none => .edge 0
  | none, some _ => .edge 1
  | none, none => .lost

/-- The way from a site to a site of the package, by the table in use (R277). -/
def Pkg.wayTo (g : Pkg) (site d : Nat) : Way :=
  if site = d then .here
  else if site = 62 then g.hubWay d
  else match mget 7 g.net.tab (site * 64 + d) % 8 with
    | 0 | 5 => .here
    | 6 => .edge 4
    | 7 => .lost
    | p => .edge (p - 1)

/-- The pack port that traffic from site `a` to site `b` of position `p` takes (R294). -/
def Pkg.routePort (g : Pkg) (a b p : Nat) : Option Nat :=
  let m := g.effMask p
  if m.isEmpty then none else m[(a + b) % m.length]?

/-- The way of a flit that stands at a site of the package (R277, R294). -/
def Pkg.way (g : Pkg) (site : Nat) (f : Flit) : Way :=
  if f.dp = g.pos then g.wayTo site f.ds
  else match g.routePort f.ss f.ds f.dp with
    | none => .lost
    | some n =>
      let d := portSites.getD (n / 4) 0
      if d = site then .port n else g.wayTo site d

/-! Numbers and the reorder buffers -/

/-- The key of a sequence at its sender and at its receiver (R279, R295). -/
def txKey (ss dp ds ch : Nat) : Nat := ((ss * 64 + dp) * 64 + ds) * 4 + ch
def flitKey (f : Flit) : Nat := ((f.sp * 64 + f.ss) * 64 + f.ds) * 4 + f.ch

/-- Flits to be sent stand at their die, each with the next number of its sequence. -/
def Pkg.offer (g : Pkg) (site : Nat) (qs : List FlitReq) : Pkg :=
  qs.foldl (fun g q =>
    let ch := q.ch % 4
    let key := txKey site q.dp q.ds ch
    let n := mget 0 g.net.tx key
    let f : Flit := { body := q.body % 2 ^ 256, ch := ch, sp := g.pos, ss := site, dp := q.dp, ds := q.ds, num := n }
    { g with net := { g.net with tx := mins g.net.tx key (n + 1), hold := g.net.hold ++ [(site, f)] } }) g

/-- Flits go (back) into the network at a site. -/
def Pkg.inject (g : Pkg) (site : Nat) (fs : List Flit) : Pkg :=
  { g with net := { g.net with hold := g.net.hold ++ fs.map (fun f => (site, f)) } }

/-- Flits whose turn it is leave the reorder buffers. -/
def Net.drain : Nat → Net → Net
  | 0, x => x
  | n + 1, x =>
    match x.reord.find? (fun f => f.num == mget 0 x.rx (flitKey f)) with
    | none => x
    | some f => Net.drain n { x with reord := x.reord.filter (· != f), rx := mupd 0 x.rx (flitKey f) (· + 1), got := x.got ++ [f] }

/-- A flit reaches its site (R279, R295): one that has come before is discarded, one ahead of its turn waits in the reorder buffers. -/
def Net.arrive (x : Net) (f : Flit) : Net :=
  if f.num < mget 0 x.rx (flitKey f) ∨ x.reord.any (fun y => flitKey y == flitKey f && y.num == f.num) then x
  else Net.drain (x.reord.length + 1) { x with reord := x.reord ++ [f] }

/-- Flits that a link has brought to a site: delivered there, or held until they leave it. -/
def Pkg.flitsIn (g : Pkg) (site : Nat) (fs : List Flit) : Pkg :=
  fs.foldl (fun g f => if g.way site f = .here then { g with net := g.net.arrive f } else g.inject site [f])
    { g with net := { g.net with got := [] } }

/-- The number of a flit that is lost is passed over at its destination, so that its sequence goes on (log 120). -/
def Pack.skipFlit (s : Pack) (f : Flit) : Pack :=
  match s.pkgs.find? (fun p => p.2.pos == f.dp) with
  | some p => s.on p.1 (fun g => let x := g.net.arrive f; { g with net := { x with got := x.got.filter (· != f) } })
  | none => s

/-- Up to `n` flits that stand at a site and take a way, in order, each where `ok` lets it go with those before it; the rest stay. -/
def takeFlits (l : List (Nat × Flit)) (want : Nat → Flit → Bool) (n : Nat) (ok : List Flit → Flit → Bool) :
    List Flit × List (Nat × Flit) :=
  l.foldl (fun (r : List Flit × List (Nat × Flit)) p =>
    if decide (r.1.length < n) && want p.1 p.2 && ok r.1 p.2 then (r.1 ++ [p.2], r.2) else (r.1, r.2 ++ [p])) ([], [])

/-- Takes flits that leave a site by a way. -/
def Pkg.pick (g : Pkg) (site : Nat) (w : Way) (n : Nat) (ok : List Flit → Flit → Bool) : List Flit × Pkg :=
  let r := takeFlits g.net.hold (fun x f => x == site && decide (g.way site f = w)) n ok
  (r.1, { g with net := { g.net with hold := r.2 } })

/-- What a package's network knows of another position is forgotten. -/
def Pkg.forgetPos (g : Pkg) (p : Nat) : Pkg :=
  { g with net := { g.net with tx := g.net.tx.filter (fun x => x.1 / 256 % 64 != p), rx := g.net.rx.filter (fun x => x.1 / 2 ^ 14 != p),
                               reord := g.net.reord.filter (fun f => f.sp != p), hold := g.net.hold.filter (fun x => x.2.sp != p && x.2.dp != p) } }

/-- A register's buffer for a link, on a SECDED code, as an access to it comes out (R266, R289, R307, R308): link buffers have no address, so the place that the report names is a free value (log 121). -/
def Pack.linkEcc (s : Pack) (k site : Nat) (e : Ecc) : Pack :=
  match e with
  | .ok => s
  | .ce =>
    let a := s.draw
    let b := a.2.draw
    b.2.on k (fun g => g.sramCe site a.1 b.1)
  | .ue =>
    let a := s.draw
    let b := a.2.draw
    b.2.on k (fun g => g.sramUe site a.1 b.1)

/-! Ends of pack links -/

/-- The end of a pack link at port `n`. -/
def Pkg.link (g : Pkg) (n : Nat) : Link := mget {} g.links n

/-- Changes it. -/
def Pkg.onLink (g : Pkg) (n : Nat) (f : Link → Link) : Pkg := { g with links := mins g.links n (f (g.link n)) }

/-- The credits a port's sender holds, all classes (R288). -/
def Link.held (x : Link) : Nat := ((List.range 32).map (fun c => mget 0 x.credits c)).foldl (· + ·) 0

/-- A port stops transfers (R292, R293): what its sender has not had acknowledged goes back into the network at its die, and its credits are reclaimed. -/
def Pkg.linkClear (g : Pkg) (n : Nat) : Pkg :=
  let x := g.link n
  ((g.inject (portSites.getD (n / 4) 0) ((x.retry.filter (fun r => !r.bad)).flatMap (·.flits))).onLink n (fun x =>
    { x with retry := [], back := none, credits := [], tot := {}, nak := false, seen := false })).addSat (rRecl 3) x.held

/-- An UP port enters FENCED: transfers stop, beats continue (R293). -/
def Pkg.fencePort (g : Pkg) (n : Nat) : Pkg := if g.portState n = 2 then (g.linkClear n).wf (rPort n 0) 30 28 3 else g

/-- Every port is fenced (R296, R303). -/
def Pkg.fenceAll (g : Pkg) : Pkg := (List.range 32).foldl (fun g n => g.fencePort n) g

/-- A port that comes UP: numbers from 0, 2,048 credits for every class (R288, R293). -/
def Link.fresh (x : Link) : Link :=
  { x with next := 0, seen := false, nak := false, retry := [], sn := 0, back := none, tot := {},
           credits := (List.range 32).map (fun c => (c, 2048)) }

end Sys2Proof.Machine
end

