-- ==== Sys2Proof/Machine/FailOps.lean ====
section
/-! DEFINITION. Revert, reclaim, repair, takeover, restore, lending (R220, R299, R322, R323, R325 to R354). -/

set_option linter.unusedVariables false

namespace Sys2Proof.Machine

/-- PROT.STAT.TK and REVCNT; PROT.CTL.AUTOREV, AUTOTK, RLIM. -/
def Pkg.setTake (g : Pkg) (n : Nat) : Pkg := g.wf (rProt 4) 31 29 n
def Pkg.takeSt (g : Pkg) : Nat := g.rf (rProt 4) 31 29
def Pkg.revcnt (g : Pkg) : Nat := g.rf (rProt 4) 15 8
def Pkg.autorev (g : Pkg) : Bool := g.rb (rProt 0) 29
def Pkg.autotk (g : Pkg) : Bool := g.rb (rProt 0) 28
def Pkg.rlim (g : Pkg) : Nat := g.rf (rProt 0) 27 24
def Pkg.cause (g : Pkg) : Nat := g.rf rSealStat 15 8

/-- The highest step that any survivor of the membership reports as sealed (R220). -/
def Pack.sealTop (s : Pack) (k : Nat) : Nat :=
  ((s.members k).filter (fun j => !(s.g k).lostPos (s.g j).pos)).foldl (fun a j =>
    let b := (s.g j).sealed
    if later b a then b else a) (s.g k).sealed

/-- The leader sends REVERT to a seal, its own or the highest of the survivors (R220, R344, steps 1 and 2). -/
def Pack.startRevert (s : Pack) (k upto : Nat) : Pack :=
  s.on k (fun g =>
    let g := (g.setTake 1).wf (rProt 4) 15 8 (min 255 (g.revcnt + 1))
    let g := { g with ld := { g.ld with reverting := positions (g.mem &&& (2 ^ 64 - 1 - g.pr.gone % 2 ^ 64)), revPend := false,
                                         reclaiming := [], ready := [], acks := [], sweep := [], req := false, resume := false } }
    g.send (.revert upto g.epoch))

/-- A failed die's holdings have not been written off yet (R322). -/
def Pkg.deadHoldings (g : Pkg) : Bool :=
  (List.range 48).any (fun x => g.hole x &&
    (g.tok.any (fun p => p.1 / 4096 == x && p.2.count != 0) || g.ctab.any (fun p => p.1 / 64 == x && !p.2.isEmpty) ||
      g.liveQueues.any (fun p => p.1 == x)))

/-- A die of a member has failed and the reclaim for it is still to run (R322, R344). -/
def Pack.owesReclaim (s : Pack) (k : Nat) : Bool := (s.members k).any (fun j => (s.g j).deadHoldings)

/-- A failure declared while a revert runs starts it again with what it has lost since (R346): REVERT is sent anew and counts once. -/
def Pack.restartRevert (s : Pack) (k : Nat) : Pack :=
  let upto := s.sealTop k
  s.on k (fun g => ({ g with ld := { g.ld with reverting := positions (g.mem &&& (2 ^ 64 - 1 - g.pr.gone % 2 ^ 64)), reclaiming := [] } }).send
    (.revert upto g.epoch))

/-- COMMIT of the running step has left this leader, so that the step is sealed and a revert follows its apply (R220, R346). -/
def Pkg.committing (g : Pkg) : Bool := g.pr.commit.isSome || (g.ld.record.map (·.step)) == some g.step

/-- A revert request at the leader (R218, R220, R321, R343, R344, R346). `host`: PROT.CTL.REVERT was written; `to`: the seal it targets. -/
def Pack.revertTo (s : Pack) (k : Nat) (host : Bool) (upto : Nat) : Pack :=
  let g := s.g k
  if !g.leads ∨ (g.phase = 4 ∧ (g.cause = 5 ∨ g.cause = 0xA)) then s
  else if g.committing then s.on k (fun g => { g with ld := { g.ld with revPend := true } })
  else if !g.ld.reverting.isEmpty then (if g.ld.reclaiming.isEmpty && s.owesReclaim k then s.restartRevert k else s)
  else if g.rlim ≠ 0 ∧ g.rlim ≤ g.revcnt then s.haltAll k 7
  else if host || g.autorev then s.startRevert k upto
  else s.haltAll k 6

/-- A revert request at the leader, to its own last seal. -/
def Pack.revertRequest (s : Pack) (k : Nat) (host : Bool) : Pack := s.revertTo k host (s.g k).sealed

/-- Every thread stops, as by RUN = 0; a waiting KRESERVE ends with pd := 0 (R183, R344, step 3). -/
def Pkg.stopAll (g : Pkg) : Pkg :=
  let g := g.endKres
  { g with thr := mmap (fun _ th => { th with st := .idle, wait := none }) g.thr }

/-- The credits of a QPUSH that is discarded return to its queue, unless the queue has been flushed already (R104, R152). -/
def Pkg.pushBack (g : Pkg) (x : QReq) : Pkg :=
  if x.r.op == .qpush && decide (x.n ≤ g.outc x.site x.qid) then
    g.setCred x.site x.qid (g.avail x.site x.qid + x.n) (g.outc x.site x.qid - x.n)
  else g

/-- Operations in flight are discarded, and what travels to or from the package (R344, step 4; log 19); credits that they hold go back (R104, R152). -/
def Pack.quiesce (s : Pack) (k : Nat) : Pack :=
  let cs := ((s.g k).aops ++ (s.g k).eops).filter (fun r => r.op == .contrib)
  let s := cs.foldl (fun s r => s.contribBack r) s
  let s := s.all (fun j g => (g.qops.filter (fun x => j == k || x.r.t.pkg == k)).foldl Pkg.pushBack g)
  let s := s.on k (fun g => { g.stopAll with loads := [], stores := [], aops := [], eops := [], qops := [], strmPost := [] })
  let s := s.all (fun _ g => { g with qops := g.qops.filter (fun x => x.r.t.pkg != k) })
  { s with flight := s.flight.filter (fun x => x.src.pkg != k && x.dst.pkg != k), wire := s.wire.filter (fun w => w.src != k && w.dst != k) }

/-- Slots of the scale tables that are in use, as (site, slot). -/
def scaleSlots (m : Map W32) : List (Nat × Nat) :=
  (m.filterMap (fun p =>
    let site := p.1 / 0x100000
    let off := p.1 % 0x100000
    if site < 48 ∧ 0x40000 ≤ off ∧ off < 0x80000 then some (site, (off - 0x40000) / 0x80) else none)).eraseDups

/-- Scale slots are written back from a cut, then the entry test (R55, R58). -/
def Pkg.scaleRestore (g : Pkg) (c : Cut) : Pkg :=
  let kept := scaleSlots c.regs
  let g := (scaleSlots g.regs).foldl (fun g p =>
    if kept.contains p then g
    else
      let a := rScale p.1 p.2 0
      let g := g.wr a (setB (setB (setF (setF (g.rd a) 27 22 0) 21 18 0) 30 false) 0 false)
      (g.wr (rScale p.1 p.2 8) 0).wf (rScale p.1 p.2 0xC) 31 16 0) g
  let g := kept.foldl (fun g p =>
    (List.range 32).foldl (fun g i =>
      let a := rScale p.1 p.2 (4 * i)
      g.wr a (mget (regReset a) c.regs a)) g) g
  (scaleSlots g.regs).foldl (fun g p => g.warmTest p.1 p.2) g

/-- The words of CTL and KEY of a slot read what is in effect, PEND and SKEW 0 (R79, R86). -/
def Pkg.strmWords (g : Pkg) (n : Nat) (e : Strm) : Pkg :=
  let g := g.wr (rStrm n 0) (setF (setF (g.rd (rStrm n 0)) 24 0 e.ctl.toNat) 30 29 0)
  (((g.wr (rStrm n 4) e.k0).wr (rStrm n 8) e.k1).wr (rStrm n 0xC) e.k2).wr (rStrm n 0x10) e.k3

/-- Stream slots are re-derived from the data position (R86): KEY and CTL of every slot from the cut, STEP, CURSOR, SKEW of the valid ones. -/
def Pkg.strmRestore (g : Pkg) (c : Cut) (next : Nat) : Pkg :=
  let g := { g with strm := c.strm, strmPost := [] }
  let g := (List.range 1024).foldl (fun g n =>
    if [0, 4, 8, 0xC, 0x10].any (fun o => g.rd (rStrm n o) != 0) then g.strmWords n (mget {} c.strm n) else g) g
  (c.strm.filter (fun p => bit p.2.ctl 0)).foldl (fun g p =>
    let n := p.1
    let old := (mget 0 c.regs (rStrm n 0x14)).toNat
    let cur := (mget 0 c.regs (rStrm n 0x18)).toNat + (mget 0 c.regs (rStrm n 0x1C)).toNat * 2 ^ 32
    let g := ((g.strmWords n p.2).wr (rStrm n 0x14) (mk32 next)).wr64 (rStrm n 0x18) (rStrm n 0x1C) 0
    if old = next ∧ cur = 0 then g else (g.wb (rStrm n 0) 29 true).logHub 0x0101 n old next) g

/-- Actual holdings as booked balances (R316, R322). -/
def Pkg.holdings (g : Pkg) : Map Nat :=
  let m : Map Nat := []
  let m := (List.range 48).foldl (fun (m : Map Nat) x =>
    let n := ((g.tok.filter (fun p => p.1 / 4096 == x)).map (fun p => p.2.count)).foldl (· + ·) 0
    let h := ((g.ctab.filter (fun p => p.1 / 64 == x)).flatMap (fun p => p.2.map (·.n))).foldl (· + ·) 0
    let m := if n = 0 then m else mins m x n
    if h = 0 then m else mins m (2 ^ 32 + x) h) m
  let m := g.liveQueues.foldl (fun (m : Map Nat) p =>
    let i := g.ix p.1 p.2
    mins (mins m (2 * 2 ^ 32 + qkey p.1 p.2) (ringDist i.p i.l)) (8 * 2 ^ 32 + qkey p.1 p.2) (g.qSize p.1 p.2)) m
  let m := (List.range 8).foldl (fun (m : Map Nat) j => if g.stUsed j = 0 then m else mins m (3 * 2 ^ 32 + j) (g.stUsed j)) m
  let m := (List.range 4).foldl (fun (m : Map Nat) t => if g.rf (rVref t) 9 0 = 0 then m else mins m (4 * 2 ^ 32 + t) (g.rf (rVref t) 9 0)) m
  g.co.cred.foldl (fun m x => mupd 0 m (5 * 2 ^ 32 + x.1) (· + x.2.2)) m

/-- Units of a kind in a set of balances. -/
def kindSum (m : Map Nat) (kind : Nat) : Nat := ((m.filter (fun p => p.1 / 2 ^ 32 == kind)).map (·.2)).foldl (· + ·) 0

/-- The rebase (R322, R323): actual holdings become booked balances, flow banks are cleared, changed kinds are logged. -/
def Pkg.rebase (g : Pkg) (cause : Nat) : Pkg :=
  let m := g.holdings
  let old := g.booked
  let g := { g with booked := m, flows := [] }
  let g := g.wb (rLedger 0) 30 false
  (List.range 6).foldl (fun g k =>
    let a := kindSum old k
    let b := kindSum m k
    if a = b then g else g.logHub 0x0114 k cause (if a < b then b - a else a - b)) g

/-- A DIGEST error of a block of this package (R348, R350, R352). -/
def Pkg.digestErr (g : Pkg) (t : Nat) (l : Loc) : Pkg :=
  let a := gaddr g.pos l.site l.space l.off
  g.logHub 0x0207 t (a % 2 ^ 32) (a / 2 ^ 32)

/-- A block of protected state is rebuilt from the first source of R326; `false` where it has none but the host's image. -/
def Pack.rebuildBlock (s : Pack) (k t n r i b : Nat) : Pack × Bool :=
  let g := s.g k
  let pl := g.oldPlane t i
  match (List.range (g.repl t)).find? (fun x => x != r && !g.lostPos (g.ownPos (g.ownerOf t n x)) &&
      (s.at k (g.ownPos (g.ownerOf t n x))).isSome) with
  | some x =>
    let pk := (s.at k (g.ownPos (g.ownerOf t n x))).getD k
    (s.copyBlock pk x k r t n pl b, true)
  | none =>
    if g.tmode t = 1 ∧ r = 0 then
      let j := n / g.pgroup t
      match s.at k (g.ownPos (g.holder t j)) with
      | none => (s, false)
      | some hk =>
        let ib := i * g.planeBlocks t + b
        let cur := s.sel hk t j ib % 2
        let start := s.bytes (g.parLoc hk t j (g.parOff t cur ib)) 4096
        let bs := ((g.pmembers t j).filter (· != n)).foldl (fun acc m =>
          match s.at k (g.ownPos (g.ownerOf t m 0)) with
          | some pk => xorBytes acc (s.bytes (g.planeLoc pk t m 0 pl (4096 * b)) 4096)
          | none => acc) start
        let alive := ((g.pmembers t j).filter (· != n)).all (fun m =>
          !g.lostPos (g.ownPos (g.ownerOf t m 0)) && (s.at k (g.ownPos (g.ownerOf t m 0))).isSome)
        let dig := leVal (s.bytes (g.parLoc hk t j (g.pdigOff t (n % g.pgroup t) ib cur)) 4)
        if !alive then (s, false)
        else if crc32c bs != dig then (s.on k (fun g => g.digestErr t (g.planeLoc k t n r pl (4096 * b))), false)
        else ((s.store (g.planeLoc k t n r pl (4096 * b)) bs).digest k t n r pl b, true)
    else (s, false)

/-- Every protected block of the shards this package owns is rebuilt; the tensors that need the host's image, and whether some shard has no source (R325, R326). -/
def Pack.rebuildAll (s : Pack) (k : Nat) : Pack × List Nat × Bool :=
  let g := s.g k
  (g.tensors).foldl (fun acc t =>
    (g.myShards t).foldl (fun acc n =>
      let r := (g.myRep t n).getD 0
      (List.range (g.lplanes t)).foldl (fun acc i => (List.range (g.planeBlocks t)).foldl (fun acc b =>
        let x := acc.1.rebuildBlock k t n r i b
        if x.2 then (x.1, acc.2)
        else if g.tmode t = 2 then (acc.1, if acc.2.1.contains t then acc.2.1 else acc.2.1 ++ [t], acc.2.2)
        else (acc.1, acc.2.1, true)) acc) acc) acc) (s, [], false)

/-- Current parity of the groups a package holds is built anew (R335, R348). -/
def Pack.rebuildParity (s : Pack) (k : Nat) : Pack :=
  let g := s.g k
  (g.tensors.filter (fun t => g.tmode t == 1)).foldl (fun s t =>
    (List.range (g.pgroups t)).foldl (fun s j => s.parityBuild k t j) s) s

/-- Repairs of R327 during a revert: each marked block in place; one without a source halts the pack, CAUSE 0x08; then the marked parity from the groups' members. -/
def Pack.repairs (s : Pack) (k : Nat) : Pack :=
  let rs := (s.g k).pr.repair
  let s := s.on k (fun g => { g with pr := { g.pr with repair := [] } })
  let par (s : Pack) : Pack := (s.g k).pr.build.foldl (fun s x => s.parityBuild k (x / 65536) (x % 65536)) s
  par <| rs.foldl (fun s p =>
    let r := ((s.g k).myRep p.1 p.2.1).getD 0
    let x := s.rebuildBlock k p.1 p.2.1 r p.2.2.1 p.2.2.2
    if x.2 then x.1 else (s.on k (fun g => g.wb (rProt 4) 28 true)).haltAll k 8) s

/-- What a revert restores where no seal has been cut yet (R58, R86, R160): no scale slot, the streams' values in effect, at the step that resumes (log 117). -/
def Pkg.noCut (g : Pkg) (next : Nat) : Cut :=
  { step := g.sealed, epoch := g.rf rSealEpoch 15 0, pos := g.pos, serial := 0, floor := 0, commit := none,
    regs := ((g.strm.filter (fun p => bit p.2.ctl 0)).map (fun p => (rStrm p.1 0x14, mk32 next))), strm := g.strm }

/-- The revert actions of a member, steps 6 to 8 (R162, R183, R198, R222, R240, R323, R333, R344). `cause` is the booking that the rebase logs. -/
def Pack.revertActions (s : Pack) (k cause : Nat) : Pack :=
  let step := (s.g k).sealed
  let next := (step + 1) % 2 ^ 32
  let s := (s.g k).liveQueues.foldl (fun s p => s.qRevert k p.1 p.2) s
  let s := s.on k (fun g => (((g.pipeRevert step).thresherRevert).collRevert step))
  let s := s.on k (fun g => (List.range 64).foldl (fun g n => if g.rf (rTmr n 0) 28 27 = 1 then g.tmrFree n else g) g)
  let s := s.parityRevert k
  let s := (s.on k (fun g => g.dqAdd (g.dqRec 0x34 0 0 step 0 0 0 0 0))).dqRun k
  let s := s.repairs k
  let s := s.on k (fun g =>
    let c := ((g.pr.cuts.find? (fun p => p.1 == step % 2 && p.2.step == step)).map (·.2)).getD (g.noCut next)
    ((g.scaleRestore c).strmRestore c next).armsClear)
  s.on k (fun g =>
    let g := g.rebase cause
    let g := { g with pr := { g.pr with bad := false, prep := 0, suppAck := 0, commit := none, parked := false, rev := 0, revWait := false, reps := [] } }
    let g := if g.phase = 4 ∧ g.cause = 8 then g else (g.setPhase 3).setCause 0
    g.send (.revertDone g.pos step))

/-- A member receives REVERT (R220, R299, R303, R344): it quiesces, and reverts at once unless a reclaim comes first. One that meets a COMMIT not yet applied waits for it. -/
def Pack.takeRevert (s : Pack) (k step epoch : Nat) : Pack :=
  let g := s.g k
  if !g.assigned ∨ g.parted then s
  else if epoch ≠ g.epoch then s.on k Pkg.stale
  else if g.pr.commit.isSome ∨ step = g.step then s.on k (fun g => { g with pr := { g.pr with revWait := true } })
  else if step ≠ g.sealed then s
  else
    let owes := s.owesReclaim k
    let s := s.quiesce k
    if g.pr.gone &&& g.mem ≠ 0 ∨ g.rb (rLedger 0) 30 ∨ owes then s.on k (fun g => { g with pr := { g.pr with rev := 1, reps := [] } })
    else s.revertActions k 2

/-- The host still owes blocks of a position that has been taken over (R350). -/
def Pack.owesHost (s : Pack) (k : Nat) : Bool := (s.members k).any (fun j => !(s.g j).pr.hostBlocks.isEmpty)

/-- The leader receives REVERT_DONE (R344, step 8); with a position lost the takeover follows (R347), and one that waits for the host goes on waiting. -/
def Pack.revertDone (s : Pack) (k p step : Nat) : Pack :=
  let g := s.g k
  if !g.leads ∨ step ≠ g.sealed then s
  else
    let l := g.ld.reverting.filter (· != p)
    let wait := s.owesHost k
    s.on k (fun g =>
      let was := g.ld.reverting
      let g := { g with ld := { g.ld with reverting := l } }
      if l.isEmpty && !was.isEmpty then g.setTake (if g.pr.gone &&& g.mem ≠ 0 then 2 else if wait then 5 else 0) else g)

/-- The credits of each queue that a member's surviving units and engines hold, for queues homed at a position (R322). -/
def Pkg.holderReport (g : Pkg) (pos : Nat) : List (Nat × Nat) :=
  let es := ((g.ctab.filter (fun p => !g.hole (p.1 / 64))).flatMap (·.2)).filter (fun e => e.pos == pos)
  ((es.map (·.qid)).eraseDups).map (fun q => (q, ((es.filter (fun e => e.qid == q)).map (·.n)).foldl (· + ·) 0))

/-- A member receives RECLAIM (R322, step 2): holder reports go to every home. -/
def Pkg.takeReclaim (g : Pkg) (step : Nat) : Pkg :=
  if step ≠ g.sealed ∨ !g.assigned ∨ g.parted then g
  else
    let g := g.wb (rLedger 0) 30 true
    (positions (g.mem &&& (2 ^ 64 - 1 - g.pr.gone % 2 ^ 64))).foldl (fun g p =>
      (g.holderReport p).foldl (fun g x => g.send (.holderReport { pos := g.pos, qid := x.1, n := x.2 })) g) g

/-- Holdings on failed dies are written off (R322, step 3): tokens of their units, queues homed there. -/
def Pkg.writeOffDies (g : Pkg) : Pkg :=
  (List.range 48).foldl (fun g x =>
    if g.siteSt x = .active then g
    else
      let n := ((g.tok.filter (fun p => p.1 / 4096 == x)).map (fun p => p.2.count)).foldl (· + ·) 0
      let h := ((g.ctab.filter (fun p => p.1 / 64 == x)).flatMap (fun p => p.2.map (·.n))).foldl (· + ·) 0
      let qs := g.liveQueues.filter (fun p => p.1 == x)
      let e := (qs.map (fun p => let i := g.ix p.1 p.2; ringDist i.p i.l + g.outc p.1 p.2)).foldl (· + ·) 0
      let g := qs.foldl (fun g p => (g.wr (rQ p.1 p.2 0) (setF (setB (g.rd (rQ p.1 p.2 0)) 31 false) 30 29 0)).setCred p.1 p.2 0 0) g
      { (g.addSat (rRecl 4) (n + h + e)) with
        tok := g.tok.filter (fun p => p.1 / 4096 != x), ctab := g.ctab.filter (fun p => p.1 / 64 != x) }) g

/-- A home has every survivor's report (R322, step 3): OUT becomes their sum, the rest returns to AVAIL as FAILURE. -/
def Pkg.writeOff (g : Pkg) : Pkg :=
  let g := g.writeOffDies
  (g.liveQueues.filter (fun p => g.qProd p.1 p.2 == 0 || qClass p.2 == 2)).foldl (fun g p =>
    let n := (g.pr.reps.map (fun r => ((r.2.filter (fun x => x.1 == p.2)).map (·.2)).foldl (· + ·) 0)).foldl (· + ·) 0
    let o := g.outc p.1 p.2
    if o ≤ n then g.setCred p.1 p.2 (g.avail p.1 p.2) n
    else (g.setCred p.1 p.2 (g.avail p.1 p.2 + (o - n)) n).addSat (rRecl 4) (o - n)) g

/-- A queue home receives a member's holder reports, and writes off once every survivor's are in (R322, steps 3 and 4). -/
def Pkg.takeReport (g : Pkg) (p : Nat) (rs : List (Nat × Nat)) : Pkg :=
  if !g.rb (rLedger 0) 30 then g
  else
    let l := (p, rs) :: g.pr.reps.filter (fun x => x.1 != p)
    let g := { g with pr := { g.pr with reps := l } }
    if (positions (g.mem &&& (2 ^ 64 - 1 - g.pr.gone % 2 ^ 64))).all (fun q => l.any (fun x => x.1 == q)) then
      { g.writeOff with pr := { g.writeOff.pr with reps := [] } }.send (.reclaimDone g.pos)
    else g

/-- The leader runs a reclaim once the pack has quiesced (R322, step 1). -/
def Pkg.startReclaim (g : Pkg) : Pkg :=
  ({ (g.wb (rLedger 0) 30 true) with ld := { g.ld with reclaiming := positions (g.mem &&& (2 ^ 64 - 1 - g.pr.gone % 2 ^ 64)) } }).send
    (.reclaim g.sealed)

/-- The leader receives RECLAIM_DONE; with the last, the members' revert actions run (R322, R344). -/
def Pack.reclaimDone (s : Pack) (k p : Nat) : Pack :=
  let g := s.g k
  if !g.leads ∨ g.parted ∨ !g.ld.reclaiming.contains p then s
  else
    let l := g.ld.reclaiming.filter (· != p)
    let s := s.on k (fun g => { g with ld := { g.ld with reclaiming := l } })
    if !l.isEmpty then s
    else (s.members k).foldl (fun s j => if (s.g j).pr.rev = 1 ∧ !(s.g j).parted then s.revertActions j 4 else s) s

/-- A member receives RECLAIM (R322): its holder reports are sent; at the leader the reclaim is counted. -/
def Pack.reclaim (s : Pack) (k step : Nat) : Pack :=
  let s := s.on k (fun g => if g.leads && !g.parted && g.ld.reclaiming.isEmpty then g.startReclaim else g)
  s.on k (fun g => g.takeReclaim step)

/-- Becomes a pack of one: position 0, leader, epoch 1 (R298, R354). -/
def Pkg.packOfOne (g : Pkg) : Pkg :=
  let g := g.wr rPackId (setF (g.rd rPackId) 7 0 0xC0)
  let g := ((g.wr rMemLo 1).wr rMemHi 0).wf rPackEpoch 15 0 1
  { (g.wf rPackStat 15 10 0) with pr := { g.pr with gone := 0, links := [], downs := [] }, ld := {} }

/-- A package applies MEMBER in one update and acknowledges it (R299, R303, R323, R354); a position that it still counts no link of stays lost (R301, R351). One that has been assigned and is a member of no pack yet holds epoch 0 and takes any; another epoch than the next is stale. -/
def Pkg.takeMember (g : Pkg) (m : MemberMsg) : Pkg :=
  if !g.assigned ∨ (g.phase = 4 ∧ g.cause = 0xA) then g
  else if m.epoch ≠ (g.epoch + 1) % 65536 ∧ !(g.epoch == 0 && g.mem == 0) then g.stale
  else if !m.mem.testBit g.pos then (if g.mem = 0 then g else (g.send (.memberAck g.pos m.epoch)).packOfOne)
  else
    let new := (positions m.mem).filter (fun p => !g.mem.testBit p && p != g.pos)
    let g := if g.leads then { g with ld := { g.ld with push := g.ld.push.filter (fun p => m.mem.testBit p && !new.contains p) ++ new } } else g
    let g := (g.wr64 rMemLo rMemHi (m.mem % 2 ^ 64)).wf rPackEpoch 15 0 m.epoch
    let gone := (positions g.pr.gone).filter (fun p => m.mem.testBit p && m.links.getD p 0 == 0)
    let g := { g with flows := [], pr := { g.pr with gone := gone.foldl (fun a p => a ||| 2 ^ p) 0, downs := [], links := (List.range 64).map (fun p => (p, m.links.getD p 0)) } }
    let g := (List.range 32).foldl (fun g n =>
      if g.rb (rPort n 4) 31 && (!g.rb (rPort n 4) 30 || !m.mem.testBit (g.rf (rPort n 4) 18 13)) then g.fencePort n else g) g
    g.send (.memberAck g.pos m.epoch)

/-- A package that no conflict or partition keeps off the pack. -/
def Pkg.linkable (g : Pkg) : Bool := g.assigned && fld (g.rd rPackStat) 4 2 == 0

/-- A FENCED port comes UP with its far end, where both ends are members of the same epoch (R293). -/
def Pack.raisePort (s : Pack) (k n : Nat) : Pack :=
  let g := s.g k
  match (mget ({} : Link) g.links n).peer with
  | none => s
  | some (j, m) =>
    let h := s.g j
    if g.portState n ≠ 3 ∨ (h.portState m ≠ 3 ∧ h.portState m ≠ 2) ∨ !g.linkable ∨ !h.linkable ∨ g.epoch ≠ h.epoch ∨
        !g.mem.testBit h.pos ∨ !h.mem.testBit g.pos then s
    else
      let up (g h : Pkg) (n m : Nat) : Pkg :=
        let g := (g.wf (rPort n 0) 30 28 2).wr (rPort n 4) (mk32 (3 * 2 ^ 30 + m * 2 ^ 19 + h.pos * 2 ^ 13))
        g.onLink n Link.fresh
      (s.on k (fun g => up g h n m)).on j (fun h => up h g m n)

/-- Every FENCED port of a package that may comes UP: at a seal, whatever the modes are (R293). -/
def Pack.raisePorts (s : Pack) (k : Nat) : Pack := (List.range 32).foldl (fun s n => s.raisePort k n) s

/-- A FENCED port comes UP outside a seal, only while PIPE.MODE reads OFF on both packages (R293). -/
def Pack.raiseOff (s : Pack) (k n : Nat) : Pack :=
  match ((s.g k).link n).peer with
  | some (j, _) => if (s.g k).mode = 0 ∧ (s.g j).mode = 0 then s.raisePort k n else s
  | none => s
def Pack.raiseAllOff (s : Pack) (k : Nat) : Pack := (List.range 32).foldl (fun s n => s.raiseOff k n) s

/-- UP links of a member: (port, partner's position). -/
def Pkg.upLinks (g : Pkg) : List (Nat × Nat) :=
  (g.upPorts.filter (fun n => g.rb (rPort n 4) 31)).map (fun n => (n, g.rf (rPort n 4) 18 13))

/-- Positions within reach and their distance from a start, breadth first. -/
def bfs (adj : Nat → List Nat) : Nat → List (Nat × Nat) → List (Nat × Nat)
  | 0, seen => seen
  | n + 1, seen =>
    let d := (seen.map (·.2)).foldl max 0
    let next := (((seen.filter (fun x => x.2 == d)).flatMap (fun x => adj x.1)).eraseDups).filter (fun p => !seen.any (fun x => x.1 == p))
    if next.isEmpty then seen else bfs adj n (seen ++ next.map (fun p => (p, d + 1)))

/-- The member at a position as the leader's topology table has it, whatever the routes are (R349): the package of its epoch that holds the position and has UP ports. -/
def Pack.byPos (s : Pack) (k p : Nat) : Option Nat :=
  let g := s.g k
  if p = g.pos then some k
  else (s.pkgs.find? (fun x => x.2.assigned && x.2.pos == p && x.2.mem == g.mem && x.2.epoch == g.epoch && !x.2.upPorts.isEmpty)).map (·.1)

/-- The leader recomputes every member's route maps from the UP links (R349): shortest paths, ties to the lowest port; a position that no path reaches has none. -/
def Pack.routes (s : Pack) (k : Nat) : Pack :=
  let ps := positions (s.g k).mem
  let adj (p : Nat) : List Nat :=
    match s.byPos k p with
    | some j => ((s.g j).upLinks.map (·.2)).filter (fun q => (s.g k).mem.testBit q)
    | none => []
  (ps.filterMap (s.byPos k)).foldl (fun s j =>
    let h := s.g j
    ps.foldl (fun s p =>
      if p = h.pos then s
      else
        let ds := bfs adj 64 [(p, 0)]
        let best := h.upLinks.filterMap (fun l => (ds.find? (fun x => x.1 == l.2)).map (fun x => (x.2, l.1)))
        match sortBy (fun a b => decide (a.1 < b.1) || (a.1 == b.1 && decide (a.2 ≤ b.2))) best with
        | [] => s.on j (fun g => g.wr (hubR (0x7100 + 8 * p)) 0)
        | (d, n) :: _ =>
          s.on j (fun g => (g.wr (hubR (0x7100 + 8 * p)) (mk32 (2 ^ n))).wf (hubR (0x7104 + 8 * p)) 3 0 (min 15 (d + 1)))) s) s

/-- Configuration that is identical on every member: TENS, OWN, SCHED, COLL, TMODE (R350, step 6). -/
def sharedReg (a : Nat) : Bool :=
  let off := a % 0x100000
  a / 0x100000 == 62 && (decide (0x80000 ≤ off) || decide (0x60000 ≤ off ∧ off < 0x80000) || decide (0xA000 ≤ off ∧ off < 0xC000) ||
    decide (0x8000 ≤ off ∧ off < 0x9000) || decide (0x50000 ≤ off ∧ off < 0x60000))

/-- Copies registers that meet a test from one set into a package. -/
def Pkg.copyRegs (g : Pkg) (m : Map W32) (t : Nat → Bool) : Pkg := (m.filter (fun p => t p.1)).foldl (fun g p => g.wr p.1 p.2) g

/-- Registers of a cut that are written straight back: queue maps, configuration and bases, versions and schedules. -/
def cutPlain (a : Nat) : Bool :=
  let off := a % 0x100000
  if a / 0x100000 < 48 then decide (0x80000 ≤ off ∧ off < 0xC0000) else a / 0x100000 == 62 && !(decide (0x30000 ≤ off ∧ off < 0x40000))

/-- A package takes its state from a cut, in the order of R352. -/
def Pack.restoreCut (s : Pack) (k : Nat) (c : Cut) : Pack :=
  let next := (c.step + 1) % 2 ^ 32
  let s := s.quiesce k
  let s := s.on k (fun g =>
    let g := g.mbtReset.armsClear
    let g := { g with ctab := [], tr := { passes := g.tr.passes } }
    let g := g.collRevert c.step
    g.copyRegs c.regs cutPlain)
  let s := ((s.g k).liveQueues.filter (fun p => qClass p.2 == 1 || qClass p.2 == 2)).foldl (fun s p => s.qFlush k p.1 p.2) s
  s.on k (fun g =>
    let g := g.scaleRestore c
    let g := (g.liveQueues.filter (fun p => g.qInput p.1 p.2)).foldl (fun g p =>
      let i := g.ix p.1 p.2
      (g.setIx p.1 p.2 { p := i.m, c := i.m, m := i.m, l := i.m }).setCred p.1 p.2 (g.qSize p.1 p.2) 0) g
    let g := g.strmRestore c next
    let g := (g.wr rSealStep (mk32 c.step)).wf rSealEpoch 15 0 c.epoch
    let g := (List.range 16).foldl (fun g i => if i < 3 ∨ (8 ≤ i ∧ i < 15) then g.wr (rLedger (4 * i)) 0 else g) g
    let g := { g with booked := g.holdings, flows := [] }
    let g := { g with pr := { g.pr with bad := false, prep := 0, suppAck := 0, commit := none, parked := false, rev := 0, revWait := false,
                                         cuts := mins g.pr.cuts (c.step % 2) c },
                      ld := { g.ld with record := none, revPend := false } }
    (g.setPhase 3).setCause 0)

/-- The cut of a lost position as its mirror holds it (R340, R350): for the step, or of the step before with what rolls it forward. -/
def Pack.mirrorCut (s : Pack) (k p step : Nat) : Option (Cut ⊕ (Cut × CommitMsg × Supplement)) :=
  let all := (s.members k).flatMap (fun j => ((s.g j).pr.cuts.filter (fun c => decide (2 ≤ c.1) && c.2.pos == p)).map (fun c => (j, c.2)))
  match all.find? (fun x => x.2.step == step) with
  | some x => some (.inl x.2)
  | none =>
    match all.find? (fun x => (x.2.step + 1) % 2 ^ 32 == step) with
    | none => none
    | some x =>
      let g := s.g x.1
      let cm := (g.pr.cuts.find? (fun c => decide (c.1 < 2) && c.2.step == step)).bind (fun c => c.2.commit)
      match cm, g.pr.supps.find? (fun q => q.1 == p && q.2.step == step) with
      | some m, some q => some (.inr (x.2, m, q.2))
      | _, _ => none

/-- Registers of a spare entry (R347). -/
def rSpare (n o : Nat) : Nat := rProt (0x40 + 16 * n + o)

/-- An eligible spare entry: its package (R347). `need`: the lost package's revision floor. -/
def Pack.spareOf (s : Pack) (k need n : Nat) : Option Nat :=
  let g := s.g k
  let c := g.rd (rSpare n 8)
  let serial := g.rd64 (rSpare n 0) (rSpare n 4)
  let via := fld c 29 24
  let port := fld c 23 19
  if !bit c 31 || bit c 30 || !g.mem.testBit via || g.lostPos via then none
  else match s.at k via with
    | none => none
    | some v =>
      let h := s.g v
      if h.rb (rPort port 4) 31 && !h.rb (rPort port 4) 30 && h.rd64 (rPort port 8) (rPort port 0xC) == serial then
        match (mget ({} : Link) h.links port).peer with
        | some (j, _) => if (s.g j).assigned || floorOf j < need then none else some j
        | none => none
      else none

/-- The lowest eligible entry and its package. -/
def Pack.chooseSpare (s : Pack) (k need : Nat) : Option (Nat × Nat) :=
  (List.range 8).findSome? (fun n => (s.spareOf k need n).map (fun p => (n, p)))

/-- A bank of the step before rolled forward with a COMMIT and a supplement (R350). -/
def Pack.rollForward (s : Pack) (k lead : Nat) (m : CommitMsg) (sup : Supplement) : Pack :=
  let l := s.g lead
  s.on k (fun g =>
    let g := g.rollAll m.scales
    let g := g.copyRegs l.regs (fun a => a / 0x100000 == 62 &&
      (decide (0xA000 ≤ a % 0x100000 ∧ a % 0x100000 < 0xC000) || a % 0x100000 == 0x500C || a % 0x100000 == 0x5020 ||
        (decide (0x80000 ≤ a % 0x100000) && a % 0x20 == 0x10)))
    let g := sup.cons.foldl (fun g x =>
      match g.home x.1 with
      | none => g
      | some site =>
        let n := ringDist x.2 (g.ix site x.1).m
        let g := (g.setIx site x.1 { p := x.2, c := x.2, m := x.2, l := x.2 }).setCred site x.1 (g.qSize site x.1) 0
        let g := g.wr64 (rQ site x.1 0x24) (rQ site x.1 0x28) (g.rd64 (rQ site x.1 0x24) (rQ site x.1 0x28) + n)
        g.wr (rQ site x.1 0x20) (mk32 ((m.step + 1) % 2 ^ 32))) g
    let g := { g with strm := l.strm }
    let g := (g.wr rSealStep (mk32 m.step)).wf rSealEpoch 15 0 m.epoch
    let g := g.strmSeal ((m.step + 1) % 2 ^ 32)
    { g with pr := { g.pr with cuts := mins g.pr.cuts (m.step % 2) (g.makeCut k (some m)) } })

/-- The protected blocks this package owns whose digests do not verify (R350, step 8), each with its tensor. -/
def Pack.badBlocks (s : Pack) (k : Nat) : List (Nat × Loc) :=
  let g := s.g k
  g.tensors.flatMap (fun t => (g.myShards t).flatMap (fun n =>
    let r := (g.myRep t n).getD 0
    (List.range (g.lplanes t)).flatMap (fun i => (List.range (g.planeBlocks t)).filterMap (fun b =>
      if s.digStored k t n r (g.oldPlane t i) b = s.digNow k t n r (g.oldPlane t i) b then none
      else some (t, g.planeLoc k t n r (g.oldPlane t i) (4096 * b))))))

/-- Every protected block of this package verifies. -/
def Pack.verifyAll (s : Pack) (k : Nat) : Bool := (s.badBlocks k).isEmpty

/-- Blocks of packages that do not verify: each is a DIGEST error, and the pack halts with CAUSE 0x08 (R350, R352). -/
def Pack.verifyFail (s : Pack) (k : Nat) (js : List Nat) : Pack :=
  (js.foldl (fun s j => (s.badBlocks j).foldl (fun s x => s.on j (fun g => g.digestErr x.1 x.2)) s) s).haltAll k 8

/-- TENS.VER of a rebuilt shard names the current slot alone (R325). -/
def Pkg.svCurOnly (g : Pkg) : Pkg :=
  g.tensors.foldl (fun g t => g.wf (rTens t 0x10) 24 20 (2 ^ g.tCur t)) g

/-- The takeover of the lowest lost position by a spare (R347 to R351). `hostCut`: the host's CUT record of the step, where it has one. -/
def Pack.takeover (s : Pack) (k : Nat) (hostCut : Option Cut) : Pack :=
  let g := s.g k
  let lost := g.pr.gone &&& g.mem
  if !g.leads ∨ lost = 0 ∨ !g.autotk ∨ !g.ld.reverting.isEmpty ∨ g.phase ≠ 3 then s
  else
    let p := lowest lost
    let need := match s.mirrorCut k p g.sealed, hostCut with
      | some (.inl c), _ => c.floor
      | some (.inr x), _ => x.1.floor
      | none, some c => c.floor
      | none, none => 0
    match s.chooseSpare k need with
    | none => s.haltAll k 9
    | some (e, j) =>
      let ep := (g.epoch + 1) % 65536
      let s := s.on k (fun g => ((g.wb (rSpare e 8) 30 true).wf (rProt 4) 25 20 p).setTake 3)
      -- ASSIGN, MEMBER, routes
      let s := (s.on j (fun h =>
        let h := h.wr rPackId (setF (setB (h.rd rPackId) 6 true) 5 0 p)
        let h := (h.wr64 rMemLo rMemHi g.mem).wf rPackEpoch 15 0 g.epoch
        h.wf rPackStat 15 10 g.pos)).raisePorts j
      let mm : MemberMsg := { epoch := ep, mem := g.mem, links := s.linkCounts g.mem (some (p, j)) }
      let s := s.onMembers k (fun h => h.takeMember mm)
      let s := s.on j (fun h => if h.epoch = ep then h else h.takeMember mm)
      let s := s.onMembers k (fun h => { h with pr := { h.pr with gone := (g.pr.gone &&& g.mem) ^^^ 2 ^ p } })
      let s := s.on k (fun h => { h with ld := { h.ld with push := h.ld.push.filter (· != p) ++ [p] } })
      let s := s.raisePorts j
      let s := s.routes k
      -- configuration and cut
      let s := s.on j (fun h => { (h.copyRegs g.regs sharedReg) with pr := { h.pr with modes := g.pr.modes } })
      let r : Option Pack :=
        match s.mirrorCut k p g.sealed, hostCut with
        | some (.inl c), _ => some (s.restoreCut j c)
        | some (.inr x), _ => some ((s.restoreCut j x.1).rollForward j k x.2.1 x.2.2)
        | none, some c => if c.step = g.sealed ∧ c.pos = p then some (s.restoreCut j c) else none
        | none, none => none
      match r with
      | none => s.haltAll k 8
      | some s =>
        let s := s.on j Pkg.svCurOnly
        let x := s.rebuildAll j
        if x.2.2 then (x.1.on k (fun g => g.wb (rProt 4) 28 true)).haltAll k 8
        else
          let s := x.1.rebuildParity j
          let s := s.on j (fun h => { h with pr := { h.pr with hostBlocks := x.2.1 } })
          if x.2.1.isEmpty && !s.owesHost k then
            (if s.verifyAll j then s.on k (fun g => g.setTake 7) else s.verifyFail k [j])
          else s.on k (fun g => (g.setTake 5).wb (rProt 4) 28 true)

/-- HOSTDONE (R350): the DELTA-class blocks the host wrote are verified and the takeover ends. -/
def Pack.hostDone (s : Pack) (k : Nat) : Pack :=
  let g := s.g k
  if !g.leads ∨ g.takeSt ≠ 5 then s
  else
    let js := (s.members k).filter (fun j => !(s.g j).pr.hostBlocks.isEmpty)
    let s := s.on k (fun g => (g.setTake 6).wb (rProt 4) 28 false)
    if js.all (fun j => s.verifyAll j) then
      (js.foldl (fun s j => s.on j (fun h => { h with pr := { h.pr with hostBlocks := [] } })) s).on k (fun g => g.setTake 7)
    else s.verifyFail k js

/-- An image may be restored: every cut's codes verify and every input queue stands at its step (R352). -/
def cutsOk (cs : List Cut) (crc : Bool) : Bool :=
  crc && cs.all (fun c => c.regs.all (fun p =>
    let off := p.1 % 0x100000
    if p.1 / 0x100000 < 48 ∧ 0x80000 ≤ off ∧ off < 0xC0000 ∧ off % 0x40 = 0x20 then p.2.toNat == (c.step + 1) % 2 ^ 32 else true))

/-- A write of PROT.CTL.RESTORE: the pack is restored from an image of one cut for each member (R352). -/
def Pack.restore (s : Pack) (k : Nat) (cs : List Cut) (crc : Bool) : Pack :=
  let g := s.g k
  if !g.leads ∨ !(g.phase = 3 ∨ (g.phase = 4 ∧ g.cause ≠ 0xA)) then s
  else if !cutsOk cs crc ∨ !(positions g.mem).all (fun p => cs.any (fun c => c.pos == p)) then s.on k (fun g => g.wb (rProt 0) 30 true)
  else
    let s := (s.members k).foldl (fun s j =>
      match cs.find? (fun c => c.pos == (s.g j).pos) with
      | some c => s.restoreCut j c
      | none => s) s
    if (s.members k).all (fun j => s.verifyAll j) then s
    else s.verifyFail k (s.members k)

/-- PROT.STAT.LREADY (R354). -/
def Pkg.lready (g : Pkg) : Bool :=
  g.assigned && g.mem == 2 ^ g.pos && g.mode == 0 && !(List.range 512).any (fun n => g.mbValid n)

/-- A write of UNASSIGN (R354). -/
def Pkg.unassign (g : Pkg) : Pkg :=
  if !g.lready then g
  else (((g.wr rPackId (setF (g.rd rPackId) 7 6 0)).wf rPackEpoch 15 0 0).wr rMemLo 0).wr rMemHi 0

/-- A write to a spare entry's control word (R347): writing V clears USED. -/
def Pkg.spareWrite (g : Pkg) (n : Nat) (v : W32) : Pkg :=
  g.wr (rSpare n 8) (mk32 (at' (fld v 31 31) 31 + at' (fld v 29 19) 19))

/-- A write to PROT.CTL's plain fields, then its commands but for RESTORE (R340, R343, R350, R354). -/
def Pack.protCtl (s : Pack) (k : Nat) (v : W32) (cs : List Cut) (crc : Bool) : Pack :=
  let s := s.on k (fun g =>
    let g := g.wb (rProt 0) 30 (g.rb (rProt 0) 30 && !bit v 30)
    let g := (g.wf (rProt 0) 29 24 (fld v 29 24)).wf (rProt 0) 19 17 (fld v 19 17)
    g.wf (rProt 0) 15 2 (fld v 15 2))
  let s := if bit v 23 then s.revertRequest k true else s
  let s := if bit v 22 then s.restore k cs crc else s
  let s := if bit v 21 then s.on k Pkg.unassign else s
  if bit v 20 then s.hostDone k else s

end Sys2Proof.Machine
end

