-- ==== Sys2Proof/Machine/Rs.lean ====
section
/-! DEFINITION. Reed-Solomon codes over GF(2^w) with generator roots α^0 to α^(2t-1) (R253, R284): syndromes and the bounded-distance decoder. -/

set_option linter.unusedVariables false

namespace Sys2Proof.Machine

/-- A field GF(2^w) with its primitive polynomial. -/
structure GF where
  w : Nat
  poly : Nat
  deriving DecidableEq, Repr

/-- Multiplication by the bits of the second factor, from the top. -/
def GF.mulGo (f : GF) (a b : Nat) : Nat → Nat → Nat
  | 0, acc => acc
  | n + 1, acc =>
    let d := 2 * acc
    let d := if d.testBit f.w then d ^^^ f.poly else d
    GF.mulGo f a b n (if b.testBit n then d ^^^ a else d)

/-- Product. -/
def GF.mul (f : GF) (a b : Nat) : Nat := f.mulGo a b f.w 0

/-- Power, by `n` squarings. -/
def GF.powGo (f : GF) : Nat → Nat → Nat → Nat → Nat
  | 0, _, _, acc => acc
  | n + 1, a, e, acc => GF.powGo f n (f.mul a a) (e / 2) (if e % 2 = 1 then f.mul acc a else acc)

/-- a^e. -/
def GF.pow (f : GF) (a e : Nat) : Nat := f.powGo (f.w + 1) a (e % (2 ^ f.w - 1)) 1

/-- Inverse of a non-zero element. -/
def GF.inv (f : GF) (a : Nat) : Nat := f.pow a (2 ^ f.w - 2)

/-- α^e, α being the element x. -/
def GF.alpha (f : GF) (e : Nat) : Nat := f.pow 2 e

/-- Value of a polynomial, lowest coefficient first. -/
def GF.eval (f : GF) (p : List Nat) (x : Nat) : Nat := p.foldr (fun c acc => f.mul acc x ^^^ c) 0

/-- Syndromes of an error pattern: pairs of power and value. -/
def GF.syn (f : GF) (n : Nat) (err : List (Nat × Nat)) : List Nat :=
  (List.range n).map (fun i => err.foldl (fun a e => a ^^^ f.mul e.2 (f.alpha (i * e.1))) 0)

/-- Sum of two polynomials. -/
def polyAdd : List Nat → List Nat → List Nat
  | [], b => b
  | a, [] => a
  | x :: a, y :: b => (x ^^^ y) :: polyAdd a b

/-- A polynomial times a constant and x^m. -/
def GF.polyScale (f : GF) (p : List Nat) (c m : Nat) : List Nat := List.replicate m 0 ++ p.map (fun x => f.mul x c)

/-- The error locator by Berlekamp and Massey: `c` the locator, `b` the last one, `l` its length, `m` the shift, `bb` the last discrepancy. -/
def GF.bm (f : GF) (s : List Nat) : Nat → Nat → List Nat → List Nat → Nat → Nat → Nat → List Nat × Nat
  | 0, _, c, _, l, _, _ => (c, l)
  | fuel + 1, n, c, b, l, m, bb =>
    let d := (List.range (l + 1)).foldl (fun a i => if i ≤ n then a ^^^ f.mul (c.getD i 0) (s.getD (n - i) 0) else a) 0
    if d = 0 then GF.bm f s fuel (n + 1) c b l (m + 1) bb
    else
      let c' := polyAdd c (f.polyScale b (f.mul d (f.inv bb)) m)
      if 2 * l ≤ n then GF.bm f s fuel (n + 1) c' c (n + 1 - l) 1 d
      else GF.bm f s fuel (n + 1) c' b l (m + 1) bb

/-- Bounded-distance decoding of `len` symbols with `2t` roots: the corrections, or none where the pattern is uncorrectable. Powers count from the last symbol. -/
def GF.decode (f : GF) (len t : Nat) (err : List (Nat × Nat)) : Option (List (Nat × Nat)) :=
  let s := f.syn (2 * t) err
  if s.all (· == 0) then some []
  else
    let r := f.bm s (2 * t) 0 [1] [1] 0 1 1
    let lam := (List.range (r.2 + 1)).map (fun i => r.1.getD i 0)
    let roots := (List.range len).filter (fun p => f.eval lam (f.inv (f.alpha p)) == 0)
    if t < r.2 ∨ roots.length ≠ r.2 then none
    else
      let om := (List.range (2 * t)).map (fun i =>
        (List.range (i + 1)).foldl (fun a j => a ^^^ f.mul (s.getD j 0) (lam.getD (i - j) 0)) 0)
      let der := (List.range r.2).map (fun i => if i % 2 = 0 then lam.getD (i + 1) 0 else 0)
      let fix := roots.map (fun p =>
        let x := f.alpha p
        let xi := f.inv x
        (p, f.mul x (f.mul (f.eval om xi) (f.inv (f.eval der xi)))))
      if f.syn (2 * t) fix == s then some fix else none

/-- The field of the stack's burst code (R253). -/
def gfStack : GF := { w := 8, poly := 0x11D }

/-- Decodes a burst of 72 symbols from the pattern of symbol errors, symbol 0 first (log 22). -/
def burstDecode (err : List (Nat × Nat)) : Option (List (Nat × Nat)) :=
  (gfStack.decode 72 4 (err.map (fun e => (71 - e.1, e.2)))).bind (fun fix =>
    if 3 < fix.length then none else some (fix.map (fun e => (71 - e.1, e.2))))

end Sys2Proof.Machine
end

