-- ==== Sys2Proof/Machine/StackOps.lean ====
section
/-! DEFINITION. The memory stacks: requests, partial writes, refresh, scrub, ports, sensors (R246 to R259). -/

set_option linter.unusedVariables false

namespace Sys2Proof.Machine

/-- A stack serves requests (R252, R259, R381). -/
def Pkg.stackServes (g : Pkg) (j : Nat) : Bool := decide (j < 12) && g.stackOn j && !g.stackFail j

/-- A burst as it is delivered: its 64 data bytes with the errors and the decoder's corrections; none where it is uncorrectable (R253). The flag says that something was corrected. -/
def burstRead (bs : List Byte) (err : List (Nat × Nat)) : Option (List Byte × Bool) :=
  (burstDecode err).map (fun fix =>
    ((List.range bs.length).map (fun i =>
      let x := ((err ++ fix).filter (fun e => e.1 == i)).foldl (fun a e => a ^^^ e.2) 0
      bs.getD i 0 ^^^ BitVec.ofNat 8 x), !fix.isEmpty))

/-- A place in a stack. -/
def stackLoc (k j off : Nat) : Loc := { pk := k, site := 48 + j, space := 8, off := off }

/-- Reads the burst that holds an offset under its code for a master: its bytes where they may be used, the state with the error logged. -/
def Pack.burst (s : Pack) (w : Who) (k j off : Nat) (err : List (Nat × Nat)) : Option (List Byte) × Pack :=
  match burstRead (s.bytes (stackLoc k j (off / 64 * 64)) 64) err with
  | none => (none, s.on k (fun g => g.burstUe w j off))
  | some (bs, fixed) =>
    (some bs, if fixed then s.on k (fun g => g.stackCe j (chanOf off) (localOf off / 64)) else s)

/-- A write of less than a burst: read, corrected, merged and written in one step; nothing where the burst is uncorrectable (R251, R255). -/
def Pack.partialWrite (s : Pack) (w : Who) (k j off : Nat) (data : List Byte) (err : List (Nat × Nat)) : Pack :=
  match s.burst w k j off err with
  | (none, s) => s
  | (some bs, s) =>
    s.store (stackLoc k j (off / 64 * 64)) (bs.take (off % 64) ++ data ++ bs.drop (off % 64 + data.length))

/-- A request that the channel can take: its burst lies in the channel, its port is up, and the flit CRC of a write has passed: one whose CRC fails is discarded, and the link retries it (R254). -/
def Pkg.reqOk (g : Pkg) (j c : Nat) (r : StackReq) : Bool :=
  let n := if r.write then r.data.length else r.n
  (!r.write || r.crc) && decide (r.src < 3) && (r.src == 2 || g.stackPort j r.src) && chanOf r.off == c && decide (r.off < 0x1800000000) &&
    decide (0 < n ∧ r.off % 64 + n ≤ 64)

/-- The request that a channel grants: the first source with one, from where the rotation stands (R250). -/
def Pkg.grantReq (g : Pkg) (j c : Nat) (rs : List StackReq) : Option StackReq :=
  let p := mget 0 g.sk.rot (chKey j c)
  [p, (p + 1) % 3, (p + 2) % 3].findSome? (fun x => rs.find? (fun r => r.src == x && g.reqOk j c r))

/-- The shards of this package whose area holds a stack offset (R205). -/
def Pkg.shardsAt (g : Pkg) (j off : Nat) : List (Nat × Nat) :=
  g.tensors.flatMap (fun t => ((g.myShards t).filter (fun n =>
    let e := g.ownerOf t n ((g.myRep t n).getD 0)
    g.ownStack e == j && decide (g.ownBase e ≤ off ∧ off < g.ownBase e + g.areaBytes t))).map (fun n => (t, n)))

/-- The master of a request: the base die for its own Thresher. -/
def reqWho (j : Nat) (r : StackReq) : Who := if r.src = 2 then { site := 48 + j } else r.who

/-- Performs a granted request; an uncorrectable read of a Thresher stops the shard's update (R211). -/
def Pack.doReq (s : Pack) (k j : Nat) (r : StackReq) : Pack :=
  if r.write then
    if r.data.length = 64 then s.store (stackLoc k j r.off) r.data
    else s.partialWrite (reqWho j r) k j r.off r.data r.err
  else match s.burst (reqWho j r) k j r.off r.err with
    | (none, s) =>
      if r.src ≠ 2 then s
      else s.on k (fun g => (g.shardsAt j r.off).foldl (fun g p => g.setShard p.1 p.2 { g.shardSt p.1 p.2 with stop := true }) g)
    | (some bs, s) =>
      s.on k (fun g => { g with sk := { g.sk with read := some (r.src, j, r.off, (bs.drop (r.off % 64)).take r.n) } })

/-- A command slot of a channel with the requests that stand at it (R250): a refresh that can wait no longer, else the rotation's request; at throttle level 3 requests wait (R256). -/
def Pack.stackRequest (s : Pack) (k j c : Nat) (rs : List StackReq) : Pack :=
  let g := s.g k
  if !g.stackServes j then s
  else match g.forced j c with
    | some b => s.on k (fun g => g.setPost j c b 0)
    | none =>
      if g.chLevel j c = 3 then s
      else match g.grantReq j c rs with
        | none => s
        | some r =>
          (s.on k (fun g => { g with sk := { g.sk with rot := mins g.sk.rot (chKey j c) ((r.src + 1) % 3) } })).doReq k j r

/-- A write of less than a burst at a stack, among the other requests at its channel: its turn comes as any request's (R250, R251). -/
def Pack.stackPartial (s : Pack) (k j c : Nat) (r : StackReq) (others : List StackReq) : Pack :=
  if !r.write ∨ 64 ≤ r.data.length ∨ chanOf r.off ≠ c then s else s.stackRequest k j c (r :: others)

/-- A refresh falls due: postponed while requests are pending, at most eight times (R254, R256). -/
def Pkg.refresh (g : Pkg) (j c b : Nat) (pending : Bool) : Pkg :=
  let n := mget 0 g.sk.post (bankKey j c b)
  if !(decide (j < 12)) || g.selfRef j then g
  else if pending && decide (n < 8) then g.setPost j c b (n + 1)
  else g.setPost j c b 0

/-- Bursts of a channel (R246). -/
def channelBursts : Nat := 0xC00000

/-- The patrol scrub's next burst of a channel (R253); at throttle level 3 nothing is activated (R256). -/
def Pack.scrub (s : Pack) (k j c : Nat) (err : List (Nat × Nat)) : Pack :=
  let g := s.g k
  if !(decide (j < 12)) || g.selfRef j || g.stackFail j || g.rf (rStack j 0) 23 16 == 0 || (g.forced j c).isSome || g.chLevel j c == 3 then s
  else
    let b := mget 0 g.sk.scrub (chKey j c)
    let off := burstAddr c b
    let s := match s.burst { site := 48 + j } k j off err with
      | (none, s) => s
      | (some bs, s) => if err.isEmpty then s else s.store (stackLoc k j off) bs
    s.on k (fun g => { g with sk := { g.sk with scrub := mins g.sk.scrub (chKey j c) ((b + 1) % channelBursts) } })

/-- The dies attached to a stack (R11). -/
def attached (j : Nat) : List Nat := if j < 6 then [2 * j, 2 * j + 1] else [24 + 2 * j, 25 + 2 * j]

/-- The port of a stack that a master at a site is routed through (R249): that of the attached die with fewer crossings, the lower on a tie. -/
def Pkg.viaPort (g : Pkg) (j site : Nat) : Nat :=
  let h (i : Nat) : Option Nat :=
    let x := mget 7 g.net.tab (site * 64 + (attached j).getD i 0)
    if x % 8 == 7 || !g.stackPort j i then none else some (x / 256)
  match h 0, h 1 with
  | some a, some b => if b < a then 1 else 0
  | none, some _ => 1
  | _, _ => 0

/-- An access in flight of a thread passes through port `p` of stack `j` of package `k` (R252). A master of another package comes in at the die of the first UP port that faces it. -/
def Pack.viaLost (s : Pack) (k j p : Nat) (t : Tid) (a : Nat) : Bool :=
  match s.where' t.pkg (some t.site) a with
  | .ok l =>
    let g := s.g k
    let src := if t.pkg = k then t.site
      else ((g.upPorts.find? (fun n => g.rf (rPort n 4) 18 13 == (s.g t.pkg).pos)).map (fun n => portSites.getD (n / 4) 0)).getD 0
    l.pk == k && l.site == 48 + j && l.space == 8 && g.viaPort j src == p
  | _ => false

/-- Requests in flight through a lost port are discarded (R251, step 2; R252): no response comes to them. -/
def Pack.portDrop (s : Pack) (k j p : Nat) : Pack :=
  { s with pkgs := mmap (fun _ (g : Pkg) => { g with
      loads := g.loads.map (fun (l : Load) => if s.viaLost k j p l.t l.addr.toNat then { l with stuck := true } else l),
      stores := g.stores.map (fun (l : Store) => if s.viaLost k j p l.t l.addr.toNat then { l with stuck := true } else l) }) s.pkgs }

/-- A port's link is lost (R251, R252, R347): with both down the stack and its package have failed. -/
def Pkg.stackPortLost (g : Pkg) (j p : Nat) : Pkg :=
  if 12 ≤ j ∨ 2 ≤ p ∨ !g.stackPort j p then g
  else
    let g := g.wb (rStack j 0) (28 + p) false
    if g.stackPort j 0 || g.stackPort j 1 || g.stackFail j then g
    else
      let g := g.wb (rStack j 0) 30 true
      g.failPkg

/-- A stack port goes down with what is in flight through it (R251, R252). -/
def Pack.stackPortDown (s : Pack) (k j p : Nat) : Pack :=
  if 12 ≤ j ∨ 2 ≤ p ∨ !(s.g k).stackPort j p then s else (s.portDrop k j p).on k (fun g => g.stackPortLost j p)

/-- The level of a channel after a sample, from 15 × its estimate in 0.25 °C and the level before (R256). -/
def levelOf (t15 old : Nat) : Nat :=
  let up := if 15 * 420 ≤ t15 then 3 else if 15 * 380 ≤ t15 then 2 else if 15 * 340 ≤ t15 then 1 else 0
  if old < up then up
  else if t15 < 15 * (match old with | 3 => 400 | 2 => 368 | 1 => 328 | _ => 0) then old - 1
  else old

/-- A sample of a zone's sensor (R256): TZ, the levels of its channels, MAXLVL and TMAX. -/
def Pkg.stackSample (g : Pkg) (rise j z tz : Nat) : Pkg :=
  if 12 ≤ j ∨ 8 ≤ z then g
  else
    let g := g.wf (rStack j (0x10 + 4 * z)) 9 0 tz
    let tz := tz % 1024
    let old := g.rd (rStack j (0x30 + 4 * z))
    let w := (List.range 16).foldl (fun (w : W32) l =>
      setF w (2 * l + 1) (2 * l) (levelOf (15 * tz + rise * l) (fld old (2 * l + 1) (2 * l)))) 0
    let g := g.wr (rStack j (0x30 + 4 * z)) w
    let lv := (List.range 128).foldl (fun m c => max m (g.chLevel j c)) 0
    let tm := (List.range 8).foldl (fun m i => max m (g.rf (rStack j (0x10 + 4 * i)) 9 0 + rise)) 0
    g.wr (rStack j 4) (mk32 (lv * 2 ^ 30 + tm % 1024))

/-- TOPRISE of a stack (R256). -/
def topRise (k j : Nat) : Nat := Config.topRise k j % 128

/-- A stack leaves self-refresh (R259). -/
def Pkg.srefExit (g : Pkg) (j : Nat) : Pkg := if j < 12 then g.wb (rStack j 0) 27 false else g

/-- A write to a register of a stack. -/
def Pkg.stackWrite (g : Pkg) (j o : Nat) (v : W32) : Pkg :=
  if o = 0 then g.wf (rStack j 0) 23 16 (fld v 23 16)
  else if o = 0xC then g.wr (rStack j 0xC) v
  else if (o = 0x50 ∨ o = 0x54) ∧ bit v 31 then g.wb (rStack j o) 31 false
  else g

end Sys2Proof.Machine
end

