-- ==== Sys2Proof/Machine/D2dOps.lean ====
section
/-! DEFINITION. Die-to-die links: bundles, lanes, frames, the fallback, loss of an edge (R260 to R275). -/

set_option linter.unusedVariables false

namespace Sys2Proof.Machine

/-- The key of an end of an edge. -/
def ek (site e : Nat) : Nat := site * 8 + e

/-- One end of an edge. -/
def Pkg.edge (g : Pkg) (site e : Nat) : Edge := mget {} g.net.edges (ek site e)

/-- Replaces and changes an end of an edge. -/
def Pkg.setEdge (g : Pkg) (site e : Nat) (x : Edge) : Pkg := { g with net := { g.net with edges := mins g.net.edges (ek site e) x } }
def Pkg.onEdge (g : Pkg) (site e : Nat) (f : Edge → Edge) : Pkg := g.setEdge site e (f (g.edge site e))

/-- The facing end (R260; the hub's ports are edge 4 of sites 41 and 42). -/
def facing (site e : Nat) : Option (Nat × Nat) :=
  if site < 48 then
    match e with
    | 0 => if 12 ≤ site then some (site - 12, 2) else none
    | 1 => if site % 12 < 11 then some (site + 1, 3) else none
    | 2 => if site < 36 then some (site + 12, 0) else none
    | 3 => if 0 < site % 12 then some (site - 1, 1) else none
    | 4 => if site = 41 then some (62, 0) else if site = 42 then some (62, 1) else none
    | _ => none
  else if site = 62 then (match e with | 0 => some (41, 4) | 1 => some (42, 4) | _ => none)
  else none

/-- An end belongs to a hub port, which is narrower. -/
def hubEnd (site e : Nat) : Bool := site == 62 || e == 4

/-- Physical lanes, logical lanes and half width of a bundle (R260, R261, R279). -/
def physLanes (h : Bool) : Nat := if h then 68 else 272
def logLanes (h : Bool) : Nat := if h then 64 else 256
def halfLanes (h : Bool) : Nat := if h then 32 else 128

/-- The clock group of a physical lane. -/
def laneGroup (h : Bool) (i : Nat) : Nat := if h then 0 else i / 136

/-- Every clock of a bundle. -/
def allClocks (h : Bool) : Nat := if h then 1 else 3

/-- Good lanes of a mask, ascending. -/
def goodLanes (h : Bool) (mask : Nat) : List Nat := (List.range (physLanes h)).filter (fun i => !mask.testBit i)

/-- Good lanes whose clock is locked. -/
def liveLanes (h : Bool) (mask ck : Nat) : List Nat := (goodLanes h mask).filter (fun i => ck.testBit (laneGroup h i))

/-- The mode a bundle enters (R263). -/
def bundleMode (h : Bool) (mask ck : Nat) : Nat × Bool :=
  if logLanes h ≤ (goodLanes h mask).length ∧ ck % 4 &&& allClocks h = allClocks h then (2, false)
  else if halfLanes h ≤ (liveLanes h mask ck).length then (3, true)
  else (4, false)

/-- The physical lanes that carry the logical lanes, in order (R261): at half width the first of those whose clock is good. -/
def Edge.lanesOf (h : Bool) (x : Edge) : List Nat :=
  if x.half then (liveLanes h x.map x.ck).take (halfLanes h) else (goodLanes h x.map).take (logLanes h)

/-- The bits of a frame or packet that errors on the wire turn over, as (UI, physical lane): the lanes of a UI carry the next bits in ascending order (R264, R270, R279; log 123). An error on a lane that carries nothing changes nothing. -/
def Edge.wireBits (h : Bool) (x : Edge) (errs : List (Nat × Nat)) : List Nat :=
  let ls := x.lanesOf h
  errs.filterMap (fun e => (ls.findIdx? (· == e.2)).map (fun i => e.1 * ls.length + i))

/-- A bundle carries traffic. -/
def Edge.up (x : Edge) : Bool := x.state == 2 || x.state == 3

/-- An edge is up while both its bundles are (R263). -/
def Pkg.edgeUp (g : Pkg) (site e : Nat) : Bool :=
  match facing site e with
  | some (s, f) => (g.edge site e).up && (g.edge s f).up
  | none => false

/-- A die takes part in the network: an ACTIVE site that has started, or the hub. -/
def Pkg.netLive (g : Pkg) (site : Nat) : Bool := site == 62 || g.dieLive site

/-- Flits in groups of `n`. -/
def chunks {α : Type} (n : Nat) (l : List α) : List (List α) := (List.range ((l.length + n - 1) / n)).map (fun i => (l.drop (n * i)).take n)

/-- What frames or packets hold, in order, as the contents of others with `n` flits each (R272, R274); the credits they carry go with the first. -/
def regroup (n : Nat) (fs : List SentFrm) : List SentFrm :=
  let ret := fs.flatMap (·.ret)
  match chunks n (fs.flatMap (·.flits)) with
  | [] => if ret.isEmpty then [] else [{ flits := [], ret := ret }]
  | p :: ps => { flits := p, ret := ret } :: ps.map (fun q => { flits := q })

/-- Frames or packets that the receiver has not taken yet: those from its next number on. -/
def untaken (next : Nat) (l : List SentFrm) : List SentFrm := l.filter (fun r => seqLe 4096 next r.n)

/-- An end of an edge stops: what it has not had acknowledged, or has still to send, goes back into the network at its site (R275). -/
def Pkg.endOff (g : Pkg) (site e state : Nat) : Pkg :=
  let x := g.edge site e
  (g.inject site (((x.retry ++ x.todo).filter (fun r => !r.bad)).flatMap (·.flits))).setEdge site e
    { x with state := state, half := false, pend := none, told := false, ann := [], nak := false, retry := [], back := none, todo := [], powed := 0 }

/-- An edge goes down (R275): both ends are marked, what is unacknowledged goes back into the network, the loss is logged. -/
def Pkg.edgeDown (g : Pkg) (site e : Nat) : Pkg :=
  match facing site e with
  | none => g
  | some (s, f) =>
    let x := g.edge site e
    if x.state = 0 ∨ x.state = 4 then g
    else ((g.endOff site e 4).endOff s f 4).logAt 0x020D site 0xFF 0xFF e s x.state

/-- The number of the frame that is sent next to an end: one again after a NAK, else a new one. -/
def Edge.nextNo (y : Edge) : Nat := y.back.getD y.sn

/-- A switch is announced on the reverse bundle, 64 frames after the frame now received (R267, R268): MAPU with the lane, the switch FSEQ, the entry into the fallback and its width. A later one replaces the switch frame and both take effect together (R269). -/
def Pkg.announce (g : Pkg) (site e : Nat) (fb : Bool) (lane : Nat) : Pkg :=
  match facing site e with
  | none => g
  | some (t, f) =>
    let sw := ((g.edge t f).nextNo + 63) % 4096
    g.onEdge site e (fun x =>
      let fb := fb || (x.pend.map (·.2)).getD false
      let half := fb && decide ((goodLanes (hubEnd site e) x.bad).length < logLanes (hubEnd site e))
      { x with pend := some (sw, fb), told := false, ann := x.ann ++ [lane + sw * 2 ^ 9 + b2n fb * 2 ^ 21 + b2n half * 2 ^ 22] })

/-- What follows when lanes of a receiving bundle have been declared bad (R268, R269, R273). -/
def Pkg.laneSettle (g : Pkg) (site e : Nat) (lanes : List Nat) : Pkg :=
  let h := hubEnd site e
  let x := g.edge site e
  let good := (goodLanes h x.bad).length
  if !x.up then g
  else if (liveLanes h x.bad x.ck).length < halfLanes h then g.edgeDown site e
  else if x.state = 2 then lanes.foldl (fun g l => g.announce site e (decide (good < logLanes h)) l) g
  else g.setEdge site e { x with map := x.bad, half := x.half || decide (good < logLanes h) }

/-- A lane is marked bad and logged (R268). -/
def Pkg.markLane (g : Pkg) (site e lane cause : Nat) : Pkg :=
  let x := g.edge site e
  if x.bad.testBit lane ∨ physLanes (hubEnd site e) ≤ lane then g
  else
    let x := { x with bad := x.bad ||| 2 ^ lane, last := mk32 (2 ^ 31 + cause * 2 ^ 28 + lane) }
    (g.setEdge site e x).logAt 0x0112 site 0xFF 0xFF e lane cause

/-- Lanes are declared bad together. -/
def Pkg.declare' (g : Pkg) (site e cause : Nat) (lanes : List Nat) : Pkg :=
  let new := lanes.filter (fun l => !(g.edge site e).bad.testBit l)
  if new.isEmpty then g else (new.foldl (fun g l => g.markLane site e l cause) g).laneSettle site e new

/-! The start of a die -/

/-- The orientation code of a site (R14). -/
def orientOf (site : Nat) : Nat :=
  if site < 36 then (if site % 12 < 6 then 0 else 4) else (if site % 12 < 6 then 6 else 2)

/-- The die's own edge that becomes logical edge `e` under an orientation code, and whether its lane order is reversed (R15). -/
def nativeEdge (ori e : Nat) : Nat :=
  match e with
  | 0 => if ori = 6 ∨ ori = 2 then 2 else 0
  | 1 => if ori = 4 ∨ ori = 2 then 3 else 1
  | 2 => if ori = 6 ∨ ori = 2 then 0 else 2
  | 3 => if ori = 4 ∨ ori = 2 then 1 else 3
  | e => e
def laneReversed (ori e : Nat) : Bool :=
  match ori with
  | 4 => e == 0 || e == 2
  | 6 => e == 1 || e == 3
  | 2 => decide (e < 5)
  | _ => false

/-- The lanes of a receiving bundle fused bad, at most 16 (R262), in the logical frame (R15, R260): fuses name a die's own edges and lanes. -/
def fusedMask (k site e : Nat) : Nat :=
  let n := physLanes (hubEnd site e)
  let ori := if site = 62 then 0 else orientOf site
  (((List.range n).filter (fun i => (Config.fusedBad k site (nativeEdge ori e)).testBit i)).take 16).foldl
    (fun m i => m ||| 2 ^ (if laneReversed ori e then n - 1 - i else i)) 0

/-- One end of an edge after the start sequence (R262, R263). -/
def startEdge (h : Bool) (fused failed ck : Nat) (live : Bool) (old : Edge) (sealed : Nat) : Edge :=
  let ckMask := (List.range (physLanes h)).foldl (fun m i => if ck.testBit (laneGroup h i) then m else m ||| 2 ^ i) 0
  let bad := (fused ||| failed ||| ckMask) % 2 ^ physLanes h
  let m := bundleMode h bad ck
  let last : W32 := if bad = 0 then old.last
    else
      let lane := ((List.range (physLanes h)).filter (fun i => bad.testBit i)).foldl max 0
      let cause := if ckMask.testBit lane then 3 else if fused.testBit lane then 0 else 1
      mk32 (2 ^ 31 + cause * 2 ^ 28 + lane)
  { autoret := old.autoret, ferlim := old.ferlim, fercnt := old.fercnt, resend := old.resend, fbk := old.fbk, tried := sealed + 1,
    bad := bad, map := bad, ck := ck % 4, last := last,
    state := if live then m.1 else 1, half := live && m.2 }

/-- A clean test. -/
def cleanTest (e : Nat) : EdgeTest := { e := e, failed := 0, ck := 3, farFailed := 0, farCk := 3 }

/-- Both ends of an edge as the self-test leaves them (R262). -/
def Pkg.testEdge (g : Pkg) (k site e s f : Nat) (tests : List EdgeTest) (live : Bool) : Edge × Edge :=
  let t := (tests.find? (fun t => t.e == e)).getD (cleanTest e)
  let h := hubEnd site e
  (startEdge h (fusedMask k site e) t.failed t.ck live (g.edge site e) g.sealed,
   startEdge h (fusedMask k s f) t.farFailed t.farCk live (g.edge s f) g.sealed)

/-- The edges of a die train at its start (R262). -/
def Pkg.trainEdges (g : Pkg) (k site : Nat) (tests : List EdgeTest) : Pkg :=
  [0, 1, 2, 3, 4].foldl (fun g e =>
    match facing site e with
    | none => g
    | some (s, f) =>
      if s ≠ 62 ∧ g.hole s then g.onEdge site e (fun x => { x with state := 0 })
      else
        let live := g.netLive s
        let p := g.testEdge k site e s f tests live
        let g := g.setEdge site e p.1
        if !live then g
        else
          let g := g.setEdge s f p.2
          if p.1.state = 4 ∨ p.2.state = 4 then
            ((g.onEdge site e (fun x => { x with state := 4 })).onEdge s f (fun x => { x with state := 4 })).logAt 0x020D site 0xFF 0xFF e s 1
          else g) g

/-- The self-test of a die that has been reset leaves every edge able to run (R262, R263, R397): each toward a die that is no hole. -/
def Pkg.edgesAble (g : Pkg) (k site : Nat) (tests : List EdgeTest) : Bool :=
  [0, 1, 2, 3, 4].all (fun e => match facing site e with
    | none => true
    | some (s, f) =>
      let p := g.testEdge k site e s f tests true
      (decide (s ≠ 62) && g.hole s) || (p.1.up && p.2.up))

/-- Sites in service (R18). -/
def Pkg.activeSites (g : Pkg) : Nat := ((List.range 48).filter (fun s => g.siteSt s == .active)).length

/-- A die as it is before its start: its registers and stores of state at their reset values (R397); KPOOL without its share (R173). -/
def Pkg.dieClear (g : Pkg) (site : Nat) : Pkg :=
  { g with regs := g.regs.filter (fun p => p.1 / 0x100000 != site), thr := g.thr.filter (fun p => p.1 / 1024 != site),
           tok := g.tok.filter (fun p => p.1 / 4096 != site), acc := g.acc.filter (fun p => p.1 / 1024 != site),
           ctab := g.ctab.filter (fun p => p.1 / 64 != site), last := g.last.filter (fun p => p.1 / 64 != site),
           posts := g.posts.filter (fun p => p.site != site), busy := g.busy.filter (fun a => a / 0x100000 != site),
           net := { g.net with edges := g.net.edges.filter (fun p => p.1 / 8 != site), tab := g.net.tab.filter (fun p => p.1 / 64 != site),
                               tver := g.net.tver.filter (fun p => p.1 != site) } }.poolSet

/-! Frames -/

/-- Even parity of the 32 bits of each logical lane (R264), as the parity word. -/
def laneParity (ws : List Nat) : Nat := (ws.take 32).foldl (fun a w => a ^^^ w) 0

/-- The CRC of a frame (R264). -/
def frameCrc (ws : List Nat) : Nat :=
  crc32c ((ws.take 33).flatMap (fun w => leBytes w 32) ++ leBytes (ws.getD 33 0 / 2 ^ 32) 28)

/-- A field of the control word. -/
def ctlF (ws : List Nat) (hi lo : Nat) : Nat := ws.getD 33 0 / 2 ^ lo % 2 ^ (hi + 1 - lo)

/-- The 34 words of a frame (R264): the flits, empty ones zero, the lane parity, the control word with ACK and NAK for the other bundle. The layout of CREDIT is Config's (log 122). -/
def frameWords (r : SentFrm) (ack : Nat) (nak : Bool) : List Nat :=
  let body := (List.range 32).map (fun i => ((r.flits[i]?).map (·.body % 2 ^ 256)).getD 0)
  let c := r.n % 4096 * 2 ^ 32 + ack % 4096 * 2 ^ 44 + b2n nak * 2 ^ 56 + b2n r.mapu.isSome * 2 ^ 57 +
    Config.creditWord r.ret % 2 ^ 64 * 2 ^ 64 + r.mapu.getD 0 % 2 ^ 23 * 2 ^ 128
  let ws := body ++ [laneParity body]
  ws ++ [c + frameCrc (ws ++ [c])]

/-- Words with bits turned over. -/
def upsetWords (ws : List Nat) (bits : List Nat) : List Nat :=
  (List.range ws.length).map (fun i => (bits.filter (fun b => b / 256 == i)).foldl (fun w b => w ^^^ 2 ^ (b % 256)) (ws.getD i 0))

/-- The physical lane that carries a bit of a word (R261). -/
def physOf (h : Bool) (map bit : Nat) : Nat := (goodLanes h map).getD (bit % logLanes h) 0

/-- The sender takes an acknowledgement and a NAK (R265, R271); numbers are compared modulo 4,096, for at most 1,024 stand unacknowledged (log 123). -/
def Edge.acked (x : Edge) (ack : Nat) (nak : Bool) : Edge :=
  let left := x.retry.filter (fun r => !seqLe 4096 r.n ack)
  { x with retry := left,
           back := if nak then (left.find? (fun r => r.n % 4096 == (ack + 1) % 4096)).map (·.n)
                   else x.back.bind (fun b => if left.any (fun r => r.n == b) then some b else none) }

/-- Frame times in 1 ms, a frame being 34 UIs of 50 ps, or four times that at a hub port (R264, R268, R279). -/
def frameTimes (h : Bool) : Nat := if h then 147058 else 588235

/-- The parity checks of a frame (R268), `gap` clean frames after the one before: failures are kept by physical lane with their times; lanes with eight within any 1 ms are declared bad. -/
def Pkg.parityCheck (g : Pkg) (site e gap : Nat) (ws : List Nat) : Pkg :=
  let x := g.edge site e
  let h := hubEnd site e
  let now := x.now + 1 + gap
  let d := laneParity ws ^^^ ws.getD 32 0
  let bits := if d = 0 then [] else ((List.range 256).filter (fun i => d.testBit i)).map (fun i => physOf h x.map i)
  let lanes := bits.eraseDups.foldl (fun (m : Map (List Nat)) l =>
    mupd [] m l (fun ts => ((now :: ts).filter (fun t => decide (now ≤ t + frameTimes h))).take 8)) x.lanes
  let g := g.setEdge site e { x with lanes := lanes, now := now }
  g.declare' site e 2 (bits.eraseDups.filter (fun l => decide (8 ≤ (mget [] lanes l).length)))

/-- A CRC failure is counted, and a resend asked for; the limit of R267 triggers the fallback. -/
def Pkg.crcFail (g : Pkg) (site e : Nat) : Pkg :=
  let x := g.edge site e
  let g := g.setEdge site e { x with fails := x.fails + 1, nak := true, resend := if x.nak then x.resend else min 65535 (x.resend + 1) }
  if x.state = 2 ∧ x.ferlim ≠ 0 ∧ x.fails + 1 = x.ferlim then g.announce site e true 0 else g

/-- Both ends apply an announced map or enter the fallback (R267 to R269, R272). What the receiver has not taken is sent again as packets. -/
def Pkg.applySwitch (g : Pkg) (site e : Nat) : Pkg :=
  match facing site e, (g.edge site e).pend with
  | some (s, f), some (_, fb) =>
    let x := g.edge site e
    let y := g.edge s f
    if !fb then g.setEdge site e { x with pend := none, told := false, map := x.bad }
    else
      let half := decide ((goodLanes (hubEnd site e) x.bad).length < logLanes (hubEnd site e))
      let left := untaken x.next y.retry
      let g := g.setEdge site e { x with pend := none, told := false, map := x.bad, state := 3, half := half, fbk := min 65535 (x.fbk + 1),
                                         next := 0, nak := false, fails := 0, lanes := [], powed := 0, tried := g.sealed + 1 }
      let g := g.onEdge s f (fun y => { y with retry := [], sn := 0, back := none, credits := 1024, todo := regroup 2 (left ++ y.todo),
                                               ann := left.filterMap (·.mapu) ++ y.ann })
      g.logAt 0x0113 site 0xFF 0xFF e x.fercnt (b2n half)
  | _, _ => g

/-- An announced switch at its frame (R267, R268): applied where the sender knows of it, else announced anew (log 123). -/
def Pkg.switchStep (g : Pkg) (site e : Nat) : Pkg :=
  match facing site e, (g.edge site e).pend with
  | some (s, f), some (sw, fb) =>
    let x := g.edge site e
    if x.state ≠ 2 ∨ (g.edge s f).nextNo ≠ sw then g
    else if x.told then g.applySwitch site e
    else g.announce site e fb 0
  | _, _ => g

/-- D2D_MAP_SWITCH: the switch frame of an announced map has come (R268). -/
def Pkg.mapSwitch (g : Pkg) (site e : Nat) : Pkg := if (g.edge site e).told then g.switchStep site e else g

/-- The frame that the end of a bundle sends next (R265): one again after a NAK; else, with fewer than 256 unacknowledged, a new one with flits that wait, or that stand at the die and leave by this edge, the credits due and an announcement. -/
def Pkg.sendFrame (g : Pkg) (t f : Nat) : Option (SentFrm × Pkg) :=
  let y := g.edge t f
  match y.back.bind (fun b => y.retry.find? (fun r => r.n == b)) with
  | some r => some (r, g.setEdge t f { y with back := if (r.n + 1) % 4096 = y.sn then none else some ((r.n + 1) % 4096) })
  | none =>
    if 256 ≤ y.retry.length then none
    else
      let p : SentFrm × Pkg := match y.todo with
        | r :: rest => (r, g.setEdge t f { y with todo := rest })
        | [] =>
          let q := g.pick t (.edge f) 32 (fun _ _ => true)
          ({ flits := q.1 }, q.2.setEdge t f { y with tot := y.tot.send (q.1.map (·.ch)) })
      let due := y.tot.due (2 ^ 32)
      let r := { p.1 with n := y.sn, ret := p.1.ret ++ due, mapu := y.ann.head? }
      some (r, p.2.onEdge t f (fun y =>
        { y with retry := y.retry ++ [r], sn := (y.sn + 1) % 4096, back := none, ann := y.ann.tail, tot := y.tot.give due }))

/-- The acknowledgement that an end sends for the bundle it receives (R264, R270): the last number taken. -/
def Edge.ackNo (y : Edge) : Nat := if y.state = 3 then (y.next + 65535) % 65536 else (y.next + 4095) % 4096

/-- What a good frame or packet from the facing end tells the sender at this end: ACK, NAK and the packet credits returned (R263 to R265, R271). -/
def Pkg.ctlIn (g : Pkg) (site e t f ack : Nat) (nak : Bool) : Pkg :=
  let y := g.edge t f
  let back := if y.state = 3 then y.powed else 0
  (g.onEdge site e (fun x => let x := x.acked ack nak; { x with credits := min 1024 (x.credits + back) })).onEdge t f (fun y => { y with powed := y.powed - back })

/-- The facing end's announcements have all been carried over: the sender at this end knows the switch (R267). -/
def Pkg.toldBy (g : Pkg) (t f : Nat) : Pkg := g.onEdge t f (fun y => { y with told := y.pend.isSome && y.ann.isEmpty })

/-- The flits of a frame or packet are lost in the sender's retry buffer (R308): it goes on being sent, and they are not delivered. -/
def Pack.frmLost (s : Pack) (k t f : Nat) (r : SentFrm) : Pack :=
  (r.flits.foldl Pack.skipFlit s).on k (fun g => g.onEdge t f (fun y => { y with retry := y.retry.map (fun q => if q.n = r.n then r else q) }))

/-- Flits whose buffer failed are not delivered, the rest are (R266, R308). -/
def Pack.flitsTaken (s : Pack) (k site : Nat) (lost : Bool) (fs : List Flit) : Pack :=
  if lost then fs.foldl Pack.skipFlit s else s.on k (fun g => g.flitsIn site fs)

/-- The flits of a frame or packet with the bodies that have arrived. -/
def bodies (fs : List Flit) (b : Nat → Nat) : List Flit := (List.range fs.length).zip fs |>.map (fun p => { p.2 with body := b p.1 })

/-- A main-path frame is received (R264 to R268). `gap`: clean frames since the last; `new`: flits that the sending die has; `errs`: what the lanes turn over, as (UI, lane); `tx`, `rx`: how its retry and input buffers come out under their codes. A frame that the lanes leave alone passes its CRC. -/
def Pack.d2dFrame (s : Pack) (k site e gap : Nat) (new : List FlitReq) (errs : List (Nat × Nat)) (tx rx : Ecc) : Pack :=
  match facing site e with
  | none => s
  | some (t, f) =>
    if ((s.g k).edge site e).state ≠ 2 then s
    else
      let s := s.on k (fun g => (g.offer t new).switchStep site e)
      if ((s.g k).edge site e).state ≠ 2 then s
      else match (s.g k).sendFrame t f with
      | none => s
      | some (r, g) =>
        let s := (s.put k g).linkEcc k t tx
        let r := if tx = .ue then { r with bad := true } else r
        let s := if tx = .ue then s.frmLost k t f r else s
        let y := (s.g k).edge t f
        let x := (s.g k).edge site e
        let bits := x.wireBits (hubEnd site e) errs
        let ws := upsetWords (frameWords r y.ackNo y.nak) bits
        let s := s.on k (fun g => g.parityCheck site e gap ws)
        if ((s.g k).edge site e).state ≠ 2 then s
        else if !bits.isEmpty && frameCrc ws != ctlF ws 31 0 then s.on k (fun g => g.crcFail site e)
        else
          let s := s.on k (fun g => g.ctlIn site e t f (ctlF ws 55 44) (ctlF ws 56 56 == 1))
          if ctlF ws 43 32 ≠ x.next then s
          else
            let s := s.on k (fun g => (g.onEdge site e (fun x =>
              { x with next := (x.next + 1) % 4096, nak := false, tot := (x.tot.take (r.flits.map (·.ch))).credit r.ret })).toldBy t f)
            (s.linkEcc k site rx).flitsTaken k site (r.bad || rx == .ue) (bodies r.flits (fun i => ws.getD i 0))

/-- A 1 ms window ends (R267, R273). -/
def Pkg.d2dWindow (g : Pkg) (site e : Nat) : Pkg :=
  let x := g.edge site e
  if !x.up then g
  else
    let g := if x.state = 2 ∧ x.ferlim ≠ 0 ∧ x.ferlim ≤ x.fails ∧ !((x.pend.map (·.2)).getD false) then g.announce site e true 0 else g
    g.onEdge site e (fun y => { y with fercnt := min 65535 x.fails, fails := 0 })

/-! The fallback -/

/-- The data packet that the end of a bundle sends next (R271): one again after a NAK; else, with a credit and fewer than 1,024 unacknowledged, what waits, or flits that leave by this edge with the channel credits that travel inside them; none where there is nothing to send. -/
def Pkg.sendPacket (g : Pkg) (t f : Nat) : Option (SentFrm × Pkg) :=
  let y := g.edge t f
  match y.back.bind (fun b => y.retry.find? (fun r => r.n == b)) with
  | some r => some (r, g.setEdge t f { y with back := if (r.n + 1) % 65536 = y.sn then none else some ((r.n + 1) % 65536) })
  | none =>
    if y.credits = 0 ∨ 1024 ≤ y.retry.length then none
    else
      let p : SentFrm × Pkg := match y.todo with
        | r :: rest => (r, g.setEdge t f { y with todo := rest })
        | [] =>
          let q := g.pick t (.edge f) 2 (fun _ _ => true)
          ({ flits := q.1 }, q.2.setEdge t f { y with tot := y.tot.send (q.1.map (·.ch)) })
      let due := y.tot.due (2 ^ 32)
      let r := { p.1 with n := y.sn, ret := p.1.ret ++ due }
      if r.flits.isEmpty && r.ret.isEmpty then none
      else some (r, p.2.onEdge t f (fun y =>
        { y with retry := y.retry ++ [r], sn := (y.sn + 1) % 65536, back := none, credits := y.credits - 1, tot := y.tot.give due }))

/-- The 76 bytes of a packet (R270). A packet that is not data carries PSEQ 0 (log 123). -/
def packetBytes (r : SentFrm) (ty ack pcred : Nat) : List Byte :=
  let b := (List.range 2).flatMap (fun i => leBytes (((r.flits[i]?).map (·.body % 2 ^ 256)).getD 0) 32) ++
    leBytes r.n 2 ++ leBytes ack 2 ++ leBytes pcred 2 ++ leBytes ty 1 ++ [0]
  b ++ leBytes (crc32c b) 4

/-- Bytes with bits turned over. -/
def upsetBytes (bs : List Byte) (bits : List Nat) : List Byte :=
  (List.range bs.length).map (fun i => (bits.filter (fun b => b / 8 == i)).foldl (fun w b => w ^^^ BitVec.ofNat 8 (2 ^ (b % 8))) (bs.getD i 0))

/-- A fallback packet is received (R270, R271, R273). `ty`: the type the sender would send: NAK only while one stands, data only where it has some, else idle; the rest as for a frame. -/
def Pack.d2dPacket (s : Pack) (k site e ty : Nat) (new : List FlitReq) (errs : List (Nat × Nat)) (tx rx : Ecc) : Pack :=
  match facing site e with
  | none => s
  | some (t, f) =>
    if ((s.g k).edge site e).state ≠ 3 then s
    else
      let s := s.on k (fun g => g.offer t new)
      let y := (s.g k).edge t f
      let pcred := if y.state = 3 then y.powed else 0
      let idle (ty : Nat) : Nat × SentFrm × Pkg := (ty, { flits := [] }, s.g k)
      let p : Nat × SentFrm × Pkg :=
        if ty = 3 ∧ y.nak then idle 3
        else if ty ≠ 1 then idle 2
        else match (s.g k).sendPacket t f with
          | some (r, g) => (1, r, g)
          | none => idle 2
      let s := (s.put k p.2.2).linkEcc k t tx
      let r := if tx = .ue then { p.2.1 with bad := true } else p.2.1
      let s := if tx = .ue then s.frmLost k t f r else s
      let x := (s.g k).edge site e
      let bits := (x.wireBits (hubEnd site e) errs).filter (fun b => decide (b < 608))
      let ws := upsetBytes (packetBytes r p.1 y.ackNo (pcred % 65536)) bits
      let fl (lo n : Nat) : Nat := leVal ((ws.drop lo).take n)
      if !bits.isEmpty && crc32c (ws.take 72) != fl 72 4 then
        let s := s.on k (fun g => g.crcFail site e)
        if 4096 < x.fails + 1 then s.on k (fun g => g.edgeDown site e) else s
      else
        let s := s.on k (fun g => ((g.ctlIn site e t f (fl 66 2) (fl 70 1 == 3)).onEdge t f (fun y => { y with ann := [] })).toldBy t f)
        if fl 70 1 ≠ 1 ∨ fl 64 2 ≠ x.next then s
        else
          let s := s.on k (fun g => g.onEdge site e (fun x =>
            { x with next := (x.next + 1) % 65536, nak := false, powed := x.powed + 1, tot := (x.tot.take (r.flits.map (·.ch))).credit r.ret }))
          (s.linkEcc k site rx).flitsTaken k site (r.bad || rx == .ue) (bodies r.flits (fun i => fl (32 * i) 32))

/-- A bundle has received nothing good for 2 µs (R273, R275). -/
def Pkg.bundleTimeout (g : Pkg) (site e : Nat) : Pkg := if (g.edge site e).up then g.edgeDown site e else g

/-- A forwarded clock loses lock: its group's lanes become bad at once (R268). -/
def Pkg.clockLoss (g : Pkg) (site e grp : Nat) : Pkg :=
  let h := hubEnd site e
  let x := g.edge site e
  if !x.up ∨ !x.ck.testBit grp then g
  else
    let g := g.setEdge site e { x with ck := x.ck - 2 ^ grp }
    let lanes := (List.range (physLanes h)).filter (fun i => laneGroup h i == grp && !x.bad.testBit i)
    let y := g.edge site e
    let last := lanes.foldl max 0
    if lanes.isEmpty then g.laneSettle site e []
    else
      let g := g.setEdge site e { y with bad := lanes.foldl (fun m l => m ||| 2 ^ l) y.bad, last := mk32 (2 ^ 31 + 3 * 2 ^ 28 + last) }
      (g.logAt 0x0112 site 0xFF 0xFF e last 3).laneSettle site e [last]

/-- A write to an EBAD word (R268): each written 1 declares a lane. -/
def Pkg.ebadWrite (g : Pkg) (site e n : Nat) (v : W32) : Pkg :=
  g.declare' site e 4 (((List.range 32).filter (fun i => bit v i && decide (32 * n + i < 272))).map (fun i => 32 * n + i))

/-- An edge in the fallback retrains after a seal's apply (R274), once for a seal. `failed`: lanes that the test finds bad again, of those marked; `ok`: its clocks lock and the main path trains. One that fails goes on in the fallback with its map. -/
def Pkg.retrain (g : Pkg) (k site e failed : Nat) (ok : Bool) : Pkg :=
  let h := hubEnd site e
  let x := g.edge site e
  if x.state ≠ 3 ∨ !x.autoret ∨ x.tried = g.sealed + 1 ∨ (goodLanes h x.bad).length < logLanes h ∨ x.ck &&& allClocks h ≠ allClocks h then g
  else
    let bad := fusedMask k site e ||| (x.bad &&& failed)
    let g := g.setEdge site e { x with tried := g.sealed + 1 }
    match facing site e with
    | none => g
    | some (s, f) =>
      if !ok ∨ (goodLanes h bad).length < logLanes h then g
      else
        let g := g.onEdge site e (fun x => { x with state := 2, half := false, bad := bad, map := bad, next := 0, nak := false, fails := 0, lanes := [], powed := 0 })
        g.onEdge s f (fun y =>
          { y with retry := [], sn := 0, back := none, todo := regroup 32 (untaken x.next y.retry ++ y.todo), credits := 1024 })

/-- A write to a register of the D2D block (privileged, R380). -/
def Pkg.d2dWrite (g : Pkg) (site o : Nat) (v : W32) : Pkg :=
  let e := o / 0x40
  let r := o % 0x40
  if 4 ≤ e then g
  else if r = 0 then g.onEdge site e (fun x => { x with autoret := bit v 11 })
  else if r = 4 then g.onEdge site e (fun x => { x with ferlim := fld v 31 16 })
  else if r = 8 then g.onEdge site e (fun x => { x with resend := fld v 31 16, fbk := fld v 15 0 })
  else if 0xC ≤ r ∧ r < 0x30 then g.ebadWrite site e ((r - 0xC) / 4) v
  else if r = 0x30 ∧ bit v 31 then g.onEdge site e (fun x => { x with last := setB x.last 31 false })
  else g

/-- A register of the D2D block, read on package `k`. -/
def Pkg.d2dRead (g : Pkg) (k site o : Nat) : W32 :=
  let e := o / 0x40
  let r := o % 0x40
  let x := g.edge site e
  if e < 4 then
    if r = 0 then
      let good := (goodLanes false x.map).length
      mk32 (x.state * 2 ^ 29 + b2n x.half * 2 ^ 28 + x.ck * 2 ^ 26 +
        (if x.state = 0 then 0 else good * 2 ^ 17 + min 31 (good - 256) * 2 ^ 12) + b2n x.autoret * 2 ^ 11)
    else if r = 4 then mk32 (x.ferlim * 65536 + x.fercnt)
    else if r = 8 then mk32 (x.resend * 65536 + x.fbk)
    else if 0xC ≤ r ∧ r < 0x30 then
      mk32 ((if x.state = 0 then fusedMask k site e else x.bad) / 2 ^ (32 * ((r - 0xC) / 4)) % 2 ^ 32)
    else if r = 0x30 then x.last
    else 0
  else if o = 0x104 then mk32 (mget 0 g.net.tver site)
  else if 0x200 ≤ o ∧ o < 0x300 then mk32 (mget 7 g.net.tab (site * 64 + (o - 0x200) / 4))
  else 0

end Sys2Proof.Machine
end

