-- ==== Sys2Proof/Machine/PackOps.lean ====
section
/-! DEFINITION. Pack links and the pack: frames, beats, loss of ports and positions, assignment, succession, routes (R277 to R304, R320). -/

set_option linter.unusedVariables false

namespace Sys2Proof.Machine

/-- The field of the pack link code (R284). -/
def gfPack : GF := { w := 10, poly := 0x409 }

/-- What the decoder makes of a slot: its 825 bytes with the symbol errors and the corrections, and how many symbols it corrected; none where it is uncorrectable (R284). -/
def slotRead (sent : List Byte) (errs : List (Nat × Nat)) : Option (List Byte × Nat) :=
  (gfPack.decode 700 20 (errs.map (fun e => (699 - e.1, e.2 % 1024)))).bind (fun fix =>
    if 20 < fix.length then none
    else
      let ups := errs.map (fun e => (e.1, e.2 % 1024)) ++ fix.map (fun e => (699 - e.1, e.2))
      some (if ups.isEmpty then sent
        else leBytes ((ups.filter (fun e => decide (e.1 < 660))).foldl (fun v e => v ^^^ e.2 * 2 ^ (10 * e.1)) (leVal sent)) 825, fix.length))

/-- The symbol errors of a slot from errors on the lanes, as (physical lane, symbol of the lane, error): symbol i travels on logical lane i mod 4, the lanes in the order that training found (R282, R283). -/
def symErrs (rev : Bool) (errs : List (Nat × Nat × Nat)) : List (Nat × Nat) :=
  (errs.filter (fun e => decide (e.1 < 4 ∧ e.2.1 < 175))).map (fun e => (4 * e.2.1 + (if rev then 3 - e.1 else e.1), e.2.2))

/-- A slot: 821 bytes and their CRC (R284). -/
def slotOf (bs : List Byte) : List Byte :=
  let b := bs ++ List.replicate (821 - bs.length) 0
  b ++ leBytes (crc32c b) 4

/-- A data frame with flits, and an idle one (R285). -/
def dataSlot (r : SentFrm) (epoch : Nat) : List Byte :=
  let b := r.flits.flatMap (fun f => leBytes (f.body % 2 ^ 256) 32)
  slotOf (b ++ List.replicate (800 - b.length) 0 ++ leBytes r.n 2 ++ leBytes r.flits.length 1 ++ [1] ++ leBytes epoch 2)
def idleSlot (epoch : Nat) : List Byte := slotOf (List.replicate 803 0 ++ [2] ++ leBytes epoch 2)

/-- A control codeword (R286). -/
def ctlSlot (ack : Nat) (nak ackv : Bool) (epoch : Nat) (cr : List (Nat × Nat)) : List Byte :=
  slotOf (leBytes ack 2 ++ leBytes (b2n nak + 2 * b2n ackv) 1 ++ [0] ++ leBytes epoch 2 ++
    (List.range 32).flatMap (fun c => leBytes (mget 0 cr c) 2))

/-- The CRC of a slot is right (R284). -/
def slotOk (bs : List Byte) : Bool := bs.length == 825 && crc32c (bs.take 821) == leVal ((bs.drop 821).take 4)

/-- A field of a slot. -/
def slotF (bs : List Byte) (lo n : Nat) : Nat := leVal ((bs.drop lo).take n)

/-- The outcome of a codeword at a port: counted in PORT.FEC, and its bytes where the code and the CRC pass. -/
def Pkg.slot (g : Pkg) (n : Nat) (sent : List Byte) (errs : List (Nat × Nat)) : Option (List Byte) × Pkg :=
  match slotRead sent errs with
  | none => (none, g.wf (rPort n 0x10) 31 16 (min 65535 (g.rf (rPort n 0x10) 31 16 + 1)))
  | some (bs, c) =>
    let all := (g.link n).corr + c
    let g := (g.onLink n (fun x => { x with corr := all % 256 })).wf (rPort n 0x10) 15 0
      (min 65535 (g.rf (rPort n 0x10) 15 0 + all / 256))
    (if slotOk bs then some bs else none, g)

/-- The survivors that a member holds, and whether they are a sufficient part (R302). -/
def Pkg.sufficient (g : Pkg) : Bool :=
  let n := popcount g.mem
  let m := popcount (g.mem &&& (2 ^ 64 - 1 - g.pr.gone % 2 ^ 64))
  decide (n < 2 * m) || (decide (n = 2 * m) && !g.pr.gone.testBit (lowest g.mem))

/-- The leader's position as this package holds it. -/
def Pkg.lpos (g : Pkg) : Nat := g.rf rPackStat 15 10

/-- A member halts without a sufficient part (R302, R303). -/
def Pkg.partition (g : Pkg) : Pkg :=
  if g.phase = 4 ∧ g.cause = 0xA then g
  else
    let g := (((g.setPhase 4).setCause 0xA).wb rPackStat 4 true).logHub 0x0302 0xA g.step 0
    ({ g.failPkg with pr := { g.pr with commit := none, parked := false } }).fenceAll

/-- A member with the leader lost: the lowest survivor claims with a sufficient part; one without halts (R302). -/
def Pack.succeed (s : Pack) (k : Nat) : Pack :=
  let g := s.g k
  if !g.sufficient then s.on k Pkg.partition
  else if lowest (g.mem &&& (2 ^ 64 - 1 - g.pr.gone % 2 ^ 64)) = g.pos then
    let s := s.on k (fun g => (((g.wb rPackId 7 true).wf rPackStat 15 10 g.pos).send (.leadClaim g.pos g.epoch)))
    s.revertTo k false (s.sealTop k)
  else s

/-- A position is declared lost (R301): the leader raises a revert request, and its own loss calls a successor (R302, R343). -/
def Pack.declareLost (s : Pack) (k p : Nat) : Pack :=
  let g := s.g k
  if !g.assigned ∨ !g.mem.testBit p ∨ p = g.pos ∨ g.pr.gone.testBit p ∨ (g.phase = 4 ∧ g.cause = 0xA) then s
  else
    let s := s.on k (fun g => { g with pr := { g.pr with gone := g.pr.gone ||| 2 ^ p } })
    let g := s.g k
    if g.leads then
      (if !g.sufficient then s.on k Pkg.partition
       else if g.ld.reverting.isEmpty then s.revertRequest k false
       else s.restartRevert k)
    else if g.pr.gone.testBit g.lpos then s.succeed k
    else s

/-- A PORT_DOWN message (R301): it goes on to every member, and lowers LINKS of both its ends; a pair already seen changes nothing. -/
def Pack.takePortDown (s : Pack) (k pos port farPos farPort : Nat) : Pack :=
  let a := (pos, port)
  let b := (farPos, farPort)
  let g := s.g k
  if g.pr.downs.any (fun d => (d.1 == a && d.2 == b) || (d.1 == b && d.2 == a)) ∨ !g.assigned then s
  else
    let links := mins (mins g.pr.links pos (mget 0 g.pr.links pos - 1)) farPos
      (if farPos = pos then mget 0 g.pr.links pos - 1 else mget 0 g.pr.links farPos - 1)
    let s := s.on k (fun g => ({ g with pr := { g.pr with downs := (a, b) :: g.pr.downs, links := links } }).send (.portDown pos port farPos farPort))
    let s := if mget 0 links pos = 0 then s.declareLost k pos else s
    if mget 0 links farPos = 0 then s.declareLost k farPos else s

/-- The far end of a port as its last beat named it: the position, 0x3F where the partner has none or no beat has come (log 124). -/
def Pkg.farEnd (g : Pkg) (n : Nat) : Nat × Nat :=
  (if g.rb (rPort n 4) 31 && g.rb (rPort n 4) 30 then g.rf (rPort n 4) 18 13 else 0x3F, g.rf (rPort n 4) 23 19)

/-- A port is declared DOWN, or is isolated (R292): transfers stop, 16 superframes of DOWN beats follow unless the Husk holds the lanes (R405), buffers and credits are cleared, PACK_PORT_DOWN is logged, PORT_DOWN sent and taken. -/
def Pack.portDown (s : Pack) (k n : Nat) (beats : Bool := true) : Pack :=
  let g := s.g k
  let st := g.portState n
  if st ≠ 1 ∧ st ≠ 2 ∧ st ≠ 3 then s
  else
    let far := g.farEnd n
    let s := s.on k (fun g => (((g.linkClear n).onLink n (fun x => { x with dwn := if beats then 16 else 0 })).wf (rPort n 0) 30 28 4).logAt 0x0210
      (portSites.getD (n / 4) 0) 0xFF 0xFF n far.1 far.2)
    if g.assigned then s.takePortDown k g.pos n far.1 far.2 else s

/-- A position conflict (R296). -/
def Pkg.posConflict (g : Pkg) (p serial : Nat) : Pkg :=
  ((g.fenceAll).wb rPackStat 2 true).logHub 0x0212 p (serial % 2 ^ 32) (serial / 2 ^ 32)

/-- A leader conflict: the ports to that package are fenced (R298). -/
def Pkg.leadConflict (g : Pkg) (n serial : Nat) : Pkg :=
  let g := (List.range 32).foldl (fun g i => if g.rd64 (rPort i 8) (rPort i 0xC) = serial then g.fencePort i else g) g
  (g.wb rPackStat 3 true).logHub 0x0213 n (serial % 2 ^ 32) (serial / 2 ^ 32)

/-- EXTEST, EXTEST_PULSE or EXTEST_TRAIN is in effect (R442). -/
def Pkg.extest (g : Pkg) : Bool := g.hk.state == 2 && (g.hk.tapIr == 3 || g.hk.tapIr == 4 || g.hk.tapIr == 5)

/-- The package is powered and out of reset: P0 or P1 (R394). -/
def Pkg.powered (g : Pkg) : Bool := g.hk.vaon && g.hk.state == 2 && !g.hk.rst

/-- The lanes of a port are driven: its die runs, and neither the Husk nor the TAP holds them (R304, R390, R405, R442). -/
def Pkg.portLive (g : Pkg) (n : Nat) : Bool :=
  g.powered && (g.dieLive (portSites.getD (n / 4) 0) || (g.hk.failed && !g.hole (portSites.getD (n / 4) 0))) &&
    !bit (g.rd (hubR 0x15008)) n && !g.extest

/-- A port sends beats (R290, R292, R304): until it is DOWN, and then the DOWN beats of R292. -/
def Pkg.beats (g : Pkg) (n : Nat) : Bool := g.portLive n && ((g.portState n != 0 && g.portState n != 4) || decide (0 < (g.link n).dwn))

/-- The beat that a port sends (R290): DOWN, ASSIGNED, LEADER, HOLD in P1, NOSEAL, FENCE while the port is FENCED. -/
def Pkg.beatSlot (g : Pkg) (k m : Nat) : List Byte :=
  let x := g.link m
  let fl := b2n (g.portState m == 4) + 2 * b2n g.assigned + 4 * b2n g.leads + 8 * b2n (g.phase == 3 || g.phase == 4) +
    16 * b2n (g.rb rPackStat 1) + 32 * b2n (g.portState m == 3)
  slotOf (leBytes 0xB3A7 2 ++ leBytes fl 1 ++ leBytes (m % 32) 1 ++ leBytes g.pos 1 ++ leBytes g.lpos 1 ++ leBytes g.epoch 2 ++
    leBytes g.sealed 4 ++ leBytes x.bseq 4 ++ leBytes (serialOf k) 8 ++ leBytes x.rxseq 4)

/-- What a valid beat's flags and fields ask of a port (R290 to R293, R296, R298). -/
def Pack.beatTaken (s : Pack) (k n j : Nat) (bs : List Byte) : Pack :=
  let fl := slotF bs 2 1
  let serial := slotF bs 16 8
  let g := s.g k
  if fl.testBit 0 then s.portDown k n
  else
    let pos := g.assigned && fl.testBit 1 && slotF bs 4 1 % 64 == g.pos && serial != serialOf k
    let lead := g.leads && fl.testBit 2 && serial != serialOf k
    let s := if pos && !g.rb rPackStat 2 then s.on k (fun g => g.posConflict g.pos serial) else s
    let s := if lead && !g.rb rPackStat 3 then s.on k (fun g => g.leadConflict n serial) else s
    if pos || lead then s
    else if g.portState n = 2 ∧ (slotF bs 6 2 ≠ g.epoch ∨ fl.testBit 5) then s.on k (fun g => g.fencePort n)
    else if g.portState n = 3 then s.raiseOff k n
    else s

/-- A beat is received on a port in slot 0 of a superframe (R283, R290 to R293, R296, R298): port `m` of package `j`, at the other end of the cable, builds it from its own state. `errs`: what the lanes do to it. -/
def Pack.beat (s : Pack) (k n j m : Nat) (errs : List (Nat × Nat × Nat)) : Pack :=
  let g := s.g k
  if (g.link n).peer ≠ some (j, m) then s
  else
    if g.portState n = 0 ∨ g.portState n = 4 ∨ !g.portLive n ∨ !(s.g j).beats m then s
    else
      let sent := (s.g j).beatSlot j m
      let s := s.on j (fun h => h.onLink m (fun y => { y with bseq := (y.bseq + 1) % 2 ^ 32, dwn := y.dwn - 1 }))
      let r := (s.g k).slot n sent (symErrs (g.link n).rev errs)
      let s := s.put k r.2
      match r.1 with
      | none => s
      | some bs =>
        if slotF bs 0 2 ≠ 0xB3A7 then s
        else
          let fl := slotF bs 2 1
          let s := s.on k (fun g =>
            let g := g.wr (rPort n 4) (mk32 (2 ^ 31 + at' (b2n (fl.testBit 1)) 30 + slotF bs 3 1 % 32 * 2 ^ 19 + slotF bs 4 1 % 64 * 2 ^ 13))
            let g := g.wr64 (rPort n 8) (rPort n 0xC) (slotF bs 16 8)
            let g := g.wr (rPort n 0x18) (mk32 (slotF bs 12 4 % 2 ^ 28 * 16))
            g.onLink n (fun x => { x with beat := bs.take 28, rxseq := slotF bs 12 4 }))
          s.beatTaken k n j bs

/-- A window ends without a valid beat; at eight the port is DOWN (R291). -/
def Pack.beatMiss (s : Pack) (k n : Nat) : Pack :=
  let g := s.g k
  if g.portState n ≠ 2 ∧ g.portState n ≠ 3 then s
  else
    let m := g.rf (rPort n 0x18) 3 0 + 1
    let s := s.on k (fun g => g.wf (rPort n 0x18) 3 0 (min m 8))
    if 8 ≤ m then s.portDown k n else s

/-- The data frame that a port sends next (R285, R287, R288): one again after a NAK, counted in RESEND; else, with fewer than 512 unacknowledged, up to 25 flits that stand at its die and leave by the port, each with a credit of its class; none: an idle frame. -/
def Pkg.sendData (g : Pkg) (m : Nat) : Option SentFrm × Pkg :=
  let y := g.link m
  match y.back.bind (fun b => y.retry.find? (fun r => r.n == b)) with
  | some r =>
    (some r, (g.wf (rPort m 0x14) 31 16 (min 65535 (g.rf (rPort m 0x14) 31 16 + 1))).onLink m (fun y =>
      { y with back := if (r.n + 1) % 65536 = y.sn then none else some ((r.n + 1) % 65536) }))
  | none =>
    if 512 ≤ y.retry.length then (none, g)
    else
      let q := g.pick (portSites.getD (m / 4) 0) (.port m) 25 (fun before f =>
        decide ((before.filter (fun x => flitCls x == flitCls f)).length < mget 0 y.credits (flitCls f)))
      if q.1.isEmpty then (none, g)
      else
        let r : SentFrm := { n := y.sn, flits := q.1 }
        (some r, q.2.onLink m (fun y =>
          { y with retry := y.retry ++ [r], sn := (y.sn + 1) % 65536, back := none, tot := y.tot.send (q.1.map flitCls),
                   credits := q.1.foldl (fun (c : Map Nat) f => mupd 0 c (flitCls f) (· - 1)) y.credits }))

/-- Flits that a port has brought (R294, R295): delivered, or sent on in the next hop class; one that would need a ninth class is discarded with PACK_HOPS. -/
def Pack.flitsPort (s : Pack) (k n : Nat) (fs : List Flit) : Pack :=
  let d := portSites.getD (n / 4) 0
  let far := fs.filter (fun f => f.dp != (s.g k).pos && decide (7 ≤ f.hop))
  let s := s.on k (fun g => g.flitsIn d ((fs.filter (fun f => !(f.dp != g.pos && decide (7 ≤ f.hop)))).map (fun f => { f with hop := f.hop + 1 })))
  far.foldl (fun s f => (s.on k (fun g => g.logAt 0x0211 d 0xFF 0xFF f.dp f.ss 0)).skipFlit f) s

/-- A frame is discarded and asked for again (R287). -/
def Pkg.frameBad (g : Pkg) (n : Nat) : Pkg := g.onLink n (fun x => { x with nak := true })

/-- The flits of a data frame are lost in the sender's retry buffer (R308). -/
def Pack.portFrmLost (s : Pack) (j m : Nat) (r : SentFrm) : Pack :=
  (r.flits.foldl Pack.skipFlit s).on j (fun h => h.onLink m (fun y => { y with retry := y.retry.map (fun q => if q.n = r.n then r else q) }))

/-- What a data frame that has passed its code does at its receiver (R285, R287, R299). -/
def Pack.dataTaken (s : Pack) (k n : Nat) (r : SentFrm) (bs : List Byte) (rx : Ecc) : Pack :=
  let ty := slotF bs 803 1
  if (ty ≠ 1 ∧ ty ≠ 2) ∨ slotF bs 806 15 ≠ 0 then s.on k (fun g => g.frameBad n)
  else if slotF bs 804 2 ≠ (s.g k).epoch then s.on k (fun g => g.stale.fencePort n)
  else if ty = 2 ∨ slotF bs 800 2 ≠ ((s.g k).link n).next then s
  else
    let s := s.on k (fun g => g.onLink n (fun x =>
      { x with next := (x.next + 1) % 65536, seen := true, nak := false, tot := x.tot.take (r.flits.map flitCls) }))
    let s := s.linkEcc k (portSites.getD (n / 4) 0) rx
    let fs := bodies r.flits (fun i => slotF bs (32 * i) 32)
    if r.bad || rx == .ue then fs.foldl Pack.skipFlit s else s.flitsPort k n fs

/-- A data frame is received (R283 to R285, R287 to R289). `slot`: its slot of the superframe; `new`: flits that the sending die has; `errs`: what the lanes do; `tx`, `rx`: how its retry and input buffers come out under their codes. -/
def Pack.dataFrame (s : Pack) (k n slot : Nat) (new : List FlitReq) (errs : List (Nat × Nat × Nat)) (tx rx : Ecc) : Pack :=
  let g := s.g k
  match (g.link n).peer with
  | none => s
  | some (j, m) =>
    if slot = 0 ∨ slot = 1 ∨ slot = 65 ∨ 128 ≤ slot ∨ g.portState n ≠ 2 ∨ !g.portLive n ∨ !(s.g j).portLive m ∨ (s.g j).hk.failed ∨ (s.g j).portState m ≠ 2 then s
    else
      let d := portSites.getD (m / 4) 0
      let s := s.on j (fun h => h.offer d new)
      let p := (s.g j).sendData m
      let s := (s.put j p.2).linkEcc j d tx
      let r : SentFrm := (p.1.map (fun r => if tx = .ue then { r with bad := true } else r)).getD { flits := [] }
      let s := if tx = .ue then s.portFrmLost j m r else s
      let sent := if p.1.isSome then dataSlot r (s.g j).epoch else idleSlot (s.g j).epoch
      let c := (s.g k).slot n sent (symErrs (g.link n).rev errs)
      let s := s.put k c.2
      match c.1 with
      | none => s.on k (fun g => g.frameBad n)
      | some bs => s.dataTaken k n r bs rx

/-- A control codeword is received in slot 1 or 65 (R283, R286 to R288): the other end acknowledges, asks again and returns the credits it owes. One that is lost returns none (log 125). -/
def Pack.controlWord (s : Pack) (k n slot : Nat) (errs : List (Nat × Nat × Nat)) : Pack :=
  let g := s.g k
  match (g.link n).peer with
  | none => s
  | some (j, m) =>
    if (slot ≠ 1 ∧ slot ≠ 65) ∨ g.portState n ≠ 2 ∨ !g.portLive n ∨ !(s.g j).portLive m ∨ (s.g j).hk.failed ∨ (s.g j).portState m ≠ 2 then s
    else
      let y := (s.g j).link m
      let cr := y.tot.due 65535
      let sent := ctlSlot ((y.next + 65535) % 65536) y.nak y.seen (s.g j).epoch cr
      let s := if y.nak then s.on j (fun h => h.wf (rPort m 0x14) 15 0 (min 65535 (h.rf (rPort m 0x14) 15 0 + 1))) else s
      let c := (s.g k).slot n sent (symErrs (g.link n).rev errs)
      let s := s.put k c.2
      match c.1 with
      | none => s
      | some bs =>
        if slotF bs 4 2 ≠ (s.g k).epoch then s.on k (fun g => g.stale.fencePort n)
        else
          let ack := slotF bs 0 2
          let fl := slotF bs 2 1
          let got := ((List.range 32).map (fun c => (c, slotF bs (6 + 2 * c) 2))).filter (fun p => decide (0 < p.2))
          let s := s.on j (fun h => h.onLink m (fun y => { y with tot := y.tot.give cr }))
          s.on k (fun g => g.onLink n (fun x =>
            let left := if fl.testBit 1 then x.retry.filter (fun r => !seqLe 65536 r.n ack) else x.retry
            { x with retry := left, tot := x.tot.credit got,
                     back := if fl.testBit 0 then (left.head?).map (·.n) else x.back.bind (fun b => if left.any (fun r => r.n == b) then some b else none),
                     credits := got.foldl (fun (q : Map Nat) p => mins q p.1 (min 2048 (mget 0 q p.1 + p.2))) x.credits }))

/-- A port trains with its partner and enters FENCED (R282, R293, R304). `peer`: the package and port that the cable leads to; `rev`, `pol`: the lane order and the inverted lanes that the receiver finds in the training pattern, and corrects. A partner that is absent, unpowered, isolated or still sending DOWN beats lets no training complete. -/
def Pack.portTrain (s : Pack) (k n : Nat) (peer : Nat × Nat) (rev : Bool) (pol : Nat) : Pack :=
  let g := s.g k
  let h := s.g peer.1
  if peer.1 = k ∨ !g.portLive n ∨ (g.portState n ≠ 1 ∧ g.portState n ≠ 4) ∨ g.rb (rPort n 0) 27 ∨ 0 < (g.link n).dwn ∨
      !h.portLive peer.2 ∨ h.portState peer.2 = 0 ∨ h.rb (rPort peer.2 0) 27 ∨ 0 < (h.link peer.2).dwn then s
  else
    let s := s.on k (fun g =>
      let g := ((g.wf (rPort n 0) 30 28 3).wr (rPort n 4) 0).wf (rPort n 0x18) 3 0 0
      g.onLink n (fun x => { peer := some peer, rev := rev, pol := pol % 16, bseq := x.bseq }))
    s.raiseOff k n

/-- A write to a register of a port. ISOLATE forces it DOWN and holds it there (R292). -/
def Pack.portWrite (s : Pack) (k n o : Nat) (priv : Bool) (v : W32) : Pack :=
  if o = 0 then
    if !priv then s
    else
      let s := s.on k (fun g => g.wb (rPort n 0) 27 (bit v 27))
      if bit v 27 then s.portDown k n else s
  else if o = 0x10 ∨ o = 0x14 then s.on k (fun g => g.wr (rPort n o) v)
  else s

/-- A write of PACK.STAT.REQ at the leader sends ASSIGN to the assigned package that sends it on (R296). -/
def Pkg.assignReq (g : Pkg) : Pkg :=
  if g.leads then
    g.send (.assign (g.rf (hubR 0x7020) 5 0) (g.rd64 (hubR 0x7024) (hubR 0x7028)) (g.rf (hubR 0x7020) 24 19) (g.rf (hubR 0x7020) 18 14))
  else g

/-- A package receives ASSIGN for a position (R296): with that position in use at a neighbour it conflicts. -/
def Pkg.takeAssign (g : Pkg) (k p : Nat) : Pkg :=
  let g := g.wr rPackId (setF (setB (g.rd rPackId) 6 true) 5 0 p)
  match (List.range 32).find? (fun n => g.rb (rPort n 4) 31 && g.rb (rPort n 4) 30 && g.rf (rPort n 4) 18 13 == p &&
      g.rd64 (rPort n 8) (rPort n 0xC) != serialOf k) with
  | some n => g.posConflict p (g.rd64 (rPort n 8) (rPort n 0xC))
  | none => g

/-- An ASSIGN comes in at port `n` as a link-local message (R293, R296): the leader of the pack on the other side has sent it, naming the package there and its port. It is taken by a package that has no position, whose serial number it names, for a position that is not in that pack's membership (log 126). -/
def Pack.takeAssign (s : Pack) (k n p serial : Nat) : Pack :=
  let g := s.g k
  match (g.link n).peer with
  | none => s
  | some (j, m) =>
    let h := s.g j
    let asked := h.assigned && s.pkgs.any (fun x => x.2.leads && x.2.mem == h.mem && x.2.sent.contains (.assign p serial h.pos m))
    if !asked ∨ (g.portState n ≠ 2 ∧ g.portState n ≠ 3) ∨ (h.portState m ≠ 2 ∧ h.portState m ≠ 3) ∨
        g.assigned ∨ serial ≠ serialOf k ∨ h.mem.testBit p then s
    else s.on k (fun g => g.takeAssign k p)

/-- A write to MEMNEXT at the leader (R299, R353): MEMBER goes out at the next seal, or at once while the pack is HELD or every member is OFF. -/
def Pack.memNext (s : Pack) (k : Nat) (hi : Bool) (v : W32) : Pack :=
  let s := s.on k (fun g => g.wr (if hi then hubR 0x7014 else hubR 0x7010) v)
  if !(s.g k).leads then s
  else
    let s := s.on k (fun g => { g with pr := { g.pr with memPend := true } })
    if hi && ((s.g k).phase == 3 || (s.members k).all (fun j => (s.g j).mode == 0)) then s.sendMember k else s

/-- A package receives MEMBER (R299): applied, its ports raised or fenced. -/
def Pack.takeMember (s : Pack) (k : Nat) (m : MemberMsg) : Pack :=
  let s := s.on k (fun g => g.takeMember m)
  s.raiseAllOff k

/-- A LEAD_CLAIM (R298, R302): accepted where every lower member is held lost; one that reaches another leader is a leader conflict. -/
def Pkg.leadClaim (g : Pkg) (p epoch : Nat) : Pkg :=
  if epoch ≠ g.epoch then g.stale
  else if g.leads ∧ p ≠ g.pos ∧ !(g.phase = 4 ∧ g.cause = 0xA) then
    (match (List.range 32).find? (fun n => g.rb (rPort n 4) 31 && g.rb (rPort n 4) 30 && g.rf (rPort n 4) 18 13 == p) with
     | some n => g.leadConflict n (g.rd64 (rPort n 8) (rPort n 0xC))
     | none => (g.wb rPackStat 3 true).logHub 0x0213 0 0 0)
  else if !g.assigned ∨ !g.mem.testBit p ∨ (g.phase = 4 ∧ g.cause = 0xA) ∨
      (positions g.mem).any (fun q => decide (q < p) && !g.pr.gone.testBit q) then g
  else g.wf rPackStat 15 10 p

/-- 20 µs after the leader's loss without a claim (R302). -/
def Pkg.partitionTimeout (g : Pkg) : Pkg := if g.assigned ∧ g.pr.gone.testBit g.lpos then g.partition else g

/-- A SerDes die that hears nothing from its hub sends DOWN beats on its ports (R301), whose partners then declare them DOWN. -/
def Pkg.hubSilence (g : Pkg) (site : Nat) : Pkg :=
  match portSites.findIdx? (· == site) with
  | none => g
  | some i => if g.hole site then g
    else (List.range 4).foldl (fun g j =>
      let n := 4 * i + j
      if g.portState n = 2 ∨ g.portState n = 3 then
        ((g.linkClear n).onLink n (fun x => { x with dwn := 16 })).wf (rPort n 0) 30 28 4
      else g) g

/-- Everything that an end has sent before its audit marker has been taken: frames from the receiver's next number on are still outstanding. -/
def allTaken (modulus next : Nat) (l : List SentFrm) : Bool := l.all (fun r => !seqLe modulus next r.n)

/-- The audit marker of the last seal from the other end of a link is received, behind all that was sent before it, and checked against this end's counts (R320, R321, log 128). `far`: the end of package `j` that sends it. -/
def Pack.auditMarker (s : Pack) (k : Nat) (l : LinkEnd) (j : Nat) (far : LinkEnd) : Pack :=
  let g := s.g k
  match l, far with
  | .port n, .port m =>
    if (g.link n).peer ≠ some (j, m) then s
    else
      let y := (s.g j).link m
      if g.portState n = 2 ∧ y.tot.mark ∧ allTaken 65536 (g.link n).next y.retry then
        (s.on j (fun h => h.onLink m (fun y => { y with tot := { y.tot with mark := false } }))).on k (fun g =>
          if (g.link n).tot.audit y.tot then g else g.mismatch 0x80 g.sealed)
      else s
  | .edge a e, .edge t f =>
    if j ≠ k ∨ facing a e ≠ some (t, f) then s
    else
      let y := g.edge t f
      if g.edgeUp a e ∧ y.tot.mark ∧ allTaken (if (g.edge a e).state = 3 then 65536 else 4096) (g.edge a e).next y.retry ∧ y.todo.isEmpty then
        s.on k (fun g =>
          let g := g.onEdge t f (fun y => { y with tot := { y.tot with mark := false } })
          if (g.edge a e).tot.audit y.tot then g else g.mismatch 0x40 g.sealed)
      else s
  | _, _ => s

/-- A write to PACK.STAT: W1C fields, then REQ (R296, R298, R299). -/
def Pkg.packStat (g : Pkg) (v : W32) : Pkg :=
  let w := g.rd rPackStat
  let w := setF w 31 16 (fld w 31 16 &&& (0xFFFF - fld v 31 16))
  g.wr rPackStat (setF w 4 2 (fld w 4 2 &&& (7 - fld v 4 2)))

/-! Routing over the dies (R277, R278) -/

/-- The die-to-die neighbours of a die over up edges, with their port codes 1 N to 4 W. -/
def Pkg.nbrs (g : Pkg) (s : Nat) : List (Nat × Nat) :=
  (List.range 4).filterMap (fun e => match facing s e with
    | some (t, _) => if g.edgeUp s e && !g.hole s && !g.hole t then some (e + 1, t) else none
    | none => none)

/-- Distances in crossings from a die. -/
def Pkg.distFrom (g : Pkg) (d : Nat) : List (Nat × Nat) := if g.hole d then [] else bfs (fun s => (g.nbrs s).map (·.2)) 48 [(d, 0)]

/-- A distance in a list of them. -/
def distOf (l : List (Nat × Nat)) (s : Nat) : Option Nat := (l.find? (fun p => p.1 == s)).map (·.2)

/-- The order in which ports are tried from a die towards a column (R277). -/
def portOrder (s d : Nat) : List Nat :=
  if s % 12 < d % 12 then [2, 1, 3, 4] else if d % 12 < s % 12 then [4, 1, 3, 2] else [1, 3, 2, 4]

/-- The next hop from `s` to die `d` with distances `l` to it: port and crossings. -/
def Pkg.hop (g : Pkg) (l : List (Nat × Nat)) (s d : Nat) : Option (Nat × Nat) :=
  match distOf l s with
  | none => none
  | some 0 => some (0, 0)
  | some n => ((portOrder s d).find? (fun p => (g.nbrs s).any (fun x => x.1 == p && distOf l x.2 == some (n - 1)))).map (fun p => (p, n))

/-- The nearest of two dies, the lower on a tie, with how `s` reaches it. -/
def nearest (a b : Option (Nat × Nat)) : Option (Nat × Nat) :=
  match a, b with
  | some x, some y => if y.2 < x.2 then some y else some x
  | some x, none => some x
  | none, y => y

/-- A table entry (R277) from a port and crossings. -/
def rtWord (x : Option (Nat × Nat)) (atEnd : Nat) : Nat :=
  match x with
  | some (0, _) => atEnd
  | some (p, n) => n * 256 + p
  | none => 7

/-- Entry `d` of die `s`'s table, from the distances to every die. -/
def Pkg.rtEntry (g : Pkg) (ds : List (List (Nat × Nat))) (s d : Nat) : Nat :=
  let way (x : Nat) : Option (Nat × Nat) := g.hop (ds.getD x []) s x
  if d < 48 then rtWord (way d) 0
  else if d < 60 then
    let j := d - 48
    let via (i : Nat) : Option (Nat × Nat) := if g.stackPort j i then way ((attached j).getD i 0) else none
    rtWord (nearest (via 0) (via 1)) 5
  else if d = 62 then
    let via (x : Nat) : Option (Nat × Nat) := if g.edgeUp x 4 then way x else none
    rtWord (nearest (via 41) (via 42)) 6
  else 7

/-- A die can be reached from the hub. -/
def Pkg.reached (g : Pkg) (s : Nat) : Bool :=
  (List.any [41, 42] fun x => g.edgeUp x 4 && (distOf (g.distFrom x) s).isSome)

/-- A die's work in flight ends with it: its threads stop and nothing of it is executed any more. -/
def Pkg.dieDrop (g : Pkg) (site : Nat) : Pkg :=
  { g with thr := mmap (fun key th => if key / 1024 == site then { th with st := .idle, wait := none } else th) g.thr,
           loads := g.loads.filter (fun x => x.t.site != site), stores := g.stores.filter (fun x => x.t.site != site),
           aops := g.aops.filter (fun x => x.t.site != site), eops := g.eops.filter (fun x => x.t.site != site),
           qops := g.qops.filter (fun x => x.r.t.site != site && x.site != site), started := mins g.started site false }

/-- Budget offered to a die that failed before answering goes back to its giver, and its messages are lost (R280). -/
def Pkg.offersBack (g : Pkg) (site : Nat) : Pkg :=
  let back := g.pw.offers.filter (fun o => o.1 == site)
  let g := { g with pw := { g.pw with msgs := g.pw.msgs.filter (fun m => m.src != site && m.dst != site),
                                      offers := g.pw.offers.filter (fun o => o.1 != site),
                                      pool := back.foldl (fun (n : Nat) (o : Nat × Nat × Nat) => n + o.2.2) g.pw.pool } }
  g.pw.gov.foldl (fun (g : Pkg) (p : Nat × Gov) => match p.2.offer with
    | some o => if o.1 = site then
        let a := rk p.1 0x4000
        { (g.wf a 31 16 (g.rf a 31 16 + o.2.2)) with pw := { g.pw with gov := mins g.pw.gov p.1 { p.2 with offer := none } } }
      else g
    | none => g) g

/-- A die is out of the package (R13, R16, R17, R252, R276): its ports and stack ports are lost, every edge that faces it is off with what its neighbour had not had acknowledged back in the network, and flits that stand at it are lost. With both hub-port dies out the package has failed. -/
def Pack.siteLost (s : Pack) (k site : Nat) (x : SiteSt) : Pack :=
  let s := (List.range 32).foldl (fun s n => if portSites.getD (n / 4) 99 = site then s.portDown k n else s) s
  let gone := ((s.g k).net.hold.filter (fun p => p.1 == site)).map (·.2)
  let s := s.on k (fun g =>
    let g := { g with sites := mins g.sites site x }
    let g := [0, 1, 2, 3, 4].foldl (fun g e => match facing site e with
      | some (t, f) => (g.endOff t f 0).onEdge site e (fun x => { x with state := 0, retry := [], pend := none, told := false, ann := [], back := none, todo := [] })
      | none => g) g
    { g with net := { g.net with hold := g.net.hold.filter (fun p => p.1 != site) } })
  let s := gone.foldl Pack.skipFlit s
  let s := (List.range 12).foldl (fun s j => match (attached j).findIdx? (· == site) with
    | some i => s.stackPortDown k j i
    | none => s) s
  if (site = 41 ∨ site = 42) ∧ (s.g k).hole 41 ∧ (s.g k).hole 42 then s.on k Pkg.failPkg else s

/-- The hub declares an ACTIVE die failed (R252, R276): a hole, its edges off, its ports and stack ports lost, what it held lost, a revert asked for. -/
def Pack.dieFailed (s : Pack) (k site reason : Nat) : Pack :=
  if 48 ≤ site ∨ (s.g k).siteSt site ≠ .active then s
  else
    let s := s.on k (fun g => (g.dieDrop site).offersBack site)
    (s.siteLost k site .failed).on k (fun g =>
      (({ g with pr := { g.pr with bad := true } }).logHub 0x020E site reason 0).send (.revertReq g.pos 0x020E))

/-- A die starts (R17, R19, R262): straps checked, edges trained. A strap fault makes the site a hole, as a failed die. A spare starts only to take the place of a failed die, while the pack is held. Straps that name another site with its own orientation are no fault by R17 (log 127). -/
def Pack.dieStart (s : Pack) (k site strapSite strapOri : Nat) (tests : List EdgeTest) : Pack :=
  let g := s.g k
  let st := g.siteSt site
  if 48 ≤ site ∨ st = SiteSt.off ∨ st = SiteSt.failed ∨ (st = SiteSt.active ∧ mget false g.started site) then s
  else if st = SiteSt.spare ∧ !(decide (g.activeSites < 44) && g.phase == 3) then s
  else
    let s := s.on k (fun g => { g with straps := mins g.straps site (strapSite % 64, strapOri % 8) })
    if 47 < strapSite ∨ strapOri ≠ orientOf strapSite then
      (s.siteLost k site .failed).on k (fun g => g.logAt 0x020F site 0xFF 0xFF strapSite strapOri 0)
    else s.on k (fun g =>
      let g := if st = SiteSt.spare then { g.dieClear site with sites := mins g.sites site .active } else g
      let g := (List.range 32).foldl (fun g n =>
        if portSites.getD (n / 4) 99 = site ∧ g.portState n = 0 then g.wf (rPort n 0) 30 28 1 else g) g
      ({ g with started := mins g.started site true }).trainEdges k site tests)

/-- The hub recomputes the tables after a change and sends them to the dies (R276 to R278). -/
def Pack.routing (s : Pack) (k : Nat) : Pack :=
  let g := s.g k
  let s := (List.range 48).foldl (fun s d => if (s.g k).dieLive d ∧ !g.reached d then s.dieFailed k d 0 else s) s
  s.on k (fun g =>
    let ds := (List.range 48).map g.distFrom
    let v := (g.net.ver + 1) % 65536
    let dies := (List.range 48).filter (fun d => g.dieLive d)
    { g with net := { g.net with ver := v, sent := dies.map (fun d => (d, v, (List.range 64).map (fun x => g.rtEntry ds d x))) } })

/-- A die takes the table the hub has written, unless it holds a newer one (R278). -/
def Pkg.takeTable (g : Pkg) (site : Nat) : Pkg :=
  match g.net.sent.find? (fun x => x.1 == site) with
  | none => g
  | some (_, v, t) =>
    let g := { g with net := { g.net with sent := g.net.sent.filter (fun x => x.1 != site) } }
    let cur := mget 0 g.net.tver site
    if !g.dieLive site ∨ 32768 ≤ (v + 65536 - cur) % 65536 then g
    else
      { g with net := { g.net with tver := mins g.net.tver site v,
                                   tab := ((List.range 64).zip t).foldl (fun (m : Map Nat) p => mins m (site * 64 + p.1) p.2) g.net.tab } }

/-- D2D.DIE of a die: site and orientation as its straps read, level and the floor (R17, R281). -/
def Pkg.dieWord (g : Pkg) (k site : Nat) : W32 :=
  mk32 ((mget (site, orientOf site) g.straps site).1 * 2 ^ 26 + (mget (site, orientOf site) g.straps site).2 * 2 ^ 23 + Config.siteLevel k site % 8 * 2 ^ 20 + (if mget false g.started site then floorOf k else 0) * 2 ^ 17)

end Sys2Proof.Machine
end

