-- ==== Sys2Proof/Machine/PowerOps.lean ====
section
/-! DEFINITION. Governors, the package limit, thermal control, power states and resets (R280, R281, R388 to R404, R430 to R432). -/

set_option linter.unusedVariables false

namespace Sys2Proof.Machine

/-- Registers of GOV at a site, and of PWR and HUSK. -/
def rGov (site o : Nat) : Nat := rk site (0x4000 + o)
def rPwr (o : Nat) : Nat := hubR (0x14000 + o)
def rHusk (o : Nat) : Nat := hubR (0x15000 + o)

/-- CAP, USE, MAXCAP, MINCAP of a die, in 0.25 W. -/
def Pkg.gCap (g : Pkg) (site : Nat) : Nat := g.rf (rGov site 0) 31 16
def Pkg.gUse (g : Pkg) (site : Nat) : Nat := g.rf (rGov site 0) 15 0
def Pkg.maxCap (g : Pkg) (site : Nat) : Nat := g.rf (rGov site 4) 31 16
def Pkg.minCap (g : Pkg) (site : Nat) : Nat := g.rf (rGov site 4) 15 0
def Pkg.setCap (g : Pkg) (site v : Nat) : Pkg := g.wf (rGov site 0) 31 16 v

/-- SLACK, 2 W (R400). -/
def slack : Nat := 8

/-- A governor. -/
def Pkg.gov (g : Pkg) (site : Nat) : Gov := mget {} g.pw.gov site

/-- Changes a governor. -/
def Pkg.onGov (g : Pkg) (site : Nat) (f : Gov → Gov) : Pkg := { g with pw := { g.pw with gov := mins g.pw.gov site (f (g.gov site)) } }

/-- A message goes out. -/
def Pkg.gmsg (g : Pkg) (m : GovMsg) : Pkg := { g with pw := { g.pw with msgs := g.pw.msgs ++ [m] } }

/-- A message of a die to the hub or a neighbour, with its next number and the level it reports (R280, R281). An OFFER, ACCEPT or REFUSE counts as the period's message to its receiver. -/
def Pkg.govSend (g : Pkg) (kind site dst amt ref : Nat) (level : Nat) : Pkg :=
  let n := (g.gov site).seq
  (g.onGov site (fun x => { x with seq := (n + 1) % 65536, told := if kind = 0x20 then x.told else dst :: x.told })).gmsg
    { kind := kind, src := site, dst := dst, seq := n, use := g.gUse site, cap := g.gCap site, amt := amt, ref := ref, level := level }

/-- A message of the hub to a die. -/
def Pkg.hubSend (g : Pkg) (kind dst amt ref pool : Nat) : Pkg :=
  let n := g.pw.seq
  let g := g.gmsg { kind := kind, src := 62, dst := dst, seq := n, use := 0, cap := 0, amt := amt, ref := ref, pool := pool }
  { g with pw := { g.pw with seq := (n + 1) % 65536 } }

/-- Dies with a governor that counts. -/
def Pkg.govDies (g : Pkg) : List Nat := (List.range 48).filter (fun d => g.dieLive d)

/-- The sum of a list. -/
def sumL (l : List Nat) : Nat := l.foldl (· + ·) 0

/-- The hub's grant G: every CAP, every unanswered OFFER, the pool (R398). -/
def Pkg.grant (g : Pkg) : Nat :=
  sumL (g.govDies.map (fun d => g.gCap d + (match (g.gov d).offer with | some o => o.2.2 | none => 0))) +
    sumL (g.pw.offers.map (fun o => o.2.2)) + g.pw.pool

/-- The hub takes budget back into the pool; above the allowance it is withdrawn, and at it SHORT ends (R398, R401). -/
def Pkg.poolAdd (g : Pkg) (n dd : Nat) : Pkg :=
  let g := { g with pw := { g.pw with pool := g.pw.pool + n } }
  let g := { g with pw := { g.pw with pool := g.pw.pool - min n (g.grant - dd) } }
  if g.rb (rPwr 0xC) 17 ∧ g.grant ≤ dd then g.wb (rPwr 0xC) 17 false else g

/-- The die allowance D, in 0.25 W (R398). -/
def Pkg.allowance (g : Pkg) : Nat :=
  4 * (g.rf (rPwr 4) 15 0 * 908 / 1000 - g.rf (rPwr 0x10) 31 16 - g.rf (rPwr 0x14) 31 16)

/-- The throttle step in force (R402, R403): the highest of what budget, heat and the emergency call for. -/
def Pkg.setStep (g : Pkg) (site : Nat) : Pkg :=
  let x := g.gov site
  let e := if g.rb (rPwr 0xC) 20 then 12 else 0
  g.wf (rGov site 0xC) 31 28 (max (max x.capStep x.heat) e)

/-- Every die's step is put in force. -/
def Pkg.setSteps (g : Pkg) : Pkg := g.govDies.foldl Pkg.setStep g

/-- The status messages that a period still owes, and a new period (R280). -/
def Pkg.govStatus (g : Pkg) (site : Nat) (ts : List Nat) (level : Nat) : Pkg :=
  let told := (g.gov site).told
  ((ts.filter (fun t => !told.contains t)).foldl (fun g t => g.govSend 0x20 site t 0 0 level) g).onGov site (fun x => { x with told := [] })

/-- A governor's period (R280, R399 to R401): USE is measured, the step follows it (a free value: the manual states no step for a measurement), one message with the feature level goes to the hub and to each neighbour; one that has had an OFFER, ACCEPT or REFUSE in the period gets no other. -/
def Pack.govPeriod (s : Pack) (k site use level : Nat) : Pack :=
  if !(s.g k).dieLive site then s
  else
    let d := s.draw
    d.2.on k (fun g =>
      let g := g.wf (rGov site 0) 15 0 use
      let cap := g.gCap site
      let use := use % 65536
      let g := (g.onGov site (fun x =>
        { x with capStep := if use ≤ cap then d.1 % 16 else 1 + d.1 % 15, below := if use + 2 * slack < cap then x.below + 1 else 0 })).setStep site
      let x := g.gov site
      let ends := (List.range 4).filterMap (fun e => match facing site e with
        | some (t, _) => if g.edgeUp site e then some (e, t) else none
        | none => none)
      let offerTo : Option (Nat × Nat) :=
        if x.offer.isSome then none
        else if 0 < x.rcl then some (62, min x.rcl (cap - g.minCap site))
        else if x.below < 4 then none
        else
          let amt := min (cap - use - slack) (cap - g.minCap site)
          let qs := ends.filter (fun p => match x.nbr.find? (fun y => y.1 == p.1) with
            | some y => decide (y.2.2 ≤ y.2.1 + slack ∧ 0 < y.2.2)
            | none => false)
          let best := qs.foldl (fun (b : Option (Nat × Nat × Nat)) p =>
            let y := mget (0, 1) x.nbr p.1
            match b with
            | none => some (p.2, y.1, y.2)
            | some z => if z.2.1 * y.2 < y.1 * z.2.2 then some (p.2, y.1, y.2) else b) none
          if amt = 0 then none else some ((best.map (·.1)).getD 62, amt)
      match offerTo with
      | some (dst, amt) =>
        let n := (g.gov site).seq
        let g := (g.setCap site (cap - amt)).govSend 0x21 site dst amt 0 level
        let g := (g.onGov site (fun x =>
          { x with offer := some (dst, n, amt), rcl := 0, capStep := if use ≤ cap - amt then x.capStep else 1 + d.1 % 15 })).setStep site
        g.govStatus site (62 :: ends.map (·.2)) level
      | none => g.govStatus site (62 :: ends.map (·.2)) level)

/-- The message a receiving command names, of a kind. -/
def Pkg.govTake (g : Pkg) (i kind : Nat) : Option (GovMsg × Pkg) :=
  match takeAt g.pw.msgs i with
  | some (m, r) => if m.kind = kind then some (m, { g with pw := { g.pw with msgs := r } }) else none
  | none => none

/-- What a message tells its receiver of the sender's USE and CAP. -/
def Pkg.govNote (g : Pkg) (m : GovMsg) : Pkg :=
  if m.src = 62 then g
  else if m.dst = 62 then { g with pw := { g.pw with known := mins g.pw.known m.src (m.use, m.cap) } }
  else match (List.range 4).find? (fun e => match facing m.dst e with | some (t, _) => t == m.src | none => false) with
    | some e => g.onGov m.dst (fun x => { x with nbr := mins x.nbr e (m.use, m.cap) })
    | none => g

/-- A die answers an OFFER (R400), and reports its fused level (R281). -/
def Pkg.answerOffer (g : Pkg) (site src seq amt level : Nat) : Pkg :=
  if (g.gov site).offer.isNone ∧ g.gCap site ≤ g.gUse site + slack ∧ g.gCap site + amt ≤ g.maxCap site then
    (g.setCap site (g.gCap site + amt)).govSend 0x22 site src amt seq level
  else g.govSend 0x23 site src amt seq level

/-- The sender of a message reports a level other than its fused one (R281). -/
def badLevel (k : Nat) (m : GovMsg) : Bool := m.src != 62 && m.level != Config.siteLevel k m.src % 8

/-- A governor's message is taken; a sender that reports another level than its fused one is declared failed (R276, R281). -/
def Pack.govIn (s : Pack) (k i kind : Nat) (f : GovMsg → Pkg → Pkg) : Pack :=
  match (s.g k).govTake i kind with
  | none => s
  | some (m, g) =>
    let s := s.put k (f m g)
    if badLevel k m then s.dieFailed k m.src 1 else s

/-- An OFFER arrives: the hub always accepts, a die by R400 (R280, R401). -/
def Pack.takeOffer (s : Pack) (k i : Nat) : Pack :=
  s.govIn k i 0x21 (fun m g =>
    let g := g.govNote m
    if m.dst = 62 then (g.poolAdd m.amt g.allowance).hubSend 0x22 m.src m.amt m.seq 0
    else if g.dieLive m.dst then g.answerOffer m.dst m.src m.seq m.amt (Config.siteLevel k m.dst % 8) else g)

/-- The giver's offer is answered: taken back when refused (R280). -/
def Pkg.offerDone (g : Pkg) (m : GovMsg) (back : Bool) : Pkg :=
  if m.dst = 62 then
    match g.pw.offers.find? (fun o => o.1 == m.src && o.2.1 == m.ref) with
    | none => g
    | some o =>
      let g := { g with pw := { g.pw with offers := g.pw.offers.filter (fun x => !(x.1 == m.src && x.2.1 == m.ref)) } }
      if back then g.poolAdd o.2.2 g.allowance else g
  else match (g.gov m.dst).offer with
    | none => g
    | some o =>
      if o.1 ≠ m.src ∨ o.2.1 ≠ m.ref then g
      else
        let g := g.onGov m.dst (fun x => { x with offer := none })
        if back then g.setCap m.dst (g.gCap m.dst + o.2.2) else g

/-- ACCEPT and REFUSE arrive at the giver (R280). -/
def Pack.takeAccept (s : Pack) (k i : Nat) : Pack := s.govIn k i 0x22 (fun m g => (g.govNote m).offerDone m false)
def Pack.takeRefuse (s : Pack) (k i : Nat) : Pack := s.govIn k i 0x23 (fun m g => (g.govNote m).offerDone m true)

/-- A die receives the hub's status message: a recall before a pool OFFER (R401, R409). The step that brings USE below the recalled budget is a free value of at least 1 (log 66). -/
def Pack.hubStatus (s : Pack) (k i : Nat) : Pack :=
  match (s.g k).govTake i 0x20 with
  | none => s
  | some (m, g) =>
    if m.src ≠ 62 then s
    else if !g.dieLive m.dst then s.put k g
    else if 0 < m.amt then
      let d := s.draw
      let fits := decide (g.gUse m.dst ≤ g.gCap m.dst - min m.amt (g.gCap m.dst - g.minCap m.dst))
      d.2.put k ((g.onGov m.dst (fun x => { x with rcl := m.amt, capStep := if fits then x.capStep else 1 + d.1 % 15 })).setStep m.dst)
    else if 0 < m.pool then s.put k (g.answerOffer m.dst 62 m.seq m.pool (Config.siteLevel k m.dst % 8))
    else s.put k g

/-- A governor's status message arrives at the site it is for, the hub or a neighbour (R280, R281). -/
def Pack.govMessage (s : Pack) (k site i : Nat) : Pack :=
  match (s.g k).govTake i 0x20 with
  | none => s
  | some (m, _) => if m.src = 62 ∨ m.dst ≠ site then s else s.govIn k i 0x20 (fun m g => g.govNote m)

/-- The hub's period (R398, R401): the allowance, the pool, a status message to every die with its recall or its pool OFFER. `nondie`: the largest non-die power of the last 1 ms, in W. -/
def Pkg.budgetPeriod (g : Pkg) (nondie : Nat) : Pkg :=
  let g := g.wf (rPwr 0x10) 31 16 nondie
  let dd := g.allowance
  let g := { g with pw := { g.pw with pool := g.pw.pool + (dd - g.grant) } }
  let e := g.grant - dd
  let dies := g.govDies
  let caps := sumL (dies.map (fun d => g.gCap d))
  let share (d : Nat) : Nat := (e * g.gCap d + caps - 1) / max 1 caps
  let back := sumL (dies.map (fun d => min (share d) (g.gCap d - g.minCap d)))
  let g := g.wb (rPwr 0xC) 17 (decide (0 < e) && (g.rb (rPwr 0xC) 17 || decide (back < e)))
  let order := dies.filter (fun d => decide (g.pw.served < d)) ++ dies.filter (fun d => decide (d ≤ g.pw.served))
  order.foldl (fun g d =>
    if 0 < share d then g.hubSend 0x20 d (share d) 0 0
    else
      let kn := mget (0, 0) g.pw.known d
      let amt := min g.pw.pool (min (g.maxCap d - kn.2) 16)
      if kn.2 ≤ kn.1 + slack ∧ 0 < amt ∧ !(g.pw.offers.any (fun o => o.1 == d)) then
        let n := g.pw.seq
        let g := { g with pw := { g.pw with pool := g.pw.pool - amt, offers := (d, n, amt) :: g.pw.offers, served := d } }
        g.hubSend 0x20 d 0 0 amt
      else g.hubSend 0x20 d 0 0 0) g

/-- The limit that the emergency throttle uses (R402): for 200 µs after a change, the higher of two. -/
def Pkg.emergLimit (g : Pkg) : Nat := if g.pw.limAge < 200 then max g.pw.oldLim (g.rf (rPwr 4) 15 0) else g.rf (rPwr 4) 15 0

/-- An input sample (R402): the current in A, and the 100 µs mean power in W. -/
def Pkg.inputSample (g : Pkg) (amps pin : Nat) : Pkg :=
  let g := g.wf (rPwr 0x10) 15 0 pin
  let pin := pin % 65536
  let hot := decide (541 < amps) || decide (21 * g.emergLimit < 20 * pin)
  let g := { g with pw := { g.pw with limAge := min 200 (g.pw.limAge + 1), calm := if pin < g.rf (rPwr 4) 15 0 then g.pw.calm + 1 else 0 } }
  if hot then (g.wb (rPwr 0xC) 20 true).setSteps else g

/-- The emergency throttle ends after 20 µs below PLIM (R402). -/
def Pkg.emergencyEnd (g : Pkg) : Pkg := if g.rb (rPwr 0xC) 20 ∧ 20 ≤ g.pw.calm then (g.wb (rPwr 0xC) 20 false).setSteps else g

/-- A write of PWR.LIMIT (R398). -/
def Pkg.limitWrite (g : Pkg) (v : Nat) : Pkg :=
  if 2000 ≤ v ∧ v ≤ 6500 then
    { (g.wf (rPwr 4) 15 0 v) with pw := { g.pw with oldLim := g.rf (rPwr 4) 15 0, limAge := 0 } }
  else g.wb (rPwr 0) 30 true

/-! Heat -/

/-- TTRIP of a die (R403). -/
def tripOf (k site : Nat) : Nat := Config.tripPoint k site % 1024

/-- A trip wire fires. -/
def Pkg.trip (g : Pkg) (site : Nat) : Pkg := { g with hk := { g.hk with trips := g.hk.trips ++ [site] } }

/-- Every sensor reads at least 15 °C below its trip value (R404). -/
def Pkg.coolEnough (g : Pkg) (k : Nat) : Bool :=
  (List.range 48).all (fun d => !mget false g.started d || decide (g.rf (rGov d 8) 9 0 + 60 ≤ tripOf k d)) &&
    (List.range 12).all (fun j => (List.range 8).all (fun z => decide (g.rf (rStack j (0x10 + 4 * z)) 9 0 + 60 ≤ 440)))

/-- THERM_N is released once TRIP is clear and every sensor is cool (R404). -/
def Pkg.thermLook (g : Pkg) (k : Nat) : Pkg :=
  if g.hk.therm ∧ !g.rb (rPwr 0xC) 28 ∧ g.coolEnough k then { g with hk := { g.hk with therm := false } } else g

/-- A junction sample (R403). -/
def Pkg.junction (g : Pkg) (k site tj : Nat) : Pkg :=
  if !g.dieLive site then g
  else
    let g := g.wf (rGov site 8) 9 0 tj
    (if tripOf k site ≤ tj % 1024 then g.trip site else g).thermLook k

/-- A junction sample of a die whose logic does not run, or of a package whose hub does not: only the trip wire to the Husk hears it (R404). -/
def Pkg.wireSample (g : Pkg) (k site tj : Nat) : Pkg :=
  if g.hk.vaon ∧ g.hk.state = 2 ∧ site < 48 ∧ g.siteSt site ≠ .off ∧ tripOf k site ≤ tj % 1024 then g.trip site else g

/-- A die's throttle step for heat moves by one (R403). -/
def Pkg.heatStep (g : Pkg) (site : Nat) : Pkg :=
  if !g.dieLive site then g
  else
    let tj := g.rf (rGov site 8) 9 0
    let th := g.rf (rGov site 8) 31 22
    let x := g.gov site
    let now := max x.capStep x.heat
    let g := if th ≤ tj then g.onGov site (fun x => { x with heat := min 15 (now + 1) })
      else if tj + 12 < th then g.onGov site (fun x => { x with heat := if x.heat ≤ x.capStep + 1 then 0 else x.heat - 1 })
      else g
    g.setStep site

/-! Clocks -/

/-- A region of a die has work: an enabled unit with a READY thread or an operation in its arrays or engines (R392). -/
def Pkg.regionActive (g : Pkg) (site r : Nat) : Bool :=
  (List.range 16).any (fun i =>
    let u := 16 * r + i
    g.unitOn site u && (!(g.readyThreads site u).isEmpty || (g.aops ++ g.eops).any (fun x => x.t.site == site && x.t.unit == u)))

/-- A region's array clock stops after IDLEUS without work (R392). -/
def Pkg.clockStop (g : Pkg) (site r : Nat) : Pkg :=
  if g.rf (rGov site 0xC) 15 0 = 0 ∨ g.regionActive site r then g else { g with arun := mins g.arun (site * 4 + r) false }

/-- GOV.CLK as it reads: the stored step and IDLEUS, the clocks that run. -/
def Pkg.clkWord (g : Pkg) (site : Nat) : W32 :=
  let a := sumL ((List.range 4).map (fun r => b2n (g.regionActive site r || mget false g.arun (site * 4 + r)) * 2 ^ r))
  let n := sumL ((List.range 4).map (fun r =>
    b2n (g.regionOn site r || (List.range 4).any (fun c => g.clusOn site (4 * r + c)) || (List.range 16).any (fun i => g.unitOn site (16 * r + i))) * 2 ^ r))
  setF (setF (g.rd (rGov site 0xC)) 23 20 n) 19 16 a

/-- A die PLL loses lock with REFCLK present: its die is declared failed (R388). -/
def Pack.pllLoss (s : Pack) (k site : Nat) : Pack := if (s.g k).hk.ref then s.dieFailed k site 1 else s

/-! SVNCTR and the boot state -/

/-- Registers of FUSE and KEY. -/
def rFuse (o : Nat) : Nat := hubR (0x16000 + o)
def rKey (o : Nat) : Nat := hubR (0x17000 + o)

/-- SVNCTR: fuses blown, 0 to 63 (R418). -/
def Pkg.svnctr (g : Pkg) (k : Nat) : Nat := min 63 (max (Config.svnCounter k % 64) g.fz.svn)

/-- KEY.BCTL.PHASE: 0 WAIT, 1 VERIFY, 2 RUN, 3 FAILED. -/
def Pkg.bphase (g : Pkg) : Nat := g.rf (rKey 0) 30 28
def Pkg.setBphase (g : Pkg) (p : Nat) : Pkg := g.wf (rKey 0) 30 28 p
def Pkg.bootErr (g : Pkg) (e : Nat) : Pkg := g.wf (rKey 0) 27 24 e

/-- ADVSVN (R418). -/
def Pkg.advSvn (g : Pkg) (k : Nat) : Pkg :=
  if g.bphase ≠ 2 then g.bootErr 8
  else { g with fz := { g.fz with svn := max (g.svnctr k) (min 63 (g.rf (rKey 4) 15 8)) } }

/-- An ADVSVN that has been accepted still blows its fuses. -/
def Pkg.advancing (g : Pkg) : Bool := g.bphase == 2 && g.posts.any (fun p => p.site == 62 && p.off == 0x16000 && bit p.v 4)

/-- A reset or the loss of power abandons an advance of SVNCTR, which is left between its old value and its target: a free value (R418, R423). -/
def Pack.advAbort (s : Pack) (k : Nat) : Pack :=
  let g := s.g k
  if !g.advancing then s
  else
    let d := s.draw
    let old := g.svnctr k
    d.2.on k (fun g => { g with fz := { g.fz with svn := old + d.1 % ((g.advSvn k).svnctr k - old + 1) },
                                posts := g.posts.map (fun p => if p.site == 62 && p.off == 0x16000 then { p with v := setB p.v 4 false } else p) })

/-! Power states and resets -/

/-- A register of the Husk domain: PWR, HUSK, FUSE, KEY, ERRLOG (R397). -/
def huskReg (a : Nat) : Bool :=
  a / 0x100000 == 62 && ((decide (0x14000 ≤ a % 0x100000 ∧ a % 0x100000 < 0x18000)) || decide (0x20000 ≤ a % 0x100000 ∧ a % 0x100000 < 0x30000))

/-- The package as a package reset leaves it, but for R298 and the boot: every block outside the Husk domain at its reset value (R397, R436). The boot starts anew: PHASE is WAIT, and no image runs (R412, R416); ERR and EARLY stay (R397, log 130). -/
def Pkg.resetPkg (g : Pkg) (k : Nat) : Pkg :=
  let h := g.hk
  let fresh : Pkg :=
    { sites := fusedOut k, regs := g.regs.filter (fun p => huskReg p.1 && !(decide (hubR 0x17000 < p.1 ∧ p.1 < hubR 0x18000))),
      log := g.log, logSeq := g.logSeq, smb := g.smb, fz := g.fz, busy := g.busy.filter huskReg, posts := g.posts.filter (fun p => p.site == 62 && huskReg (hubR p.off)),
      hk := { h with failed := false, trips := h.trips, answer := .none, d3 := false, barB := 36, msixOn := false, msixMask := false, cfg := [], aer := [], cpl := .written,
                     msi := none, spdm := 0 } }
  let fresh := (fresh.setBphase 0).wb rPins 3 false
  if h.ref then fresh.wb (rPwr 0xC) 21 false else fresh

/-- The role that LEAD_N gives a package at reset (R298). -/
def Pkg.strapRole (g : Pkg) : Pkg :=
  if g.hk.leadLow then
    (((g.wr rPackId 0x1C0).wr rMemLo 1).wr rMemHi 0).wf rPackEpoch 15 0 1
  else g

/-- The load die of the ROM phase (R413). -/
def Pkg.loadDie (g : Pkg) : Option Nat := if !g.hole 41 then some 41 else if !g.hole 42 then some 42 else none

/-- The boot's part at the hub: the role, the load die's region buffers, P0 (R298, R412, R413). Without REFCLK the package stays failed (R390, log 131). -/
def Pkg.boot (g : Pkg) : Pkg :=
  let g := { g with hk := { g.hk with state := 2, rst := false, failed := !g.hk.ref } }
  let g := g.strapRole
  let g := match g.loadDie with
    | some d => g.wr (rGateB d) 0xF
    | none => g
  g

/-- Bytes of stack memory of package `k`, and of the rest of the pack. -/
def keepStack (k a : Nat) : Bool := a / 2 ^ 58 != k || a / 2 ^ 48 % 16 == 8
def keepOther (k a : Nat) : Bool := a / 2 ^ 58 != k

/-- What travels to or from a package that stops is lost, and the others' networks forget its sequences. -/
def Pack.isolate (s : Pack) (k : Nat) : Pack :=
  let p := (s.g k).pos
  let s := s.all (fun j g => if j = k ∨ !(s.g k).assigned then { g with qops := g.qops.filter (fun x => x.r.t.pkg != k) }
    else { g with qops := g.qops.filter (fun x => x.r.t.pkg != k) }.forgetPos p)
  { s with flight := s.flight.filter (fun x => x.src.pkg != k && x.dst.pkg != k), wire := s.wire.filter (fun w => w.src != k && w.dst != k) }

/-- What the stacks keep in self-refresh beside their contents: the place of the patrol scrub. Every refresh and request has completed (R258). -/
def Stacks.asleep (x : Stacks) : Stacks := { scrub := x.scrub }

/-- A package reset (R397): the stacks keep their contents only on a wake from S1; the boot follows unless PERST_N holds the reset. -/
def Pack.pkgReset (s : Pack) (k : Nat) (stk : Bool) : Pack :=
  let s := (s.advAbort k).isolate k
  let sref := (List.range 12).filter (fun j => stk && (s.g k).selfRef j)
  let s := s.on k (fun g => sref.foldl (fun g j => g.wb (rStack j 0) 27 true) { g.resetPkg k with sk := if stk then g.sk.asleep else {} })
  let s := { s with mem := s.mem.filter (fun c => if stk then keepStack k c.1 else keepOther k c.1) }
  s.on k (fun g => if g.hk.perst then { g with hk := { g.hk with state := 2, rst := true } } else g.boot)

/-- The package leaves P0 or P1 for S1 or S3 (R395, R396, R404): everything but the Husk, and in S1 the stacks in self-refresh, is unpowered. -/
def Pack.powerDown (s : Pack) (k : Nat) (s1 : Bool) : Pack :=
  let s := (s.advAbort k).isolate k
  let s := s.on k (fun g =>
    let g := { g.resetPkg k with sk := if s1 then g.sk.asleep else {},
                                 hk := { (g.resetPkg k).hk with state := if s1 then 1 else 0, rst := false, failed := g.hk.failed && !g.hk.ref } }
    if s1 then (List.range 12).foldl (fun g j => g.wb (rStack j 0) 27 true) g else g)
  { s with mem := s.mem.filter (fun c => if s1 then keepStack k c.1 else keepOther k c.1) }

/-- PWR.STAT.REFUSED. -/
def Pkg.refuse (g : Pkg) : Pkg := g.wb (rPwr 0xC) 19 true

/-- WAKE (R396, R411, R431). -/
def Pack.wake (s : Pack) (k : Nat) : Pack :=
  let g := s.g k
  if g.hk.state = 2 then s
  else if !g.hk.pwrok ∨ !g.hk.ref ∨ g.rb (rPwr 0xC) 28 ∨ Config.fuseError k then s.on k Pkg.refuse
  else s.pkgReset k (g.hk.state == 1)

/-- Membership allows the package to leave (R395). -/
def Pkg.mayLeave (g : Pkg) : Bool := !g.assigned || (g.mem == 2 ^ g.pos && g.lready)

/-- STANDBY and OFF (R395, R396). `stuck`: a stack does not reach idle in time, which under FORCE leads to S3. -/
def Pack.standby (s : Pack) (k : Nat) (force stuck : Bool) : Pack :=
  let g := s.g k
  if g.hk.state ≠ 2 ∨ (!force ∧ !g.mayLeave) then s.on k Pkg.refuse
  else s.powerDown k (!(force && stuck))
def Pack.off (s : Pack) (k : Nat) (force : Bool) : Pack :=
  let g := s.g k
  if g.hk.state = 0 ∨ (!force ∧ !g.mayLeave) then s.on k Pkg.refuse else s.powerDown k false

/-- PKGRESET (R397, R405). -/
def Pack.pkgResetCmd (s : Pack) (k : Nat) : Pack := if (s.g k).hk.state = 2 then s.pkgReset k false else s.on k Pkg.refuse

/-- DIERESET (R262, R276, R397): the die is declared failed, and runs its start; one whose self-test leaves every edge able to run is a field spare. -/
def Pack.dieReset (s : Pack) (k site : Nat) (tests : List EdgeTest) : Pack :=
  let g := s.g k
  if g.hk.state ≠ 2 ∨ 48 ≤ site then s.on k Pkg.refuse
  else if g.siteSt site = .off then s
  else
    let s := s.dieFailed k site 2
    s.on k (fun g => { g.dieClear site with sites := mins g.sites site (if g.edgesAble k site tests then .spare else .failed) })

/-- A write of PWR.CMD (R395 to R397); refused while a reset is held (R409). -/
def Pack.pwrCmd (s : Pack) (k : Nat) (v : W32) (stuck : Bool) (tests : List EdgeTest) : Pack :=
  if (s.g k).hk.rst ∧ 1 ≤ fld v 31 28 ∧ fld v 31 28 ≤ 5 then s.on k Pkg.refuse
  else match fld v 31 28 with
  | 1 => s.wake k
  | 2 => s.standby k (bit v 27) stuck
  | 3 => s.off k (bit v 27)
  | 4 => s.pkgResetCmd k
  | 5 => s.dieReset k (fld v 5 0) tests
  | _ => s

/-- PWR_OK rises, and falls (R396, R430). -/
def Pack.pwrOkRise (s : Pack) (k : Nat) : Pack :=
  if !(s.g k).hk.vaon then s
  else
    let s := s.on k (fun g => ({ g with hk := { g.hk with pwrok := true } }).wb (rPwr 0xC) 18 true)
    if (s.g k).rb (rPwr 0) 29 ∧ (s.g k).hk.state ≠ 2 then s.wake k else s
def Pack.pwrOkFall (s : Pack) (k : Nat) : Pack :=
  if !(s.g k).hk.vaon then s
  else
    let s := s.on k (fun g => ({ g with hk := { g.hk with pwrok := false } }).wb (rPwr 0xC) 18 false)
    if (s.g k).hk.state = 0 then s else s.powerDown k false

/-- A trip wire fires: THERM_N, TRIP and TRIPSITE, S3 (R404). -/
def Pack.thermalTrip (s : Pack) (k : Nat) : Pack :=
  match (s.g k).hk.trips with
  | [] => s
  | site :: r =>
    let s := s.on k (fun g =>
      ({ g with hk := { g.hk with trips := r, therm := true } }).wr (rPwr 0xC) (setF (setB (g.rd (rPwr 0xC)) 28 true) 27 22 site))
    s.powerDown k false

/-- PERST_N is asserted: a package reset that it holds (R371, R397); in S1 and S3 only the pin is seen. -/
def Pack.perstAssert (s : Pack) (k : Nat) : Pack :=
  if !(s.g k).hk.vaon then s
  else
    let s := s.on k (fun g => { g with hk := { g.hk with perst := true } })
    if (s.g k).hk.state = 2 then s.pkgReset k false else s

/-- PERST_N is released: the boot starts (R371, R431). -/
def Pkg.perstRelease (g : Pkg) : Pkg :=
  if !g.hk.vaon ∨ !g.hk.perst then g
  else
    let g := { g with hk := { g.hk with perst := false } }
    if g.hk.state = 2 ∧ g.hk.rst then g.boot else g

/-- REFCLK is lost (R390): in P0 and P1 the package fails, its dies stop and FAULT_N is asserted. -/
def Pkg.refLoss (g : Pkg) : Pkg :=
  if !g.hk.vaon ∨ !g.hk.ref then g
  else
    let g := ({ g with hk := { g.hk with ref := false } }).wb (rPwr 0xC) 21 true
    if g.hk.state ≠ 2 ∨ g.hk.rst then g
    else
      let g := { g with hk := { g.hk with failed := true }, started := [],
                        thr := mmap (fun _ th => { th with st := .idle, wait := none }) g.thr }
      g.failPkg

/-- REFCLK is present again (R390, R396). -/
def Pkg.refReturn (g : Pkg) : Pkg :=
  let g := { g with hk := { g.hk with ref := true } }
  if g.hk.failed then g else g.wb (rPwr 0xC) 21 false

/-- VAON rises: a power-on reset; only fuses, straps and pins outside stay (R397, R410). -/
def Pack.vaonRise (s : Pack) (k : Nat) : Pack :=
  let h := (s.g k).hk
  let s := (s.advAbort k).isolate k
  let s := { s with mem := s.mem.filter (fun c => keepOther k c.1) }
  s.on k (fun g =>
    let g' : Pkg := { sites := fusedOut k, fz := g.fz, hk := { perst := h.perst, ref := h.ref, leadLow := h.leadLow } }
    let g' := if h.ref then g' else g'.wb (rPwr 0xC) 21 true
    g'.strapRole)

/-- VAON falls below 2.9 V with VIN present (R432); VAON is removed (R431). -/
def Pack.vaonInterlock (s : Pack) (k : Nat) : Pack := if (s.g k).hk.state = 0 then s else s.powerDown k false
def Pack.vaonLoss (s : Pack) (k : Nat) : Pack :=
  let h := (s.g k).hk
  let s := (s.advAbort k).isolate k
  let s := { s with mem := s.mem.filter (fun c => keepOther k c.1) }
  s.on k (fun g => { sites := fusedOut k, fz := g.fz, hk := { vaon := false, perst := h.perst, ref := h.ref, leadLow := h.leadLow } })

/-- The Husk trims its oscillator (R391): the source it uses; the code is a free value, for the manual gives no law. -/
def Pack.huskTrim (s : Pack) (k : Nat) : Pack :=
  let g := s.g k
  let d := s.draw
  let port := (List.range 32).find? (fun n => g.portState n == 2 || g.portState n == 3)
  let set (src port : Nat) (g : Pkg) : Pkg := g.wr (rHusk 0) (setF (setF (setF (g.rd (rHusk 0)) 29 28 src) 27 23 port) 11 0 d.1)
  if !g.hk.vaon then s
  else if g.hk.ref then d.2.on k (set 1 0)
  else match port with
    | some n => d.2.on k (set 2 n)
    | none => s.on k (fun g => g.wr (rHusk 0) (setF (setF (g.rd (rHusk 0)) 29 28 0) 27 23 0))

end Sys2Proof.Machine
end

