-- ==== Sys2Proof/Machine/UnitOps.lean ====
section
/-! DEFINITION. The UNIT block: starting and stopping threads, token counts, status words (R94 to R96, R101, R102, R448). -/

set_option linter.unusedVariables false

namespace Sys2Proof.Machine

/-- A thread is started by a write of RUN = 1: only from IDLE or FAULT (R96). -/
def Pkg.runStart (g : Pkg) (site u n : Nat) : Pkg :=
  let key := uk site u * 16 + n
  let th := mget ({} : Thread) g.thr key
  if th.st = .idle ∨ th.st = .fault then
    { g with thr := mins g.thr key (th.go th.pc), arun := mins g.arun (site * 4 + u / 16) true }
  else g

/-- A thread that waits in a way that its instruction has already issued: PC names the next instruction after the stop. -/
def Wait.issued : Wait → Bool
  | .resp _ => true
  | _ => false

/-- A write of RUN = 0 (R96, R255): the wait is abandoned, a load that an uncorrectable error holds is ended, the thread is IDLE. DESIGN CHOICE, log 107: a thread in FAULT stays in FAULT. -/
def Pack.runStop (s : Pack) (k site u n : Nat) : Pack :=
  let key := uk site u * 16 + n
  let t : Tid := tidOf k key
  let th := mget ({} : Thread) (s.g k).thr key
  if th.st = .ready ∨ th.st = .wait then
    let held : Option Wait := if th.st = TState.wait then th.wait else none
    let s := if th.st = .wait then s.leaveLines t else s
    s.on k (fun g =>
      let pc := if (th.wait.map Wait.issued).getD false then th.pc + 1 else th.pc
      { g with thr := mins g.thr key { th with pc := pc, st := .idle, wait := none },
               loads := g.loads.filter (fun l => !(l.t == t && l.stuck)) }.lineLeft key held)
  else s

/-- A write to UNIT.RUN (R96, R378). -/
def Pack.runWrite (s : Pack) (k site u : Nat) (v : W32) : Pack :=
  (List.range 16).foldl (fun s n =>
    if !bit v (16 + n) then s
    else if bit v n then s.on k (fun g => g.runStart site u n)
    else s.runStop k site u n) s

/-- A status word as it reads (R68). While k-blocks of an A16 tile still wait for their coordinates, the flags that their additions raise are free values; those of their products and contributions are known (log 28). -/
def Pack.accRead (s : Pack) (k site u arr n : Nat) : W32 × Pack :=
  let x := (s.g k).tile site u arr n
  x.late.foldl (fun p l => match l with
    | .sta v => (staWrite p.1 v, p.2)
    | .blk b _ _ fl => let d := p.2.draw; (staAcc p.1 b (fl.or (flgOf d.1)), d.2)) (x.sta, s)

/-- A write to a status word (R68, R448). -/
def Pkg.accWrite (g : Pkg) (site u arr n : Nat) (v : W32) : Pkg :=
  let x := g.tile site u arr n
  g.setTile site u arr n (if x.late.isEmpty then { x with sta := staWrite x.sta v } else { x with late := x.late ++ [.sta v] })

/-- A write to a status word that has reached its array: it waits behind the operations on the tile that the array holds (R63, R448). -/
def Pkg.accArrive (g : Pkg) (site u arr n : Nat) (v : W32) : Pkg :=
  let a := g.tileAhead site u arr n
  if a = 0 then g.accWrite site u arr n v
  else { g with accq := g.accq ++ [{ site := site, unit := u, arr := arr, tile := n, src := 0, w := some v, ahead := a }] }

/-- A write to a register of unit `u`. -/
def Pack.unitWrite (s : Pack) (k site u o : Nat) (v : W32) : Pack :=
  let thk (n : Nat) := uk site u * 16 + n
  let onT (n : Nat) (f : Thread → Thread) : Pack := s.on k (fun g => { g with thr := mupd {} g.thr (thk n) f })
  if o = 0 then s.runWrite k site u v
  else if 0x40 ≤ o ∧ o < 0x80 then onT ((o - 0x40) / 4) (fun th => { th with prio := fld v 7 6 })
  else if 0x80 ≤ o ∧ o < 0xC0 then
    onT ((o - 0x80) / 4) (fun th => if th.st = .ready ∨ th.st = .wait then th else { th with pc := BitVec.ofNat 16 (fld v 15 0) })
  else if 0xC0 ≤ o ∧ o < 0x100 then onT ((o - 0xC0) / 4) (fun th => { th with theh := mk32 (fld v 19 0) })
  else if 0x200 ≤ o ∧ o < 0x300 then
    let c := (o - 0x200) / 4
    s.on k (fun g =>
      let g := if bit v 16 then g.setTk site u c { g.tk site u c with sat := false } else g
      g.writeCount site u c (fld v 15 0))
  else if 0x300 ≤ o ∧ o < 0x340 then s.on k (fun g => g.accArrive site u ((o - 0x300) / 0x20) ((o - 0x300) % 0x20 / 4) v)
  else s

/-- A register of unit `u` as it reads. -/
def Pack.unitRead (s : Pack) (k site u o : Nat) : W32 × Pack :=
  let g := s.g k
  let th (n : Nat) := mget ({} : Thread) g.thr (uk site u * 16 + n)
  if o = 0 then
    (mk32 (sumL ((List.range 16).map (fun n => b2n ((th n).st == .ready || (th n).st == .wait) * 2 ^ n))), s)
  else if 0x40 ≤ o ∧ o < 0x80 then
    let x := th ((o - 0x40) / 4)
    (mk32 (x.fpc.toNat * 65536 + x.cause % 256 * 256 + x.prio % 4 * 64 + x.waitOn * 16 + x.st.code), s)
  else if 0x80 ≤ o ∧ o < 0xC0 then (mk32 (th ((o - 0x80) / 4)).pc.toNat, s)
  else if 0xC0 ≤ o ∧ o < 0x100 then ((th ((o - 0xC0) / 4)).theh, s)
  else if 0x100 ≤ o ∧ o < 0x180 then (mk32 ((th ((o - 0x100) / 8)).faddr.toNat / 2 ^ (32 * ((o - 0x100) % 8 / 4)) % 2 ^ 32), s)
  else if 0x200 ≤ o ∧ o < 0x300 then
    let x := g.tk site u ((o - 0x200) / 4)
    (mk32 (x.count % 65536 + b2n x.sat * 65536), s)
  else if 0x300 ≤ o ∧ o < 0x340 then s.accRead k site u ((o - 0x300) / 0x20) ((o - 0x300) % 0x20 / 4)
  else (0, s)

end Sys2Proof.Machine
end

