-- ==== Sys2Proof/Machine/HuskOps.lean ====
section
/-! DEFINITION. The Husk's mailbox and quotes, fuses and keys, the boot, SPDM, MCTP control, the TAP, lend-ready (R405 to R408, R410 to R424, R434 to R442). -/

set_option linter.unusedVariables false

namespace Sys2Proof.Machine

/-- The hub runs: the package is powered, and has not lost its REFCLK, after which its SerDes blocks alone go on (R390). -/
def Pkg.hubUp (g : Pkg) : Bool := g.powered && !g.hk.failed

/-- Changes the Husk. -/
def Pkg.onHk (g : Pkg) (f : Husk → Husk) : Pkg := { g with hk := f g.hk }

/-! Fuses -/

/-- Programmed and revoked key slots, as 4-bit maps. -/
def keyProg (k : Nat) : Nat := Config.keyProgrammed k % 16
def Pkg.keyRev (g : Pkg) (k : Nat) : Nat := (Config.keyRevoked k ||| g.fz.rev) % 16

/-- Sites fused SPARE, and OFF. -/
def fusedCount (k : Nat) (x : SiteSt) : Nat := ((fusedOut k).filter (fun p => p.2 == x)).length

/-- FUSE.STATE. -/
def Pkg.fuseState (g : Pkg) (k : Nat) : W32 :=
  mk32 (b2n (Config.fuseError k) * 2 ^ 24 + fusedCount k .spare * 2 ^ 21 + fusedCount k .off * 2 ^ 18 + b2n (Config.idOk k) * 2 ^ 17 +
    b2n (Config.dbgLock k) * 2 ^ 16 + g.keyRev k * 2 ^ 12 + keyProg k * 2 ^ 8 + g.svnctr k)

/-- A byte string cut or padded with zeros to `n` bytes. -/
def fixLen (n : Nat) (bs : List Byte) : List Byte := (bs ++ List.replicate n 0).take n

/-- Word `w` of a byte string. -/
def wordOf (bs : List Byte) (w : Nat) : W32 := mk32 (leVal (fixLen 4 (bs.drop (4 * w))))

/-- The sparing state as FUSE.SITE and measurement 5 give it. -/
def SiteSt.code : SiteSt → Nat
  | .active => 0
  | .spare => 1
  | .off => 2
  | .failed => 3

/-- A register of FUSE. -/
def Pkg.fuseRead (g : Pkg) (k o : Nat) : W32 :=
  if o = 4 then g.fuseState k
  else if o = 8 then mk32 (serialOf k % 2 ^ 32)
  else if o = 0xC then mk32 (serialOf k / 2 ^ 32)
  else if o = 0x10 then mk32 (Config.subsys k)
  else if 0x40 ≤ o ∧ o < 0x100 then
    let n := (o - 0x40) / 4
    mk32 (Config.siteLevel k n % 8 * 4 + (mget SiteSt.active (fusedOut k) n).code)
  else if 0x100 ≤ o ∧ o < 0x180 then wordOf (fixLen 32 (Config.keyHash k ((o - 0x100) / 0x20))) ((o - 0x100) % 0x20 / 4)
  else 0

/-- The certificate chain as the Husk holds it, at most 2,048 bytes. -/
def certOf (k : Nat) : List Byte := (Config.certChain k).take 2048

/-- A register of KEY. -/
def Pkg.keyRead (g : Pkg) (k o : Nat) : W32 :=
  if o = 8 then mk32 (Config.romVersion k)
  else if 0x40 ≤ o ∧ o < 0x80 then wordOf (fixLen 64 (Config.idPublic k)) ((o - 0x40) / 4)
  else if o = 0xA0 then mk32 (certOf k).length
  else if 0x800 ≤ o then wordOf (fixLen 2048 (certOf k)) ((o - 0x800) / 4)
  else if o = 0 ∨ o = 4 ∨ (0x80 ≤ o ∧ o < 0xA0) then g.rd (rKey o)
  else 0

/-- REVOKE (R419). -/
def Pkg.revoke (g : Pkg) (k m : Nat) : Pkg :=
  let rev := (g.keyRev k ||| m % 16) % 16
  if m % 16 = 0 then g
  else if keyProg k &&& (15 - rev) = 0 then g.bootErr 8
  else { g with fz := { g.fz with rev := g.fz.rev ||| m % 16 } }

/-! Measurements -/

/-- The bytes of KEY.MDIG: measurement 2, zeros while PHASE is not RUN (R422). -/
def Pkg.mdig (g : Pkg) : List Byte :=
  if g.bphase = 2 then (List.range 8).flatMap (fun w => leBytes (g.rd (rKey (0x80 + 4 * w))).toNat 4) else List.replicate 32 0

/-- The measurement record, indices 1 to 5, 125 bytes (R422). -/
def Pkg.measurements (g : Pkg) (k : Nat) : List Byte :=
  leBytes (Config.romVersion k) 4 ++ fixLen 32 (Config.romDigest k) ++ g.mdig ++
    leBytes (g.rf (rKey 4) 15 8) 1 ++ leBytes (g.rf (rKey 4) 1 0) 1 ++ leBytes (g.svnctr k) 1 ++ [0] ++
    leBytes (g.fuseState k).toNat 4 ++ leBytes (floorOf k) 1 ++
    (List.range 48).flatMap (fun n => leBytes (Config.siteLevel k n % 8 * 4 + (g.siteSt n).code) 1)

/-! Mailbox, quotes, isolation, pins -/

/-- Bytes of a buffer of HUSK registers. -/
def Pkg.huskBytes (g : Pkg) (o n : Nat) : List Byte :=
  ((List.range ((n + 3) / 4)).flatMap (fun w => leBytes (g.rd (rHusk (o + 4 * w))).toNat 4)).take n

/-- Fills a buffer of HUSK registers. -/
def Pkg.huskFill (g : Pkg) (o : Nat) (bs : List Byte) : Pkg :=
  (List.range ((bs.length + 3) / 4)).foldl (fun g w => g.wr (rHusk (o + 4 * w)) (wordOf bs w)) g

/-- HSEND (R407): posts a message, or is refused while one awaits the board. -/
def Pkg.hsend (g : Pkg) (len : Nat) : Pkg :=
  if g.rb (rHusk 4) 30 then g.refuse else (g.wf (rHusk 4) 8 0 len).wb (rHusk 4) 30 true

/-- BACK (R407). -/
def Pkg.back (g : Pkg) : Pkg := g.wb (rHusk 4) 29 false

/-- A write to HUSK.MBCTL. -/
def Pkg.mbctlWrite (g : Pkg) (v : W32) : Pkg :=
  let g := if bit v 28 then g.hsend (fld v 8 0) else g.wf (rHusk 4) 8 0 (fld v 8 0)
  if bit v 27 then g.back else g

/-- A write to HUSK.ISO (R405): a port whose bit is set goes DOWN and is held there. -/
def Pack.isoWrite (s : Pack) (k : Nat) (v : W32) : Pack :=
  let s := s.on k (fun g => g.wr (rHusk 8) v)
  (List.range 32).foldl (fun s n => if bit v n then s.portDown k n false else s) s

/-- The newest record kept in the log. -/
def Pkg.newestSeq (g : Pkg) : Option Nat :=
  g.log.foldl (fun (m : Option Nat) (p : Nat × LogRec) => match m with
    | some x => some (max x p.2.seq)
    | none => some p.2.seq) none

/-- PWR.STAT as it reads (R394). -/
def Pkg.pwrStat (g : Pkg) : W32 :=
  let st := if g.hk.state ≠ 2 then g.hk.state else if g.hk.rst then 4 else if g.phase = 3 ∨ g.phase = 4 then 3 else 2
  setF (g.rd (rPwr 0xC)) 31 29 st

/-- QREQ (R408, R409): the body of a quote is taken; one in progress is left alone. SEQ is a free value while the log is empty. -/
def Pack.qreq (s : Pack) (k : Nat) : Pack :=
  let g := s.g k
  if g.hk.quote.isSome then s
  else
    let d := s.draw
    let r : Nat × Pack := match g.newestSeq with
      | some n => (n, s)
      | none => (d.1 % 2 ^ 32, d.2)
    let body := leBytes 0x4855534B 4 ++ leBytes (serialOf k) 8 ++ g.huskBytes 0x300 32 ++ fixLen 32 (Config.sm3 (g.measurements k)) ++
      leBytes (g.fuseState k).toNat 4 ++ leBytes (floorOf k) 1 ++ List.replicate 3 0 ++ leBytes (g.rd (rHusk 0x10)).toNat 4 ++
      leBytes (g.rf (rHusk 0x14) 15 0) 2 ++ List.replicate 2 0 ++ leBytes g.pwrStat.toNat 4 ++ leBytes r.1 4 ++ List.replicate 28 0
    r.2.on k (fun g => g.onHk (fun h => { h with quote := some body }))

/-- The quote is signed and stored; DONE sets where it is for the current NONCE (R408). The signature's own random number is a free value. -/
def Pack.quoteDone (s : Pack) (k : Nat) : Pack :=
  match (s.g k).hk.quote with
  | none => s
  | some body =>
    let d := s.draw
    d.2.on k (fun g =>
      let g := g.huskFill 0x400 (body ++ fixLen 64 (Config.sm2Sign k d.1 body))
      let g := g.onHk (fun h => { h with quote := none })
      if (body.drop 12).take 32 = g.huskBytes 0x300 32 then g.wb (rHusk 0xC) 30 true else g)

/-- A write to a word of HUSK.NONCE clears DONE. -/
def Pkg.nonceWrite (g : Pkg) (w : Nat) (v : W32) : Pkg := (g.wr (rHusk (0x300 + 4 * w)) v).wb (rHusk 0xC) 30 false

/-- A fault source of HUSK.PINS is set (R434). -/
def Pkg.faulted (g : Pkg) (k : Nat) : Bool :=
  g.rb rPins 4 || g.rb rPins 3 || g.rb (rPwr 0xC) 21 || g.rb (rPwr 0xC) 28 || Config.fuseError k

/-- HUSK.PINS as it reads. -/
def Pkg.pinsWord (g : Pkg) (k : Nat) : W32 :=
  let lren := g.rb rPins 30
  mk32 (b2n lren * 2 ^ 30 + b2n (lren && g.lready && g.faulted k) * 2 ^ 29 + b2n (g.faulted k) * 2 ^ 28 + b2n (g.rb rPins 4) * 16 +
    b2n (g.rb rPins 3) * 8 + b2n (g.rb (rPwr 0xC) 21) * 4 + b2n (g.rb (rPwr 0xC) 28) * 2 + b2n (Config.fuseError k))

/-- The lend-ready timer (R435): a pulse begins where its conditions are met, and ends. -/
def Pkg.lendPulse (g : Pkg) (k : Nat) : Pkg :=
  if g.hk.pulse then g.onHk (fun h => { h with pulse := false })
  else if g.rb rPins 30 && g.lready && !g.faulted k then g.onHk (fun h => { h with pulse := true })
  else g

/-- The levels of FAULT_N, THERM_N and SMB_ALERT_N, true for low (R404, R434, R436, R442). -/
def Pkg.pinLow (g : Pkg) (k : Nat) : Bool × Bool × Bool :=
  if g.extest then (!g.hk.tapCells.testBit 292, !g.hk.tapCells.testBit 293, !g.hk.tapCells.testBit 294)
  else (g.faulted k || g.hk.pulse, g.hk.therm, g.smb)

/-! The boot -/

/-- The load area of a package (R413). -/
def Pkg.loadLoc (g : Pkg) (k : Nat) : Option Loc := g.loadDie.map (fun d => { pk := k, site := d, space := 2, off := 0 })

/-- Header fields of an image. -/
def imgF (h : List Byte) (lo n : Nat) : Nat := leVal ((h.drop lo).take n)

/-- Bytes [lo, hi) of a header are zero. -/
def imgZero (h : List Byte) (lo hi : Nat) : Bool := ((h.drop lo).take (hi - lo)).all (· == 0)

/-- The distinguishing identifier under which an image's signature is verified, "JENINAJO-FW" in ASCII (R414). -/
def fwIdent : List Byte := [0x4A, 0x45, 0x4E, 0x49, 0x4E, 0x41, 0x4A, 0x4F, 0x2D, 0x46, 0x57]

/-- The signed message M of an image: header bytes 0 to 127 and the body (R414). -/
def imgM (img : List Byte) : List Byte := img.take 128 ++ (img.drop 4096).take (imgF img 8 4)

/-- Checks 0x1 to 0x5 of LOAD on a header: the first that fails (R415). -/
def Pkg.headErr (g : Pkg) (k : Nat) (h : List Byte) : Option Nat :=
  let n := imgF h 8 4
  let kidx := imgF h 6 1
  if imgF h 0 4 ≠ 0x464A4E4A ∨ imgF h 4 2 ≠ 1 ∨ n % 4096 ≠ 0 ∨ n < 4096 ∨ 16773120 < n ∨ 4 ≤ kidx ∨ 8 ≤ imgF h 12 1 ∨
      !(imgZero h 13 16 && imgZero h 20 64 && imgZero h 192 4096) then some 1
  else if !(keyProg k).testBit kidx ∨ (g.keyRev k).testBit kidx then some 2
  else if fixLen 32 (Config.sm3 ((h.drop 64).take 64)) ≠ fixLen 32 (Config.keyHash k kidx) then some 3
  else if imgF h 7 1 < g.svnctr k then some 4
  else if floorOf k < imgF h 12 1 ∨ Config.romVersion k < imgF h 16 4 then some 5
  else none

/-- PHASE := FAILED with a code. -/
def Pkg.loadFail (g : Pkg) (e : Nat) : Pkg := (g.bootErr e).setBphase 3

/-- LOAD (R415, R416): the checks up to the signature. -/
def Pack.load (s : Pack) (k : Nat) : Pack :=
  let g := s.g k
  if !g.hubUp then s
  else if g.bphase = 1 ∨ g.bphase = 2 then s.on k (fun g => g.bootErr 8)
  else match g.loadLoc k with
    | none => s.on k (fun g => g.loadFail 7)
    | some l =>
      match g.headErr k (s.bytes l 4096) with
      | some e => s.on k (fun g => g.loadFail e)
      | none => s.on k (fun g => g.setBphase 1)

/-- The signature is verified (R415, R416): the image is installed and the load area zeroed, or the load fails. -/
def Pack.loadComplete (s : Pack) (k : Nat) : Pack :=
  let g := s.g k
  if !g.hubUp ∨ g.bphase ≠ 1 then s
  else match g.loadLoc k with
    | none => s.on k (fun g => g.loadFail 7)
    | some l =>
      let h := s.bytes l 4096
      match g.headErr k h with
      | some e => s.on k (fun g => g.loadFail e)
      | none =>
        let img := h ++ s.bytes { l with off := 4096 } (imgF h 8 4)
        let m := imgM img
        if !Config.sm2Verify fwIdent ((h.drop 64).take 64) m ((h.drop 128).take 64) then s.on k (fun g => g.loadFail 6)
        else
          let dg := fixLen 32 (Config.sm3 m)
          let s := { s with mem := s.mem.filter (fun c => !(decide (l.key ≤ c.1 ∧ c.1 < l.key + 2 ^ 24))) }
          s.on k (fun g =>
            let g := (List.range 8).foldl (fun g w => g.wr (rKey (0x80 + 4 * w)) (wordOf dg w)) { g with fw := img }
            let g := g.wr (rKey 4) (mk32 (imgF h 7 1 * 256 + imgF h 6 1))
            (g.wf (rGateB l.site) 3 0 0).setBphase 2)

/-- A member that MEMBER has added receives the leader's running image (R417): in WAIT or FAILED it is written to the load area and loaded; in VERIFY or RUN it is discarded. -/
def Pack.imagePush (s : Pack) (k : Nat) : Pack :=
  let g := s.g k
  if !g.hubUp ∨ !g.assigned then s
  else match s.at k g.lpos with
    | none => s
    | some j =>
      let x := s.g j
      if j = k ∨ x.bphase ≠ 2 ∨ !x.leads ∨ !x.ld.push.contains g.pos then s
      else
        let s := s.on j (fun x => { x with ld := { x.ld with push := x.ld.push.filter (· != g.pos) } })
        if g.bphase = 1 ∨ g.bphase = 2 then s
        else match g.loadLoc k with
          | none => s.load k
          | some l => (s.store l x.fw).load k

/-! The responders -/

/-- HIF.STAT.READY: every die has finished its start (R371, R412). -/
def Pkg.ready (g : Pkg) : Bool :=
  g.hubUp && (List.range 48).all (fun n => g.siteSt n != .active || mget false g.started n)

/-- An answer of the SPDM responder, which runs on the hub once the package is ready (R373, R412). -/
def Pkg.answer (g : Pkg) (stage : Nat) (r : SpdmResp) : Pkg :=
  if g.ready then g.onHk (fun h => { h with answer := r, spdm := stage }) else g

/-- GET_VERSION: 1.2 and 1.3. -/
def Pkg.getVersion (g : Pkg) : Pkg := g.answer 1 (.version [0x12, 0x13])
/-- GET_CAPABILITIES: CERT_CAP, CHAL_CAP, signed MEAS_CAP, no session. -/
def Pkg.getCapabilities (g : Pkg) : Pkg := g.answer (max g.hk.spdm 2) (.capabilities true true true false)
/-- NEGOTIATE_ALGORITHMS. -/
def Pkg.negotiate (g : Pkg) : Pkg := g.answer (max g.hk.spdm 3) (.algorithms true true true)
/-- GET_DIGESTS: slot 0. -/
def Pkg.getDigests (g : Pkg) (k : Nat) : Pkg := g.answer g.hk.spdm (.digests (fixLen 32 (Config.sm3 (certOf k))))
/-- GET_CERTIFICATE: a portion of slot 0's chain, and how much is left (R421). -/
def Pkg.getCertificate (g : Pkg) (k off len : Nat) : Pkg :=
  if Config.idOk k then
    (let p := ((certOf k).drop off).take len
     g.answer g.hk.spdm (.certificate p ((certOf k).length - off - p.length)))
  else g.answer g.hk.spdm .unspecified
/-- CHALLENGE (R421): what is signed is the transcript that the standard defines (log 7). -/
def Pack.challenge (s : Pack) (k : Nat) (req : List Byte) : Pack :=
  let d := s.draw
  if Config.idOk k then d.2.on k (fun g => g.answer g.hk.spdm (.challengeAuth (fixLen 64 (Config.sm2Sign k d.1 (Config.standardBody 1 0x83 req)))))
  else s.on k (fun g => g.answer g.hk.spdm .unspecified)
/-- GET_MEASUREMENTS (R422). -/
def Pack.getMeasurements (s : Pack) (k : Nat) (req : List Byte) : Pack :=
  let d := s.draw
  d.2.on k (fun g => g.answer g.hk.spdm (.measurements (g.measurements k)
    (fixLen 64 (Config.sm2Sign k d.1 (Config.standardBody 1 0xE0 (req ++ g.measurements k))))))
/-- DOE Discovery and DOE Abort (R373): the protocols are DOE Discovery, 0, and CMA/SPDM, 1. -/
def Pkg.doeDiscovery (g : Pkg) : Pkg := g.answer g.hk.spdm (.discovery [0, 1])
def Pkg.doeAbort (g : Pkg) : Pkg := g.answer 0 .none

/-- An MCTP response: completion code and data (R438). The Husk answers whenever VAON is there. -/
def Pkg.mctp (g : Pkg) (code : Nat) (data : List Byte) : Pkg :=
  if g.hk.vaon then g.onHk (fun h => { h with resp := (code, data) }) else g

/-- Set Endpoint ID, Get Endpoint ID, version 1.3, message types 0x05 and 0x7E (R437). The reserved IDs 0 and 0xFF are refused as DSP0236 has it (log 7). -/
def Pkg.setEid (g : Pkg) (e : Nat) : Pkg :=
  if !g.hk.vaon then g
  else if e % 256 = 0 ∨ e % 256 = 255 then g.mctp 2 []
  else (g.onHk (fun h => { h with eid := e % 256 })).mctp 0 [BitVec.ofNat 8 e]
def Pkg.getEid (g : Pkg) : Pkg := g.mctp 0 [BitVec.ofNat 8 g.hk.eid]
def Pkg.mctpVersion (g : Pkg) : Pkg := g.mctp 0 [1, 3]
def Pkg.mctpTypes (g : Pkg) : Pkg := g.mctp 0 [0x05, 0x7E]

/-- BSEND (R438): a board message is placed in BBUF and BV sets. -/
def Pkg.bsend (g : Pkg) (bs : List Byte) : Pkg :=
  if !g.hk.vaon then g
  else if bs.length = 0 ∨ 256 < bs.length then g.mctp 3 []
  else if g.rb (rHusk 4) 29 then g.mctp 2 []
  else (((g.huskFill 0x200 bs).wf (rHusk 4) 24 16 bs.length).wb (rHusk 4) 29 true).mctp 0 []

/-- HTAKE (R438): HLEN as two bytes, the message, and HV clears. -/
def Pkg.htake (g : Pkg) : Pkg :=
  if !g.hk.vaon then g
  else if !g.rb (rHusk 4) 30 then g.mctp 4 []
  else
    let n := g.rf (rHusk 4) 8 0
    (g.wb (rHusk 4) 30 false).mctp 0 (leBytes n 2 ++ g.huskBytes 0x100 n)

/-- The Alert Response Address is answered (R436). -/
def Pkg.alertResponse (g : Pkg) : Pkg := if g.hk.vaon then { g with smb := false } else g

/-! The TAP -/

/-- IDCODE (R439). -/
def idcode (k : Nat) : Nat := Config.maskRevision k % 16 * 2 ^ 28 + 0x0048 * 2 ^ 12 + Config.jep106 % 2 ^ 11 * 2 + 1

/-- An instruction is shifted in: the capture value of the instruction register shifts out before it (R439). -/
def Husk.shiftIr (h : Husk) (op : Nat) : Husk := { h with tapIr := op, irOut := 1 }

/-- Test-Logic-Reset (R439, R442). -/
def Pkg.tapReset (g : Pkg) : Pkg := g.onHk (fun h => { h with tapIr := 1 })

/-- BYPASS and IDCODE: what shifts out. -/
def Pkg.tapBypass (g : Pkg) : Pkg := g.onHk (fun h => { (h.shiftIr 0xFF) with tapOut := 0 })
def Pkg.tapIdcode (g : Pkg) (k : Nat) : Pkg := g.onHk (fun h => { (h.shiftIr 1) with tapOut := idcode k })

/-- The boundary cells as captured (R441): the sideband pins as the Husk has them, every other pin a free value. -/
def Pkg.capture (g : Pkg) (k free : Nat) : Nat :=
  let low := g.pinLow k
  let c := free % 2 ^ 297
  let keep := c % 2 ^ 289 + c / 2 ^ 295 * 2 ^ 295
  keep + b2n (!g.hk.perst) * 2 ^ 289 + b2n g.hk.pwrok * 2 ^ 290 + b2n (!g.hk.leadLow) * 2 ^ 291 +
    b2n (!low.1) * 2 ^ 292 + b2n (!low.2.1) * 2 ^ 293 + b2n (!low.2.2) * 2 ^ 294

/-- SAMPLE/PRELOAD (R440): the pins are captured and the cells loaded; BYPASS where DBGLOCK = 1. -/
def Pack.tapSample (s : Pack) (k cells : Nat) : Pack :=
  if Config.dbgLock k then s.on k Pkg.tapBypass
  else
    let d := s.draw
    d.2.on k (fun g => g.onHk (fun h => { (h.shiftIr 2) with tapOut := g.capture k d.1, tapCells := cells % 2 ^ 297 }))

/-- EXTEST, EXTEST_PULSE, EXTEST_TRAIN (R440, R442): in P0 and P1 the cells drive the pins, every pack port is DOWN and the host link lost; else BYPASS. -/
def Pack.tapExtest (s : Pack) (k op cells : Nat) : Pack :=
  if Config.dbgLock k || !(s.g k).powered then s.on k Pkg.tapBypass
  else
    let d := s.draw
    let out := (s.g k).capture k d.1
    let s := (List.range 32).foldl (fun s n => s.portDown k n) d.2
    let s := s.hostLinkLost k
    s.on k (fun g => g.onHk (fun h => { (h.shiftIr op) with tapOut := out, tapCells := cells % 2 ^ 297 }))

end Sys2Proof.Machine
end

