-- ==== Sys2Proof/Machine/GateOps.lean ====
section
/-! DEFINITION. Clock gates and timers (R139, R381, R382, R387, R413). -/

set_option linter.unusedVariables false

namespace Sys2Proof.Machine

/-- The package is in the ROM phase (R413). -/
def Pkg.romPhase (g : Pkg) : Bool := g.bphase != 2

/-- A masked write to a gate register `a` with enables in bits [n-1:0] (R378, R382, R413). `held`: clearing the bit is refused, with GREF in `gstat`; `early`: the bit may be set in the ROM phase. -/
def Pkg.gateWrite (g : Pkg) (a gstat n : Nat) (held early : Nat → Bool) (v : W32) : Pkg :=
  (List.range n).foldl (fun (x : Pkg) i =>
    if !bit v (16 + i) then x
    else if bit v i then
      (if g.romPhase && !early i then x.wb (rKey 0) 22 true else x.wb a i true)
    else if x.rb a i && held i then x.wb gstat 0 true
    else x.wb a i false) g

/-- A unit holds work: a thread READY or WAIT, or an instruction its arrays or engines have not completed. -/
def Pkg.unitHeld (g : Pkg) (site u : Nat) : Bool :=
  (List.range 16).any (fun n =>
    let st := (mget ({} : Thread) g.thr (uk site u * 16 + n)).st
    st == .ready || st == .wait) ||
  (g.aops ++ g.eops).any (fun x => x.t.site == site && x.t.unit == u)

/-- An enabled queue has its ring in a place. -/
def Pkg.ringIn (g : Pkg) (test : Nat → Nat → Nat → Bool) : Bool :=
  g.liveQueues.any (fun p =>
    let a := g.qBase p.1 p.2
    test ((a >>> 52) % 64) ((a >>> 48) % 16) (a % 2 ^ 48))

/-- What keeps a die's region buffers, queue engine, collective engine and scale table from being gated. -/
def Pkg.gateBHeld (g : Pkg) (site i : Nat) : Bool :=
  if i < 4 then g.share site i != 0 || g.ringIn (fun s sp o => s == site && sp == 2 && o / 2 ^ 22 == i)
  else if i = 4 then g.liveQueues.any (fun p => p.1 == site)
  else if i = 5 then g.liveQueues.any (fun p => p.1 == site && qClass p.2 == 2)
  else (List.range 2048).any (fun n => g.slotValid site n)

/-- What keeps a hub block from being gated. -/
def Pkg.gate0Held (g : Pkg) (i : Nat) : Bool :=
  match i with
  | 0 => (List.range 1024).any (fun n => g.rb (rStrm n 0) 0 || g.strmValid n)
  | 1 => g.mode != 0
  | 2 => !g.tensors.isEmpty || (List.range 64).any (fun j => g.sEn j)
  | 3 => (List.range 64).any (fun j => g.cEn j) || g.rb (rPerm 0) 31
  | 4 => g.regs.any (fun p => decide (rTmode 0 ≤ p.1 ∧ p.1 ≤ rTmode 16383) && fld p.2 31 30 != 0) || g.takeSt != 0
  | _ => (List.range 64).any (fun n => g.tmrAlloc n)

/-- What keeps stack `j` from being gated. -/
def Pkg.stackHeld (g : Pkg) (j : Nat) : Bool :=
  g.rf rPipeSpill 8 0 != 0 || g.rf rPipeSpill 24 16 != 0 ||
  g.tensors.any (fun t =>
    (List.range (g.repl t * g.nsh t)).any (fun i => g.ownPos (g.own0 t + i) == g.pos && g.ownStack (g.own0 t + i) == j) ||
    ((g.tmodeSet t == 1 || g.tmode t == 1) && (List.range (g.pgroups t)).any (fun m => g.ownPos (g.holder t m) == g.pos && g.ownStack (g.holder t m) == j))) ||
  g.ringIn (fun s sp _ => s == 48 + j && sp == 8) ||
  (let a := g.rd64 (rProt 8) (rProt 0xC)
   a >>> 58 == g.pos && (a >>> 52) % 64 == 48 + j && (a >>> 48) % 16 == 8)

/-- Writes to DIE.GATEUj, GATEC and GATEB. -/
def Pkg.gateUWrite (g : Pkg) (site j : Nat) (v : W32) : Pkg :=
  g.gateWrite (rGateU site j) (rGstat site) 16 (fun i => g.unitHeld site (16 * j + i)) (fun _ => false) v
def Pkg.gateCWrite (g : Pkg) (site : Nat) (v : W32) : Pkg :=
  g.gateWrite (rGateC site) (rGstat site) 16 (fun c => (List.range 4).any (fun i => g.unitOn site (4 * c + i))) (fun _ => false) v
def Pkg.gateBWrite (g : Pkg) (site : Nat) (v : W32) : Pkg :=
  g.gateWrite (rGateB site) (rGstat site) 7 (fun i => g.gateBHeld site i) (fun i => decide (i < 4) && g.loadDie == some site) v

/-- Writes to HUB.GATE0 and GATES. -/
def Pkg.gate0Write (g : Pkg) (v : W32) : Pkg := g.gateWrite rGate0 (hubR 0) 6 (fun i => g.gate0Held i) (fun _ => false) v
def Pkg.gatesWrite (g : Pkg) (v : W32) : Pkg := g.gateWrite rGates (hubR 0) 12 (fun j => g.stackHeld j) (fun _ => false) v

/-- A write of TIMER.REL (R387): frees a timer that TMALLOC took, as TMFREE does. -/
def Pack.timerRel (s : Pack) (k n : Nat) : Pack :=
  if (s.g k).rf (rTmr n 0) 28 27 = 1 then (s.endTimer k n).on k (fun g => g.tmrFree n) else s

/-- A running timer reaches its tick (R105, R139, R237): a collective group's ends its deadline, another's ends every wait that names it. -/
def Pack.timerExpiry (s : Pack) (k n : Nat) : Pack :=
  let g := s.g k
  if 64 ≤ n ∨ !g.rb (rTmr n 0) 29 then s
  else if g.rf (rTmr n 0) 28 27 = 2 then s.deadline k (g.rf (rTmr n 0) 26 21)
  else
    (s.on k (fun g => (g.wr (rTmr n 0) (setF (g.rd (rTmr n 0)) 30 29 2)).wr (rTmr n 4) 0)).endTimer k n

/-- Timers not allocated. -/
def Pkg.tfree (g : Pkg) : Nat := ((List.range 64).filter (fun n => !g.tmrAlloc n)).length

end Sys2Proof.Machine
end

