-- ==== Sys2Proof/Machine/Bus.lean ====
section
/-! DEFINITION. Register space as a master reaches it: access codes, privilege, posted writes, every register's read and write (R6, R7, R368, R374 to R381, R385). -/

set_option linter.unusedVariables false

namespace Sys2Proof

/-- A privileged master: the Husk controller, the host through BAR4 (R6, R380). -/
def Master.priv : Master → Bool
  | .bar4 | .husk => true
  | _ => false

end Sys2Proof

namespace Sys2Proof.Machine

/-- All 32 bits. -/
def all32 : Nat := 0xFFFFFFFF

/-- The privileged fields of the register at an offset of a block, as a mask (R380). -/
def pvMask (b : Blk) (o : Nat) : Nat :=
  match b with
  | .seal => if o = 0 then 0xF else 0
  | .pack =>
    if o = 0x10 ∨ o = 0x14 ∨ o = 0x20 ∨ o = 0x24 ∨ o = 0x28 ∨ (0x100 ≤ o ∧ o < 0x300) then all32
    else if o = 0x18 then 1 else 0
  | .prot => if o = 0 then 0x3FF00000 else if 0x40 ≤ o ∧ o < 0xC0 then all32 else 0
  | .d2d =>
    if 0x100 ≤ o then 0
    else if o % 0x40 = 0 then 0x800 else if o % 0x40 = 4 then 0xFFFF0000
    else if 0xC ≤ o % 0x40 ∧ o % 0x40 < 0x30 then all32 else 0
  | .port => if o % 0x40 = 0 then 2 ^ 27 else 0
  | .gov => if o = 4 then all32 else if o = 8 then 0xFFC00000 else 0
  | .pwr => if o = 0 then 2 ^ 29 else if o = 4 then 0xFFFF else if o = 8 then all32 else if o = 0x14 then 0xFFFF0000 else 0
  | .husk =>
    if o = 0 ∨ o = 0x18 then 2 ^ 30 else if o = 8 then all32 else if o = 0xC then 2 ^ 29
    else if 0x300 ≤ o ∧ o < 0x320 then all32 else 0
  | .fuse | .keyb => all32
  | _ => 0

/-- A register with privileged fields that also has fields any master may write. -/
def mixedReg (b : Blk) (o : Nat) : Bool :=
  match b with
  | .pack => o == 0x18
  | .prot => o == 0
  | .pwr => o == 0
  | .husk => o == 0x18
  | _ => false

/-- The posted fields of a register, but for those that command something, those that the ledger counts, and the stream slots (R10, R379). -/
def pwMask (b : Blk) (o : Nat) : Nat :=
  match b with
  | .stage => (match o % 0x40 with | 0 => 0x0FFF01FF | 4 => 0x3FFFF | 8 => 0x0FFF0FFF | _ => all32)
  | .pipe => if o = 0 then 3 else 0x01FF01FF
  | .mbt => if o % 0x20 = 0 then 0x0F00FFFF else all32
  | .qmap => 0x7F
  | .coll => if o % 0x40 = 0 then 0x1C000FFF else all32
  | .tens => (match o % 0x20 with | 0 => 0x3BFFFFFF | 4 => all32 | 8 => 0xFFFF | _ => 0x3FFF)
  | .own => if o % 8 = 0 then 0xFFFFF000 else 0x4000FFDF
  | .sched => (match o % 0x80 with | 0 => 0x3FC00000 | 0x30 => 0x03FFFFFF | _ => all32)
  | .prot => (match o with | 0 => 0x000EFFFC | 8 | 0xC => all32 | 0x10 => 0xFFF | 0x14 => 0x00FFFFFF | _ => 0xFC003FFF)
  | .stack => if o = 0 then 0x00FF0000 else if o = 0xC then all32 else 2 ^ 31
  | .port => if o % 0x40 = 0 then 2 ^ 27 else all32
  | .errlog => 0x3FF
  | .pwr => (match o with | 0 => 2 ^ 29 | 4 => 0xFFFF | 0x14 => 0xFFFF0000 | _ => 0)
  | .husk => (match o with | 0 | 0x18 => 2 ^ 30 | 4 => 0x1FF | 8 => all32 | _ => 0)
  | _ => 0

/-- The register whose BUSY bit covers a posted register (R379). -/
def busyKey (site : Nat) (b : Blk) (o : Nat) : Option Nat :=
  match b with
  | .stage => if o < 0x200 ∧ o % 0x40 % 0x20 ≤ (if o % 0x40 < 0x20 then 0x10 else 0x1C) then some (rStage (o / 0x40) 0) else none
  | .pipe => if o = 0 ∨ o = 4 then some rPipeMode else none
  | .mbt => if o % 0x20 ∈ [0, 4, 8, 0x14, 0x18, 0x1C] then some (rMbt (o / 0x20) 0) else none
  | .qmap => some (rQmap (o / 4))
  | .coll => if o % 0x40 ≤ 0xC then some (rColl (o / 0x40) 0) else none
  | .stream => if o % 0x40 ≤ 0x10 then some (rStrm (o / 0x40) 0) else none
  | .tens => if o % 0x20 ≤ 0xC then some (rTens (o / 0x20) 0) else none
  | .own => some (rOwn (o / 8) 4)
  | .sched => if o % 0x80 ≤ 0x30 then some (rSched (o / 0x80) 0) else none
  | .prot => if o = 0 ∨ (8 ≤ o ∧ o ≤ 0x14) ∨ 0x10000 ≤ o then some (rProt 0) else none
  | .stack => if o = 0 ∨ o = 0xC ∨ o = 0x50 ∨ o = 0x54 then some (rk site 0) else none
  | .port => if o % 0x40 = 0 ∨ o % 0x40 = 0x10 ∨ o % 0x40 = 0x14 then some (rk site (0x3000 + o / 0x40 * 0x40)) else none
  | .errlog => if o = 8 then some rErrCtl else none
  | .pwr => if o = 0 ∨ o = 4 ∨ o = 8 ∨ o = 0x14 then some (rPwr 0) else none
  | .husk => if o = 0 then some (rHusk 0) else if o = 4 ∨ o = 8 then some (rHusk 4) else if o = 0x18 then some rPins else none
  | .fuse => if o = 0 then some (rFuse 0) else none
  | .keyb => if o = 0 then some (rFuse 0) else none
  | _ => none

/-- A field that a write fills with a value its definition forbids and does not refuse (R368): the place of the field. -/
def forbidden (b : Blk) (o : Nat) (v : W32) : Option (Nat × Nat) :=
  match b with
  | .stage => if o % 0x40 = 0 ∧ 512 < fld v 25 16 then some (25, 16) else none
  | .mbt => if o % 0x20 = 0 ∧ 6 ≤ fld v 26 24 then some (26, 24) else none
  | .husk => if o = 4 ∧ 256 < fld v 8 0 then some (8, 0) else none
  | .prot => if 0x10000 ≤ o ∧ fld v 31 30 = 3 then some (31, 30) else none
  | _ => none

/-- A completion abort is logged (R366): its cause, the BAR, the address or offset. -/
def Pkg.calog (g : Pkg) (cause bar addr : Nat) : Pkg :=
  ((g.hwr 4 (mk32 (2 ^ 31 + cause * 2 ^ 28 + bar))).hwr 8 (mk32 (addr % 2 ^ 32))).hwr 0xC (mk32 (addr / 2 ^ 32))

/-- What a refused register access leaves behind for its master (R381, R446). A thread's own fault is its store's or load's. -/
def Pkg.refusedFor (g : Pkg) (m : Master) (gated : Bool) (addr : Nat) : Pkg :=
  match m with
  | .host => g.calog (if gated then 2 else 1) 0 addr
  | .bar4 => g.calog (if gated then 2 else 1) 2 addr
  | .engine site kind => g.engErr site 0xFF kind addr
  | _ => g

/-- A write of ERRLOG.TAIL (R315, R436). -/
def Pkg.tailWrite (g : Pkg) (v : Nat) : Pkg :=
  let g := g.wf rErrTail 9 0 v
  if g.rf rErrTail 9 0 = g.rf rErrHead 9 0 then { g with smb := false } else g

/-- A queue is enabled at its home. -/
def Pkg.qLive (g : Pkg) (q : Nat) : Bool :=
  match g.home q with
  | some site => g.qEn site q
  | none => false

/-- A write to QMAP (R142, R143): ignored and logged while the queue is enabled at its home, or for a HOME that is no die. -/
def Pkg.qmapWrite (g : Pkg) (q : Nat) (v : W32) : Pkg :=
  let h := fld v 5 0
  if g.qLive q ∨ 48 ≤ h ∨ g.hole h then g.logHub 0x0103 q h 0
  else g.wr (rQmap q) (mk32 (fld v 6 0))

/-- Credits or releases of a queue may let the delta writer go on, and the pack leave HELD (R336, R338). -/
def Pack.dqWake (s : Pack) (k : Nat) : Pack :=
  let s := s.dqRun k
  match s.at k (s.g k).lpos with
  | some l => s.tryResume l
  | none => s

/-- A doorbell, and what its release lets go on (R154, R336). -/
def Pack.doorRun (s : Pack) (k site q op n upset : Nat) : Pack :=
  let s := s.door k site q op n upset
  if op = 3 then s.dqWake k else s

/-- A write to a register of a queue (R154, R159). -/
def Pack.queueWrite (s : Pack) (k site q o : Nat) (v : W32) (x : WrX) : Pack :=
  match o with
  | 0 => s.qCfgWrite k site q v
  | 4 | 8 => s.on k (fun g => if g.qEn site q then g else g.wr (rQ site q o) v)
  | 0x1C => s.on k (fun g => g.wf (rQ site q 0x1C) 3 0 (g.rf (rQ site q 0x1C) 3 0 &&& (15 - fld v 3 0)))
  | 0x2C => s.doorRun k site q (fld v 31 30) (fld v 15 0) x.upset
  | _ => s

/-- A write to a register of PACK (R294, R296, R299). -/
def Pack.packWrite (s : Pack) (k o : Nat) (v : W32) : Pack :=
  match o with
  | 0x10 => s.memNext k false v
  | 0x14 => s.memNext k true v
  | 0x18 => s.on k (fun g => let g := g.packStat v; if bit v 0 then g.assignReq else g)
  | 0x20 => s.on k (fun g => g.wr (hubR 0x7020) (mk32 (fld v 24 19 * 2 ^ 19 + fld v 18 14 * 2 ^ 14 + fld v 5 0)))
  | 0x24 | 0x28 => s.on k (fun g => g.wr (hubR (0x7000 + o)) v)
  | _ =>
    if 0x100 ≤ o ∧ o < 0x300 then
      s.on k (fun g => g.wr (hubR (0x7000 + o)) (if o % 8 = 0 then v else mk32 (fld v 3 0)))
    else s

/-- A write to a register of PWR (R395 to R398, R404). -/
def Pack.pwrWrite (s : Pack) (k o : Nat) (v : W32) (x : WrX) : Pack :=
  match o with
  | 0 => s.on k (fun g => (g.wb (rPwr 0) 30 (g.rb (rPwr 0) 30 && !bit v 30)).wb (rPwr 0) 29 (bit v 29))
  | 4 => s.on k (fun g => g.limitWrite (fld v 15 0))
  | 8 => s.pwrCmd k v x.stuck x.tests
  | 0xC => s.on k (fun g =>
      ((g.wb (rPwr 0xC) 28 (g.rb (rPwr 0xC) 28 && !bit v 28)).wb (rPwr 0xC) 19 (g.rb (rPwr 0xC) 19 && !bit v 19)).thermLook k)
  | 0x14 => s.on k (fun g => g.wf (rPwr 0x14) 31 16 (fld v 31 16))
  | _ => s

/-- A write to a register of HUSK (R389, R405 to R408, R434 to R436). -/
def Pack.huskWrite (s : Pack) (k o : Nat) (v : W32) : Pack :=
  if o = 0 then s.on k (fun g => g.wb (rHusk 0) 30 (bit v 30))
  else if o = 4 then s.on k (fun g => g.mbctlWrite v)
  else if o = 8 then s.isoWrite k v
  else if o = 0xC then (if bit v 29 then s.qreq k else s)
  else if o = 0x18 then s.on k (fun g => (g.wb rPins 4 (g.rb rPins 4 && !bit v 4)).wb rPins 30 (bit v 30))
  else if 0x100 ≤ o ∧ o < 0x200 then s.on k (fun g => g.wr (rHusk o) v)
  else if 0x300 ≤ o ∧ o < 0x320 then s.on k (fun g => g.nonceWrite ((o - 0x300) / 4) v)
  else s

/-- A write to a register of KEY (R413, R415). -/
def Pack.keyWrite (s : Pack) (k o : Nat) (v : W32) : Pack :=
  if o = 0 then
    let s := s.on k (fun g => g.wb (rKey 0) 22 (g.rb (rKey 0) 22 && !bit v 22))
    if bit v 23 then s.load k else s
  else s

/-- A write to a register of PROT (R329, R343, R347, R352). -/
def Pack.protWrite (s : Pack) (k o : Nat) (v : W32) (x : WrX) : Pack :=
  if o = 0 then s.protCtl k v x.cuts x.crc
  else if o = 4 then s.on k (fun g => g.wb (rProt 4) 27 (g.rb (rProt 4) 27 && !bit v 27))
  else if o = 8 ∨ o = 0xC then s.on k (fun g => g.wr (rProt o) v)
  else if o = 0x10 then s.on k (fun g => g.wr (rProt 0x10) (mk32 (fld v 11 0)))
  else if o = 0x14 then s.on k (fun g => g.wr (rProt 0x14) (mk32 (fld v 23 0)))
  else if o = 0x1C then s.on k (fun g => g.wr (rProt 0x1C) v)
  else if 0x40 ≤ o ∧ o < 0xC0 then
    let n := (o - 0x40) / 16
    match (o - 0x40) % 16 with
    | 0 | 4 => s.on k (fun g => g.wr (rProt o) v)
    | 8 => s.on k (fun g => g.spareWrite n v)
    | _ => s
  else if 0x10000 ≤ o then s.on k (fun g => g.tmodeWrite ((o - 0x10000) / 4) v)
  else s

/-- The write a block performs at an offset of its own: every field by its access code (R6). -/
def Pack.blkWrite (s : Pack) (k site : Nat) (b : Blk) (o : Nat) (v : W32) (x : WrX) : Pack :=
  match b with
  | .die =>
    match o with
    | 0 => s.on k (fun g => g.wr (rGstat site) (mk32 (g.rf (rGstat site) 3 0 &&& (15 - fld v 3 0))))
    | 4 | 8 | 0xC | 0x10 => s.on k (fun g => g.gateUWrite site (o / 4 - 1) v)
    | 0x14 => s.on k (fun g => g.gateCWrite site v)
    | 0x18 => s.on k (fun g => g.gateBWrite site v)
    | 0x1C => s.on k (fun g => g.kshrWrite site v)
    | _ => s
  | .d2d => s.on k (fun g => g.d2dWrite site o v)
  | .clus => if o < 0x80 then s.on k (fun g => g.tmapWrite site (o / 8) (o % 8 / 4) v) else s
  | .port =>
    match portSites.findIdx? (· == site) with
    | some i => if o < 0x100 then s.portWrite k (4 * i + o / 0x40) (o % 0x40) true v else s
    | none => s
  | .gov =>
    match o with
    | 4 | 0x10 => s.on k (fun g => g.wr (rGov site o) v)
    | 8 => s.on k (fun g => g.wf (rGov site 8) 31 22 (fld v 31 22))
    | 0xC => s.on k (fun g => g.wf (rGov site 0xC) 15 0 (fld v 15 0))
    | _ => s
  | .mbtr | .ledger | .fuse =>
    if b = .fuse ∧ o = 0 then
      s.on k (fun g => let g := if bit v 4 then g.advSvn k else g; g.revoke k (fld v 3 0))
    else s
  | .unit => s.unitWrite k site (o / 0x400) (o % 0x400) v
  | .scale => s.on k (fun g => g.scaleWrite site (o / 0x80) (o % 0x80) v)
  | .queue => s.queueWrite k site (o / 0x40) (o % 0x40) v x
  | .stack => s.on k (fun g => g.stackWrite (site - 48) o v)
  | .hub =>
    match o with
    | 0 => s.on k (fun g => g.wr (hubR 0) (mk32 (g.rf (hubR 0) 0 0 &&& (1 - fld v 0 0))))
    | 4 => s.on k (fun g => g.gate0Write v)
    | 8 => s.on k (fun g => g.gatesWrite v)
    | _ => s
  | .timer => if o < 0x200 ∧ o % 8 = 0 ∧ bit v 0 then s.timerRel k (o / 8) else s
  | .seal => if o = 0 then s.sealCtl k v else s
  | .perm =>
    let s := s.on k (fun g => g.permWrite o v)
    if o = 0 ∧ bit v 0 then s.permStart k else s
  | .pipe => if o = 0 then s.modeWrite k v else if o = 4 then s.on k (fun g => g.spillWrite v) else s
  | .stage => if o < 0x200 then s.on k (fun g => g.stageWrite (o / 0x40) (o % 0x40) v) else s
  | .pack => s.packWrite k o v
  | .coll => s.on k (fun g => g.collWrite (o / 0x40) (o % 0x40) v)
  | .sched => s.schedWrite k (o / 0x80) (o % 0x80) v x.ecc
  | .qmap => s.on k (fun g => g.qmapWrite (o / 4) v)
  | .mbt => s.on k (fun g => g.mbtWrite (o / 0x20) (o % 0x20) v)
  | .pwr => s.pwrWrite k o v x
  | .husk => s.huskWrite k o v
  | .keyb => s.keyWrite k o v
  | .errlog => if o = 8 then s.on k (fun g => g.tailWrite (fld v 9 0)) else s
  | .stream => if o % 0x40 ≤ 0x10 then s.on k (fun g => g.strmWrite (o / 0x40) (o % 0x40) v) else s
  | .prot => s.protWrite k o v x
  | .own => s.on k (fun g => g.ownWrite (o / 8) (o % 8 == 4) v)
  | .tens => s.on k (fun g => g.tensWrite (o / 0x20) (o % 0x20) v)

/-- A write that comes while BUSY reads 1 (R10, R368): the posted fields addressed are free values, within what the master may write. -/
def Pack.busyWrite (s : Pack) (k site : Nat) (b : Blk) (o a : Nat) (priv : Bool) : Pack :=
  let d := s.draw
  if b = .stream then d.2.on k (fun g => g.strmWrite (o / 0x40) (o % 0x40) (mk32 (d.1 % 2 ^ 32)))
  else if b = .qmap ∧ (s.g k).qLive (o / 4) then s
  else
    let m := BitVec.ofNat 32 (pwMask b o) &&& (if priv then BitVec.allOnes 32 else ~~~ BitVec.ofNat 32 (pvMask b o))
    d.2.on k (fun g => g.wr a ((g.rd a &&& ~~~ m) ||| (BitVec.ofNat 32 d.1 &&& m)))

/-- A write of a word at a register that is served (R6, R368, R379, R380). A posted one sets BUSY and has its effect, its checks and refusals with it, once it has reached its domain and every replica (R379, log 35); the stream slots stage theirs (R79). -/
def Pack.regWrite (s : Pack) (k : Nat) (m : Master) (site : Nat) (b : Blk) (o off : Nat) (v : W32) (x : WrX) : Pack :=
  let a := rk site off
  let pv := BitVec.ofNat 32 (pvMask b o)
  if !m.priv && pvMask b o != 0 && !mixedReg b o then s
  else
    let w := if m.priv then v else (v &&& ~~~ pv) ||| ((s.g k).rd a &&& pv)
    let d := s.draw
    let r : W32 × Pack := match forbidden b o w with
      | some (hi, lo) => (setF w hi lo d.1, d.2)
      | none => (w, s)
    match busyKey site b o with
    | none => r.2.blkWrite k site b o r.1 x
    | some key =>
      if (s.g k).busy.contains key then s.busyWrite k site b o a m.priv
      else
        let s := r.2.on k (fun g => { g with busy := key :: g.busy })
        if b = .stream then s.blkWrite k site b o r.1 x
        else s.on k (fun g => { g with posts := g.posts ++ [{ key := key, site := site, off := off, v := r.1, x := x }] })

/-- The blocks of the Husk domain, which a package without its hub still serves to the Husk (R405, R406). -/
def Blk.husk' : Blk → Bool
  | .pwr | .husk | .fuse | .keyb | .errlog => true
  | _ => false

/-- A write by a master to a register of package `k` (R374 to R381): served, or refused as R381 and R30 say. -/
def Pack.busWrite (s : Pack) (k : Nat) (m : Master) (site off : Nat) (v : W32) (x : WrX := {}) : Pack :=
  let g := s.g k
  let addr := gaddr g.pos site 3 off
  match blockOf site off with
  | none => if g.hubUp then s.on k (fun g => g.refusedFor m false addr) else s
  | some (b, o) =>
    if !g.hubUp then (if m = .husk ∧ b.husk' ∧ g.hk.vaon then s.regWrite k m site b o off v x else s)
    else if off % 4 ≠ 0 then (match m with
      | .host => s.on k (fun g => g.calog 3 0 addr)
      | .bar4 => s.on k (fun g => g.calog 3 2 addr)
      | _ => s)
    else match g.place k site 3 off with
      | .ok _ => s.regWrite k m site b o off v x
      | .gated => s.on k (fun g => g.refusedFor m true addr)
      | .invalid => s.on k (fun g => g.refusedFor m false addr)

/-- The word a register holds, before BUSY and privilege: stored, or derived from what the machine holds. TIMER.REM of a running timer is a free value, for the model has no clock. -/
def Pack.blkRead (s : Pack) (k site : Nat) (b : Blk) (o off : Nat) : W32 × Pack :=
  let g := s.g k
  let w := g.rd (rk site off)
  match b with
  | .unit => s.unitRead k site (o / 0x400) (o % 0x400)
  | .d2d => (if o = 0x100 then g.dieWord k site else g.d2dRead k site o, s)
  | .port =>
    (if o % 0x40 = 0 then
       match portSites.findIdx? (· == site) with
       | some i => setF w 4 0 (4 * i + o / 0x40)
       | none => w
     else w, s)
  | .gov => (if o = 8 then setF w 19 10 (tripOf k site) else if o = 0xC then g.clkWord site else w, s)
  | .mbtr => (g.rd (hubR (0x10000 + o)), s)
  | .queue => (if o % 0x40 = 0x14 then g.qcount site (o / 0x40) else if o % 0x40 = 0x2C then 0 else w, s)
  | .stack => (if o = 8 then mk32 (topRise k (site - 48)) else w, s)
  | .hub => (if o = 0xC then mk32 g.tfree else if o = 0x10 then setF w 2 0 (floorOf k) else w, s)
  | .timer =>
    if o = 0x200 then (mk32 g.tfree, s)
    else if o < 0x200 ∧ o % 8 = 4 ∧ g.rb (rTmr (o / 8) 0) 29 then
      (let d := s.draw
       (mk32 (d.1 % 2 ^ 32), d.2))
    else (w, s)
  | .seal =>
    let wait := g.mem &&& ((2 ^ 64 - 1) - (g.ld.ready.filter (fun m => m.step == g.step)).foldl (fun n m => n ||| 2 ^ (m.pos % 64)) 0)
    (if o = 4 then setB w 3 g.leads
     else if o = 0x10 then (if g.leads then mk32 (wait % 2 ^ 32) else 0)
     else if o = 0x14 then (if g.leads then mk32 (wait / 2 ^ 32) else 0)
     else w, s)
  | .pwr => (if o = 0xC then g.pwrStat else if o = 0x14 then setF w 15 0 g.pw.pool else if o = 8 then 0 else w, s)
  | .husk => (if o = 0x18 then g.pinsWord k else if o = 0xC then setB w 31 g.hk.quote.isSome else w, s)
  | .fuse => (g.fuseRead k o, s)
  | .keyb => (g.keyRead k o, s)
  | .errlog =>
    if 0x1000 ≤ o ∧ o < 0x9000 then
      (let r := mget noRec g.log ((o - 0x1000) / 32)
       let i := (o - 0x1000) % 32 / 4
       (match i with
        | 0 => mk32 (r.code + (if r.code = 0 then 0 else codeClass r.code) * 2 ^ 16 + r.pos * 2 ^ 24)
        | 1 => mk32 (r.site + r.unit * 2 ^ 8 + r.thr * 2 ^ 16)
        | 2 => mk32 r.step
        | 3 => mk32 r.epoch
        | 4 => mk32 r.seq
        | 5 => mk32 r.a0
        | 6 => mk32 r.a1
        | _ => mk32 r.a2, s))
    else (w, s)
  | .prot => (if o = 4 then setB w 26 g.lready else w, s)
  | _ => (w, s)

/-- The register at an offset, as a master reads it: BUSY, and zero in the fields it may not see (R6, R379, R380). -/
def Pack.regWord (s : Pack) (k : Nat) (m : Master) (site : Nat) (b : Blk) (o off : Nat) : W32 × Pack :=
  let r := s.blkRead k site b o off
  -- a PW field reads what was written last (R379); EN of a tensor reads what R204 says
  let pw := BitVec.ofNat 32 (pwMask b o) &&& (if b = .tens ∧ o % 0x20 = 0 then 0xDFFFFFFF#32 else 0xFFFFFFFF#32)
  let x := match ((s.g k).posts.filter (fun p => p.site == site && p.off == off)).getLast? with
    | some p => (r.1 &&& ~~~ pw) ||| (p.v &&& pw)
    | none => r.1
  let w := if (s.g k).busy.contains (rk site off) then setB x 31 true else x
  (if m.priv then w else w &&& ~~~ BitVec.ofNat 32 (pvMask b o), r.2)

/-- A register of package `k` as a master reads it, at a place that is served. -/
def Pack.regRead (s : Pack) (k : Nat) (m : Master) (site off : Nat) : W32 × Pack :=
  match blockOf site off with
  | some (b, o) => s.regWord k m site b o off
  | none => (0, s)

/-- A posted write takes effect at its block (R379). -/
def Pack.land (s : Pack) (k : Nat) (p : Post) : Pack :=
  match blockOf p.site p.off with
  | some (b, o) => s.blkWrite k p.site b o p.v p.x
  | none => s

/-- A posted write has reached its domain and every replica (R379): BUSY clears, and the write takes effect, or a stream slot's values do. -/
def Pack.postedDone (s : Pack) (k site off : Nat) : Pack :=
  let a := rk site off
  if !(s.g k).busy.contains a then s
  else
    let ps := (s.g k).posts.filter (fun p => p.key == a)
    let s := s.on k (fun g => { g with busy := g.busy.filter (· != a), posts := g.posts.filter (fun p => p.key != a) })
    let s := ps.foldl (fun s p => s.land k p) s
    if hubR 0x30000 ≤ a ∧ a < hubR 0x40000 then s.on k (fun g => g.strmLand ((a - hubR 0x30000) / 0x40)) else s

end Sys2Proof.Machine
end

