-- ==== Sys2Proof/Machine/EventOps.lean ====
section
/-! DEFINITION. What arrives at units and engines: responses, acknowledgements, tokens, grants, ends of operations (R92, R94, R101, R103, R106, R107, R111, R131, R153, R156, R175, R307, R308, R448). -/

set_option linter.unusedVariables false

namespace Sys2Proof.Machine

/-! Loads and stores -/

/-- The key of the byte at an address as thread `t` names it. -/
def Pack.accKey (s : Pack) (t : Tid) (a : Nat) : Option Nat :=
  match s.where' t.pkg (some t.site) a with
  | .ok l => some ((s.g l.pk).ringLoc l).key
  | _ => none

/-- An access meets one of several address ranges. -/
def Pack.meets (s : Pack) (t : Tid) (a n : Nat) (rs : List (Nat × Nat)) : Bool :=
  match s.accKey t a with
  | none => false
  | some x => rs.any (fun r => match s.accKey t r.1 with
    | some y => decide (x < y + r.2 ∧ y < x + n)
    | none => false)

/-- The address ranges of a view: its rows and its block exponents (R120). -/
def Tile.ranges (d : Tile) (rows cols : Nat) : List (Nat × Nat) :=
  (List.range rows).map (fun r => (d.elem r 0, rowBytes d.fmt cols)) ++
    (if !d.blk then []
     else if d.baxis == 0 then (List.range rows).map (fun r => (d.beAddr r 0, cols / 32))
     else (List.range (rows / 32)).map (fun r => (d.beAddr (32 * r) 0, cols)))

/-- The status word of a descriptor, where it names one. -/
def Tile.statRange (d : Tile) : List (Nat × Nat) := if d.stat = 0 then [] else [(d.stat, 4)]

/-- What an operation writes as a write of its thread (R108). -/
def OpRec.outs (r : OpRec) : List (Nat × Nat) :=
  match r.op with
  | .epi =>
    if r.f.ib 2 then []
    else r.td.ranges 32 32 ++ r.td.statRange ++ (if r.f.b.toNat != 31 then r.tb.ranges 32 32 ++ r.tb.statRange else [])
  | .fnv | .fnd | .cvt => (if r.f.ib 2 then [] else r.td.ranges 32 32) ++ r.td.statRange
  | .randt => [(r.td.base, 16 * (r.f.i 18 11 + 1))]
  | _ => []

/-- Everything an operation writes in memory (R108, R127, R131, R135 to R137). -/
def OpRec.writes (r : OpRec) : List (Nat × Nat) :=
  match r.op with
  | .kfetch => r.td.ranges 32 32
  | .gather => r.td.ranges 32 (32 * (r.f.i 10 3 + 1))
  | .qpop => [((r.v.getD 0 0).toNat, 64 * r.f.i 7 0)]
  | .contrib => if r.f.ib 0 then r.td.statRange else []
  | _ => r.outs

/-- What an operation reads in memory. -/
def OpRec.ins (r : OpRec) : List (Nat × Nat) :=
  match r.op with
  | .mma => let e := mmaExt r.f; r.ta.ranges e.1.1 e.1.2 ++ r.tb.ranges e.2.1 e.2.2
  | .mmb => r.ta.ranges 32 32 ++ r.tb.ranges 32 32 ++ r.tc.ranges 32 32
  | .epi => (if r.f.ib 3 then [((r.v.getD 0 0).toNat, 32 * fmtBytes (biasFmt (r.f.i 5 4)))] else []) ++
      (if r.f.ib 7 then [((r.v.getD 1 0).toNat, 1552)] else [])
  | .fnv | .fnd | .cvt => r.ta.ranges 32 32 ++ (if r.op == .fnd then r.tb.ranges 32 32 else []) ++ [((r.v.getD 0 0).toNat, 1552)]
  | .kstash => r.ta.ranges 32 32
  | .contrib => if r.f.ib 0 then [] else r.ta.ranges 32 32
  | .qpush => [((r.v.getD 0 0).toNat, 64 * r.f.i 7 0)]
  | _ => []

/-- The accesses in flight of a thread that are older than `seq`, and the output writes still to come. -/
def Pkg.olderStores (g : Pkg) (t : Tid) (seq : Nat) : List (Nat × Nat) :=
  (g.stores.filter (fun x => x.t == t && decide (x.seq < seq) && !x.stuck)).map (fun x => (x.addr.toNat, x.size))
def Pkg.olderLoads (g : Pkg) (t : Tid) (seq : Nat) : List (Nat × Nat) :=
  (g.loads.filter (fun x => x.t == t && decide (x.seq < seq) && !x.stuck)).map (fun x => (x.addr.toNat, x.size))
def Pack.olderOuts (s : Pack) (t : Tid) (seq : Nat) : List (Nat × Nat) :=
  ((s.opsOf t).filter (fun x => decide (x.seq < seq))).flatMap OpRec.writes

/-- A thread's access may be performed: its own older accesses to the address have been, those of its operations included (R106, R108; log 111). -/
def Pack.inOrder (s : Pack) (t : Tid) (seq a n : Nat) : Bool :=
  let g := s.g t.pkg
  !s.meets t a n (g.olderStores t seq ++ g.olderLoads t seq ++ s.olderOuts t seq)

/-- Operations that an access to a status word still waits for, given those in front of it when it reached the array (R63, R448); none for another register. -/
def Pack.statusTurn (s : Pack) (p : Loc) (reach : Option Nat) : Nat :=
  match accstOf p.site p.off with
  | some (u, arr, n) =>
    let a := (s.g p.pk).tileAhead p.site u arr n
    match reach with
    | some m => min m a
    | none => a
  | none => 0

/-- A write by a thread to a register that is served; a status word has its turn. -/
def Pack.regStore (s : Pack) (p : Loc) (v : W32) : Pack :=
  match accstOf p.site p.off with
  | some (u, arr, n) => s.on p.pk (fun g => g.accWrite p.site u arr n v)
  | none => s.busWrite p.pk .thread p.site p.off v

/-- What a master read, where the outside can see it: the model's own record. -/
def Pkg.readBack (g : Pkg) (w : W32) : Pkg := g.onHk (fun h => { h with cpl := .data (leBytes w.toNat 4) })

/-- A waiting access of a master to a status word is performed. -/
def Pack.accDo (s : Pack) (k : Nat) (x : AccReq) : Pack :=
  match x.w with
  | some v => s.on k (fun g => g.accWrite x.site x.unit x.arr x.tile v)
  | none =>
    let r := s.accRead k x.site x.unit x.arr x.tile
    r.2.on x.src (fun g => g.readBack r.1)

/-- An access in flight of a thread is to the status word of a tile that `r` works on. -/
def Pack.accOn (s : Pack) (r : OpRec) (t : Tid) (a : Nat) : Bool :=
  match s.accTarget t a with
  | some (pk, site, u, arr, n) => pk == r.t.pkg && site == r.t.site && u == r.t.unit && r.tiles.contains (arr, n)
  | none => false

/-- An access to a status word stands directly in front of an operation at its array (R63, R448). -/
def Pack.accFirst (s : Pack) (r : OpRec) : Bool :=
  s.pkgs.any (fun p => p.2.loads.any (fun l => l.reach == some 0 && s.accOn r l.t l.addr.toNat) ||
    p.2.stores.any (fun l => l.reach == some 0 && s.accOn r l.t l.addr.toNat))

/-- An operation has left its array: accesses to the status words of its tiles move up, and those of masters whose turn it is are performed (R448). -/
def Pack.tilesDone (s : Pack) (r : OpRec) : Pack :=
  let k := r.t.pkg
  let mine (x : AccReq) : Bool := x.site == r.t.site && x.unit == r.t.unit && r.tiles.contains (x.arr, x.tile)
  let up (t : Tid) (a : Nat) (x : Option Nat) : Option Nat := if x.isSome && s.accOn r t a then x.map (· - 1) else x
  let s := { s with pkgs := mmap (fun _ (g : Pkg) => { g with
    loads := g.loads.map (fun (l : Load) => { l with reach := up l.t l.addr.toNat l.reach }),
    stores := g.stores.map (fun (l : Store) => { l with reach := up l.t l.addr.toNat l.reach }) }) s.pkgs }
  let q := (s.g k).accq.map (fun (x : AccReq) => if mine x then { x with ahead := x.ahead - 1 } else x)
  let s := s.on k (fun g => { g with accq := q.filter (fun x => !(x.ahead == 0)) })
  (q.filter (fun x => x.ahead == 0)).foldl (fun s x => s.accDo k x) s

/-- A master's read of a status word: performed at its turn, else it waits at the array (R448). -/
def Pack.accAsk (s : Pack) (k src site u arr n : Nat) : Pack :=
  let a := (s.g k).tileAhead site u arr n
  let x : AccReq := { site := site, unit := u, arr := arr, tile := n, src := src, w := none, ahead := a }
  if a = 0 then s.accDo k x else s.on k (fun g => { g with accq := g.accq ++ [x] })

/-- The threads of a unit that wait for memory are looked at again. -/
def Pkg.wakeUnit (g : Pkg) (t : Tid) : Pkg :=
  (List.range 16).foldl (fun g n => g.wake t.pkg { t with thr := n }) g

/-- A load that is in flight no longer. -/
def Pkg.dropLoad (g : Pkg) (l : Load) : Pkg := { g with loads := g.loads.filter (fun x => !(x == l)) }

/-- A number of `size` bytes extended to 64 bits (R119). -/
def extendTo (size v : Nat) (sx : Bool) : Word :=
  let w := 8 * size
  if sx && decide (2 ^ (w - 1) ≤ v % 2 ^ w) then BitVec.ofNat 64 (2 ^ 64 + v % 2 ^ w - 2 ^ w) else BitVec.ofNat 64 (v % 2 ^ w)

/-- The `i`-th load in flight of package `k` is performed and its response arrives (R98, R106, R111, R255). -/
def Pack.loadResponse (s : Pack) (k i : Nat) (ecc : Ecc) : Pack :=
  match (s.g k).loads[i]? with
  | none => s
  | some l =>
    let t := l.t
    let fault (c : Nat) : Pack := ((s.on k (fun g => g.dropLoad l)).faultAt t l.pc c (some l.addr)).on k (fun g => g.wakeUnit t)
    let done (v : Word) (s : Pack) : Pack := s.on k (fun g => ((g.dropLoad l).onTh t (fun x => x.setS l.d v)).wakeUnit t)
    if l.stuck || !s.inOrder t l.seq l.addr.toNat l.size then s
    else match s.where' k (some t.site) l.addr.toNat with
      | .invalid => fault 1
      | .gated => fault 2
      | .ok p =>
        if p.space = 3 then
          let m := s.statusTurn p l.reach
          if m ≠ 0 then
            s.on k (fun g => { g with loads := g.loads.map (fun x => if x = l then { x with reach := some m } else x) })
          else
            let r := s.regRead p.pk .thread p.site p.off
            done (extendTo 4 r.1.toNat l.sx) r.2
        else
          if s.chWaits p then s
          else
          let s := s.eccAt (whoT t) p ecc
          if ecc = .ue then
            s.on k (fun g => { g with loads := g.loads.map (fun x => if x = l then { x with stuck := true } else x) })
          else done (extendTo l.size (leVal (s.bytes p l.size)) l.sx) s

/-- Position and site of an address, the alias 63 resolved (R29). -/
def homeOf (t : Tid) (a : Nat) : Nat × Nat := (a / 2 ^ 58 % 64, if a / 2 ^ 52 % 64 = 63 then t.site else a / 2 ^ 52 % 64)

/-- Older stores of a thread to the site of a store are performed first (R94). -/
def Pack.siteOrder (s : Pack) (x : Store) : Bool :=
  (s.g x.t.pkg).stores.all (fun y => !(y.t == x.t && !y.stuck && decide (y.seq < x.seq) && homeOf x.t y.addr.toNat == homeOf x.t x.addr.toNat))

/-- The `i`-th store in flight of package `k` is performed at its home and acknowledged (R94, R98, R106, R111, R255). -/
def Pack.storeAck (s : Pack) (k i : Nat) (ecc : Ecc) : Pack :=
  match (s.g k).stores[i]? with
  | none => s
  | some x =>
    let t := x.t
    let s1 := s.on k (fun g => { g with stores := g.stores.filter (fun y => !(y == x)) })
    let fin (s : Pack) : Pack := s.on k (fun g => g.wakeUnit t)
    if x.stuck || !s.siteOrder x || !s.inOrder t x.seq x.addr.toNat x.size then s
    else match s.where' k (some t.site) x.addr.toNat with
      | .invalid => fin (s1.faultAt t x.pc 1 (some x.addr))
      | .gated => fin (s1.faultAt t x.pc 2 (some x.addr))
      | .ok p =>
        if p.space = 3 then
          let m := s.statusTurn p x.reach
          if m ≠ 0 then
            s.on k (fun g => { g with stores := g.stores.map (fun y => if y = x then { y with reach := some m } else y) })
          else fin (s1.regStore p (x.data.setWidth 32))
        else
          if s.chWaits p then s
          else
          let s1 := s1.eccAt (whoT t) p ecc
          fin (if ecc = .ue then s1 else s1.store p (leBytes x.data.toNat x.size))

/-! Tokens and grants -/

/-- The `i`-th tokens on their way arrive (R100 to R102, R107): in the order of issue, after the issuing thread's earlier writes. At a gated unit or a hole the give has no effect and its thread takes the fault (R111). -/
def Pack.tokenDelivery (s : Pack) (i : Nat) : Pack :=
  match s.flight[i]? with
  | none => s
  | some x =>
    let older := (s.flight.take i).any (fun y => y.src == x.src && y.dst == x.dst && y.ctr == x.ctr)
    let far := x.dst.pkg != x.src.pkg
    let h := s.g x.dst.pkg
    if older || !(s.g x.src.pkg).writesDone x.src x.seq || (far && s.at x.src.pkg h.pos != some x.dst.pkg) then s
    else
      let s := { s with flight := s.flight.take i ++ s.flight.drop (i + 1) }
      let lost (c : Nat) : Pack :=
        (if far then s.on x.src.pkg (fun g => g.flow 0 x.step true (2 ^ 64 - x.n)) else s).faultAt x.src x.pc c none
      if h.hole x.dst.site then lost 1
      else if !h.unitOn x.dst.site x.dst.unit then lost 2
      else
        let s := if far then s.on x.dst.pkg (fun g => g.flow 0 x.step false x.n) else s
        s.on x.dst.pkg (fun g => g.deliver x.dst.site x.dst.unit x.ctr x.n)

/-- The first request of a kind at a queue, served where it can be (R131, R153): its own thread has no earlier request there. -/
def Pack.serveFirst (s : Pack) (k site q upset : Nat) (ecc : Ecc) (op : Op) : Pack :=
  let reqs := (s.g k).qops.filter (fun x => x.site == site && x.qid == q)
  match reqs.find? (fun x => x.r.op == op) with
  | none => s
  | some x =>
    if reqs.any (fun y => y.r.t == x.r.t && decide (y.seq < x.seq)) then s
    else
      let r := s.serveReq k site q upset ecc x
      if r.2 then (r.1.on k (fun g => { g with qops := g.qops.erase x })).look x.r.t else s

/-- The oldest waiting CTAKE of a queue is granted (R153); the oldest waiting QPOP is served (R131). -/
def Pack.ctakeGrant (s : Pack) (k site q : Nat) : Pack := s.serveFirst k site q 0 .ok .ctake
def Pack.qpopServe (s : Pack) (k site q upset : Nat) (ecc : Ecc) : Pack := s.serveFirst k site q upset ecc .qpop

/-- The oldest waiting KRESERVE of a stage is granted (R175). -/
def Pkg.kGrantNext (g : Pkg) (j : Nat) : Pkg := if g.pipeOn && decide (j < 8) then g.kServe j else g

/-- A thread that waits for room in an input queue hands its operation over when those that began to wait before it have (R92), unless issue is held for a seal (R219). A queue instruction issues again; a CONTRIB consumes its credit now (R96). -/
def Pack.queueRoom (s : Pack) (t : Tid) : Pack :=
  let g := s.g t.pkg
  let th := g.th t
  match th.st, th.wait with
  | .wait, some (.room r pd tmr) =>
    if g.issueHeld then s
    else if queueOp r.op then
      match s.queueTo t (th.s r.f.b.toNat) with
      | some (_, _, pk, hs) => if (s.g pk).engRoom hs then s.on t.pkg (fun g => g.retry t.key) else s
      | none => s.on t.pkg (fun g => g.retry t.key)
    else if g.room r && (g.roomWaits.takeWhile (fun x => !(x == r))).all (fun x => !sameInput r x) then
      if r.op == .contrib then
        match s.spendCredit r with
        | some s => s.on t.pkg (fun g => (g.handOver r).onTh t Thread.adv)
        | none => s.on t.pkg (fun g => g.onTh t (fun th => { th with wait := some (.push r) }))
      else s.on t.pkg (fun g => (g.handOver r).onTh t Thread.adv)
    else s
  | _, _ => s

/-- One slice of the queue engine of a die (R156). -/
def Pack.engineSlice (s : Pack) (k site upset : Nat) (ecc : Ecc) : Pack :=
  match (s.g k).nextQueue site with
  | none => s
  | some q =>
    ((s.serveQueue k site q upset ecc).on k (fun g => { g with qlast := mins g.qlast site q })).dqWake k

/-! Ends of operations -/

/-- The operations that deliver a completion count (R118). -/
def hasCpl : Op → Bool
  | .epi | .fnv | .fnd | .cvt | .kstash | .kfetch | .contrib | .randt | .qpush | .qpop | .gather => true
  | _ => false

/-- An operation has ended: its count is delivered, waiting threads are looked at (R92, R103). -/
def Pack.opEnd (s : Pack) (r : OpRec) : Pack :=
  (if hasCpl r.op then s.on r.t.pkg (fun g => g.complete r.t r.f) else s).look r.t

/-- An operation may be performed: its thread's older writes to what it reads and writes, and older loads of what it writes, have been, those of older operations included (R106, R108; log 111). -/
def Pack.opFree (s : Pack) (r : OpRec) : Bool :=
  let g := s.g r.t.pkg
  let st := g.olderStores r.t r.seq ++ s.olderOuts r.t r.seq
  let ld := g.olderLoads r.t r.seq
  (st.isEmpty && ld.isEmpty) ||
    !((r.ins.any (fun x => s.meets r.t x.1 x.2 st)) || (r.writes.any (fun x => s.meets r.t x.1 x.2 (st ++ ld))))

/-- The stream slot an array or table operation draws from (R67, R82). -/
def OpRec.drawSlot (r : OpRec) : Option Nat :=
  match r.op with
  | .mma => if r.f.ib 10 then some (r.f.i 26 17) else none
  | .mmb => if r.f.ib 2 then some (r.f.i 18 9) else none
  | .epi | .fnv | .fnd | .cvt => if r.f.i 1 0 == 1 && !r.f.ib 2 then some (r.f.i 17 8) else none
  | _ => none

/-- The function table an operation evaluates (R127, R128). -/
def OpRec.tabAddr (r : OpRec) : Option Word :=
  match r.op with
  | .epi => if r.f.ib 7 then some (r.v.getD 1 0) else none
  | .fnv | .fnd => some (r.v.getD 0 0)
  | _ => none

/-- What an operation does, by its kind. Where its stream slot has lost VALID since issue it ends with an error report (R80), where an operand's target reports a fault, its tile has another mode or its table is rejected by now its thread takes the fault (R60, R72, R111); none has an effect (log 100). -/
def Pack.runOp (s : Pack) (r : OpRec) : Pack :=
  if r.drawSlot.any (fun n => ((s.g r.t.pkg).drawOf n 0).isNone) then
    s.on r.t.pkg (fun g => g.engErr r.t.site r.t.unit 0x0A 0)
  else match firstBad [s.opBad r, r.tabAddr.bind (tabChk s r.t)] with
  | some x => s.faultAt r.t r.pc x.1 x.2
  | none =>
    match r.op with
    | .mma | .mmb => s.runMma r
    | .epi => s.runEpi r
    | .fnv | .fnd | .cvt => s.runElt r
    | .kstash => s.runKstash r
    | .kfetch => s.runKfetch r
    | .kfree => s.on r.t.pkg (fun g => g.kFree ((r.v.getD 0 0).toNat % 2 ^ 16))
    | .contrib => s.runContrib r
    | .randt => s.runRandt r
    | _ => s

/-- An operation that an uncorrectable error has ended: a CONTRIB's credit returns (R104, R137). -/
def Pack.opLost (s : Pack) (r : OpRec) : Pack := if r.op == .contrib then s.contribBack r else s

/-- Performs an operation whose read of the word at `a` came out as `ecc` (R255, R307, R308): an uncorrectable one ends it with its error report. -/
def Pack.runEcc (s : Pack) (r : OpRec) (ecc : Ecc) (a : Nat) : Pack :=
  match s.where' r.t.pkg (some r.t.site) a with
  | .ok l =>
    let s := if l.space = 3 then s else s.eccAt (whoT r.t) l ecc
    if ecc = .ue then s.opLost r else s.runOp r
  | _ => s.runOp r

/-- The operation at the front of an array finishes (R63, R92): it is at the front of every array it occupies, no access to a status word stands before it (R448), and it is not held for ARM (R56). -/
def Pack.arrayComplete (s : Pack) (k site u arr : Nat) (ecc : Ecc) (a : Nat) : Pack :=
  let g := s.g k
  let mine := g.aops.filter (fun r => r.t.site == site && r.t.unit == u)
  match mine.find? (fun r => r.arrays.contains arr) with
  | none => s
  | some r =>
    if r.arrays.any (fun b => (mine.find? (fun x => x.arrays.contains b)) != some r) || s.accFirst r || g.held r || !s.opFree r then s
    else (((s.runEcc r ecc a).on k (fun g => { g with aops := g.aops.erase r })).tilesDone r).opEnd r

/-- Two operations share an engine, KFREE the Kennel's. -/
def kennelOp (o : Op) : Bool := o == .kstash || o == .kfetch || o == .kfree
def oneEngine (a b : OpRec) : Bool :=
  if kennelOp a.op then kennelOp b.op && a.t.site == b.t.site else sameEngine a b

/-- A KFREE waits for the KSTASHes and KFETCHes of its MBID that were handed over before it, on every die (R135). -/
def freesAfter (r x : OpRec) : Bool :=
  r.op == .kfree && (x.op == .kstash || x.op == .kfetch) && (x.v.getD 0 0).toNat % 2 ^ 16 == (r.v.getD 0 0).toNat % 2 ^ 16

/-- The `i`-th engine operation of package `k` finishes (R92, R103): the front of its engine, not held for ARM. A gather finishes with its last tile. -/
def Pack.engineComplete (s : Pack) (k i : Nat) (ecc : Ecc) (a : Nat) : Pack :=
  let g := s.g k
  match g.eops[i]? with
  | none => s
  | some r =>
    if r.op == .gather || (g.eops.take i).any (fun x => oneEngine r x || freesAfter r x) || g.held r || !s.opFree r then s
    else ((s.runEcc r ecc a).on k (fun g => { g with eops := g.eops.erase r })).opEnd r

/-! Accesses of other masters to a unit -/

/-- A read or write of a status word by a master (R448): performed after the operations on the tile that the array already holds, before any that is handed over later. -/
def Pack.accstAccess (s : Pack) (k : Nat) (m : Master) (site u arr n : Nat) (w : Option W32) : Pack :=
  let off := 0x10000 + 0x400 * u + 0x300 + 0x20 * (arr % 2) + 4 * (n % 8)
  match w with
  | some v => s.busWrite k m site off v
  | none =>
      match (s.g k).place k site 3 off with
      | .ok _ => s.accAsk k k site u (arr % 2) (n % 8)
      | .gated => s.on k (fun g => g.refusedFor m true (gaddr g.pos site 3 off))
      | .invalid => s.on k (fun g => g.refusedFor m false (gaddr g.pos site 3 off))

end Sys2Proof.Machine
end

