-- ==== Sys2Proof/Machine/HostOps.lean ====
section
/-! DEFINITION. The host interface: the BARs, the HIF page, requests and completions, configuration space, MSI-X, MCTP reads and writes (R357 to R372, R437, R438). -/

set_option linter.unusedVariables false

namespace Sys2Proof.Machine

/-- The key of HIF.PWINn, which lies in window 15 of BAR4. -/
def hPwin (n : Nat) : Nat := 0x100000 + 4 * n

/-- Where a BAR offset leads (R358, R361 to R363): a global address, the HIF page, the BAR4 control page, or nothing. -/
inductive HostTo where
  | addr (a : Nat)
  | hif (o : Nat)
  | ctl (o : Nat)
  | bad
  | ur
  deriving DecidableEq, Repr

/-- The master that a BAR speaks for (R360). -/
def barMaster (bar : Nat) : Master := if bar = 4 then .bar4 else .host

/-- The BAR field of CALOG. -/
def barCode (bar : Nat) : Nat := bar / 2 % 4

/-- log2 of a BAR2 window's bytes (R362). -/
def Pkg.winLog (g : Pkg) : Nat := g.hk.barB - 4

/-- A BAR offset translated (R358, R361 to R363). -/
def Pkg.hostTo (g : Pkg) (bar off : Nat) : HostTo :=
  let slot := off / 2 ^ 20
  if bar = 0 ∧ slot = 63 then .hif (off % 2 ^ 20)
  else if !g.leads then .ur
  else match bar with
    | 0 => if slot < 60 ∨ slot = 62 then .addr (gaddr g.pos slot 3 (off % 2 ^ 20)) else .bad
    | 2 =>
      let w := off / 2 ^ g.winLog
      if w < 16 ∧ bit (g.hrd (0x100 + 8 * w)) 0 then
        .addr ((g.hrd (0x104 + 8 * w)).toNat * 2 ^ 32 / 2 ^ g.winLog * 2 ^ g.winLog + off % 2 ^ g.winLog)
      else .bad
    | 4 =>
      if slot = 15 then .ctl (off % 2 ^ 20)
      else
        let p := g.hrd (hPwin slot)
        if slot < 15 ∧ bit p 31 ∧ fld p 5 0 ≠ 63 then .addr (gaddr (fld p 13 8) (fld p 5 0) 3 (off % 2 ^ 20)) else .bad
    | _ => .ur

/-- A doorbell through HIF.DOOR (R154): forwarded to the home that QMAP names, or dropped and logged. -/
def Pack.hifDoor (s : Pack) (k q op n upset : Nat) : Pack :=
  let g := s.g k
  match g.home q with
  | none => s.on k (fun g => g.logHub 0x0105 q op n)
  | some site =>
    if !g.qengOn site then s.on k (fun g => g.doorNo site q op n)
    else s.doorRun k site q op n upset

/-- HIF.STAT (R358, R371), without what the link has trained to: see `Pack.hifWord`. -/
def Pkg.hifStat (g : Pkg) : W32 :=
  mk32 (b2n g.ready * 2 ^ 31 + (if !g.assigned then 0 else if g.leads then 2 else 1) * 2 ^ 29 + g.pos * 2 ^ 12 + g.hk.barB * 2 ^ 6)

/-- A word of the HIF page, MSI-X table and PBA among them, as it reads. A vector's control word is stored with its mask bit inverted, for it is 1 at reset. -/
def Pkg.hifRead (g : Pkg) (o : Nat) : W32 :=
  if o = 0 then g.hifStat
  else if 0x100 ≤ o ∧ o < 0x180 ∧ o % 8 = 4 then mk32 ((g.hrd o).toNat / 2 ^ (g.winLog - 32) * 2 ^ (g.winLog - 32))
  else if 0x10000 ≤ o ∧ o < 0x14000 then 0
  else if 0x40000 ≤ o ∧ o < 0x48000 ∧ o % 16 = 12 then setB (g.hrd o) 0 (!bit (g.hrd o) 0)
  else if 0x48000 ≤ o ∧ o < 0x48100 then
    mk32 (sumL ((List.range 32).map (fun i => b2n (mget false g.msix (8 * (o - 0x48000) + i)) * 2 ^ i)))
  else g.hrd o

/-- A word of the HIF page as a request over the link reads it: SPEED, WIDTH and FLIT of HIF.STAT are what the link has trained to, free values (log 76). -/
def Pack.hifWord (s : Pack) (k o : Nat) : W32 × Pack :=
  let w := (s.g k).hifRead o
  if o = 0 then
    let f := s.draw
    (setF w 28 19 f.1, f.2)
  else (w, s)

/-- A write to a word of the HIF page. -/
def Pack.hifWrite (s : Pack) (k o : Nat) (v : W32) : Pack :=
  let put (m : Nat) : Pack := s.on k (fun g => g.hwr o (v &&& BitVec.ofNat 32 m))
  if o = 4 then (if bit v 31 then s.on k (fun g => g.hwr 4 (setB (g.hrd 4) 31 false)) else s)
  else if o = hIvec then put 0x87FF87FF
  else if o = hEposLo ∨ o = hEposHi then s.on k (fun g => g.hwr o (g.hrd o &&& ~~~ v))
  else if 0x100 ≤ o ∧ o < 0x180 then put (if o % 8 = 0 then 1 else 0xFFFFFFFF)
  else if 0x10000 ≤ o ∧ o < 0x14000 then s.hifDoor k ((o - 0x10000) / 4) (fld v 31 30) (fld v 15 0) 0
  else if 0x20000 ≤ o ∧ o < 0x20800 then put 0x800007FF
  else if 0x40000 ≤ o ∧ o < 0x48000 then
    (match o % 16 with
     | 0 => put 0xFFFFFFFC
     | 12 => s.on k (fun g => g.hwr o (setB 0 0 (!bit v 0)))
     | _ => put 0xFFFFFFFF)
  else s

/-- A completion of a host request. -/
def Pkg.hostEnd (g : Pkg) (c : Cpl) : Pkg := g.onHk (fun h => { h with cpl := c })

/-- A Completer Abort with its log (R366). -/
def Pkg.hostAbort (g : Pkg) (cause bar addr : Nat) : Pkg := (g.calog cause (barCode bar) addr).hostEnd .ca

/-- The BARs are served: the hub is up, the function is not in D3hot (R372). -/
def Pkg.barsUp (g : Pkg) : Bool := g.hubUp && !g.hk.d3

/-- An Unsupported Request (R366): AER alone records it. -/
def Pkg.hostUr (g : Pkg) : Pkg := g.aerSet .unsupported

/-- The bit of an error in AER's Uncorrectable Error Status (log 129), and the register as it reads. -/
def aerBit : AerErr → Nat
  | .poisoned => 12
  | .completerAbort => 15
  | .unsupported => 20
  | .internal => 22
def Husk.aerWord (h : Husk) : Nat := (h.aer.map (fun e => 2 ^ aerBit e)).foldl (· + ·) 0

/-- A request that the link can deliver: inside its BAR, not across a 4 KiB boundary (R355, R360, R362). `bar` other than 0, 2 and 4: an AtomicOp, an I/O request or a vendor message, which `hostTo` finds unsupported. -/
def Pkg.tlpOk (g : Pkg) (bar off n max : Nat) : Bool :=
  decide (0 < n ∧ n ≤ max ∧ off % 4096 + n ≤ 4096) &&
    (match bar with
     | 0 => decide (off < 2 ^ 26)
     | 2 => decide (off < 2 ^ g.hk.barB)
     | 4 => decide (off < 2 ^ 24)
     | _ => true)

/-- The form that a register request must have (R364). -/
def oneDw (off n : Nat) : Bool := decide (n = 4 ∧ off % 4 = 0)

/-- A host read request (R358, R361 to R366): its completion, recorded in the model's own field. -/
def Pack.hostRead (s : Pack) (k bar off n : Nat) (ecc : Ecc) : Pack :=
  let g := s.g k
  if !g.hubUp ∨ !g.tlpOk bar off n 4096 then s
  else if !g.barsUp then s.on k (fun g => g.hostUr.hostEnd .ur)
  else
    let data (w : W32) (s : Pack) : Pack := s.on k (fun g => g.hostEnd (.data (leBytes w.toNat 4)))
    let abort (c a : Nat) (s : Pack) : Pack := s.on k (fun g => g.hostAbort c bar a)
    match g.hostTo bar off with
    | .ur => s.on k (fun g => g.hostUr.hostEnd .ur)
    | .bad => abort 1 off s
    | .hif o =>
      if oneDw off n then
        let r := s.hifWord k o
        data r.1 r.2
      else abort 3 off s
    | .ctl o => if oneDw off n then data (if o < 0x3C then g.hrd (hPwin (o / 4)) else 0) s else abort 3 off s
    | .addr a =>
      if a / 2 ^ 48 % 16 = 3 then
        if !oneDw off n then abort 3 a s
        else match s.where' k none a with
          | .invalid => abort 1 a s
          | .gated => abort 2 a s
          | .ok l =>
            if s.statusTurn l none ≠ 0 then
              match accstOf l.site l.off with
              | some (u, arr, n) => s.accAsk l.pk k l.site u arr n
              | none => s
            else
              let r := s.regRead l.pk (barMaster bar) l.site l.off
              data r.1 r.2
      else match s.spanOk k none a n with
        | .invalid => abort 1 a s
        | .gated => abort 2 a s
        | .ok l =>
          if s.chWaits l then s
          else
          let s := s.eccAt { site := hubSite } l ecc
          if ecc = .ue then abort 5 a s else s.on k (fun g => g.hostEnd (.data (s.bytes l n)))

/-- The bytes of a place with those that are enabled replaced. -/
def mergeBytes (old : List Byte) (new : List (Option Byte)) : List Byte := (old.zip new).map (fun p => p.2.getD p.1)

/-- A host write request, its bytes with their enables (R358, R361 to R367). A posted write has no completion: AER records what is refused, and a poisoned one (`ep`), which writes nothing; one that meets an uncorrectable error is not performed, and CALOG alone has it. -/
def Pack.hostWrite (s : Pack) (k bar off : Nat) (bs : List (Option Byte)) (ep : Bool) (ecc : Ecc) : Pack :=
  let g := s.g k
  let n := bs.length
  if !g.hubUp ∨ !g.tlpOk bar off n 512 then s
  else if ep then s.on k (fun g => g.aerSet .poisoned)
  else if !g.barsUp then s.on k Pkg.hostUr
  else
    let abort (c a : Nat) (s : Pack) : Pack := s.on k (fun g => (g.calog c (barCode bar) a).aerSet .completerAbort)
    let dw := oneDw off n && bs.all (·.isSome)
    let v : W32 := mk32 (leVal (bs.map (fun b => b.getD 0)))
    match g.hostTo bar off with
    | .ur => s.on k Pkg.hostUr
    | .bad => abort 1 off s
    | .hif o => if dw then s.hifWrite k o v else abort 3 off s
    | .ctl o =>
      if !dw then abort 3 off s
      else if o < 0x3C then s.on k (fun g => g.hwr (hPwin (o / 4)) (v &&& 0x80003F3F#32)) else s
    | .addr a =>
      if a / 2 ^ 48 % 16 = 3 then
        if !dw then abort 3 a s
        else match s.where' k none a with
          | .invalid => abort 1 a s
          | .gated => abort 2 a s
          | .ok l => s.busWrite l.pk (barMaster bar) l.site l.off v
      else match s.spanOk k none a n with
        | .invalid => abort 1 a s
        | .gated => abort 2 a s
        | .ok l =>
          if s.chWaits l then s
          else
          let s := s.eccAt { site := hubSite } l ecc
          if ecc = .ue then s.on k (fun g => g.calog 5 (barCode bar) a) else s.store l (mergeBytes (s.bytes l n) bs)

/-- A host read that its target has not answered within 10 ms (R365). -/
def Pack.hostTimeout (s : Pack) (k bar off n : Nat) : Pack :=
  let g := s.g k
  if !g.barsUp ∨ !g.tlpOk bar off n 4096 then s
  else match g.hostTo bar off with
    | .addr a => s.on k (fun g => g.hostAbort 4 bar a)
    | _ => s

/-- A configuration request (R357, R369, R371, R372): retried until the function is ready. -/
def Pkg.config (g : Pkg) (k : Nat) (r : CfgReq) : Pkg :=
  let word (n : Nat) : Pkg := g.hostEnd (.data (leBytes n 4))
  if !g.hubUp then g
  else if !g.ready then g.hostEnd .rrs
  else match r with
    | .ids => word (0x0048 * 65536 + Config.pciVendor % 65536)
    | .classRev => word (0x120000 * 256 + floorOf k)
    | .subsys => word (Config.subsys k)
    | .serial hi => word (if hi then serialOf k / 2 ^ 32 else serialOf k % 2 ^ 32)
    | .other w => word (Config.configWord k w ((g.hk.cfg.find? (fun p => p.1 == w)).map (fun p => p.2.toNat)))
    | .setB b => if 36 ≤ b ∧ b ≤ 40 then (g.onHk (fun h => { h with barB := b })).hostEnd .written else g.hostEnd .written
    | .setMsix on mask => (g.onHk (fun h => { h with msixOn := on, msixMask := mask })).hostEnd .written
    | .setD0 => (g.onHk (fun h => { h with d3 := false })).hostEnd .written
    | .aer => word g.hk.aerWord
    | .clearAer v => (g.onHk (fun h => { h with aer := h.aer.filter (fun e => !bit v (aerBit e)) })).hostEnd .written
    | .write w v => (g.onHk (fun h => { h with cfg := mins h.cfg w v })).hostEnd .written

/-- Hot Reset, link disable, DL_Down (R372). -/
def Pkg.hotReset (g : Pkg) : Pkg :=
  if !g.hubUp then g
  else { g.onHk (fun h => { h with d3 := false, barB := 36, msixOn := false, msixMask := false, cfg := [], aer := [] }) with hif := [], msix := [] }

/-- D3hot (R372). -/
def Pkg.d3hot (g : Pkg) : Pkg := if g.ready then (g.onHk (fun h => { h with d3 := true })).hostEnd .written else g

/-- An interrupt message is sent, and its latch clears (R369). -/
def Pkg.msixSend (g : Pkg) (v : Nat) : Pkg :=
  let o := 0x40000 + 16 * v
  if g.barsUp && decide (v < 2048) && mget false g.msix v && g.hk.msixOn && !g.hk.msixMask && bit (g.hrd (o + 12)) 0 then
    { g.onHk (fun h => { h with msi := some ((g.hrd o).toNat + (g.hrd (o + 4)).toNat * 2 ^ 32, (g.hrd (o + 8)).toNat) }) with
      msix := mins g.msix v false }
  else g

/-- The offsets that MCTP READ and WRITE reach (R438). -/
def mctpReach (o : Nat) : Bool := decide ((0x14000 ≤ o ∧ o < 0x18000) ∨ (0x20000 ≤ o ∧ o < 0x30000))

/-- READ over MCTP (R438). -/
def Pack.mctpRead (s : Pack) (k o n : Nat) : Pack :=
  if !(s.g k).hk.vaon then s
  else if n = 0 ∨ 16 < n ∨ o % 4 ≠ 0 then s.on k (fun g => g.mctp 3 [])
  else if !mctpReach o ∨ !mctpReach (o + 4 * n - 1) then s.on k (fun g => g.mctp 1 [])
  else
    let r := (List.range n).foldl (fun (p : List Byte × Pack) (i : Nat) =>
      let r := p.2.regRead k .husk 62 (o + 4 * i)
      (p.1 ++ leBytes r.1.toNat 4, r.2)) ([], s)
    r.2.on k (fun g => g.mctp 0 r.1)

/-- WRITE over MCTP (R406, R438): answered once BUSY has cleared. -/
def Pack.mctpWrite (s : Pack) (k o : Nat) (v : W32) : Pack :=
  if !(s.g k).hk.vaon then s
  else if o % 4 ≠ 0 then s.on k (fun g => g.mctp 3 [])
  else if !mctpReach o then s.on k (fun g => g.mctp 1 [])
  else
    let s := s.busWrite k .husk 62 o v
    let s := match blockOf 62 o with
      | some (b, p) => (match busyKey 62 b p with
        | some a => s.postedDone k 62 (a - hubR 0)
        | none => s)
      | none => s
    s.on k (fun g => g.mctp 0 [])

end Sys2Proof.Machine
end

