-- ==== Sys2Proof/Machine/Rows.lean ====
section
/-! DEFINITION. Small pieces the commands' meanings share: a command at a package that is up, places of registers, the rows' own joins of operations. -/

set_option linter.unusedVariables false

namespace Sys2Proof

/-- The word's selector, KIND of FENCE or SEL of XGET, set to `n` (R119). -/
def Fields.select (f : Fields) (n : Nat) : Fields := { f with imm := Machine.setF f.imm 1 0 n }

end Sys2Proof

namespace Sys2Proof.Machine

/-- What happens at a package whose hub is powered and out of reset; elsewhere nothing happens (R393, R397). -/
def Pack.atHub (s : Pack) (k : Nat) (f : Pack → Pack) : Pack := if (s.g k).hubUp then f s else s

/-- What happens at a port of a package that is powered and out of reset, whose hub may have lost its REFCLK (R390). -/
def Pack.atPort (s : Pack) (k : Nat) (f : Pack → Pack) : Pack := if (s.g k).powered then f s else s

/-- Offsets of the blocks with many instances (R385). -/
def oUnit (u o : Nat) : Nat := 0x10000 + 0x400 * u + o
def oScale (n o : Nat) : Nat := 0x40000 + 0x80 * n + o
def oQueue (q o : Nat) : Nat := 0x80000 + 0x40 * q + o
def oStream (n o : Nat) : Nat := 0x30000 + 0x40 * n + o

/-- The apply of a seal with what follows it: ports of a new membership are raised (R299), and a revert that was asked for in the meantime starts (R346). -/
def Pack.sealAll (s : Pack) (k : Nat) (ue : List Nat) : Pack :=
  let was := (s.g k).pr.commit.isSome
  let s := s.sealApply k ue
  let g := s.g k
  if !was ∨ g.pr.commit.isSome then s
  else
    let s := s.raisePorts k
    let s := if g.ld.revPend && g.leads then s.startRevert k g.sealed else s
    if g.pr.revWait then s.takeRevert k g.sealed g.epoch else s

/-- A sensor sample of a stack in S1, where its sensors stay powered, or of a package whose hub does not run: only the trip wire hears it (R258, R404). -/
def Pkg.sleepSample (g : Pkg) (j z tz : Nat) : Pkg :=
  if g.hk.vaon ∧ g.hk.state ≠ 0 ∧ j < 12 ∧ z < 8 ∧ 440 ≤ tz % 1024 then g.trip (48 + j) else g

/-- A sensor sample of a stack, and the trip wire of the stack (R256, R403). -/
def Pkg.sensorSample (g : Pkg) (k j z tz : Nat) : Pkg :=
  if 12 ≤ j ∨ 8 ≤ z then g
  else
    let g := g.stackSample (topRise k j) j z tz
    (if 440 ≤ tz % 1024 then g.trip (48 + j) else g).thermLook k

end Sys2Proof.Machine
end

