-- ==== Sys2Proof/Machine/State.lean ====
section
/-! DEFINITION. The state of the machine, why a step could stop, the state after reset. -/

set_option linter.unusedVariables false

namespace Sys2Proof.Machine

/-- The block: the pack, and the commands that wait, first in, first out. -/
structure State where
  pack : Pack := {}
  pending : List Instr := []
  deriving DecidableEq, Repr

/-- Why the block would stop with a fault. No command does: every occurrence that the manual reports is a record, a status bit or an exception of a thread. -/
inductive Fault where
  /-- Raised by no command. Safe: it would stop where the hardware goes on. -/
  | none
  deriving DecidableEq, Repr

/-- Why a command would be refused. -/
inductive Refusal where
  /-- A command without a meaning yet, by its mnemonic: there is none in this model. Safe. -/
  | notModelled (mnemonic : String)
  deriving DecidableEq, Repr

/-- Changes the pack. -/
def State.onPack (s : State) (h : Pack → Pack) : State := { s with pack := h s.pack }

/-- Package 0 at power-on: in S3, the role that LEAD_N gives it (R298, R397, R431). -/
def State.resetPkg0 : Pkg := Pkg.strapRole { coldPkg 0 with hk := { leadLow := true } }

/-- The machine right after its power-on reset: package 0, whose LEAD_N is tied low, in S3 with PERST_N asserted and PWR_OK low; every other package as `coldPkg` says; nothing stored, nothing waiting (log 29). -/
def State.reset : State := { pack := { pkgs := [(0, State.resetPkg0)] }, pending := [] }

end Sys2Proof.Machine
end

