-- ==== Sys2Proof/Machine/Alu.lean ====
section
/-! DEFINITION. Meanings of commands: the scalar arithmetic and logic instructions. -/

set_option linter.unusedVariables false

namespace Sys2Proof.Machine

/-- ADD (R119). -/
def execAdd (t : Tid) (f : Fields) (s : State) : Host.Outcome State Fault Refusal :=
  .next (s.onPack (issue .add t f (aluR t f (· + ·))))

/-- SUB (R119). -/
def execSub (t : Tid) (f : Fields) (s : State) : Host.Outcome State Fault Refusal :=
  .next (s.onPack (issue .sub t f (aluR t f (· - ·))))

/-- MUL (R119). -/
def execMul (t : Tid) (f : Fields) (s : State) : Host.Outcome State Fault Refusal :=
  .next (s.onPack (issue .mul t f (aluR t f (· * ·))))

/-- MULHU (R119). -/
def execMulhu (t : Tid) (f : Fields) (s : State) : Host.Outcome State Fault Refusal :=
  .next (s.onPack (issue .mulhu t f (aluR t f mulhu)))

/-- DIVU (R119). -/
def execDivu (t : Tid) (f : Fields) (s : State) : Host.Outcome State Fault Refusal :=
  .next (s.onPack (issue .divu t f (divR t f BitVec.udiv)))

/-- REMU (R119). -/
def execRemu (t : Tid) (f : Fields) (s : State) : Host.Outcome State Fault Refusal :=
  .next (s.onPack (issue .remu t f (divR t f BitVec.umod)))

/-- DIVS (R119). -/
def execDivs (t : Tid) (f : Fields) (s : State) : Host.Outcome State Fault Refusal :=
  .next (s.onPack (issue .divs t f (divR t f BitVec.sdiv)))

/-- REMS (R119). -/
def execRems (t : Tid) (f : Fields) (s : State) : Host.Outcome State Fault Refusal :=
  .next (s.onPack (issue .rems t f (divR t f BitVec.srem)))

/-- AND (R119). -/
def execAnd (t : Tid) (f : Fields) (s : State) : Host.Outcome State Fault Refusal :=
  .next (s.onPack (issue .and t f (aluR t f (· &&& ·))))

/-- OR (R119). -/
def execOr (t : Tid) (f : Fields) (s : State) : Host.Outcome State Fault Refusal :=
  .next (s.onPack (issue .or t f (aluR t f (· ||| ·))))

/-- XOR (R119). -/
def execXor (t : Tid) (f : Fields) (s : State) : Host.Outcome State Fault Refusal :=
  .next (s.onPack (issue .xor t f (aluR t f (· ^^^ ·))))

/-- SHL (R119). -/
def execShl (t : Tid) (f : Fields) (s : State) : Host.Outcome State Fault Refusal :=
  .next (s.onPack (issue .shl t f (aluR t f shlW)))

/-- SHR (R119). -/
def execShr (t : Tid) (f : Fields) (s : State) : Host.Outcome State Fault Refusal :=
  .next (s.onPack (issue .shr t f (aluR t f shrW)))

/-- SRA (R119). -/
def execSra (t : Tid) (f : Fields) (s : State) : Host.Outcome State Fault Refusal :=
  .next (s.onPack (issue .sra t f (aluR t f sraW)))

/-- ADDI (R119). -/
def execAddi (t : Tid) (f : Fields) (s : State) : Host.Outcome State Fault Refusal :=
  .next (s.onPack (issue .addi t f (aluI t f (· + ·))))

/-- SUBI (R119). -/
def execSubi (t : Tid) (f : Fields) (s : State) : Host.Outcome State Fault Refusal :=
  .next (s.onPack (issue .subi t f (aluI t f (· - ·))))

/-- MULI (R119). -/
def execMuli (t : Tid) (f : Fields) (s : State) : Host.Outcome State Fault Refusal :=
  .next (s.onPack (issue .muli t f (aluI t f (· * ·))))

/-- MULHUI (R119). -/
def execMulhui (t : Tid) (f : Fields) (s : State) : Host.Outcome State Fault Refusal :=
  .next (s.onPack (issue .mulhui t f (aluI t f mulhu)))

/-- DIVUI (R119). -/
def execDivui (t : Tid) (f : Fields) (s : State) : Host.Outcome State Fault Refusal :=
  .next (s.onPack (issue .divui t f (divI t f BitVec.udiv)))

/-- REMUI (R119). -/
def execRemui (t : Tid) (f : Fields) (s : State) : Host.Outcome State Fault Refusal :=
  .next (s.onPack (issue .remui t f (divI t f BitVec.umod)))

/-- DIVSI (R119). -/
def execDivsi (t : Tid) (f : Fields) (s : State) : Host.Outcome State Fault Refusal :=
  .next (s.onPack (issue .divsi t f (divI t f BitVec.sdiv)))

/-- REMSI (R119). -/
def execRemsi (t : Tid) (f : Fields) (s : State) : Host.Outcome State Fault Refusal :=
  .next (s.onPack (issue .remsi t f (divI t f BitVec.srem)))

/-- ANDI (R119). -/
def execAndi (t : Tid) (f : Fields) (s : State) : Host.Outcome State Fault Refusal :=
  .next (s.onPack (issue .andi t f (aluI t f (· &&& ·))))

/-- ORI (R119). -/
def execOri (t : Tid) (f : Fields) (s : State) : Host.Outcome State Fault Refusal :=
  .next (s.onPack (issue .ori t f (aluI t f (· ||| ·))))

/-- XORI (R119). -/
def execXori (t : Tid) (f : Fields) (s : State) : Host.Outcome State Fault Refusal :=
  .next (s.onPack (issue .xori t f (aluI t f (· ^^^ ·))))

/-- SHLI (R119). -/
def execShli (t : Tid) (f : Fields) (s : State) : Host.Outcome State Fault Refusal :=
  .next (s.onPack (issue .shli t f (aluI t f shlW)))

/-- SHRI (R119). -/
def execShri (t : Tid) (f : Fields) (s : State) : Host.Outcome State Fault Refusal :=
  .next (s.onPack (issue .shri t f (aluI t f shrW)))

/-- SRAI (R119). -/
def execSrai (t : Tid) (f : Fields) (s : State) : Host.Outcome State Fault Refusal :=
  .next (s.onPack (issue .srai t f (aluI t f sraW)))

/-- MOVHI (R119). -/
def execMovhi (t : Tid) (f : Fields) (s : State) : Host.Outcome State Fault Refusal :=
  .next (s.onPack (issue .movhi t f (movhiBody t f)))

/-- CMP (R119). -/
def execCmp (t : Tid) (f : Fields) (s : State) : Host.Outcome State Fault Refusal :=
  .next (s.onPack (issue .cmp t f (cmpBody t f (fun th => th.s f.b.toNat))))

/-- CMPI (R119). -/
def execCmpi (t : Tid) (f : Fields) (s : State) : Host.Outcome State Fault Refusal :=
  .next (s.onPack (issue .cmpi t f (cmpBody t f (fun _ => f.sext))))

/-- PLOG (R119). -/
def execPlog (t : Tid) (f : Fields) (s : State) : Host.Outcome State Fault Refusal :=
  .next (s.onPack (issue .plog t f (plogBody t f)))

end Sys2Proof.Machine
end

