-- ==== Sys2Proof/Machine/Board.lean ====
section
/-! DEFINITION. Meanings of commands: the board's pins and the Husk's mailbox. -/

set_option linter.unusedVariables false

namespace Sys2Proof.Machine

/-- PWR_OK_RISE (R430). -/
def execPwrOkRise (k : Nat) (s : State) : Host.Outcome State Fault Refusal :=
  .next (s.onPack (fun s => s.pwrOkRise k))

/-- PWR_OK_FALL (R430). -/
def execPwrOkFall (k : Nat) (s : State) : Host.Outcome State Fault Refusal :=
  .next (s.onPack (fun s => s.pwrOkFall k))

/-- VAON_RISE (R410). -/
def execVaonRise (k : Nat) (s : State) : Host.Outcome State Fault Refusal :=
  .next (s.onPack (fun s => s.vaonRise k))

/-- VAON_INTERLOCK (R432). -/
def execVaonInterlock (k : Nat) (s : State) : Host.Outcome State Fault Refusal :=
  .next (s.onPack (fun s => s.vaonInterlock k))

/-- PERST_ASSERT (R371). -/
def execPerstAssert (k : Nat) (s : State) : Host.Outcome State Fault Refusal :=
  .next (s.onPack (fun s => s.perstAssert k))

/-- PERST_RELEASE (R371). -/
def execPerstRelease (k : Nat) (s : State) : Host.Outcome State Fault Refusal :=
  .next (s.onPack (fun s => s.on k (fun g => g.perstRelease)))

/-- REFCLK_LOSS (R390). -/
def execRefclkLoss (k : Nat) (s : State) : Host.Outcome State Fault Refusal :=
  .next (s.onPack (fun s => s.on k (fun g => g.refLoss)))

/-- HUSK_TRIM (R391). -/
def execHuskTrim (k : Nat) (s : State) : Host.Outcome State Fault Refusal :=
  .next (s.onPack (fun s => s.huskTrim k))

/-- HSEND (R407). -/
def execHsend (k : Nat) (m : Master) (len : Nat) (s : State) : Host.Outcome State Fault Refusal :=
  .next (s.onPack (fun s => s.busWrite k m 62 0x15004 (mk32 (2 ^ 28 + len % 512))))

/-- BACK (R407). -/
def execBack (k : Nat) (m : Master) (v : W32) (s : State) : Host.Outcome State Fault Refusal :=
  .next (s.onPack (fun s => s.busWrite k m 62 0x15004 (setB v 27 true)))

/-- HUSK_ISO_WRITE (R405). -/
def execHuskIsoWrite (k : Nat) (m : Master) (v : W32) (s : State) : Host.Outcome State Fault Refusal :=
  .next (s.onPack (fun s => s.busWrite k m 62 0x15008 v))

/-- QREQ (R408). -/
def execQreq (k : Nat) (m : Master) (s : State) : Host.Outcome State Fault Refusal :=
  .next (s.onPack (fun s => s.busWrite k m 62 0x1500C (mk32 (2 ^ 29))))

/-- QUOTE_DONE (R408). -/
def execQuoteDone (k : Nat) (s : State) : Host.Outcome State Fault Refusal :=
  .next (s.onPack (fun s => s.quoteDone k))

/-- HUSK_NONCE_WRITE (R408). -/
def execHuskNonceWrite (k : Nat) (m : Master) (w : Nat) (v : W32) (s : State) : Host.Outcome State Fault Refusal :=
  .next (s.onPack (fun s => s.busWrite k m 62 (0x15300 + 4 * (w % 8)) v))

/-- LEND_READY_PULSE (R435). -/
def execLendReadyPulse (k : Nat) (s : State) : Host.Outcome State Fault Refusal :=
  .next (s.onPack (fun s => s.on k (fun g => g.lendPulse k)))

/-- REFCLK_RETURN (R396). -/
def execRefclkReturn (k : Nat) (s : State) : Host.Outcome State Fault Refusal :=
  .next (s.onPack (fun s => s.on k (fun g => g.refReturn)))

/-- VAON_LOSS (R431). -/
def execVaonLoss (k : Nat) (s : State) : Host.Outcome State Fault Refusal :=
  .next (s.onPack (fun s => s.vaonLoss k))

end Sys2Proof.Machine
end

