-- ==== Sys2Proof/Machine/Boot.lean ====
section
/-! DEFINITION. Meanings of commands: boot, keys and fuses. -/

set_option linter.unusedVariables false

namespace Sys2Proof.Machine

/-- LOAD (R415). -/
def execLoad (k : Nat) (m : Master) (s : State) : Host.Outcome State Fault Refusal :=
  .next (s.onPack (fun s => s.busWrite k m 62 0x17000 (mk32 (2 ^ 23))))

/-- LOAD_COMPLETE (R416). -/
def execLoadComplete (k : Nat) (s : State) : Host.Outcome State Fault Refusal :=
  .next (s.onPack (fun s => s.loadComplete k))

/-- IMAGE_PUSH (R417). -/
def execImagePush (k : Nat) (s : State) : Host.Outcome State Fault Refusal :=
  .next (s.onPack (fun s => s.imagePush k))

/-- ADVSVN (R418). -/
def execAdvsvn (k : Nat) (m : Master) (s : State) : Host.Outcome State Fault Refusal :=
  .next (s.onPack (fun s => s.busWrite k m 62 0x16000 (mk32 (2 ^ 4))))

/-- REVOKE (R419). -/
def execRevoke (k : Nat) (m : Master) (mask : Nat) (s : State) : Host.Outcome State Fault Refusal :=
  .next (s.onPack (fun s => s.busWrite k m 62 0x16000 (mk32 (mask % 16))))

end Sys2Proof.Machine
end

