-- ==== Sys2Proof/Machine/Collectives.lean ====
section
/-! DEFINITION. Meanings of commands: gathers, contributions, collectives, the permute. -/

set_option linter.unusedVariables false

namespace Sys2Proof.Machine

/-- GATHER (R136). -/
def execGather (t : Tid) (f : Fields) (s : State) : Host.Outcome State Fault Refusal :=
  .next (s.onPack (issue .gather t f (gatherBody t f)))

/-- CONTRIB (R137). -/
def execContrib (t : Tid) (f : Fields) (s : State) : Host.Outcome State Fault Refusal :=
  .next (s.onPack (issue .contrib t f (contribBody t f)))

/-- COLL_ENABLE (R231). -/
def execCollEnable (k : Nat) (m : Master) (j : Nat) (v : W32) (s : State) : Host.Outcome State Fault Refusal :=
  .next (s.onPack (fun s => s.busWrite k m 62 (0x8000 + 0x40 * j) (setB v 28 true)))

/-- COLL_DISABLE (R231). -/
def execCollDisable (k : Nat) (m : Master) (j : Nat) (v : W32) (s : State) : Host.Outcome State Fault Refusal :=
  .next (s.onPack (fun s => s.busWrite k m 62 (0x8000 + 0x40 * j) (setB v 28 false)))

/-- COLL_SEND (R229). -/
def execCollSend (k : Nat) (site : Nat) (q : Nat × Ecc) (s : State) : Host.Outcome State Fault Refusal :=
  .next (s.onPack (fun s => s.atHub k (fun s => s.collSend k site q.1 q.2)))

/-- INBOUND_RECORD (R233). -/
def execInboundRecord (k : Nat) (i : Nat) (upset : Nat) (s : State) : Host.Outcome State Fault Refusal :=
  .next (s.onPack (fun s => s.atHub k (fun s => s.inboundRecord k i upset)))

/-- MARK_ARRIVAL (R237). -/
def execMarkArrival (k : Nat) (i : Nat) (upset : Nat) (s : State) : Host.Outcome State Fault Refusal :=
  .next (s.onPack (fun s => s.atHub k (fun s => s.markArrival k i upset)))

/-- COLL_DEADLINE_EXPIRY (R237). -/
def execCollDeadlineExpiry (k : Nat) (j : Nat) (s : State) : Host.Outcome State Fault Refusal :=
  .next (s.onPack (fun s => s.atHub k (fun s => s.deadline k j)))

/-- STEP_CLOSE (R236). -/
def execStepClose (k : Nat) (j : Nat) (s : State) : Host.Outcome State Fault Refusal :=
  .next (s.onPack (fun s => s.atHub k (fun s => s.stepClose k j)))

/-- BCAST_DELIVERY (R242). -/
def execBcastDelivery (k : Nat) (i : Nat) (upset : Nat) (s : State) : Host.Outcome State Fault Refusal :=
  .next (s.onPack (fun s => s.atHub k (fun s => s.bcastDelivery k i upset)))

/-- PERM_START (R244). -/
def execPermStart (k : Nat) (m : Master) (v : W32) (s : State) : Host.Outcome State Fault Refusal :=
  .next (s.onPack (fun s => s.busWrite k m 62 0x3000 (setB v 0 true)))

/-- PERM_BLOCK (R244). -/
def execPermBlock (k : Nat) (ecc : Ecc × Nat) (lost : Bool) (s : State) : Host.Outcome State Fault Refusal :=
  .next (s.onPack (fun s => s.atHub k (fun s => s.permBlock k ecc.1 ecc.2 lost)))

/-- PERM_BARRIER_RELEASE (R245). -/
def execPermBarrierRelease (k : Nat) (p : Nat × Nat) (s : State) : Host.Outcome State Fault Refusal :=
  .next (s.onPack (fun s => s.atHub k (fun s => s.permBarrier k p.1 p.2)))

/-- PERM_DONE (R245). -/
def execPermDone (k : Nat) (p : Nat) (s : State) : Host.Outcome State Fault Refusal :=
  .next (s.onPack (fun s => s.atHub k (fun s => s.on k (fun g => g.permDone p (match s.at k p with
    | some j => (s.g j).rb (rPerm 0) 31
    | none => false)))))

end Sys2Proof.Machine
end

