-- ==== Sys2Proof/Machine/Control.lean ====
section
/-! DEFINITION. Meanings of commands: branches, fences, exception control. -/

set_option linter.unusedVariables false

namespace Sys2Proof.Machine

/-- BR (R119). -/
def execBr (t : Tid) (f : Fields) (s : State) : Host.Outcome State Fault Refusal :=
  .next (s.onPack (issue .br t f (brBody f)))

/-- CALL (R119). -/
def execCall (t : Tid) (f : Fields) (s : State) : Host.Outcome State Fault Refusal :=
  .next (s.onPack (issue .call t f (callBody t f)))

/-- JR (R119). -/
def execJr (t : Tid) (f : Fields) (s : State) : Host.Outcome State Fault Refusal :=
  .next (s.onPack (issue .jr t f (jrBody f)))

/-- HALT (R96). -/
def execHalt (t : Tid) (f : Fields) (s : State) : Host.Outcome State Fault Refusal :=
  .next (s.onPack (issue .halt t f (fun _ s => (s, .halt))))

/-- FENCE_W (R108). -/
def execFenceW (t : Tid) (f : Fields) (s : State) : Host.Outcome State Fault Refusal :=
  .next (s.onPack (issue .fenceW t (f.select 0) (fenceBody t .fenceW)))

/-- FENCE_RW (R108). -/
def execFenceRw (t : Tid) (f : Fields) (s : State) : Host.Outcome State Fault Refusal :=
  .next (s.onPack (issue .fenceRw t (f.select 1) (fenceBody t .fenceRw)))

/-- FENCE_E (R108). -/
def execFenceE (t : Tid) (f : Fields) (s : State) : Host.Outcome State Fault Refusal :=
  .next (s.onPack (issue .fenceE t (f.select 2) (fenceBody t .fenceE)))

/-- FENCE_I (R108). -/
def execFenceI (t : Tid) (f : Fields) (s : State) : Host.Outcome State Fault Refusal :=
  .next (s.onPack (issue .fenceI t (f.select 3) (fenceBody t .fenceI)))

/-- NOP (R119). -/
def execNop (t : Tid) (f : Fields) (s : State) : Host.Outcome State Fault Refusal :=
  .next (s.onPack (issue .nop t f (fun _ s => (s, .adv))))

/-- XGET_CAUSE (R113). -/
def execXgetCause (t : Tid) (f : Fields) (s : State) : Host.Outcome State Fault Refusal :=
  .next (s.onPack (issue .xgetCause t (f.select 0) (xgetBody t f (fun th => BitVec.ofNat 64 th.cause))))

/-- XGET_FPC (R113). -/
def execXgetFpc (t : Tid) (f : Fields) (s : State) : Host.Outcome State Fault Refusal :=
  .next (s.onPack (issue .xgetFpc t (f.select 1) (xgetBody t f (fun th => th.fpc.setWidth 64))))

/-- XGET_FADDR (R113). -/
def execXgetFaddr (t : Tid) (f : Fields) (s : State) : Host.Outcome State Fault Refusal :=
  .next (s.onPack (issue .xgetFaddr t (f.select 2) (xgetBody t f (fun th => th.faddr))))

/-- XGET_SSTAT (R130). -/
def execXgetSstat (t : Tid) (f : Fields) (s : State) : Host.Outcome State Fault Refusal :=
  .next (s.onPack (issue .xgetSstat t (f.select 3) (xgetBody t f (fun th => BitVec.ofNat 64 th.sstat))))

/-- XCLR (R130). -/
def execXclr (t : Tid) (f : Fields) (s : State) : Host.Outcome State Fault Refusal :=
  .next (s.onPack (issue .xclr t f (xclrBody t)))

/-- XRET (R113). -/
def execXret (t : Tid) (f : Fields) (s : State) : Host.Outcome State Fault Refusal :=
  .next (s.onPack (issue .xret t f (xretBody t f)))

end Sys2Proof.Machine
end

