-- ==== Sys2Proof/Machine/Dies.lean ====
section
/-! DEFINITION. Meanings of commands: dies, their links, routing. -/

set_option linter.unusedVariables false

namespace Sys2Proof.Machine

/-- DIE_START (R262). -/
def execDieStart (k : Nat) (site : Nat) (strapSite : Nat) (strapOri : Nat) (tests : List EdgeTest) (s : State) : Host.Outcome State Fault Refusal :=
  .next (s.onPack (fun s => s.atHub k (fun s => s.dieStart k site strapSite strapOri tests)))

/-- D2D_FRAME (R265). -/
def execD2dFrame (k : Nat) (site : Nat) (e : Nat) (gap : Nat) (new : List FlitReq) (errs : List (Nat × Nat)) (bufs : Ecc × Ecc) (s : State) : Host.Outcome State Fault Refusal :=
  .next (s.onPack (fun s => s.atHub k (fun s => s.d2dFrame k site e gap new errs bufs.1 bufs.2)))

/-- D2D_FERLIM_WINDOW (R267). -/
def execD2dFerlimWindow (k : Nat) (site : Nat) (e : Nat) (s : State) : Host.Outcome State Fault Refusal :=
  .next (s.onPack (fun s => s.atHub k (fun s => s.on k (fun g => g.d2dWindow site e))))

/-- D2D_MAP_SWITCH (R268). -/
def execD2dMapSwitch (k : Nat) (site : Nat) (e : Nat) (s : State) : Host.Outcome State Fault Refusal :=
  .next (s.onPack (fun s => s.atHub k (fun s => s.on k (fun g => g.mapSwitch site e))))

/-- D2D_PACKET (R271). -/
def execD2dPacket (k : Nat) (site : Nat) (e : Nat) (x : Nat × List FlitReq) (way : List (Nat × Nat) × Ecc × Ecc) (s : State) : Host.Outcome State Fault Refusal :=
  .next (s.onPack (fun s => s.atHub k (fun s => s.d2dPacket k site e x.1 x.2 way.1 way.2.1 way.2.2)))

/-- D2D_BUNDLE_TIMEOUT (R275). -/
def execD2dBundleTimeout (k : Nat) (site : Nat) (e : Nat) (s : State) : Host.Outcome State Fault Refusal :=
  .next (s.onPack (fun s => s.atHub k (fun s => s.on k (fun g => g.bundleTimeout site e))))

/-- D2D_CLOCK_LOSS (R268). -/
def execD2dClockLoss (k : Nat) (site : Nat) (e : Nat) (grp : Nat) (s : State) : Host.Outcome State Fault Refusal :=
  .next (s.onPack (fun s => s.atHub k (fun s => s.on k (fun g => g.clockLoss site e grp))))

/-- D2D_EBAD_WRITE (R268). -/
def execD2dEbadWrite (k : Nat) (m : Master) (site : Nat) (e : Nat) (n : Nat) (v : W32) (s : State) : Host.Outcome State Fault Refusal :=
  .next (s.onPack (fun s => s.busWrite k m site (0x1000 + 0x40 * e + 0xC + 4 * n) v))

/-- D2D_RETRAIN (R274). -/
def execD2dRetrain (k : Nat) (site : Nat) (e : Nat) (failed : Nat × Bool) (s : State) : Host.Outcome State Fault Refusal :=
  .next (s.onPack (fun s => s.atHub k (fun s => s.on k (fun g => g.retrain k site e failed.1 failed.2))))

/-- GOVERNOR_SILENCE (R276). -/
def execGovernorSilence (k : Nat) (site : Nat) (s : State) : Host.Outcome State Fault Refusal :=
  .next (s.onPack (fun s => s.atHub k (fun s => s.dieFailed k site 1)))

/-- ROUTING_COMPUTE (R278). -/
def execRoutingCompute (k : Nat) (s : State) : Host.Outcome State Fault Refusal :=
  .next (s.onPack (fun s => s.atHub k (fun s => s.routing k)))

/-- ROUTING_TABLE (R278). -/
def execRoutingTable (k : Nat) (site : Nat) (s : State) : Host.Outcome State Fault Refusal :=
  .next (s.onPack (fun s => s.atHub k (fun s => s.on k (fun g => g.takeTable site))))

end Sys2Proof.Machine
end

