-- ==== Sys2Proof/Machine/Gates.lean ====
section
/-! DEFINITION. Meanings of commands: clock gates, Kennel shares, timers. -/

set_option linter.unusedVariables false

namespace Sys2Proof.Machine

/-- DIE_GATEU_WRITE (R382). -/
def execDieGateuWrite (k : Nat) (m : Master) (site : Nat) (j : Nat) (v : W32) (s : State) : Host.Outcome State Fault Refusal :=
  .next (s.onPack (fun s => s.busWrite k m site (4 + 4 * (j % 4)) v))

/-- DIE_GATEC_WRITE (R382). -/
def execDieGatecWrite (k : Nat) (m : Master) (site : Nat) (v : W32) (s : State) : Host.Outcome State Fault Refusal :=
  .next (s.onPack (fun s => s.busWrite k m site 0x14 v))

/-- DIE_GATEB_WRITE (R382). -/
def execDieGatebWrite (k : Nat) (m : Master) (site : Nat) (v : W32) (s : State) : Host.Outcome State Fault Refusal :=
  .next (s.onPack (fun s => s.busWrite k m site 0x18 v))

/-- HUB_GATE0_WRITE (R382). -/
def execHubGate0Write (k : Nat) (m : Master) (v : W32) (s : State) : Host.Outcome State Fault Refusal :=
  .next (s.onPack (fun s => s.busWrite k m 62 4 v))

/-- HUB_GATES_WRITE (R382). -/
def execHubGatesWrite (k : Nat) (m : Master) (v : W32) (s : State) : Host.Outcome State Fault Refusal :=
  .next (s.onPack (fun s => s.busWrite k m 62 8 v))

/-- DIE_KSHR_WRITE (R386). -/
def execDieKshrWrite (k : Nat) (m : Master) (site : Nat) (v : W32) (s : State) : Host.Outcome State Fault Refusal :=
  .next (s.onPack (fun s => s.busWrite k m site 0x1C v))

/-- TIMER_REL (R387). -/
def execTimerRel (k : Nat) (m : Master) (n : Nat) (s : State) : Host.Outcome State Fault Refusal :=
  .next (s.onPack (fun s => s.busWrite k m 62 (0x1000 + 8 * n) 1))

/-- TIMER_EXPIRY (R139). -/
def execTimerExpiry (k : Nat) (n : Nat) (s : State) : Host.Outcome State Fault Refusal :=
  .next (s.onPack (fun s => s.atHub k (fun s => s.timerExpiry k n)))

end Sys2Proof.Machine
end

