-- ==== Sys2Proof/Machine/HostIf.lean ====
section
/-! DEFINITION. Meanings of commands: the host interface. -/

set_option linter.unusedVariables false

namespace Sys2Proof.Machine

/-- HOST_MEMORY_READ (R364). -/
def execHostMemoryRead (k : Nat) (bar : Nat) (off : Nat) (n : Nat) (ecc : Ecc) (s : State) : Host.Outcome State Fault Refusal :=
  .next (s.onPack (fun s => s.hostRead k bar off n ecc))

/-- HOST_MEMORY_WRITE (R364). -/
def execHostMemoryWrite (k : Nat) (bar : Nat) (off : Nat) (bs : List (Option Byte) × Bool) (ecc : Ecc) (s : State) : Host.Outcome State Fault Refusal :=
  .next (s.onPack (fun s => s.hostWrite k bar off bs.1 bs.2 ecc))

/-- HOST_READ_TIMEOUT (R365). -/
def execHostReadTimeout (k : Nat) (bar : Nat) (off : Nat) (n : Nat) (s : State) : Host.Outcome State Fault Refusal :=
  .next (s.onPack (fun s => s.hostTimeout k bar off n))

/-- CONFIG_REQUEST (R357). -/
def execConfigRequest (k : Nat) (r : CfgReq) (s : State) : Host.Outcome State Fault Refusal :=
  .next (s.onPack (fun s => s.on k (fun g => g.config k r)))

/-- HOT_RESET (R372). -/
def execHotReset (k : Nat) (s : State) : Host.Outcome State Fault Refusal :=
  .next (s.onPack (fun s => s.on k (fun g => g.hotReset)))

/-- D3HOT (R372). -/
def execD3hot (k : Nat) (s : State) : Host.Outcome State Fault Refusal :=
  .next (s.onPack (fun s => s.on k (fun g => g.d3hot)))

/-- MSIX_MESSAGE (R369). -/
def execMsixMessage (k : Nat) (v : Nat) (s : State) : Host.Outcome State Fault Refusal :=
  .next (s.onPack (fun s => s.on k (fun g => g.msixSend v)))

/-- FOLLOWER_ERROR_POSITION (R370). -/
def execFollowerErrorPosition (k : Nat) (p : Nat) (s : State) : Host.Outcome State Fault Refusal :=
  .next (s.onPack (fun s => s.atHub k (fun s => s.on k (fun g => if g.leads then g.errAt p else g))))

end Sys2Proof.Machine
end

