-- ==== Sys2Proof/Machine/Kennel.lean ====
section
/-! DEFINITION. Meanings of commands: the Kennel, thin stages, the micro-batch table, the pipeline registers. -/

set_option linter.unusedVariables false

namespace Sys2Proof.Machine

/-- KRESERVE (R133). -/
def execKreserve (t : Tid) (f : Fields) (s : State) : Host.Outcome State Fault Refusal :=
  .next (s.onPack (issue .kreserve t f (kreserveBody t f)))

/-- KSTASH (R134). -/
def execKstash (t : Tid) (f : Fields) (s : State) : Host.Outcome State Fault Refusal :=
  .next (s.onPack (issue .kstash t f (kstashBody t f)))

/-- KFETCH (R135). -/
def execKfetch (t : Tid) (f : Fields) (s : State) : Host.Outcome State Fault Refusal :=
  .next (s.onPack (issue .kfetch t f (kfetchBody t f)))

/-- KFREE (R177). -/
def execKfree (t : Tid) (f : Fields) (s : State) : Host.Outcome State Fault Refusal :=
  .next (s.onPack (issue .kfree t f (kfreeBody t f)))

/-- KRESERVE_GRANT (R175). -/
def execKreserveGrant (k : Nat) (j : Nat) (s : State) : Host.Outcome State Fault Refusal :=
  .next (s.onPack (fun s => s.atHub k (fun s => s.on k (fun g => g.kGrantNext j))))

/-- CLUS_TMAP_WRITE (R164). -/
def execClusTmapWrite (k : Nat) (m : Master) (site : Nat) (c : Nat) (hi : Bool) (v : W32) (s : State) : Host.Outcome State Fault Refusal :=
  .next (s.onPack (fun s => s.busWrite k m site (0x2000 + 8 * c + 4 * b2n hi) v))

/-- STAGE_ENABLE (R166). -/
def execStageEnable (k : Nat) (m : Master) (j : Nat) (v : W32) (s : State) : Host.Outcome State Fault Refusal :=
  .next (s.onPack (fun s => s.busWrite k m 62 (0x6000 + 0x40 * j) (setB v 27 true)))

/-- STAGE_DISABLE (R166). -/
def execStageDisable (k : Nat) (m : Master) (j : Nat) (v : W32) (s : State) : Host.Outcome State Fault Refusal :=
  .next (s.onPack (fun s => s.busWrite k m 62 (0x6000 + 0x40 * j) (setB v 27 false)))

/-- PIPE_MODE_WRITE (R184). -/
def execPipeModeWrite (k : Nat) (m : Master) (v : W32) (s : State) : Host.Outcome State Fault Refusal :=
  .next (s.onPack (fun s => s.busWrite k m 62 0x5000 v))

/-- PIPE_SPILL_WRITE (R173). -/
def execPipeSpillWrite (k : Nat) (m : Master) (v : W32) (s : State) : Host.Outcome State Fault Refusal :=
  .next (s.onPack (fun s => s.busWrite k m 62 0x5004 v))

/-- MBT_CTL_WRITE (R171). -/
def execMbtCtlWrite (k : Nat) (m : Master) (n : Nat) (v : W32) (s : State) : Host.Outcome State Fault Refusal :=
  .next (s.onPack (fun s => s.busWrite k m 62 (0x10000 + 0x20 * n) v))

end Sys2Proof.Machine
end

