-- ==== Sys2Proof/Machine/LoadStore.lean ====
section
/-! DEFINITION. Meanings of commands: loads, stores and tile descriptors, and the responses that end them. -/

set_option linter.unusedVariables false

namespace Sys2Proof.Machine

/-- LD (R98). -/
def execLd (t : Tid) (f : Fields) (s : State) : Host.Outcome State Fault Refusal :=
  .next (s.onPack (issue .ld t f (ldBody t f)))

/-- ST (R98). -/
def execSt (t : Tid) (f : Fields) (s : State) : Host.Outcome State Fault Refusal :=
  .next (s.onPack (issue .st t f (stBody t f)))

/-- TDSET (R121). -/
def execTdset (t : Tid) (f : Fields) (s : State) : Host.Outcome State Fault Refusal :=
  .next (s.onPack (issue .tdset t f (tdsetBody t f)))

/-- TDGET (R121). -/
def execTdget (t : Tid) (f : Fields) (s : State) : Host.Outcome State Fault Refusal :=
  .next (s.onPack (issue .tdget t f (tdgetBody t f)))

/-- TDADV (R121). -/
def execTdadv (t : Tid) (f : Fields) (s : State) : Host.Outcome State Fault Refusal :=
  .next (s.onPack (issue .tdadv t f (tdadvBody t f)))

/-- LOAD_RESPONSE (R111). -/
def execLoadResponse (k : Nat) (i : Nat) (ecc : Ecc) (s : State) : Host.Outcome State Fault Refusal :=
  .next (s.onPack (fun s => s.atHub k (fun s => s.loadResponse k i ecc)))

/-- STORE_ACK (R99). -/
def execStoreAck (k : Nat) (i : Nat) (ecc : Ecc) (s : State) : Host.Outcome State Fault Refusal :=
  .next (s.onPack (fun s => s.atHub k (fun s => s.storeAck k i ecc)))

end Sys2Proof.Machine
end

