-- ==== Sys2Proof/Machine/PackLinks.lean ====
section
/-! DEFINITION. Meanings of commands: pack links and membership. -/

set_option linter.unusedVariables false

namespace Sys2Proof.Machine

/-- PACK_BEAT (R290). -/
def execPackBeat (k : Nat) (n : Nat) (j : Nat) (m : Nat) (errs : List (Nat × Nat × Nat)) (s : State) : Host.Outcome State Fault Refusal :=
  .next (s.onPack (fun s => s.atPort k (fun s => s.beat k n j m errs)))

/-- BEAT_WINDOW_EXPIRY (R291). -/
def execBeatWindowExpiry (k : Nat) (n : Nat) (s : State) : Host.Outcome State Fault Refusal :=
  .next (s.onPack (fun s => s.atPort k (fun s => s.beatMiss k n)))

/-- PACK_DATA_FRAME (R287). -/
def execPackDataFrame (k : Nat) (n : Nat) (slot : Nat) (new : List FlitReq) (way : List (Nat × Nat × Nat) × Ecc × Ecc) (s : State) : Host.Outcome State Fault Refusal :=
  .next (s.onPack (fun s => s.atHub k (fun s => s.dataFrame k n slot new way.1 way.2.1 way.2.2)))

/-- PACK_CONTROL_CODEWORD (R286). -/
def execPackControlCodeword (k : Nat) (n : Nat) (slot : Nat) (errs : List (Nat × Nat × Nat)) (s : State) : Host.Outcome State Fault Refusal :=
  .next (s.onPack (fun s => s.atHub k (fun s => s.controlWord k n slot errs)))

/-- PORT_TRAIN (R293). -/
def execPortTrain (k : Nat) (n : Nat) (c : (Nat × Nat) × Bool × Nat) (s : State) : Host.Outcome State Fault Refusal :=
  .next (s.onPack (fun s => s.atHub k (fun s => s.portTrain k n c.1 c.2.1 c.2.2)))

/-- PORT_ISOLATE (R292). -/
def execPortIsolate (k : Nat) (m : Master) (n : Nat) (v : W32) (s : State) : Host.Outcome State Fault Refusal :=
  .next (s.onPack (fun s => s.busWrite k m (portSites.getD (n / 4) 0) (0x3000 + 0x40 * (n % 4)) (setB v 27 true)))

/-- PACK_PMAP_WRITE (R294). -/
def execPackPmapWrite (k : Nat) (m : Master) (p : Nat) (hops : Bool) (v : W32) (s : State) : Host.Outcome State Fault Refusal :=
  .next (s.onPack (fun s => s.busWrite k m 62 (0x7100 + 8 * p + 4 * b2n hops) v))

/-- PACK_ASSIGN_REQ (R296). -/
def execPackAssignReq (k : Nat) (m : Master) (v : W32) (s : State) : Host.Outcome State Fault Refusal :=
  .next (s.onPack (fun s => s.busWrite k m 62 0x7018 (setB v 0 true)))

/-- ASSIGN (R296). -/
def execAssign (k : Nat) (n : Nat) (p : Nat × Nat) (s : State) : Host.Outcome State Fault Refusal :=
  .next (s.onPack (fun s => s.atHub k (fun s => s.takeAssign k n p.1 p.2)))

/-- PACK_MEMNEXT_WRITE (R299). -/
def execPackMemnextWrite (k : Nat) (m : Master) (hi : Bool) (v : W32) (s : State) : Host.Outcome State Fault Refusal :=
  .next (s.onPack (fun s => s.busWrite k m 62 (0x7010 + 4 * b2n hi) v))

/-- MEMBER (R299). -/
def execMember (k : Nat) (msg : MemberMsg) (s : State) : Host.Outcome State Fault Refusal :=
  .next (s.onPack (fun s => s.atHub k (fun s => s.takeMember k msg)))

/-- PORT_DOWN (R301). -/
def execPortDown (k : Nat) (pos : Nat) (port : Nat) (farPos : Nat) (farPort : Nat) (s : State) : Host.Outcome State Fault Refusal :=
  .next (s.onPack (fun s => s.atHub k (fun s => s.takePortDown k pos port farPos farPort)))

/-- PKG_FAIL (R301). -/
def execPkgFail (k : Nat) (p : Nat) (s : State) : Host.Outcome State Fault Refusal :=
  .next (s.onPack (fun s => s.atHub k (fun s => s.declareLost k p)))

/-- LEAD_CLAIM (R302). -/
def execLeadClaim (k : Nat) (p : Nat) (epoch : Nat) (s : State) : Host.Outcome State Fault Refusal :=
  .next (s.onPack (fun s => s.atHub k (fun s => s.on k (fun g => g.leadClaim p epoch))))

/-- PARTITION_TIMEOUT (R302). -/
def execPartitionTimeout (k : Nat) (s : State) : Host.Outcome State Fault Refusal :=
  .next (s.onPack (fun s => s.atHub k (fun s => s.on k (fun g => g.partitionTimeout))))

/-- SERDES_HUB_SILENCE (R301). -/
def execSerdesHubSilence (k : Nat) (site : Nat) (s : State) : Host.Outcome State Fault Refusal :=
  .next (s.onPack (fun s => s.atHub k (fun s => s.on k (fun g => g.hubSilence site))))

/-- AUDIT_MARKER (R320). -/
def execAuditMarker (k : Nat) (l : LinkEnd) (j : Nat) (far : LinkEnd) (s : State) : Host.Outcome State Fault Refusal :=
  .next (s.onPack (fun s => s.atHub k (fun s => s.auditMarker k l j far)))

end Sys2Proof.Machine
end

