-- ==== Sys2Proof/Machine/Power.lean ====
section
/-! DEFINITION. Meanings of commands: governors, the hub's budget, heat, power commands. -/

set_option linter.unusedVariables false

namespace Sys2Proof.Machine

/-- GOV_PERIOD (R280). -/
def execGovPeriod (k : Nat) (site : Nat) (use : Nat × Nat) (s : State) : Host.Outcome State Fault Refusal :=
  .next (s.onPack (fun s => s.atHub k (fun s => s.govPeriod k site use.1 use.2)))

/-- OFFER (R400). -/
def execOffer (k : Nat) (i : Nat) (s : State) : Host.Outcome State Fault Refusal :=
  .next (s.onPack (fun s => s.atHub k (fun s => s.takeOffer k i)))

/-- ACCEPT (R280). -/
def execAccept (k : Nat) (i : Nat) (s : State) : Host.Outcome State Fault Refusal :=
  .next (s.onPack (fun s => s.atHub k (fun s => s.takeAccept k i)))

/-- REFUSE (R280). -/
def execRefuse (k : Nat) (i : Nat) (s : State) : Host.Outcome State Fault Refusal :=
  .next (s.onPack (fun s => s.atHub k (fun s => s.takeRefuse k i)))

/-- HUB_STATUS_MESSAGE (R401). -/
def execHubStatusMessage (k : Nat) (i : Nat) (s : State) : Host.Outcome State Fault Refusal :=
  .next (s.onPack (fun s => s.atHub k (fun s => s.hubStatus k i)))

/-- HUB_BUDGET_PERIOD (R398). -/
def execHubBudgetPeriod (k : Nat) (nondie : Nat) (s : State) : Host.Outcome State Fault Refusal :=
  .next (s.onPack (fun s => s.atHub k (fun s => s.on k (fun g => g.budgetPeriod nondie))))

/-- INPUT_SAMPLE (R402). -/
def execInputSample (k : Nat) (amps : Nat) (pin : Nat) (s : State) : Host.Outcome State Fault Refusal :=
  .next (s.onPack (fun s => s.atHub k (fun s => s.on k (fun g => g.inputSample amps pin))))

/-- EMERGENCY_END (R402). -/
def execEmergencyEnd (k : Nat) (s : State) : Host.Outcome State Fault Refusal :=
  .next (s.onPack (fun s => s.atHub k (fun s => s.on k (fun g => g.emergencyEnd))))

/-- JUNCTION_SAMPLE (R403). -/
def execJunctionSample (k : Nat) (site : Nat) (tj : Nat) (s : State) : Host.Outcome State Fault Refusal :=
  .next (s.onPack (fun s => s.on k (fun g => if g.hubUp && g.dieLive site then g.junction k site tj else g.wireSample k site tj)))

/-- THERMAL_THROTTLE_STEP (R403). -/
def execThermalThrottleStep (k : Nat) (site : Nat) (s : State) : Host.Outcome State Fault Refusal :=
  .next (s.onPack (fun s => s.atHub k (fun s => s.on k (fun g => g.heatStep site))))

/-- THERMAL_TRIP (R404). -/
def execThermalTrip (k : Nat) (s : State) : Host.Outcome State Fault Refusal :=
  .next (s.onPack (fun s => s.thermalTrip k))

/-- ARRAY_CLOCK_IDLE_STOP (R392). -/
def execArrayClockIdleStop (k : Nat) (site : Nat) (r : Nat) (s : State) : Host.Outcome State Fault Refusal :=
  .next (s.onPack (fun s => s.atHub k (fun s => s.on k (fun g => g.clockStop site r))))

/-- PLL_LOCK_LOSS (R388). -/
def execPllLockLoss (k : Nat) (site : Nat) (s : State) : Host.Outcome State Fault Refusal :=
  .next (s.onPack (fun s => s.atHub k (fun s => s.pllLoss k site)))

/-- PWR_LIMIT_WRITE (R398). -/
def execPwrLimitWrite (k : Nat) (m : Master) (v : W32) (s : State) : Host.Outcome State Fault Refusal :=
  .next (s.onPack (fun s => s.busWrite k m 62 0x14004 v))

/-- WAKE (R396). -/
def execWake (k : Nat) (m : Master) (s : State) : Host.Outcome State Fault Refusal :=
  .next (s.onPack (fun s => s.busWrite k m 62 0x14008 (mk32 (1 * 2 ^ 28))))

/-- STANDBY (R395). -/
def execStandby (k : Nat) (m : Master) (force : Bool) (stuck : Bool) (s : State) : Host.Outcome State Fault Refusal :=
  .next (s.onPack (fun s => s.busWrite k m 62 0x14008 (mk32 (2 * 2 ^ 28 + b2n force * 2 ^ 27)) { stuck := stuck }))

/-- OFF (R396). -/
def execPowerOff (k : Nat) (m : Master) (force : Bool) (s : State) : Host.Outcome State Fault Refusal :=
  .next (s.onPack (fun s => s.busWrite k m 62 0x14008 (mk32 (3 * 2 ^ 28 + b2n force * 2 ^ 27))))

/-- PKGRESET (R397). -/
def execPkgreset (k : Nat) (m : Master) (s : State) : Host.Outcome State Fault Refusal :=
  .next (s.onPack (fun s => s.busWrite k m 62 0x14008 (mk32 (4 * 2 ^ 28))))

/-- DIERESET (R397). -/
def execDiereset (k : Nat) (m : Master) (site : Nat) (tests : List EdgeTest) (s : State) : Host.Outcome State Fault Refusal :=
  .next (s.onPack (fun s => s.busWrite k m 62 0x14008 (mk32 (5 * 2 ^ 28 + site % 64)) { tests := tests }))

/-- GOVERNOR_MESSAGE (R281). -/
def execGovernorMessage (k : Nat) (site : Nat) (i : Nat) (s : State) : Host.Outcome State Fault Refusal :=
  .next (s.onPack (fun s => s.atHub k (fun s => s.govMessage k site i)))

end Sys2Proof.Machine
end

