-- ==== Sys2Proof/Machine/Queues.lean ====
section
/-! DEFINITION. Meanings of commands: hardware queues: instructions, grants, register writes, doorbells. -/

set_option linter.unusedVariables false

namespace Sys2Proof.Machine

/-- QPUSH (R131). -/
def execQpush (t : Tid) (f : Fields) (s : State) : Host.Outcome State Fault Refusal :=
  .next (s.onPack (issue .qpush t f (qpushBody t f)))

/-- QPOP (R131). -/
def execQpop (t : Tid) (f : Fields) (s : State) : Host.Outcome State Fault Refusal :=
  .next (s.onPack (issue .qpop t f (qpopBody t f)))

/-- QMARK (R131). -/
def execQmark (t : Tid) (f : Fields) (s : State) : Host.Outcome State Fault Refusal :=
  .next (s.onPack (issue .qmark t f (qBody .qmark t f 0 (fun _ => []) (fun _ _ => .adv))))

/-- QREWIND (R131). -/
def execQrewind (t : Tid) (f : Fields) (s : State) : Host.Outcome State Fault Refusal :=
  .next (s.onPack (issue .qrewind t f (qBody .qrewind t f 0 (fun _ => []) (fun _ _ => .adv))))

/-- QRELEASE (R151). -/
def execQrelease (t : Tid) (f : Fields) (s : State) : Host.Outcome State Fault Refusal :=
  .next (s.onPack (issue .qrelease t f (qBody .qrelease t f (f.i 15 0) (fun _ => []) (fun _ _ => .adv))))

/-- QCOUNT (R155). -/
def execQcount (t : Tid) (f : Fields) (s : State) : Host.Outcome State Fault Refusal :=
  .next (s.onPack (issue .qcount t f (qBody .qcount t f 0 (fun _ => []) (fun _ _ => .wait (.resp f.d.toNat)))))

/-- CGIVE (R151). -/
def execCgive (t : Tid) (f : Fields) (s : State) : Host.Outcome State Fault Refusal :=
  .next (s.onPack (issue .cgive t f (qBody .cgive t f (f.i 7 0) (fun _ => []) (fun _ _ => .adv))))

/-- CTAKE (R104). -/
def execCtake (t : Tid) (f : Fields) (s : State) : Host.Outcome State Fault Refusal :=
  .next (s.onPack (issue .ctake t f (ctakeBody t f)))

/-- CTAKE_GRANT (R153). -/
def execCtakeGrant (k : Nat) (site : Nat) (q : Nat) (s : State) : Host.Outcome State Fault Refusal :=
  .next (s.onPack (fun s => s.atHub k (fun s => s.ctakeGrant k site q)))

/-- QPOP_SATISFIED (R131). -/
def execQpopSatisfied (k : Nat) (site : Nat) (q : Nat) (x : Nat × Ecc) (s : State) : Host.Outcome State Fault Refusal :=
  .next (s.onPack (fun s => s.atHub k (fun s => s.qpopServe k site q x.1 x.2)))

/-- QMAP_WRITE (R143). -/
def execQmapWrite (k : Nat) (m : Master) (q : Nat) (v : W32) (s : State) : Host.Outcome State Fault Refusal :=
  .next (s.onPack (fun s => s.busWrite k m 62 (0xC000 + 4 * q) v))

/-- QUEUE_ENABLE (R159). -/
def execQueueEnable (k : Nat) (m : Master) (site : Nat) (q : Nat) (v : W32) (s : State) : Host.Outcome State Fault Refusal :=
  .next (s.onPack (fun s => s.busWrite k m site (oQueue q 0) (setB v 31 true)))

/-- QUEUE_DISABLE (R159). -/
def execQueueDisable (k : Nat) (m : Master) (site : Nat) (q : Nat) (v : W32) (s : State) : Host.Outcome State Fault Refusal :=
  .next (s.onPack (fun s => s.busWrite k m site (oQueue q 0) (setB v 31 false)))

/-- QUEUE_DOOR_PUSH (R154). -/
def execQueueDoorPush (k : Nat) (m : Master) (site : Nat) (q : Nat) (n : Nat × Nat) (s : State) : Host.Outcome State Fault Refusal :=
  .next (s.onPack (fun s => s.busWrite k m site (oQueue q 0x2C) (mk32 (1 * 2 ^ 30 + n.1 % 65536)) { upset := n.2 }))

/-- QUEUE_DOOR_CONSUME (R154). -/
def execQueueDoorConsume (k : Nat) (m : Master) (site : Nat) (q : Nat) (n : Nat × Nat) (s : State) : Host.Outcome State Fault Refusal :=
  .next (s.onPack (fun s => s.busWrite k m site (oQueue q 0x2C) (mk32 (2 * 2 ^ 30 + n.1 % 65536)) { upset := n.2 }))

/-- QUEUE_DOOR_CONSUME_RELEASE (R154). -/
def execQueueDoorConsumeRelease (k : Nat) (m : Master) (site : Nat) (q : Nat) (n : Nat × Nat) (s : State) : Host.Outcome State Fault Refusal :=
  .next (s.onPack (fun s => s.busWrite k m site (oQueue q 0x2C) (mk32 (3 * 2 ^ 30 + n.1 % 65536)) { upset := n.2 }))

/-- HIF_DOOR_FORWARD (R154). -/
def execHifDoorForward (k : Nat) (q : Nat) (op : Nat) (n : Nat × Nat) (s : State) : Host.Outcome State Fault Refusal :=
  .next (s.onPack (fun s => if (s.g k).barsUp then s.hifDoor k (q % 4096) (op % 4) (n.1 % 65536) n.2 else s))

/-- QUEUE_ENGINE_SLICE (R156). -/
def execQueueEngineSlice (k : Nat) (site : Nat) (x : Nat × Ecc) (s : State) : Host.Outcome State Fault Refusal :=
  .next (s.onPack (fun s => s.atHub k (fun s => s.engineSlice k site x.1 x.2)))

end Sys2Proof.Machine
end

