-- ==== Sys2Proof/Machine/Recovery.lean ====
section
/-! DEFINITION. Meanings of commands: reclaim, revert, protection, takeover. -/

set_option linter.unusedVariables false

namespace Sys2Proof.Machine

/-- RECLAIM (R322). -/
def execReclaim (k : Nat) (step : Nat) (s : State) : Host.Outcome State Fault Refusal :=
  .next (s.onPack (fun s => s.atHub k (fun s => s.reclaim k step)))

/-- HOLDER_REPORT (R322). -/
def execHolderReport (k : Nat) (p : Nat) (rs : List (Nat × Nat)) (s : State) : Host.Outcome State Fault Refusal :=
  .next (s.onPack (fun s => s.atHub k (fun s => s.on k (fun g => g.takeReport p rs))))

/-- RECLAIM_DONE (R322). -/
def execReclaimDone (k : Nat) (p : Nat) (s : State) : Host.Outcome State Fault Refusal :=
  .next (s.onPack (fun s => s.atHub k (fun s => s.reclaimDone k p)))

/-- REVERT_REQUEST (R343). -/
def execRevertRequest (k : Nat) (s : State) : Host.Outcome State Fault Refusal :=
  .next (s.onPack (fun s => s.atHub k (fun s => s.revertRequest k false)))

/-- REVERT (R344). -/
def execRevertMsg (k : Nat) (step : Nat) (epoch : Nat) (s : State) : Host.Outcome State Fault Refusal :=
  .next (s.onPack (fun s => s.atHub k (fun s => s.takeRevert k step epoch)))

/-- REVERT_DONE (R344). -/
def execRevertDone (k : Nat) (p : Nat) (step : Nat) (s : State) : Host.Outcome State Fault Refusal :=
  .next (s.onPack (fun s => s.atHub k (fun s => s.revertDone k p step)))

/-- PROT_REVERT (R344). -/
def execProtRevert (k : Nat) (m : Master) (v : W32) (s : State) : Host.Outcome State Fault Refusal :=
  .next (s.onPack (fun s => s.busWrite k m 62 0x40000 (setB v 23 true)))

/-- PROT_RESTORE (R352). -/
def execProtRestore (k : Nat) (m : Master) (v : W32) (cuts : List Cut) (crc : Bool) (s : State) : Host.Outcome State Fault Refusal :=
  .next (s.onPack (fun s => s.busWrite k m 62 0x40000 (setB v 22 true) { cuts := cuts, crc := crc }))

/-- PROT_UNASSIGN (R354). -/
def execProtUnassign (k : Nat) (m : Master) (v : W32) (s : State) : Host.Outcome State Fault Refusal :=
  .next (s.onPack (fun s => s.busWrite k m 62 0x40000 (setB v 21 true)))

/-- PROT_HOSTDONE (R350). -/
def execProtHostdone (k : Nat) (m : Master) (v : W32) (s : State) : Host.Outcome State Fault Refusal :=
  .next (s.onPack (fun s => s.busWrite k m 62 0x40000 (setB v 20 true)))

/-- PROT_TMODE_WRITE (R329). -/
def execProtTmodeWrite (k : Nat) (m : Master) (t : Nat) (v : W32) (s : State) : Host.Outcome State Fault Refusal :=
  .next (s.onPack (fun s => s.busWrite k m 62 (0x50000 + 4 * t) v))

/-- PROT_SPCTL_WRITE (R347). -/
def execProtSpctlWrite (k : Nat) (m : Master) (n : Nat) (v : W32) (s : State) : Host.Outcome State Fault Refusal :=
  .next (s.onPack (fun s => s.busWrite k m 62 (0x40048 + 16 * n) v))

/-- SPARE_TAKEOVER (R350). -/
def execSpareTakeover (k : Nat) (hostCut : Option Cut) (s : State) : Host.Outcome State Fault Refusal :=
  .next (s.onPack (fun s => s.atHub k (fun s => s.takeover k hostCut)))

/-- PARITY_DELTA (R332). -/
def execParityDelta (k : Nat) (i : Nat) (s : State) : Host.Outcome State Fault Refusal :=
  .next (s.onPack (fun s => s.atHub k (fun s => s.parityArrive k i)))

/-- PARITY_BUILD (R335). -/
def execParityBuild (k : Nat) (t : Nat) (j : Nat) (s : State) : Host.Outcome State Fault Refusal :=
  .next (s.onPack (fun s => s.atHub k (fun s => (s.parityBuild k t j).dqWake k)))

/-- CUT_MIRROR (R340). -/
def execCutMirror (k : Nat) (slot : Nat) (c : Cut) (s : State) : Host.Outcome State Fault Refusal :=
  .next (s.onPack (fun s => s.atHub k (fun s => s.on k (fun g => g.cutMirror slot c))))

/-- READINESS_SUPPLEMENT (R341). -/
def execReadinessSupplement (k : Nat) (msg : Supplement) (s : State) : Host.Outcome State Fault Refusal :=
  .next (s.onPack (fun s => s.atHub k (fun s => s.takeSupplement k msg)))

end Sys2Proof.Machine
end

