-- ==== Sys2Proof/Machine/Responder.lean ====
section
/-! DEFINITION. Meanings of commands: DOE, SPDM and MCTP. -/

set_option linter.unusedVariables false

namespace Sys2Proof.Machine

/-- DOE_DISCOVERY (R373). -/
def execDoeDiscovery (k : Nat) (s : State) : Host.Outcome State Fault Refusal :=
  .next (s.onPack (fun s => s.on k (fun g => g.doeDiscovery)))

/-- DOE_ABORT (R373). -/
def execDoeAbort (k : Nat) (s : State) : Host.Outcome State Fault Refusal :=
  .next (s.onPack (fun s => s.on k (fun g => g.doeAbort)))

/-- GET_VERSION (R373). -/
def execGetVersion (k : Nat) (s : State) : Host.Outcome State Fault Refusal :=
  .next (s.onPack (fun s => s.on k (fun g => g.getVersion)))

/-- GET_CAPABILITIES (R373). -/
def execGetCapabilities (k : Nat) (s : State) : Host.Outcome State Fault Refusal :=
  .next (s.onPack (fun s => s.on k (fun g => g.getCapabilities)))

/-- NEGOTIATE_ALGORITHMS (R373). -/
def execNegotiateAlgorithms (k : Nat) (s : State) : Host.Outcome State Fault Refusal :=
  .next (s.onPack (fun s => s.on k (fun g => g.negotiate)))

/-- GET_DIGESTS (R373). -/
def execGetDigests (k : Nat) (s : State) : Host.Outcome State Fault Refusal :=
  .next (s.onPack (fun s => s.on k (fun g => g.getDigests k)))

/-- GET_CERTIFICATE (R421). -/
def execGetCertificate (k : Nat) (off : Nat) (len : Nat) (s : State) : Host.Outcome State Fault Refusal :=
  .next (s.onPack (fun s => s.on k (fun g => g.getCertificate k off len)))

/-- CHALLENGE (R421). -/
def execChallenge (k : Nat) (req : List Byte) (s : State) : Host.Outcome State Fault Refusal :=
  .next (s.onPack (fun s => s.challenge k req))

/-- GET_MEASUREMENTS (R422). -/
def execGetMeasurements (k : Nat) (req : List Byte) (s : State) : Host.Outcome State Fault Refusal :=
  .next (s.onPack (fun s => s.getMeasurements k req))

/-- SPDM_UNSUPPORTED_REQUEST (R373). -/
def execSpdmUnsupportedRequest (k : Nat) (s : State) : Host.Outcome State Fault Refusal :=
  .next (s.onPack (fun s => s.on k (fun g => g.answer g.hk.spdm .unsupported)))

/-- SET_ENDPOINT_ID (R437). -/
def execSetEndpointId (k : Nat) (e : Nat) (s : State) : Host.Outcome State Fault Refusal :=
  .next (s.onPack (fun s => s.on k (fun g => g.setEid e)))

/-- GET_ENDPOINT_ID (R437). -/
def execGetEndpointId (k : Nat) (s : State) : Host.Outcome State Fault Refusal :=
  .next (s.onPack (fun s => s.on k (fun g => g.getEid)))

/-- GET_MCTP_VERSION_SUPPORT (R437). -/
def execGetMctpVersionSupport (k : Nat) (s : State) : Host.Outcome State Fault Refusal :=
  .next (s.onPack (fun s => s.on k (fun g => g.mctpVersion)))

/-- GET_MESSAGE_TYPE_SUPPORT (R437). -/
def execGetMessageTypeSupport (k : Nat) (s : State) : Host.Outcome State Fault Refusal :=
  .next (s.onPack (fun s => s.on k (fun g => g.mctpTypes)))

/-- MCTP_READ (R438). -/
def execMctpRead (k : Nat) (o : Nat) (n : Nat) (s : State) : Host.Outcome State Fault Refusal :=
  .next (s.onPack (fun s => s.mctpRead k o n))

/-- MCTP_WRITE (R438). -/
def execMctpWrite (k : Nat) (o : Nat) (v : W32) (s : State) : Host.Outcome State Fault Refusal :=
  .next (s.onPack (fun s => s.mctpWrite k o v))

/-- BSEND (R438). -/
def execBsend (k : Nat) (bs : List Byte) (s : State) : Host.Outcome State Fault Refusal :=
  .next (s.onPack (fun s => s.on k (fun g => g.bsend bs)))

/-- HTAKE (R438). -/
def execHtake (k : Nat) (s : State) : Host.Outcome State Fault Refusal :=
  .next (s.onPack (fun s => s.on k (fun g => g.htake)))

/-- SMB_ALERT_RESPONSE (R436). -/
def execSmbAlertResponse (k : Nat) (s : State) : Host.Outcome State Fault Refusal :=
  .next (s.onPack (fun s => s.on k (fun g => g.alertResponse)))

end Sys2Proof.Machine
end

