-- ==== Sys2Proof/Machine/Scales.lean ====
section
/-! DEFINITION. Meanings of commands: scale slots and the warm-up exchange. -/

set_option linter.unusedVariables false

namespace Sys2Proof.Machine

/-- SCALE_CUR_WRITE (R50). -/
def execScaleCurWrite (k : Nat) (m : Master) (site : Nat) (n : Nat) (v : W32) (s : State) : Host.Outcome State Fault Refusal :=
  .next (s.onPack (fun s => s.busWrite k m site (oScale n 4) v))

/-- SCALE_FILL_DISCARD (R55). -/
def execScaleFillDiscard (k : Nat) (m : Master) (site : Nat) (n : Nat) (v : W32) (s : State) : Host.Outcome State Fault Refusal :=
  .next (s.onPack (fun s => s.busWrite k m site (oScale n 0) (setF v 27 22 0)))

/-- SCALE_ARM (R57). -/
def execScaleArm (k : Nat) (m : Master) (site : Nat) (n : Nat) (v : W32) (s : State) : Host.Outcome State Fault Refusal :=
  .next (s.onPack (fun s => s.busWrite k m site (oScale n 0) (setB v 30 true)))

/-- WARMUP_ARM_RECEIPT (R57). -/
def execWarmupArmReceipt (k : Nat) (slot : Nat) (tag : Nat) (ncopy : Nat) (pre : Nat) (s : State) : Host.Outcome State Fault Refusal :=
  .next (s.onPack (fun s => s.atHub k (fun s => s.on k (fun g => if g.leads then g.armReceipt slot tag ncopy pre else g))))

/-- WARMUP_COMBINED (R57). -/
def execWarmupCombined (k : Nat) (slot : Nat) (tag : Nat) (pre : Nat) (s : State) : Host.Outcome State Fault Refusal :=
  .next (s.onPack (fun s => s.atHub k (fun s => s.on k (fun g => g.armCombined slot tag pre))))

end Sys2Proof.Machine
end

