-- ==== Sys2Proof/Machine/Seals.lean ====
section
/-! DEFINITION. Meanings of commands: the seal. -/

set_option linter.unusedVariables false

namespace Sys2Proof.Machine

/-- LOCALLY_READY (R216). -/
def execLocallyReady (k : Nat) (s : State) : Host.Outcome State Fault Refusal :=
  .next (s.onPack (fun s => s.atHub k (fun s => s.locallyReady k)))

/-- READY (R217). -/
def execReady (k : Nat) (msg : ReadyMsg) (s : State) : Host.Outcome State Fault Refusal :=
  .next (s.onPack (fun s => s.atHub k (fun s => s.takeReady k msg)))

/-- COMMIT (R219). -/
def execCommit (k : Nat) (msg : CommitMsg) (s : State) : Host.Outcome State Fault Refusal :=
  .next (s.onPack (fun s => s.atHub k (fun s => s.on k (fun g => g.takeCommit msg))))

/-- SEAL_APPLY (R219). -/
def execSealApply (k : Nat) (ue : List Nat) (s : State) : Host.Outcome State Fault Refusal :=
  .next (s.onPack (fun s => s.atHub k (fun s => s.sealAll k ue)))

/-- SEAL_ACK (R219). -/
def execSealAck (k : Nat) (pos : Nat) (step : Nat) (s : State) : Host.Outcome State Fault Refusal :=
  .next (s.onPack (fun s => s.atHub k (fun s => s.on k (fun g => g.takeAck pos step))))

/-- SEAL_RESUME (R344). -/
def execSealResume (k : Nat) (m : Master) (v : W32) (s : State) : Host.Outcome State Fault Refusal :=
  .next (s.onPack (fun s => s.busWrite k m 62 0x2000 (setB v 3 true)))

/-- SEAL_REQ (R217). -/
def execSealReq (k : Nat) (m : Master) (v : W32) (s : State) : Host.Outcome State Fault Refusal :=
  .next (s.onPack (fun s => s.busWrite k m 62 0x2000 (setB v 2 true)))

/-- HOST_LINK_LOST (R221). -/
def execHostLinkLost (k : Nat) (s : State) : Host.Outcome State Fault Refusal :=
  .next (s.onPack (fun s => s.atHub k (fun s => s.hostLinkLost k)))

end Sys2Proof.Machine
end

