-- ==== Sys2Proof/Machine/Stacks.lean ====
section
/-! DEFINITION. Meanings of commands: the memory stacks. -/

set_option linter.unusedVariables false

namespace Sys2Proof.Machine

/-- STACK_REQUEST (R250). -/
def execStackRequest (k : Nat) (j : Nat) (c : Nat) (rs : List StackReq) (s : State) : Host.Outcome State Fault Refusal :=
  .next (s.onPack (fun s => s.atHub k (fun s => s.stackRequest k j c rs)))

/-- STACK_PARTIAL_WRITE (R251). -/
def execStackPartialWrite (k : Nat) (j : Nat) (c : Nat) (r : StackReq) (others : List StackReq) (s : State) : Host.Outcome State Fault Refusal :=
  .next (s.onPack (fun s => s.atHub k (fun s => s.stackPartial k j c r others)))

/-- REFRESH (R256). -/
def execRefresh (k : Nat) (j : Nat) (c : Nat) (b : Nat) (pending : Bool) (s : State) : Host.Outcome State Fault Refusal :=
  .next (s.onPack (fun s => s.atHub k (fun s => s.on k (fun g => g.refresh j c b pending))))

/-- PATROL_SCRUB (R253). -/
def execPatrolScrub (k : Nat) (j : Nat) (c : Nat) (err : List (Nat × Nat)) (s : State) : Host.Outcome State Fault Refusal :=
  .next (s.onPack (fun s => s.atHub k (fun s => s.scrub k j c err)))

/-- STACK_PORT_LOST (R252). -/
def execStackPortLost (k : Nat) (j : Nat) (p : Nat) (s : State) : Host.Outcome State Fault Refusal :=
  .next (s.onPack (fun s => s.atHub k (fun s => s.stackPortDown k j p)))

/-- STACK_SENSOR_SAMPLE (R256): in S1 the hub's registers are unpowered and the sensor reaches the trip wire only (R258, R404). -/
def execStackSensorSample (k : Nat) (j : Nat) (z : Nat) (tz : Nat) (s : State) : Host.Outcome State Fault Refusal :=
  .next (s.onPack (fun s => s.on k (fun g => if g.hubUp then g.sensorSample k j z tz else g.sleepSample j z tz)))

/-- SELF_REFRESH_EXIT (R259). -/
def execSelfRefreshExit (k : Nat) (j : Nat) (s : State) : Host.Outcome State Fault Refusal :=
  .next (s.onPack (fun s => s.atHub k (fun s => s.on k (fun g => g.srefExit j))))

end Sys2Proof.Machine
end

