-- ==== Sys2Proof/Machine/Streams.lean ====
section
/-! DEFINITION. Meanings of commands: random streams. -/

set_option linter.unusedVariables false

namespace Sys2Proof.Machine

/-- RAND (R138). -/
def execRand (t : Tid) (f : Fields) (s : State) : Host.Outcome State Fault Refusal :=
  .next (s.onPack (issue .rand t f (randBody t f)))

/-- RANDT (R138). -/
def execRandt (t : Tid) (f : Fields) (s : State) : Host.Outcome State Fault Refusal :=
  .next (s.onPack (issue .randt t f (randtBody t f)))

/-- STREAM_CTL_WRITE (R79). -/
def execStreamCtlWrite (k : Nat) (m : Master) (n : Nat) (v : W32) (s : State) : Host.Outcome State Fault Refusal :=
  .next (s.onPack (fun s => s.busWrite k m 62 (oStream n 0) v))

/-- STREAM_KEY_WRITE (R79). -/
def execStreamKeyWrite (k : Nat) (m : Master) (n : Nat) (w : Nat) (v : W32) (s : State) : Host.Outcome State Fault Refusal :=
  .next (s.onPack (fun s => s.busWrite k m 62 (oStream n (4 + 4 * (w % 4))) v))

end Sys2Proof.Machine
end

