-- ==== Sys2Proof/Machine/Tap.lean ====
section
/-! DEFINITION. Meanings of commands: the test access port. -/

set_option linter.unusedVariables false

namespace Sys2Proof.Machine

/-- TAP_RESET (R439). -/
def execTapReset (k : Nat) (s : State) : Host.Outcome State Fault Refusal :=
  .next (s.onPack (fun s => s.on k (fun g => g.tapReset)))

/-- BYPASS (R440). -/
def execBypass (k : Nat) (s : State) : Host.Outcome State Fault Refusal :=
  .next (s.onPack (fun s => s.on k (fun g => g.tapBypass)))

/-- IDCODE (R439). -/
def execIdcode (k : Nat) (s : State) : Host.Outcome State Fault Refusal :=
  .next (s.onPack (fun s => s.on k (fun g => g.tapIdcode k)))

/-- SAMPLE_PRELOAD (R440). -/
def execSamplePreload (k : Nat) (cells : Nat) (s : State) : Host.Outcome State Fault Refusal :=
  .next (s.onPack (fun s => s.tapSample k cells))

/-- EXTEST (R442). -/
def execExtest (k : Nat) (cells : Nat) (s : State) : Host.Outcome State Fault Refusal :=
  .next (s.onPack (fun s => s.tapExtest k 3 cells))

/-- EXTEST_PULSE (R442). -/
def execExtestPulse (k : Nat) (cells : Nat) (s : State) : Host.Outcome State Fault Refusal :=
  .next (s.onPack (fun s => s.tapExtest k 4 cells))

/-- EXTEST_TRAIN (R442). -/
def execExtestTrain (k : Nat) (cells : Nat) (s : State) : Host.Outcome State Fault Refusal :=
  .next (s.onPack (fun s => s.tapExtest k 5 cells))

end Sys2Proof.Machine
end

