-- ==== Sys2Proof/Machine/Thresher.lean ====
section
/-! DEFINITION. Meanings of commands: tensors, optimiser groups, Threshers, gathers and replicas. -/

set_option linter.unusedVariables false

namespace Sys2Proof.Machine

/-- TENS_ENABLE (R204). -/
def execTensEnable (k : Nat) (m : Master) (t : Nat) (v : W32) (s : State) : Host.Outcome State Fault Refusal :=
  .next (s.onPack (fun s => s.busWrite k m 62 (0x80000 + 0x20 * t) (setB v 29 true)))

/-- TENS_ENABLE_PASS_DONE (R204). -/
def execTensEnablePassDone (k : Nat) (t : Nat × List Upset) (s : State) : Host.Outcome State Fault Refusal :=
  .next (s.onPack (fun s => s.atHub k (fun s => s.tensPass k t.1 t.2)))

/-- TENS_DISABLE (R203). -/
def execTensDisable (k : Nat) (m : Master) (t : Nat) (v : W32) (s : State) : Host.Outcome State Fault Refusal :=
  .next (s.onPack (fun s => s.busWrite k m 62 (0x80000 + 0x20 * t) (setB v 29 false)))

/-- OWN_WRITE (R201). -/
def execOwnWrite (k : Nat) (m : Master) (e : Nat) (hi : Bool) (v : W32) (s : State) : Host.Outcome State Fault Refusal :=
  .next (s.onPack (fun s => s.busWrite k m 62 (0x60000 + 8 * e + 4 * b2n hi) v))

/-- SCHED_ENABLE (R206). -/
def execSchedEnable (k : Nat) (m : Master) (j : Nat) (v : W32 × Ecc) (s : State) : Host.Outcome State Fault Refusal :=
  .next (s.onPack (fun s => s.busWrite k m 62 (0xA000 + 0x80 * j) (setB v.1 29 true) { ecc := v.2 }))

/-- SCHED_DISABLE (R206). -/
def execSchedDisable (k : Nat) (m : Master) (j : Nat) (v : W32) (s : State) : Host.Outcome State Fault Refusal :=
  .next (s.onPack (fun s => s.busWrite k m 62 (0xA000 + 0x80 * j) (setB v 29 false)))

/-- REDUCED_RECORD (R197). -/
def execReducedRecord (k : Nat) (i : Nat) (us : List Upset) (s : State) : Host.Outcome State Fault Refusal :=
  .next (s.onPack (fun s => s.atHub k (fun s => s.reducedRecord k i us)))

/-- END_OF_STEP_MARK (R208). -/
def execEndOfStepMark (k : Nat) (i : Nat × List Upset) (s : State) : Host.Outcome State Fault Refusal :=
  .next (s.onPack (fun s => s.atHub k (fun s => s.eosMark k i.1 i.2)))

/-- SWEEP_PASS1 (R212). -/
def execSweepPass1 (k : Nat) (j : Nat × List Upset) (s : State) : Host.Outcome State Fault Refusal :=
  .next (s.onPack (fun s => s.atHub k (fun s => s.sweepPass1 k j.1 j.2)))

/-- SWEEP_NORM_BROADCAST (R212). -/
def execSweepNormBroadcast (k : Nat) (step : Nat) (r : NormRes × List Upset) (s : State) : Host.Outcome State Fault Refusal :=
  .next (s.onPack (fun s => s.atHub k (fun s => (if (s.g k).step = step then s.sweepPass2 k r.1 r.2 else s))))

/-- GATHER_REQUEST (R213). -/
def execGatherRequest (k : Nat) (i : Nat) (n : Nat) (s : State) : Host.Outcome State Fault Refusal :=
  .next (s.onPack (fun s => s.atHub k (fun s => s.gatherRequest k i n)))

/-- GATHER_TILE (R241). -/
def execGatherTile (k : Nat) (i : Nat) (j : Nat) (us : List Upset) (chk : Bool) (s : State) : Host.Outcome State Fault Refusal :=
  .next (s.onPack (fun s => s.atHub k (fun s => s.gatherTile k i j us chk)))

/-- REPLICA_DIGESTS (R223). -/
def execReplicaDigests (k : Nat) (t : Nat) (n : Nat) (r : Nat) (digs : List Nat) (events : List (Nat × Nat)) (mine : List Nat) (s : State) : Host.Outcome State Fault Refusal :=
  .next (s.onPack (fun s => s.atHub k (fun s => s.replicaDigests k t n r digs events mine)))

/-- SWEEP_ACCUMULATOR (R212). -/
def execSweepAccumulator (k : Nat) (p : Nat) (step : Nat) (a : NormAcc) (s : State) : Host.Outcome State Fault Refusal :=
  .next (s.onPack (fun s => s.atHub k (fun s => s.on k (fun g => g.takeSweep p step a))))

end Sys2Proof.Machine
end

