-- ==== Sys2Proof/Machine/Tiles.lean ====
section
/-! DEFINITION. Meanings of commands: matrix, epilogue and table instructions and the ends of array operations. -/

set_option linter.unusedVariables false

namespace Sys2Proof.Machine

/-- MMA (R124). -/
def execMma (t : Tid) (f : Fields) (s : State) : Host.Outcome State Fault Refusal :=
  .next (s.onPack (issue .mma t f (mmaBody t f)))

/-- MMB (R125). -/
def execMmb (t : Tid) (f : Fields) (s : State) : Host.Outcome State Fault Refusal :=
  .next (s.onPack (issue .mmb t f (mmbBody t f)))

/-- EPI (R127). -/
def execEpi (t : Tid) (f : Fields) (s : State) : Host.Outcome State Fault Refusal :=
  .next (s.onPack (issue .epi t f (epiBody t f)))

/-- FNV (R128). -/
def execFnv (t : Tid) (f : Fields) (s : State) : Host.Outcome State Fault Refusal :=
  .next (s.onPack (issue .fnv t f (eltBody .fnv t f)))

/-- FND (R128). -/
def execFnd (t : Tid) (f : Fields) (s : State) : Host.Outcome State Fault Refusal :=
  .next (s.onPack (issue .fnd t f (eltBody .fnd t f)))

/-- CVT (R128). -/
def execCvt (t : Tid) (f : Fields) (s : State) : Host.Outcome State Fault Refusal :=
  .next (s.onPack (issue .cvt t f (eltBody .cvt t f)))

/-- CVTS (R129). -/
def execCvts (t : Tid) (f : Fields) (s : State) : Host.Outcome State Fault Refusal :=
  .next (s.onPack (issue .cvts t f (cvtsBody t f)))

/-- ARRAY_OPERATION_COMPLETE (R63). -/
def execArrayOperationComplete (k : Nat) (site : Nat) (u : Nat) (arr : Nat) (ecc : Ecc) (a : Nat) (s : State) : Host.Outcome State Fault Refusal :=
  .next (s.onPack (fun s => s.atHub k (fun s => s.arrayComplete k site u arr ecc a)))

end Sys2Proof.Machine
end

