-- ==== Sys2Proof/Machine/Tokens.lean ====
section
/-! DEFINITION. Meanings of commands: tokens and timers. -/

set_option linter.unusedVariables false

namespace Sys2Proof.Machine

/-- TGIVE (R100). -/
def execTgive (t : Tid) (f : Fields) (s : State) : Host.Outcome State Fault Refusal :=
  .next (s.onPack (issue .tgive t f (tgiveBody t f)))

/-- TTAKE (R100). -/
def execTtake (t : Tid) (f : Fields) (s : State) : Host.Outcome State Fault Refusal :=
  .next (s.onPack (issue .ttake t f (takeBody t f true)))

/-- TWAIT (R100). -/
def execTwait (t : Tid) (f : Fields) (s : State) : Host.Outcome State Fault Refusal :=
  .next (s.onPack (issue .twait t f (takeBody t f false)))

/-- TMALLOC (R139). -/
def execTmalloc (t : Tid) (f : Fields) (s : State) : Host.Outcome State Fault Refusal :=
  .next (s.onPack (issue .tmalloc t f (tmallocBody t f)))

/-- TMSET (R139). -/
def execTmset (t : Tid) (f : Fields) (s : State) : Host.Outcome State Fault Refusal :=
  .next (s.onPack (issue .tmset t f (tmsetBody t f)))

/-- TMFREE (R139). -/
def execTmfree (t : Tid) (f : Fields) (s : State) : Host.Outcome State Fault Refusal :=
  .next (s.onPack (issue .tmfree t f (tmfreeBody t f)))

/-- TOKEN_DELIVERY (R101). -/
def execTokenDelivery (i : Nat) (s : State) : Host.Outcome State Fault Refusal :=
  .next (s.onPack (fun s => s.tokenDelivery i))

/-- TOKEN_COUNT_WRITE (R102). -/
def execTokenCountWrite (k : Nat) (m : Master) (site : Nat) (u : Nat) (c : Nat) (v : Nat) (sat : Bool) (s : State) : Host.Outcome State Fault Refusal :=
  .next (s.onPack (fun s => s.busWrite k m site (oUnit u (0x200 + 4 * c)) (mk32 (v % 65536 + b2n sat * 65536))))

end Sys2Proof.Machine
end

