-- ==== Sys2Proof/Machine/Units.lean ====
section
/-! DEFINITION. Meanings of commands: units, engines, and writes that every block shares. -/

set_option linter.unusedVariables false

namespace Sys2Proof.Machine

/-- ENGINE_QUEUE_ROOM (R92). -/
def execEngineQueueRoom (t : Tid) (s : State) : Host.Outcome State Fault Refusal :=
  .next (s.onPack (fun s => s.atHub t.pkg (fun s => s.queueRoom t)))

/-- ENGINE_COMPLETION (R103). -/
def execEngineCompletion (k : Nat) (i : Nat) (ecc : Ecc) (a : Nat) (s : State) : Host.Outcome State Fault Refusal :=
  .next (s.onPack (fun s => s.atHub k (fun s => s.engineComplete k i ecc a)))

/-- RUN_START (R96). -/
def execRunStart (k : Nat) (m : Master) (site : Nat) (u : Nat) (n : Nat) (s : State) : Host.Outcome State Fault Refusal :=
  .next (s.onPack (fun s => s.busWrite k m site (oUnit u 0) (mk32 (2 ^ (16 + n % 16) + 2 ^ (n % 16)))))

/-- RUN_STOP (R96). -/
def execRunStop (k : Nat) (m : Master) (site : Nat) (u : Nat) (n : Nat) (s : State) : Host.Outcome State Fault Refusal :=
  .next (s.onPack (fun s => s.busWrite k m site (oUnit u 0) (mk32 (2 ^ (16 + n % 16)))))

/-- ACCST_ACCESS (R448). -/
def execAccstAccess (k : Nat) (m : Master) (site : Nat) (u : Nat) (arr : Nat) (n : Nat) (w : Option W32) (s : State) : Host.Outcome State Fault Refusal :=
  .next (s.onPack (fun s => s.atHub k (fun s => s.accstAccess k m site u arr n w)))

/-- POSTED_WRITE_COMPLETE (R379). -/
def execPostedWriteComplete (k : Nat) (site : Nat) (off : Nat) (s : State) : Host.Outcome State Fault Refusal :=
  .next (s.onPack (fun s => s.postedDone k site off))

/-- ERRLOG_TAIL_WRITE (R315). -/
def execErrlogTailWrite (k : Nat) (m : Master) (v : W32) (s : State) : Host.Outcome State Fault Refusal :=
  .next (s.onPack (fun s => s.busWrite k m 62 0x20008 v))

/-- REGISTER_WRITE (R6). -/
def execRegisterWrite (k : Nat) (m : Master) (site : Nat) (off : Nat) (v : W32) (s : State) : Host.Outcome State Fault Refusal :=
  .next (s.onPack (fun s => s.busWrite k m site off v))

end Sys2Proof.Machine
end

