-- ==== Sys2Proof/Machine/Dispatch.lean ====
section
/-! DEFINITION. The meaning of every command. -/

namespace Sys2Proof.Machine

def exec (i : Instr) (s : State) : Host.Outcome State Fault Refusal :=
  match i with
  | .add t f => Sys2Proof.Machine.execAdd t f s
  | .sub t f => Sys2Proof.Machine.execSub t f s
  | .mul t f => Sys2Proof.Machine.execMul t f s
  | .mulhu t f => Sys2Proof.Machine.execMulhu t f s
  | .divu t f => Sys2Proof.Machine.execDivu t f s
  | .remu t f => Sys2Proof.Machine.execRemu t f s
  | .divs t f => Sys2Proof.Machine.execDivs t f s
  | .rems t f => Sys2Proof.Machine.execRems t f s
  | .and t f => Sys2Proof.Machine.execAnd t f s
  | .or t f => Sys2Proof.Machine.execOr t f s
  | .xor t f => Sys2Proof.Machine.execXor t f s
  | .shl t f => Sys2Proof.Machine.execShl t f s
  | .shr t f => Sys2Proof.Machine.execShr t f s
  | .sra t f => Sys2Proof.Machine.execSra t f s
  | .addi t f => Sys2Proof.Machine.execAddi t f s
  | .subi t f => Sys2Proof.Machine.execSubi t f s
  | .muli t f => Sys2Proof.Machine.execMuli t f s
  | .mulhui t f => Sys2Proof.Machine.execMulhui t f s
  | .divui t f => Sys2Proof.Machine.execDivui t f s
  | .remui t f => Sys2Proof.Machine.execRemui t f s
  | .divsi t f => Sys2Proof.Machine.execDivsi t f s
  | .remsi t f => Sys2Proof.Machine.execRemsi t f s
  | .andi t f => Sys2Proof.Machine.execAndi t f s
  | .ori t f => Sys2Proof.Machine.execOri t f s
  | .xori t f => Sys2Proof.Machine.execXori t f s
  | .shli t f => Sys2Proof.Machine.execShli t f s
  | .shri t f => Sys2Proof.Machine.execShri t f s
  | .srai t f => Sys2Proof.Machine.execSrai t f s
  | .movhi t f => Sys2Proof.Machine.execMovhi t f s
  | .cmp t f => Sys2Proof.Machine.execCmp t f s
  | .cmpi t f => Sys2Proof.Machine.execCmpi t f s
  | .plog t f => Sys2Proof.Machine.execPlog t f s
  | .br t f => Sys2Proof.Machine.execBr t f s
  | .call t f => Sys2Proof.Machine.execCall t f s
  | .jr t f => Sys2Proof.Machine.execJr t f s
  | .halt t f => Sys2Proof.Machine.execHalt t f s
  | .ld t f => Sys2Proof.Machine.execLd t f s
  | .st t f => Sys2Proof.Machine.execSt t f s
  | .tdset t f => Sys2Proof.Machine.execTdset t f s
  | .tdget t f => Sys2Proof.Machine.execTdget t f s
  | .tdadv t f => Sys2Proof.Machine.execTdadv t f s
  | .mma t f => Sys2Proof.Machine.execMma t f s
  | .mmb t f => Sys2Proof.Machine.execMmb t f s
  | .epi t f => Sys2Proof.Machine.execEpi t f s
  | .fnv t f => Sys2Proof.Machine.execFnv t f s
  | .fnd t f => Sys2Proof.Machine.execFnd t f s
  | .cvt t f => Sys2Proof.Machine.execCvt t f s
  | .cvts t f => Sys2Proof.Machine.execCvts t f s
  | .qpush t f => Sys2Proof.Machine.execQpush t f s
  | .qpop t f => Sys2Proof.Machine.execQpop t f s
  | .qmark t f => Sys2Proof.Machine.execQmark t f s
  | .qrewind t f => Sys2Proof.Machine.execQrewind t f s
  | .qrelease t f => Sys2Proof.Machine.execQrelease t f s
  | .qcount t f => Sys2Proof.Machine.execQcount t f s
  | .tgive t f => Sys2Proof.Machine.execTgive t f s
  | .ttake t f => Sys2Proof.Machine.execTtake t f s
  | .twait t f => Sys2Proof.Machine.execTwait t f s
  | .cgive t f => Sys2Proof.Machine.execCgive t f s
  | .ctake t f => Sys2Proof.Machine.execCtake t f s
  | .kreserve t f => Sys2Proof.Machine.execKreserve t f s
  | .kstash t f => Sys2Proof.Machine.execKstash t f s
  | .kfetch t f => Sys2Proof.Machine.execKfetch t f s
  | .kfree t f => Sys2Proof.Machine.execKfree t f s
  | .gather t f => Sys2Proof.Machine.execGather t f s
  | .contrib t f => Sys2Proof.Machine.execContrib t f s
  | .rand t f => Sys2Proof.Machine.execRand t f s
  | .randt t f => Sys2Proof.Machine.execRandt t f s
  | .tmalloc t f => Sys2Proof.Machine.execTmalloc t f s
  | .tmset t f => Sys2Proof.Machine.execTmset t f s
  | .tmfree t f => Sys2Proof.Machine.execTmfree t f s
  | .fenceW t f => Sys2Proof.Machine.execFenceW t f s
  | .fenceRw t f => Sys2Proof.Machine.execFenceRw t f s
  | .fenceE t f => Sys2Proof.Machine.execFenceE t f s
  | .fenceI t f => Sys2Proof.Machine.execFenceI t f s
  | .nop t f => Sys2Proof.Machine.execNop t f s
  | .xgetCause t f => Sys2Proof.Machine.execXgetCause t f s
  | .xgetFpc t f => Sys2Proof.Machine.execXgetFpc t f s
  | .xgetFaddr t f => Sys2Proof.Machine.execXgetFaddr t f s
  | .xgetSstat t f => Sys2Proof.Machine.execXgetSstat t f s
  | .xclr t f => Sys2Proof.Machine.execXclr t f s
  | .xret t f => Sys2Proof.Machine.execXret t f s
  | .loadResponse k idx ecc => Sys2Proof.Machine.execLoadResponse k idx ecc s
  | .storeAck k idx ecc => Sys2Proof.Machine.execStoreAck k idx ecc s
  | .tokenDelivery idx => Sys2Proof.Machine.execTokenDelivery idx s
  | .ctakeGrant k site q => Sys2Proof.Machine.execCtakeGrant k site q s
  | .qpopSatisfied k site q x => Sys2Proof.Machine.execQpopSatisfied k site q x s
  | .kreserveGrant k j => Sys2Proof.Machine.execKreserveGrant k j s
  | .engineQueueRoom t => Sys2Proof.Machine.execEngineQueueRoom t s
  | .arrayOperationComplete k site u arr ecc a => Sys2Proof.Machine.execArrayOperationComplete k site u arr ecc a s
  | .engineCompletion k idx ecc a => Sys2Proof.Machine.execEngineCompletion k idx ecc a s
  | .runStart k m site u n => Sys2Proof.Machine.execRunStart k m site u n s
  | .runStop k m site u n => Sys2Proof.Machine.execRunStop k m site u n s
  | .tokenCountWrite k m site u c v sat => Sys2Proof.Machine.execTokenCountWrite k m site u c v sat s
  | .accstAccess k m site u arr n w => Sys2Proof.Machine.execAccstAccess k m site u arr n w s
  | .scaleCurWrite k m site n v => Sys2Proof.Machine.execScaleCurWrite k m site n v s
  | .scaleFillDiscard k m site n v => Sys2Proof.Machine.execScaleFillDiscard k m site n v s
  | .scaleArm k m site n v => Sys2Proof.Machine.execScaleArm k m site n v s
  | .warmupArmReceipt k slot tag ncopy pre => Sys2Proof.Machine.execWarmupArmReceipt k slot tag ncopy pre s
  | .warmupCombined k slot tag pre => Sys2Proof.Machine.execWarmupCombined k slot tag pre s
  | .streamCtlWrite k m n v => Sys2Proof.Machine.execStreamCtlWrite k m n v s
  | .streamKeyWrite k m n w v => Sys2Proof.Machine.execStreamKeyWrite k m n w v s
  | .postedWriteComplete k site off => Sys2Proof.Machine.execPostedWriteComplete k site off s
  | .qmapWrite k m q v => Sys2Proof.Machine.execQmapWrite k m q v s
  | .queueEnable k m site q v => Sys2Proof.Machine.execQueueEnable k m site q v s
  | .queueDisable k m site q v => Sys2Proof.Machine.execQueueDisable k m site q v s
  | .queueDoorPush k m site q n => Sys2Proof.Machine.execQueueDoorPush k m site q n s
  | .queueDoorConsume k m site q n => Sys2Proof.Machine.execQueueDoorConsume k m site q n s
  | .queueDoorConsumeRelease k m site q n => Sys2Proof.Machine.execQueueDoorConsumeRelease k m site q n s
  | .hifDoorForward k q op n => Sys2Proof.Machine.execHifDoorForward k q op n s
  | .queueEngineSlice k site x => Sys2Proof.Machine.execQueueEngineSlice k site x s
  | .clusTmapWrite k m site c hi v => Sys2Proof.Machine.execClusTmapWrite k m site c hi v s
  | .stageEnable k m j v => Sys2Proof.Machine.execStageEnable k m j v s
  | .stageDisable k m j v => Sys2Proof.Machine.execStageDisable k m j v s
  | .pipeModeWrite k m v => Sys2Proof.Machine.execPipeModeWrite k m v s
  | .pipeSpillWrite k m v => Sys2Proof.Machine.execPipeSpillWrite k m v s
  | .mbtCtlWrite k m n v => Sys2Proof.Machine.execMbtCtlWrite k m n v s
  | .tensEnable k m t v => Sys2Proof.Machine.execTensEnable k m t v s
  | .tensEnablePassDone k t => Sys2Proof.Machine.execTensEnablePassDone k t s
  | .tensDisable k m t v => Sys2Proof.Machine.execTensDisable k m t v s
  | .ownWrite k m e hi v => Sys2Proof.Machine.execOwnWrite k m e hi v s
  | .schedEnable k m j v => Sys2Proof.Machine.execSchedEnable k m j v s
  | .schedDisable k m j v => Sys2Proof.Machine.execSchedDisable k m j v s
  | .reducedRecord k idx us => Sys2Proof.Machine.execReducedRecord k idx us s
  | .endOfStepMark k idx => Sys2Proof.Machine.execEndOfStepMark k idx s
  | .sweepPass1 k j => Sys2Proof.Machine.execSweepPass1 k j s
  | .sweepNormBroadcast k step r => Sys2Proof.Machine.execSweepNormBroadcast k step r s
  | .gatherRequest k idx n => Sys2Proof.Machine.execGatherRequest k idx n s
  | .gatherTile k idx j us chk => Sys2Proof.Machine.execGatherTile k idx j us chk s
  | .replicaDigests k t n r digs events mine => Sys2Proof.Machine.execReplicaDigests k t n r digs events mine s
  | .locallyReady k => Sys2Proof.Machine.execLocallyReady k s
  | .ready k msg => Sys2Proof.Machine.execReady k msg s
  | .commit k msg => Sys2Proof.Machine.execCommit k msg s
  | .sealApply k ue => Sys2Proof.Machine.execSealApply k ue s
  | .sealAck k pos step => Sys2Proof.Machine.execSealAck k pos step s
  | .sealResume k m v => Sys2Proof.Machine.execSealResume k m v s
  | .sealReq k m v => Sys2Proof.Machine.execSealReq k m v s
  | .hostLinkLost k => Sys2Proof.Machine.execHostLinkLost k s
  | .collEnable k m j v => Sys2Proof.Machine.execCollEnable k m j v s
  | .collDisable k m j v => Sys2Proof.Machine.execCollDisable k m j v s
  | .collSend k site q => Sys2Proof.Machine.execCollSend k site q s
  | .inboundRecord k idx upset => Sys2Proof.Machine.execInboundRecord k idx upset s
  | .markArrival k idx upset => Sys2Proof.Machine.execMarkArrival k idx upset s
  | .collDeadlineExpiry k j => Sys2Proof.Machine.execCollDeadlineExpiry k j s
  | .stepClose k j => Sys2Proof.Machine.execStepClose k j s
  | .bcastDelivery k idx upset => Sys2Proof.Machine.execBcastDelivery k idx upset s
  | .permStart k m v => Sys2Proof.Machine.execPermStart k m v s
  | .permBlock k ecc lost => Sys2Proof.Machine.execPermBlock k ecc lost s
  | .permBarrierRelease k p => Sys2Proof.Machine.execPermBarrierRelease k p s
  | .permDone k p => Sys2Proof.Machine.execPermDone k p s
  | .stackRequest k j c rs => Sys2Proof.Machine.execStackRequest k j c rs s
  | .stackPartialWrite k j c r others => Sys2Proof.Machine.execStackPartialWrite k j c r others s
  | .refresh k j c b pending => Sys2Proof.Machine.execRefresh k j c b pending s
  | .patrolScrub k j c err => Sys2Proof.Machine.execPatrolScrub k j c err s
  | .stackPortLost k j p => Sys2Proof.Machine.execStackPortLost k j p s
  | .stackSensorSample k j z tz => Sys2Proof.Machine.execStackSensorSample k j z tz s
  | .selfRefreshExit k j => Sys2Proof.Machine.execSelfRefreshExit k j s
  | .dieStart k site strapSite strapOri tests => Sys2Proof.Machine.execDieStart k site strapSite strapOri tests s
  | .d2dFrame k site e gap new errs bufs => Sys2Proof.Machine.execD2dFrame k site e gap new errs bufs s
  | .d2dFerlimWindow k site e => Sys2Proof.Machine.execD2dFerlimWindow k site e s
  | .d2dMapSwitch k site e => Sys2Proof.Machine.execD2dMapSwitch k site e s
  | .d2dPacket k site e x way => Sys2Proof.Machine.execD2dPacket k site e x way s
  | .d2dBundleTimeout k site e => Sys2Proof.Machine.execD2dBundleTimeout k site e s
  | .d2dClockLoss k site e grp => Sys2Proof.Machine.execD2dClockLoss k site e grp s
  | .d2dEbadWrite k m site e n v => Sys2Proof.Machine.execD2dEbadWrite k m site e n v s
  | .d2dRetrain k site e failed => Sys2Proof.Machine.execD2dRetrain k site e failed s
  | .governorSilence k site => Sys2Proof.Machine.execGovernorSilence k site s
  | .routingCompute k => Sys2Proof.Machine.execRoutingCompute k s
  | .routingTable k site => Sys2Proof.Machine.execRoutingTable k site s
  | .govPeriod k site use => Sys2Proof.Machine.execGovPeriod k site use s
  | .offer k idx => Sys2Proof.Machine.execOffer k idx s
  | .accept k idx => Sys2Proof.Machine.execAccept k idx s
  | .refuse k idx => Sys2Proof.Machine.execRefuse k idx s
  | .hubStatusMessage k idx => Sys2Proof.Machine.execHubStatusMessage k idx s
  | .hubBudgetPeriod k nondie => Sys2Proof.Machine.execHubBudgetPeriod k nondie s
  | .inputSample k amps pin => Sys2Proof.Machine.execInputSample k amps pin s
  | .emergencyEnd k => Sys2Proof.Machine.execEmergencyEnd k s
  | .junctionSample k site tj => Sys2Proof.Machine.execJunctionSample k site tj s
  | .thermalThrottleStep k site => Sys2Proof.Machine.execThermalThrottleStep k site s
  | .thermalTrip k => Sys2Proof.Machine.execThermalTrip k s
  | .arrayClockIdleStop k site r => Sys2Proof.Machine.execArrayClockIdleStop k site r s
  | .pllLockLoss k site => Sys2Proof.Machine.execPllLockLoss k site s
  | .packBeat k n j m errs => Sys2Proof.Machine.execPackBeat k n j m errs s
  | .beatWindowExpiry k n => Sys2Proof.Machine.execBeatWindowExpiry k n s
  | .packDataFrame k n slot new way => Sys2Proof.Machine.execPackDataFrame k n slot new way s
  | .packControlCodeword k n slot errs => Sys2Proof.Machine.execPackControlCodeword k n slot errs s
  | .portTrain k n c => Sys2Proof.Machine.execPortTrain k n c s
  | .portIsolate k m n v => Sys2Proof.Machine.execPortIsolate k m n v s
  | .packPmapWrite k m p hops v => Sys2Proof.Machine.execPackPmapWrite k m p hops v s
  | .packAssignReq k m v => Sys2Proof.Machine.execPackAssignReq k m v s
  | .assign k n p => Sys2Proof.Machine.execAssign k n p s
  | .packMemnextWrite k m hi v => Sys2Proof.Machine.execPackMemnextWrite k m hi v s
  | .member k msg => Sys2Proof.Machine.execMember k msg s
  | .portDown k pos port farPos farPort => Sys2Proof.Machine.execPortDown k pos port farPos farPort s
  | .pkgFail k p => Sys2Proof.Machine.execPkgFail k p s
  | .leadClaim k p epoch => Sys2Proof.Machine.execLeadClaim k p epoch s
  | .partitionTimeout k => Sys2Proof.Machine.execPartitionTimeout k s
  | .serdesHubSilence k site => Sys2Proof.Machine.execSerdesHubSilence k site s
  | .auditMarker k l j far => Sys2Proof.Machine.execAuditMarker k l j far s
  | .reclaim k step => Sys2Proof.Machine.execReclaim k step s
  | .holderReport k p rs => Sys2Proof.Machine.execHolderReport k p rs s
  | .reclaimDone k p => Sys2Proof.Machine.execReclaimDone k p s
  | .revertRequest k => Sys2Proof.Machine.execRevertRequest k s
  | .revertMsg k step epoch => Sys2Proof.Machine.execRevertMsg k step epoch s
  | .revertDone k p step => Sys2Proof.Machine.execRevertDone k p step s
  | .protRevert k m v => Sys2Proof.Machine.execProtRevert k m v s
  | .protRestore k m v cuts crc => Sys2Proof.Machine.execProtRestore k m v cuts crc s
  | .protUnassign k m v => Sys2Proof.Machine.execProtUnassign k m v s
  | .protHostdone k m v => Sys2Proof.Machine.execProtHostdone k m v s
  | .protTmodeWrite k m t v => Sys2Proof.Machine.execProtTmodeWrite k m t v s
  | .protSpctlWrite k m n v => Sys2Proof.Machine.execProtSpctlWrite k m n v s
  | .spareTakeover k hostCut => Sys2Proof.Machine.execSpareTakeover k hostCut s
  | .parityDelta k idx => Sys2Proof.Machine.execParityDelta k idx s
  | .parityBuild k t j => Sys2Proof.Machine.execParityBuild k t j s
  | .cutMirror k slot c => Sys2Proof.Machine.execCutMirror k slot c s
  | .readinessSupplement k msg => Sys2Proof.Machine.execReadinessSupplement k msg s
  | .hostMemoryRead k bar off n ecc => Sys2Proof.Machine.execHostMemoryRead k bar off n ecc s
  | .hostMemoryWrite k bar off bs ecc => Sys2Proof.Machine.execHostMemoryWrite k bar off bs ecc s
  | .hostReadTimeout k bar off n => Sys2Proof.Machine.execHostReadTimeout k bar off n s
  | .configRequest k r => Sys2Proof.Machine.execConfigRequest k r s
  | .hotReset k => Sys2Proof.Machine.execHotReset k s
  | .d3hot k => Sys2Proof.Machine.execD3hot k s
  | .msixMessage k v => Sys2Proof.Machine.execMsixMessage k v s
  | .doeDiscovery k => Sys2Proof.Machine.execDoeDiscovery k s
  | .doeAbort k => Sys2Proof.Machine.execDoeAbort k s
  | .getVersion k => Sys2Proof.Machine.execGetVersion k s
  | .getCapabilities k => Sys2Proof.Machine.execGetCapabilities k s
  | .negotiateAlgorithms k => Sys2Proof.Machine.execNegotiateAlgorithms k s
  | .getDigests k => Sys2Proof.Machine.execGetDigests k s
  | .getCertificate k off len => Sys2Proof.Machine.execGetCertificate k off len s
  | .challenge k req => Sys2Proof.Machine.execChallenge k req s
  | .getMeasurements k req => Sys2Proof.Machine.execGetMeasurements k req s
  | .spdmUnsupportedRequest k => Sys2Proof.Machine.execSpdmUnsupportedRequest k s
  | .setEndpointId k e => Sys2Proof.Machine.execSetEndpointId k e s
  | .getEndpointId k => Sys2Proof.Machine.execGetEndpointId k s
  | .getMctpVersionSupport k => Sys2Proof.Machine.execGetMctpVersionSupport k s
  | .getMessageTypeSupport k => Sys2Proof.Machine.execGetMessageTypeSupport k s
  | .mctpRead k o n => Sys2Proof.Machine.execMctpRead k o n s
  | .mctpWrite k o v => Sys2Proof.Machine.execMctpWrite k o v s
  | .bsend k bs => Sys2Proof.Machine.execBsend k bs s
  | .htake k => Sys2Proof.Machine.execHtake k s
  | .smbAlertResponse k => Sys2Proof.Machine.execSmbAlertResponse k s
  | .errlogTailWrite k m v => Sys2Proof.Machine.execErrlogTailWrite k m v s
  | .dieGateuWrite k m site j v => Sys2Proof.Machine.execDieGateuWrite k m site j v s
  | .dieGatecWrite k m site v => Sys2Proof.Machine.execDieGatecWrite k m site v s
  | .dieGatebWrite k m site v => Sys2Proof.Machine.execDieGatebWrite k m site v s
  | .hubGate0Write k m v => Sys2Proof.Machine.execHubGate0Write k m v s
  | .hubGatesWrite k m v => Sys2Proof.Machine.execHubGatesWrite k m v s
  | .dieKshrWrite k m site v => Sys2Proof.Machine.execDieKshrWrite k m site v s
  | .timerRel k m n => Sys2Proof.Machine.execTimerRel k m n s
  | .timerExpiry k n => Sys2Proof.Machine.execTimerExpiry k n s
  | .pwrLimitWrite k m v => Sys2Proof.Machine.execPwrLimitWrite k m v s
  | .wake k m => Sys2Proof.Machine.execWake k m s
  | .standby k m force stuck => Sys2Proof.Machine.execStandby k m force stuck s
  | .powerOff k m force => Sys2Proof.Machine.execPowerOff k m force s
  | .pkgreset k m => Sys2Proof.Machine.execPkgreset k m s
  | .diereset k m site tests => Sys2Proof.Machine.execDiereset k m site tests s
  | .pwrOkRise k => Sys2Proof.Machine.execPwrOkRise k s
  | .pwrOkFall k => Sys2Proof.Machine.execPwrOkFall k s
  | .vaonRise k => Sys2Proof.Machine.execVaonRise k s
  | .vaonInterlock k => Sys2Proof.Machine.execVaonInterlock k s
  | .perstAssert k => Sys2Proof.Machine.execPerstAssert k s
  | .perstRelease k => Sys2Proof.Machine.execPerstRelease k s
  | .refclkLoss k => Sys2Proof.Machine.execRefclkLoss k s
  | .huskTrim k => Sys2Proof.Machine.execHuskTrim k s
  | .hsend k m len => Sys2Proof.Machine.execHsend k m len s
  | .back k m v => Sys2Proof.Machine.execBack k m v s
  | .huskIsoWrite k m v => Sys2Proof.Machine.execHuskIsoWrite k m v s
  | .qreq k m => Sys2Proof.Machine.execQreq k m s
  | .quoteDone k => Sys2Proof.Machine.execQuoteDone k s
  | .huskNonceWrite k m w v => Sys2Proof.Machine.execHuskNonceWrite k m w v s
  | .lendReadyPulse k => Sys2Proof.Machine.execLendReadyPulse k s
  | .load k m => Sys2Proof.Machine.execLoad k m s
  | .loadComplete k => Sys2Proof.Machine.execLoadComplete k s
  | .imagePush k => Sys2Proof.Machine.execImagePush k s
  | .advsvn k m => Sys2Proof.Machine.execAdvsvn k m s
  | .revoke k m mask => Sys2Proof.Machine.execRevoke k m mask s
  | .tapReset k => Sys2Proof.Machine.execTapReset k s
  | .bypass k => Sys2Proof.Machine.execBypass k s
  | .idcode k => Sys2Proof.Machine.execIdcode k s
  | .samplePreload k cells => Sys2Proof.Machine.execSamplePreload k cells s
  | .extest k cells => Sys2Proof.Machine.execExtest k cells s
  | .extestPulse k cells => Sys2Proof.Machine.execExtestPulse k cells s
  | .extestTrain k cells => Sys2Proof.Machine.execExtestTrain k cells s
  | .registerWrite k m site off v => Sys2Proof.Machine.execRegisterWrite k m site off v s
  | .refclkReturn k => Sys2Proof.Machine.execRefclkReturn k s
  | .vaonLoss k => Sys2Proof.Machine.execVaonLoss k s
  | .followerErrorPosition k p => Sys2Proof.Machine.execFollowerErrorPosition k p s
  | .sweepAccumulator k p step a => Sys2Proof.Machine.execSweepAccumulator k p step a s
  | .governorMessage k site idx => Sys2Proof.Machine.execGovernorMessage k site idx s

end Sys2Proof.Machine
end

