-- ==== Sys2Proof/WellFormed.lean ====
section
/-! DEFINITION. Which commands are well formed: every number in the range of what it names, every instruction's fields as R117 has them. -/

set_option linter.unusedVariables false

namespace Sys2Proof

/-- A thread of the pack (R10, R89). -/
def Tid.wf (t : Tid) : Bool := decide (t.pkg < 64 ∧ t.site < 48 ∧ t.unit < 64 ∧ t.thr < 16)

/-- A command whose every operand is in the range of what it names. The encoding of an instruction is not part of it: an instruction with a reserved encoding is issued, and takes its exception (R117). -/
def Instr.wf : Instr → Bool
  | .add t _ => t.wf
  | .sub t _ => t.wf
  | .mul t _ => t.wf
  | .mulhu t _ => t.wf
  | .divu t _ => t.wf
  | .remu t _ => t.wf
  | .divs t _ => t.wf
  | .rems t _ => t.wf
  | .and t _ => t.wf
  | .or t _ => t.wf
  | .xor t _ => t.wf
  | .shl t _ => t.wf
  | .shr t _ => t.wf
  | .sra t _ => t.wf
  | .addi t _ => t.wf
  | .subi t _ => t.wf
  | .muli t _ => t.wf
  | .mulhui t _ => t.wf
  | .divui t _ => t.wf
  | .remui t _ => t.wf
  | .divsi t _ => t.wf
  | .remsi t _ => t.wf
  | .andi t _ => t.wf
  | .ori t _ => t.wf
  | .xori t _ => t.wf
  | .shli t _ => t.wf
  | .shri t _ => t.wf
  | .srai t _ => t.wf
  | .movhi t _ => t.wf
  | .cmp t _ => t.wf
  | .cmpi t _ => t.wf
  | .plog t _ => t.wf
  | .br t _ => t.wf
  | .call t _ => t.wf
  | .jr t _ => t.wf
  | .halt t _ => t.wf
  | .ld t _ => t.wf
  | .st t _ => t.wf
  | .tdset t _ => t.wf
  | .tdget t _ => t.wf
  | .tdadv t _ => t.wf
  | .mma t _ => t.wf
  | .mmb t _ => t.wf
  | .epi t _ => t.wf
  | .fnv t _ => t.wf
  | .fnd t _ => t.wf
  | .cvt t _ => t.wf
  | .cvts t _ => t.wf
  | .qpush t _ => t.wf
  | .qpop t _ => t.wf
  | .qmark t _ => t.wf
  | .qrewind t _ => t.wf
  | .qrelease t _ => t.wf
  | .qcount t _ => t.wf
  | .tgive t _ => t.wf
  | .ttake t _ => t.wf
  | .twait t _ => t.wf
  | .cgive t _ => t.wf
  | .ctake t _ => t.wf
  | .kreserve t _ => t.wf
  | .kstash t _ => t.wf
  | .kfetch t _ => t.wf
  | .kfree t _ => t.wf
  | .gather t _ => t.wf
  | .contrib t _ => t.wf
  | .rand t _ => t.wf
  | .randt t _ => t.wf
  | .tmalloc t _ => t.wf
  | .tmset t _ => t.wf
  | .tmfree t _ => t.wf
  | .fenceW t _ => t.wf
  | .fenceRw t _ => t.wf
  | .fenceE t _ => t.wf
  | .fenceI t _ => t.wf
  | .nop t _ => t.wf
  | .xgetCause t _ => t.wf
  | .xgetFpc t _ => t.wf
  | .xgetFaddr t _ => t.wf
  | .xgetSstat t _ => t.wf
  | .xclr t _ => t.wf
  | .xret t _ => t.wf
  | .loadResponse k _ _ => decide (k < 64)
  | .storeAck k _ _ => decide (k < 64)
  | .tokenDelivery _ => true
  | .ctakeGrant k site q => decide (k < 64) && decide (site < 48) && decide (q < 4096)
  | .qpopSatisfied k site q (_, _) => decide (k < 64) && decide (site < 48) && decide (q < 4096)
  | .kreserveGrant k j => decide (k < 64) && decide (j < 8)
  | .engineQueueRoom t => t.wf
  | .arrayOperationComplete k site u arr _ _ => decide (k < 64) && decide (site < 48) && decide (u < 64) && decide (arr < 2)
  | .engineCompletion k _ _ _ => decide (k < 64)
  | .runStart k _ site u n => decide (k < 64) && decide (site < 48) && decide (u < 64) && decide (n < 16)
  | .runStop k _ site u n => decide (k < 64) && decide (site < 48) && decide (u < 64) && decide (n < 16)
  | .tokenCountWrite k _ site u c v _ => decide (k < 64) && decide (site < 48) && decide (u < 64) && decide (c < 64) && decide (v < 0x10000)
  | .accstAccess k _ site u arr n _ => decide (k < 64) && decide (site < 48) && decide (u < 64) && decide (arr < 2) && decide (n < 8)
  | .scaleCurWrite k _ site n _ => decide (k < 64) && decide (site < 48) && decide (n < 2048)
  | .scaleFillDiscard k _ site n _ => decide (k < 64) && decide (site < 48) && decide (n < 2048)
  | .scaleArm k _ site n _ => decide (k < 64) && decide (site < 48) && decide (n < 2048)
  | .warmupArmReceipt k slot tag ncopy pre => decide (k < 64) && decide (slot < 2048) && decide (tag < 0x10000) && decide (ncopy < 0x10000) && decide (pre < 0x10000)
  | .warmupCombined k slot tag pre => decide (k < 64) && decide (slot < 2048) && decide (tag < 0x10000) && decide (pre < 0x10000)
  | .streamCtlWrite k _ n _ => decide (k < 64) && decide (n < 1024)
  | .streamKeyWrite k _ n w _ => decide (k < 64) && decide (n < 1024) && decide (w < 4)
  | .postedWriteComplete k site off => decide (k < 64) && decide (site < 64) && decide (off < 0x100000)
  | .qmapWrite k _ q _ => decide (k < 64) && decide (q < 4096)
  | .queueEnable k _ site q _ => decide (k < 64) && decide (site < 48) && decide (q < 4096)
  | .queueDisable k _ site q _ => decide (k < 64) && decide (site < 48) && decide (q < 4096)
  | .queueDoorPush k _ site q (n, _) => decide (k < 64) && decide (site < 48) && decide (q < 4096) && decide (n < 0x10000)
  | .queueDoorConsume k _ site q (n, _) => decide (k < 64) && decide (site < 48) && decide (q < 4096) && decide (n < 0x10000)
  | .queueDoorConsumeRelease k _ site q (n, _) => decide (k < 64) && decide (site < 48) && decide (q < 4096) && decide (n < 0x10000)
  | .hifDoorForward k q op (n, _) => decide (k < 64) && decide (q < 4096) && decide (op < 4) && decide (n < 0x10000)
  | .queueEngineSlice k site (_, _) => decide (k < 64) && decide (site < 48)
  | .clusTmapWrite k _ site c _ _ => decide (k < 64) && decide (site < 48) && decide (c < 16)
  | .stageEnable k _ j _ => decide (k < 64) && decide (j < 8)
  | .stageDisable k _ j _ => decide (k < 64) && decide (j < 8)
  | .pipeModeWrite k _ _ => decide (k < 64)
  | .pipeSpillWrite k _ _ => decide (k < 64)
  | .mbtCtlWrite k _ n _ => decide (k < 64) && decide (n < 512)
  | .tensEnable k _ t _ => decide (k < 64) && decide (t < 0x4000)
  | .tensEnablePassDone k (t, _) => decide (k < 64) && decide (t < 0x4000)
  | .tensDisable k _ t _ => decide (k < 64) && decide (t < 0x4000)
  | .ownWrite k _ e _ _ => decide (k < 64) && decide (e < 0x4000)
  | .schedEnable k _ j (_, _) => decide (k < 64) && decide (j < 64)
  | .schedDisable k _ j _ => decide (k < 64) && decide (j < 64)
  | .reducedRecord k _ _ => decide (k < 64)
  | .endOfStepMark k (_, _) => decide (k < 64)
  | .sweepPass1 k (j, _) => decide (k < 64) && decide (j < 64)
  | .sweepNormBroadcast k step (_, _) => decide (k < 64) && decide (step < 0x100000000)
  | .gatherRequest k _ _ => decide (k < 64)
  | .gatherTile k _ _ _ _ => decide (k < 64)
  | .replicaDigests k t _ r _ _ _ => decide (k < 64) && decide (t < 0x4000) && decide (r < 4)
  | .locallyReady k => decide (k < 64)
  | .ready k _ => decide (k < 64)
  | .commit k _ => decide (k < 64)
  | .sealApply k _ => decide (k < 64)
  | .sealAck k pos step => decide (k < 64) && decide (pos < 64) && decide (step < 0x100000000)
  | .sealResume k _ _ => decide (k < 64)
  | .sealReq k _ _ => decide (k < 64)
  | .hostLinkLost k => decide (k < 64)
  | .collEnable k _ j _ => decide (k < 64) && decide (j < 64)
  | .collDisable k _ j _ => decide (k < 64) && decide (j < 64)
  | .collSend k site (q, _) => decide (k < 64) && decide (site < 48) && decide (q < 4096)
  | .inboundRecord k _ _ => decide (k < 64)
  | .markArrival k _ _ => decide (k < 64)
  | .collDeadlineExpiry k j => decide (k < 64) && decide (j < 64)
  | .stepClose k j => decide (k < 64) && decide (j < 64)
  | .bcastDelivery k _ _ => decide (k < 64)
  | .permStart k _ _ => decide (k < 64)
  | .permBlock k (_, off) _ => decide (k < 64) && decide (off < 4096)
  | .permBarrierRelease k (p, n) => decide (k < 64) && decide (p < 64) && decide (n < 0x100000000)
  | .permDone k p => decide (k < 64) && decide (p < 64)
  | .stackRequest k j c _ => decide (k < 64) && decide (j < 12) && decide (c < 128)
  | .stackPartialWrite k j c r _ => decide (c < 128) && decide (k < 64) && decide (j < 12) && decide (r.off < 0x1800000000)
  | .refresh k j c b _ => decide (k < 64) && decide (j < 12) && decide (c < 128) && decide (b < 32)
  | .patrolScrub k j c _ => decide (k < 64) && decide (j < 12) && decide (c < 128)
  | .stackPortLost k j p => decide (k < 64) && decide (j < 12) && decide (p < 2)
  | .stackSensorSample k j z tz => decide (k < 64) && decide (j < 12) && decide (z < 8) && decide (tz < 1024)
  | .selfRefreshExit k j => decide (k < 64) && decide (j < 12)
  | .dieStart k site strapSite strapOri _ => decide (k < 64) && decide (site < 48) && decide (strapSite < 64) && decide (strapOri < 8)
  | .d2dFrame k site e _ new _ (_, _) => decide (k < 64) && decide (site < 63) && decide (e < 5) && decide (new.length ≤ 16)
  | .d2dFerlimWindow k site e => decide (k < 64) && decide (site < 63) && decide (e < 5)
  | .d2dMapSwitch k site e => decide (k < 64) && decide (site < 63) && decide (e < 5)
  | .d2dPacket k site e (ty, new) (_, _, _) => decide (k < 64) && decide (site < 63) && decide (e < 5) && decide (ty < 4) && decide (new.length ≤ 16)
  | .d2dBundleTimeout k site e => decide (k < 64) && decide (site < 63) && decide (e < 5)
  | .d2dClockLoss k site e grp => decide (k < 64) && decide (site < 63) && decide (e < 5) && decide (grp < 2)
  | .d2dEbadWrite k _ site e n _ => decide (k < 64) && decide (site < 48) && decide (e < 4) && decide (n < 9)
  | .d2dRetrain k site e (_, _) => decide (k < 64) && decide (site < 63) && decide (e < 5)
  | .governorSilence k site => decide (k < 64) && decide (site < 48)
  | .routingCompute k => decide (k < 64)
  | .routingTable k site => decide (k < 64) && decide (site < 48)
  | .govPeriod k site (use, level) => decide (k < 64) && decide (site < 48) && decide (use < 0x10000) && decide (level < 8)
  | .offer k _ => decide (k < 64)
  | .accept k _ => decide (k < 64)
  | .refuse k _ => decide (k < 64)
  | .hubStatusMessage k _ => decide (k < 64)
  | .hubBudgetPeriod k nondie => decide (k < 64) && decide (nondie < 0x10000)
  | .inputSample k _ pin => decide (k < 64) && decide (pin < 0x10000)
  | .emergencyEnd k => decide (k < 64)
  | .junctionSample k site tj => decide (k < 64) && decide (site < 48) && decide (tj < 1024)
  | .thermalThrottleStep k site => decide (k < 64) && decide (site < 48)
  | .thermalTrip k => decide (k < 64)
  | .arrayClockIdleStop k site r => decide (k < 64) && decide (site < 48) && decide (r < 4)
  | .pllLockLoss k site => decide (k < 64) && decide (site < 48)
  | .packBeat k n j m _ => decide (k < 64) && decide (n < 32) && decide (j < 64) && decide (m < 32)
  | .beatWindowExpiry k n => decide (k < 64) && decide (n < 32)
  | .packDataFrame k n slot new (_, _, _) => decide (k < 64) && decide (n < 32) && decide (slot < 128) && decide (new.length ≤ 25)
  | .packControlCodeword k n slot _ => decide (k < 64) && decide (n < 32) && decide (slot < 128)
  | .portTrain k n (_, _, pol) => decide (k < 64) && decide (n < 32) && decide (pol < 16)
  | .portIsolate k _ n _ => decide (k < 64) && decide (n < 32)
  | .packPmapWrite k _ p _ _ => decide (k < 64) && decide (p < 64)
  | .packAssignReq k _ _ => decide (k < 64)
  | .assign k n (p, serial) => decide (k < 64) && decide (n < 32) && decide (p < 64) && decide (serial < 0x10000000000000000)
  | .packMemnextWrite k _ _ _ => decide (k < 64)
  | .member k _ => decide (k < 64)
  | .portDown k pos port farPos farPort => decide (k < 64) && decide (pos < 64) && decide (port < 32) && decide (farPos < 64) && decide (farPort < 32)
  | .pkgFail k p => decide (k < 64) && decide (p < 64)
  | .leadClaim k p epoch => decide (k < 64) && decide (p < 64) && decide (epoch < 0x10000)
  | .partitionTimeout k => decide (k < 64)
  | .serdesHubSilence k site => decide (k < 64) && decide (site < 48)
  | .auditMarker k _ j _ => decide (k < 64) && decide (j < 64)
  | .reclaim k step => decide (k < 64) && decide (step < 0x100000000)
  | .holderReport k p _ => decide (k < 64) && decide (p < 64)
  | .reclaimDone k p => decide (k < 64) && decide (p < 64)
  | .revertRequest k => decide (k < 64)
  | .revertMsg k step epoch => decide (k < 64) && decide (step < 0x100000000) && decide (epoch < 0x10000)
  | .revertDone k p step => decide (k < 64) && decide (p < 64) && decide (step < 0x100000000)
  | .protRevert k _ _ => decide (k < 64)
  | .protRestore k _ _ _ _ => decide (k < 64)
  | .protUnassign k _ _ => decide (k < 64)
  | .protHostdone k _ _ => decide (k < 64)
  | .protTmodeWrite k _ t _ => decide (k < 64) && decide (t < 0x4000)
  | .protSpctlWrite k _ n _ => decide (k < 64) && decide (n < 8)
  | .spareTakeover k _ => decide (k < 64)
  | .parityDelta k _ => decide (k < 64)
  | .parityBuild k t j => decide (k < 64) && decide (t < 0x4000) && decide (j < 16)
  | .cutMirror k slot _ => decide (k < 64) && decide (slot < 4)
  | .readinessSupplement k _ => decide (k < 64)
  | .hostMemoryRead k bar off n _ => decide (k < 64) && decide (bar < 5) && decide (off < 0x10000000000) && decide (n < 0x1001)
  | .hostMemoryWrite k bar off (_, _) _ => decide (k < 64) && decide (bar < 5) && decide (off < 0x10000000000)
  | .hostReadTimeout k bar off n => decide (k < 64) && decide (bar < 5) && decide (off < 0x10000000000) && decide (n < 0x1001)
  | .configRequest k _ => decide (k < 64)
  | .hotReset k => decide (k < 64)
  | .d3hot k => decide (k < 64)
  | .msixMessage k v => decide (k < 64) && decide (v < 2048)
  | .doeDiscovery k => decide (k < 64)
  | .doeAbort k => decide (k < 64)
  | .getVersion k => decide (k < 64)
  | .getCapabilities k => decide (k < 64)
  | .negotiateAlgorithms k => decide (k < 64)
  | .getDigests k => decide (k < 64)
  | .getCertificate k off len => decide (k < 64) && decide (off < 0x10000) && decide (len < 0x10000)
  | .challenge k _ => decide (k < 64)
  | .getMeasurements k _ => decide (k < 64)
  | .spdmUnsupportedRequest k => decide (k < 64)
  | .setEndpointId k e => decide (k < 64) && decide (e < 256)
  | .getEndpointId k => decide (k < 64)
  | .getMctpVersionSupport k => decide (k < 64)
  | .getMessageTypeSupport k => decide (k < 64)
  | .mctpRead k o n => decide (k < 64) && decide (o < 0x100000000) && decide (n < 256)
  | .mctpWrite k o _ => decide (k < 64) && decide (o < 0x100000000)
  | .bsend k _ => decide (k < 64)
  | .htake k => decide (k < 64)
  | .smbAlertResponse k => decide (k < 64)
  | .errlogTailWrite k _ _ => decide (k < 64)
  | .dieGateuWrite k _ site j _ => decide (k < 64) && decide (site < 48) && decide (j < 4)
  | .dieGatecWrite k _ site _ => decide (k < 64) && decide (site < 48)
  | .dieGatebWrite k _ site _ => decide (k < 64) && decide (site < 48)
  | .hubGate0Write k _ _ => decide (k < 64)
  | .hubGatesWrite k _ _ => decide (k < 64)
  | .dieKshrWrite k _ site _ => decide (k < 64) && decide (site < 48)
  | .timerRel k _ n => decide (k < 64) && decide (n < 64)
  | .timerExpiry k n => decide (k < 64) && decide (n < 64)
  | .pwrLimitWrite k _ _ => decide (k < 64)
  | .wake k _ => decide (k < 64)
  | .standby k _ _ _ => decide (k < 64)
  | .powerOff k _ _ => decide (k < 64)
  | .pkgreset k _ => decide (k < 64)
  | .diereset k _ site _ => decide (k < 64) && decide (site < 64)
  | .pwrOkRise k => decide (k < 64)
  | .pwrOkFall k => decide (k < 64)
  | .vaonRise k => decide (k < 64)
  | .vaonInterlock k => decide (k < 64)
  | .perstAssert k => decide (k < 64)
  | .perstRelease k => decide (k < 64)
  | .refclkLoss k => decide (k < 64)
  | .huskTrim k => decide (k < 64)
  | .hsend k _ len => decide (k < 64) && decide (len < 257)
  | .back k _ _ => decide (k < 64)
  | .huskIsoWrite k _ _ => decide (k < 64)
  | .qreq k _ => decide (k < 64)
  | .quoteDone k => decide (k < 64)
  | .huskNonceWrite k _ w _ => decide (k < 64) && decide (w < 8)
  | .lendReadyPulse k => decide (k < 64)
  | .load k _ => decide (k < 64)
  | .loadComplete k => decide (k < 64)
  | .imagePush k => decide (k < 64)
  | .advsvn k _ => decide (k < 64)
  | .revoke k _ mask => decide (k < 64) && decide (mask < 16)
  | .tapReset k => decide (k < 64)
  | .bypass k => decide (k < 64)
  | .idcode k => decide (k < 64)
  | .samplePreload k cells => decide (k < 64) && decide (cells < 0x200000000000000000000000000000000000000000000000000000000000000000000000000)
  | .extest k cells => decide (k < 64) && decide (cells < 0x200000000000000000000000000000000000000000000000000000000000000000000000000)
  | .extestPulse k cells => decide (k < 64) && decide (cells < 0x200000000000000000000000000000000000000000000000000000000000000000000000000)
  | .extestTrain k cells => decide (k < 64) && decide (cells < 0x200000000000000000000000000000000000000000000000000000000000000000000000000)
  | .registerWrite k _ site off _ => decide (k < 64) && decide (site < 64) && decide (off < 0x100000)
  | .refclkReturn k => decide (k < 64)
  | .vaonLoss k => decide (k < 64)
  | .followerErrorPosition k p => decide (k < 64) && decide (p < 64)
  | .sweepAccumulator k p step _ => decide (k < 64) && decide (p < 64) && decide (step < 0x100000000)
  | .governorMessage k site _ => decide (k < 64) && decide (site < 63)

end Sys2Proof
end

