-- ==== Sys2Proof/Safety.lean ====
section
/-! DEFINITION. What a safe step is, the invariant of the machine's stores, and the words the statements use: what a command answers, when an instruction executes, when a register is served. -/

set_option linter.unusedVariables false

namespace Sys2Proof

/-- The fields an operation issues with: FENCE and XGET carry their selector in IMM[1:0] (R119). -/
def Op.fields (op : Op) (f : Fields) : Fields :=
  match op.sel with
  | some n => f.select n
  | none => f

/-- The commands that change one package alone, and which: they reach no memory, no other package, nothing in flight. -/
def Instr.alone : Instr → Option Nat
  | .perstRelease k => some k
  | .refclkLoss k => some k
  | .lendReadyPulse k => some k
  | .refclkReturn k => some k
  | .permDone k _ => some k
  | .d2dFerlimWindow k _ _ => some k
  | .d2dMapSwitch k _ _ => some k
  | .d2dBundleTimeout k _ _ => some k
  | .d2dClockLoss k _ _ _ => some k
  | .d2dRetrain k _ _ (_, _) => some k
  | .routingTable k _ => some k
  | .configRequest k _ => some k
  | .hotReset k => some k
  | .d3hot k => some k
  | .msixMessage k _ => some k
  | .followerErrorPosition k _ => some k
  | .kreserveGrant k _ => some k
  | .assign k _ (_, _) => some k
  | .leadClaim k _ _ => some k
  | .partitionTimeout k => some k
  | .serdesHubSilence k _ => some k
  | .hubBudgetPeriod k _ => some k
  | .inputSample k _ _ => some k
  | .emergencyEnd k => some k
  | .junctionSample k _ _ => some k
  | .thermalThrottleStep k _ => some k
  | .arrayClockIdleStop k _ _ => some k
  | .holderReport k _ _ => some k
  | .revertDone k _ _ => some k
  | .cutMirror k _ _ => some k
  | .doeDiscovery k => some k
  | .doeAbort k => some k
  | .getVersion k => some k
  | .getCapabilities k => some k
  | .negotiateAlgorithms k => some k
  | .getDigests k => some k
  | .getCertificate k _ _ => some k
  | .spdmUnsupportedRequest k => some k
  | .setEndpointId k _ => some k
  | .getEndpointId k => some k
  | .getMctpVersionSupport k => some k
  | .getMessageTypeSupport k => some k
  | .bsend k _ => some k
  | .htake k => some k
  | .smbAlertResponse k => some k
  | .warmupArmReceipt k _ _ _ _ => some k
  | .warmupCombined k _ _ _ => some k
  | .commit k _ => some k
  | .sealAck k _ _ => some k
  | .refresh k _ _ _ _ => some k
  | .stackSensorSample k _ _ _ => some k
  | .selfRefreshExit k _ => some k
  | .tapReset k => some k
  | .bypass k => some k
  | .idcode k => some k
  | .sweepAccumulator k _ _ _ => some k
  | _ => none

end Sys2Proof

namespace Sys2Proof.Machine

/-- A step is safe: it answers a next state. -/
def safeStep (s : State) : Prop := ∃ t, step s = .next t

/-- The stores of a state are in their canonical form. -/
def State.Inv (s : State) : Prop := Memory.wf s.pack.mem = true

/-- The command answers a next state: the waiting commands as they were, the pack `p`. -/
def Gives (c : Instr) (s : State) (p : Pack) : Prop := exec c s = .next { s with pack := p }

/-- The command answers a next state, the waiting commands as they were, whose pack is as `P` says. -/
def Leaves (c : Instr) (s : State) (P : Pack → Prop) : Prop := ∃ p, Gives c s p ∧ P p

/-- A thread of the pack. -/
def Pack.thread (s : Pack) (t : Tid) : Thread := (s.g t.pkg).th t

/-- The instruction executes now: the unit issues thread `t` next (R92, R381), no seal holds issue (R219), the encoding is allowed (R117), the guard passes (R115), no named scalar awaits a load (R111). -/
structure Issues (s : Pack) (t : Tid) (op : Op) (f : Fields) : Prop where
  can : (s.g t.pkg).canIssue t = true
  free : (s.g t.pkg).issueHeld = false
  enc : encOk op f = true
  guard : (s.thread t).pred f.gp.toNat ≠ f.gn
  loaded : (s.g t.pkg).awaits t op f = false

/-- The pack once thread `t` has issued an instruction that left its thread as `x` and did nothing else: the unit knows who issued last (R92), an issue number is taken, the region's array clock has run (R392). -/
def Pack.settle (s : Pack) (t : Tid) (x : Thread) : Pack := s.on t.pkg (fun g => (g.issued t).setTh t x)

/-- The same, with a further change `h` of the thread's package. -/
def Pack.settleWith (s : Pack) (t : Tid) (x : Thread) (h : Pkg → Pkg) : Pack :=
  s.on t.pkg (fun g => (h (g.issued t)).setTh t x)

/-- The pack as an instruction of thread `t` meets it: its issue number is taken. -/
def Pack.atIssue (s : Pack) (t : Tid) : Pack := s.on t.pkg (fun g => g.issued t)

/-- The thread past its instruction. -/
def Thread.past (x : Thread) : Thread := x.go (x.pc + 1)

/-- A register of package `k` that takes a write of master `m` (R374 to R381): the hub is up, the offset is aligned and belongs to block `b`, the block is served, BUSY reads 0, the master may write the whole register. -/
structure Writable (s : Pack) (k : Nat) (m : Master) (site off : Nat) (b : Blk) (o : Nat) : Prop where
  up : (s.g k).hubUp = true
  aligned : off % 4 = 0
  block : blockOf site off = some (b, o)
  place : ∃ l, (s.g k).place k site 3 off = .ok l
  idle : ∀ key, busyKey site b o = some key → (s.g k).busy.contains key = false
  priv : m.priv = true ∨ pvMask b o = 0

/-- The pack with a posted write on its way: BUSY of the register that covers it reads 1 from now (R379). -/
def Pack.posted (s : Pack) (k : Nat) (x : Post) : Pack := s.on k (fun g => { g with busy := x.key :: g.busy, posts := g.posts ++ [x] })

/-- A posted write is the one under its BUSY bit that has still to take effect (R379). -/
structure Due (s : Pack) (k : Nat) (x : Post) : Prop where
  busy : (s.g k).busy.contains x.key = true
  only : (s.g k).posts.filter (fun p => p.key == x.key) = [x]

/-- POSTED_WRITE_COMPLETE of the BUSY bit of a posted write that is due leaves the pack as `P` says. -/
def Lands (s : State) (k : Nat) (x : Post) (P : Pack → Prop) : Prop :=
  ∀ site off, x.key = rk site off → Due s.pack k x → Leaves (.postedWriteComplete k site off) s P

/-- The package's Threshers hold nothing that waits: no record behind its turn or staged, no mark, no sweep (R197, R211, R212). -/
structure Pkg.thQuiet (g : Pkg) : Prop where
  tiles : ∀ p ∈ g.tr.tiles, p.2.held = []
  late : g.tr.late = []
  marks : g.tr.lateMarks = []
  sweeps : ∀ j, j < 64 → g.sEn j = true → g.sweep j = false

/-- The stack of a shard's replica is served: enabled, not in self-refresh (R211, R259). -/
def Pkg.ownerOn (g : Pkg) (t n r : Nat) : Prop := g.stackOn (g.ownStack (g.ownerOf t n r)) = true

end Sys2Proof.Machine
end

