-- ==== Sys2Proof/Certificates/Slice0/Obligations.lean ====
section
/-! DEFINITION. The statements for the provers. -/

set_option linter.unusedVariables false

open Sys2Proof Sys2Proof.Machine

/-- One step takes the command at the front of the queue, with the queue's rest; with nothing waiting the block idles (the model's choice, log 30). -/
def Obligations.StepRunsTheFrontCommand : Prop :=
  (∀ (s : State) (c : Instr) (r : List Instr), s.pending = c :: r → step s = exec c { s with pending := r }) ∧
  (∀ s : State, s.pending = [] → step s = .next s)

/-- Reset leaves package 0 in S3 (R431), every memory byte as an unlisted one reads (log 2), every thread IDLE, package 0 the leader by LEAD_N, SEAL.STEP 0, PIPE.MODE OFF, PWR.LIMIT.PLIM 6,500; the stores are in canonical form. -/
def Obligations.ResetState : Prop :=
  State.reset.Inv ∧ State.reset.pending = [] ∧
  (State.reset.pack.g 0).hk.state = 0 ∧ (State.reset.pack.g 0).leads = true ∧
  (State.reset.pack.g 0).sealed = 0 ∧ (State.reset.pack.g 0).mode = 0 ∧
  ((State.reset.pack.g 0).rd (rPwr 4)).toNat = 6500 ∧
  (∀ t : Tid, (State.reset.pack.thread t).st = .idle) ∧
  (∀ a : Nat, memRd State.reset.pack.mem a = 0)

/-- Every step answers a next state, and keeps memory in its canonical form. -/
def Obligations.EveryStepKeepsMemoryCanonical : Prop :=
  ∀ s : State, ∃ t, step s = .next t ∧ (s.Inv → t.Inv)

/-- Decoding an encoded instruction gives its operation and fields back, for every operation and every field value that R117 allows. -/
def Obligations.DecodeOfEncode : Prop :=
  ∀ (op : Op) (f : Fields), encOk op f = true → decodeWord (encodeWord op f) = some (op, f)

/-- Words written out from the encoding tables (R114, R119) decode to the instructions they stand for: ADD s3, s1, s2; SUBI s4, s4, -1 with guard not p2; LD of 4 bytes with sign extension; FENCE.E; MMA with K = 64; HALT; opcode 0x0E is not listed. -/
def Obligations.WrittenWordsDecode : Prop :=
  decodeWord 0x0018440000000000#64 = some (.add, { d := 3, a := 1, b := 2, c := 0, gn := false, gp := 0, imm := 0 }) ∧
  decodeWord 0x1121000AFFFFFFFF#64 = some (.subi, { d := 4, a := 4, b := 0, c := 0, gn := true, gp := 2, imm := 0xFFFFFFFF }) ∧
  decodeWord 0x30280000A0000010#64 = some (.ld, { d := 5, a := 0, b := 0, c := 0, gn := false, gp := 0, imm := 0xA0000010 }) ∧
  decodeWord 0xC000000000000002#64 = some (.fenceE, { d := 0, a := 0, b := 0, c := 0, gn := false, gp := 0, imm := 2 }) ∧
  decodeWord 0x5008420000000081#64 = some (.mma, { d := 1, a := 1, b := 1, c := 0, gn := false, gp := 0, imm := 0x81 }) ∧
  decodeWord 0x2B00000000000000#64 = some (.halt, { d := 0, a := 0, b := 0, c := 0, gn := false, gp := 0, imm := 0 }) ∧
  decodeWord 0x0E00000000000000#64 = none

/-- The forms in which an instruction does not execute: a thread its unit does not issue from (the command changes nothing, log 10), issue held for a seal (R219), a reserved encoding (CAUSE 0x03, whatever the guard), a guard that fails (a NOP, R115; p0 reads 1, so the all-zero guard passes), a named scalar that awaits a load (R111: the thread waits). -/
def Obligations.FormsThatDoNotExecute : Prop :=
  ∀ (s : State) (t : Tid) (op : Op) (f : Fields),
    let g := s.pack.g t.pkg
    let x := s.pack.thread t
    let f' := op.fields f
    (g.canIssue t = false → Gives (op.toInstr t f) s s.pack) ∧
    (g.canIssue t = true → g.issueHeld = true →
      Gives (op.toInstr t f) s (s.pack.on t.pkg (fun g => g.waitTh t .seal))) ∧
    (g.canIssue t = true → g.issueHeld = false → encOk op f' = false →
      ∃ addr : Word, Gives (op.toInstr t f) s
        ({ s.pack with fresh := s.pack.fresh + 1 }.on t.pkg (fun g => (g.issued t).except t x.pc 3 addr))) ∧
    (g.canIssue t = true → g.issueHeld = false → encOk op f' = true → x.pred f'.gp.toNat = f'.gn →
      Gives (op.toInstr t f) s (s.pack.settle t x.past)) ∧
    (g.canIssue t = true → g.issueHeld = false → encOk op f' = true → x.pred f'.gp.toNat ≠ f'.gn → g.awaits t op f' = true →
      Gives (op.toInstr t f) s (s.pack.on t.pkg (fun g => g.waitTh t .mem))) ∧
    x.pred 0 = true

/-- Taking an exception (R111 to R113): CAUSE, FPC and, for an access cause, FADDR are recorded; where the thread's handler for the class is enabled it goes on at HPC with the class disabled; a Kennel overrun without its handler goes on at the next instruction; any other cause leaves the thread in FAULT. -/
def Obligations.TakingAnException : Prop :=
  ∀ (g : Pkg) (t : Tid) (pc : BitVec 16) (cause : Nat) (addr : Word),
    let x := g.th t
    let y := (g.except t pc cause addr).th t
    let cls := if cause = 0x10 then 17 else if cause = 0x20 then 18 else if cause = 0x30 then 19 else 16
    y.cause = cause ∧ y.fpc = pc ∧ y.faddr = (if cause < 0x10 then addr else 0) ∧
    y.regs = x.regs ∧ y.tiles = x.tiles ∧ y.preds = x.preds ∧ y.sstat = x.sstat ∧
    (bit x.theh cls = true → y.st = .ready ∧ y.pc = BitVec.ofNat 16 (fld x.theh 15 0) ∧ y.theh = setB x.theh cls false) ∧
    (bit x.theh cls = false → cause = 0x10 → y.st = .ready ∧ y.pc = pc + 1 ∧ y.theh = x.theh) ∧
    (bit x.theh cls = false → cause ≠ 0x10 → y.st = .fault ∧ y.wait = none ∧ y.theh = x.theh)

/-- The register forms: sd := sa op sb, modulo 2^64, shifts by the low 6 bits of sb; the thread goes on; nothing else changes but the unit's bookkeeping of issue. The immediate forms: sd := sa op sext(IMM), modulo 2^64, and MOVHI. -/
def Obligations.ScalarArithmetic : Prop :=
  (
  ∀ (s : State) (t : Tid) (f : Fields),
    let x := s.pack.thread t
    let a := x.s f.a.toNat
    let b := x.s f.b.toNat
    let res (v : Word) := s.pack.settle t (x.setS f.d.toNat v).past
    (Issues s.pack t .add f → Gives (.add t f) s (res (BitVec.ofNat 64 (a.toNat + b.toNat)))) ∧
    (Issues s.pack t .sub f → Gives (.sub t f) s (res (BitVec.ofInt 64 ((a.toNat : Int) - b.toNat)))) ∧
    (Issues s.pack t .mul f → Gives (.mul t f) s (res (BitVec.ofNat 64 (a.toNat * b.toNat)))) ∧
    (Issues s.pack t .mulhu f → Gives (.mulhu t f) s (res (BitVec.ofNat 64 (a.toNat * b.toNat / 2 ^ 64)))) ∧
    (Issues s.pack t .and f → Gives (.and t f) s (res (a &&& b))) ∧
    (Issues s.pack t .or f → Gives (.or t f) s (res (a ||| b))) ∧
    (Issues s.pack t .xor f → Gives (.xor t f) s (res (a ^^^ b))) ∧
    (Issues s.pack t .shl f → Gives (.shl t f) s (res (BitVec.ofNat 64 (a.toNat * 2 ^ (b.toNat % 64))))) ∧
    (Issues s.pack t .shr f → Gives (.shr t f) s (res (BitVec.ofNat 64 (a.toNat / 2 ^ (b.toNat % 64))))) ∧
    (Issues s.pack t .sra f → Gives (.sra t f) s (res (BitVec.ofInt 64 (a.toInt / 2 ^ (b.toNat % 64)))))) ∧
  (
  ∀ (s : State) (t : Tid) (f : Fields),
    let x := s.pack.thread t
    let a := x.s f.a.toNat
    let m : Int := f.imm.toInt
    let res (v : Word) := s.pack.settle t (x.setS f.d.toNat v).past
    (Issues s.pack t .addi f → Gives (.addi t f) s (res (BitVec.ofInt 64 (a.toNat + m)))) ∧
    (Issues s.pack t .subi f → Gives (.subi t f) s (res (BitVec.ofInt 64 (a.toNat - m)))) ∧
    (Issues s.pack t .muli f → Gives (.muli t f) s (res (BitVec.ofInt 64 (a.toNat * m)))) ∧
    (Issues s.pack t .mulhui f → Gives (.mulhui t f) s (res (BitVec.ofInt 64 (a.toNat * (m % 2 ^ 64) / 2 ^ 64)))) ∧
    (Issues s.pack t .andi f → Gives (.andi t f) s (res (a &&& BitVec.ofInt 64 m))) ∧
    (Issues s.pack t .ori f → Gives (.ori t f) s (res (a ||| BitVec.ofInt 64 m))) ∧
    (Issues s.pack t .xori f → Gives (.xori t f) s (res (a ^^^ BitVec.ofInt 64 m))) ∧
    (Issues s.pack t .shli f → Gives (.shli t f) s (res (BitVec.ofNat 64 (a.toNat * 2 ^ (f.imm.toNat % 64))))) ∧
    (Issues s.pack t .shri f → Gives (.shri t f) s (res (BitVec.ofNat 64 (a.toNat / 2 ^ (f.imm.toNat % 64))))) ∧
    (Issues s.pack t .srai f → Gives (.srai t f) s (res (BitVec.ofInt 64 (a.toInt / 2 ^ (f.imm.toNat % 64))))) ∧
    (Issues s.pack t .movhi f → Gives (.movhi t f) s (res (BitVec.ofNat 64 (f.imm.toNat * 2 ^ 32 + a.toNat % 2 ^ 32)))))

/-- Division and remainder by a divisor other than zero: unsigned, or signed with the quotient truncated toward zero and the remainder with the sign of the dividend; −2^63 by −1 gives −2^63 and 0. Division or remainder by zero raises CAUSE 0x30 and leaves sd. -/
def Obligations.DivisionAndItsTrap : Prop :=
  (
  ∀ (s : State) (t : Tid) (f : Fields),
    let x := s.pack.thread t
    let a := x.s f.a.toNat
    let b := x.s f.b.toNat
    let m := f.imm.toInt
    let res (v : Word) := s.pack.settle t (x.setS f.d.toNat v).past
    (b ≠ 0 → (Issues s.pack t .divu f → Gives (.divu t f) s (res (BitVec.ofNat 64 (a.toNat / b.toNat)))) ∧
      (Issues s.pack t .remu f → Gives (.remu t f) s (res (BitVec.ofNat 64 (a.toNat % b.toNat)))) ∧
      (Issues s.pack t .divs f → Gives (.divs t f) s (res (BitVec.ofInt 64 (a.toInt.tdiv b.toInt)))) ∧
      (Issues s.pack t .rems f → Gives (.rems t f) s (res (BitVec.ofInt 64 (a.toInt.tmod b.toInt))))) ∧
    (m ≠ 0 → (Issues s.pack t .divui f → Gives (.divui t f) s (res (BitVec.ofInt 64 (a.toNat / (m % 2 ^ 64))))) ∧
      (Issues s.pack t .remui f → Gives (.remui t f) s (res (BitVec.ofInt 64 (a.toNat % (m % 2 ^ 64))))) ∧
      (Issues s.pack t .divsi f → Gives (.divsi t f) s (res (BitVec.ofInt 64 (a.toInt.tdiv m)))) ∧
      (Issues s.pack t .remsi f → Gives (.remsi t f) s (res (BitVec.ofInt 64 (a.toInt.tmod m)))))) ∧
  (
  ∀ (s : State) (t : Tid) (f : Fields) (op : Op) (c : Instr),
    ((op, c) ∈ [(Op.divu, Instr.divu t f), (.remu, .remu t f), (.divs, .divs t f), (.rems, .rems t f)] ∧
        (s.pack.thread t).s f.b.toNat = 0 ∨
      (op, c) ∈ [(Op.divui, Instr.divui t f), (.remui, .remui t f), (.divsi, .divsi t f), (.remsi, .remsi t f)] ∧ f.imm = 0) →
    Issues s.pack t op f →
    Gives c s (s.pack.on t.pkg (fun g => (g.issued t).except t (s.pack.thread t).pc 0x30 0)))

/-- CMP, CMPI and PLOG write their predicate by COND or OPC; a write to p0 is ignored. -/
def Obligations.CompareAndPredicateLogic : Prop :=
  ∀ (s : State) (t : Tid) (f : Fields),
    let x := s.pack.thread t
    let a := x.s f.a.toNat
    let res (v : Bool) := s.pack.settle t (x.setPred f.d.toNat v).past
    let holds (b : Word) : Bool :=
      if f.c = 0 then decide (a = b) else if f.c = 1 then decide (a ≠ b) else if f.c = 2 then decide (a.toNat < b.toNat)
      else if f.c = 3 then decide (b.toNat ≤ a.toNat) else if f.c = 4 then decide (a.toInt < b.toInt) else decide (b.toInt ≤ a.toInt)
    let p := x.pred f.a.toNat
    let q := x.pred f.b.toNat
    (Issues s.pack t .cmp f → Gives (.cmp t f) s (res (holds (x.s f.b.toNat)))) ∧
    (Issues s.pack t .cmpi f → Gives (.cmpi t f) s (res (holds (BitVec.ofInt 64 f.imm.toInt)))) ∧
    (Issues s.pack t .plog f → Gives (.plog t f) s
      (res (if f.c = 0 then p && q else if f.c = 1 then p || q else if f.c = 2 then p ^^ q else p && !q))) ∧
    (∀ b : Bool, x.setPred 0 b = x) ∧ x.pred 0 = true ∧
    (∀ (i j : Nat) (b : Bool), 0 < i → i < 8 → j < 8 → (x.setPred i b).pred j = if j = i then b else x.pred j)

/-- BR, CALL, JR, HALT and NOP: targets count from the instruction's own word index, modulo 2^16; HALT leaves the thread IDLE with PC at the word after it (R96). XGET reads CAUSE, FPC, FADDR or SSTAT into sd; XCLR clears SSTAT; XRET goes on at FPC, or FPC + 1 with SKIP, and enables the class of CAUSE again (R113, R130). -/
def Obligations.ControlInstructions : Prop :=
  (
  ∀ (s : State) (t : Tid) (f : Fields),
    let x := s.pack.thread t
    let target := BitVec.ofInt 16 (x.pc.toNat + f.imm.toInt)
    (Issues s.pack t .br f → Gives (.br t f) s (s.pack.settle t (x.go target))) ∧
    (Issues s.pack t .call f → Gives (.call t f) s
      (s.pack.settle t ((x.setS f.d.toNat (BitVec.ofNat 64 ((x.pc.toNat + 1) % 2 ^ 16))).go target))) ∧
    (Issues s.pack t .jr f → Gives (.jr t f) s (s.pack.settle t (x.go (BitVec.ofNat 16 (x.s f.a.toNat).toNat)))) ∧
    (Issues s.pack t .halt f → Gives (.halt t f) s (s.pack.settle t { x.past with st := .idle })) ∧
    (Issues s.pack t .nop f → Gives (.nop t f) s (s.pack.settle t x.past))) ∧
  (
  ∀ (s : State) (t : Tid) (f : Fields),
    let x := s.pack.thread t
    let res (v : Word) := s.pack.settle t (x.setS f.d.toNat v).past
    let cls := if x.cause = 0x10 then 17 else if x.cause = 0x20 then 18 else if x.cause = 0x30 then 19 else 16
    (Issues s.pack t .xgetCause (f.select 0) → Gives (.xgetCause t f) s (res (BitVec.ofNat 64 x.cause))) ∧
    (Issues s.pack t .xgetFpc (f.select 1) → Gives (.xgetFpc t f) s (res (BitVec.ofNat 64 x.fpc.toNat))) ∧
    (Issues s.pack t .xgetFaddr (f.select 2) → Gives (.xgetFaddr t f) s (res x.faddr)) ∧
    (Issues s.pack t .xgetSstat (f.select 3) → Gives (.xgetSstat t f) s (res (BitVec.ofNat 64 x.sstat))) ∧
    (Issues s.pack t .xclr f → Gives (.xclr t f) s (s.pack.settle t { x with sstat := 0 }.past)) ∧
    (Issues s.pack t .xret f → Gives (.xret t f) s
      (s.pack.settle t ({ x with theh := setB x.theh cls true }.go (if f.imm = 1 then x.fpc + 1 else x.fpc)))))

/-- FENCE.W, FENCE.RW and FENCE.E let the thread go on once its older writes, reads and engine operations, those at queues of other packages included, are done, FENCE.I at once; until then the thread waits (R108). -/
def Obligations.Fences : Prop :=
  ∀ (s : State) (t : Tid) (f : Fields),
    let g := s.pack.g t.pkg
    let done := s.pack.settle t (s.pack.thread t).past
    let hold (op : Op) := s.pack.on t.pkg (fun g => (g.issued t).waitTh t (.fence op))
    let noWrite := (∀ x ∈ g.stores, x.t = t → g.seq + 1 ≤ x.seq) ∧
      (∀ r ∈ g.aops ++ g.eops, r.t = t → outWrite r.op = true → g.seq + 1 ≤ r.seq)
    let noRead := ∀ x ∈ g.loads, x.t = t → g.seq + 1 ≤ x.seq
    let noOp := (∀ r ∈ g.aops ++ g.eops, r.t = t → g.seq + 1 ≤ r.seq) ∧
      (∀ p ∈ s.pack.pkgs, ∀ q ∈ p.2.qops, q.r.t = t → g.seq + 1 ≤ q.r.seq)
    (Issues s.pack t .fenceW (f.select 0) →
      (noWrite → Gives (.fenceW t f) s done) ∧ (¬ noWrite → Gives (.fenceW t f) s (hold .fenceW))) ∧
    (Issues s.pack t .fenceRw (f.select 1) →
      (noWrite ∧ noRead → Gives (.fenceRw t f) s done) ∧ (¬ (noWrite ∧ noRead) → Gives (.fenceRw t f) s (hold .fenceRw))) ∧
    (Issues s.pack t .fenceE (f.select 2) →
      (noOp → Gives (.fenceE t f) s done) ∧ (¬ noOp → Gives (.fenceE t f) s (hold .fenceE))) ∧
    (Issues s.pack t .fenceI (f.select 3) → Gives (.fenceI t f) s done)

/-- LD and ST at issue: the address is sa + OFF; a misaligned one, or one of register space that is not 4 bytes, raises CAUSE 0x05, one whose position is no member or whose site, space and offset are no pair of R28 CAUSE 0x01, with FADDR; at the limits of R98 (8 loads and 16 stores of a thread, 64 accesses of a unit) the thread waits; otherwise the access is put in flight and the thread goes on. An access to a status word of the thread's own unit knows the operations in front of it at its array (R63). Memory and every register are as before. -/
def Obligations.LoadAndStoreIssue : Prop :=
  ∀ (s : State) (t : Tid) (f : Fields),
    let g := s.pack.g t.pkg
    let x := s.pack.thread t
    let a : Word := BitVec.ofInt 64 ((x.s f.a.toNat).toNat + (f.imm.extractLsb' 0 28).toInt)
    let size := 2 ^ (f.imm.toNat / 2 ^ 30)
    let trap (c : Nat) := s.pack.on t.pkg (fun g => (g.issued t).except t x.pc c a)
    let hold := s.pack.on t.pkg (fun g => (g.issued t).waitTh t .mem)
    let reach := (s.pack.atIssue t).reachAtIssue t a.toNat
    let ld : Load := { seq := g.seq + 1, t := t, pc := x.pc, addr := a, size := size, sx := f.imm.toNat.testBit 29, d := f.d.toNat, reach := reach }
    let st : Store := { seq := g.seq + 1, t := t, pc := x.pc, addr := a, size := size, data := x.s f.b.toNat, reach := reach }
    let site := if a.toNat / 2 ^ 52 % 64 = 63 then t.site else a.toNat / 2 ^ 52 % 64
    let skew : Prop := a.toNat % size ≠ 0 ∨ (a.toNat / 2 ^ 48 % 16 = 3 ∧ size ≠ 4)
    let named : Prop := (∃ pk, (s.pack.atIssue t).at t.pkg (a.toNat / 2 ^ 58) = some pk) ∧
      staticOk site (a.toNat / 2 ^ 48 % 16) (a.toNat % 2 ^ 48) = true
    (Issues s.pack t .ld f →
      (skew → Gives (.ld t f) s (trap 5)) ∧
      (¬ skew → ¬ named → Gives (.ld t f) s (trap 1)) ∧
      (¬ skew → named → 8 ≤ (g.loadsOf t).length ∨ 64 ≤ g.unitFlight t → Gives (.ld t f) s hold) ∧
      (¬ skew → named → (g.loadsOf t).length < 8 → g.unitFlight t < 64 →
        Gives (.ld t f) s (s.pack.settleWith t x.past (fun g => { g with loads := g.loads ++ [ld] })))) ∧
    (Issues s.pack t .st f →
      (skew → Gives (.st t f) s (trap 5)) ∧
      (¬ skew → ¬ named → Gives (.st t f) s (trap 1)) ∧
      (¬ skew → named → 16 ≤ (g.storesOf t).length ∨ 64 ≤ g.unitFlight t → Gives (.st t f) s hold) ∧
      (¬ skew → named → (g.storesOf t).length < 16 → g.unitFlight t < 64 →
        Gives (.st t f) s (s.pack.settleWith t x.past (fun g => { g with stores := g.stores ++ [st] }))))

/-- The response of a load from memory, once its channel serves it (R250, R256): sd takes the little-endian bytes at the address, sign-extended or zero-extended, also where an error was corrected; an uncorrectable error leaves sd unwritten and the load held (R255); memory is as before. The acknowledgement of a store to memory, once its channel serves it (R250, R256): the bytes of sb, least significant first, stand at the address the store named, every other byte is as before, and the store is in flight no longer; an uncorrectable error leaves memory as it was. -/
def Obligations.MemoryResponses : Prop :=
  (
  ∀ (s : State) (k i : Nat) (l : Load) (at' : Loc),
    let t := l.t
    let x := (s.pack.g k).th t
    let v := leVal (memRdN s.pack.mem ((s.pack.g at'.pk).ringLoc at').key l.size)
    (s.pack.g k).hubUp = true → (s.pack.g k).loads[i]? = some l → l.stuck = false → t.pkg = k →
    s.pack.inOrder t l.seq l.addr.toNat l.size = true →
    s.pack.where' k (some t.site) l.addr.toNat = .ok at' → at'.space ≠ 3 → s.pack.chWaits at' = false →
    (∀ e, e ≠ Ecc.ue → Leaves (.loadResponse k i e) s (fun p =>
      p.mem = s.pack.mem ∧ l ∉ (p.g k).loads ∧
      (∀ m ∈ (s.pack.g k).loads, m ≠ l → m ∈ (p.g k).loads) ∧
      ((p.g k).th t).s l.d =
        (if l.sx ∧ 2 ^ (8 * l.size - 1) ≤ v % 2 ^ (8 * l.size) then BitVec.ofInt 64 ((v % 2 ^ (8 * l.size) : Nat) - (2 ^ (8 * l.size) : Nat) : Int)
         else BitVec.ofNat 64 (v % 2 ^ (8 * l.size))) ∧
      (∀ j, j ≠ l.d → ((p.g k).th t).s j = x.s j) ∧
      ((p.g k).th t).preds = x.preds ∧ ((p.g k).th t).tiles = x.tiles)) ∧
    Leaves (.loadResponse k i .ue) s (fun p =>
      p.mem = s.pack.mem ∧ ((p.g k).th t).regs = x.regs ∧ { l with stuck := true } ∈ (p.g k).loads)) ∧
  (
  ∀ (s : State) (k i : Nat) (x : Store) (at' : Loc),
    let t := x.t
    let a := ((s.pack.g at'.pk).ringLoc at').key
    (s.pack.g k).hubUp = true → (s.pack.g k).stores[i]? = some x → x.stuck = false → x.t.pkg = k →
    s.pack.siteOrder x = true → s.pack.inOrder t x.seq x.addr.toNat x.size = true →
    s.pack.where' k (some t.site) x.addr.toNat = .ok at' → at'.space ≠ 3 → s.pack.chWaits at' = false →
    (∀ e, e ≠ Ecc.ue → Leaves (.storeAck k i e) s (fun p =>
      x ∉ (p.g k).stores ∧
      (∀ j, j < x.size → (memRd p.mem (a + j)).toNat = x.data.toNat / 2 ^ (8 * j) % 256) ∧
      (∀ b, b < a ∨ a + x.size ≤ b → memRd p.mem b = memRd s.pack.mem b))) ∧
    Leaves (.storeAck k i .ue) s (fun p => p.mem = s.pack.mem ∧ x ∉ (p.g k).stores))

/-- TDSET, TDGET and TDADV (R121), and CVTS (R129). A move of a descriptor (R121): along rows BASE advances by v × STRIDE and ORGI by v modulo 2^20, along columns BASE by v × size and ORGJ by v modulo 2^20; with BLK, BEBASE advances by v × BESTRIDE or v across the block axis and by (v/32) × BESTRIDE or v/32 along it; a move along the block axis that is no multiple of 32, and an odd move of an F4 view along columns, are refused; nothing else of the descriptor changes. A move along columns of a view whose format code is reserved raises CAUSE 0x03 (log 101). A WORD of 5 to 7 and, for CVTS, a rounding selector other than RNE are reserved encodings. -/
def Obligations.DescriptorInstructions : Prop :=
  (
  ∀ (s : State) (t : Tid) (f : Fields),
    let x := s.pack.thread t
    let v := x.s f.a.toNat
    let d := x.td f.d.toNat
    let w := f.imm.toNat
    let set : Tile := if w = 0 then { d with w0 := v } else if w = 1 then { d with w1 := v } else if w = 2 then { d with w2 := v }
      else if w = 3 then { d with w3 := v } else { d with w4 := v }
    let src := x.td f.a.toNat
    let get := if w = 0 then src.w0 else if w = 1 then src.w1 else if w = 2 then src.w2 else if w = 3 then src.w3 else src.w4
    let c := convert (Machine.decode (fmtD (f.imm.toNat % 16)) v.toNat) (fmtD (f.imm.toNat / 16 % 16)) .rne
    (Issues s.pack t .tdset f → Gives (.tdset t f) s (s.pack.settle t (x.setTd f.d.toNat set).past)) ∧
    (Issues s.pack t .tdget f → Gives (.tdget t f) s (s.pack.settle t (x.setS f.d.toNat get).past)) ∧
    (Issues s.pack t .tdadv f →
      (w = 0 ∨ d.fmtCode < 8 →
        (∀ m, d.advance w v.toInt = some m → Gives (.tdadv t f) s (s.pack.settle t (x.setTd f.d.toNat m).past)) ∧
        (d.advance w v.toInt = none → Leaves (.tdadv t f) s (fun p =>
          (p.thread t).tiles = x.tiles ∧ (p.thread t).cause = 6 ∧ p.mem = s.pack.mem))) ∧
      (w = 1 → 8 ≤ d.fmtCode → Leaves (.tdadv t f) s (fun p =>
        (p.thread t).tiles = x.tiles ∧ (p.thread t).cause = 3 ∧ p.mem = s.pack.mem))) ∧
    (Issues s.pack t .cvts f → Gives (.cvts t f) s
      (s.pack.settle t ({ x.setS f.d.toNat (BitVec.ofNat 64 c.1) with sstat := x.sstat ||| flgBits c.2 }.past)))) ∧
  (
  (∀ (d : Tile) (v : Int) (axis : Nat), axis < 2 →
    let along : Prop := d.blk = true ∧ d.baxis = 1 - axis
    let refused : Prop := (along ∧ v % 32 ≠ 0) ∨ (d.fmt = .f4 ∧ axis = 1 ∧ v % 2 ≠ 0)
    (refused → d.advance axis v = none) ∧
    (¬ refused → ∃ m, d.advance axis v = some m ∧
      m.w0 = BitVec.ofInt 64 ((d.base : Int) + (if axis = 0 then v * d.stride else v * fmtBits d.fmt / 8)) ∧
      (d.blk = false → m.w1 = d.w1) ∧
      (d.blk = true → ¬ along → m.w1 = BitVec.ofInt 64 ((d.bebase : Int) + (if axis = 0 then v * d.bestride else v))) ∧
      (along → m.w1 = BitVec.ofInt 64 ((d.bebase : Int) + (if axis = 0 then v / 32 * d.bestride else v / 32))) ∧
      m.w2 = d.w2 ∧ m.w3 = d.w3 ∧
      (m.orgi : Int) = (if axis = 0 then ((d.orgi : Int) + v) % 2 ^ 20 else (d.orgi : Int)) ∧
      (m.orgj : Int) = (if axis = 0 then (d.orgj : Int) else ((d.orgj : Int) + v) % 2 ^ 20) ∧
      m.w4.toNat / 2 ^ 40 = d.w4.toNat / 2 ^ 40)) ∧
  (∀ f : Fields, 4 < f.imm.toNat % 8 → encOk .tdset f = false ∧ encOk .tdget f = false) ∧
  (∀ f : Fields, f.imm.toNat / 2 ^ 8 % 4 ≠ 0 → encOk .cvts f = false))

/-- The tile instructions, once their checks pass (R60, R61, R71, R72, R117, R120, R123 to R128, R134 to R138): the operation, with the descriptors and scalars as they stand at issue (R122), enters the input queue of its array or engine, and the thread goes on; with that queue full, or another thread waiting for room in it, the thread waits for room (R92). A KFREE goes to the engine while a KSTASH or KFETCH of its MBID is handed over (R135). -/
def Obligations.OperationsAreHandedOver : Prop :=
  ∀ (s : State) (t : Tid) (f : Fields) (op : Op) (v : List Word),
    let g := s.pack.g t.pkg
    let x := s.pack.thread t
    let p := s.pack.atIssue t
    let r : OpRec := { seq := g.seq + 1, t := t, pc := x.pc, op := op, f := f, td := x.td f.d.toNat, ta := x.td f.a.toNat,
                       tb := x.td f.b.toNat, tc := x.td f.c.toNat, v := v }
    let d := x.td f.d.toNat
    let a := x.td f.a.toNat
    let b := x.td f.b.toNat
    let c := x.td f.c.toNat
    let c3 := [x.s f.c.toNat, x.s (f.c.toNat + 1), x.s (f.c.toNat + 2)]
    let mbid := (x.s f.b.toNat).toNat % 2 ^ 16
    let off := (x.s f.c.toNat).toNat
    let inside (d : Tile) : Prop := off % 64 = 0 ∧ mbid ≤ 511 ∧ d.bad = none ∧ kFmtOk d = true ∧
      g.pipeOn = true ∧ g.mbHeld mbid = true ∧ off + recBytes d ≤ g.mbGran mbid * 4096
    let ready : Prop :=
      (op = .mma ∧ v = [x.s (f.i 16 12)] ∧ mmaChk p t f a b = none) ∨
      (op = .mmb ∧ v = [x.s (f.i 8 4)] ∧ mmbChk p t f a b c = none) ∨
      (op = .epi ∧ v = c3 ∧ epiChk p t f d b c3 = none) ∨
      ((op = .fnv ∨ op = .fnd ∨ op = .cvt) ∧ v = [x.s f.c.toNat, x.s (f.i 7 3)] ∧ eltChk p op t f d a b (x.s f.c.toNat) = none) ∨
      (op = .kstash ∧ v = [x.s f.b.toNat, x.s f.c.toNat] ∧ inside a ∧ viewChk p t a 32 32 = none) ∨
      (op = .kfetch ∧ v = [x.s f.b.toNat, x.s f.c.toNat] ∧ inside d) ∨
      (op = .kfree ∧ v = [x.s f.b.toNat] ∧ g.pipeOn = true ∧ mbid ≤ 511 ∧ g.kBusy mbid = true) ∨
      (op = .randt ∧ f.ib 10 = false ∧ v = [x.s f.a.toNat, x.s f.b.toNat] ∧ randtChk p t f = none) ∨
      (op = .gather ∧ v = [x.s f.a.toNat] ∧ d.bad = none ∧ g.scaleOn t.site = true ∧ g.cengOn t.site = true ∧
        g.stateOn = true ∧ viewChk p t d 32 (32 * (f.i 10 3 + 1)) = none)
    let turn : Prop := g.room r = true ∧ ∀ y ∈ g.roomWaits, sameInput r y = false
    Issues s.pack t op f → ready →
      ((turn → r.toArray = true →
        Gives (op.toInstr t f) s (s.pack.settleWith t x.past (fun g => { g with aops := g.aops ++ [r] }))) ∧
      (turn → r.toArray = false →
        Gives (op.toInstr t f) s (s.pack.settleWith t x.past (fun g => { g with eops := g.eops ++ [r] }))) ∧
      (¬ turn → Gives (op.toInstr t f) s (s.pack.on t.pkg (fun g => (g.issued t).waitTh t (.room r 0 none)))) ∧
      (r.toArray = true ↔ op = .mma ∨ op = .mmb ∨ op = .epi))

/-- A KSTASH past its reservation (R178): it writes nothing, the micro-batch's RECOMP is set and KOVR takes the first overrun, and its completion count is delivered, the thread takes CAUSE 0x10; without a handler it goes on at the next instruction. -/
def Obligations.KennelOverrun : Prop :=
  ∀ (s : State) (t : Tid) (f : Fields),
    let g := s.pack.g t.pkg
    let x := s.pack.thread t
    let a := x.td f.a.toNat
    let mbid := (x.s f.b.toNat).toNat % 2 ^ 16
    let off := (x.s f.c.toNat).toNat
    Issues s.pack t .kstash f → g.pipeOn = true → mbid ≤ 511 → a.bad = none → kFmtOk a = true → off % 64 = 0 →
    viewChk (s.pack.atIssue t) t a 32 32 = none →
    g.mbGran mbid * 4096 < off + recBytes a ∨ g.mbHeld mbid = false →
    Leaves (.kstash t f) s (fun p =>
      (p.g t.pkg).mbRecomp mbid = true ∧
      ((g.rd (rMbt mbid 0xC)).toNat = 0xFFFFFFFF → off / 64 < 2 ^ 32 → ((p.g t.pkg).rd (rMbt mbid 0xC)).toNat = off / 64) ∧
      (0 < f.tcnt → (∀ e ∈ g.thr, ∀ n b pd tm, e.2.wait ≠ some (.token f.tctr n b pd tm)) →
        ((p.g t.pkg).tk t.site t.unit f.tctr).count = min ((g.tk t.site t.unit f.tctr).count + f.tcnt) 65535) ∧
      (p.g t.pkg).kst = g.kst ∧ (p.g t.pkg).eops = g.eops ∧ p.mem = s.pack.mem ∧
      (p.thread t).cause = 0x10 ∧ (p.thread t).regs = x.regs ∧
      (bit x.theh 17 = false → (p.thread t).st = .ready ∧ (p.thread t).pc = x.pc + 1))

/-- KRESERVE (R133, R174, R175): with its stage's conditions met and nobody waiting it is granted at once, the granules rounded up, IN_FLIGHT and USED of the stage counted up; over the stage's capacity or without a stage it answers 0; otherwise the thread waits, and KRESERVE_GRANT grants the oldest. KFREE clears KHELD, GRAN, RECOMP and ORPHAN, sets KOVR to all ones, returns the granules to the stage, and leaves the other fields of the entry (R177). -/
def Obligations.KennelReservations : Prop :=
  ∀ (s : State) (t : Tid) (f : Fields) (j : Nat),
    let g := s.pack.g t.pkg
    let x := s.pack.thread t
    let mbid := (x.s f.b.toNat).toNat % 2 ^ 16
    let bytes := (x.s f.c.toNat).toNat
    let n := (bytes + 4095) / 4096
    let fits : Prop := g.stUsed j + n ≤ g.stCap j ∧ (g.rf (rStage j 0) 25 16 = 0 ∨ g.stInfl j < g.rf (rStage j 0) 25 16) ∧
      (g.rb (rStage j 0) 26 = true ∨ g.bqReady j = 0)
    (Issues s.pack t .kreserve f → g.pipeOn = true → mbid ≤ 511 → bytes % 64 = 0 → g.mbHeld mbid = false →
      (g.stageOf t = none → Gives (.kreserve t f) s (s.pack.settle t (x.setPred f.d.toNat false).past)) ∧
      (g.stageOf t = some j → g.stCap j < n → Gives (.kreserve t f) s (s.pack.settle t (x.setPred f.d.toNat false).past)) ∧
      (g.stageOf t = some j → fits → g.kLine j = [] →
        Gives (.kreserve t f) s (s.pack.settleWith t (x.setPred f.d.toNat true).past (fun g => g.kGrant j mbid n))) ∧
      (g.stageOf t = some j → n ≤ g.stCap j → g.kLine j ≠ [] ∨ ¬ fits →
        Gives (.kreserve t f) s (s.pack.on t.pkg (fun g => (g.issued t).waitTh t (.kres j mbid bytes f.d.toNat))))) ∧
    (j < 8 → mbid ≤ 511 → n < 2 ^ 26 → g.stUsed j + n < 2 ^ 27 → g.stInfl j + 1 < 1024 → g.mbHeld mbid = false →
      (g.kGrant j mbid n).mbHeld mbid = true ∧ (g.kGrant j mbid n).mbGran mbid = n ∧ (g.kGrant j mbid n).mbStage mbid = j ∧
      (g.kGrant j mbid n).stUsed j = g.stUsed j + n ∧ (g.kGrant j mbid n).stInfl j = g.stInfl j + 1) ∧
    (Issues s.pack t .kfree f → g.pipeOn = true → mbid ≤ 511 → g.kBusy mbid = false →
      Leaves (.kfree t f) s (fun p =>
        (p.g t.pkg).mbHeld mbid = false ∧ (p.g t.pkg).mbRecomp mbid = false ∧ (p.g t.pkg).rb (rMbt mbid 0) 30 = false ∧
        ((p.g t.pkg).rd (rMbt mbid 0xC)).toNat = 0xFFFFFFFF ∧ (p.g t.pkg).mbGran mbid = 0 ∧
        (∀ i, i < 32 → i ≠ 18 → i ≠ 29 → i ≠ 30 → (p.g t.pkg).rb (rMbt mbid 0) i = g.rb (rMbt mbid 0) i) ∧
        (p.g t.pkg).rd (rMbt mbid 4) = g.rd (rMbt mbid 4) ∧ (p.g t.pkg).rd (rMbt mbid 8) = g.rd (rMbt mbid 8) ∧
        (g.mbHeld mbid = true → (p.g t.pkg).stUsed (g.mbStage mbid) = g.stUsed (g.mbStage mbid) - g.mbGran mbid ∧
          (p.g t.pkg).stInfl (g.mbStage mbid) = g.stInfl (g.mbStage mbid) - 1) ∧
        p.thread t = x.past ∧ p.mem = s.pack.mem))

/-- TGIVE, TTAKE and TWAIT without a timer (R100, R101, R107, R132): a give leaves for its counter with its issue number and is counted as outflow where it crosses packages; a take that finds its tokens, with no TTAKE waiting ahead of it, removes them and answers 1; a wait that finds them answers 1 and removes nothing; otherwise the thread waits. TTAKE and TWAIT with a timer (R105, R132): an operand that names no allocated timer raises CAUSE 0x06; tokens missing with the timer expired, the instruction answers 0; not yet expired, the thread waits with the timer. -/
def Obligations.TokenInstructionsIssue : Prop :=
  (
  ∀ (s : State) (t : Tid) (f : Fields) (pk site : Nat),
    let g := s.pack.g t.pkg
    let x := s.pack.thread t
    let a := (x.s f.a.toNat).toNat
    let st := if a / 2 ^ 52 % 64 = 63 then t.site else a / 2 ^ 52 % 64
    let give : Flight := { seq := g.seq + 1, pc := x.pc, src := t, dst := { pkg := pk, site := st, unit := a / 64 % 64, thr := 0 },
                           ctr := a % 64, n := f.imm.toNat % 65536, rel := true, step := g.step }
    let c := f.imm.toNat % 64
    let n := f.imm.toNat / 65536
    let have' := (g.tk t.site t.unit c).count
    let ahead := g.waiters (fun key w => key / 16 == uk t.site t.unit && (match w with
      | .token i _ true _ _ => i == c
      | _ => false))
    let yes := (x.setPred f.d.toNat true).past
    let hold (take : Bool) := s.pack.on t.pkg (fun g => (g.issued t).waitTh t (.token c n take f.d.toNat none))
    (Issues s.pack t .tgive f → a % 2 ^ 52 / 2 ^ 12 = 0 → (a / 2 ^ 52 % 64 < 48 ∨ a / 2 ^ 52 % 64 = 63) →
      (s.pack.atIssue t).at t.pkg (a / 2 ^ 58) = some pk →
      Gives (.tgive t f) s
        { (if pk = t.pkg then s.pack.settle t x.past else s.pack.settleWith t x.past (fun h => h.flow 0 g.step true give.n))
          with flight := s.pack.flight ++ [give] }) ∧
    (Issues s.pack t .ttake f → f.imm.toNat.testBit 6 = false →
      (n ≤ have' → ahead = [] → Leaves (.ttake t f) s (fun p =>
        ((p.g t.pkg).tk t.site t.unit c).count = have' - n ∧ p.thread t = yes ∧ p.mem = s.pack.mem ∧
        (∀ i, i < 64 → i ≠ c → (p.g t.pkg).tk t.site t.unit i = g.tk t.site t.unit i))) ∧
      (have' < n ∨ ahead ≠ [] → Gives (.ttake t f) s (hold true))) ∧
    (Issues s.pack t .twait f → f.imm.toNat.testBit 6 = false →
      (n ≤ have' → Gives (.twait t f) s (s.pack.settle t yes)) ∧
      (have' < n → Gives (.twait t f) s (hold false)))) ∧
  (
  ∀ (s : State) (t : Tid) (f : Fields) (take : Bool),
    let g := s.pack.g t.pkg
    let x := s.pack.thread t
    let m := (x.s f.c.toNat).toNat
    let c := f.imm.toNat % 64
    let n := f.imm.toNat / 65536
    let cmd : Instr := if take then .ttake t f else .twait t f
    Issues s.pack t (if take then .ttake else .twait) f → f.imm.toNat.testBit 6 = true →
    (64 ≤ m ∨ g.tmrAlloc m = false → Leaves cmd s (fun p => (p.thread t).cause = 6 ∧ p.mem = s.pack.mem)) ∧
    (m < 64 → g.tmrAlloc m = true → (g.tk t.site t.unit c).count < n → g.tmrExp m = true →
      Gives cmd s (s.pack.settle t (x.setPred f.d.toNat false).past)) ∧
    (m < 64 → g.tmrAlloc m = true → (g.tk t.site t.unit c).count < n → g.tmrExp m = false →
      Gives cmd s (s.pack.on t.pkg (fun g => (g.issued t).waitTh t (.token c n take f.d.toNat (some m))))))

/-- TOKEN_DELIVERY at a powered unit (R101, R102, R107): in order behind the issuing thread's writes, the tokens leave the way and the counter grows, saturating at 65,535 with SAT set; with nobody waiting on the counter nothing else of a thread changes. At a hole or a gated unit no counter changes, and the thread that gave takes CAUSE 0x01 or 0x02 (R111). A write of COUNT stands as written (R102). A delivery to a counter on which one thread waits (R101): a TTAKE takes its tokens and goes on with its predicate set; a TWAIT goes on with its predicate set and leaves them. -/
def Obligations.TokenDeliveries : Prop :=
  (
  (∀ (s : State) (i : Nat) (x : Flight),
    let d := x.dst
    let g := s.pack.g d.pkg
    let old := g.tk d.site d.unit x.ctr
    s.pack.flight[i]? = some x →
    (∀ y ∈ s.pack.flight.take i, ¬ (y.src = x.src ∧ y.dst = x.dst ∧ y.ctr = x.ctr)) →
    (s.pack.g x.src.pkg).writesDone x.src x.seq = true → d.pkg = x.src.pkg → 0 < x.n →
    g.hole d.site = false → g.unitOn d.site d.unit = true →
    (∀ e ∈ g.thr, ∀ n b pd tm, e.2.wait ≠ some (.token x.ctr n b pd tm)) →
    Leaves (.tokenDelivery i) s (fun p =>
      p.flight = s.pack.flight.take i ++ s.pack.flight.drop (i + 1) ∧
      ((p.g d.pkg).tk d.site d.unit x.ctr).count = min (old.count + x.n) 65535 ∧
      ((p.g d.pkg).tk d.site d.unit x.ctr).sat = (old.sat || decide (65535 < old.count + x.n)) ∧
      (p.g d.pkg).thr = g.thr ∧ p.mem = s.pack.mem)) ∧
  (∀ (s : State) (i : Nat) (x : Flight),
    let d := x.dst
    let g := s.pack.g d.pkg
    s.pack.flight[i]? = some x →
    (∀ y ∈ s.pack.flight.take i, ¬ (y.src = x.src ∧ y.dst = x.dst ∧ y.ctr = x.ctr)) →
    (s.pack.g x.src.pkg).writesDone x.src x.seq = true → d.pkg = x.src.pkg → (s.pack.thread x.src).st ≠ .wait →
    g.hole d.site = true ∨ g.unitOn d.site d.unit = false →
    Leaves (.tokenDelivery i) s (fun p =>
      p.flight = s.pack.flight.take i ++ s.pack.flight.drop (i + 1) ∧
      (∀ c, (p.g d.pkg).tk d.site d.unit c = g.tk d.site d.unit c) ∧
      (p.thread x.src).cause = (if g.hole d.site then 1 else 2) ∧ p.mem = s.pack.mem)) ∧
  (∀ (s : State) (k : Nat) (m : Master) (site u c v : Nat) (sat : Bool),
    let g := s.pack.g k
    let old := g.tk site u c
    u < 64 → c < 64 → v < 65536 →
    Writable s.pack k m site (0x10000 + 0x400 * u + 0x200 + 4 * c) .unit (0x400 * u + 0x200 + 4 * c) →
    (∀ e ∈ g.thr, ∀ n b pd tm, e.2.wait ≠ some (.token c n b pd tm)) →
    Leaves (.tokenCountWrite k m site u c v sat) s (fun p =>
      (p.g k).tk site u c = { count := v, sat := old.sat && !sat } ∧ (p.g k).thr = g.thr ∧ p.mem = s.pack.mem))) ∧
  (
  ∀ (g : Pkg) (site u c n m pd key : Nat) (x : Thread) (take : Bool),
    0 < n → key / 16 = uk site u → g.thr = [(key, x)] → x.st = .wait → x.wait = some (.token c m take pd none) →
    (g.tk site u c).count + n ≤ 65535 →
    m ≤ (g.tk site u c).count + n →
    let p := g.deliver site u c n
    (p.tk site u c).count = (g.tk site u c).count + n - (if take then m else 0) ∧
    p.thr = [(key, (x.setPred pd true).past)])

/-- TMALLOC takes the lowest free timer or answers all ones and 0; TMSET starts it with a count; TMFREE and TIMER.REL free it and end every wait that names it; at expiry EXPIRED is set and every wait that names the timer ends with its predicate 0 (R105, R139, R387). -/
def Obligations.Timers : Prop :=
  (∀ (s : State) (t : Tid) (f : Fields),
    let g := s.pack.g t.pkg
    let x := s.pack.thread t
    let m := (x.s f.a.toNat).toNat
    (Issues s.pack t .tmalloc f → g.timerOn = true →
      (∀ n, n < 64 → g.tmrAlloc n = false → (∀ j, j < n → g.tmrAlloc j = true) →
        Gives (.tmalloc t f) s (s.pack.settleWith t ((x.setS f.d.toNat (BitVec.ofNat 64 n)).setPred f.c.toNat true).past
          (fun g => g.wr (rTmr n 0) 0x88000000#32))) ∧
      ((∀ j, j < 64 → g.tmrAlloc j = true) →
        Gives (.tmalloc t f) s (s.pack.settle t ((x.setS f.d.toNat (BitVec.allOnes 64)).setPred f.c.toNat false).past))) ∧
    (Issues s.pack t .tmset f → g.timerOn = true → m < 64 → g.tmrAlloc m = true →
      Leaves (.tmset t f) s (fun p =>
        (p.g t.pkg).rb (rTmr m 0) 29 = true ∧ (p.g t.pkg).tmrExp m = false ∧ (p.g t.pkg).tmrAlloc m = true ∧
        ((p.g t.pkg).rd (rTmr m 4)).toNat = (x.s f.b.toNat).toNat % 2 ^ 32 ∧ p.thread t = x.past ∧ p.mem = s.pack.mem)) ∧
    (Issues s.pack t .tmfree f → g.timerOn = true → m < 64 → g.tmrAlloc m = true →
      Leaves (.tmfree t f) s (fun p =>
        (p.g t.pkg).tmrAlloc m = false ∧ (p.g t.pkg).rd (rTmr m 4) = 0 ∧ p.mem = s.pack.mem))) ∧
  (∀ (s : State) (k n : Nat) (m : Master),
    let g := s.pack.g k
    n < 64 → Writable s.pack k m 62 (0x1000 + 8 * n) .timer (8 * n) → g.rf (rTmr n 0) 28 27 = 1 →
    Leaves (.timerRel k m n) s (fun p => (p.g k).tmrAlloc n = false ∧ (p.g k).rd (rTmr n 4) = 0 ∧ p.mem = s.pack.mem)) ∧
  (∀ (s : State) (k n : Nat),
    let g := s.pack.g k
    n < 64 → g.hubUp = true → g.rb (rTmr n 0) 29 = true → g.rf (rTmr n 0) 28 27 ≠ 2 →
    Leaves (.timerExpiry k n) s (fun p =>
      (p.g k).tmrExp n = true ∧ (p.g k).rb (rTmr n 0) 29 = false ∧ (p.g k).tmrAlloc n = g.tmrAlloc n ∧
      (p.g k).rd (rTmr n 4) = 0 ∧ p.mem = s.pack.mem ∧
      ((∀ e ∈ g.thr, ∀ w, e.2.wait = some w → w.timer ≠ some n) → (p.g k).thr = g.thr) ∧
      (∀ key x w, g.thr = [(key, x)] → x.st = .wait → x.wait = some w → w.timer = some n →
        (p.g k).thr = [(key, (x.setPred w.pd false).past)])))

/-- RAND writes the 128 bits of its counter to sd and sd + 1, with SEQ = 1 at the slot's CURSOR, which advances by one; a sequential RANDT reserves its N + 1 values (R76, R82, R85, R138). -/
def Obligations.RandomInstructions : Prop :=
  ∀ (s : State) (t : Tid) (f : Fields) (dr : Draw),
    let g := s.pack.g t.pkg
    let x := s.pack.thread t
    let slot := f.imm.toNat % 1024
    let val (i : Nat) := gen (Quad.ofNat dr.key) (counter dr.step dr.f16 dr.site dr.lane i)
    let res (i : Nat) := ((x.setS f.d.toNat (BitVec.ofNat 64 (val i))).setS (f.d.toNat + 1) (BitVec.ofNat 64 (val i / 2 ^ 64))).past
    g.streamOn = true → g.drawOf slot ((x.s f.a.toNat).toNat % 65536) = some dr →
    (Issues s.pack t .rand f →
      (f.imm.toNat.testBit 10 = false → Gives (.rand t f) s (s.pack.settle t (res (x.s f.b.toNat).toNat))) ∧
      (f.imm.toNat.testBit 10 = true → g.seqen slot = true →
        Gives (.rand t f) s (s.pack.settleWith t (res (g.cursor slot))
          (fun h => h.wr64 (rStrm slot 0x18) (rStrm slot 0x1C) ((g.cursor slot + 1) % 2 ^ 64)))) ∧
      (f.imm.toNat.testBit 10 = true → g.seqen slot = false → Leaves (.rand t f) s (fun p =>
        (p.thread t).cause = 6 ∧ (p.thread t).regs = x.regs ∧ (p.g t.pkg).cursor slot = g.cursor slot))) ∧
    (Issues s.pack t .randt f → f.imm.toNat.testBit 10 = true → g.seqen slot = true →
      Leaves (.randt t f) s (fun p => (p.g t.pkg).cursor slot = (g.cursor slot + f.i 18 11 + 1) % 2 ^ 64))

/-- Queue instructions at issue (R104, R131, R132, R143, R153): each sends its request to the engine at the queue's home; QMARK, QREWIND, QRELEASE, CGIVE and a QPUSH that holds its credits go on (the credits consumed); QCOUNT, QPOP and CTAKE wait for the answer; an operand that names no mapped queue raises CAUSE 0x01; with the engine's input queue full the thread waits for room, no credit consumed (R92, R96). -/
def Obligations.QueueInstructionsIssue : Prop :=
  ∀ (s : State) (t : Tid) (f : Fields) (pos q pk hs : Nat) (op : Op) (n : Nat) (w : Option Wait),
    let g := s.pack.g t.pkg
    let x := s.pack.thread t
    let held := g.credits t.site t.unit pos q
    let a := x.s f.a.toNat
    let goes : Prop :=
      (op = .qmark ∧ n = 0 ∧ w = none) ∨ (op = .qrewind ∧ n = 0 ∧ w = none) ∨ (op = .qrelease ∧ n = f.i 15 0 ∧ w = none) ∨
      (op = .cgive ∧ n = f.i 7 0 ∧ w = none) ∨ (op = .qcount ∧ n = 0 ∧ w = some (.resp f.d.toNat)) ∨
      (op = .qpush ∧ n = f.i 7 0 ∧ w = none ∧ a.toNat % 64 = 0 ∧ n ≤ held) ∨
      (op = .qpop ∧ n = f.i 7 0 ∧ f.ib 8 = false ∧ a.toNat % 64 = 0 ∧ w = some (.qpop pos q n f.d.toNat none)) ∨
      (op = .ctake ∧ n = f.i 7 0 ∧ f.ib 8 = false ∧ g.credRoom t.site t.unit pos q = true ∧ w = some (.ctake pos q n f.d.toNat none))
    Issues s.pack t op f →
    ((s.pack.atIssue t).queueTo t (x.s f.b.toNat) = some (pos, q, pk, hs) → goes → (s.pack.g pk).engRoom hs = false →
      Leaves (op.toInstr t f) s (fun p =>
        (∃ r pd, (p.thread t).wait = some (.room r pd none) ∧ r.op = op ∧ r.t = t) ∧ (p.thread t).st = .wait ∧
        (p.thread t).pc = x.pc ∧ (p.thread t).regs = x.regs ∧ (p.g pk).qops = (s.pack.g pk).qops ∧
        (p.g t.pkg).credits t.site t.unit pos q = held ∧ p.mem = s.pack.mem)) ∧
    ((s.pack.atIssue t).queueTo t (x.s f.b.toNat) = some (pos, q, pk, hs) → goes → (s.pack.g pk).engRoom hs = true →
      Leaves (op.toInstr t f) s (fun p =>
        (∃ r : QReq, (p.g pk).qops = (s.pack.g pk).qops ++ [r] ∧ r.site = hs ∧ r.qid = q ∧ r.n = n ∧
          r.r.op = op ∧ r.r.t = t ∧ r.r.f = f ∧ r.seq = g.seq + 1) ∧
        (match w with
         | none => p.thread t = x.past
         | some w => (p.thread t).st = .wait ∧ (p.thread t).wait = some w ∧ (p.thread t).pc = x.pc ∧ (p.thread t).regs = x.regs) ∧
        (p.g t.pkg).credits t.site t.unit pos q = (if op = .qpush then held - n else held) ∧
        p.mem = s.pack.mem)) ∧
    ((s.pack.atIssue t).queueTo t (x.s f.b.toNat) = none →
      op ∈ [Op.qmark, .qrewind, .qrelease, .cgive, .qcount, .qpush, .qpop, .ctake] →
      Leaves (op.toInstr t f) s (fun p => (p.thread t).cause = 1 ∧ (p.thread t).regs = x.regs ∧ p.mem = s.pack.mem))

/-- What the queue engine does with one request that can be served (R151, R152, R155), in terms of the indices P, C, M, L (R149): QMARK sets M to C, QREWIND sets C to M, QRELEASE moves L up by at most HELD and returns as many credits, and drags M along; QPUSH writes its entries with their CHK into the ring (R147), moves P and spends its credits; QCOUNT answers its thread (R155); each is the effect of a slice that finds that request alone at its die. Grants: CTAKE_GRANT gives the oldest CTAKE its credits, taken from AVAIL into OUT where its unit's table has room (R153); QPOP_SATISFIED copies the READY entries to the destination, moves C and answers 1 (R131, R148); KRESERVE_GRANT makes the oldest waiting reservation (R175); ENGINE_QUEUE_ROOM hands a waiting operation over when those that began to wait before it have, and lets a waiting queue instruction issue again (R92). -/
def Obligations.QueueService : Prop :=
  (
  ∀ (s : State) (k site q : Nat) (x : QReq),
    let g := s.pack.g k
    let i := g.ix site q
    let t := x.r.t
    g.hubUp = true → g.qops = [x] → x.site = site → x.qid = q → q < 4096 → site < 48 →
    g.qengOn site = true → g.qState site q = 1 → g.qInput site q = false →
    g.copiesOk site q = true → i.ok (g.qSize site q) = true → i.p < 65536 ∧ i.c < 65536 ∧ i.m < 65536 ∧ i.l < 65536 →
    (∀ j, (s.pack.g j).pr.dq = []) → (∀ j, (s.pack.g j).ld.resume = false) →
    (x.r.op = .qmark → Leaves (.queueEngineSlice k site (0, .ok)) s (fun p =>
      (p.g k).ix site q = { i with m := i.c } ∧ (p.g k).qops = [] ∧ p.mem = s.pack.mem)) ∧
    (x.r.op = .qrewind → Leaves (.queueEngineSlice k site (0, .ok)) s (fun p =>
      (p.g k).ix site q = { i with c := i.m } ∧ (p.g k).qops = [] ∧ p.mem = s.pack.mem)) ∧
    (x.r.op = .qrelease → x.n ≤ ringDist i.c i.l → g.avail site q + x.n < 65536 → Leaves (.queueEngineSlice k site (0, .ok)) s (fun p =>
      ((p.g k).ix site q).l = (i.l + x.n) % 65536 ∧ ((p.g k).ix site q).c = i.c ∧ ((p.g k).ix site q).p = i.p ∧
      (p.g k).avail site q = g.avail site q + x.n ∧ (p.g k).qops = [] ∧ p.mem = s.pack.mem)) ∧
    (∀ l, x.r.op = .qpush → x.n ≤ g.qSize site q → g.writesDone t x.seq = true → t.pkg = k →
      s.pack.engSpan k t.site (x.r.v.getD 0 0).toNat (64 * x.n) = some l → ringDist i.p i.l + x.n ≤ g.qSize site q →
      x.n ≤ g.outc site q →
      Leaves (.queueEngineSlice k site (0, .ok)) s (fun p =>
        p.mem = (s.pack.ringWrite k site q (s.pack.bytes l (64 * x.n)) x.n i.p).mem ∧
        ((p.g k).ix site q).p = (i.p + x.n) % 65536 ∧ ((p.g k).ix site q).c = i.c ∧
        (p.g k).outc site q = g.outc site q - x.n ∧ (p.g k).avail site q = g.avail site q ∧ (p.g k).qops = [])) ∧
    (x.r.op = .qcount → t.pkg = k → (g.th t).st = .wait → (g.th t).wait = some (.resp x.r.f.d.toNat) →
      Leaves (.queueEngineSlice k site (0, .ok)) s (fun p =>
        (p.g k).th t = ((g.th t).setS x.r.f.d.toNat ((g.qcount site q).setWidth 64)).past ∧
        (p.g k).ix site q = i ∧ (p.g k).qops = [] ∧ p.mem = s.pack.mem))) ∧
  (
  (∀ (s : State) (k site q : Nat) (x : QReq),
    let g := s.pack.g k
    let t := x.r.t
    let held := (s.pack.g t.pkg).credits t.site t.unit g.pos q
    g.hubUp = true → g.qops = [x] → x.site = site → x.qid = q → x.r.op = .ctake → t.pkg = k → x.r.f.d.toNat < 8 →
    g.qengOn site = true → g.qState site q = 1 → g.qProd site q = 0 → x.n ≤ g.qSize site q → x.n ≤ g.avail site q →
    g.credRoom t.site t.unit g.pos q = true → g.outc site q + x.n < 65536 → 0 < x.n → g.waiters (fun key w => match w with | .push _ => true | _ => false) = [] →
    Leaves (.ctakeGrant k site q) s (fun p =>
      (p.g k).avail site q = g.avail site q - x.n ∧ (p.g k).outc site q = g.outc site q + x.n ∧
      (p.g k).credits t.site t.unit g.pos q = held + x.n ∧ (p.g k).qops = [] ∧
      ((p.g k).th t).pred x.r.f.d.toNat = true ∧ ((p.g k).th t).st = .ready ∧ ((p.g k).th t).pc = (g.th t).pc + 1 ∧
      p.mem = s.pack.mem)) ∧
  (∀ (s : State) (k site q : Nat) (x : QReq) (l : Loc),
    let g := s.pack.g k
    let t := x.r.t
    let i := g.ix site q
    let es := s.pack.ringRead k site q x.n i.c
    g.hubUp = true → g.qops = [x] → x.site = site → x.qid = q → x.r.op = .qpop → t.pkg = k → x.r.f.d.toNat < 8 → q < 4096 → site < 48 →
    g.qengOn site = true → g.qState site q = 1 → g.qInput site q = false → x.n ≤ g.qSize site q → x.n ≤ ringDist i.p i.c →
    g.copiesOk site q = true → i.ok (g.qSize site q) = true → i.p < 65536 ∧ i.c < 65536 ∧ i.m < 65536 ∧ i.l < 65536 →
    (∀ e ∈ es, chkOk q e.1 e.2 = true) → s.pack.engSpan k t.site (x.r.v.getD 0 0).toNat (64 * x.n) = some l →
    x.r.f.i 31 26 = 0 →
    Leaves (.qpopSatisfied k site q (0, .ok)) s (fun p =>
      p.mem = memWrN s.pack.mem ((s.pack.g l.pk).ringLoc l).key (es.flatMap (·.2)) ∧
      ((p.g k).ix site q).c = (i.c + x.n) % 65536 ∧ ((p.g k).ix site q).p = i.p ∧ (p.g k).qops = [] ∧
      ((p.g k).th t).pred x.r.f.d.toNat = true ∧ ((p.g k).th t).st = .ready ∧ ((p.g k).th t).pc = (g.th t).pc + 1)) ∧
  (∀ (s : State) (k j key mbid n pd : Nat) (r : List Nat),
    let g := s.pack.g k
    g.hubUp = true → j < 8 → g.pipeOn = true → g.kLine j = key :: r →
    (mget ({} : Thread) g.thr key).wait = some (.kres j mbid n pd) → g.kGrantOk j ((n + 4095) / 4096) = true → g.mbHeld mbid = false →
    Gives (.kreserveGrant k j) s (s.pack.on k (fun g => (g.kGrant j mbid ((n + 4095) / 4096)).release key pd true))) ∧
  (∀ (s : State) (t : Tid) (r : OpRec) (pd : Nat) (tm : Option Nat),
    let g := s.pack.g t.pkg
    g.hubUp = true → (g.th t).st = .wait → (g.th t).wait = some (.room r pd tm) → g.issueHeld = false →
    (queueOp r.op = false → r.op ≠ .contrib → g.room r = true →
      (∀ y ∈ g.roomWaits.takeWhile (fun y => !(y == r)), sameInput r y = false) →
      Leaves (.engineQueueRoom t) s (fun p =>
        (if r.toArray then (p.g t.pkg).aops = g.aops ++ [r] else (p.g t.pkg).eops = g.eops ++ [r]) ∧
        p.thread t = (g.th t).past ∧ p.mem = s.pack.mem)) ∧
    (∀ pos q pk hs, queueOp r.op = true → s.pack.queueTo t ((g.th t).s r.f.b.toNat) = some (pos, q, pk, hs) →
      (s.pack.g pk).engRoom hs = true → Gives (.engineQueueRoom t) s (s.pack.on t.pkg (fun g => g.retry t.key)))))

/-- An MMA that runs at its array (R59 to R67, R123, R124): with the operands read as logical A and B, the accumulator tile takes K/32 k-blocks, zeroed first with ZERO; the operation leaves its queue; memory and every other accumulator tile are as before. A master's read of the tile's status word waits behind it at the array (R448). The k-blocks of an MMA without A16 are taken in order, one after the other, each into what the ones before it left (R60, R63, R66, R68): with ZERO the tile begins with zero elements, FIRSTK 0xFFFF, no flags, its mode and slots set. -/
def Obligations.ArraysAndAccumulation : Prop :=
  (
  ∀ (s : State) (k u arr : Nat) (r : OpRec) (a : Nat),
    let g := s.pack.g k
    let t := r.t
    let f := r.f
    let n := f.d.toNat
    let e := mmaExt f
    let va := s.pack.view t r.ta e.1.1 e.1.2
    let vb := s.pack.view t r.tb e.2.1 e.2.2
    let as := if f.ib 8 then transpose va else va
    let bs := if f.ib 9 then vb else transpose vb
    let dr := if f.ib 10 then g.drawOf (f.i 26 17) ((r.v.getD 0 0).toNat % 2 ^ 16) else none
    g.hubUp = true → g.aops = [r] → r.op = .mma → n < 16 → t.pkg = k → t.unit = u → arr = n / 8 → u < 64 →
    g.held r = false → s.pack.opFree r = true → (f.ib 10 = true → dr.isSome = true) → s.pack.opBad r = none →
    s.pack.accFirst r = false → g.accq = [] →
    Leaves (.arrayOperationComplete k t.site u arr .ok a) s (fun p =>
      (p.g k).aops = [] ∧
      (p.g k).tile t.site u (n / 8) (n % 8) =
        (g.tile t.site u (n / 8) (n % 8)).mma (f.ib 7) (f.ib 10) (f.ib 11) r.ta.slot r.tb.slot dr as bs (f.i 6 0 + 1) ∧
      (∀ v b m, v < 64 → b < 2 → m < 8 → (v, b, m) ≠ (u, n / 8, n % 8) → (p.g k).tile t.site v b m = g.tile t.site v b m) ∧
      p.mem = s.pack.mem) ∧
    (∀ (m : Master) (l : Loc), g.place k t.site 3 (0x10000 + 0x400 * u + 0x300 + 0x20 * (n / 8) + 4 * (n % 8)) = .ok l →
      Gives (.accstAccess k m t.site u arr (n % 8) none) s
        (s.pack.on k (fun g => { g with accq := g.accq ++ [{ site := t.site, unit := u, arr := n / 8, tile := n % 8, src := k, w := none, ahead := 1 }] })))) ∧
  (
  ∀ (x : Acc) (zero onelo : Bool) (sa sb n : Nat) (as bs : List (List Opnd)),
    let y := x.mma zero false onelo sa sb none as bs n
    let r := tileBlock onelo as bs n y.els
    let z := x.mma true false onelo sa sb none as bs 0
    x.mma zero false onelo sa sb none as bs (n + 1) = { y with els := r.1, sta := staAcc y.sta y.kb r.2, kb := y.kb + 1 } ∧
    z.sa = sa ∧ z.sb = sb ∧ z.kb = 0 ∧ z.late = [] ∧ z.els = List.replicate 1024 0 ∧
    z.sta.toNat / 65536 = 0xFFFF ∧ z.sta.toNat % 256 = 0 ∧ staA16 z.sta = false ∧ staOnelo z.sta = onelo ∧
    (zero = false → x.mma zero false onelo sa sb none as bs 0 = x))

/-- A RANDT that its engine finishes (R85, R103, R138): the N + 1 draws stand as 16-byte records from BASE of tdst, every other byte is as before, the operation is gone and its completion count is delivered. -/
def Obligations.EngineOperationCompletes : Prop :=
  ∀ (s : State) (k : Nat) (r : OpRec) (dr : Draw) (l : Loc) (a : Nat),
    let g := s.pack.g k
    let t := r.t
    let n := r.f.i 18 11 + 1
    let bs := (List.range n).flatMap (fun j => leBytes (gen (Quad.ofNat dr.key)
      (counter dr.step dr.f16 dr.site dr.lane (((r.v.getD 1 0).toNat + j) % 2 ^ 64))) 16)
    let cnt := (g.tk t.site t.unit (r.f.i 25 20)).count
    let key := ((s.pack.g l.pk).ringLoc l).key
    g.hubUp = true → g.eops = [r] → r.op = .randt → t.pkg = k → g.held r = false → s.pack.opFree r = true →
    g.drawOf (r.f.i 9 0) ((r.v.getD 0 0).toNat % 2 ^ 16) = some dr →
    s.pack.spanOk k (some t.site) r.td.base (16 * n) = .ok l →
    (∀ e ∈ g.thr, e.2.st ≠ .wait) → cnt + r.f.i 31 26 ≤ 65535 →
    Leaves (.engineCompletion k 0 .ok a) s (fun p =>
      (p.g k).eops = [] ∧ ((p.g k).tk t.site t.unit (r.f.i 25 20)).count = cnt + r.f.i 31 26 ∧
      (∀ j, j < 16 * n → memRd p.mem (key + j) = bs.getD j 0) ∧
      (∀ b, b < key ∨ key + 16 * n ≤ b → memRd p.mem b = memRd s.pack.mem b))

/-- RUN = 1 starts a thread from IDLE or FAULT at its PC and does nothing to one that runs; RUN = 0 leaves a thread IDLE, its wait abandoned, with PC at the instruction that waited, or past it where that had issued (R96); no other thread changes, but that a TTAKE it held back in a counter's line may be served (R101). -/
def Obligations.ThreadsStartAndStop : Prop :=
  ∀ (s : State) (k : Nat) (m : Master) (site u n : Nat),
    let g := s.pack.g k
    let key := (site * 64 + u) * 16 + n
    let x := mget ({} : Thread) g.thr key
    u < 64 → n < 16 → Writable s.pack k m site (0x10000 + 0x400 * u) .unit (0x400 * u) →
    Leaves (.runStart k m site u n) s (fun p =>
      mget {} (p.g k).thr key = (if x.st = .idle ∨ x.st = .fault then { x with st := .ready, wait := none } else x) ∧
      (∀ j, j ≠ key → mget {} (p.g k).thr j = mget {} g.thr j) ∧ p.mem = s.pack.mem) ∧
    Leaves (.runStop k m site u n) s (fun p =>
      mget {} (p.g k).thr key = (if x.st = .ready ∨ x.st = .wait then
          { x with st := .idle, wait := none, pc := match x.wait with | some (.resp _) => x.pc + 1 | _ => x.pc }
        else x) ∧
      ((∀ c w pd tm, x.wait ≠ some (.token c w true pd tm)) → ∀ j, j ≠ key → mget {} (p.g k).thr j = mget {} g.thr j) ∧
      p.mem = s.pack.mem)

/-- A status word (R68, R448): a write with no operation on its tile sets FIRSTK and clears the flags written 1, MODE and ONELO staying; a read gives the word. -/
def Obligations.StatusWordAccess : Prop :=
  ∀ (s : State) (k : Nat) (m : Master) (site u arr n : Nat) (v : W32),
    let g := s.pack.g k
    let off := 0x10000 + 0x400 * u + 0x300 + 0x20 * arr + 4 * n
    let w := (g.tile site u arr n).sta
    u < 64 → arr < 2 → n < 8 → Writable s.pack k m site off .unit (off - 0x10000) →
    g.tileAhead site u arr n = 0 → (g.tile site u arr n).late = [] →
    Leaves (.accstAccess k m site u arr n (some v)) s (fun p =>
      let y := ((p.g k).tile site u arr n).sta.toNat
      y / 65536 = v.toNat / 65536 ∧ y / 256 % 256 = w.toNat / 256 % 256 ∧
      (∀ j, j < 8 → y.testBit j = (w.toNat.testBit j && !v.toNat.testBit j)) ∧ p.mem = s.pack.mem) ∧
    Leaves (.accstAccess k m site u arr n none) s (fun p =>
      (p.g k).hk.cpl = .data (leBytes w.toNat 4) ∧ (p.g k).tile site u arr n = g.tile site u arr n ∧ p.mem = s.pack.mem)

/-- A plain register write (R6, R96, R368): UNIT.THEHn takes HPC and the enables, UNIT.THSTn its PRIO field alone, UNIT.THPCn is written only while the thread is IDLE or in FAULT. At a block that is gated, at an offset that names no register, and for a master that may not write the register, nothing of the register changes. A posted write sets BUSY at once and changes no register; POSTED_WRITE_COMPLETE clears BUSY and gives the write its effect at its block (R379). ERRLOG.TAIL takes bits [9:0], and with no record left SMB_ALERT_N is released (R315, R436). -/
def Obligations.RegisterAccess : Prop :=
  (
  ∀ (s : State) (k : Nat) (m : Master) (site off : Nat) (v : W32),
    let g := s.pack.g k
    (∀ (u n : Nat),
      let key := (site * 64 + u) * 16 + n
      let x := mget ({} : Thread) g.thr key
      let set (y : Thread) := s.pack.on k (fun g => { g with thr := mins g.thr key y })
      u < 64 → n < 16 →
      (off = 0x10000 + 0x400 * u + 0xC0 + 4 * n → Writable s.pack k m site off .unit (off - 0x10000) →
        Gives (.registerWrite k m site off v) s (set { x with theh := BitVec.ofNat 32 (v.toNat % 2 ^ 20) })) ∧
      (off = 0x10000 + 0x400 * u + 0x40 + 4 * n → Writable s.pack k m site off .unit (off - 0x10000) →
        Gives (.registerWrite k m site off v) s (set { x with prio := v.toNat / 64 % 4 })) ∧
      (off = 0x10000 + 0x400 * u + 0x80 + 4 * n → Writable s.pack k m site off .unit (off - 0x10000) →
        Gives (.registerWrite k m site off v) s
          (set (if x.st = .idle ∨ x.st = .fault then { x with pc := BitVec.ofNat 16 v.toNat } else x)))) ∧
    (g.hubUp = true → off % 4 = 0 → g.place k site 3 off = .invalid ∨ g.place k site 3 off = .gated →
      Leaves (.registerWrite k m site off v) s (fun p => p.mem = s.pack.mem ∧ (p.g k).thr = g.thr ∧ (p.g k).tok = g.tok ∧
        (m = .thread → ∀ j, p.g j = s.pack.g j))) ∧
    (∀ b o, blockOf site off = some (b, o) → pvMask b o ≠ 0 → mixedReg b o = false → m.priv = false →
      g.hubUp = true → off % 4 = 0 → (∃ l, g.place k site 3 off = .ok l) → Gives (.registerWrite k m site off v) s s.pack)) ∧
  (
  (∀ (s : State) (k : Nat) (m : Master) (site off o key : Nat) (b : Blk) (v : W32),
    Writable s.pack k m site off b o → busyKey site b o = some key → b ≠ .stream → forbidden b o v = none → m.priv = true →
    Gives (.registerWrite k m site off v) s (s.pack.posted k { key := key, site := site, off := off, v := v, x := {} })) ∧
  (∀ (s : State) (k site off : Nat) (x : Post) (b : Blk) (o : Nat),
    x.key = rk site off → ¬ (hubR 0x30000 ≤ x.key ∧ x.key < hubR 0x40000) → Due s.pack k x → blockOf x.site x.off = some (b, o) →
    Gives (.postedWriteComplete k site off) s
      ((s.pack.on k (fun g => { g with busy := g.busy.filter (· != x.key), posts := g.posts.filter (fun p => p.key != x.key) })).blkWrite
        k x.site b o x.v x.x)) ∧
  (∀ (s : State) (k : Nat) (m : Master) (v : W32),
    Writable s.pack k m 62 0x20008 .errlog 8 →
    Gives (.errlogTailWrite k m v) s (s.pack.posted k { key := rErrCtl, site := 62, off := 0x20008, v := v, x := {} })) ∧
  (∀ (s : State) (k : Nat) (v : W32),
    let g := s.pack.g k
    let head := (g.rd rErrHead).toNat % 1024
    Lands s k { key := rErrCtl, site := 62, off := 0x20008, v := v, x := {} } (fun p =>
      ((p.g k).rd rErrTail).toNat % 1024 = v.toNat % 1024 ∧
      (p.g k).smb = (if v.toNat % 1024 = head then false else g.smb) ∧
      (p.g k).log = g.log ∧ (p.g k).busy = g.busy.filter (· != rErrCtl) ∧ p.mem = s.pack.mem)))

/-- Scale slot writes (R50, R55): CUR takes a positive finite value and refuses any other with ERR; a CTL write with FILL = 0 discards the history's fill, and a valid slot that is not in warm-up enters it with HWARM steps, 4 where HWARM is 0. The warm-up exchange (R57): ARM = 1 on a slot in warm-up sends the copy's PRE to the leader once; the leader combines the arms of a slot and tag by maximum and sends the value once NCOPY arms are in; each copy in warm-up with that tag sets CUR from it and ARM. -/
def Obligations.ScaleSlots : Prop :=
  (
  ∀ (s : State) (k : Nat) (m : Master) (site n : Nat) (v : W32),
    let g := s.pack.g k
    let ctl := rScale site n 0
    let off := 0x40000 + 0x80 * n
    n < 2048 →
    (Writable s.pack k m site (off + 4) .scale (0x80 * n + 4) →
      (0 < v.toNat % 65536 → v.toNat % 65536 < 0x7F80 → Leaves (.scaleCurWrite k m site n v) s (fun p =>
        (p.g k).cur site n = v.toNat % 65536 ∧ (∀ a, a ≠ ctl + 4 → (p.g k).rd a = g.rd a) ∧ p.mem = s.pack.mem)) ∧
      (v.toNat % 65536 = 0 ∨ 0x7F80 ≤ v.toNat % 65536 → Leaves (.scaleCurWrite k m site n v) s (fun p =>
        (p.g k).rb ctl 29 = true ∧ (∀ a, a ≠ ctl → (p.g k).rd a = g.rd a) ∧ p.mem = s.pack.mem))) ∧
    (Writable s.pack k m site off .scale (0x80 * n) →
      Leaves (.scaleFillDiscard k m site n v) s (fun p =>
        (p.g k).rf ctl 27 22 = 0 ∧
        (p.g k).rf ctl 21 18 = (if v.toNat.testBit 0 ∧ g.rf ctl 21 18 = 0 then
            (if v.toNat / 2 ^ 14 % 16 = 0 then 4 else v.toNat / 2 ^ 14 % 16) else g.rf ctl 21 18) ∧
        (p.g k).rf ctl 17 0 = v.toNat % 2 ^ 18 ∧ (∀ a, a ≠ ctl → (p.g k).rd a = g.rd a) ∧ p.mem = s.pack.mem))) ∧
  (
  (∀ (s : State) (k : Nat) (m : Master) (site n : Nat) (v : W32),
    let g := s.pack.g k
    let ctl := rScale site n 0
    n < 2048 → Writable s.pack k m site (0x40000 + 0x80 * n) .scale (0x80 * n) →
    g.rf ctl 21 18 ≠ 0 → g.rb ctl 30 = false → g.armed.contains ctl = false →
    Leaves (.scaleArm k m site n v) s (fun p =>
      (p.g k).sent = .arm n (g.rf (ctl + 0xC) 15 0) (g.rf (ctl + 0x50) 15 0) (g.rf (ctl + 0xC) 31 16) :: g.sent ∧
      (p.g k).armed = ctl :: g.armed ∧ p.mem = s.pack.mem)) ∧
  (∀ (s : State) (k slot tag ncopy pre : Nat),
    let g := s.pack.g k
    let e := g.arms.find? (fun x => x.slot == slot && x.tag == tag)
    let n := (e.map Arms.n).getD 0 + 1
    let best := hmax ((e.map Arms.pre).getD 0) pre
    g.hubUp = true → g.leads = true → g.armDone.contains (slot, tag) = false →
    (max ncopy 1 ≤ n → Leaves (.warmupArmReceipt k slot tag ncopy pre) s (fun p =>
      (p.g k).sent = .combined slot tag best :: g.sent ∧ (p.g k).armDone = (slot, tag) :: g.armDone ∧ p.mem = s.pack.mem)) ∧
    (n < max ncopy 1 → Leaves (.warmupArmReceipt k slot tag ncopy pre) s (fun p =>
      { slot := slot, tag := tag, pre := best, n := n } ∈ (p.g k).arms ∧ (p.g k).sent = g.sent ∧ p.mem = s.pack.mem))) ∧
  (∀ (s : State) (k slot tag pre site : Nat),
    let g := s.pack.g k
    let c := g.rd (rScale site slot 0)
    g.hubUp = true → site < 48 → slot < 2048 → 0 < g.slotWarm site slot → g.slotTag site slot = tag →
    Leaves (.warmupCombined k slot tag pre) s (fun p =>
      (p.g k).cur site slot = (scaleFrom pre (fld c 4 1) (fld c 13 10) (g.cur site slot)).1 % 65536 ∧
      (p.g k).slotArm site slot = true ∧ p.mem = s.pack.mem)))

/-- Stream slot writes (R79): while the slot is in use outside P1, CTL and KEY words are staged, PEND reads 1 and the words in effect stay; in P1 a word of a slot in use takes effect at once; a slot that is not in use has its words put on their way, BUSY reads 1, and they take effect when the posted write completes. -/
def Obligations.StreamSlotWrites : Prop :=
  ∀ (s : State) (k : Nat) (m : Master) (n w : Nat) (v : W32),
    let g := s.pack.g k
    n < 1024 → w < 4 →
    (Writable s.pack k m 62 (0x30000 + 0x40 * n) .stream (0x40 * n) →
      (g.strmValid n = true → g.phase ≠ 3 → g.phase ≠ 4 → Leaves (.streamCtlWrite k m n v) s (fun p =>
        (p.g k).rb (rStrm n 0) 30 = true ∧ (p.g k).rf (rStrm n 0) 24 8 = v.toNat / 256 % 2 ^ 17 ∧ (p.g k).rb (rStrm n 0) 0 = v.toNat.testBit 0 ∧
        (p.g k).strm = g.strm ∧ (p.g k).busy = rStrm n 0 :: g.busy ∧ p.mem = s.pack.mem)) ∧
      (g.strmValid n = false → Leaves (.streamCtlWrite k m n v) s (fun p =>
        (∃ x : StrmPost, (p.g k).strmPost = g.strmPost ++ [x] ∧ x.slot = n ∧ x.off = 0 ∧ x.v.toNat.testBit 0 = v.toNat.testBit 0 ∧
          fld x.v 24 8 = v.toNat / 256 % 2 ^ 17) ∧
        (p.g k).strm = g.strm ∧ (p.g k).busy = rStrm n 0 :: g.busy ∧ p.mem = s.pack.mem))) ∧
    (Writable s.pack k m 62 (0x30000 + 0x40 * n + (4 + 4 * w)) .stream (0x40 * n + (4 + 4 * w)) →
      (g.strmValid n = true → g.phase ≠ 3 → g.phase ≠ 4 → Leaves (.streamKeyWrite k m n w v) s (fun p =>
        (p.g k).rd (rStrm n (4 + 4 * w)) = v ∧ (p.g k).rb (rStrm n 0) 30 = true ∧
        (p.g k).strm = g.strm ∧ (p.g k).busy = rStrm n 0 :: g.busy ∧ p.mem = s.pack.mem)) ∧
      (g.strmValid n = false → Leaves (.streamKeyWrite k m n w v) s (fun p =>
        (p.g k).rd (rStrm n (4 + 4 * w)) = v ∧
        (p.g k).strmPost = g.strmPost ++ [{ slot := n, off := 4 + 4 * w, v := v }] ∧
        (p.g k).strm = g.strm ∧ (p.g k).busy = rStrm n 0 :: g.busy ∧ p.mem = s.pack.mem))) ∧
    (Writable s.pack k m 62 (0x30000 + 0x40 * n + (4 + 4 * w)) .stream (0x40 * n + (4 + 4 * w)) →
      g.strmValid n = true → g.phase = 3 ∨ g.phase = 4 → Leaves (.streamKeyWrite k m n w v) s (fun p =>
        let e := mget {} (p.g k).strm n
        (if w = 0 then e.k0 else if w = 1 then e.k1 else if w = 2 then e.k2 else e.k3) = v ∧
        e.ctl = (mget {} g.strm n).ctl ∧ (p.g k).busy = rStrm n 0 :: g.busy ∧ p.mem = s.pack.mem)) ∧
    (∀ x : StrmPost, x.slot = n → x.off = 4 → g.strmPost = [x] → g.busy = [rStrm n 0] → (∀ y ∈ g.posts, y.key ≠ rStrm n 0) →
      Leaves (.postedWriteComplete k 62 (0x30000 + 0x40 * n)) s (fun p =>
        mget {} (p.g k).strm n = { (mget {} g.strm n) with k0 := x.v } ∧ (p.g k).strmPost = [] ∧ (p.g k).busy = [] ∧ p.mem = s.pack.mem))

/-- CONTRIB (R131, R137, R228): once its checks pass and the unit holds a credit of the queue, the credit is consumed and the operation, with the gradient's status word as it stands, enters the input queue of its array or engine; with that queue full the thread waits for room and the credit is not consumed (R96); with no credit, and the queue enabled, the thread waits for one. -/
def Obligations.ContribIssue : Prop :=
  ∀ (s : State) (t : Tid) (f : Fields) (pos q pk hs : Nat),
    let g := s.pack.g t.pkg
    let x := s.pack.thread t
    let at' := s.pack.atIssue t
    let acc := f.ib 0
    let src := x.td f.a.toNat
    let mbid := (x.s (f.i 6 2)).toNat % 2 ^ 16
    let sta : Nat := if acc then 0 else if src.stat = 0 then 0xFFFF0000 else leVal (at'.rdN t src.stat 4)
    let held := g.credits t.site t.unit pos q
    let r : OpRec := { seq := g.seq + 1, t := t, pc := x.pc, op := .contrib, f := f, td := x.td f.d.toNat, ta := src,
                       tb := x.td f.b.toNat, tc := x.td f.c.toNat,
                       v := [x.s f.b.toNat, x.s f.c.toNat, BitVec.ofNat 64 mbid, BitVec.ofNat 64 sta] }
    let r' : OpRec := { r with v := r.v ++ [BitVec.ofNat 64 hs] }
    Issues s.pack t .contrib f → at'.queueTo t (x.s f.b.toNat) = some (pos, q, pk, hs) →
    (x.td f.d.toNat).rsv = 0 → g.pipeOn = true → mbid ≤ 511 →
    (acc = false → src.bad = none ∧ src.fmt = .b16 ∧ src.blk = false ∧ viewChk at' t src 32 32 = none) →
    (1 ≤ held → g.room r' = true → (∀ y ∈ g.roomWaits, sameInput r' y = false) → Leaves (.contrib t f) s (fun p =>
      (if acc then (p.g t.pkg).aops = g.aops ++ [r'] else (p.g t.pkg).eops = g.eops ++ [r']) ∧
      (p.g t.pkg).credits t.site t.unit pos q = held - 1 ∧ p.thread t = x.past ∧ p.mem = s.pack.mem)) ∧
    (1 ≤ held → g.room r' = false → Leaves (.contrib t f) s (fun p =>
      (p.thread t).st = .wait ∧ (p.thread t).wait = some (.room r' 0 none) ∧ (p.thread t).pc = x.pc ∧
      (p.g t.pkg).aops = g.aops ∧ (p.g t.pkg).eops = g.eops ∧ (p.g t.pkg).credits t.site t.unit pos q = held ∧ p.mem = s.pack.mem)) ∧
    (held = 0 → (at'.g pk).qState hs q = 1 → (at'.g pk).qengOn hs = true → Leaves (.contrib t f) s (fun p =>
      (p.thread t).st = .wait ∧ (p.thread t).wait = some (.push r') ∧ (p.thread t).pc = x.pc ∧
      (p.g t.pkg).aops = g.aops ∧ (p.g t.pkg).eops = g.eops ∧ p.mem = s.pack.mem))

/-- A queue's words (R143, R144, R159): a posted write to QMAP takes HOME and the rest of [6:0], once it has reached the replicas, while the queue is disabled and HOME is an active die, and is ignored and logged otherwise. EN = 1 whose configuration passes sets EN and STATE, empties the queue and gives AVAIL all of SIZE; one that does not pass sets CFGERR and leaves the queue disabled. EN = 0 of an empty queue with no credits out disables it; of another it is refused with the queue as it was. -/
def Obligations.QueueConfiguration : Prop :=
  ∀ (s : State) (k : Nat) (m : Master) (q site : Nat) (v : W32),
    let g := s.pack.g k
    let a := rQ site q 0
    let w := setF (setF (g.rd a) 25 22 (v.toNat / 2 ^ 22)) 21 16 (v.toNat / 2 ^ 16)
    let g1 := g.wr a w
    q < 4096 →
    let x : Post := { key := rQmap q, site := 62, off := 0xC000 + 4 * q, v := v, x := {} }
    (Writable s.pack k m 62 (0xC000 + 4 * q) .qmap (4 * q) → Gives (.qmapWrite k m q v) s (s.pack.posted k x)) ∧
    (g.siteSt (v.toNat % 64) = .active → v.toNat % 64 < 48 → (∀ h, g.home q = some h → g.qEn h q = false) →
      Lands s k x (fun p =>
        ((p.g k).rd (rQmap q)).toNat = v.toNat % 128 ∧ (∀ b, b ≠ rQmap q → (p.g k).rd b = g.rd b) ∧
        (p.g k).busy = g.busy.filter (· != rQmap q) ∧ p.mem = s.pack.mem)) ∧
    (∀ h, g.home q = some h → g.qEn h q = true → Lands s k x (fun p =>
        (p.g k).rd (rQmap q) = g.rd (rQmap q) ∧ (p.g k).logSeq = g.logSeq + 1 ∧ p.mem = s.pack.mem)) ∧
    (Writable s.pack k m site (oQueue q 0) .queue (0x40 * q) → site < 48 →
      (g.qEn site q = false → g1.qCfgOk site q = true → Leaves (.queueEnable k m site q v) s (fun p =>
        (p.g k).qEn site q = true ∧ (p.g k).qState site q = 1 ∧ (p.g k).ix site q = { p := 0, c := 0, m := 0, l := 0 } ∧
        (p.g k).qSize site q = 2 ^ (v.toNat / 2 ^ 16 % 16) ∧ (p.g k).avail site q = (p.g k).qSize site q ∧ (p.g k).outc site q = 0 ∧
        (p.g k).copiesOk site q = true ∧ ((p.g k).rd (rQ site q 0x20)).toNat = g.step ∧ p.mem = s.pack.mem)) ∧
      (g.qEn site q = false → g1.qCfgOk site q = false → Leaves (.queueEnable k m site q v) s (fun p =>
        (p.g k).rb (rQ site q 0x1C) 3 = true ∧ (p.g k).qEn site q = false ∧
        (∀ b, b ≠ a → b ≠ rQ site q 0x1C → (p.g k).rd b = g.rd b) ∧ p.mem = s.pack.mem)) ∧
      (g.qEn site q = true → (g.ix site q).p = (g.ix site q).l → g.outc site q = 0 → Leaves (.queueDisable k m site q v) s (fun p =>
        (p.g k).qEn site q = false ∧ (p.g k).qState site q = 0 ∧ p.mem = s.pack.mem)) ∧
      (g.qEn site q = true → (g.ix site q).p ≠ (g.ix site q).l ∨ g.outc site q ≠ 0 → Leaves (.queueDisable k m site q v) s (fun p =>
        (p.g k).rb (rQ site q 0x1C) 2 = true ∧ (∀ b, b ≠ rQ site q 0x1C → (p.g k).rd b = g.rd b) ∧ p.mem = s.pack.mem)))

/-- Doorbells (R149, R154), from a register write and through HIF.DOOR alike: a push moves P up and takes N of AVAIL; a consume moves C up; a consume with release moves C and L up, drags M along and returns N to AVAIL. -/
def Obligations.Doorbells : Prop :=
  ∀ (s : State) (k : Nat) (m : Master) (site q op n : Nat) (c : Instr),
    let g := s.pack.g k
    let i := g.ix site q
    let l := (i.l + n) % 65536
    let y : Ix :=
      if op = 1 then { i with p := (i.p + n) % 65536 }
      else if op = 2 then { i with c := (i.c + n) % 65536 }
      else { i with c := (i.c + n) % 65536, m := if ringDist i.m i.l < n then l else i.m, l := l }
    let left := if op = 1 then g.avail site q - n else if op = 2 then g.avail site q else g.avail site q + n
    q < 4096 → site < 48 → 0 < n → n ≤ 32768 → g.qState site q = 1 → y.ok (g.qSize site q) = true → left < 65536 →
    (op = 1 ∧ g.qProd site q = 1 ∧ n ≤ g.avail site q) ∨ ((op = 2 ∨ op = 3) ∧ g.qChost site q = true ∧ n ≤ ringDist i.p i.c) →
    (op = 3 → ∀ j, (s.pack.g j).pr.dq = [] ∧ (s.pack.g j).ld.resume = false) →
    (Writable s.pack k m site (oQueue q 0x2C) .queue (0x40 * q + 0x2C) ∧
      c = (if op = 1 then .queueDoorPush k m site q (n, 0) else if op = 2 then .queueDoorConsume k m site q (n, 0)
           else .queueDoorConsumeRelease k m site q (n, 0))) ∨
      (g.barsUp = true ∧ g.home q = some site ∧ g.qengOn site = true ∧ c = .hifDoorForward k q op (n, 0)) →
    Leaves c s (fun p => (p.g k).ix site q = y ∧ (p.g k).avail site q = left ∧ (p.g k).outc site q = g.outc site q ∧
      (p.g k).qState site q = 1 ∧ p.mem = s.pack.mem)

/-- Thin stages and modes (R164, R166, R173, R184, R379): CLUS.TMAP takes the entries of threads that run on no unit of the cluster; the writes to STAGE, PIPE.MODE and PIPE.SPILL are posted and have their effect when they complete: a stage is enabled once its queues, anchors and KCAP pass, and disabled once nothing is in flight, else CFGERR, CONF or BUSYERR is set and it stays as it was, with CONF in every field (R383); PIPE.MODE (written with its own value too) and PIPE.SPILL change only at rest and within the pool, else their error bit is set. MBT.CTL (R170, R171, R379): a posted write, which when it completes has this effect: one that makes an entry valid in the mode its KIND names takes its fields and counts its version tag up; one that makes it invalid counts the tag down; while its reservation is held VALID is not cleared: the write is logged and changes nothing of the entry. -/
def Obligations.PipelineRegisters : Prop :=
  (
  ∀ (s : State) (k : Nat) (m : Master) (site c j : Nat) (hi : Bool) (v : W32),
    let g := s.pack.g k
    let a := rTmap site c (b2n hi)
    let nib (w : W32) (n : Nat) : Nat := w.toNat / 2 ^ (4 * n) % 16
    let st := rStage j 0
    let fq := g.rf (rStage j 8) 11 0
    let bq := g.rf (rStage j 8) 27 16
    let qs : Prop := 512 ≤ fq ∧ fq ≤ 2559 ∧ 512 ≤ bq ∧ bq ≤ 2559 ∧ (g.rd (rStage j 0xC)).toNat ≤ (g.rd (rStage j 0x10)).toNat
    let rest : Prop := (∀ n, n < 512 → g.mbValid n = false) ∧ (∀ i, i < 8 → g.stEn i = false)
    let kovf := v.toNat % 512
    let dstg := v.toNat / 2 ^ 16 % 512
    let pool := kpoolOf (g.shareSum 48 0) kovf
    let fits : Prop := kovf ≤ 256 ∧ (kovf + 11) / 12 + (dstg + 11) / 12 ≤ 24 ∧ g.kcapSum 8 ≤ pool
    let same (p : Pack) (l : List Nat) : Prop := (∀ b, b ∉ l → (p.g k).rd b = g.rd b) ∧ p.mem = s.pack.mem
    (c < 16 → site < 48 → Writable s.pack k m site (0x2000 + 8 * c + 4 * b2n hi) .clus (8 * c + 4 * b2n hi) →
      Leaves (.clusTmapWrite k m site c hi v) s (fun p => same p [a] ∧ ∀ n, n < 8 →
        nib ((p.g k).rd a) n = if g.quietThread site c (8 * b2n hi + n) then nib v n else nib (g.rd a) n)) ∧
    (j < 8 → v.toNat / 2 ^ 16 % 1024 ≤ 512 →
      let on' : Post := { key := st, site := 62, off := 0x6000 + 0x40 * j, v := setB v 27 true, x := {} }
      let off' : Post := { key := st, site := 62, off := 0x6000 + 0x40 * j, v := setB v 27 false, x := {} }
      (Writable s.pack k m 62 (0x6000 + 0x40 * j) .stage (0x40 * j) →
        Gives (.stageEnable k m j v) s (s.pack.posted k on') ∧ Gives (.stageDisable k m j v) s (s.pack.posted k off')) ∧
      (g.stEn j = false →
        (qs → g.kcapSum j + g.stKcap j ≤ g.rf rKpool 18 0 → Lands s k on' (fun p => same p [st] ∧
          (p.g k).stEn j = true ∧ (p.g k).rf st 26 16 = v.toNat / 2 ^ 16 % 2 ^ 11 ∧ (p.g k).rf st 8 0 = v.toNat % 512 ∧
          (p.g k).busy = g.busy.filter (· != st))) ∧
        (¬ qs → Lands s k on' (fun p => same p [st] ∧ (p.g k).stEn j = false ∧ (p.g k).rb st 29 = true)) ∧
        (qs → g.rf rKpool 18 0 < g.kcapSum j + g.stKcap j → Lands s k on' (fun p => same p [st] ∧
          (p.g k).stEn j = false ∧ (p.g k).rb st 30 = true ∧ (p.g k).rf st 26 0 = g.rf st 26 0))) ∧
      (g.stEn j = true →
        (g.stInfl j = 0 → Lands s k off' (fun p => same p [st] ∧ (p.g k).stEn j = false)) ∧
        (g.stInfl j ≠ 0 → Lands s k off' (fun p => same p [st] ∧ (p.g k).stEn j = true ∧ (p.g k).rb st 28 = true)))) ∧
    (let x : Post := { key := rPipeMode, site := 62, off := 0x5000, v := v, x := {} };
      (Writable s.pack k m 62 0x5000 .pipe 0 → Gives (.pipeModeWrite k m v) s (s.pack.posted k x)) ∧
      (rest → v.toNat % 4 ≠ 3 → Lands s k x (fun p => same p [rPipeMode] ∧ (p.g k).mode = v.toNat % 4)) ∧
      (¬ rest → Lands s k x (fun p => same p [rPipeMode] ∧ (p.g k).mode = g.mode ∧ (p.g k).rb rPipeMode 30 = true))) ∧
    (let x : Post := { key := rPipeMode, site := 62, off := 0x5004, v := v, x := {} };
      (Writable s.pack k m 62 0x5004 .pipe 4 → Gives (.pipeSpillWrite k m v) s (s.pack.posted k x)) ∧
      (fits → g.anyHeld = false → Lands s k x (fun p => same p [rPipeSpill, rKpool] ∧
        (p.g k).rf rPipeSpill 8 0 = kovf ∧ (p.g k).rf rPipeSpill 24 16 = dstg ∧ (p.g k).rf rKpool 18 0 = pool % 2 ^ 19)) ∧
      (fits → g.anyHeld = true → Lands s k x (fun p => same p [rPipeSpill, rPipeMode] ∧ (p.g k).rb rPipeMode 30 = true ∧
        (p.g k).rf rPipeSpill 24 0 = g.rf rPipeSpill 24 0)) ∧
      (¬ fits → Lands s k x (fun p => same p [rPipeSpill] ∧ (p.g k).rb rPipeSpill 31 = true ∧
        (p.g k).rf rPipeSpill 24 0 = g.rf rPipeSpill 24 0)))) ∧
  (
  ∀ (s : State) (k : Nat) (m : Master) (n : Nat) (v : W32),
    let g := s.pack.g k
    let a := rMbt n 0
    let t0 := g.mbTag n
    let t1 := v.toNat / 2 ^ 22 % 4
    let refs (h : Pkg) (t : Nat) : Nat := h.rf (rVref t) 9 0
    let x : Post := { key := a, site := 62, off := 0x10000 + 0x20 * n, v := v, x := {} }
    n < 512 → v.toNat / 2 ^ 24 % 8 < 6 →
    (Writable s.pack k m 62 (0x10000 + 0x20 * n) .mbt (0x20 * n) → Gives (.mbtCtlWrite k m n v) s (s.pack.posted k x)) ∧
    (g.mbValid n = false → v.toNat.testBit 28 = true → v.toNat.testBit 27 = (g.mode == 2) → refs g t1 < 1023 →
      Lands s k x (fun p =>
        (p.g k).mbValid n = true ∧ (p.g k).rf a 28 22 = v.toNat / 2 ^ 22 % 2 ^ 7 ∧ (p.g k).rf a 15 0 = v.toNat % 2 ^ 16 ∧
        refs (p.g k) t1 = refs g t1 + 1 ∧ (∀ t, t < 4 → t ≠ t1 → refs (p.g k) t = refs g t) ∧
        (p.g k).mbHeld n = g.mbHeld n ∧ (p.g k).mbRecomp n = g.mbRecomp n ∧ p.mem = s.pack.mem)) ∧
    (g.mbValid n = true → v.toNat.testBit 28 = false → g.mbHeld n = false → 0 < refs g t0 →
      Lands s k x (fun p =>
        (p.g k).mbValid n = false ∧ refs (p.g k) t0 = refs g t0 - 1 ∧ (∀ t, t < 4 → t ≠ t0 → refs (p.g k) t = refs g t) ∧ p.mem = s.pack.mem)) ∧
    (g.mbValid n = true → v.toNat.testBit 28 = false → g.mbHeld n = true →
      Lands s k x (fun p => (p.g k).rd a = g.rd a ∧ (p.g k).logSeq = g.logSeq + 1 ∧ p.mem = s.pack.mem)))

/-- Writes of tensors, owners and optimiser groups (R201, R203, R204, R206, R379): posted writes, which have their effect when they complete. An enable that passes begins the owners' first pass with the version state set, or starts the group's schedule; one that does not, for a group also where the cosine table it reads is uncorrectable, sets ERR; a write while the package is not at rest changes nothing; an owner entry that an enabled tensor references ignores writes; the pass, once every owner has done it, writes the digests and sets EN; an owner whose stack is gated has not done it (R259, log 115). -/
def Obligations.StateTablesWrites : Prop :=
  ∀ (s : State) (k : Nat) (m : Master) (t e j : Nat) (hi : Bool) (v : W32) (ecc : Ecc),
    let g := s.pack.g k
    let a := rTens t 0
    let g1 := g.wr a (setF (setF (g.rd a) 28 27 (v.toNat / 2 ^ 27)) 25 0 v.toNat)
    let b := rSched j 0
    let s1 := s.pack.on k (fun g => g.wr b (setF (g.rd b) 28 22 (v.toNat / 2 ^ 22)))
    let same (p : Pack) (l : List Nat) : Prop := (∀ x, x ∉ l → (p.g k).rd x = g.rd x) ∧ p.mem = s.pack.mem
    let tOn : Post := { key := a, site := 62, off := 0x80000 + 0x20 * t, v := setB v 29 true, x := {} }
    let tOff : Post := { key := a, site := 62, off := 0x80000 + 0x20 * t, v := setB v 29 false, x := {} }
    let own : Post := { key := rOwn e 4, site := 62, off := 0x60000 + 8 * e + 4 * b2n hi, v := v, x := {} }
    let sOn : Post := { key := b, site := 62, off := 0xA000 + 0x80 * j, v := setB v 29 true, x := { ecc := ecc } }
    let sOff : Post := { key := b, site := 62, off := 0xA000 + 0x80 * j, v := setB v 29 false, x := {} }
    (t < 16384 → Writable s.pack k m 62 (0x80000 + 0x20 * t) .tens (0x20 * t) →
      Gives (.tensEnable k m t v) s (s.pack.posted k tOn) ∧ Gives (.tensDisable k m t v) s (s.pack.posted k tOff)) ∧
    (t < 16384 → g.tr.passes.contains t = false →
      (g.calm = true → g.tEn t = false → g1.tensOk t = true → Lands s k tOn (fun p =>
        same p [a, rTens t 8, rTens t 0x10] ∧ (p.g k).tr.passes.contains t = true ∧ (p.g k).tEn t = false ∧
        (p.g k).rf a 28 27 = v.toNat / 2 ^ 27 % 4 ∧ (p.g k).rf a 25 0 = v.toNat % 2 ^ 26 ∧ (p.g k).rf (rTens t 8) 31 16 = g1.nsh t % 2 ^ 16 ∧
        (p.g k).tCur t = 0 ∧ (p.g k).wslot t = 1 ∧ (p.g k).cbank t = 0 ∧ (p.g k).slotVtag t 0 = g.rf rVcur 1 0 ∧
        (∀ i, i < 5 → (p.g k).sv t i = decide (i = 0)))) ∧
      (g.calm = true → g.tEn t = false → g1.tensOk t = false → Lands s k tOn (fun p =>
        same p [a] ∧ (p.g k).tr = g.tr ∧ (p.g k).tEn t = false ∧ (p.g k).rb a 30 = true)) ∧
      (g.calm = true → g.tEn t = true → Lands s k tOff (fun p => same p [a] ∧ (p.g k).tEn t = false)) ∧
      (g.calm = false → Lands s k tOn (fun p => same p [a] ∧ (p.g k).tEn t = g.tEn t ∧ (p.g k).tr = g.tr) ∧
        Lands s k tOff (fun p => same p [a] ∧ (p.g k).tEn t = g.tEn t))) ∧
    (g.hubUp = true → g.tr.passes.contains t = true →
      ((∀ n r pk, n < g.nsh t → r < g.repl t → s.pack.at k (g.ownPos (g.ownerOf t n r)) = some pk →
          (s.pack.g pk).ownerOn t n r ∧ (s.pack.g pk).stackOn (g.ownStack (g.ownerOf t n r)) = true) →
        Leaves (.tensEnablePassDone k (t, [])) s (fun p =>
          (p.g k).tEn t = true ∧ (p.g k).tr.passes = g.tr.passes.filter (· != t) ∧
          (g.nsh t = 1 → g.repl t = 1 → g.moments t = 0 → s.pack.at k (g.ownPos (g.own0 t)) = some k →
            p.mem = (s.pack.digestPlane k t 0 0 0).mem))) ∧
      (g.nsh t = 1 → g.repl t = 1 → s.pack.at k (g.ownPos (g.own0 t)) = some k → ¬ g.ownerOn t 0 0 →
        Leaves (.tensEnablePassDone k (t, [])) s (fun p =>
          (p.g k).tEn t = g.tEn t ∧ (p.g k).tr.passes = g.tr.passes ∧ p.mem = s.pack.mem))) ∧
    (e < 16384 →
      (Writable s.pack k m 62 (0x60000 + 8 * e + 4 * b2n hi) .own (8 * e + 4 * b2n hi) → Gives (.ownWrite k m e hi v) s (s.pack.posted k own)) ∧
      (g.ownUsed e = true → Lands s k own (fun p => same p [])) ∧
      (g.ownUsed e = false → Lands s k own (fun p => same p [rOwn e (4 * b2n hi)] ∧
        (if hi then (p.g k).ownPos e = v.toNat / 2 ^ 10 % 64 ∧ (p.g k).ownStack e = v.toNat / 64 % 16 ∧
            (p.g k).ownValid e = v.toNat.testBit 30 ∧ (p.g k).rf (rOwn e 4) 4 0 = v.toNat % 32
         else ((p.g k).rd (rOwn e 0)).toNat = v.toNat / 4096 * 4096)))) ∧
    (j < 64 →
      (Writable s.pack k m 62 (0xA000 + 0x80 * j) .sched (0x80 * j) →
        Gives (.schedEnable k m j (v, ecc)) s (s.pack.posted k sOn) ∧ Gives (.schedDisable k m j v) s (s.pack.posted k sOff)) ∧
      (g.calm = true → g.sEn j = false → ecc = .ok → s1.schedOk k j false = true → Lands s k sOn (fun p =>
        (p.g k).sEn j = true ∧ (p.g k).rf b 28 22 = v.toNat / 2 ^ 22 % 2 ^ 7 ∧ ((p.g k).rd (rSched j 0x34)).toNat = 0 ∧
        (p.g k).rd (rSched j 0x44) = g.rd (rSched j 0xC) ∧ (p.g k).rd (rSched j 0x48) = g.rd (rSched j 0x10) ∧
        ((p.g k).rd (rSched j 0x3C)).toNat = 0 ∧ ((p.g k).rd (rSched j 0x40)).toNat = 0x3F800000 ∧ p.mem = s.pack.mem)) ∧
      (g.calm = true → g.sEn j = false → ecc = .ok → s1.schedOk k j false = false → Lands s k sOn (fun p =>
        same p [b] ∧ (p.g k).sEn j = false ∧ (p.g k).rb b 30 = true)) ∧
      (g.calm = true → g.sEn j = false → ecc = .ue → (s1.g k).readsTable j = true → Lands s k sOn (fun p =>
        (p.g k).sEn j = false ∧ (p.g k).rb b 30 = true ∧ p.mem = s.pack.mem)) ∧
      (g.calm = true → g.sEn j = true →
        ((∀ t, t ∈ g.tensors → g.tGroup t ≠ j) → Lands s k sOff (fun p => same p [b] ∧ (p.g k).sEn j = false)) ∧
        ((∃ t, t ∈ g.tensors ∧ g.tGroup t = j) → Lands s k sOff (fun p =>
          same p [b] ∧ (p.g k).sEn j = true ∧ (p.g k).rb b 30 = true))))

/-- Records and marks at a Thresher that holds nothing else (R197, R208, R211): one of an earlier step is logged and dropped; one of a later step waits in staging; the first record of a tile with several micro-batches is copied into the accumulation slot exactly and counted; an ordinal that has been taken already stops the shard with a log entry; a mark completes a shard of its root whose tiles are done. -/
def Obligations.ThresherArrivals : Prop :=
  ∀ (s : State) (k i n r : Nat) (w : Wire),
    let g := s.pack.g k
    g.hubUp = true → s.pack.wire[i]? = some w → w.dst = k → g.thQuiet →
    (∀ x : RedRec, w.body = .red x → (s.pack.g w.src).co.out = [] →
      let ts := g.tileSt x.tensor x.row x.col
      (x.step ≠ g.step → later g.step x.step = true → Leaves (.reducedRecord k i []) s (fun p =>
        p.wire = s.pack.wire.erase w ∧ (p.g k).tr = g.tr ∧ (p.g k).logSeq = g.logSeq + 1 ∧ p.mem = s.pack.mem)) ∧
      (x.step ≠ g.step → later g.step x.step = false → Leaves (.reducedRecord k i []) s (fun p =>
        p.wire = s.pack.wire.erase w ∧ (p.g k).tr = { g.tr with late := [x] } ∧ p.mem = s.pack.mem)) ∧
      (x.step = g.step → g.shardOf x.tensor x.row = n → g.myRep x.tensor n = some r → g.tEn x.tensor = true → g.tUpd x.tensor = true →
        (g.shardSt x.tensor n).stop = false → 2 ≤ g.kacc x.tensor → ts.done = false →
        (x.ord = 0 → ts.next = 0 → ts.held = [] → crc32c (redBytes x) = x.chk →
          g.ownerOn x.tensor n r → Leaves (.reducedRecord k i []) s (fun p =>
            (p.g k).tileSt x.tensor x.row x.col = { ts with next := 1, cnt := ts.cnt + x.n } ∧
            p.mem = (s.pack.wrPlaneTile k x.tensor n r (g.plAcc x.tensor) x.row x.col x.data).mem ∧ p.wire = s.pack.wire.erase w)) ∧
        (x.ord < ts.next → Leaves (.reducedRecord k i []) s (fun p =>
            ((p.g k).shardSt x.tensor n).stop = true ∧ (p.g k).logSeq = g.logSeq + 1 ∧
            (p.g k).sent.head? = some (.revertReq g.pos 0x0214) ∧ (p.g k).tr.tiles = g.tr.tiles ∧ p.mem = s.pack.mem)))) ∧
    (∀ e : EosMark, w.body = .eos e →
      (e.step ≠ g.step → later g.step e.step = true → Leaves (.endOfStepMark k (i, [])) s (fun p =>
        p.wire = s.pack.wire.erase w ∧ (p.g k).tr = g.tr ∧ (p.g k).logSeq = g.logSeq + 1 ∧ p.mem = s.pack.mem)) ∧
      (e.step ≠ g.step → later g.step e.step = false → Leaves (.endOfStepMark k (i, [])) s (fun p =>
        p.wire = s.pack.wire.erase w ∧ (p.g k).tr = { g.tr with lateMarks := g.tr.lateMarks ++ [e] } ∧ p.mem = s.pack.mem)) ∧
      (e.step = g.step → g.tEn e.tensor = true → g.myShards e.tensor = [n] → g.myRep e.tensor n = some r → g.rootOf e.tensor n = e.root →
        (g.shardSt e.tensor n).mark = false → g.ownerOn e.tensor n r → (∀ c ∈ g.shardTiles e.tensor n, (g.tileSt e.tensor c.1 c.2).done = true) →
        Leaves (.endOfStepMark k (i, [])) s (fun p =>
          (p.g k).shardSt e.tensor n = { (g.shardSt e.tensor n) with mark := true } ∧ p.wire = s.pack.wire.erase w ∧ p.mem = s.pack.mem)))

/-- A sweep (R209, R212): pass 1 sums the squares of a complete group and sends the accumulator to the leader; the leader, once every member's is in, sends NORM and FCLIP; pass 2 stores them and applies every tile of a shard that no gather still reads. -/
def Obligations.Sweeps : Prop :=
  (∀ (s : State) (k j t n : Nat),
    let g := s.pack.g k
    let x := g.shardSt t n
    let acc := mget (0, false) g.tr.norms j
    let gs := (g.shardTiles t n).flatMap (fun c =>
      (s.pack.planeTile k t n ((g.myRep t n).getD 0) (g.plAcc t) c.1 c.2).map (fun y => gradOf (g.stepK t) y (g.tileSt t c.1 c.2).cnt))
    let sq := (gs.map squareUnits).foldl (· + ·) 0
    g.hubUp = true → g.sEn j = true → g.sweep j = true → g.groupTensors j = [t] → g.myShards t = [n] →
    x.mark = true → x.stop = false → x.p1 = false → g.normOwner t n = true → g.ownerOn t n ((g.myRep t n).getD 0) →
    Leaves (.sweepPass1 k (j, [])) s (fun p =>
      (p.g k).shardSt t n = { x with p1 := true } ∧
      (p.g k).sent = .sweepAcc g.pos g.step { group := j, sum := (acc.1 + sq) % 2 ^ 480, ovf := acc.2 || decide (2 ^ 480 ≤ acc.1 + sq) } :: g.sent ∧
      p.mem = s.pack.mem)) ∧
  (∀ (s : State) (k q : Nat) (a : NormAcc),
    let g := s.pack.g k
    let l := (q, a) :: g.ld.sweep.filter (fun x => !(x.1 == q && x.2.group == a.group))
    let mine := l.filter (fun x => x.2.group == a.group)
    let full := (positions g.mem).all (fun q => mine.any (fun x => x.1 == q))
    g.hubUp = true → g.leads = true → g.mem.testBit q = true →
    (full = false → Gives (.sweepAccumulator k q g.step a) s (s.pack.on k (fun g => { g with ld := { g.ld with sweep := l } }))) ∧
    (full = true → Leaves (.sweepAccumulator k q g.step a) s (fun p =>
      (p.g k).sent = .sweepNorm g.step (g.normRes a.group ((mine.map (fun x => x.2.sum)).foldl (· + ·) 0) (mine.any (fun x => x.2.ovf))) :: g.sent ∧
      (p.g k).ld.sweep = l.filter (fun x => x.2.group != a.group) ∧ p.mem = s.pack.mem))) ∧
  (∀ (s : State) (k t n row col : Nat) (m : NormRes),
    let g := s.pack.g k
    let x := g.shardSt t n
    let s1 := s.pack.on k (fun g => (g.wr (rSched m.group 0x3C) (mk32 m.norm)).wr (rSched m.group 0x40) (mk32 m.fclip))
    g.hubUp = true → m.group < 64 → g.groupTensors m.group = [t] → g.myShards t = [n] → g.shardTiles t n = [(row, col)] →
    (x.p1 = false → Gives (.sweepNormBroadcast k g.step (m, [])) s s1) ∧
    (x.p1 = true → x.p2 = true → Leaves (.sweepNormBroadcast k g.step (m, [])) s (fun p =>
      (p.g k).shardSt t n = { x with nr := true } ∧ p.mem = s.pack.mem)) ∧
    (x.p1 = true → x.p2 = false → x.stop = false → g.ownerOn t n ((g.myRep t n).getD 0) → s.pack.gatherReads k t n (g.wslot t) = false →
      Leaves (.sweepNormBroadcast k g.step (m, [])) s (fun p =>
      ((p.g k).shardSt t n).p2 = true ∧
      p.mem = (s1.applyTile k t n ((g.myRep t n).getD 0) row col
        (s1.planeTile k t n ((g.myRep t n).getD 0) (g.plAcc t) row col) (g.tileSt t row col).cnt false).mem)))

/-- Gathers (R136, R200, R213, R214, R241): one into an O8 or A32 view is ended by the engine (R37, R38); a request binds each shard to the ring slot that holds the tag at its owner; a tag that no slot holds sets VERERR there and ends the gather; once every shard is bound, a tile whose digests match is converted and written through the destination view, and the last one ends the gather; a digest that does not match is logged, asks for a revert and ends it. -/
def Obligations.Gathers : Prop :=
  ∀ (s : State) (k i n j pk : Nat) (r : OpRec),
    let g := s.pack.g k
    let t := (r.v.getD 0 0).toNat % 2 ^ 32
    let e := gatherExt r
    let xs := g.co.gath.filter (fun x => x.seq == r.seq)
    let tr := r.f.ib 2
    let i0 := r.td.orgi + (if tr then 32 * j else 0)
    let j0 := r.td.orgj + (if tr then 0 else 32 * j)
    let m := (List.range 32).map (fun a => (List.range 32).map (fun b =>
      match xs.find? (fun x => x.shard == g.shardOf t ((i0 + a) / 32)) with
      | some x => ofB (s.pack.stateElem g x (i0 + a) (j0 + b))
      | none => valZero))
    let o := s.pack.convOut r.t (gatherView r.td j) (if tr then transpose m else m) false false none
    g.hubUp = true → g.eops[i]? = some r → r.op = .gather → (∀ x ∈ xs, (s.pack.g x.pk).thQuiet) →
    (isO8 r.td.fmt = true ∨ r.td.fmt = .a32 → Leaves (.gatherRequest k i n) s (fun p =>
      (p.g k).eops = g.eops.erase r ∧ p.mem = s.pack.mem)) ∧
    (isO8 r.td.fmt = false → r.td.fmt ≠ .a32 → t < 16384 → g.tEn t = true → r.td.orgi + e.1 ≤ 32 * g.rows32 t → r.td.orgj + e.2 ≤ 32 * g.cols32 t →
      (g.gatherShards r t).contains n = true → (∀ x ∈ xs, x.shard ≠ n) → s.pack.at k (g.rootOf t n) = some pk →
      (∀ slot, (s.pack.g pk).resolve t (r.f.i 1 0) = some slot → Gives (.gatherRequest k i n) s (s.pack.on k (fun g =>
        { g with co := { g.co with gath := g.co.gath ++
          [{ seq := r.seq, tensor := t, shard := n, pk := pk, rep := g.firstRep t n, slot := slot }] } }))) ∧
      ((s.pack.g pk).resolve t (r.f.i 1 0) = none → Leaves (.gatherRequest k i n) s (fun p =>
        (p.g pk).rb (rTens t 0x18) 3 = true ∧ (p.g k).eops = g.eops.erase r ∧ p.mem = s.pack.mem))) ∧
    (j ≤ r.f.i 10 3 → (∀ n ∈ g.gatherShards r t, ∃ x ∈ xs, x.shard = n) → (r.seq, j) ∉ g.co.tilesIn → g.held r = false →
      (∀ x ∈ xs, s.pack.ownerGated x = false) →
      (s.pack.badDigest g xs i0 j0 = none → s.pack.viewBad r.t (gatherView r.td j) 32 32 = none →
        Leaves (.gatherTile k i j [] true) s (fun p =>
          p.mem = (o.1.orFlags r.t r.td.stat o.2).mem ∧
          ((∀ c, c ≤ r.f.i 10 3 → c ≠ j → (r.seq, c) ∈ g.co.tilesIn) → (p.g k).eops = g.eops.erase r) ∧
          ((∃ c, c ≤ r.f.i 10 3 ∧ c ≠ j ∧ (r.seq, c) ∉ g.co.tilesIn) → (p.g k).eops = g.eops ∧ (r.seq, j) ∈ (p.g k).co.tilesIn))) ∧
      (∀ x b, s.pack.badDigest g xs i0 j0 = some (x, b) → x.pk = k → r.f.i 31 26 = 0 → Leaves (.gatherTile k i j [] true) s (fun p =>
        (p.g k).sent.head? = some (.revertReq g.pos 0x0207) ∧ (p.g k).logSeq = g.logSeq + 1 ∧
        (p.g k).eops = g.eops.erase r ∧ p.mem = s.pack.mem)))

/-- Replicas (R223, R224): replica 0's owner keeps the digests that the owners of the others have sent; once all are in and agree, the shard is compared; a block on which two replicas differ, neither or both clean, marks the tensor DIVERGED; where exactly one of the two is clean its block is copied over the other's, and the correction is logged where the copy has the winner's digest. -/
def Obligations.ReplicaComparison : Prop :=
  ∀ (s : State) (k t n r r0 pk : Nat) (digs : List Nat) (events : List (Nat × Nat)) (mine : List Nat),
    let g := s.pack.g k
    let x := g.shardSt t n
    let ds := (r, digs) :: x.digs.filter (fun d => d.1 != r)
    let others := (List.range (g.repl t)).filter (fun i => i != r0 && !g.lostPos (g.ownPos (g.ownerOf t n i)))
    let own := s.pack.newDigests k t n r0
    let pl := g.plSlot t (g.wslot t)
    let found := events ++ mine.map (fun b => (r0, b))
    let clean := !found.contains (r, 0)
    let sound := !found.contains (r0, 0)
    let s2 := s.pack.copyBlock k r0 pk r t n pl 0
    g.hubUp = true → g.myRep t n = some r0 → g.firstRep t n = r0 → r ≠ r0 → r < g.repl t → g.shardDone t n = true →
    s.pack.at k (g.ownPos (g.ownerOf t n r)) = some pk → .digests g.step t n r digs ∈ (s.pack.g pk).sent →
    (∀ i, i ∈ others → (∀ d ∈ ds, d.1 ≠ i) →
      Gives (.replicaDigests k t n r digs events mine) s (s.pack.on k (fun g => g.setShard t n { x with digs := ds }))) ∧
    (others = [r] → pk ≠ k →
      (digs = own → Leaves (.replicaDigests k t n r digs events mine) s (fun p =>
        ((p.g k).shardSt t n).cmp = true ∧ ((p.g pk).shardSt t n).cmp = true ∧ (p.g k).tr.diverged = g.tr.diverged ∧ p.mem = s.pack.mem)) ∧
      (g.planeBlocks t = 1 → g.moments t = 0 → own ≠ [digs.getD 0 0] →
        (clean = sound → Leaves (.replicaDigests k t n r digs events mine) s (fun p =>
          (p.g k).tr.diverged = true ∧ (p.g k).rb (rTens t 0x18) 2 = true ∧ p.mem = s.pack.mem)) ∧
        (sound = true → clean = false → s2.digNow pk t n r pl 0 = own.getD 0 0 → Leaves (.replicaDigests k t n r digs events mine) s (fun p =>
          p.mem = s2.mem ∧ (p.g k).logSeq = g.logSeq + 1)) ∧
        (sound = true → clean = false → s2.digNow pk t n r pl 0 ≠ own.getD 0 0 → Leaves (.replicaDigests k t n r digs events mine) s (fun p =>
          p.mem = s2.mem ∧ (p.g k).tr.diverged = true))))

/-- A member's part of a seal (R216, R219): in RUN, with its shards done and its protection work acknowledged, it sends READY of the running step and enters COLLECT, or, where its supplement no longer holds the C of its input queues, the supplement anew (R341); COMMIT of that step and of its own epoch, or the next, moves it to APPLY and is passed on, one of another epoch is counted in STALE and dropped (R299); once nothing of the step executes it applies the seal: SEAL.STEP is the step, SEAL.EPOCH the commit's, the current version is the next tag, it acknowledges, and with HOLD it stays in HELD, else it runs. -/
def Obligations.SealAtAMember : Prop :=
  ∀ (s : State) (k : Nat) (m : CommitMsg),
    let g := s.pack.g k
    g.hubUp = true →
    (g.assigned = true → g.pr.bad = false → g.shardsReady = true → g.pr.prep = g.step + 1 → s.pack.protReady k = true →
      (g.phase = 0 → s.pack.suppOld k = false → Leaves (.locallyReady k) s (fun p =>
        (p.g k).phase = 1 ∧ p.mem = s.pack.mem ∧
        ∃ r : ReadyMsg, (p.g k).sent = .ready r :: g.sent ∧ r.pos = g.pos ∧ r.step = g.step ∧ r.epoch = g.epoch ∧
          r.nan = g.tr.nan ∧ r.diverged = g.tr.diverged ∧ r.vref = (List.range 4).map (fun t => g.rf (rVref t) 9 0))) ∧
      (g.phase = 0 → s.pack.suppOld k = true → Leaves (.locallyReady k) s (fun p =>
        (p.g k).phase = 0 ∧ (p.g k).sent = .supplement g.supplement :: g.sent ∧ (p.g k).pr.suppAck = 0 ∧ (p.g k).regs = g.regs ∧ p.mem = s.pack.mem)) ∧
      (g.phase ≠ 0 → Gives (.locallyReady k) s s.pack)) ∧
    (g.assigned = false ∨ g.pr.bad = true ∨ g.shardsReady = false → Gives (.locallyReady k) s s.pack) ∧
    (m.epoch ≠ g.epoch → m.epoch ≠ (g.epoch + 1) % 65536 → Gives (.commit k m) s (s.pack.on k Pkg.stale)) ∧
    (m.epoch = g.epoch ∨ m.epoch = (g.epoch + 1) % 65536 → g.phase = 1 → m.step = g.step → g.pr.commit = none → Leaves (.commit k m) s (fun p =>
      (p.g k).phase = 2 ∧ (p.g k).pr.commit = some m ∧ (p.g k).sent = .commit m :: g.sent ∧ p.mem = s.pack.mem)) ∧
    (m.epoch = g.epoch ∨ m.epoch = (g.epoch + 1) % 65536 → g.phase ≠ 1 ∨ m.step ≠ g.step ∨ g.pr.commit ≠ none → Leaves (.commit k m) s (fun p => (∀ j, p.g j = s.pack.g j) ∧ p.mem = s.pack.mem)) ∧
    (g.pr.commit = some m → s.pack.executing k = true → Gives (.sealApply k []) s s.pack) ∧
    (g.pr.commit = some m → s.pack.executing k = false → g.leads = false → g.pr.revWait = false → g.links = [] → g.tensors = [] → g.liveQueues = [] →
      (∀ j, j < 64 → g.sEn j = false) → g.tr.late = [] → g.tr.lateMarks = [] → g.dqHome = none →
      Leaves (.sealApply k []) s (fun p =>
        (p.g k).sealed = g.step ∧ (p.g k).rf rSealEpoch 15 0 = m.epoch % 65536 ∧ (p.g k).pr.commit = none ∧
        (p.g k).rf rVcur 1 0 = (g.rf rVcur 1 0 + 1) % 4 ∧ Msg.sealAck g.pos g.step ∈ (p.g k).sent ∧
        (p.g k).rb rPackStat 1 = false ∧ (p.g k).phase = (if g.sealHold = true ∨ g.ld.hostLost = true then 3 else 0) ∧ p.mem = s.pack.mem))

/-- The leader's part of a seal (R217 to R219, R221, R344): it keeps each member's READY and counts one of another epoch in STALE (R299); with all of them in, and AUTO or a request, it sends COMMIT or halts the pack with the cause of the refusal; it leaves APPLY with the last ACK; RESUME releases a held pack; a lost host link sets HOLD everywhere. -/
def Obligations.SealAtTheLeader : Prop :=
  ∀ (s : State) (k : Nat) (m : Master) (r : ReadyMsg) (v : W32) (pos : Nat),
    let g := s.pack.g k
    let ms := r :: g.ld.ready.filter (fun x => x.pos != r.pos)
    let full (l : List ReadyMsg) : Prop := ∀ p, p ∈ positions g.mem → ∃ x ∈ l, x.pos = p
    g.hubUp = true → g.leads = true →
    (r.epoch ≠ g.epoch → Gives (.ready k r) s (s.pack.on k Pkg.stale)) ∧
    (r.step = g.step → r.epoch = g.epoch → g.mem.testBit r.pos = true → g.phase < 2 →
      (¬ full ms ∨ (g.sealAuto = false ∧ g.ld.req = false) → Leaves (.ready k r) s (fun p =>
        (p.g k).ld = { g.ld with ready := ms } ∧ (p.g k).sent = g.sent ∧ (p.g k).regs = g.regs ∧ p.mem = s.pack.mem)) ∧
      (full ms → g.sealAuto = true → g.refusal ms = none → Leaves (.ready k r) s (fun p =>
        (p.g k).sent = .commit (g.commitMsg ms) :: g.sent ∧ (p.g k).ld.record = some (g.commitMsg ms) ∧
        (p.g k).ld.acks = positions g.mem ∧ (p.g k).ld.ready = [] ∧ (p.g k).ld.req = false ∧ p.mem = s.pack.mem)) ∧
      (∀ c, full ms → g.sealAuto = true → g.refusal ms = some c → s.pack.members k = [k] → Leaves (.ready k r) s (fun p =>
        (p.g k).phase = 4 ∧ (p.g k).rf rSealStat 15 8 = c ∧ (p.g k).ld.record = g.ld.record ∧ p.mem = s.pack.mem))) ∧
    (g.phase = 2 → g.pr.commit = none →
      (g.ld.acks.filter (· != pos) ≠ [] → Leaves (.sealAck k pos g.sealed) s (fun p =>
        (p.g k).ld.acks = g.ld.acks.filter (· != pos) ∧ (p.g k).phase = 2 ∧ p.mem = s.pack.mem)) ∧
      (g.ld.acks.filter (· != pos) = [] → Leaves (.sealAck k pos g.sealed) s (fun p =>
        (p.g k).ld.acks = [] ∧ (p.g k).phase = (if g.pr.parked then 3 else 0) ∧ p.mem = s.pack.mem))) ∧
    (Writable s.pack k m 62 0x2000 .seal 0 →
      (g.phase < 2 → v.toNat.testBit 3 = false →
        (¬ full g.ld.ready → Leaves (.sealReq k m v) s (fun p =>
          (p.g k).ld.req = true ∧ (p.g k).rf rSealCtl 1 0 = v.toNat % 4 ∧ (p.g k).sent = g.sent ∧ p.mem = s.pack.mem)) ∧
        (full g.ld.ready → g.refusal g.ld.ready = none → Leaves (.sealReq k m v) s (fun p =>
          (p.g k).sent = .commit (g.commitMsg g.ld.ready) :: g.sent ∧ (p.g k).ld.req = false ∧ p.mem = s.pack.mem))) ∧
      (g.phase = 3 → v.toNat.testBit 2 = false → s.pack.members k = [k] → s.pack.owes k = false → g.pr.image = [] → g.pr.dq = [] →
        Leaves (.sealResume k m v) s (fun p =>
          (p.g k).phase = 0 ∧ (p.g k).rf rSealStat 15 8 = 0 ∧ (p.g k).sent = .resume :: g.sent ∧
          (p.g k).ld.resume = false ∧ (p.g k).ld.hostLost = false ∧ p.mem = s.pack.mem))) ∧
    Leaves (.hostLinkLost k) s (fun p =>
      (∀ j, j ∈ s.pack.members k → (p.g j).sealHold = true ∧ (p.g j).ld.hostLost = true) ∧
      (∀ j, j ∉ s.pack.members k → p.g j = s.pack.g j) ∧ p.mem = s.pack.mem)

/-- Reduction groups (R231, R236, R237, R239, R379): the writes to COLL are posted and have their effect when they complete: an enable whose configuration passes starts the group after the last sealed step, with a timer where its policy is timed; without a free timer, or with a configuration that does not pass, an error bit is set; a disable frees the timer; a deadline that expires counts and records the members whose mark is missing and closes the step, or, with that step closed already, counts for the step after it; a closed and delivered step sends the end-of-step marks and the next step opens. -/
def Obligations.ReductionGroups : Prop :=
  ∀ (s : State) (k : Nat) (m : Master) (j t : Nat) (v : W32),
    let g := s.pack.g k
    let a := rColl j 0
    let on' : Post := { key := a, site := 62, off := 0x8000 + 0x40 * j, v := setB v 28 true, x := {} }
    let off' : Post := { key := a, site := 62, off := 0x8000 + 0x40 * j, v := setB v 28 false, x := {} }
    let g1 := g.wr a (setF (setF (g.rd a) 27 26 (v.toNat / 2 ^ 26)) 11 0 v.toNat)
    let st := mget ({} : CollSt) g.co.st j
    let step := if st.closed then (g.openStep j + 1) % 2 ^ 32 else g.openStep j
    let late := ((positions (g.cMem j)).filter (fun p => !(g.markedOf j step).contains p)).foldl (fun n p => n + 2 ^ p) 0
    j < 64 →
    (Writable s.pack k m 62 (0x8000 + 0x40 * j) .coll (0x40 * j) →
      Gives (.collEnable k m j v) s (s.pack.posted k on') ∧ Gives (.collDisable k m j v) s (s.pack.posted k off')) ∧
    (g.calm = true → g.cEn j = false → g1.collOk j = true → g1.timed j = false → Lands s k on' (fun p =>
      (p.g k).cEn j = true ∧ (p.g k).policy j = v.toNat / 2 ^ 26 % 4 ∧ (p.g k).iqid j = v.toNat % 4096 ∧ (p.g k).lstep j = g.sealed ∧
      p.mem = s.pack.mem)) ∧
    (g.calm = true → g.cEn j = false → g1.collOk j = true → g1.timed j = true → ∀ n, g.freeTimer = some n → Lands s k on' (fun p =>
      (p.g k).cEn j = true ∧ (p.g k).cTimer j = some n ∧ (p.g k).tmrAlloc n = true ∧ (p.g k).lstep j = g.sealed ∧ p.mem = s.pack.mem)) ∧
    (g.calm = true → g.cEn j = false → g1.collOk j = true → g1.timed j = true → g.freeTimer = none → Lands s k on' (fun p =>
      (p.g k).cEn j = false ∧ (p.g k).rb a 30 = true ∧ p.mem = s.pack.mem)) ∧
    (g.calm = true → g.cEn j = false → g1.collOk j = false → Lands s k on' (fun p =>
      (p.g k).cEn j = false ∧ (p.g k).rb a 29 = true ∧ p.mem = s.pack.mem)) ∧
    (g.calm = true → g.cEn j = true → Lands s k off' (fun p =>
      (p.g k).cEn j = false ∧ (p.g k).cTimer j = none ∧ (∀ n, n < 64 → g.cTimer j = some n → (p.g k).tmrAlloc n = false) ∧ p.mem = s.pack.mem)) ∧
    (g.calm = false → Lands s k off' (fun p => (p.g k).cEn j = g.cEn j ∧ (∀ b, b ≠ a → (p.g k).rd b = g.rd b) ∧ p.mem = s.pack.mem)) ∧
    (g.hubUp = true →
      (st.run = false → Gives (.collDeadlineExpiry k j) s s.pack) ∧
      (st.run = true → (st.closed = false → g.openInsts j = [] ∧ g.markedOf j ((g.openStep j + 1) % 2 ^ 32) = []) →
        Leaves (.collDeadlineExpiry k j) s (fun p =>
          mget ({} : CollSt) (p.g k).co.st j = { closed := true, exp := if st.closed then some late else none } ∧
          ((p.g k).rd (rColl j 0x28)).toNat = min ((g.rd (rColl j 0x28)).toNat + popcount late) 0xFFFFFFFF ∧
          (st.closed = false → (p.g k).rd64 (rColl j 0x14) (rColl j 0x18) = late % 2 ^ 64) ∧
          (p.g k).logSeq = g.logSeq + 1 ∧ p.mem = s.pack.mem)) ∧
      (st.closed = false → Gives (.stepClose k j) s s.pack) ∧
      (st.closed = true → st.exp = none → g.co.out = [] → g.co.inb = [] → positions (g.cMem j) ≠ [] → g.updTensors = [t] → g.tGroup t = j →
        g.nsh t = 1 → g.repl t = 1 → g.ownPos (g.own0 t) = g.pos → g.lostPos g.pos = false → s.pack.at k g.pos = some k →
        Leaves (.stepClose k j) s (fun p =>
          (p.g k).lstep j = g.openStep j ∧ mget ({} : CollSt) (p.g k).co.st j = { run := st.run } ∧
          p.wire = s.pack.wire ++ [{ src := k, dst := k, dq := 0, qk := 0, idx := 0, body := .eos { step := g.openStep j, tensor := t, root := g.pos } }] ∧
          p.mem = s.pack.mem)))

/-- Records between packages (R227, R229, R230, R233 to R237, R242): the engine sends the head of an outgoing queue to its destination with one of its credits there and goes on to the next entry; what arrives is written into the inbound queue in push order; a contribution waits until every member's is in, and the instance then closes with the reduced record sent to its owner; one whose TCHK fails is logged and asks for a revert; the last member's MARK closes the step. -/
def Obligations.CollectiveRecords : Prop :=
  (∀ (s : State) (k site q p dq ds pk : Nat),
    let g := s.pack.g k
    let h := s.pack.g pk
    let i := g.ix site q
    let e := s.pack.bytes (g.entryLoc k site q i.c) 64
    let data := s.pack.bytes (g.dataLoc k site q i.c) 2048
    let held := h.credOf (qkey ds dq) g.pos
    g.hubUp = true → q < 4096 → site < 48 → qClass q = 2 → g.home q = some site → g.qState site q = 1 → g.qProd site q = 0 →
    g.cengOn site = true → g.qengOn site = true → i.p ≠ i.c → chkOk q i.c e = true → eField e 0 1 = 0x10 → g.destsOf e = some [(p, dq)] →
    mget 0 g.co.sent (qkey site q) = 0 → g.co.acks = [] → s.pack.at k p = some pk → pk ≠ k → h.home dq = some ds → ds < 48 → dq < 4096 →
    qClass dq = 2 → h.qProd ds dq = 2 → h.qState ds dq = 1 → 0 < h.avail ds dq → held < h.credCap (g.tGroup (eField e 8 4)) ds dq →
    h.outc ds dq + 1 < 65536 → (Ix.mk i.p ((i.c + 1) % 65536) i.m i.l).ok (g.qSize site q) = true →
    Leaves (.collSend k site (q, .ok)) s (fun r =>
      r.wire = s.pack.wire ++ [{ src := k, dst := pk, dq := dq, qk := qkey site q, idx := i.c,
                                 body := .coll (e.take 24 ++ leBytes g.pos 1 ++ e.drop 25) data }] ∧
      (r.g k).ix site q = { i with c := (i.c + 1) % 65536 } ∧ (r.g k).co.acks = [(qkey site q, i.c, 1)] ∧
      (r.g pk).avail ds dq = h.avail ds dq - 1 ∧ (r.g pk).outc ds dq = h.outc ds dq + 1 ∧
      (r.g pk).credOf (qkey ds dq) g.pos = held + 1 ∧ r.mem = s.pack.mem)) ∧
  (∀ (s : State) (k n site : Nat) (w : Wire) (e d : List Byte),
    let g := s.pack.g k
    let i := g.ix site w.dq
    let j := eField e 25 1 % 64
    let t := eField e 8 4
    let step := eField e 4 4
    let src := eField e 24 1 % 64
    let ord := if g.kacc t = 1 then 0 else eField e 2 2
    let stored (b : List Byte) := ((s.pack.store (g.dataLoc k site w.dq i.p) b).ringWrite k site w.dq (e.take 60) 1 i.p).mem
    let landed (p : Pack) : Prop := (p.g k).ix site w.dq = { i with p := (i.p + 1) % 65536 } ∧ p.mem = stored d
    g.hubUp = true → w.dst = k → g.home w.dq = some site → site < 48 → w.dq < 4096 → g.qState site w.dq = 1 →
    (Ix.mk ((i.p + 1) % 65536) i.c i.m i.l).ok (g.qSize site w.dq) = true → (s.pack.g w.src).co.acks = [] → g.co.inb = [] → g.co.seen = [] →
    (s.pack.collWire k n 0x10 = some (w, e, d) → g.cEn j = true → g.iqid j = w.dq → (g.cMem j).testBit src = true →
      (eField e 20 4 ≠ tchkOf e d → Leaves (.inboundRecord k n 0) s (fun p => landed p ∧
        (p.g k).pr.bad = true ∧ (p.g k).sent.head? = some (.revertReq g.pos 0x0208) ∧ p.wire = s.pack.wire.erase w)) ∧
      (eField e 20 4 = tchkOf e d → g.tEn t = true → step = g.openStep j →
        ((∃ q, q ∈ positions (g.cMem j) ∧ q ≠ src) → Leaves (.inboundRecord k n 0) s (fun p => landed p ∧ p.wire = s.pack.wire.erase w ∧
          ∃ x : Inb, (p.g k).co.inb = [x] ∧ x.src = src ∧ x.group = j ∧ x.step = step ∧ x.tensor = t ∧ x.row = eField e 12 2 ∧
            x.col = eField e 14 2 ∧ x.ord = ord ∧ x.data = halves d ∧ x.idx = i.p ∧ x.closed = false ∧ x.freed = false)) ∧
        (∀ pk, positions (g.cMem j) = [src] → g.repl t = 1 → s.pack.at k (g.ownPos (g.ownerOf t (g.shardOf t (eField e 12 2)) 0)) = some pk →
          src = g.pos → (mget ({} : CollSt) g.co.st j).closed = false →
          Leaves (.inboundRecord k n 0) s (fun p => landed p ∧ ∃ (x : Inb) (r : RedRec), (p.g k).co.inb = [{ x with closed := true }] ∧ x.data = halves d ∧
            p.wire = s.pack.wire.erase w ++ [{ src := k, dst := pk, dq := 0, qk := 0, idx := 0, body := .red r }] ∧
            r.step = step ∧ r.tensor = t ∧ r.row = eField e 12 2 ∧ r.col = eField e 14 2 ∧ r.ord = ord ∧ r.n = 1 ∧ r.root = g.pos ∧
            r.chk = crc32c (redBytes r) ∧ reduceTile (g.cMem j) g.pos [x] [] = some (r.data, r.sta))))) ∧
    (s.pack.collWire k n 0x11 = some (w, e, d) → g.cEn j = true → g.iqid j = w.dq → positions (g.cMem j) = [src] → (g.cMem j).testBit src = true →
      step = g.openStep j → (mget ({} : CollSt) g.co.st j).closed = false → Leaves (.markArrival k n 0) s (fun p => landed p ∧
        mget ({} : CollSt) (p.g k).co.st j = { run := false, closed := true } ∧ p.wire = s.pack.wire.erase w)) ∧
    (s.pack.collWire k n 0x12 = some (w, e, d) → Leaves (.bcastDelivery k n 0) s (fun p =>
      (p.g k).ix site w.dq = { i with p := (i.p + 1) % 65536 } ∧ p.mem = stored d ∧ p.wire = s.pack.wire.erase w)))

/-- The permute (R243 to R245): START in HELD begins at entry 0, elsewhere it sets NHELD; each block that no other move writes and whose digest verifies is written at its destination with its digest, a block that does not stops the table with ERR; a barrier releases once every member has reported and waits there; the leader sets ALLDONE once every member's table is done. -/
def Obligations.Permutation : Prop :=
  ∀ (s : State) (k : Nat) (m : Master) (v : W32) (e : List Byte) (a d sd dd : Loc) (q c o : Nat) (lost : Bool),
    let g := s.pack.g k
    let i := g.rf (rPerm 0xC) 31 16
    let n := g.rf (rPerm 0xC) 15 0
    let b := g.co.pblk
    let bs := s.pack.bytes a 4096
    let runs (r : Nat) : Prop := ∃ j, s.pack.at k r = some j ∧ (s.pack.g j).rb (rPerm 0) 31 = true
    (Writable s.pack k m 62 0x3000 .perm 0 → g.rb (rPerm 0) 31 = false →
      (g.phase = 3 → s.pack.permEntry k 0 = some e → s.pack.permOk k e = true → eField e 36 4 = 0 → 0 < n →
        Leaves (.permStart k m v) s (fun p =>
          (p.g k).rb (rPerm 0) 31 = true ∧ (p.g k).rf (rPerm 0xC) 31 16 = 0 ∧ (p.g k).co.pblk = 0 ∧ (p.g k).co.pbar = 0 ∧
          (p.g k).co.pwait = false ∧ p.mem = s.pack.mem)) ∧
      (g.phase = 3 → n = 0 → Leaves (.permStart k m v) s (fun p =>
          (p.g k).rb (rPerm 0) 31 = false ∧ (p.g k).rb (rPerm 0) 28 = true ∧ (p.g k).sent = .permDone g.pos :: g.sent ∧ p.mem = s.pack.mem)) ∧
      (g.phase ≠ 3 → Leaves (.permStart k m v) s (fun p =>
          (p.g k).rb (rPerm 0) 31 = false ∧ (p.g k).rb (rPerm 0) 30 = true ∧ (p.g k).co = g.co ∧ p.mem = s.pack.mem))) ∧
    (g.hubUp = true → g.rb (rPerm 0) 31 = true → g.co.pwait = false → s.pack.permEntry k i = some e →
      s.pack.spanOk k none (eField e 0 8 + 4096 * b) 4096 = .ok a → s.pack.spanOk k none (eField e 8 8 + 4096 * b) 4096 = .ok d →
      s.pack.spanOk k none (eField e 16 8 + 4 * b) 4 = .ok sd → s.pack.spanOk k none (eField e 24 8 + 4 * b) 4 = .ok dd →
      s.pack.permClash k e (eField e 0 8 + 4096 * b) = false →
      (crc32c bs = leVal (s.pack.bytes sd 4) →
        (b + 1 < eField e 32 4 → Leaves (.permBlock k (.ok, o) false) s (fun p =>
          (p.g k).co.pblk = b + 1 ∧ p.mem = ((s.pack.store d bs).store dd (leBytes (crc32c bs) 4)).mem)) ∧
        (eField e 32 4 ≤ b + 1 → n ≤ i + 1 → i + 1 < 65536 → Leaves (.permBlock k (.ok, o) false) s (fun p =>
          (p.g k).rb (rPerm 0) 31 = false ∧ (p.g k).rb (rPerm 0) 28 = true ∧ (p.g k).co.pblk = 0 ∧ (p.g k).sent = .permDone g.pos :: g.sent ∧
          p.mem = ((s.pack.store d bs).store dd (leBytes (crc32c bs) 4)).mem))) ∧
      (lost = true ∨ crc32c bs ≠ leVal (s.pack.bytes sd 4) → Leaves (.permBlock k (.ok, o) lost) s (fun p =>
          (p.g k).rb (rPerm 0) 31 = false ∧ (p.g k).rb (rPerm 0) 29 = true ∧ (p.g k).logSeq = g.logSeq + 1 ∧ p.mem = s.pack.mem))) ∧
    (g.hubUp = true → g.leads = true → g.mem.testBit q = true →
      (s.pack.permStands k q c = false → Gives (.permBarrierRelease k (q, c)) s s.pack) ∧
      (s.pack.permStands k q c = true → (∃ r, r ∈ positions g.mem ∧ r ≠ q ∧ (r + 64 * c ∉ g.co.lbar ∨ s.pack.permStands k r c = false)) →
        Gives (.permBarrierRelease k (q, c)) s
          (s.pack.on k (fun g => { g with co := { g.co with lbar := (q + 64 * c) :: g.co.lbar.filter (· != q + 64 * c) } }))) ∧
      (positions g.mem = [q] → s.pack.members k = [k] → s.pack.at k q = some k → g.rb (rPerm 0) 31 = true → g.co.pwait = true → g.co.pbar = c →
        n ≤ i + 1 → i + 1 < 65536 → Leaves (.permBarrierRelease k (q, c)) s (fun p =>
        (p.g k).co.pwait = false ∧ (p.g k).co.pbar = g.co.pbar + 1 ∧ (p.g k).rb (rPerm 0) 28 = true ∧
        (p.g k).sent = .permDone g.pos :: .permRelease g.co.pbar :: g.sent ∧ p.mem = s.pack.mem)) ∧
      (runs q → Gives (.permDone k q) s s.pack) ∧
      (¬ runs q → (∃ r, r ∈ positions g.mem ∧ r ≠ q ∧ r ∉ g.co.ldone) → Gives (.permDone k q) s
        (s.pack.on k (fun g => { g with co := { g.co with ldone := q :: g.co.ldone.filter (· != q) } }))) ∧
      (¬ runs q → (∀ r, r ∈ positions g.mem → r = q ∨ r ∈ g.co.ldone) → Leaves (.permDone k q) s (fun p =>
        (p.g k).rb (rPerm 0) 27 = true ∧ (p.g k).co.ldone = [] ∧ p.mem = s.pack.mem)))

/-- A stack's channel (R248, R250, R251, R253 to R256): a refresh that can wait no longer goes first; at throttle level 3 requests wait; a write whose CRC fails is discarded; else the request is performed and the rotation moves on; a write of less than a burst changes exactly its bytes; an uncorrectable burst changes no byte, is logged, marks the package not ready and asks for a revert. -/
def Obligations.StackAccesses : Prop :=
  ∀ (s : State) (k j c : Nat) (r : StackReq),
    let g := s.pack.g k
    let burst (o : Nat) := s.pack.bytes (stackLoc k j (o / 64 * 64)) 64
    let key := (stackLoc k j (r.off / 64 * 64)).key + r.off % 64
    let moved (p : Pack) : Prop := mget 0 (p.g k).sk.rot (chKey j c) = (r.src + 1) % 3
    let part : Prop := r.write = true ∧ r.data.length < 64 ∧ c = chanOf r.off
    g.hubUp = true → g.stackServes j = true →
    (c ≠ chanOf r.off → Gives (.stackPartialWrite k j c r []) s s.pack) ∧
    (∀ b, g.forced j c = some b → Gives (.stackRequest k j c [r]) s (s.pack.on k (fun g => g.setPost j c b 0)) ∧
      (part → Gives (.stackPartialWrite k j c r []) s (s.pack.on k (fun g => g.setPost j c b 0)))) ∧
    (g.forced j c = none → g.chLevel j c = 3 ∨ (r.write = true ∧ r.crc = false) →
      Gives (.stackRequest k j c [r]) s s.pack ∧ (part → Gives (.stackPartialWrite k j c r []) s s.pack)) ∧
    (g.forced j c = none → g.chLevel j c ≠ 3 → g.reqOk j c r = true → mget 0 g.sk.rot (chKey j c) < 3 →
      (r.write = true → r.data.length = 64 → Leaves (.stackRequest k j c [r]) s (fun p =>
        p.mem = memWrN s.pack.mem (stackLoc k j r.off).key r.data ∧ moved p)) ∧
      (r.write = false → r.err = [] → Leaves (.stackRequest k j c [r]) s (fun p =>
        (p.g k).sk.read = some (r.src, j, r.off, ((burst r.off).drop (r.off % 64)).take r.n) ∧ moved p ∧ p.mem = s.pack.mem)) ∧
      (part →
        (r.err = [] → Leaves (.stackPartialWrite k j c r []) s (fun p =>
          (∀ i, i < r.data.length → memRd p.mem (key + i) = r.data.getD i 0) ∧
          (∀ b, b < key ∨ key + r.data.length ≤ b → memRd p.mem b = memRd s.pack.mem b) ∧
          (p.g k).regs = g.regs ∧ moved p ∧ ∀ i, i ≠ k → p.g i = s.pack.g i)) ∧
        (burstDecode r.err = none → Leaves (.stackPartialWrite k j c r []) s (fun p =>
          p.mem = s.pack.mem ∧ (p.g k).pr.bad = true ∧ (p.g k).logSeq = g.logSeq + 1 ∧ moved p ∧
          (p.g k).sent.head? = some (.revertReq g.pos 0x020A)))))

/-- Refresh, scrub, ports, sensors (R250 to R253, R256, R259, R403): a refresh due while requests are pending is postponed up to eight times; the patrol scrub takes the next burst and writes a corrected one back; a lost port is marked, what is in flight through it is discarded, and with the second the stack fails and the package declares it; a sample sets its zone's reading and every channel's level, and fires the trip wire at 110 °C; a stack leaves self-refresh. -/
def Obligations.StackMaintenance : Prop :=
  ∀ (s : State) (k j c b p z tz : Nat) (pending : Bool) (err : List (Nat × Nat)),
    let g := s.pack.g k
    let n := mget 0 g.sk.post (bankKey j c b)
    let x := mget 0 g.sk.scrub (chKey j c)
    g.hubUp = true → j < 12 →
    (g.selfRef j = false → Gives (.refresh k j c b pending) s (s.pack.on k (fun g => g.setPost j c b (if pending = true ∧ n < 8 then n + 1 else 0)))) ∧
    (g.selfRef j = false → g.stackFail j = false → g.rf (rStack j 0) 23 16 ≠ 0 → g.forced j c = none → g.chLevel j c ≠ 3 →
      (err = [] → Leaves (.patrolScrub k j c err) s (fun q =>
        mget 0 (q.g k).sk.scrub (chKey j c) = (x + 1) % 0xC00000 ∧ q.mem = s.pack.mem ∧ (q.g k).regs = g.regs)) ∧
      (∀ fix bs, burstDecode err = some fix → fix ≠ [] → err ≠ [] →
        burstRead (s.pack.bytes (stackLoc k j (burstAddr c x / 64 * 64)) 64) err = some (bs, true) →
        Leaves (.patrolScrub k j c err) s (fun q =>
          mget 0 (q.g k).sk.scrub (chKey j c) = (x + 1) % 0xC00000 ∧ (q.g k).logSeq = g.logSeq + 1 ∧
          q.mem = memWrN s.pack.mem (stackLoc k j (burstAddr c x)).key bs))) ∧
    (p < 2 → g.stackPort j p = true →
      (g.stackPort j (1 - p) = true → Leaves (.stackPortLost k j p) s (fun q =>
        (q.g k).stackPort j p = false ∧ (q.g k).stackPort j (1 - p) = true ∧ (q.g k).stackFail j = g.stackFail j ∧ (q.g k).sent = g.sent ∧
        (q.g k).loads = g.loads.map (fun l => if s.pack.viaLost k j p l.t l.addr.toNat then { l with stuck := true } else l) ∧
        q.mem = s.pack.mem)) ∧
      (g.stackPort j (1 - p) = false → g.stackFail j = false → Leaves (.stackPortLost k j p) s (fun q =>
        (q.g k).stackPort j p = false ∧ (q.g k).stackFail j = true ∧
        (g.assigned = true → (q.g k).sent = .pkgFail g.pos :: g.sent ∧ (q.g k).rb rPins 3 = true) ∧ q.mem = s.pack.mem))) ∧
    (z < 8 → tz < 1024 → Leaves (.stackSensorSample k j z tz) s (fun q =>
      (q.g k).rf (rStack j (0x10 + 4 * z)) 9 0 = tz ∧
      (∀ l, l < 16 → (q.g k).chLevel j (16 * z + l) = levelOf (15 * tz + topRise k j * l) (g.chLevel j (16 * z + l))) ∧
      (∀ d, d < 128 → d / 16 ≠ z → (q.g k).chLevel j d = g.chLevel j d) ∧
      (q.g k).hk.trips = (if 440 ≤ tz then g.hk.trips ++ [48 + j] else g.hk.trips) ∧ q.mem = s.pack.mem)) ∧
    Leaves (.selfRefreshExit k j) s (fun q => (q.g k).selfRef j = false ∧ (∀ a, a ≠ rStack j 0 → (q.g k).rd a = g.rd a) ∧ q.mem = s.pack.mem)

/-- Dies and their links (R15 to R17, R19, R261 to R274, R279, R295): a die with straps of a site starts and its edges train, each end into the mode its bad lanes allow; wrong straps fail it, its edges go off, and the fault is logged. The sender's frame is one again after a NAK, else a new one with the flits that leave by the edge, kept until it is acknowledged. A frame that the lanes leave alone and that is next in turn is taken, its acknowledgement is acted on and its flits go on their way; one whose CRC fails is dropped, counted and answered with a NAK. A flit in turn is delivered, one that has come before is discarded, one ahead waits. A window's end moves the count of failures to FERCNT; a switch that the sender knows of takes the new map at its frame, or enters FALLBACK with what was not taken sent again as packets; a packet in turn is taken likewise, and the packet credits it carries return; an edge whose lanes pass again returns to MAIN, one that does not goes on in the fallback. -/
def Obligations.DieLinks : Prop :=
  (∀ (s : State) (k site e s' f failed gap : Nat) (ok : Bool) (errs : List (Nat × Nat)),
    let g := s.pack.g k
    let x := g.edge site e
    let y := g.edge s' f
    let h := hubEnd site e
    let here := fusedMask k site e % 2 ^ physLanes h
    let there := fusedMask k s' f % 2 ^ physLanes h
    let taken (r : SentFrm) : List Flit := r.flits.map (fun q => { q with body := q.body % 2 ^ 256 })
    let x' (p : Pack) : Edge := (p.g k).edge site e
    let y' (p : Pack) : Edge := (p.g k).edge s' f
    g.hubUp = true → facing site e = some (s', f) →
    (site < 48 → g.siteSt site = .active → mget false g.started site = false →
      (∀ a, a < 48 → g.hole s' = false → g.netLive s' = true →
        Leaves (.dieStart k site a (orientOf a) []) s (fun p =>
          mget false (p.g k).started site = true ∧ (p.g k).sites = g.sites ∧ (x' p).bad = here ∧ (y' p).bad = there ∧
          (x' p).state = (if (bundleMode h here 3).1 = 4 ∨ (bundleMode h there 3).1 = 4 then 4 else (bundleMode h here 3).1) ∧
          (y' p).state = (if (bundleMode h here 3).1 = 4 ∨ (bundleMode h there 3).1 = 4 then 4 else (bundleMode h there 3).1) ∧
          mget (0, 0) (p.g k).straps site = (a, orientOf a) ∧ p.mem = s.pack.mem)) ∧
      (∀ a b tests, 47 < a ∨ b ≠ orientOf a → (∀ i, i < 32 → portSites.getD (i / 4) 99 = site → g.portState i = 0 ∨ g.portState i = 4) →
        Leaves (.dieStart k site a b tests) s (fun p =>
          (p.g k).siteSt site = .failed ∧ (p.g k).started = g.started ∧ (x' p).state = 0 ∧ (y' p).state = 0 ∧
          (p.g k).logSeq = g.logSeq + 1 ∧ p.mem = s.pack.mem))) ∧
    (∀ r g2, x.state = 2 → x.pend = none → x.lanes = [] → g.sendFrame s' f = some (r, g2) → r.bad = false → r.flits.length ≤ 32 →
      (x.wireBits h errs = [] → r.n % 4096 = x.next → Leaves (.d2dFrame k site e gap [] errs (.ok, .ok)) s (fun p =>
        (x' p).next = (x.next + 1) % 4096 ∧ (x' p).nak = false ∧ (x' p).retry = x.retry.filter (fun q => !seqLe 4096 q.n y.ackNo) ∧
        (y' p).retry = (g2.edge s' f).retry ∧ (y' p).sn = (g2.edge s' f).sn ∧
        (p.g k).net.got = (g2.flitsIn site (taken r)).net.got ∧ (p.g k).net.hold = (g2.flitsIn site (taken r)).net.hold ∧ p.mem = s.pack.mem)) ∧
      (let ws := upsetWords (frameWords r y.ackNo y.nak) (x.wireBits h errs)
       x.wireBits h errs ≠ [] → frameCrc ws ≠ ctlF ws 31 0 → Leaves (.d2dFrame k site e gap [] errs (.ok, .ok)) s (fun p =>
        (x' p).next = x.next ∧ (x' p).nak = true ∧ (x' p).fails = x.fails + 1 ∧ (y' p).retry = (g2.edge s' f).retry ∧
        (p.g k).net.rx = g.net.rx ∧ p.mem = s.pack.mem))) ∧
    (x.up = true → Leaves (.d2dFerlimWindow k site e) s (fun p =>
      (x' p).fercnt = min 65535 x.fails ∧ (x' p).fails = 0 ∧ p.mem = s.pack.mem)) ∧
    (x.up = false → Leaves (.d2dFerlimWindow k site e) s (fun p => (∀ j, p.g j = s.pack.g j) ∧ p.mem = s.pack.mem)) ∧
    (x.told = false → Leaves (.d2dMapSwitch k site e) s (fun p => (∀ j, p.g j = s.pack.g j) ∧ p.mem = s.pack.mem)) ∧
    (x.state = 2 → x.told = true →
      (x.pend = some (y.nextNo, false) →
        Gives (.d2dMapSwitch k site e) s (s.pack.on k (fun g => g.setEdge site e { x with pend := none, told := false, map := x.bad }))) ∧
      (x.pend = some (y.nextNo, true) → Leaves (.d2dMapSwitch k site e) s (fun p =>
        (x' p).state = 3 ∧ (x' p).next = 0 ∧ (x' p).map = x.bad ∧
        (x' p).half = decide ((goodLanes h x.bad).length < logLanes h) ∧ (x' p).fbk = min 65535 (x.fbk + 1) ∧
        (y' p).retry = [] ∧ (y' p).sn = 0 ∧ (y' p).credits = 1024 ∧ (y' p).todo = regroup 2 (untaken x.next y.retry ++ y.todo) ∧
        (p.g k).logSeq = g.logSeq + 1 ∧ p.mem = s.pack.mem))) ∧
    (∀ r g2, x.state = 3 → g.sendPacket s' f = some (r, g2) → r.bad = false → r.flits.length ≤ 2 → x.wireBits h errs = [] → r.n % 65536 = x.next →
      Leaves (.d2dPacket k site e (1, []) (errs, .ok, .ok)) s (fun p =>
        (x' p).next = (x.next + 1) % 65536 ∧ (x' p).nak = false ∧ (x' p).powed = x.powed + 1 ∧
        (x' p).credits = min 1024 (x.credits + (if y.state = 3 then y.powed else 0)) ∧
        (x' p).retry = x.retry.filter (fun q => !seqLe 4096 q.n y.ackNo) ∧ (y' p).retry = (g2.edge s' f).retry ∧
        (p.g k).net.got = (g2.flitsIn site (taken r)).net.got ∧ (p.g k).net.hold = (g2.flitsIn site (taken r)).net.hold ∧ p.mem = s.pack.mem)) ∧
    (let bad := fusedMask k site e ||| (x.bad &&& failed)
     let may : Prop := x.state = 3 ∧ x.autoret = true ∧ x.tried ≠ g.sealed + 1 ∧ logLanes h ≤ (goodLanes h x.bad).length ∧ x.ck &&& allClocks h = allClocks h
     (¬ may → Leaves (.d2dRetrain k site e (failed, ok)) s (fun p => (∀ j, p.g j = s.pack.g j) ∧ p.mem = s.pack.mem)) ∧
     (may → Leaves (.d2dRetrain k site e (failed, ok)) s (fun p =>
        (x' p).tried = g.sealed + 1 ∧
        (if ok = true ∧ logLanes h ≤ (goodLanes h bad).length then
          (x' p).state = 2 ∧ (x' p).half = false ∧ (x' p).bad = bad ∧ (x' p).next = 0 ∧
          (y' p).retry = [] ∧ (y' p).sn = 0 ∧ (y' p).todo = regroup 32 (untaken x.next y.retry ++ y.todo)
        else (x' p).state = 3 ∧ (x' p).bad = x.bad ∧ (p.g k).edge s' f = y) ∧ p.mem = s.pack.mem)))) ∧
  (∀ (g : Pkg) (t f : Nat) (r : SentFrm),
    let y := g.edge t f
    (∀ b, y.back = some b → y.retry.find? (fun q => q.n == b) = some r →
      (g.sendFrame t f).map (·.1) = some r ∧ (g.sendPacket t f).map (·.1) = some r) ∧
    (y.back = none → y.todo = [] → y.retry.length < 256 → ∃ r g2, g.sendFrame t f = some (r, g2) ∧ r.n = y.sn ∧
      r.flits = (g.pick t (.edge f) 32 (fun _ _ => true)).1 ∧ (g2.edge t f).retry = y.retry ++ [r] ∧ (g2.edge t f).sn = (y.sn + 1) % 4096) ∧
    (y.back = none → 256 ≤ y.retry.length → g.sendFrame t f = none) ∧
    (y.back = none → y.credits = 0 ∨ 1024 ≤ y.retry.length → g.sendPacket t f = none)) ∧
  (∀ (g : Pkg) (site : Nat) (fl : Flit),
    (g.way site fl ≠ .here → (g.flitsIn site [fl]).net.hold = g.net.hold ++ [(site, fl)] ∧ (g.flitsIn site [fl]).net.got = []) ∧
    (g.way site fl = .here → g.net.reord = [] →
      let n := mget 0 g.net.rx (flitKey fl)
      (fl.num = n → (g.flitsIn site [fl]).net.got = [fl] ∧ mget 0 (g.flitsIn site [fl]).net.rx (flitKey fl) = n + 1) ∧
      (fl.num < n → (g.flitsIn site [fl]).net.got = [] ∧ (g.flitsIn site [fl]).net.rx = g.net.rx) ∧
      (n < fl.num → (g.flitsIn site [fl]).net.got = [] ∧ (g.flitsIn site [fl]).net.reord = [fl])))

/-- Loss on the network of dies (R252, R268, R275 to R278): a silent bundle takes its edge down at both ends, logged, and what was not acknowledged goes back into the network; a lost clock and a write of EBAD mark lanes bad; a silent governor, and a die that no way leads to, make the die a hole, started or not: its threads stop, its edges go off, a revert is asked for. The hub then sends every live die a newer table, each hop of which leads one crossing nearer; a die takes a table that is not older than its own. -/
def Obligations.LostDiesAndRoutes : Prop :=
  ∀ (s : State) (k site e s' f grp n d : Nat) (m : Master) (v : W32),
    let g := s.pack.g k
    let x := g.edge site e
    let h := hubEnd site e
    let left (z : Edge) : List Flit := ((z.retry ++ z.todo).filter (fun r => !r.bad)).flatMap (·.flits)
    g.hubUp = true →
    (facing site e = some (s', f) →
      (x.up = true → Leaves (.d2dBundleTimeout k site e) s (fun p =>
        ((p.g k).edge site e).state = 4 ∧ ((p.g k).edge s' f).state = 4 ∧ ((p.g k).edge site e).retry = [] ∧ ((p.g k).edge s' f).retry = [] ∧
        (p.g k).net.hold = g.net.hold ++ (left x).map (fun q => (site, q)) ++ (left (g.edge s' f)).map (fun q => (s', q)) ∧
        (p.g k).logSeq = g.logSeq + 1 ∧
        p.mem = s.pack.mem)) ∧
      (x.up = true → x.ck.testBit grp = true → Leaves (.d2dClockLoss k site e grp) s (fun p =>
        ((p.g k).edge site e).ck = x.ck - 2 ^ grp ∧
        (∀ i, i < physLanes h → laneGroup h i = grp → ((p.g k).edge site e).bad.testBit i = true) ∧ p.mem = s.pack.mem))) ∧
    (site < 48 → e < 4 → n < 9 → Writable s.pack k m site (0x1000 + 0x40 * e + 0xC + 4 * n) .d2d (0x40 * e + 0xC + 4 * n) →
      Leaves (.d2dEbadWrite k m site e n v) s (fun p =>
        (∀ i, i < 32 → 32 * n + i < 272 → v.toNat.testBit i = true → ((p.g k).edge site e).bad.testBit (32 * n + i) = true) ∧
        (∀ i, i < 272 → ((p.g k).edge site e).bad.testBit i = true → x.bad.testBit i = true ∨ (i / 32 = n ∧ v.toNat.testBit (i % 32) = true)) ∧
        p.mem = s.pack.mem)) ∧
    (site < 48 → g.siteSt site = .active →
      (∀ i, i < 32 → portSites.getD (i / 4) 99 = site → g.portState i = 0 ∨ g.portState i = 4) →
      Leaves (.governorSilence k site) s (fun p =>
        (p.g k).siteSt site = .failed ∧ mget false (p.g k).started site = false ∧ (p.g k).pr.bad = true ∧
        Msg.revertReq g.pos 0x020E ∈ (p.g k).sent ∧
        (∀ key, key / 1024 = site → (mget ({} : Thread) (p.g k).thr key).st = .idle) ∧
        (∀ i, i < 5 → facing site i ≠ none → ((p.g k).edge site i).state = 0) ∧ p.mem = s.pack.mem)) ∧
    (g.siteSt site ≠ .active → Gives (.governorSilence k site) s s.pack) ∧
    ((∀ i, i < 48 → g.dieLive i = true → g.reached i = true) →
      Leaves (.routingCompute k) s (fun p =>
        (p.g k).net.ver = (g.net.ver + 1) % 65536 ∧
        (p.g k).net.sent = ((List.range 48).filter (fun i => g.dieLive i)).map (fun i =>
          (i, (g.net.ver + 1) % 65536, (List.range 64).map (fun j => g.rtEntry ((List.range 48).map g.distFrom) i j))) ∧
        (p.g k).sites = g.sites ∧ p.mem = s.pack.mem)) ∧
    (∀ q c, g.hop (g.distFrom d) site d = some (q, c + 1) →
      ∃ t, (q, t) ∈ g.nbrs site ∧ distOf (g.distFrom d) t = some c ∧ distOf (g.distFrom d) site = some (c + 1)) ∧
    (∀ ver t, g.net.sent.find? (fun x => x.1 == site) = some (site, ver, t) → g.dieLive site = true →
      ((ver + 65536 - mget 0 g.net.tver site) % 65536 < 32768 → t.length = 64 → Leaves (.routingTable k site) s (fun p =>
        mget 0 (p.g k).net.tver site = ver ∧ (∀ i, i < 64 → mget 7 (p.g k).net.tab (site * 64 + i) = t.getD i 0) ∧
        (∀ q, q / 64 ≠ site → mget 7 (p.g k).net.tab q = mget 7 g.net.tab q) ∧ p.mem = s.pack.mem)) ∧
      (32768 ≤ (ver + 65536 - mget 0 g.net.tver site) % 65536 → Leaves (.routingTable k site) s (fun p =>
        (p.g k).net.tver = g.net.tver ∧ (p.g k).net.tab = g.net.tab ∧ p.mem = s.pack.mem)))

/-- Budget among governors and hub (R280, R281, R398 to R401): a period measures USE, throttles a die above CAP and sends its status to whom no other message has gone; a die that reports a level other than its fused one is declared failed; a recalled governor offers the hub what lies above MINCAP and holds that much less; a die takes an OFFER exactly when it has no offer of its own open, little slack and room below MAXCAP, and refuses it otherwise; ACCEPT closes the giver's offer, REFUSE gives the budget back; the hub's period brings the grant up to the allowance, never beyond, and tells every die. -/
def Obligations.Governors : Prop :=
  ∀ (s : State) (k site use level i nondie : Nat) (m : GovMsg) (r : List GovMsg),
    let g := s.pack.g k
    let x := g.gov site
    let cap := g.gCap site
    let u := use % 65536
    let back := min x.rcl (cap - g.minCap site)
    let reports (p : Pack) (kind src dst : Nat) (q : GovMsg → Prop) : Prop :=
      ∃ z ∈ (p.g k).pw.msgs, z.kind = kind ∧ z.src = src ∧ z.dst = dst ∧ q z
    let fits : Prop := (g.gov m.dst).offer = none ∧ g.gCap m.dst ≤ g.gUse m.dst + 8 ∧ g.gCap m.dst + m.amt ≤ g.maxCap m.dst
    let dd := 4 * (g.rf (rPwr 4) 15 0 * 908 / 1000 - nondie % 65536 - g.rf (rPwr 0x14) 31 16)
    g.hubUp = true →
    (g.dieLive site = true → Leaves (.govPeriod k site (use, level)) s (fun p =>
      (p.g k).gUse site = u ∧ (cap < u → 1 ≤ ((p.g k).gov site).capStep) ∧ ((p.g k).gov site).told = [] ∧ p.mem = s.pack.mem ∧
      (x.offer = none → x.rcl = 0 → cap ≤ u + 16 → (p.g k).gCap site = cap ∧ ((p.g k).gov site).below = 0 ∧
        (62 ∉ x.told → reports p 0x20 site 62 (fun z => z.use = u ∧ z.cap = cap ∧ z.level = level))) ∧
      (x.offer = none → 0 < x.rcl → (p.g k).gCap site = cap - back ∧ ((p.g k).gov site).offer = some (62, x.seq, back) ∧
        ((p.g k).gov site).rcl = 0 ∧ reports p 0x21 site 62 (fun z => z.amt = back ∧ z.seq = x.seq ∧ z.level = level)))) ∧
    (takeAt g.pw.msgs i = some (m, r) → m.dst ≠ site → Gives (.governorMessage k site i) s s.pack) ∧
    (takeAt g.pw.msgs i = some (m, r) → badLevel k m = false →
      (m.kind = 0x21 → m.dst ≠ 62 → g.dieLive m.dst = true →
        (fits → Leaves (.offer k i) s (fun p => (p.g k).gCap m.dst = g.gCap m.dst + m.amt ∧
          reports p 0x22 m.dst m.src (fun z => z.amt = m.amt ∧ z.ref = m.seq) ∧ p.mem = s.pack.mem)) ∧
        (¬ fits → Leaves (.offer k i) s (fun p => (p.g k).gCap m.dst = g.gCap m.dst ∧
          reports p 0x23 m.dst m.src (fun z => z.amt = m.amt ∧ z.ref = m.seq) ∧ p.mem = s.pack.mem))) ∧
      (m.kind = 0x21 → m.dst = 62 → g.grant + m.amt ≤ g.allowance → Leaves (.offer k i) s (fun p =>
        (p.g k).pw.pool = g.pw.pool + m.amt ∧ reports p 0x22 62 m.src (fun z => z.amt = m.amt ∧ z.ref = m.seq) ∧ p.mem = s.pack.mem)) ∧
      (∀ amt, m.dst ≠ 62 → (g.gov m.dst).offer = some (m.src, m.ref, amt) → g.gCap m.dst + amt < 65536 →
        (m.kind = 0x22 → Leaves (.accept k i) s (fun p => ((p.g k).gov m.dst).offer = none ∧ (p.g k).gCap m.dst = g.gCap m.dst ∧
          (p.g k).pw.msgs = r ∧ p.mem = s.pack.mem)) ∧
        (m.kind = 0x23 → Leaves (.refuse k i) s (fun p => ((p.g k).gov m.dst).offer = none ∧ (p.g k).gCap m.dst = g.gCap m.dst + amt ∧
          (p.g k).pw.msgs = r ∧ p.mem = s.pack.mem))) ∧
      (m.kind = 0x20 → m.src = 62 → g.dieLive m.dst = true →
        (0 < m.amt → Leaves (.hubStatusMessage k i) s (fun p => ((p.g k).gov m.dst).rcl = m.amt ∧ (p.g k).pw.msgs = r ∧ p.mem = s.pack.mem)) ∧
        (m.amt = 0 → 0 < m.pool → (g.gov m.dst).offer = none → g.gCap m.dst ≤ g.gUse m.dst + 8 → g.gCap m.dst + m.pool ≤ g.maxCap m.dst →
          Leaves (.hubStatusMessage k i) s (fun p => (p.g k).gCap m.dst = g.gCap m.dst + m.pool ∧
            reports p 0x22 m.dst 62 (fun z => z.amt = m.pool ∧ z.ref = m.seq) ∧ p.mem = s.pack.mem))) ∧
      (m.kind = 0x20 → m.src < 48 → m.dst = 62 →
        Leaves (.governorMessage k m.dst i) s (fun p =>
          mget (0, 0) (p.g k).pw.known m.src = (m.use, m.cap) ∧ (p.g k).pw.msgs = r ∧ (p.g k).sites = g.sites ∧ p.mem = s.pack.mem))) ∧
    (∀ c, takeAt g.pw.msgs i = some (m, r) → badLevel k m = true → g.siteSt m.src = .active → m.src < 48 → m.src ∉ portSites →
      (m.kind, c) ∈ [(0x20, Instr.governorMessage k m.dst i), (0x21, .offer k i), (0x22, .accept k i), (0x23, .refuse k i)] →
      Leaves c s (fun p => (p.g k).siteSt m.src = .failed ∧ p.mem = s.pack.mem)) ∧
    Leaves (.hubBudgetPeriod k nondie) s (fun p =>
      (p.g k).rf (rPwr 0x10) 31 16 = nondie % 65536 ∧ (p.g k).grant = max g.grant dd ∧
      (∀ d, d < 48 → g.dieLive d = true → (p.g k).gCap d = g.gCap d ∧ reports p 0x20 62 d (fun _ => True)) ∧ p.mem = s.pack.mem)

/-- The package's limit, heat and clocks (R379, R388, R392, R398, R402 to R404): PLIM, by a posted write, takes 2,000 to 6,500 and refuses any other; a sample above the input limits throttles every die to at least step 12 until 20 samples below PLIM have passed; a junction sample at the trip point fires the wire, of a die or hub whose logic does not run too (R404), and a trip leaves the package in S3 with TRIP and TRIPSITE set and everything it stored gone; the throttle step for heat rises by one at or above TTHROT and falls by one 3 °C below; an idle region's array clock stops; a PLL that loses lock fails its die. -/
def Obligations.PowerAndHeat : Prop :=
  ∀ (s : State) (k site r amps pin tj : Nat) (m : Master) (v : W32) (l : List Nat),
    let g := s.pack.g k
    let x := g.gov site
    let lim := v.toNat % 65536
    let limit : Post := { key := rPwr 0, site := 62, off := 0x14004, v := v, x := {} }
    let hot : Prop := 541 < amps ∨ 21 * g.emergLimit < 20 * (pin % 65536)
    let t := g.rf (rGov site 8) 9 0
    let th := g.rf (rGov site 8) 31 22
    let heat := if th ≤ t then min 15 (max x.capStep x.heat + 1)
      else if t + 12 < th then (if x.heat ≤ x.capStep + 1 then 0 else x.heat - 1) else x.heat
    (Writable s.pack k m 62 0x14004 .pwr 4 → Gives (.pwrLimitWrite k m v) s (s.pack.posted k limit)) ∧
    (2000 ≤ lim → lim ≤ 6500 → Lands s k limit (fun p => (p.g k).rf (rPwr 4) 15 0 = lim ∧ p.mem = s.pack.mem)) ∧
    (lim < 2000 ∨ 6500 < lim → Lands s k limit (fun p =>
      (p.g k).rb (rPwr 0) 30 = true ∧ (p.g k).rd (rPwr 4) = g.rd (rPwr 4) ∧ p.mem = s.pack.mem)) ∧
    (g.hk.trips = site :: l → Leaves (.thermalTrip k) s (fun p =>
      (p.g k).hk.state = 0 ∧ (p.g k).hk.therm = true ∧ (p.g k).hk.trips = l ∧ (p.g k).rb (rPwr 0xC) 28 = true ∧
      (p.g k).rf (rPwr 0xC) 27 22 = site % 64 ∧ (p.g k).hubUp = false ∧
      (∀ a, a / 2 ^ 58 = k → memRd p.mem a = memInit) ∧ (∀ a, a / 2 ^ 58 ≠ k → memRd p.mem a = memRd s.pack.mem a))) ∧
    (g.hubUp = false ∨ g.dieLive site = false → Gives (.junctionSample k site tj) s (s.pack.on k (fun g =>
      if g.hk.vaon = true ∧ g.hk.state = 2 ∧ site < 48 ∧ g.siteSt site ≠ .off ∧ tripOf k site ≤ tj % 1024 then g.trip site else g))) ∧
    (g.hubUp = true →
      (hot → Leaves (.inputSample k amps pin) s (fun p =>
        (p.g k).rf (rPwr 0x10) 15 0 = pin % 65536 ∧ (p.g k).rb (rPwr 0xC) 20 = true ∧
        (∀ d, d < 48 → g.dieLive d = true → 12 ≤ (p.g k).rf (rGov d 0xC) 31 28 ∨ 16 ≤ max (g.gov d).capStep (g.gov d).heat) ∧ p.mem = s.pack.mem)) ∧
      (¬ hot → Leaves (.inputSample k amps pin) s (fun p =>
        (p.g k).rf (rPwr 0x10) 15 0 = pin % 65536 ∧ (p.g k).rd (rPwr 0xC) = g.rd (rPwr 0xC) ∧
        (p.g k).pw.calm = (if pin % 65536 < g.rf (rPwr 4) 15 0 then g.pw.calm + 1 else 0) ∧ p.mem = s.pack.mem)) ∧
      (g.rb (rPwr 0xC) 20 = true → 20 ≤ g.pw.calm → Leaves (.emergencyEnd k) s (fun p => (p.g k).rb (rPwr 0xC) 20 = false ∧ p.mem = s.pack.mem)) ∧
      (g.pw.calm < 20 → Leaves (.emergencyEnd k) s (fun p => (∀ j, p.g j = s.pack.g j) ∧ p.mem = s.pack.mem)) ∧
      (g.dieLive site = true → Leaves (.junctionSample k site tj) s (fun p =>
        (p.g k).rf (rGov site 8) 9 0 = tj % 1024 ∧
        (p.g k).hk.trips = (if tripOf k site ≤ tj % 1024 then g.hk.trips ++ [site] else g.hk.trips) ∧ p.mem = s.pack.mem)) ∧
      (g.dieLive site = true → Leaves (.thermalThrottleStep k site) s (fun p =>
        ((p.g k).gov site).heat = heat ∧ ((p.g k).gov site).capStep = x.capStep ∧
        (p.g k).rf (rGov site 0xC) 31 28 = max (max x.capStep heat) (if g.rb (rPwr 0xC) 20 = true then 12 else 0) % 16 ∧ p.mem = s.pack.mem)) ∧
      (g.rf (rGov site 0xC) 15 0 ≠ 0 → g.regionActive site r = false → Gives (.arrayClockIdleStop k site r) s
        (s.pack.on k (fun g => { g with arun := mins g.arun (site * 4 + r) false }))) ∧
      (g.hk.ref = true → site < 48 → g.siteSt site = .active →
        (∀ i, i < 32 → portSites.getD (i / 4) 99 = site → g.portState i = 0 ∨ g.portState i = 4) →
        Leaves (.pllLockLoss k site) s (fun p => (p.g k).siteSt site = .failed ∧ mget false (p.g k).started site = false ∧ p.mem = s.pack.mem)) ∧
      (g.hk.ref = false → Gives (.pllLockLoss k site) s s.pack))

/-- Pack ports (R282 to R293, R301, R304, R320): the package at the other end of the cable builds what is received, from its own state. Its valid beat renews what the port knows of it, a DOWN beat takes the port DOWN, one of another epoch or from a FENCED port fences it; a partner that sends none lets windows pass, the eighth of which takes the port DOWN. The sender's frame is one again after a NAK, else a new one whose flits each have a credit; a frame in turn is taken and its flits go on in the next hop class, one whose code or CRC fails sets a NAK, one of another epoch is counted and fences the port; a control codeword frees what it acknowledges and returns the credits that are owed. A trained port is FENCED and comes UP once both ends may, and a partner that is not driven lets no training complete; ISOLATE, by a posted write, and a silent hub take ports DOWN; the audit marker is received behind what was sent before it, and one that does not match sets MISMATCH. -/
def Obligations.PackPorts : Prop :=
  (∀ (s : State) (k n j m' slot pol : Nat) (m : Master) (v : W32) (rev : Bool) (errs : List (Nat × Nat × Nat)),
    let g := s.pack.g k
    let h := s.pack.g j
    let x := g.link n
    let y := h.link m'
    let site := portSites.getD (n / 4) 0
    let miss := g.rf (rPort n 0x18) 3 0 + 1
    let twin : Prop := g.assigned = true ∧ h.assigned = true ∧ h.pos = g.pos
    let meets : Prop := x.peer = some (j, m') ∧ j ≠ k ∧ m' < 32 ∧ g.portLive n = true
    let both : Prop := meets ∧ g.portState n = 2 ∧ h.portState m' = 2 ∧ h.portLive m' = true ∧ h.hk.failed = false
    let data : Prop := slot ≠ 0 ∧ slot ≠ 1 ∧ slot ≠ 65 ∧ slot < 128
    let stale (p : Pack) : Prop := (p.g k).portState n = 3 ∧ (p.g k).rf rPackStat 31 16 = min 65535 (g.rf rPackStat 31 16 + 1) ∧ p.mem = s.pack.mem
    g.hubUp = true → n < 32 →
    (x.peer ≠ some (j, m') → Gives (.packBeat k n j m' errs) s s.pack ∧ Gives (.auditMarker k (.port n) j (.port m')) s s.pack) ∧
    (x.peer = none → Gives (.packControlCodeword k n slot errs) s s.pack) ∧
    (meets → h.beats m' = false → Gives (.packBeat k n j m' errs) s s.pack) ∧
    (meets → h.beats m' = true → h.portState m' ≠ 4 → g.portState n = 2 → ¬ twin → ¬ (g.leads = true ∧ h.leads = true) →
      (h.epoch = g.epoch → h.portState m' ≠ 3 → Leaves (.packBeat k n j m' []) s (fun p =>
        (p.g k).portState n = 2 ∧ (p.g k).rb (rPort n 4) 31 = true ∧ (p.g k).rb (rPort n 4) 30 = h.assigned ∧
        (p.g k).rf (rPort n 4) 23 19 = m' ∧ (p.g k).rf (rPort n 4) 18 13 = h.pos ∧ (p.g k).rd64 (rPort n 8) (rPort n 0xC) = serialOf j ∧
        (p.g k).rf (rPort n 0x18) 3 0 = 0 ∧ ((p.g k).link n).beat = (h.beatSlot j m').take 28 ∧
        ((p.g j).link m').bseq = (y.bseq + 1) % 2 ^ 32 ∧ p.mem = s.pack.mem)) ∧
      (h.epoch ≠ g.epoch ∨ h.portState m' = 3 → Leaves (.packBeat k n j m' []) s (fun p =>
        (p.g k).portState n = 3 ∧ ((p.g k).link n).retry = [] ∧ ((p.g k).link n).credits = [] ∧ p.mem = s.pack.mem))) ∧
    (meets → h.beats m' = true → h.portState m' = 4 → 1 ≤ g.portState n ∧ g.portState n ≤ 3 → Leaves (.packBeat k n j m' []) s (fun p =>
      (p.g k).portState n = 4 ∧ ((p.g j).link m').dwn = y.dwn - 1)) ∧
    (g.portState n = 2 ∨ g.portState n = 3 →
      (miss < 8 → Leaves (.beatWindowExpiry k n) s (fun p =>
        (p.g k).rf (rPort n 0x18) 3 0 = miss ∧ (p.g k).portState n = g.portState n ∧ p.mem = s.pack.mem)) ∧
      (8 ≤ miss → Leaves (.beatWindowExpiry k n) s (fun p => (p.g k).portState n = 4))) ∧
    (∀ r h2, both → data → h.sendData m' = (some r, h2) → r.bad = false → r.flits.length ≤ 25 →
      (h.epoch = g.epoch → r.n % 65536 = x.next → Leaves (.packDataFrame k n slot [] ([], .ok, .ok)) s (fun p =>
        ((p.g k).link n).next = (x.next + 1) % 65536 ∧ ((p.g k).link n).seen = true ∧ ((p.g k).link n).nak = false ∧ (p.g k).portState n = 2 ∧
        ((p.g j).link m').retry = (h2.link m').retry ∧ ((p.g j).link m').sn = (h2.link m').sn ∧
        ((∀ f ∈ r.flits, f.dp = g.pos ∨ f.hop < 7) →
          let fs := r.flits.map (fun f => { f with body := f.body % 2 ^ 256, hop := f.hop + 1 })
          (p.g k).net.got = (g.flitsIn site fs).net.got ∧ (p.g k).net.hold = (g.flitsIn site fs).net.hold) ∧ p.mem = s.pack.mem)) ∧
      (h.epoch ≠ g.epoch → Leaves (.packDataFrame k n slot [] ([], .ok, .ok)) s stale) ∧
      (slotRead (dataSlot r h.epoch) (symErrs x.rev errs) = none → Leaves (.packDataFrame k n slot [] (errs, .ok, .ok)) s (fun p =>
        ((p.g k).link n).nak = true ∧ ((p.g k).link n).next = x.next ∧
        (p.g k).rf (rPort n 0x10) 31 16 = min 65535 (g.rf (rPort n 0x10) 31 16 + 1) ∧ p.mem = s.pack.mem))) ∧
    (both → slot = 1 ∨ slot = 65 →
      (h.epoch = g.epoch → Leaves (.packControlCodeword k n slot []) s (fun p =>
        let left := if y.seen then x.retry.filter (fun q => !seqLe 65536 q.n ((y.next + 65535) % 65536)) else x.retry
        let due (c : Nat) := mget 0 (y.tot.due 65535) c
        ((p.g k).link n).retry = left ∧ (y.nak = true → ((p.g k).link n).back = (left.head?).map (·.n)) ∧
        (∀ c, c < 32 → mget 0 ((p.g k).link n).credits c = if 0 < due c then min 2048 (mget 0 x.credits c + due c) else mget 0 x.credits c) ∧
        (p.g k).portState n = 2 ∧ p.mem = s.pack.mem)) ∧
      (h.epoch ≠ g.epoch → Leaves (.packControlCodeword k n slot []) s stale)) ∧
    (j ≠ k → m' < 32 → g.portLive n = true → g.portState n = 1 ∨ g.portState n = 4 → g.rb (rPort n 0) 27 = false → x.dwn = 0 →
      (h.portLive m' = true → h.portState m' ≠ 0 → h.rb (rPort m' 0) 27 = false → y.dwn = 0 →
        (g.mode ≠ 0 ∨ h.mode ≠ 0 → Leaves (.portTrain k n ((j, m'), rev, pol)) s (fun p =>
          (p.g k).portState n = 3 ∧ ((p.g k).link n).peer = some (j, m') ∧ ((p.g k).link n).rev = rev ∧ ((p.g k).link n).pol = pol % 16 ∧ p.mem = s.pack.mem)) ∧
        (g.mode = 0 → h.mode = 0 → h.portState m' = 3 → g.linkable = true → h.linkable = true → g.epoch = h.epoch →
          g.mem.testBit h.pos = true → h.mem.testBit g.pos = true → Leaves (.portTrain k n ((j, m'), rev, pol)) s (fun p =>
            (p.g k).portState n = 2 ∧ (p.g j).portState m' = 2 ∧ ((p.g k).link n).next = 0 ∧
            (∀ c, c < 32 → mget 0 ((p.g k).link n).credits c = 2048) ∧ p.mem = s.pack.mem))) ∧
      (h.portLive m' = false ∨ 0 < y.dwn → Gives (.portTrain k n ((j, m'), rev, pol)) s s.pack)) ∧
    (let w : Post := { key := rk site (0x3000 + 0x40 * (n % 4)), site := site, off := 0x3000 + 0x40 * (n % 4), v := setB v 27 true, x := {} };
     (Writable s.pack k m site (0x3000 + 0x40 * (n % 4)) .port (0x40 * (n % 4)) → Gives (.portIsolate k m n v) s (s.pack.posted k w)) ∧
     Lands s k w (fun p => (p.g k).rb (rPort n 0) 27 = true ∧
       (p.g k).portState n = (if 1 ≤ g.portState n ∧ g.portState n ≤ 3 then 4 else g.portState n))) ∧
    (g.hole site = false → Leaves (.serdesHubSilence k site) s (fun p =>
      (∀ i, i < 32 → (p.g k).portState i = if i / 4 = n / 4 ∧ (g.portState i = 2 ∨ g.portState i = 3) then 4 else g.portState i) ∧
      (g.portState n = 2 ∨ g.portState n = 3 → ((p.g k).link n).dwn = 16) ∧ p.mem = s.pack.mem)) ∧
    (meets → g.portState n = 2 →
      (y.tot.mark = true → allTaken 65536 x.next y.retry = true →
        (x.tot.audit y.tot = false → Leaves (.auditMarker k (.port n) j (.port m')) s (fun p =>
          (p.g k).rb (rLedger 0) 31 = true ∧ (p.g k).rb (rLedger 0) 7 = true ∧ (p.g k).logSeq = g.logSeq + 1 ∧
          ((p.g j).link m').tot.mark = false ∧ p.mem = s.pack.mem)) ∧
        (x.tot.audit y.tot = true → Leaves (.auditMarker k (.port n) j (.port m')) s (fun p =>
          (p.g k).regs = g.regs ∧ (p.g k).logSeq = g.logSeq ∧ ((p.g j).link m').tot.mark = false ∧ p.mem = s.pack.mem))) ∧
      (y.tot.mark = false ∨ allTaken 65536 x.next y.retry = false → Gives (.auditMarker k (.port n) j (.port m')) s s.pack))) ∧
  (∀ (h : Pkg) (n : Nat) (r : SentFrm) (h2 : Pkg),
    let y := h.link n
    (∀ b, y.back = some b → y.retry.find? (fun q => q.n == b) = some r → (h.sendData n).1 = some r ∧
      (h.sendData n).2.rf (rPort n 0x14) 31 16 = min 65535 (h.rf (rPort n 0x14) 31 16 + 1)) ∧
    (y.back = none → 512 ≤ y.retry.length → h.sendData n = (none, h)) ∧
    (y.back = none → h.sendData n = (some r, h2) → r.n = y.sn ∧ 0 < r.flits.length ∧ r.flits.length ≤ 25 ∧
      (h2.link n).retry = y.retry ++ [r] ∧ (h2.link n).sn = (y.sn + 1) % 65536 ∧
      (∀ c, let k := (r.flits.filter (fun f => flitCls f == c)).length
        k ≤ mget 0 y.credits c ∧ mget 0 (h2.link n).credits c = mget 0 y.credits c - k)))

/-- The pack (R294 to R304): routes, positions, membership, succession. PMAP takes a mask and a hop count; REQ at the leader sends ASSIGN, which a package without a position takes at its port to that pack if the serial is its own and the position is free there; MEMNEXT at the leader waits for the next seal, but in HELD and while every member is OFF; MEMBER of the next epoch, or the first that a package takes, is applied and acknowledged, one of another is counted in STALE, and it leaves a package it does not name a pack of one; PORT_DOWN lowers LINKS and goes on to every member; a position whose failure is declared is held lost, and the leader then reverts with a sufficient part, anew where it is reverting, and halts without; a claim is accepted once every lower member is lost, and at another leader it is a conflict; without one the survivors halt. -/
def Obligations.PackMembership : Prop :=
  ∀ (s : State) (k p serial n j m' a b c d : Nat) (hops hi : Bool) (m : Master) (v : W32) (msg : MemberMsg),
    let g := s.pack.g k
    let h := s.pack.g j
    let next : Prop := msg.epoch = (g.epoch + 1) % 65536 ∨ (g.epoch = 0 ∧ g.mem = 0)
    let stopped : Prop := g.phase = 4 ∧ g.cause = 0xA
    let g1 : Pkg := { g with pr := { g.pr with gone := g.pr.gone ||| 2 ^ p } }
    let halted (q : Pack) : Prop := (q.g k).phase = 4 ∧ (q.g k).cause = 0xA ∧ (q.g k).rb rPackStat 4 = true ∧ q.mem = s.pack.mem
    (p < 64 → Writable s.pack k m 62 (0x7100 + 8 * p + 4 * b2n hops) .pack (0x100 + 8 * p + 4 * b2n hops) →
      Leaves (.packPmapWrite k m p hops v) s (fun q =>
        ((q.g k).rd (hubR (0x7100 + 8 * p + 4 * b2n hops))).toNat = (if hops then v.toNat % 16 else v.toNat) ∧ q.mem = s.pack.mem)) ∧
    (Writable s.pack k m 62 0x7018 .pack 0x18 → Leaves (.packAssignReq k m v) s (fun q =>
      (q.g k).sent = (if g.leads then [.assign (g.rf (hubR 0x7020) 5 0) (g.rd64 (hubR 0x7024) (hubR 0x7028)) (g.rf (hubR 0x7020) 24 19) (g.rf (hubR 0x7020) 18 14)] else []) ++ g.sent ∧ q.mem = s.pack.mem)) ∧
    (Writable s.pack k m 62 (0x7010 + 4 * b2n hi) .pack (0x10 + 4 * b2n hi) →
      (hi = false ∨ (g.phase ≠ 3 ∧ ∃ j ∈ s.pack.members k, (s.pack.g j).mode ≠ 0) → Leaves (.packMemnextWrite k m hi v) s (fun q =>
        (q.g k).rd (hubR (0x7010 + 4 * b2n hi)) = v ∧ (q.g k).pr.memPend = (g.leads || g.pr.memPend) ∧ (q.g k).sent = g.sent ∧ q.mem = s.pack.mem)) ∧
      (hi = true → g.leads = true → g.phase = 3 ∨ (∀ j ∈ s.pack.members k, (s.pack.g j).mode = 0) → Leaves (.packMemnextWrite k m hi v) s (fun q =>
        (q.g k).pr.memPend = false ∧ q.mem = s.pack.mem ∧ ∃ z : MemberMsg, (q.g k).sent = .member z :: g.sent ∧
          z.epoch = (g.epoch + 1) % 65536 ∧ z.mem = (g.rd (hubR 0x7010)).toNat + v.toNat * 2 ^ 32))) ∧
    (g.hubUp = true →
      ((g.link n).peer = some (j, m') → h.assigned = true →
        (∃ l ∈ s.pack.pkgs, l.2.leads = true ∧ l.2.mem = h.mem ∧ .assign p serial h.pos m' ∈ l.2.sent) →
        g.portState n = 2 ∨ g.portState n = 3 → h.portState m' = 2 ∨ h.portState m' = 3 → g.assigned = false → serial = serialOf k →
        h.mem.testBit p = false → p < 64 →
        Leaves (.assign k n (p, serial)) s (fun q => (q.g k).assigned = true ∧ (q.g k).pos = p ∧ (q.g k).leads = g.leads ∧ q.mem = s.pack.mem)) ∧
      (g.assigned = true ∨ serial ≠ serialOf k ∨ (g.link n).peer = none →
        Leaves (.assign k n (p, serial)) s (fun q => (∀ j, q.g j = s.pack.g j) ∧ q.mem = s.pack.mem)) ∧
      (g.assigned = true → next → ¬ stopped → g.mode ≠ 0 →
        (msg.mem.testBit g.pos = true → Leaves (.member k msg) s (fun q =>
          (q.g k).mem = msg.mem % 2 ^ 64 ∧ (q.g k).epoch = msg.epoch % 65536 ∧ (g.pr.gone = 0 → (q.g k).pr.gone = 0) ∧ (q.g k).sent = .memberAck g.pos msg.epoch :: g.sent ∧
          (∀ n, n < 32 → g.portState n = 2 → g.rb (rPort n 4) 31 = true →
            (q.g k).portState n = if g.rb (rPort n 4) 30 = true ∧ msg.mem.testBit (g.rf (rPort n 4) 18 13) = true then 2 else 3) ∧ q.mem = s.pack.mem)) ∧
        (msg.mem.testBit g.pos = false → g.mem ≠ 0 → Leaves (.member k msg) s (fun q =>
          (q.g k).mem = 1 ∧ (q.g k).epoch = 1 ∧ (q.g k).pos = 0 ∧ (q.g k).leads = true ∧ (q.g k).sent = .memberAck g.pos msg.epoch :: g.sent ∧
          q.mem = s.pack.mem))) ∧
      (g.assigned = true → ¬ next → ¬ stopped → g.mode ≠ 0 → Leaves (.member k msg) s (fun q =>
        (q.g k).rf rPackStat 31 16 = min 65535 (g.rf rPackStat 31 16 + 1) ∧ (q.g k).mem = g.mem ∧ (q.g k).epoch = g.epoch ∧ (q.g k).sent = g.sent ∧
        q.mem = s.pack.mem)) ∧
      (g.assigned = false ∨ stopped → g.mode ≠ 0 → Leaves (.member k msg) s (fun q => (∀ j, q.g j = s.pack.g j) ∧ q.mem = s.pack.mem)) ∧
      ((∃ z ∈ g.pr.downs, z = ((a, b), (c, d)) ∨ z = ((c, d), (a, b))) → Gives (.portDown k a b c d) s s.pack) ∧
      (g.assigned = true → (∀ z ∈ g.pr.downs, z ≠ ((a, b), (c, d)) ∧ z ≠ ((c, d), (a, b))) → a ≠ c → 1 < mget 0 g.pr.links a → 1 < mget 0 g.pr.links c →
        Leaves (.portDown k a b c d) s (fun q =>
          mget 0 (q.g k).pr.links a = mget 0 g.pr.links a - 1 ∧ mget 0 (q.g k).pr.links c = mget 0 g.pr.links c - 1 ∧
          (q.g k).pr.downs = ((a, b), (c, d)) :: g.pr.downs ∧ (q.g k).sent = .portDown a b c d :: g.sent ∧ (q.g k).pr.gone = g.pr.gone ∧ q.mem = s.pack.mem)) ∧
      (g.assigned = true → g.mem.testBit p = true → p ≠ g.pos → g.pr.gone.testBit p = false → ¬ stopped →
        (g.leads = false → p ≠ g.lpos → g.pr.gone.testBit g.lpos = false → Gives (.pkgFail k p) s
          (s.pack.on k (fun g => { g with pr := { g.pr with gone := g.pr.gone ||| 2 ^ p } }))) ∧
        (g.leads = true → g1.sufficient = true → g.committing = false → g.ld.reverting = [] → g.rlim = 0 → g.autorev = true → ¬ (g.phase = 4 ∧ g.cause = 5) →
          Leaves (.pkgFail k p) s (fun q =>
            (q.g k).pr.gone = g.pr.gone ||| 2 ^ p ∧ (q.g k).sent = .revert g.sealed g.epoch :: g.sent ∧ (q.g k).takeSt = 1 ∧
            (q.g k).ld.reverting = positions (g.mem &&& (2 ^ 64 - 1 - (g.pr.gone ||| 2 ^ p) % 2 ^ 64)) ∧ q.mem = s.pack.mem)) ∧
        (g.leads = true → g1.sufficient = true → g.ld.reverting ≠ [] → Leaves (.pkgFail k p) s (fun q =>
          (q.g k).pr.gone = g.pr.gone ||| 2 ^ p ∧ (∃ upto, (q.g k).sent = .revert upto g.epoch :: g.sent) ∧ (q.g k).ld.reclaiming = [] ∧
          (q.g k).ld.reverting = positions (g.mem &&& (2 ^ 64 - 1 - (g.pr.gone ||| 2 ^ p) % 2 ^ 64)) ∧ q.mem = s.pack.mem)) ∧
        (g.leads = true → g1.sufficient = false → Leaves (.pkgFail k p) s halted)) ∧
      (a ≠ g.epoch → Gives (.leadClaim k p a) s (s.pack.on k Pkg.stale)) ∧
      (g.leads = true → p ≠ g.pos → ¬ stopped → Leaves (.leadClaim k p g.epoch) s (fun q =>
        (q.g k).rb rPackStat 3 = true ∧ (q.g k).lpos = g.lpos ∧ q.mem = s.pack.mem)) ∧
      (g.leads = false ∨ p = g.pos → g.assigned = true → g.mem.testBit p = true → ¬ stopped → p < 64 →
        ((∀ q, q ∈ positions g.mem → q < p → g.pr.gone.testBit q = true) → Leaves (.leadClaim k p g.epoch) s (fun q =>
          (q.g k).lpos = p ∧ (∀ r, r ≠ rPackStat → (q.g k).rd r = g.rd r) ∧ q.mem = s.pack.mem)) ∧
        ((∃ q, q ∈ positions g.mem ∧ q < p ∧ g.pr.gone.testBit q = false) → Leaves (.leadClaim k p g.epoch) s (fun q =>
          (∀ j, q.g j = s.pack.g j) ∧ q.mem = s.pack.mem))) ∧
      (g.assigned = true → g.pr.gone.testBit g.lpos = true → ¬ stopped → Leaves (.partitionTimeout k) s halted) ∧
      (g.pr.gone.testBit g.lpos = false → Leaves (.partitionTimeout k) s (fun q => (∀ j, q.g j = s.pack.g j) ∧ q.mem = s.pack.mem)))

/-- Revert and reclaim (R322, R323, R343 to R346). A request at the leader sends REVERT to the sealed step, or halts the pack once RLIM is reached or AUTOREV is 0; while a seal is committed or applied it waits, and while a revert runs a new failed die starts it again. A member that receives REVERT of its epoch and step discards what is in flight, and either waits for the reclaim or reverts, is HELD and answers; one that still owes the seal's apply waits for it, one of another epoch counts it as stale; the last answer ends the revert. RECLAIM has a member report its credits; a home with every report answers; the leader's last answer runs the waiting reverts. PROT.CTL.REVERT, RESTORE and UNASSIGN are posted, and do what they name when they land, at the leader, at a package that may. -/
def Obligations.RevertsAndReclaims : Prop :=
  ∀ (s : State) (k step epoch p : Nat) (rs : List (Nat × Nat)) (m : Master) (v : W32) (c : Cut) (crc : Bool),
    let g := s.pack.g k
    let stopped : Prop := g.phase = 4 ∧ g.cause = 0xA
    let survivors := positions (g.mem &&& (2 ^ 64 - 1 - g.pr.gone % 2 ^ 64))
    let same (q : Pack) : Prop := (∀ j, q.g j = s.pack.g j) ∧ q.mem = s.pack.mem
    let started (q : Pack) : Prop := (q.g k).takeSt = 1 ∧ (q.g k).revcnt = min 255 (g.revcnt + 1) ∧ (q.g k).ld.reverting = survivors ∧
      (q.g k).sent = .revert g.sealed g.epoch :: g.sent ∧ q.mem = s.pack.mem
    let control := Writable s.pack k m 62 0x40000 .prot 0 ∧ m.priv = true
    let ctl (b : Nat) (x : WrX) : Post := { key := rProt 0, site := 62, off := 0x40000, v := setB v b true, x := x }
    (g.hubUp = true →
      (g.leads = true → ¬ stopped → ¬ (g.phase = 4 ∧ g.cause = 5) →
        (g.committing = true → Gives (.revertRequest k) s (s.pack.on k (fun g => { g with ld := { g.ld with revPend := true } }))) ∧
        (g.committing = false → g.ld.reverting = [] →
          ((g.rlim = 0 ∨ g.revcnt < g.rlim) → g.autorev = true → Leaves (.revertRequest k) s started) ∧
          (g.phase ≠ 4 → g.assigned = true → g.mem.testBit g.pos = true → 0 < g.rlim → g.rlim ≤ g.revcnt →
            Leaves (.revertRequest k) s (fun q => (q.g k).phase = 4 ∧ (q.g k).cause = 7 ∧ q.mem = s.pack.mem)) ∧
          (g.phase ≠ 4 → g.assigned = true → g.mem.testBit g.pos = true → (g.rlim = 0 ∨ g.revcnt < g.rlim) → g.autorev = false →
            Leaves (.revertRequest k) s (fun q => (q.g k).phase = 4 ∧ (q.g k).cause = 6 ∧ q.mem = s.pack.mem))) ∧
        (g.committing = false → g.ld.reverting ≠ [] →
          (g.ld.reclaiming = [] → s.pack.owesReclaim k = true → Leaves (.revertRequest k) s (fun q => (q.g k).ld.reverting = survivors ∧
            (q.g k).revcnt = g.revcnt ∧ (q.g k).sent = .revert (s.pack.sealTop k) g.epoch :: g.sent ∧ q.mem = s.pack.mem)) ∧
          (g.ld.reclaiming ≠ [] ∨ s.pack.owesReclaim k = false → Gives (.revertRequest k) s s.pack))) ∧
      (epoch = g.epoch → step = g.sealed → step ≠ g.step → g.pr.commit = none → g.assigned = true → g.parted = false →
        (g.pr.gone &&& g.mem ≠ 0 ∨ g.rb (rLedger 0) 30 = true ∨ s.pack.owesReclaim k = true → Leaves (.revertMsg k step epoch) s (fun q =>
          (q.g k).pr.rev = 1 ∧ (q.g k).loads = [] ∧ (q.g k).stores = [] ∧ (q.g k).aops = [] ∧ (q.g k).eops = [] ∧ (q.g k).qops = [] ∧
          (∀ i, (mget ({} : Thread) (q.g k).thr i).st = .idle) ∧ (∀ w ∈ q.wire, w.src ≠ k ∧ w.dst ≠ k) ∧ q.mem = s.pack.mem)) ∧
        (g.pr.gone &&& g.mem = 0 → g.rb (rLedger 0) 30 = false → s.pack.owesReclaim k = false → g.pr.repair = [] → ¬ (g.phase = 4 ∧ g.cause = 8) →
          Leaves (.revertMsg k step epoch) s (fun q =>
            (q.g k).phase = 3 ∧ (q.g k).cause = 0 ∧ (q.g k).pr.rev = 0 ∧ (q.g k).pr.commit = none ∧ (q.g k).sealed = step ∧
            (q.g k).sent.head? = some (.revertDone g.pos step)))) ∧
      (g.assigned = true → g.parted = false →
        (epoch ≠ g.epoch → Gives (.revertMsg k step epoch) s (s.pack.on k Pkg.stale)) ∧
        (epoch = g.epoch → g.pr.commit.isSome = true ∨ step = g.step →
          Gives (.revertMsg k step epoch) s (s.pack.on k (fun g => { g with pr := { g.pr with revWait := true } }))) ∧
        (epoch = g.epoch → g.pr.commit = none → step ≠ g.step → step ≠ g.sealed → Gives (.revertMsg k step epoch) s s.pack)) ∧
      (g.assigned = false ∨ g.parted = true → Gives (.revertMsg k step epoch) s s.pack) ∧
      (g.leads = true → step = g.sealed → Leaves (.revertDone k p step) s (fun q =>
        (q.g k).ld.reverting = g.ld.reverting.filter (· != p) ∧
        (q.g k).takeSt = (if g.ld.reverting.filter (· != p) = [] ∧ g.ld.reverting ≠ [] then (if g.pr.gone &&& g.mem ≠ 0 then 2 else if s.pack.owesHost k = true then 5 else 0) else g.takeSt) ∧
        (q.g k).sent = g.sent ∧ q.mem = s.pack.mem)) ∧
      (g.leads = false ∨ step ≠ g.sealed → Leaves (.revertDone k p step) s same) ∧
      (step = g.sealed → g.assigned = true → g.parted = false → Leaves (.reclaim k step) s (fun q =>
        (q.g k).rb (rLedger 0) 30 = true ∧ q.mem = s.pack.mem ∧
        (∀ h ∈ survivors, ∀ x ∈ g.holderReport h, Msg.holderReport { pos := g.pos, qid := x.1, n := x.2 } ∈ (q.g k).sent) ∧
        (g.leads = true → g.ld.reclaiming = [] → (q.g k).ld.reclaiming = survivors ∧ Msg.reclaim step ∈ (q.g k).sent))) ∧
      (g.rb (rLedger 0) 30 = false → Leaves (.holderReport k p rs) s same) ∧
      (g.rb (rLedger 0) 30 = true → (∃ h ∈ survivors, h ≠ p ∧ ∀ x ∈ g.pr.reps, x.1 ≠ h) → Leaves (.holderReport k p rs) s (fun q =>
        (q.g k).pr.reps = (p, rs) :: g.pr.reps.filter (fun x => x.1 != p) ∧ (q.g k).sent = g.sent ∧ q.mem = s.pack.mem)) ∧
      (g.rb (rLedger 0) 30 = true → (∀ h ∈ survivors, h = p ∨ ∃ x ∈ g.pr.reps, x.1 = h) → Leaves (.holderReport k p rs) s (fun q =>
        (q.g k).pr.reps = [] ∧ (q.g k).sent.head? = some (.reclaimDone g.pos) ∧ q.mem = s.pack.mem ∧
        (∀ x, x < 48 → g.siteSt x ≠ .active → ∀ u c, u < 64 → c < 64 → (q.g k).tk x u c = {}))) ∧
      (g.leads = true → g.parted = false → p ∈ g.ld.reclaiming →
        ((∃ h ∈ g.ld.reclaiming, h ≠ p) ∨ (∀ j ∈ s.pack.members k, (s.pack.g j).pr.rev ≠ 1) → Gives (.reclaimDone k p) s
          (s.pack.on k (fun g => { g with ld := { g.ld with reclaiming := g.ld.reclaiming.filter (· != p) } }))) ∧
        ((∀ h ∈ g.ld.reclaiming, h = p) → s.pack.members k = [k] → g.pr.rev = 1 → g.pr.repair = [] → ¬ (g.phase = 4 ∧ g.cause = 8) →
          Leaves (.reclaimDone k p) s (fun q => (q.g k).phase = 3 ∧ (q.g k).pr.rev = 0 ∧ (q.g k).ld.reclaiming = [] ∧
            (q.g k).sent.head? = some (.revertDone g.pos g.sealed)))) ∧
      (g.leads = false ∨ g.parted = true ∨ p ∉ g.ld.reclaiming → Leaves (.reclaimDone k p) s same)) ∧
    (control →
      Gives (.protRevert k m v) s (s.pack.posted k (ctl 23 {})) ∧
      Gives (.protRestore k m v [c] crc) s (s.pack.posted k (ctl 22 { cuts := [c], crc := crc })) ∧
      Gives (.protUnassign k m v) s (s.pack.posted k (ctl 21 {}))) ∧
    (bit v 22 = false → bit v 21 = false → bit v 20 = false →
      (g.leads = false → Lands s k (ctl 23 {}) (fun q =>
        (q.g k).autorev = bit v 29 ∧ (q.g k).autotk = bit v 28 ∧ (q.g k).rlim = fld v 27 24 ∧ (q.g k).mirv = bit v 17 ∧
        (q.g k).takeSt = g.takeSt ∧ (q.g k).sent = g.sent ∧ q.mem = s.pack.mem)) ∧
      (g.leads = true → ¬ stopped → ¬ (g.phase = 4 ∧ g.cause = 5) → g.committing = false → g.ld.reverting = [] →
        (fld v 27 24 = 0 ∨ g.revcnt < fld v 27 24) → Lands s k (ctl 23 {}) started)) ∧
    (bit v 23 = false → bit v 21 = false → bit v 20 = false →
      (g.leads = true → g.phase = 3 → crc = false → Lands s k (ctl 22 { cuts := [c], crc := crc }) (fun q =>
        (q.g k).rb (rProt 0) 30 = true ∧ (q.g k).sealed = g.sealed ∧ (q.g k).phase = 3 ∧ q.mem = s.pack.mem)) ∧
      (g.leads = true → g.assigned = true → g.phase = 3 → g.mem = 2 ^ g.pos → crc = true → cutsOk [c] true = true → c.pos = g.pos → c.step < 2 ^ 32 →
        s.pack.members k = [k] → Lands s k (ctl 22 { cuts := [c], crc := crc }) (fun q =>
          (q.g k).sealed = c.step ∧ (q.g k).rf rSealEpoch 15 0 = c.epoch % 65536 ∧ ((q.g k).phase = 3 ∨ (q.g k).phase = 4) ∧
          (q.g k).loads = [] ∧ (q.g k).eops = []))) ∧
    (bit v 23 = false → bit v 22 = false → bit v 20 = false →
      (g.lready = true → Lands s k (ctl 21 {}) (fun q =>
        (q.g k).assigned = false ∧ (q.g k).leads = false ∧ (q.g k).epoch = 0 ∧ (q.g k).mem = 0 ∧ (q.g k).pos = g.pos ∧ q.mem = s.pack.mem)) ∧
      (g.lready = false → Lands s k (ctl 21 {}) (fun q =>
        (q.g k).assigned = g.assigned ∧ (q.g k).epoch = g.epoch ∧ (q.g k).mem = g.mem ∧ (q.g k).mode = g.mode ∧ q.mem = s.pack.mem)))

/-- Protection and takeover (R329 to R335, R340, R341, R347 to R351). A delta of the running step enters the block of parity beside the current one and leaves the current one as it is, one of another step is dropped; a built group owes no build; mirrors keep cuts and supplements by their places, and the supplement of the running step is acknowledged. TMODE and HOSTDONE are posted; when TMODE lands it changes while the pack is calm, the tensor is disabled and PARITY may hold, else not, and the mode in effect stays until the pack leaves HELD; a spare entry's control word clears USED. HOSTDONE ends a takeover whose blocks verify. A takeover without an eligible spare halts the pack; one with a spare marks the entry, names the position and applies the next epoch. -/
def Obligations.ProtectionAndTakeover : Prop :=
  ∀ (s : State) (k i t j n slot e b : Nat) (w : Wire) (d : ParDelta) (m : Master) (v : W32) (c : Cut) (msg : Supplement) (hostCut : Option Cut),
    let g := s.pack.g k
    let ib := d.plane * g.planeBlocks d.tensor + d.block
    let z := s.pack.sel k d.tensor d.group ib
    let cur := z % 2
    let old := s.pack.bytes (g.parLoc k d.tensor d.group (g.parOff d.tensor (if 2 ≤ z then 1 - cur else cur) ib)) 4096
    let lost := g.pr.gone &&& g.mem
    let done : Post := { key := rProt 0, site := 62, off := 0x40000, v := setB v 20 true, x := {} }
    let tmode : Post := { key := rProt 0, site := 62, off := 0x50000 + 4 * t, v := v, x := {} }
    let same (q : Pack) : Prop := (∀ j, q.g j = s.pack.g j) ∧ q.mem = s.pack.mem
    (g.hubUp = true →
      (s.pack.wire[i]? = some w → w.body = .delta d →
        (w.dst ≠ k → Gives (.parityDelta k i) s s.pack) ∧
        (w.dst = k → d.step ≠ g.step → Gives (.parityDelta k i) s { s.pack with wire := s.pack.wire.erase w }) ∧
        (w.dst = k → d.step = g.step → d.plane < g.lplanes d.tensor → d.block < g.planeBlocks d.tensor → d.member < g.pgroup d.tensor →
          d.delta.length = 4096 → Leaves (.parityDelta k i) s (fun q =>
            q.wire = s.pack.wire.erase w ∧ (∀ j, q.g j = s.pack.g j) ∧ q.sel k d.tensor d.group ib = cur + 2 ∧
            q.bytes (g.parLoc k d.tensor d.group (g.parOff d.tensor (1 - cur) ib)) 4096 = xorBytes old d.delta ∧
            q.bytes (g.parLoc k d.tensor d.group (g.parOff d.tensor cur ib)) 4096 =
              s.pack.bytes (g.parLoc k d.tensor d.group (g.parOff d.tensor cur ib)) 4096 ∧
            q.bytes (g.parLoc k d.tensor d.group (g.pdigOff d.tensor d.member ib (1 - cur))) 4 = leBytes d.digest 4))) ∧
      (g.tEn t = true → g.tmodeSet t = 1 ∨ g.tmode t = 1 → g.ownPos (g.holder t j) = g.pos → j < g.pgroups t → Leaves (.parityBuild k t j) s (fun q =>
        (q.g k).pr.build = g.pr.build.filter (· != t * 65536 + j))) ∧
      Gives (.cutMirror k slot c) s (s.pack.on k (fun g => { g with pr := { g.pr with cuts := mins g.pr.cuts (2 + 2 * (slot % 4) + c.step % 2) c } })) ∧
      Leaves (.readinessSupplement k msg) s (fun q =>
        (q.g k).pr.supps = mins g.pr.supps msg.pos msg ∧ q.mem = s.pack.mem ∧
        (∀ o, s.pack.at k msg.pos = some o → (s.pack.g o).mirv = true → (s.pack.g o).step = msg.step → (q.g o).pr.suppAck = msg.step + 1)) ∧
      (g.leads = false ∨ lost = 0 ∨ g.autotk = false ∨ g.ld.reverting ≠ [] ∨ g.phase ≠ 3 →
        Leaves (.spareTakeover k hostCut) s same) ∧
      (g.leads = true → g.assigned = true → g.mem.testBit g.pos = true → lost ≠ 0 → g.autotk = true → g.ld.reverting = [] → g.phase = 3 →
        ((∀ x, x < 8 → g.rb (rSpare x 8) 31 = false) → Leaves (.spareTakeover k hostCut) s (fun q =>
          (q.g k).phase = 4 ∧ (q.g k).cause = 9 ∧ (q.g k).epoch = g.epoch ∧ q.mem = s.pack.mem)) ∧
        (s.pack.mirrorCut k (lowest lost) g.sealed = none → s.pack.chooseSpare k c.floor = some (e, b) →
          Leaves (.spareTakeover k (some c)) s (fun q =>
            (q.g k).rb (rSpare e 8) 30 = true ∧ (q.g k).rf (rProt 4) 25 20 = lowest lost ∧
            (q.g k).epoch = (g.epoch + 1) % 65536 ∧ (q.g k).mem = g.mem % 2 ^ 64 ∧ (q.g k).sealed = g.sealed ∧
            ((q.g k).takeSt = 3 ∨ (q.g k).takeSt = 5 ∨ (q.g k).takeSt = 7))))) ∧
    (Writable s.pack k m 62 0x40000 .prot 0 → m.priv = true → Gives (.protHostdone k m v) s (s.pack.posted k done)) ∧
    (bit v 23 = false → bit v 22 = false → bit v 21 = false →
      (g.leads = true → g.takeSt = 5 → (∀ o ∈ s.pack.members k, (s.pack.g o).pr.hostBlocks = []) → Lands s k done (fun q =>
        (q.g k).takeSt = 7 ∧ (q.g k).rb (rProt 4) 28 = false ∧ (q.g k).autorev = bit v 29 ∧ q.mem = s.pack.mem)) ∧
      (g.leads = false ∨ g.takeSt ≠ 5 → Lands s k done (fun q =>
        (q.g k).takeSt = g.takeSt ∧ (q.g k).rb (rProt 4) 28 = g.rb (rProt 4) 28 ∧ (q.g k).autorev = bit v 29 ∧ q.mem = s.pack.mem))) ∧
    (Writable s.pack k m 62 (0x50000 + 4 * t) .prot (0x10000 + 4 * t) → fld v 31 30 ≠ 3 → Gives (.protTmodeWrite k m t v) s (s.pack.posted k tmode)) ∧
    (t < 16384 → fld v 31 30 ≠ 3 →
      (g.calm = true → g.tEn t = false → (fld v 31 30 = 1 → g.parityOk t v = true) → Lands s k tmode (fun q =>
        (q.g k).tmodeSet t = fld v 31 30 ∧ (q.g k).tmode t = g.tmode t ∧ (q.g k).pgroup t = fld v 29 26 + 1 ∧ (q.g k).ph0 t = fld v 13 0 ∧
        (fld v 31 30 ≠ g.tmodeSet t → (t ∈ (q.g k).pr.image ↔ fld v 31 30 = 2)) ∧
        (fld v 31 30 = g.tmodeSet t → (q.g k).pr.image = g.pr.image ∧ (q.g k).pr.build = g.pr.build) ∧ q.mem = s.pack.mem)) ∧
      (g.calm = true → g.tEn t = false → fld v 31 30 = 1 → g.parityOk t v = false → Lands s k tmode (fun q =>
        (q.g k).rb (rProt 0) 30 = true ∧ (q.g k).rd (rTmode t) = g.rd (rTmode t) ∧ (q.g k).pr = g.pr ∧ q.mem = s.pack.mem)) ∧
      (g.calm = false ∨ g.tEn t = true → Lands s k tmode (fun q =>
        (q.g k).rd (rTmode t) = g.rd (rTmode t) ∧ (q.g k).pr = g.pr ∧ q.mem = s.pack.mem))) ∧
    (n < 8 → Writable s.pack k m 62 (0x40048 + 16 * n) .prot (0x48 + 16 * n) → Leaves (.protSpctlWrite k m n v) s (fun q =>
      (q.g k).rb (rSpare n 8) 31 = bit v 31 ∧ (q.g k).rb (rSpare n 8) 30 = false ∧ (q.g k).rf (rSpare n 8) 29 19 = fld v 29 19 ∧
      (∀ a, a ≠ rSpare n 8 → (q.g k).rd a = g.rd a) ∧ q.mem = s.pack.mem))

/-- Host requests (R357 to R372). A read that leads to memory completes with its bytes, one that leads to a register with the register as that BAR reads it, one of the HIF page with its word, in which HIF.STAT holds free values for what the link has trained to (log 76); one that leads nowhere or to a gated place, or asks a register for other than one aligned DW, is a Completer Abort that CALOG records; what the function does not claim, and everything in D3hot, is Unsupported, which AER records, as it does a poisoned write; a read that meets an uncorrectable error is aborted, one of a channel that is held waits, one of a status word stands behind the operations on its tile. A write to memory changes the enabled bytes and no others, one that meets an uncorrectable error none; one to a register is the register's write. A read not answered in time is aborted with cause 4. Configuration answers RRS until the function is ready. Resets and D3hot, interrupt messages and reported positions follow. -/
def Obligations.HostRequests : Prop :=
  ∀ (s : State) (k bar off n a o b w p i : Nat) (bs : List (Option Byte)) (ecc : Ecc) (l : Loc) (v : W32) (hi on mask : Bool),
    let g := s.pack.g k
    let key := ((s.pack.g l.pk).ringLoc l).key
    let dw := oneDw off n
    let reg := a / 2 ^ 48 % 16 = 3
    let ends (c : Instr) (x : Cpl) : Prop := Gives c s (s.pack.on k (fun g => g.onHk (fun h => { h with cpl := x })))
    let logged (cause addr : Nat) (q : Pack) : Prop := (q.g k).hrd 4 = mk32 (2 ^ 31 + cause * 2 ^ 28 + bar / 2 % 4) ∧
      (q.g k).hrd 8 = mk32 (addr % 2 ^ 32) ∧ (q.g k).hrd 0xC = mk32 (addr / 2 ^ 32) ∧ (q.g k).regs = g.regs ∧ q.mem = s.pack.mem
    let aborts (c : Instr) (cause addr : Nat) : Prop := Leaves c s (fun q => (q.g k).hk.cpl = .ca ∧ logged cause addr q)
    let word (x : Nat) : Cpl := .data (leBytes x 4)
    (g.hubUp = true → g.tlpOk bar off n 4096 = true →
      (g.hk.d3 = true ∨ g.hostTo bar off = .ur → Gives (.hostMemoryRead k bar off n .ok) s (s.pack.on k (fun g => g.hostUr.hostEnd .ur))) ∧
      (g.hk.d3 = false →
        (g.hostTo bar off = .bad → aborts (.hostMemoryRead k bar off n .ok) 1 off) ∧
        (g.hostTo bar off = .hif o → dw = true → o ≠ 0 → ends (.hostMemoryRead k bar off n .ok) (word (g.hifRead o).toNat)) ∧
        (g.hostTo bar off = .hif 0 → dw = true → Leaves (.hostMemoryRead k bar off n .ok) s (fun q =>
          (∃ f, (q.g k).hk.cpl = word (setF (g.hifRead 0) 28 19 f).toNat) ∧ (q.g k).regs = g.regs ∧ q.mem = s.pack.mem)) ∧
        (g.hostTo bar off = .hif o → dw = false → aborts (.hostMemoryRead k bar off n .ok) 3 off) ∧
        (g.hostTo bar off = .addr a →
          (reg → dw = false → aborts (.hostMemoryRead k bar off n .ok) 3 a) ∧
          (reg → dw = true → s.pack.where' k none a = .gated → aborts (.hostMemoryRead k bar off n .ok) 2 a) ∧
          (reg → dw = true → s.pack.where' k none a = .ok l → s.pack.statusTurn l none = 0 → Leaves (.hostMemoryRead k bar off n .ok) s (fun q =>
            (q.g k).hk.cpl = word (s.pack.regRead l.pk (barMaster bar) l.site l.off).1.toNat ∧ q.mem = s.pack.mem)) ∧
          (∀ u r t, reg → dw = true → s.pack.where' k none a = .ok l → accstOf l.site l.off = some (u, r, t) → s.pack.statusTurn l none ≠ 0 →
            Leaves (.hostMemoryRead k bar off n .ok) s (fun q => q.mem = s.pack.mem ∧ (q.g l.pk).accq = (s.pack.g l.pk).accq ++
              [{ site := l.site, unit := u, arr := r, tile := t, src := k, w := none, ahead := s.pack.statusTurn l none }])) ∧
          (¬ reg → s.pack.spanOk k none a n = .invalid → aborts (.hostMemoryRead k bar off n .ok) 1 a) ∧
          (¬ reg → s.pack.spanOk k none a n = .gated → aborts (.hostMemoryRead k bar off n .ok) 2 a) ∧
          (¬ reg → s.pack.spanOk k none a n = .ok l →
            (s.pack.chWaits l = true → Gives (.hostMemoryRead k bar off n ecc) s s.pack) ∧
            (s.pack.chWaits l = false →
              ends (.hostMemoryRead k bar off n .ok) (.data (s.pack.bytes l n)) ∧
              Leaves (.hostMemoryRead k bar off n .ce) s (fun q => (q.g k).hk.cpl = .data (s.pack.bytes l n) ∧ q.mem = s.pack.mem) ∧
              Leaves (.hostMemoryRead k bar off n .ue) s (fun q => (q.g k).hk.cpl = .ca ∧
                (q.g k).hrd 4 = mk32 (2 ^ 31 + 5 * 2 ^ 28 + bar / 2 % 4) ∧ q.mem = s.pack.mem)) ) ∧
          aborts (.hostReadTimeout k bar off n) 4 a))) ∧
    (g.hubUp = true → n = bs.length → g.tlpOk bar off n 512 = true →
      Gives (.hostMemoryWrite k bar off (bs, true) .ok) s (s.pack.on k (fun g => g.aerSet .poisoned)) ∧
      (g.hk.d3 = true ∨ g.hostTo bar off = .ur → Gives (.hostMemoryWrite k bar off (bs, false) .ok) s (s.pack.on k Pkg.hostUr))) ∧
    (g.hubUp = true → g.hk.d3 = false → n = bs.length → g.tlpOk bar off n 512 = true →
      (g.hostTo bar off = .bad → Leaves (.hostMemoryWrite k bar off (bs, false) .ok) s (fun q => logged 1 off q ∧ .completerAbort ∈ (q.g k).hk.aer)) ∧
      (g.hostTo bar off = .addr a →
        (¬ reg → s.pack.spanOk k none a n = .ok l → s.pack.chWaits l = true → Gives (.hostMemoryWrite k bar off (bs, false) ecc) s s.pack) ∧
        (¬ reg → s.pack.spanOk k none a n = .ok l → s.pack.chWaits l = false → Leaves (.hostMemoryWrite k bar off (bs, false) .ok) s (fun q =>
          (∀ j, q.g j = s.pack.g j) ∧ ∀ x, memRd q.mem x =
            if key ≤ x ∧ x < key + n then (bs.getD (x - key) none).getD (memRd s.pack.mem x) else memRd s.pack.mem x)) ∧
        (¬ reg → s.pack.spanOk k none a n = .ok l → s.pack.chWaits l = false → Leaves (.hostMemoryWrite k bar off (bs, false) .ue) s (fun q =>
          (q.g k).hrd 4 = mk32 (2 ^ 31 + 5 * 2 ^ 28 + bar / 2 % 4) ∧ (q.g k).hk.aer = g.hk.aer ∧ q.mem = s.pack.mem)) ∧
        (¬ reg → s.pack.spanOk k none a n = .gated → Leaves (.hostMemoryWrite k bar off (bs, false) .ok) s (logged 2 a)) ∧
        (reg → dw = true → (∀ x ∈ bs, x.isSome = true) → s.pack.where' k none a = .ok l →
          Gives (.hostMemoryWrite k bar off (bs, false) .ok) s
            (s.pack.busWrite l.pk (barMaster bar) l.site l.off (mk32 (leVal (bs.map (fun b => b.getD 0))))))) ∧
      (dw = true → (∀ x ∈ bs, x.isSome = true) → v = mk32 (leVal (bs.map (fun b => b.getD 0))) →
        (g.hostTo bar off = .hif hIvec → Leaves (.hostMemoryWrite k bar off (bs, false) .ok) s (fun q =>
          (q.g k).hrd hIvec = v &&& 0x87FF87FF#32 ∧ (q.g k).regs = g.regs ∧ q.mem = s.pack.mem)) ∧
        (g.hostTo bar off = .hif hEposLo → Leaves (.hostMemoryWrite k bar off (bs, false) .ok) s (fun q =>
          (q.g k).hrd hEposLo = g.hrd hEposLo &&& ~~~ v ∧ (q.g k).regs = g.regs ∧ q.mem = s.pack.mem)) ∧
        (g.hostTo bar off = .ctl (4 * i) → i < 15 → Leaves (.hostMemoryWrite k bar off (bs, false) .ok) s (fun q =>
          (q.g k).hrd (hPwin i) = v &&& 0x80003F3F#32 ∧ (q.g k).regs = g.regs ∧ q.mem = s.pack.mem)))) ∧
    (g.hubUp = true → g.ready = false → ∀ r, ends (.configRequest k r) .rrs) ∧
    (g.ready = true →
      ends (.configRequest k .ids) (word (0x00480000 + Config.pciVendor % 65536)) ∧
      ends (.configRequest k .classRev) (word (0x12000000 + floorOf k)) ∧
      ends (.configRequest k .subsys) (word (Config.subsys k)) ∧
      ends (.configRequest k (.serial hi)) (word (if hi then serialOf k / 2 ^ 32 else serialOf k % 2 ^ 32)) ∧
      (36 ≤ b → b ≤ 40 → Gives (.configRequest k (.setB b)) s (s.pack.on k (fun g => g.onHk (fun h => { h with barB := b, cpl := .written })))) ∧
      Gives (.configRequest k (.setMsix on mask)) s (s.pack.on k (fun g => g.onHk (fun h => { h with msixOn := on, msixMask := mask, cpl := .written }))) ∧
      ends (.configRequest k .aer) (word g.hk.aerWord) ∧
      Gives (.configRequest k (.clearAer v)) s (s.pack.on k (fun g => g.onHk (fun h => { h with aer := h.aer.filter (fun e => !bit v (aerBit e)), cpl := .written }))) ∧
      Gives (.configRequest k .setD0) s (s.pack.on k (fun g => g.onHk (fun h => { h with d3 := false, cpl := .written }))) ∧
      Gives (.configRequest k (.write w v)) s (s.pack.on k (fun g => g.onHk (fun h => { h with cfg := mins h.cfg w v, cpl := .written }))) ∧
      Gives (.d3hot k) s (s.pack.on k (fun g => g.onHk (fun h => { h with d3 := true, cpl := .written })))) ∧
    (g.hubUp = true →
      Leaves (.hotReset k) s (fun q => (q.g k).hk.d3 = false ∧ (q.g k).hk.barB = 36 ∧ (q.g k).hk.msixOn = false ∧ (q.g k).hk.cfg = [] ∧ (q.g k).hk.aer = [] ∧
        (∀ x, (q.g k).hrd x = 0) ∧ (∀ x, mget false (q.g k).msix x = false) ∧ (q.g k).regs = g.regs ∧ q.mem = s.pack.mem) ∧
      (g.leads = true → Leaves (.followerErrorPosition k p) s (fun q =>
        bit ((q.g k).hrd (if p < 32 then hEposLo else hEposHi)) (p % 32) = true ∧
        (bit (g.hrd hIvec) 31 = true → mget false (q.g k).msix (fld (g.hrd hIvec) 26 16) = true) ∧ (q.g k).regs = g.regs ∧ q.mem = s.pack.mem)) ∧
      (g.hk.d3 = false → w < 2048 → mget false g.msix w = true →
        (g.hk.msixOn = true → g.hk.msixMask = false → bit (g.hrd (0x4000C + 16 * w)) 0 = true → Leaves (.msixMessage k w) s (fun q =>
          (q.g k).hk.msi = some ((g.hrd (0x40000 + 16 * w)).toNat + (g.hrd (0x40004 + 16 * w)).toNat * 2 ^ 32, (g.hrd (0x40008 + 16 * w)).toNat) ∧
          mget false (q.g k).msix w = false ∧ (q.g k).regs = g.regs ∧ q.mem = s.pack.mem)) ∧
        (g.hk.msixOn = false ∨ g.hk.msixMask = true ∨ bit (g.hrd (0x4000C + 16 * w)) 0 = false → Leaves (.msixMessage k w) s (fun q =>
          mget false (q.g k).msix w = true ∧ (q.g k).hk.msi = g.hk.msi ∧ q.mem = s.pack.mem))))

/-- The responders (R373, R421, R422, R436 to R438). Once the package is ready the DOE and SPDM responder answers each request as the manual's table has it; CHALLENGE and GET_CERTIFICATE need the identity. The Husk answers MCTP control, reads and writes registers of the Husk domain, takes a board message where none waits, hands its own out, and releases SMB_ALERT_N at the Alert Response Address. -/
def Obligations.Responders : Prop :=
  ∀ (s : State) (k off len e o n key : Nat) (req bs : List Byte) (v : W32) (b : Blk) (x : Nat),
    let g := s.pack.g k
    let portion := ((certOf k).drop off).take len
    let answers (c : Instr) (stage : Nat) (r : SpdmResp) : Prop :=
      Gives c s (s.pack.on k (fun g => g.onHk (fun h => { h with answer := r, spdm := stage })))
    let signed (c : Instr) (t : List Byte → SpdmResp) : Prop :=
      Leaves c s (fun q => (∃ sig, (q.g k).hk.answer = t sig ∧ sig.length = 64) ∧ (q.g k).hk.spdm = g.hk.spdm ∧ (q.g k).regs = g.regs ∧ q.mem = s.pack.mem)
    let responds (c : Instr) (code : Nat) (data : List Byte) : Prop :=
      Gives c s (s.pack.on k (fun g => g.onHk (fun h => { h with resp := (code, data) })))
    (g.ready = true →
      answers (.doeDiscovery k) g.hk.spdm (.discovery [0, 1]) ∧
      answers (.doeAbort k) 0 .none ∧
      answers (.getVersion k) 1 (.version [0x12, 0x13]) ∧
      answers (.getCapabilities k) (max g.hk.spdm 2) (.capabilities true true true false) ∧
      answers (.negotiateAlgorithms k) (max g.hk.spdm 3) (.algorithms true true true) ∧
      answers (.getDigests k) g.hk.spdm (.digests (fixLen 32 (Config.sm3 (certOf k)))) ∧
      answers (.spdmUnsupportedRequest k) g.hk.spdm .unsupported ∧
      answers (.getCertificate k off len) g.hk.spdm
        (if Config.idOk k = true then .certificate portion ((certOf k).length - off - portion.length) else .unspecified) ∧
      (if Config.idOk k = true then signed (.challenge k req) (fun sig => .challengeAuth sig) else answers (.challenge k req) g.hk.spdm .unspecified) ∧
      signed (.getMeasurements k req) (fun sig => .measurements (g.measurements k) sig)) ∧
    (g.hk.vaon = true →
      (e % 256 ≠ 0 → e % 256 ≠ 255 → Gives (.setEndpointId k e) s (s.pack.on k (fun g => g.onHk (fun h =>
        { h with eid := e % 256, resp := (0, [BitVec.ofNat 8 e]) })))) ∧
      (e % 256 = 0 ∨ e % 256 = 255 → responds (.setEndpointId k e) 2 []) ∧
      responds (.getEndpointId k) 0 [BitVec.ofNat 8 g.hk.eid] ∧
      responds (.getMctpVersionSupport k) 0 [1, 3] ∧
      responds (.getMessageTypeSupport k) 0 [0x05, 0x7E] ∧
      (n = 0 ∨ 16 < n ∨ o % 4 ≠ 0 → responds (.mctpRead k o n) 3 []) ∧
      (0 < n → n ≤ 16 → o % 4 = 0 → mctpReach o = false ∨ mctpReach (o + 4 * n - 1) = false → responds (.mctpRead k o n) 1 []) ∧
      (0 < n → n ≤ 16 → o % 4 = 0 → mctpReach o = true → mctpReach (o + 4 * n - 1) = true → Leaves (.mctpRead k o n) s (fun q =>
        (q.g k).hk.resp.1 = 0 ∧ (q.g k).hk.resp.2.length = 4 * n ∧ (q.g k).regs = g.regs ∧ q.mem = s.pack.mem ∧
        (n = 1 → (q.g k).hk.resp.2 = leBytes (s.pack.regRead k .husk 62 o).1.toNat 4))) ∧
      (o % 4 ≠ 0 → responds (.mctpWrite k o v) 3 []) ∧
      (o % 4 = 0 → mctpReach o = false → responds (.mctpWrite k o v) 1 []) ∧
      (o % 4 = 0 → mctpReach o = true → blockOf 62 o = some (b, x) → busyKey 62 b x = some key → Leaves (.mctpWrite k o v) s (fun q =>
        (q.g k).hk.resp = (0, []) ∧ (q.g k).busy.contains key = false)) ∧
      (o = 0x14004 → g.hubUp = false ∨ (∃ l, g.place k 62 3 o = .ok l) → g.busy.contains (rPwr 0) = false → 2000 ≤ fld v 15 0 → fld v 15 0 ≤ 6500 →
        Leaves (.mctpWrite k o v) s (fun q => (q.g k).hk.resp = (0, []) ∧ (q.g k).rf (rPwr 4) 15 0 = fld v 15 0 ∧ q.mem = s.pack.mem)) ∧
      (bs.length = 0 ∨ 256 < bs.length → responds (.bsend k bs) 3 []) ∧
      (0 < bs.length → bs.length ≤ 256 → g.rb (rHusk 4) 29 = true → responds (.bsend k bs) 2 []) ∧
      (0 < bs.length → bs.length ≤ 256 → g.rb (rHusk 4) 29 = false → Leaves (.bsend k bs) s (fun q =>
        (q.g k).hk.resp = (0, []) ∧ (q.g k).rb (rHusk 4) 29 = true ∧ (q.g k).rf (rHusk 4) 24 16 = bs.length ∧
        (q.g k).huskBytes 0x200 bs.length = bs ∧ (q.g k).rf (rHusk 4) 8 0 = g.rf (rHusk 4) 8 0 ∧ q.mem = s.pack.mem)) ∧
      (g.rb (rHusk 4) 30 = false → responds (.htake k) 4 []) ∧
      (g.rb (rHusk 4) 30 = true → Leaves (.htake k) s (fun q =>
        (q.g k).hk.resp = (0, leBytes (g.rf (rHusk 4) 8 0) 2 ++ g.huskBytes 0x100 (g.rf (rHusk 4) 8 0)) ∧
        (q.g k).rb (rHusk 4) 30 = false ∧ (q.g k).rb (rHusk 4) 29 = g.rb (rHusk 4) 29 ∧ q.mem = s.pack.mem)) ∧
      Gives (.smbAlertResponse k) s (s.pack.on k (fun g => { g with smb := false })))

/-- Gates and the test access port (R382, R386, R413, R439 to R442). A write to a gate register of a die or of the hub, after the ROM phase, takes the enables its mask names: sets them, or clears them where nothing holds them; one it refuses sets GREF. Kennel shares change while the package is calm, nothing is reserved and the shares cover what is in use, else the die says why not. The TAP shifts out what its instruction names; with DBGLOCK, SAMPLE and EXTEST act as BYPASS, else SAMPLE captures the pins and EXTEST takes every pack port that runs DOWN and drives the cells. -/
def Obligations.GatesAndTestPort : Prop :=
  ∀ (s : State) (k site j cells : Nat) (m : Master) (v : W32),
    let g := s.pack.g k
    let took (a gs n : Nat) (held : Nat → Bool) (q : Pack) : Prop :=
      (∀ i, i < n → (q.g k).rb a i = if bit v (16 + i) then (bit v i || (g.rb a i && held i)) else g.rb a i) ∧
      (q.g k).rb gs 0 = (g.rb gs 0 || (List.range n).any (fun i => bit v (16 + i) && !bit v i && g.rb a i && held i)) ∧
      (∀ b, b ≠ a → b ≠ gs → (q.g k).rd b = g.rd b) ∧ q.mem = s.pack.mem
    let early (a n : Nat) (q : Pack) : Prop :=
      (∀ i, i < n → bit v (16 + i) = true → bit v i = true → (q.g k).rb a i = g.rb a i) ∧
      ((∃ i, i < n ∧ bit v (16 + i) = true ∧ bit v i = true) → (q.g k).rb (rKey 0) 22 = true) ∧ q.mem = s.pack.mem
    let w := mk32 (fld v 4 0 + at' (fld v 12 8) 8 + at' (fld v 20 16) 16 + at' (fld v 28 24) 24)
    let pool := kpoolOf (g.shareSum site w) (g.rf rPipeSpill 8 0)
    let small : Prop := fld v 4 0 ≤ 16 ∧ fld v 12 8 ≤ 16 ∧ fld v 20 16 ≤ 16 ∧ fld v 28 24 ≤ 16
    let low := g.pinLow k
    let dumb := s.pack.on k (fun g => g.onHk (fun h => { h with tapIr := 0xFF, irOut := 1, tapOut := 0 }))
    let lines (c : Instr) (op : Nat) : Prop := Leaves c s (fun q =>
      if Config.dbgLock k = true then q = dumb else (q.g k).hk.tapIr = op ∧ (q.g k).hk.irOut = 1 ∧ (q.g k).hk.tapCells = cells % 2 ^ 297 ∧
      (∀ n, n < 32 → (q.g k).portState n = if 1 ≤ g.portState n ∧ g.portState n ≤ 3 then 4 else g.portState n))
    (j < 4 → Writable s.pack k m site (4 + 4 * j) .die (4 + 4 * j) →
      (g.romPhase = false → Leaves (.dieGateuWrite k m site j v) s (took (rGateU site j) (rGstat site) 16 (fun i => g.unitHeld site (16 * j + i)))) ∧
      (g.romPhase = true → Leaves (.dieGateuWrite k m site j v) s (early (rGateU site j) 16))) ∧
    (Writable s.pack k m site 0x14 .die 0x14 → g.romPhase = false → Leaves (.dieGatecWrite k m site v) s
      (took (rGateC site) (rGstat site) 16 (fun c => (List.range 4).any (fun i => g.unitOn site (4 * c + i))))) ∧
    (Writable s.pack k m site 0x18 .die 0x18 → g.romPhase = false → Leaves (.dieGatebWrite k m site v) s
      (took (rGateB site) (rGstat site) 7 (fun i => g.gateBHeld site i))) ∧
    (Writable s.pack k m 62 4 .hub 4 → g.romPhase = false → Leaves (.hubGate0Write k m v) s (took rGate0 (hubR 0) 6 (fun i => g.gate0Held i))) ∧
    (Writable s.pack k m 62 8 .hub 8 → g.romPhase = false → Leaves (.hubGatesWrite k m v) s (took rGates (hubR 0) 12 (fun i => g.stackHeld i))) ∧
    (Writable s.pack k m site 0x1C .die 0x1C →
      (small → g.calm = true → g.anyHeld = false → g.kcapSum 8 ≤ pool → g.shareCovers site w = false → Leaves (.dieKshrWrite k m site v) s (fun q =>
        (q.g k).rd (rKshr site) = w ∧ (q.g k).rf rKpool 18 0 = pool % 2 ^ 19 ∧ (q.g k).rd (rGstat site) = g.rd (rGstat site) ∧ q.mem = s.pack.mem)) ∧
      (¬ small → Leaves (.dieKshrWrite k m site v) s (fun q =>
        (q.g k).rb (rGstat site) 3 = true ∧ (q.g k).rd (rKshr site) = g.rd (rKshr site) ∧ q.mem = s.pack.mem)) ∧
      (small → g.calm = false ∨ g.anyHeld = true → Leaves (.dieKshrWrite k m site v) s (fun q =>
        (q.g k).rb (rGstat site) 2 = true ∧ (q.g k).rd (rKshr site) = g.rd (rKshr site) ∧ q.mem = s.pack.mem)) ∧
      (small → g.calm = true → g.anyHeld = false → pool < g.kcapSum 8 ∨ g.shareCovers site w = true → Leaves (.dieKshrWrite k m site v) s (fun q =>
        (q.g k).rb (rGstat site) 1 = true ∧ (q.g k).rd (rKshr site) = g.rd (rKshr site) ∧ q.mem = s.pack.mem))) ∧
    Gives (.tapReset k) s (s.pack.on k (fun g => g.onHk (fun h => { h with tapIr := 1 }))) ∧
    Gives (.bypass k) s dumb ∧
    Gives (.idcode k) s (s.pack.on k (fun g => g.onHk (fun h => { h with tapIr := 1, irOut := 1, tapOut := idcode k }))) ∧
    Leaves (.samplePreload k cells) s (fun q =>
      if Config.dbgLock k = true then q = dumb
      else (q.g k).hk.tapIr = 2 ∧ (q.g k).hk.irOut = 1 ∧ (q.g k).hk.tapCells = cells % 2 ^ 297 ∧ (q.g k).hk.tapOut.testBit 289 = (!g.hk.perst) ∧
        (q.g k).hk.tapOut.testBit 290 = g.hk.pwrok ∧ (q.g k).hk.tapOut.testBit 291 = (!g.hk.leadLow) ∧ (q.g k).hk.tapOut.testBit 292 = (!low.1) ∧
        (q.g k).hk.tapOut.testBit 293 = (!low.2.1) ∧ (q.g k).hk.tapOut.testBit 294 = (!low.2.2) ∧ (q.g k).regs = g.regs ∧ q.mem = s.pack.mem) ∧
    (g.powered = false → Gives (.extest k cells) s dumb ∧ Gives (.extestPulse k cells) s dumb ∧ Gives (.extestTrain k cells) s dumb) ∧
    (g.powered = true → lines (.extest k cells) 3 ∧ lines (.extestPulse k cells) 4 ∧ lines (.extestTrain k cells) 5)

/-- Power states, resets, the board's pins, the Husk and the boot (R371, R388 to R397, R405 to R419, R430 to R435). Commands to the power block, the mailbox, the keys and the fuses are posted writes, and act when they land. A wake, a package reset and a released PERST_N leave the package in P0 with the role its strap gives; STANDBY and OFF need a package that may leave, or FORCE; what a state does not power loses its memory, and no other package's memory changes; the fuses and, but for VAON, the log stay, SVNCTR between its old value and its target where its advance is abandoned (R418, R423). Without REFCLK a released PERST_N leaves the hub failed. The mailbox, quotes and lend-ready pulses follow their registers. LOAD refuses an image by its first failing check and verifies one that passes; a verified image is measured, installed and its load area zeroed; ADVSVN and REVOKE blow what they may. -/
def Obligations.PowerStatesBoardAndBoot : Prop :=
  ∀ (s : State) (k site len mask j w : Nat) (m : Master) (force stuck : Bool) (tests : List EdgeTest) (v : W32) (l : Loc) (body : List Byte),
    let g := s.pack.g k
    let h := g.hk
    let wiped (keep : Nat → Bool) (q : Pack) : Prop := ∀ a, memRd q.mem a = if keep a then memRd s.pack.mem a else memInit
    let role (q : Pack) : Prop := if h.leadLow then (q.g k).leads = true ∧ (q.g k).assigned = true ∧ (q.g k).pos = 0 ∧ (q.g k).mem = 1 ∧ (q.g k).epoch = 1
      else (q.g k).assigned = false
    let fuses (q : Pack) : Prop := if g.advancing = true then
        (q.g k).fz.rev = g.fz.rev ∧ g.svnctr k ≤ (q.g k).svnctr k ∧ (q.g k).svnctr k ≤ max (g.svnctr k) (min 63 (g.rf (rKey 4) 15 8)) else (q.g k).fz = g.fz
    let fresh (q : Pack) : Prop := fuses q ∧ (q.g k).log = g.log ∧ (q.g k).started = [] ∧ (q.g k).phase = 0 ∧ (q.g k).mode = 0 ∧
      (q.g k).thr = [] ∧ (q.g k).sites = fusedOut k
    let up (stk : Bool) (q : Pack) : Prop := (q.g k).hk.state = 2 ∧ (q.g k).hk.rst = h.perst ∧ (h.perst = false → role q) ∧ fresh q ∧
      wiped (if stk then keepStack k else keepOther k) q
    let down (s1 : Bool) (q : Pack) : Prop := (q.g k).hk.state = (if s1 then 1 else 0) ∧ (q.g k).hubUp = false ∧ fresh q ∧
      wiped (if s1 then keepStack k else keepOther k) q
    let refused (q : Pack) : Prop := (q.g k).rb (rPwr 0xC) 19 = true ∧ (q.g k).hk = g.hk ∧ q.mem = s.pack.mem
    let cmd := Writable s.pack k m 62 0x14008 .pwr 8
    let fuse := Writable s.pack k m 62 0x16000 .fuse 0
    let pw (n : Nat) (x : WrX) : Post := { key := rPwr 0, site := 62, off := 0x14008, v := mk32 n, x := x }
    let blow (n : Nat) : Post := { key := rFuse 0, site := 62, off := 0x16000, v := mk32 n, x := {} }
    let loads : Post := { key := rFuse 0, site := 62, off := 0x17000, v := mk32 (2 ^ 23), x := {} }
    let send : Post := { key := rHusk 4, site := 62, off := 0x15004, v := mk32 (2 ^ 28 + len % 512), x := {} }
    let took : Post := { key := rHusk 4, site := 62, off := 0x15004, v := setB v 27 true, x := {} }
    let iso : Post := { key := rHusk 4, site := 62, off := 0x15008, v := v, x := {} }
    let able := ((s.pack.dieFailed k site 2).g k).edgesAble k site tests
    let two := 2 * 2 ^ 28 + b2n force * 2 ^ 27
    let three := 3 * 2 ^ 28 + b2n force * 2 ^ 27
    let hdr := s.pack.bytes l 4096
    let img := hdr ++ s.pack.bytes { l with off := 4096 } (imgF hdr 8 4)
    let leftOf := keyProg k &&& (15 - (g.keyRev k ||| mask % 16) % 16)
    (h.vaon = true → h.state ≠ 2 → g.busy.contains (rPwr 0) = false → Gives (.wake k .husk) s (s.pack.posted k (pw (1 * 2 ^ 28) {}))) ∧
    (h.state ≠ 2 → h.rst = false →
      (h.pwrok = true → h.ref = true → g.rb (rPwr 0xC) 28 = false →
        Lands s k (pw (1 * 2 ^ 28) {}) (fun q => if Config.fuseError k = true then refused q else up (h.state == 1) q)) ∧
      (h.pwrok = false ∨ h.ref = false ∨ g.rb (rPwr 0xC) 28 = true → Lands s k (pw (1 * 2 ^ 28) {}) refused)) ∧
    (cmd →
      Gives (.standby k m force stuck) s (s.pack.posted k (pw two { stuck := stuck })) ∧ Gives (.powerOff k m force) s (s.pack.posted k (pw three {})) ∧
      Gives (.pkgreset k m) s (s.pack.posted k (pw (4 * 2 ^ 28) {})) ∧
      Gives (.diereset k m site tests) s (s.pack.posted k (pw (5 * 2 ^ 28 + site % 64) { tests := tests }))) ∧
    (g.hubUp = true →
      (force = true ∨ g.mayLeave = true → Lands s k (pw two { stuck := stuck }) (down (!(force && stuck))) ∧ Lands s k (pw three {}) (down false)) ∧
      (force = false → g.mayLeave = false → Lands s k (pw two { stuck := stuck }) refused ∧ Lands s k (pw three {}) refused) ∧
      Lands s k (pw (4 * 2 ^ 28) {}) (up false) ∧
      (site < 48 → g.siteSt site ≠ .off → Lands s k (pw (5 * 2 ^ 28 + site % 64) { tests := tests }) (fun q =>
        (q.g k).siteSt site = (if able then .spare else .failed) ∧ (g.siteSt site = .active → mget false (q.g k).started site = false) ∧ q.mem = s.pack.mem))) ∧
    (h.vaon = true →
      (g.rb (rPwr 0) 29 = false ∨ h.state = 2 → Leaves (.pwrOkRise k) s (fun q => (q.g k).hk = { h with pwrok := true } ∧ (q.g k).rb (rPwr 0xC) 18 = true ∧ q.mem = s.pack.mem)) ∧
      (g.rb (rPwr 0) 29 = true → h.state ≠ 2 → h.ref = true → g.rb (rPwr 0xC) 28 = false → Leaves (.pwrOkRise k) s (fun q =>
        if Config.fuseError k = true then (q.g k).hk = { h with pwrok := true } ∧ (q.g k).rb (rPwr 0xC) 19 = true ∧ q.mem = s.pack.mem else up (h.state == 1) q)) ∧
      (h.state ≠ 0 → Leaves (.pwrOkFall k) s (fun q => down false q ∧ (q.g k).hk.pwrok = false)) ∧
      (h.state = 2 → Leaves (.perstAssert k) s (fun q => (q.g k).hk.state = 2 ∧ (q.g k).hk.rst = true ∧ (q.g k).hk.perst = true ∧ fresh q ∧ wiped (keepOther k) q)) ∧
      (h.state ≠ 2 → Gives (.perstAssert k) s (s.pack.on k (fun g => { g with hk := { g.hk with perst := true } }))) ∧
      (h.perst = true → h.state = 2 → h.rst = true → Leaves (.perstRelease k) s (fun q =>
        (q.g k).powered = true ∧ (q.g k).hubUp = h.ref ∧ (q.g k).hk.perst = false ∧ (h.leadLow = true → role q) ∧ (∀ d, g.loadDie = some d → (q.g k).rd (rGateB d) = 0xF#32) ∧ q.mem = s.pack.mem)) ∧
      (h.perst = true → h.state ≠ 2 → Gives (.perstRelease k) s (s.pack.on k (fun g => { g with hk := { g.hk with perst := false } }))) ∧
      (h.ref = true → h.state = 2 → h.rst = false → Leaves (.refclkLoss k) s (fun q =>
        (q.g k).hk.ref = false ∧ (q.g k).hk.failed = true ∧ (q.g k).started = [] ∧ (q.g k).rb (rPwr 0xC) 21 = true ∧
        (∀ i, (mget ({} : Thread) (q.g k).thr i).st = .idle) ∧ (q.g k).faulted k = true ∧ q.mem = s.pack.mem)) ∧
      (h.ref = true → Leaves (.huskTrim k) s (fun q =>
        (q.g k).rf (rHusk 0) 29 28 = 1 ∧ (q.g k).rf (rHusk 0) 27 23 = 0 ∧ (q.g k).hk = g.hk ∧ q.mem = s.pack.mem)) ∧
      (h.ref = false → (∀ n, n < 32 → g.portState n ≠ 2 ∧ g.portState n ≠ 3) → Leaves (.huskTrim k) s (fun q =>
        (q.g k).rf (rHusk 0) 29 28 = 0 ∧ (q.g k).rf (rHusk 0) 11 0 = g.rf (rHusk 0) 11 0 ∧ (q.g k).hk = g.hk ∧ q.mem = s.pack.mem))) ∧
    Leaves (.refclkReturn k) s (fun q =>
      (q.g k).hk = { h with ref := true } ∧ (q.g k).rb (rPwr 0xC) 21 = (h.failed && g.rb (rPwr 0xC) 21) ∧ q.mem = s.pack.mem) ∧
    Leaves (.vaonRise k) s (fun q =>
      (q.g k).hk.vaon = true ∧ (q.g k).hk.state = 0 ∧ fuses q ∧ (q.g k).log = [] ∧ role q ∧ wiped (keepOther k) q) ∧
    Leaves (.vaonLoss k) s (fun q => (q.g k).hk.vaon = false ∧ (q.g k).hubUp = false ∧ fuses q ∧ (q.g k).regs = [] ∧ wiped (keepOther k) q) ∧
    (h.state ≠ 0 → Leaves (.vaonInterlock k) s (down false)) ∧ (h.state = 0 → Gives (.vaonInterlock k) s s.pack) ∧
    (Writable s.pack k m 62 0x15004 .husk 4 →
      (len ≤ 256 → Gives (.hsend k m len) s (s.pack.posted k send)) ∧
      (fld v 8 0 ≤ 256 → Gives (.back k m v) s (s.pack.posted k took))) ∧
    (len ≤ 256 →
      (g.rb (rHusk 4) 30 = false → Lands s k send (fun q =>
        (q.g k).rf (rHusk 4) 8 0 = len ∧ (q.g k).rb (rHusk 4) 30 = true ∧ (q.g k).rb (rHusk 4) 29 = g.rb (rHusk 4) 29 ∧ q.mem = s.pack.mem)) ∧
      (g.rb (rHusk 4) 30 = true → Lands s k send (fun q => refused q ∧ (q.g k).rd (rHusk 4) = g.rd (rHusk 4)))) ∧
    (bit v 28 = false → fld v 8 0 ≤ 256 → Lands s k took (fun q =>
        (q.g k).rb (rHusk 4) 29 = false ∧ (q.g k).rf (rHusk 4) 8 0 = fld v 8 0 ∧ (q.g k).rb (rHusk 4) 30 = g.rb (rHusk 4) 30 ∧ q.mem = s.pack.mem)) ∧
    (Writable s.pack k m 62 0x15008 .husk 8 → Gives (.huskIsoWrite k m v) s (s.pack.posted k iso)) ∧
    Lands s k iso (fun q => (q.g k).rd (rHusk 8) = v ∧
      (∀ n, n < 32 → bit v n = true → (q.g k).portState n = if 1 ≤ g.portState n ∧ g.portState n ≤ 3 then 4 else g.portState n)) ∧
    (Writable s.pack k m 62 0x1500C .husk 0xC →
      (h.quote = none → Leaves (.qreq k m) s (fun q => ∃ x, (q.g k).hk.quote = some x ∧ x.length = 128 ∧ x.take 4 = leBytes 0x4855534B 4 ∧
        (x.drop 4).take 8 = leBytes (serialOf k) 8 ∧ (x.drop 12).take 32 = g.huskBytes 0x300 32 ∧ (q.g k).regs = g.regs ∧ q.mem = s.pack.mem)) ∧
      (h.quote.isSome = true → Leaves (.qreq k m) s (fun q => (q.g k).hk.quote = h.quote ∧ q.mem = s.pack.mem))) ∧
    (h.quote = some body → body.length = 128 → Leaves (.quoteDone k) s (fun q => (q.g k).hk.quote = none ∧ (q.g k).huskBytes 0x400 128 = body ∧
      (q.g k).rb (rHusk 0xC) 30 = (decide ((body.drop 12).take 32 = g.huskBytes 0x300 32) || g.rb (rHusk 0xC) 30) ∧ q.mem = s.pack.mem)) ∧
    (j < 8 → Writable s.pack k m 62 (0x15300 + 4 * j) .husk (0x300 + 4 * j) → Leaves (.huskNonceWrite k m j v) s (fun q =>
      (q.g k).rd (rHusk (0x300 + 4 * j)) = v ∧ (q.g k).rb (rHusk 0xC) 30 = false ∧ q.mem = s.pack.mem)) ∧
    Gives (.lendReadyPulse k) s (s.pack.on k (fun g => if h.pulse = true ∨ (g.rb rPins 30 = true ∧ g.lready = true ∧ g.faulted k = false) then
      { g with hk := { g.hk with pulse := !h.pulse } } else g)) ∧
    (Writable s.pack k m 62 0x17000 .keyb 0 → Gives (.load k m) s (s.pack.posted k loads)) ∧
    (g.hubUp = true →
      (g.bphase = 1 ∨ g.bphase = 2 → Lands s k loads (fun q => (q.g k).rf (rKey 0) 27 24 = 8 ∧ (q.g k).bphase = g.bphase ∧ q.mem = s.pack.mem)) ∧
      (g.bphase ≠ 1 → g.bphase ≠ 2 → g.loadLoc k = some l →
        Lands s k loads (fun q => q.mem = s.pack.mem ∧ match g.headErr k hdr with
          | some err => (q.g k).rf (rKey 0) 27 24 = err ∧ (q.g k).bphase = 3
          | none => (q.g k).bphase = 1 ∧ (q.g k).rf (rKey 0) 27 24 = g.rf (rKey 0) 27 24))) ∧
    (g.hubUp = true → g.bphase = 1 → g.loadLoc k = some l → Leaves (.loadComplete k) s (fun q => match g.headErr k hdr with
      | some err => (q.g k).bphase = 3 ∧ (q.g k).rf (rKey 0) 27 24 = err ∧ (q.g k).fw = g.fw ∧ q.mem = s.pack.mem
      | none =>
        if Config.sm2Verify fwIdent ((hdr.drop 64).take 64) (imgM img) ((hdr.drop 128).take 64) = true then
          (q.g k).bphase = 2 ∧ (q.g k).fw = img ∧ (q.g k).mdig = fixLen 32 (Config.sm3 (imgM img)) ∧ (q.g k).rf (rKey 4) 15 8 = imgF hdr 7 1 ∧
          wiped (fun a => !(decide (l.key ≤ a ∧ a < l.key + 2 ^ 24))) q
        else (q.g k).bphase = 3 ∧ (q.g k).rf (rKey 0) 27 24 = 6 ∧ (q.g k).fw = g.fw ∧ q.mem = s.pack.mem)) ∧
    (g.hubUp = true → g.assigned = true → g.bphase ≠ 1 → g.bphase ≠ 2 → g.loadLoc k = some l → s.pack.at k g.lpos = some j → j ≠ k →
      (s.pack.g j).bphase = 2 → (s.pack.g j).leads = true → (s.pack.g j).ld.push.contains g.pos = true → Leaves (.imagePush k) s (fun q =>
        q.mem = (s.pack.store l (s.pack.g j).fw).mem ∧
        (q.g k).bphase = (if g.headErr k ((s.pack.store l (s.pack.g j).fw).bytes l 4096) = none then 1 else 3) ∧
        (q.g j).ld.push.contains g.pos = false)) ∧
    (g.bphase = 1 ∨ g.bphase = 2 → Leaves (.imagePush k) s (fun q => q.g k = g ∧ (∀ i, (q.g i).regs = (s.pack.g i).regs) ∧ q.mem = s.pack.mem)) ∧
    (s.pack.at k g.lpos = some j → (s.pack.g j).ld.push.contains g.pos = false → Gives (.imagePush k) s s.pack) ∧
    (fuse → Gives (.advsvn k m) s (s.pack.posted k (blow (2 ^ 4))) ∧ Gives (.revoke k m mask) s (s.pack.posted k (blow (mask % 16)))) ∧
    ((g.bphase = 2 → Lands s k (blow (2 ^ 4)) (fun q => (q.g k).fz = { g.fz with svn := max (g.svnctr k) (min 63 (g.rf (rKey 4) 15 8)) } ∧ (q.g k).regs = g.regs ∧ q.mem = s.pack.mem)) ∧
      (g.bphase ≠ 2 → Lands s k (blow (2 ^ 4)) (fun q => (q.g k).fz = g.fz ∧ (q.g k).rf (rKey 0) 27 24 = 8 ∧ q.mem = s.pack.mem)) ∧
      (mask % 16 ≠ 0 → Lands s k (blow (mask % 16)) (fun q => q.mem = s.pack.mem ∧
        if leftOf = 0 then (q.g k).fz = g.fz ∧ (q.g k).rf (rKey 0) 27 24 = 8
        else (q.g k).fz = { g.fz with rev := g.fz.rev ||| mask % 16 } ∧ (q.g k).regs = g.regs)))

/-- What the commands of one package leave alone: each answers a next state in which memory, what is in flight between packages, the free values drawn and every other package are as they were. -/
def Obligations.CommandsOfOnePackage : Prop :=
  ∀ (s : State) (c : Instr) (k : Nat), c.alone = some k → Leaves c s (fun p =>
    p.mem = s.pack.mem ∧ p.flight = s.pack.flight ∧ p.wire = s.pack.wire ∧ p.fresh = s.pack.fresh ∧
    (∀ j, j ≠ k → p.g j = s.pack.g j))
end

