-- ==== Sys2Proof/Laws/Store.lean ====
section
/-! SUPPORT. Laws of the sparse tables and of memory: read after write, the canonical form. -/

set_option linter.unusedVariables false

namespace Sys2Proof.Machine

@[simp] theorem mget_mins_self {α : Type} (d : α) (m : Map α) (i : Nat) (v : α) : mget d (mins m i v) i = v := by
  induction m with
  | nil => simp [mins, mget]
  | cons p r ih =>
    obtain ⟨k, w⟩ := p
    unfold mins
    split
    · simp [mget]
    · split
      · simp [mget]
      · rename_i h1 h2
        have : k ≠ i := fun h => h2 h.symm
        simp [mget, this, ih]

theorem mget_mins_ne {α : Type} (d : α) (m : Map α) {i j : Nat} (v : α) (h : j ≠ i) : mget d (mins m i v) j = mget d m j := by
  induction m with
  | nil => simp [mins, mget, h.symm]
  | cons p r ih =>
    obtain ⟨k, w⟩ := p
    unfold mins
    split
    · simp [mget, h.symm]
    · split
      · rename_i h1 h2
        subst h2
        simp [mget, h.symm]
      · simp only [mget, ih]

/-- A table after one write. -/
theorem mget_mins {α : Type} (d : α) (m : Map α) (i j : Nat) (v : α) : mget d (mins m i v) j = if j = i then v else mget d m j := by
  split
  · rename_i h; subst h; simp
  · rename_i h; exact mget_mins_ne d m v h

@[simp] theorem mins_mins {α : Type} (m : Map α) (i : Nat) (v w : α) : mins (mins m i v) i w = mins m i w := by
  induction m with
  | nil => simp [mins]
  | cons p r ih =>
    obtain ⟨k, u⟩ := p
    by_cases h1 : i < k
    · simp [mins, h1]
    · by_cases h2 : i = k
      · simp [mins, h2]
      · simp [mins, h1, h2, ih]

theorem mget_filter_ne (m : Mem) (a b : Nat) (h : b ≠ a) : mget memInit (m.filter (fun c => c.1 != a)) b = mget memInit m b := by
  induction m with
  | nil => rfl
  | cons p r ih =>
    obtain ⟨k, w⟩ := p
    rw [List.filter_cons]
    by_cases hk : k = a
    · subst hk
      have : k ≠ b := fun e => h e.symm
      simp [mget, this, ih]
    · rw [if_pos (by simpa using hk)]
      simp only [mget, ih]

theorem mget_filter_self (m : Mem) (a : Nat) : mget memInit (m.filter (fun c => c.1 != a)) a = memInit := by
  induction m with
  | nil => rfl
  | cons p r ih =>
    obtain ⟨k, w⟩ := p
    rw [List.filter_cons]
    by_cases hk : k = a
    · rw [if_neg (by simp [hk]), ih]
    · rw [if_pos (by simpa using hk)]
      simp only [mget, if_neg hk, ih]

/-- A byte read where it was written. -/
@[simp] theorem memRd_memWr_self (m : Mem) (a : Nat) (b : Byte) : memRd (memWr m a b) a = b := by
  unfold memWr memRd
  split
  · rename_i h; rw [mget_filter_self, h]
  · simp

/-- A byte read elsewhere. -/
theorem memRd_memWr_ne (m : Mem) {a x : Nat} (b : Byte) (h : x ≠ a) : memRd (memWr m a b) x = memRd m x := by
  unfold memWr memRd
  split
  · exact mget_filter_ne m a x h
  · exact mget_mins_ne _ _ _ h

/-- Bytes below and above a written span. -/
theorem memRd_memWrN_out (bs : List Byte) : ∀ (m : Mem) (a x : Nat), (x < a ∨ a + bs.length ≤ x) → memRd (memWrN m a bs) x = memRd m x := by
  induction bs with
  | nil => intro m a x _; rfl
  | cons b r ih =>
    intro m a x h
    simp only [memWrN]
    rw [ih _ _ _ (by simp at h; omega)]
    exact memRd_memWr_ne m b (by simp at h; omega)

/-- Bytes inside a written span. -/
theorem memRd_memWrN_in (bs : List Byte) : ∀ (m : Mem) (a i : Nat), i < bs.length → memRd (memWrN m a bs) (a + i) = bs.getD i 0 := by
  induction bs with
  | nil => intro m a i h; simp at h
  | cons b r ih =>
    intro m a i h
    simp only [memWrN]
    cases i with
    | zero =>
      rw [Nat.add_zero, memRd_memWrN_out r _ _ _ (Or.inl (by omega))]
      simp
    | succ n =>
      have := ih (memWr m a b) (a + 1) n (by simpa using h)
      rw [show a + (n + 1) = a + 1 + n by omega, this]
      simp

@[simp] theorem memRdN_length (m : Mem) : ∀ (n a : Nat), (memRdN m a n).length = n := by
  intro n
  induction n with
  | zero => intro a; rfl
  | succ n ih => intro a; simp [memRdN, ih]

@[simp] theorem leBytes_length : ∀ (n v : Nat), (leBytes v n).length = n := by
  intro n
  induction n with
  | zero => intro v; rfl
  | succ n ih => intro v; simp [leBytes, ih]

/-- The number that `n` little-endian bytes of a number spell. -/
theorem leVal_leBytes : ∀ (n v : Nat), leVal (leBytes v n) = v % 256 ^ n := by
  intro n
  induction n with
  | zero => intro v; simp [leBytes, leVal, Nat.mod_one]
  | succ n ih =>
    intro v
    have h : (BitVec.ofNat 8 v).toNat = v % 256 := BitVec.toNat_ofNat v 8
    rw [leBytes, leVal, ih, h, Nat.pow_succ, Nat.mul_comm (256 ^ n) 256, Nat.mod_mul]

/-- The same span read back. -/
theorem memRdN_memWrN (bs : List Byte) : ∀ (m : Mem) (a : Nat), memRdN (memWrN m a bs) a bs.length = bs := by
  induction bs with
  | nil => intro m a; rfl
  | cons b r ih =>
    intro m a
    have h0 : memRd (memWrN (memWr m a b) (a + 1) r) a = b := by
      rw [memRd_memWrN_out r _ _ _ (Or.inl (by omega))]; simp
    simp only [List.length_cons, memWrN, memRdN, h0, ih]

/-- The addresses of the tail of a memory lie above the head's. -/
theorem rising_head {c : Host.Cell} {r : Mem} (h : rising (c :: r) = true) : ∀ d ∈ r, c.1 < d.1 := by
  induction r generalizing c with
  | nil => intro d hd; simp at hd
  | cons e r ih =>
    simp only [rising, Bool.and_eq_true, decide_eq_true_eq] at h
    intro d hd
    rcases List.mem_cons.mp hd with rfl | hd
    · exact h.1
    · exact Nat.lt_trans h.1 (ih h.2 d hd)

theorem rising_tail {c : Host.Cell} {r : Mem} (h : rising (c :: r) = true) : rising r = true := by
  cases r with
  | nil => rfl
  | cons e r => simp only [rising, Bool.and_eq_true] at h; exact h.2

theorem rising_cons {c : Host.Cell} {r : Mem} (h : ∀ d ∈ r, c.1 < d.1) (hr : rising r = true) : rising (c :: r) = true := by
  cases r with
  | nil => rfl
  | cons e r =>
    simp only [rising, Bool.and_eq_true, decide_eq_true_eq]
    exact ⟨h e (by simp), hr⟩

theorem rising_filter (p : Host.Cell → Bool) : ∀ (m : Mem), rising m = true → rising (m.filter p) = true := by
  intro m
  induction m with
  | nil => intro _; rfl
  | cons c r ih =>
    intro h
    simp only [List.filter]
    split
    · exact rising_cons (fun d hd => rising_head h d (List.mem_filter.mp hd).1) (ih (rising_tail h))
    · exact ih (rising_tail h)

/-- Dropping cells keeps the canonical form. -/
theorem filter_wf (p : Host.Cell → Bool) {m : Mem} (h : Memory.wf m = true) : Memory.wf (m.filter p) = true := by
  simp only [Memory.wf, Bool.and_eq_true, List.all_eq_true] at *
  exact ⟨rising_filter p m h.1, fun c hc => h.2 c (List.mem_filter.mp hc).1⟩

theorem mem_mins {m : Mem} {a : Nat} {b : Byte} {c : Host.Cell} (h : c ∈ mins m a b) : c = (a, b) ∨ c ∈ m := by
  induction m with
  | nil => simpa [mins] using h
  | cons p r ih =>
    obtain ⟨k, w⟩ := p
    unfold mins at h
    split at h
    · rcases List.mem_cons.mp h with h | h
      · exact .inl h
      · exact .inr h
    · split at h
      · rcases List.mem_cons.mp h with h | h
        · exact .inl h
        · exact .inr (List.mem_cons_of_mem _ h)
      · rcases List.mem_cons.mp h with h | h
        · exact .inr (by simp [h])
        · rcases ih h with h | h
          · exact .inl h
          · exact .inr (List.mem_cons_of_mem _ h)

theorem rising_mins : ∀ (m : Mem) (a : Nat) (b : Byte), rising m = true → rising (mins m a b) = true := by
  intro m
  induction m with
  | nil => intro a b _; rfl
  | cons p r ih =>
    intro a b h
    obtain ⟨k, w⟩ := p
    unfold mins
    split
    · rename_i hlt
      exact rising_cons (fun d hd => by
        rcases List.mem_cons.mp hd with rfl | hd
        · exact hlt
        · exact Nat.lt_trans hlt (rising_head h d hd)) h
    · split
      · rename_i h1 h2
        subst h2
        exact rising_cons (fun d hd => rising_head h d hd) (rising_tail h)
      · rename_i h1 h2
        refine rising_cons (fun d hd => ?_) (ih a b (rising_tail h))
        rcases mem_mins hd with rfl | hd
        · simp; omega
        · exact rising_head h d hd

/-- A write keeps the canonical form. -/
theorem memWr_wf {m : Mem} (a : Nat) (b : Byte) (h : Memory.wf m = true) : Memory.wf (memWr m a b) = true := by
  unfold memWr
  split
  · exact filter_wf _ h
  · rename_i hb
    simp only [Memory.wf, Bool.and_eq_true, List.all_eq_true] at *
    refine ⟨rising_mins m a b h.1, fun c hc => ?_⟩
    rcases mem_mins hc with rfl | hc
    · simpa using hb
    · exact h.2 c hc

/-- Writes of bytes keep the canonical form. -/
theorem memWrN_wf (bs : List Byte) : ∀ {m : Mem} (a : Nat), Memory.wf m = true → Memory.wf (memWrN m a bs) = true := by
  induction bs with
  | nil => intro m a h; exact h
  | cons b r ih => intro m a h; exact ih _ (memWr_wf a b h)

end Sys2Proof.Machine
end

