-- ==== Sys2Proof/Laws/State.lean ====
section
/-! SUPPORT. Laws of the records: what each update leaves in each field. -/

set_option linter.unusedVariables false

namespace Sys2Proof.Machine

/-! The state -/

@[simp] theorem State.onPack_pack (s : State) (h : Pack → Pack) : (s.onPack h).pack = h s.pack := rfl
@[simp] theorem State.onPack_pending (s : State) (h : Pack → Pack) : (s.onPack h).pending = s.pending := rfl
@[simp] theorem State.onPack_eq (s : State) (h : Pack → Pack) : s.onPack h = { s with pack := h s.pack } := rfl

/-! The pack -/

@[simp] theorem Pack.on_mem (s : Pack) (k : Nat) (f : Pkg → Pkg) : (s.on k f).mem = s.mem := rfl
@[simp] theorem Pack.on_flight (s : Pack) (k : Nat) (f : Pkg → Pkg) : (s.on k f).flight = s.flight := rfl
@[simp] theorem Pack.on_wire (s : Pack) (k : Nat) (f : Pkg → Pkg) : (s.on k f).wire = s.wire := rfl
@[simp] theorem Pack.on_fresh (s : Pack) (k : Nat) (f : Pkg → Pkg) : (s.on k f).fresh = s.fresh := rfl

@[simp] theorem Pack.put_mem (s : Pack) (k : Nat) (g : Pkg) : (s.put k g).mem = s.mem := rfl
@[simp] theorem Pack.put_flight (s : Pack) (k : Nat) (g : Pkg) : (s.put k g).flight = s.flight := rfl
@[simp] theorem Pack.put_wire (s : Pack) (k : Nat) (g : Pkg) : (s.put k g).wire = s.wire := rfl
@[simp] theorem Pack.put_fresh (s : Pack) (k : Nat) (g : Pkg) : (s.put k g).fresh = s.fresh := rfl

@[simp] theorem Pack.draw_pkgs (s : Pack) : (s.draw.2).pkgs = s.pkgs := rfl
@[simp] theorem Pack.draw_mem (s : Pack) : (s.draw.2).mem = s.mem := rfl
@[simp] theorem Pack.draw_flight (s : Pack) : (s.draw.2).flight = s.flight := rfl
@[simp] theorem Pack.draw_wire (s : Pack) : (s.draw.2).wire = s.wire := rfl
@[simp] theorem Pack.draw_fresh (s : Pack) : (s.draw.2).fresh = s.fresh + 1 := rfl

@[simp] theorem Pack.store_pkgs (s : Pack) (l : Loc) (bs : List Byte) : (s.store l bs).pkgs = s.pkgs := rfl
@[simp] theorem Pack.store_flight (s : Pack) (l : Loc) (bs : List Byte) : (s.store l bs).flight = s.flight := rfl
@[simp] theorem Pack.store_wire (s : Pack) (l : Loc) (bs : List Byte) : (s.store l bs).wire = s.wire := rfl
@[simp] theorem Pack.store_fresh (s : Pack) (l : Loc) (bs : List Byte) : (s.store l bs).fresh = s.fresh := rfl

@[simp] theorem Pack.draw_val (s : Pack) : s.draw.1 = Config.freeValue s.fresh := rfl

@[simp] theorem Pack.draw_g (s : Pack) (k : Nat) : s.draw.2.g k = s.g k := rfl

@[simp] theorem Pack.store_g (s : Pack) (l : Loc) (bs : List Byte) (k : Nat) : (s.store l bs).g k = s.g k := rfl

/-- The package that was changed. -/
@[simp] theorem Pack.on_g_self (s : Pack) (k : Nat) (f : Pkg → Pkg) : (s.on k f).g k = f (s.g k) := by
  simp [Pack.on, Pack.put, Pack.g]

/-- Any other package. -/
theorem Pack.on_g_ne (s : Pack) {j k : Nat} (f : Pkg → Pkg) (h : j ≠ k) : (s.on k f).g j = s.g j := by
  simp [Pack.on, Pack.put, Pack.g, mget_mins_ne, h]

/-- Two changes of one package. -/
@[simp] theorem Pack.on_on (s : Pack) (k : Nat) (f h : Pkg → Pkg) : (s.on k f).on k h = s.on k (fun g => h (f g)) := by
  simp [Pack.on, Pack.put, Pack.g]

/-- A change by an equal outcome. -/
theorem Pack.on_congr {s : Pack} {k : Nat} {f h : Pkg → Pkg} (e : f (s.g k) = h (s.g k)) : s.on k f = s.on k h := by
  simp [Pack.on, e]

/-! A package -/

@[simp] theorem Pkg.wr_thr (g : Pkg) (a : Nat) (v : W32) : (g.wr a v).thr = g.thr := rfl
@[simp] theorem Pkg.wr_tok (g : Pkg) (a : Nat) (v : W32) : (g.wr a v).tok = g.tok := rfl
@[simp] theorem Pkg.wr_acc (g : Pkg) (a : Nat) (v : W32) : (g.wr a v).acc = g.acc := rfl
@[simp] theorem Pkg.wr_last (g : Pkg) (a : Nat) (v : W32) : (g.wr a v).last = g.last := rfl
@[simp] theorem Pkg.wr_ctab (g : Pkg) (a : Nat) (v : W32) : (g.wr a v).ctab = g.ctab := rfl
@[simp] theorem Pkg.wr_loads (g : Pkg) (a : Nat) (v : W32) : (g.wr a v).loads = g.loads := rfl
@[simp] theorem Pkg.wr_stores (g : Pkg) (a : Nat) (v : W32) : (g.wr a v).stores = g.stores := rfl
@[simp] theorem Pkg.wr_aops (g : Pkg) (a : Nat) (v : W32) : (g.wr a v).aops = g.aops := rfl
@[simp] theorem Pkg.wr_eops (g : Pkg) (a : Nat) (v : W32) : (g.wr a v).eops = g.eops := rfl
@[simp] theorem Pkg.wr_qops (g : Pkg) (a : Nat) (v : W32) : (g.wr a v).qops = g.qops := rfl
@[simp] theorem Pkg.wr_seq (g : Pkg) (a : Nat) (v : W32) : (g.wr a v).seq = g.seq := rfl
@[simp] theorem Pkg.wr_qcopy (g : Pkg) (a : Nat) (v : W32) : (g.wr a v).qcopy = g.qcopy := rfl
@[simp] theorem Pkg.wr_qlast (g : Pkg) (a : Nat) (v : W32) : (g.wr a v).qlast = g.qlast := rfl
@[simp] theorem Pkg.wr_log (g : Pkg) (a : Nat) (v : W32) : (g.wr a v).log = g.log := rfl
@[simp] theorem Pkg.wr_logSeq (g : Pkg) (a : Nat) (v : W32) : (g.wr a v).logSeq = g.logSeq := rfl
@[simp] theorem Pkg.wr_strm (g : Pkg) (a : Nat) (v : W32) : (g.wr a v).strm = g.strm := rfl
@[simp] theorem Pkg.wr_strmPost (g : Pkg) (a : Nat) (v : W32) : (g.wr a v).strmPost = g.strmPost := rfl
@[simp] theorem Pkg.wr_busy (g : Pkg) (a : Nat) (v : W32) : (g.wr a v).busy = g.busy := rfl
@[simp] theorem Pkg.wr_armed (g : Pkg) (a : Nat) (v : W32) : (g.wr a v).armed = g.armed := rfl
@[simp] theorem Pkg.wr_arms (g : Pkg) (a : Nat) (v : W32) : (g.wr a v).arms = g.arms := rfl
@[simp] theorem Pkg.wr_armDone (g : Pkg) (a : Nat) (v : W32) : (g.wr a v).armDone = g.armDone := rfl
@[simp] theorem Pkg.wr_kst (g : Pkg) (a : Nat) (v : W32) : (g.wr a v).kst = g.kst := rfl
@[simp] theorem Pkg.wr_booked (g : Pkg) (a : Nat) (v : W32) : (g.wr a v).booked = g.booked := rfl
@[simp] theorem Pkg.wr_flows (g : Pkg) (a : Nat) (v : W32) : (g.wr a v).flows = g.flows := rfl
@[simp] theorem Pkg.wr_sites (g : Pkg) (a : Nat) (v : W32) : (g.wr a v).sites = g.sites := rfl
@[simp] theorem Pkg.wr_started (g : Pkg) (a : Nat) (v : W32) : (g.wr a v).started = g.started := rfl
@[simp] theorem Pkg.wr_ce (g : Pkg) (a : Nat) (v : W32) : (g.wr a v).ce = g.ce := rfl
@[simp] theorem Pkg.wr_smb (g : Pkg) (a : Nat) (v : W32) : (g.wr a v).smb = g.smb := rfl
@[simp] theorem Pkg.wr_hif (g : Pkg) (a : Nat) (v : W32) : (g.wr a v).hif = g.hif := rfl
@[simp] theorem Pkg.wr_msix (g : Pkg) (a : Nat) (v : W32) : (g.wr a v).msix = g.msix := rfl
@[simp] theorem Pkg.wr_sent (g : Pkg) (a : Nat) (v : W32) : (g.wr a v).sent = g.sent := rfl
@[simp] theorem Pkg.wr_tr (g : Pkg) (a : Nat) (v : W32) : (g.wr a v).tr = g.tr := rfl
@[simp] theorem Pkg.wr_co (g : Pkg) (a : Nat) (v : W32) : (g.wr a v).co = g.co := rfl
@[simp] theorem Pkg.wr_ld (g : Pkg) (a : Nat) (v : W32) : (g.wr a v).ld = g.ld := rfl
@[simp] theorem Pkg.wr_pr (g : Pkg) (a : Nat) (v : W32) : (g.wr a v).pr = g.pr := rfl
@[simp] theorem Pkg.wr_sk (g : Pkg) (a : Nat) (v : W32) : (g.wr a v).sk = g.sk := rfl
@[simp] theorem Pkg.wr_net (g : Pkg) (a : Nat) (v : W32) : (g.wr a v).net = g.net := rfl
@[simp] theorem Pkg.wr_links (g : Pkg) (a : Nat) (v : W32) : (g.wr a v).links = g.links := rfl
@[simp] theorem Pkg.wr_arun (g : Pkg) (a : Nat) (v : W32) : (g.wr a v).arun = g.arun := rfl
@[simp] theorem Pkg.wr_pw (g : Pkg) (a : Nat) (v : W32) : (g.wr a v).pw = g.pw := rfl
@[simp] theorem Pkg.wr_hk (g : Pkg) (a : Nat) (v : W32) : (g.wr a v).hk = g.hk := rfl
@[simp] theorem Pkg.wr_fz (g : Pkg) (a : Nat) (v : W32) : (g.wr a v).fz = g.fz := rfl
@[simp] theorem Pkg.wr_fw (g : Pkg) (a : Nat) (v : W32) : (g.wr a v).fw = g.fw := rfl
@[simp] theorem Pkg.wr_accq (g : Pkg) (a : Nat) (v : W32) : (g.wr a v).accq = g.accq := rfl
@[simp] theorem Pkg.wr_posts (g : Pkg) (a : Nat) (v : W32) : (g.wr a v).posts = g.posts := rfl
@[simp] theorem Pkg.wr_straps (g : Pkg) (a : Nat) (v : W32) : (g.wr a v).straps = g.straps := rfl

@[simp] theorem Pkg.setTh_regs (g : Pkg) (t : Tid) (x : Thread) : (g.setTh t x).regs = g.regs := rfl
@[simp] theorem Pkg.setTh_tok (g : Pkg) (t : Tid) (x : Thread) : (g.setTh t x).tok = g.tok := rfl
@[simp] theorem Pkg.setTh_acc (g : Pkg) (t : Tid) (x : Thread) : (g.setTh t x).acc = g.acc := rfl
@[simp] theorem Pkg.setTh_last (g : Pkg) (t : Tid) (x : Thread) : (g.setTh t x).last = g.last := rfl
@[simp] theorem Pkg.setTh_ctab (g : Pkg) (t : Tid) (x : Thread) : (g.setTh t x).ctab = g.ctab := rfl
@[simp] theorem Pkg.setTh_loads (g : Pkg) (t : Tid) (x : Thread) : (g.setTh t x).loads = g.loads := rfl
@[simp] theorem Pkg.setTh_stores (g : Pkg) (t : Tid) (x : Thread) : (g.setTh t x).stores = g.stores := rfl
@[simp] theorem Pkg.setTh_aops (g : Pkg) (t : Tid) (x : Thread) : (g.setTh t x).aops = g.aops := rfl
@[simp] theorem Pkg.setTh_eops (g : Pkg) (t : Tid) (x : Thread) : (g.setTh t x).eops = g.eops := rfl
@[simp] theorem Pkg.setTh_qops (g : Pkg) (t : Tid) (x : Thread) : (g.setTh t x).qops = g.qops := rfl
@[simp] theorem Pkg.setTh_seq (g : Pkg) (t : Tid) (x : Thread) : (g.setTh t x).seq = g.seq := rfl
@[simp] theorem Pkg.setTh_qcopy (g : Pkg) (t : Tid) (x : Thread) : (g.setTh t x).qcopy = g.qcopy := rfl
@[simp] theorem Pkg.setTh_qlast (g : Pkg) (t : Tid) (x : Thread) : (g.setTh t x).qlast = g.qlast := rfl
@[simp] theorem Pkg.setTh_log (g : Pkg) (t : Tid) (x : Thread) : (g.setTh t x).log = g.log := rfl
@[simp] theorem Pkg.setTh_logSeq (g : Pkg) (t : Tid) (x : Thread) : (g.setTh t x).logSeq = g.logSeq := rfl
@[simp] theorem Pkg.setTh_strm (g : Pkg) (t : Tid) (x : Thread) : (g.setTh t x).strm = g.strm := rfl
@[simp] theorem Pkg.setTh_strmPost (g : Pkg) (t : Tid) (x : Thread) : (g.setTh t x).strmPost = g.strmPost := rfl
@[simp] theorem Pkg.setTh_busy (g : Pkg) (t : Tid) (x : Thread) : (g.setTh t x).busy = g.busy := rfl
@[simp] theorem Pkg.setTh_armed (g : Pkg) (t : Tid) (x : Thread) : (g.setTh t x).armed = g.armed := rfl
@[simp] theorem Pkg.setTh_arms (g : Pkg) (t : Tid) (x : Thread) : (g.setTh t x).arms = g.arms := rfl
@[simp] theorem Pkg.setTh_armDone (g : Pkg) (t : Tid) (x : Thread) : (g.setTh t x).armDone = g.armDone := rfl
@[simp] theorem Pkg.setTh_kst (g : Pkg) (t : Tid) (x : Thread) : (g.setTh t x).kst = g.kst := rfl
@[simp] theorem Pkg.setTh_booked (g : Pkg) (t : Tid) (x : Thread) : (g.setTh t x).booked = g.booked := rfl
@[simp] theorem Pkg.setTh_flows (g : Pkg) (t : Tid) (x : Thread) : (g.setTh t x).flows = g.flows := rfl
@[simp] theorem Pkg.setTh_sites (g : Pkg) (t : Tid) (x : Thread) : (g.setTh t x).sites = g.sites := rfl
@[simp] theorem Pkg.setTh_started (g : Pkg) (t : Tid) (x : Thread) : (g.setTh t x).started = g.started := rfl
@[simp] theorem Pkg.setTh_ce (g : Pkg) (t : Tid) (x : Thread) : (g.setTh t x).ce = g.ce := rfl
@[simp] theorem Pkg.setTh_smb (g : Pkg) (t : Tid) (x : Thread) : (g.setTh t x).smb = g.smb := rfl
@[simp] theorem Pkg.setTh_hif (g : Pkg) (t : Tid) (x : Thread) : (g.setTh t x).hif = g.hif := rfl
@[simp] theorem Pkg.setTh_msix (g : Pkg) (t : Tid) (x : Thread) : (g.setTh t x).msix = g.msix := rfl
@[simp] theorem Pkg.setTh_sent (g : Pkg) (t : Tid) (x : Thread) : (g.setTh t x).sent = g.sent := rfl
@[simp] theorem Pkg.setTh_tr (g : Pkg) (t : Tid) (x : Thread) : (g.setTh t x).tr = g.tr := rfl
@[simp] theorem Pkg.setTh_co (g : Pkg) (t : Tid) (x : Thread) : (g.setTh t x).co = g.co := rfl
@[simp] theorem Pkg.setTh_ld (g : Pkg) (t : Tid) (x : Thread) : (g.setTh t x).ld = g.ld := rfl
@[simp] theorem Pkg.setTh_pr (g : Pkg) (t : Tid) (x : Thread) : (g.setTh t x).pr = g.pr := rfl
@[simp] theorem Pkg.setTh_sk (g : Pkg) (t : Tid) (x : Thread) : (g.setTh t x).sk = g.sk := rfl
@[simp] theorem Pkg.setTh_net (g : Pkg) (t : Tid) (x : Thread) : (g.setTh t x).net = g.net := rfl
@[simp] theorem Pkg.setTh_links (g : Pkg) (t : Tid) (x : Thread) : (g.setTh t x).links = g.links := rfl
@[simp] theorem Pkg.setTh_arun (g : Pkg) (t : Tid) (x : Thread) : (g.setTh t x).arun = g.arun := rfl
@[simp] theorem Pkg.setTh_pw (g : Pkg) (t : Tid) (x : Thread) : (g.setTh t x).pw = g.pw := rfl
@[simp] theorem Pkg.setTh_hk (g : Pkg) (t : Tid) (x : Thread) : (g.setTh t x).hk = g.hk := rfl
@[simp] theorem Pkg.setTh_fz (g : Pkg) (t : Tid) (x : Thread) : (g.setTh t x).fz = g.fz := rfl
@[simp] theorem Pkg.setTh_fw (g : Pkg) (t : Tid) (x : Thread) : (g.setTh t x).fw = g.fw := rfl
@[simp] theorem Pkg.setTh_accq (g : Pkg) (t : Tid) (x : Thread) : (g.setTh t x).accq = g.accq := rfl
@[simp] theorem Pkg.setTh_posts (g : Pkg) (t : Tid) (x : Thread) : (g.setTh t x).posts = g.posts := rfl
@[simp] theorem Pkg.setTh_straps (g : Pkg) (t : Tid) (x : Thread) : (g.setTh t x).straps = g.straps := rfl

@[simp] theorem Pkg.onTh_regs (g : Pkg) (t : Tid) (f : Thread → Thread) : (g.onTh t f).regs = g.regs := rfl
@[simp] theorem Pkg.onTh_tok (g : Pkg) (t : Tid) (f : Thread → Thread) : (g.onTh t f).tok = g.tok := rfl
@[simp] theorem Pkg.onTh_acc (g : Pkg) (t : Tid) (f : Thread → Thread) : (g.onTh t f).acc = g.acc := rfl
@[simp] theorem Pkg.onTh_last (g : Pkg) (t : Tid) (f : Thread → Thread) : (g.onTh t f).last = g.last := rfl
@[simp] theorem Pkg.onTh_ctab (g : Pkg) (t : Tid) (f : Thread → Thread) : (g.onTh t f).ctab = g.ctab := rfl
@[simp] theorem Pkg.onTh_loads (g : Pkg) (t : Tid) (f : Thread → Thread) : (g.onTh t f).loads = g.loads := rfl
@[simp] theorem Pkg.onTh_stores (g : Pkg) (t : Tid) (f : Thread → Thread) : (g.onTh t f).stores = g.stores := rfl
@[simp] theorem Pkg.onTh_aops (g : Pkg) (t : Tid) (f : Thread → Thread) : (g.onTh t f).aops = g.aops := rfl
@[simp] theorem Pkg.onTh_eops (g : Pkg) (t : Tid) (f : Thread → Thread) : (g.onTh t f).eops = g.eops := rfl
@[simp] theorem Pkg.onTh_qops (g : Pkg) (t : Tid) (f : Thread → Thread) : (g.onTh t f).qops = g.qops := rfl
@[simp] theorem Pkg.onTh_seq (g : Pkg) (t : Tid) (f : Thread → Thread) : (g.onTh t f).seq = g.seq := rfl
@[simp] theorem Pkg.onTh_qcopy (g : Pkg) (t : Tid) (f : Thread → Thread) : (g.onTh t f).qcopy = g.qcopy := rfl
@[simp] theorem Pkg.onTh_qlast (g : Pkg) (t : Tid) (f : Thread → Thread) : (g.onTh t f).qlast = g.qlast := rfl
@[simp] theorem Pkg.onTh_log (g : Pkg) (t : Tid) (f : Thread → Thread) : (g.onTh t f).log = g.log := rfl
@[simp] theorem Pkg.onTh_logSeq (g : Pkg) (t : Tid) (f : Thread → Thread) : (g.onTh t f).logSeq = g.logSeq := rfl
@[simp] theorem Pkg.onTh_strm (g : Pkg) (t : Tid) (f : Thread → Thread) : (g.onTh t f).strm = g.strm := rfl
@[simp] theorem Pkg.onTh_strmPost (g : Pkg) (t : Tid) (f : Thread → Thread) : (g.onTh t f).strmPost = g.strmPost := rfl
@[simp] theorem Pkg.onTh_busy (g : Pkg) (t : Tid) (f : Thread → Thread) : (g.onTh t f).busy = g.busy := rfl
@[simp] theorem Pkg.onTh_armed (g : Pkg) (t : Tid) (f : Thread → Thread) : (g.onTh t f).armed = g.armed := rfl
@[simp] theorem Pkg.onTh_arms (g : Pkg) (t : Tid) (f : Thread → Thread) : (g.onTh t f).arms = g.arms := rfl
@[simp] theorem Pkg.onTh_armDone (g : Pkg) (t : Tid) (f : Thread → Thread) : (g.onTh t f).armDone = g.armDone := rfl
@[simp] theorem Pkg.onTh_kst (g : Pkg) (t : Tid) (f : Thread → Thread) : (g.onTh t f).kst = g.kst := rfl
@[simp] theorem Pkg.onTh_booked (g : Pkg) (t : Tid) (f : Thread → Thread) : (g.onTh t f).booked = g.booked := rfl
@[simp] theorem Pkg.onTh_flows (g : Pkg) (t : Tid) (f : Thread → Thread) : (g.onTh t f).flows = g.flows := rfl
@[simp] theorem Pkg.onTh_sites (g : Pkg) (t : Tid) (f : Thread → Thread) : (g.onTh t f).sites = g.sites := rfl
@[simp] theorem Pkg.onTh_started (g : Pkg) (t : Tid) (f : Thread → Thread) : (g.onTh t f).started = g.started := rfl
@[simp] theorem Pkg.onTh_ce (g : Pkg) (t : Tid) (f : Thread → Thread) : (g.onTh t f).ce = g.ce := rfl
@[simp] theorem Pkg.onTh_smb (g : Pkg) (t : Tid) (f : Thread → Thread) : (g.onTh t f).smb = g.smb := rfl
@[simp] theorem Pkg.onTh_hif (g : Pkg) (t : Tid) (f : Thread → Thread) : (g.onTh t f).hif = g.hif := rfl
@[simp] theorem Pkg.onTh_msix (g : Pkg) (t : Tid) (f : Thread → Thread) : (g.onTh t f).msix = g.msix := rfl
@[simp] theorem Pkg.onTh_sent (g : Pkg) (t : Tid) (f : Thread → Thread) : (g.onTh t f).sent = g.sent := rfl
@[simp] theorem Pkg.onTh_tr (g : Pkg) (t : Tid) (f : Thread → Thread) : (g.onTh t f).tr = g.tr := rfl
@[simp] theorem Pkg.onTh_co (g : Pkg) (t : Tid) (f : Thread → Thread) : (g.onTh t f).co = g.co := rfl
@[simp] theorem Pkg.onTh_ld (g : Pkg) (t : Tid) (f : Thread → Thread) : (g.onTh t f).ld = g.ld := rfl
@[simp] theorem Pkg.onTh_pr (g : Pkg) (t : Tid) (f : Thread → Thread) : (g.onTh t f).pr = g.pr := rfl
@[simp] theorem Pkg.onTh_sk (g : Pkg) (t : Tid) (f : Thread → Thread) : (g.onTh t f).sk = g.sk := rfl
@[simp] theorem Pkg.onTh_net (g : Pkg) (t : Tid) (f : Thread → Thread) : (g.onTh t f).net = g.net := rfl
@[simp] theorem Pkg.onTh_links (g : Pkg) (t : Tid) (f : Thread → Thread) : (g.onTh t f).links = g.links := rfl
@[simp] theorem Pkg.onTh_arun (g : Pkg) (t : Tid) (f : Thread → Thread) : (g.onTh t f).arun = g.arun := rfl
@[simp] theorem Pkg.onTh_pw (g : Pkg) (t : Tid) (f : Thread → Thread) : (g.onTh t f).pw = g.pw := rfl
@[simp] theorem Pkg.onTh_hk (g : Pkg) (t : Tid) (f : Thread → Thread) : (g.onTh t f).hk = g.hk := rfl
@[simp] theorem Pkg.onTh_fz (g : Pkg) (t : Tid) (f : Thread → Thread) : (g.onTh t f).fz = g.fz := rfl
@[simp] theorem Pkg.onTh_fw (g : Pkg) (t : Tid) (f : Thread → Thread) : (g.onTh t f).fw = g.fw := rfl
@[simp] theorem Pkg.onTh_accq (g : Pkg) (t : Tid) (f : Thread → Thread) : (g.onTh t f).accq = g.accq := rfl
@[simp] theorem Pkg.onTh_posts (g : Pkg) (t : Tid) (f : Thread → Thread) : (g.onTh t f).posts = g.posts := rfl
@[simp] theorem Pkg.onTh_straps (g : Pkg) (t : Tid) (f : Thread → Thread) : (g.onTh t f).straps = g.straps := rfl

@[simp] theorem Pkg.issued_regs (g : Pkg) (t : Tid) : (g.issued t).regs = g.regs := rfl
@[simp] theorem Pkg.issued_thr (g : Pkg) (t : Tid) : (g.issued t).thr = g.thr := rfl
@[simp] theorem Pkg.issued_tok (g : Pkg) (t : Tid) : (g.issued t).tok = g.tok := rfl
@[simp] theorem Pkg.issued_acc (g : Pkg) (t : Tid) : (g.issued t).acc = g.acc := rfl
@[simp] theorem Pkg.issued_ctab (g : Pkg) (t : Tid) : (g.issued t).ctab = g.ctab := rfl
@[simp] theorem Pkg.issued_loads (g : Pkg) (t : Tid) : (g.issued t).loads = g.loads := rfl
@[simp] theorem Pkg.issued_stores (g : Pkg) (t : Tid) : (g.issued t).stores = g.stores := rfl
@[simp] theorem Pkg.issued_aops (g : Pkg) (t : Tid) : (g.issued t).aops = g.aops := rfl
@[simp] theorem Pkg.issued_eops (g : Pkg) (t : Tid) : (g.issued t).eops = g.eops := rfl
@[simp] theorem Pkg.issued_qops (g : Pkg) (t : Tid) : (g.issued t).qops = g.qops := rfl
@[simp] theorem Pkg.issued_seq (g : Pkg) (t : Tid) : (g.issued t).seq = g.seq + 1 := rfl
@[simp] theorem Pkg.issued_qcopy (g : Pkg) (t : Tid) : (g.issued t).qcopy = g.qcopy := rfl
@[simp] theorem Pkg.issued_qlast (g : Pkg) (t : Tid) : (g.issued t).qlast = g.qlast := rfl
@[simp] theorem Pkg.issued_log (g : Pkg) (t : Tid) : (g.issued t).log = g.log := rfl
@[simp] theorem Pkg.issued_logSeq (g : Pkg) (t : Tid) : (g.issued t).logSeq = g.logSeq := rfl
@[simp] theorem Pkg.issued_strm (g : Pkg) (t : Tid) : (g.issued t).strm = g.strm := rfl
@[simp] theorem Pkg.issued_strmPost (g : Pkg) (t : Tid) : (g.issued t).strmPost = g.strmPost := rfl
@[simp] theorem Pkg.issued_busy (g : Pkg) (t : Tid) : (g.issued t).busy = g.busy := rfl
@[simp] theorem Pkg.issued_armed (g : Pkg) (t : Tid) : (g.issued t).armed = g.armed := rfl
@[simp] theorem Pkg.issued_arms (g : Pkg) (t : Tid) : (g.issued t).arms = g.arms := rfl
@[simp] theorem Pkg.issued_armDone (g : Pkg) (t : Tid) : (g.issued t).armDone = g.armDone := rfl
@[simp] theorem Pkg.issued_kst (g : Pkg) (t : Tid) : (g.issued t).kst = g.kst := rfl
@[simp] theorem Pkg.issued_booked (g : Pkg) (t : Tid) : (g.issued t).booked = g.booked := rfl
@[simp] theorem Pkg.issued_flows (g : Pkg) (t : Tid) : (g.issued t).flows = g.flows := rfl
@[simp] theorem Pkg.issued_sites (g : Pkg) (t : Tid) : (g.issued t).sites = g.sites := rfl
@[simp] theorem Pkg.issued_started (g : Pkg) (t : Tid) : (g.issued t).started = g.started := rfl
@[simp] theorem Pkg.issued_ce (g : Pkg) (t : Tid) : (g.issued t).ce = g.ce := rfl
@[simp] theorem Pkg.issued_smb (g : Pkg) (t : Tid) : (g.issued t).smb = g.smb := rfl
@[simp] theorem Pkg.issued_hif (g : Pkg) (t : Tid) : (g.issued t).hif = g.hif := rfl
@[simp] theorem Pkg.issued_msix (g : Pkg) (t : Tid) : (g.issued t).msix = g.msix := rfl
@[simp] theorem Pkg.issued_sent (g : Pkg) (t : Tid) : (g.issued t).sent = g.sent := rfl
@[simp] theorem Pkg.issued_tr (g : Pkg) (t : Tid) : (g.issued t).tr = g.tr := rfl
@[simp] theorem Pkg.issued_co (g : Pkg) (t : Tid) : (g.issued t).co = g.co := rfl
@[simp] theorem Pkg.issued_ld (g : Pkg) (t : Tid) : (g.issued t).ld = g.ld := rfl
@[simp] theorem Pkg.issued_pr (g : Pkg) (t : Tid) : (g.issued t).pr = g.pr := rfl
@[simp] theorem Pkg.issued_sk (g : Pkg) (t : Tid) : (g.issued t).sk = g.sk := rfl
@[simp] theorem Pkg.issued_net (g : Pkg) (t : Tid) : (g.issued t).net = g.net := rfl
@[simp] theorem Pkg.issued_links (g : Pkg) (t : Tid) : (g.issued t).links = g.links := rfl
@[simp] theorem Pkg.issued_pw (g : Pkg) (t : Tid) : (g.issued t).pw = g.pw := rfl
@[simp] theorem Pkg.issued_hk (g : Pkg) (t : Tid) : (g.issued t).hk = g.hk := rfl
@[simp] theorem Pkg.issued_fz (g : Pkg) (t : Tid) : (g.issued t).fz = g.fz := rfl
@[simp] theorem Pkg.issued_fw (g : Pkg) (t : Tid) : (g.issued t).fw = g.fw := rfl
@[simp] theorem Pkg.issued_accq (g : Pkg) (t : Tid) : (g.issued t).accq = g.accq := rfl
@[simp] theorem Pkg.issued_posts (g : Pkg) (t : Tid) : (g.issued t).posts = g.posts := rfl
@[simp] theorem Pkg.issued_straps (g : Pkg) (t : Tid) : (g.issued t).straps = g.straps := rfl

@[simp] theorem Pkg.setTk_regs (g : Pkg) (site u c : Nat) (x : Tok) : (g.setTk site u c x).regs = g.regs := rfl
@[simp] theorem Pkg.setTk_thr (g : Pkg) (site u c : Nat) (x : Tok) : (g.setTk site u c x).thr = g.thr := rfl
@[simp] theorem Pkg.setTk_acc (g : Pkg) (site u c : Nat) (x : Tok) : (g.setTk site u c x).acc = g.acc := rfl
@[simp] theorem Pkg.setTk_last (g : Pkg) (site u c : Nat) (x : Tok) : (g.setTk site u c x).last = g.last := rfl
@[simp] theorem Pkg.setTk_ctab (g : Pkg) (site u c : Nat) (x : Tok) : (g.setTk site u c x).ctab = g.ctab := rfl
@[simp] theorem Pkg.setTk_loads (g : Pkg) (site u c : Nat) (x : Tok) : (g.setTk site u c x).loads = g.loads := rfl
@[simp] theorem Pkg.setTk_stores (g : Pkg) (site u c : Nat) (x : Tok) : (g.setTk site u c x).stores = g.stores := rfl
@[simp] theorem Pkg.setTk_aops (g : Pkg) (site u c : Nat) (x : Tok) : (g.setTk site u c x).aops = g.aops := rfl
@[simp] theorem Pkg.setTk_eops (g : Pkg) (site u c : Nat) (x : Tok) : (g.setTk site u c x).eops = g.eops := rfl
@[simp] theorem Pkg.setTk_qops (g : Pkg) (site u c : Nat) (x : Tok) : (g.setTk site u c x).qops = g.qops := rfl
@[simp] theorem Pkg.setTk_seq (g : Pkg) (site u c : Nat) (x : Tok) : (g.setTk site u c x).seq = g.seq := rfl
@[simp] theorem Pkg.setTk_qcopy (g : Pkg) (site u c : Nat) (x : Tok) : (g.setTk site u c x).qcopy = g.qcopy := rfl
@[simp] theorem Pkg.setTk_qlast (g : Pkg) (site u c : Nat) (x : Tok) : (g.setTk site u c x).qlast = g.qlast := rfl
@[simp] theorem Pkg.setTk_log (g : Pkg) (site u c : Nat) (x : Tok) : (g.setTk site u c x).log = g.log := rfl
@[simp] theorem Pkg.setTk_logSeq (g : Pkg) (site u c : Nat) (x : Tok) : (g.setTk site u c x).logSeq = g.logSeq := rfl
@[simp] theorem Pkg.setTk_strm (g : Pkg) (site u c : Nat) (x : Tok) : (g.setTk site u c x).strm = g.strm := rfl
@[simp] theorem Pkg.setTk_strmPost (g : Pkg) (site u c : Nat) (x : Tok) : (g.setTk site u c x).strmPost = g.strmPost := rfl
@[simp] theorem Pkg.setTk_busy (g : Pkg) (site u c : Nat) (x : Tok) : (g.setTk site u c x).busy = g.busy := rfl
@[simp] theorem Pkg.setTk_armed (g : Pkg) (site u c : Nat) (x : Tok) : (g.setTk site u c x).armed = g.armed := rfl
@[simp] theorem Pkg.setTk_arms (g : Pkg) (site u c : Nat) (x : Tok) : (g.setTk site u c x).arms = g.arms := rfl
@[simp] theorem Pkg.setTk_armDone (g : Pkg) (site u c : Nat) (x : Tok) : (g.setTk site u c x).armDone = g.armDone := rfl
@[simp] theorem Pkg.setTk_kst (g : Pkg) (site u c : Nat) (x : Tok) : (g.setTk site u c x).kst = g.kst := rfl
@[simp] theorem Pkg.setTk_booked (g : Pkg) (site u c : Nat) (x : Tok) : (g.setTk site u c x).booked = g.booked := rfl
@[simp] theorem Pkg.setTk_flows (g : Pkg) (site u c : Nat) (x : Tok) : (g.setTk site u c x).flows = g.flows := rfl
@[simp] theorem Pkg.setTk_sites (g : Pkg) (site u c : Nat) (x : Tok) : (g.setTk site u c x).sites = g.sites := rfl
@[simp] theorem Pkg.setTk_started (g : Pkg) (site u c : Nat) (x : Tok) : (g.setTk site u c x).started = g.started := rfl
@[simp] theorem Pkg.setTk_ce (g : Pkg) (site u c : Nat) (x : Tok) : (g.setTk site u c x).ce = g.ce := rfl
@[simp] theorem Pkg.setTk_smb (g : Pkg) (site u c : Nat) (x : Tok) : (g.setTk site u c x).smb = g.smb := rfl
@[simp] theorem Pkg.setTk_hif (g : Pkg) (site u c : Nat) (x : Tok) : (g.setTk site u c x).hif = g.hif := rfl
@[simp] theorem Pkg.setTk_msix (g : Pkg) (site u c : Nat) (x : Tok) : (g.setTk site u c x).msix = g.msix := rfl
@[simp] theorem Pkg.setTk_sent (g : Pkg) (site u c : Nat) (x : Tok) : (g.setTk site u c x).sent = g.sent := rfl
@[simp] theorem Pkg.setTk_tr (g : Pkg) (site u c : Nat) (x : Tok) : (g.setTk site u c x).tr = g.tr := rfl
@[simp] theorem Pkg.setTk_co (g : Pkg) (site u c : Nat) (x : Tok) : (g.setTk site u c x).co = g.co := rfl
@[simp] theorem Pkg.setTk_ld (g : Pkg) (site u c : Nat) (x : Tok) : (g.setTk site u c x).ld = g.ld := rfl
@[simp] theorem Pkg.setTk_pr (g : Pkg) (site u c : Nat) (x : Tok) : (g.setTk site u c x).pr = g.pr := rfl
@[simp] theorem Pkg.setTk_sk (g : Pkg) (site u c : Nat) (x : Tok) : (g.setTk site u c x).sk = g.sk := rfl
@[simp] theorem Pkg.setTk_net (g : Pkg) (site u c : Nat) (x : Tok) : (g.setTk site u c x).net = g.net := rfl
@[simp] theorem Pkg.setTk_links (g : Pkg) (site u c : Nat) (x : Tok) : (g.setTk site u c x).links = g.links := rfl
@[simp] theorem Pkg.setTk_arun (g : Pkg) (site u c : Nat) (x : Tok) : (g.setTk site u c x).arun = g.arun := rfl
@[simp] theorem Pkg.setTk_pw (g : Pkg) (site u c : Nat) (x : Tok) : (g.setTk site u c x).pw = g.pw := rfl
@[simp] theorem Pkg.setTk_hk (g : Pkg) (site u c : Nat) (x : Tok) : (g.setTk site u c x).hk = g.hk := rfl
@[simp] theorem Pkg.setTk_fz (g : Pkg) (site u c : Nat) (x : Tok) : (g.setTk site u c x).fz = g.fz := rfl
@[simp] theorem Pkg.setTk_fw (g : Pkg) (site u c : Nat) (x : Tok) : (g.setTk site u c x).fw = g.fw := rfl
@[simp] theorem Pkg.setTk_accq (g : Pkg) (site u c : Nat) (x : Tok) : (g.setTk site u c x).accq = g.accq := rfl
@[simp] theorem Pkg.setTk_posts (g : Pkg) (site u c : Nat) (x : Tok) : (g.setTk site u c x).posts = g.posts := rfl
@[simp] theorem Pkg.setTk_straps (g : Pkg) (site u c : Nat) (x : Tok) : (g.setTk site u c x).straps = g.straps := rfl

/-- A register read where it was written. -/
@[simp] theorem Pkg.wr_rd_self (g : Pkg) (a : Nat) (v : W32) : (g.wr a v).rd a = v := by
  simp [Pkg.wr, Pkg.rd]

/-- Any other register. -/
theorem Pkg.wr_rd_ne (g : Pkg) {a b : Nat} (v : W32) (h : b ≠ a) : (g.wr a v).rd b = g.rd b := by
  simp [Pkg.wr, Pkg.rd, mget_mins_ne, h]

@[simp] theorem Pkg.setTh_rd (g : Pkg) (t : Tid) (x : Thread) (a : Nat) : (g.setTh t x).rd a = g.rd a := rfl
@[simp] theorem Pkg.onTh_rd (g : Pkg) (t : Tid) (f : Thread → Thread) (a : Nat) : (g.onTh t f).rd a = g.rd a := rfl
@[simp] theorem Pkg.issued_rd (g : Pkg) (t : Tid) (a : Nat) : (g.issued t).rd a = g.rd a := rfl
@[simp] theorem Pkg.issued_th (g : Pkg) (t u : Tid) : (g.issued t).th u = g.th u := rfl

/-- The thread that was replaced. -/
@[simp] theorem Pkg.setTh_th_self (g : Pkg) (t : Tid) (x : Thread) : (g.setTh t x).th t = x := by
  simp [Pkg.setTh, Pkg.th]

/-- Any other thread. -/
theorem Pkg.setTh_th_ne (g : Pkg) {t u : Tid} (x : Thread) (h : u.key ≠ t.key) : (g.setTh t x).th u = g.th u := by
  simp [Pkg.setTh, Pkg.th, mget_mins_ne, h]

@[simp] theorem Pkg.setTh_setTh (g : Pkg) (t : Tid) (x y : Thread) : (g.setTh t x).setTh t y = g.setTh t y := by
  simp [Pkg.setTh]

theorem Pkg.onTh_eq (g : Pkg) (t : Tid) (f : Thread → Thread) : g.onTh t f = g.setTh t (f (g.th t)) := rfl

/-- A token counter read where it was written. -/
@[simp] theorem Pkg.setTk_tk_self (g : Pkg) (site u c : Nat) (x : Tok) : (g.setTk site u c x).tk site u c = x := by
  simp [Pkg.setTk, Pkg.tk]

/-! A thread -/

@[simp] theorem Thread.setS_st (x : Thread) (i : Nat) (v : Word) : (x.setS i v).st = x.st := rfl
@[simp] theorem Thread.setS_pc (x : Thread) (i : Nat) (v : Word) : (x.setS i v).pc = x.pc := rfl
@[simp] theorem Thread.setS_tiles (x : Thread) (i : Nat) (v : Word) : (x.setS i v).tiles = x.tiles := rfl
@[simp] theorem Thread.setS_preds (x : Thread) (i : Nat) (v : Word) : (x.setS i v).preds = x.preds := rfl
@[simp] theorem Thread.setS_sstat (x : Thread) (i : Nat) (v : Word) : (x.setS i v).sstat = x.sstat := rfl
@[simp] theorem Thread.setS_cause (x : Thread) (i : Nat) (v : Word) : (x.setS i v).cause = x.cause := rfl
@[simp] theorem Thread.setS_fpc (x : Thread) (i : Nat) (v : Word) : (x.setS i v).fpc = x.fpc := rfl
@[simp] theorem Thread.setS_faddr (x : Thread) (i : Nat) (v : Word) : (x.setS i v).faddr = x.faddr := rfl
@[simp] theorem Thread.setS_prio (x : Thread) (i : Nat) (v : Word) : (x.setS i v).prio = x.prio := rfl
@[simp] theorem Thread.setS_theh (x : Thread) (i : Nat) (v : Word) : (x.setS i v).theh = x.theh := rfl
@[simp] theorem Thread.setS_wait (x : Thread) (i : Nat) (v : Word) : (x.setS i v).wait = x.wait := rfl
@[simp] theorem Thread.setS_wseq (x : Thread) (i : Nat) (v : Word) : (x.setS i v).wseq = x.wseq := rfl

@[simp] theorem Thread.setTd_st (x : Thread) (i : Nat) (d : Tile) : (x.setTd i d).st = x.st := rfl
@[simp] theorem Thread.setTd_pc (x : Thread) (i : Nat) (d : Tile) : (x.setTd i d).pc = x.pc := rfl
@[simp] theorem Thread.setTd_regs (x : Thread) (i : Nat) (d : Tile) : (x.setTd i d).regs = x.regs := rfl
@[simp] theorem Thread.setTd_preds (x : Thread) (i : Nat) (d : Tile) : (x.setTd i d).preds = x.preds := rfl
@[simp] theorem Thread.setTd_sstat (x : Thread) (i : Nat) (d : Tile) : (x.setTd i d).sstat = x.sstat := rfl
@[simp] theorem Thread.setTd_cause (x : Thread) (i : Nat) (d : Tile) : (x.setTd i d).cause = x.cause := rfl
@[simp] theorem Thread.setTd_fpc (x : Thread) (i : Nat) (d : Tile) : (x.setTd i d).fpc = x.fpc := rfl
@[simp] theorem Thread.setTd_faddr (x : Thread) (i : Nat) (d : Tile) : (x.setTd i d).faddr = x.faddr := rfl
@[simp] theorem Thread.setTd_prio (x : Thread) (i : Nat) (d : Tile) : (x.setTd i d).prio = x.prio := rfl
@[simp] theorem Thread.setTd_theh (x : Thread) (i : Nat) (d : Tile) : (x.setTd i d).theh = x.theh := rfl
@[simp] theorem Thread.setTd_wait (x : Thread) (i : Nat) (d : Tile) : (x.setTd i d).wait = x.wait := rfl
@[simp] theorem Thread.setTd_wseq (x : Thread) (i : Nat) (d : Tile) : (x.setTd i d).wseq = x.wseq := rfl

@[simp] theorem Thread.go_st (x : Thread) (pc : BitVec 16) : (x.go pc).st = .ready := rfl
@[simp] theorem Thread.go_pc (x : Thread) (pc : BitVec 16) : (x.go pc).pc = pc := rfl
@[simp] theorem Thread.go_regs (x : Thread) (pc : BitVec 16) : (x.go pc).regs = x.regs := rfl
@[simp] theorem Thread.go_tiles (x : Thread) (pc : BitVec 16) : (x.go pc).tiles = x.tiles := rfl
@[simp] theorem Thread.go_preds (x : Thread) (pc : BitVec 16) : (x.go pc).preds = x.preds := rfl
@[simp] theorem Thread.go_sstat (x : Thread) (pc : BitVec 16) : (x.go pc).sstat = x.sstat := rfl
@[simp] theorem Thread.go_cause (x : Thread) (pc : BitVec 16) : (x.go pc).cause = x.cause := rfl
@[simp] theorem Thread.go_fpc (x : Thread) (pc : BitVec 16) : (x.go pc).fpc = x.fpc := rfl
@[simp] theorem Thread.go_faddr (x : Thread) (pc : BitVec 16) : (x.go pc).faddr = x.faddr := rfl
@[simp] theorem Thread.go_prio (x : Thread) (pc : BitVec 16) : (x.go pc).prio = x.prio := rfl
@[simp] theorem Thread.go_theh (x : Thread) (pc : BitVec 16) : (x.go pc).theh = x.theh := rfl
@[simp] theorem Thread.go_wait (x : Thread) (pc : BitVec 16) : (x.go pc).wait = none := rfl
@[simp] theorem Thread.go_wseq (x : Thread) (pc : BitVec 16) : (x.go pc).wseq = x.wseq := rfl

@[simp] theorem Thread.adv_st (x : Thread) : (x.adv).st = .ready := rfl
@[simp] theorem Thread.adv_pc (x : Thread) : (x.adv).pc = x.pc + 1 := rfl
@[simp] theorem Thread.adv_regs (x : Thread) : (x.adv).regs = x.regs := rfl
@[simp] theorem Thread.adv_tiles (x : Thread) : (x.adv).tiles = x.tiles := rfl
@[simp] theorem Thread.adv_preds (x : Thread) : (x.adv).preds = x.preds := rfl
@[simp] theorem Thread.adv_sstat (x : Thread) : (x.adv).sstat = x.sstat := rfl
@[simp] theorem Thread.adv_cause (x : Thread) : (x.adv).cause = x.cause := rfl
@[simp] theorem Thread.adv_fpc (x : Thread) : (x.adv).fpc = x.fpc := rfl
@[simp] theorem Thread.adv_faddr (x : Thread) : (x.adv).faddr = x.faddr := rfl
@[simp] theorem Thread.adv_prio (x : Thread) : (x.adv).prio = x.prio := rfl
@[simp] theorem Thread.adv_theh (x : Thread) : (x.adv).theh = x.theh := rfl
@[simp] theorem Thread.adv_wait (x : Thread) : (x.adv).wait = none := rfl
@[simp] theorem Thread.adv_wseq (x : Thread) : (x.adv).wseq = x.wseq := rfl

@[simp] theorem Thread.orStat_st (x : Thread) (f : Flg) : (x.orStat f).st = x.st := rfl
@[simp] theorem Thread.orStat_pc (x : Thread) (f : Flg) : (x.orStat f).pc = x.pc := rfl
@[simp] theorem Thread.orStat_regs (x : Thread) (f : Flg) : (x.orStat f).regs = x.regs := rfl
@[simp] theorem Thread.orStat_tiles (x : Thread) (f : Flg) : (x.orStat f).tiles = x.tiles := rfl
@[simp] theorem Thread.orStat_preds (x : Thread) (f : Flg) : (x.orStat f).preds = x.preds := rfl
@[simp] theorem Thread.orStat_sstat (x : Thread) (f : Flg) : (x.orStat f).sstat = x.sstat ||| flgBits f := rfl
@[simp] theorem Thread.orStat_cause (x : Thread) (f : Flg) : (x.orStat f).cause = x.cause := rfl
@[simp] theorem Thread.orStat_fpc (x : Thread) (f : Flg) : (x.orStat f).fpc = x.fpc := rfl
@[simp] theorem Thread.orStat_faddr (x : Thread) (f : Flg) : (x.orStat f).faddr = x.faddr := rfl
@[simp] theorem Thread.orStat_prio (x : Thread) (f : Flg) : (x.orStat f).prio = x.prio := rfl
@[simp] theorem Thread.orStat_theh (x : Thread) (f : Flg) : (x.orStat f).theh = x.theh := rfl
@[simp] theorem Thread.orStat_wait (x : Thread) (f : Flg) : (x.orStat f).wait = x.wait := rfl
@[simp] theorem Thread.orStat_wseq (x : Thread) (f : Flg) : (x.orStat f).wseq = x.wseq := rfl

/-- A scalar read where it was written. -/
@[simp] theorem Thread.setS_s_self (x : Thread) (i : Nat) (v : Word) : (x.setS i v).s i = v := by
  simp [Thread.setS, Thread.s]

/-- Any other scalar. -/
theorem Thread.setS_s_ne (x : Thread) {i j : Nat} (v : Word) (h : j ≠ i) : (x.setS i v).s j = x.s j := by
  simp [Thread.setS, Thread.s, mget_mins_ne, h]

/-- A descriptor read where it was written. -/
@[simp] theorem Thread.setTd_td_self (x : Thread) (i : Nat) (d : Tile) : (x.setTd i d).td i = d := by
  simp [Thread.setTd, Thread.td]

/-- A write to p0 changes nothing (R89, R119). -/
@[simp] theorem Thread.setPred_zero (x : Thread) (b : Bool) : x.setPred 0 b = x := rfl

@[simp] theorem Thread.setPred_pc (x : Thread) (i : Nat) (b : Bool) : (x.setPred i b).pc = x.pc := by
  unfold Thread.setPred; split <;> (try split) <;> rfl

/-! The modes in effect, the fuses and the test port -/

@[simp] theorem Pkg.modesIn_regs (g : Pkg) : g.modesIn.regs = g.regs := rfl
@[simp] theorem Pkg.modesIn_sent (g : Pkg) : g.modesIn.sent = g.sent := rfl
@[simp] theorem Pkg.modesIn_hk (g : Pkg) : g.modesIn.hk = g.hk := rfl
@[simp] theorem Pkg.modesIn_ld (g : Pkg) : g.modesIn.ld = g.ld := rfl
@[simp] theorem Husk.shiftIr_tapIr (h : Husk) (op : Nat) : (h.shiftIr op).tapIr = op := rfl
@[simp] theorem Husk.shiftIr_irOut (h : Husk) (op : Nat) : (h.shiftIr op).irOut = 1 := rfl
@[simp] theorem Husk.shiftIr_tapOut (h : Husk) (op : Nat) : (h.shiftIr op).tapOut = h.tapOut := rfl
@[simp] theorem Husk.shiftIr_tapCells (h : Husk) (op : Nat) : (h.shiftIr op).tapCells = h.tapCells := rfl

/-- Everything an abandoned advance of SVNCTR can do to the pack's memory and to what is in flight: nothing. -/
@[simp] theorem Pack.advAbort_mem (s : Pack) (k : Nat) : (s.advAbort k).mem = s.mem := by
  unfold Pack.advAbort; dsimp only; split <;> rfl
@[simp] theorem Pack.advAbort_flight (s : Pack) (k : Nat) : (s.advAbort k).flight = s.flight := by
  unfold Pack.advAbort; dsimp only; split <;> rfl
@[simp] theorem Pack.advAbort_wire (s : Pack) (k : Nat) : (s.advAbort k).wire = s.wire := by
  unfold Pack.advAbort; dsimp only; split <;> rfl
theorem Pack.advAbort_idle (s : Pack) (k : Nat) (h : (s.g k).advancing = false) : s.advAbort k = s := by
  simp [Pack.advAbort, h]

end Sys2Proof.Machine
end

