-- ==== Sys2Proof/Laws/Log.lean ====
section
/-! SUPPORT. Laws of the error log: an occurrence touches the log, the registers around it, the alarms, and nothing else (R312 to R315). -/

set_option linter.unusedVariables false

namespace Sys2Proof.Machine

/-- A package without what logging an occurrence may change. -/
def Pkg.offLog (g : Pkg) : Pkg := { g with regs := [], log := [], logSeq := 0, smb := false, hif := [], msix := [], sent := [], hk := { g.hk with aer := [] } }

theorem Pkg.errAt_offLog (g : Pkg) (p : Nat) : (g.errAt p).offLog = g.offLog := by
  unfold Pkg.errAt; dsimp only; split <;> split <;> rfl

theorem Pkg.alarm_offLog (g : Pkg) : g.alarm.offLog = g.offLog := by
  unfold Pkg.alarm; dsimp only; split
  · exact Pkg.errAt_offLog _ _
  · split <;> rfl

theorem Pkg.put_offLog (g : Pkg) (r : LogRec) : (g.put r).offLog = g.offLog := by
  unfold Pkg.put; dsimp only; split
  · rfl
  · split
    · rfl
    · split <;> rfl

/-- Logging an occurrence changes the log, registers, the alarms, AER and the messages sent, and nothing else. -/
theorem Pkg.logAt_offLog (g : Pkg) (code site unit thr a0 a1 a2 : Nat) : (g.logAt code site unit thr a0 a1 a2).offLog = g.offLog := by
  have h (r : LogRec) (n : Nat) : ({ (g.put r) with logSeq := n } : Pkg).offLog = g.offLog := Pkg.put_offLog g r
  unfold Pkg.logAt
  extract_lets r src g1 g2
  have h1 : g1.offLog = g.offLog := h r _
  have h2 : g2.offLog = g.offLog := by
    by_cases hc : codeClass code = 2
    · rw [show g2 = ((g1.wb rErrCtl 30 true).wb rPins 4 true).aerSet .internal from if_pos hc]; exact h1
    · rw [show g2 = g1 from if_neg hc]; exact h1
  split
  · exact h2
  · exact (Pkg.alarm_offLog _).trans h2

@[simp] theorem Pkg.logAt_thr (g : Pkg) (code site unit thr a0 a1 a2 : Nat) :
    (g.logAt code site unit thr a0 a1 a2).thr = g.thr := by
  have h := congrArg Pkg.thr (g.logAt_offLog code site unit thr a0 a1 a2); exact h

@[simp] theorem Pkg.logAt_tok (g : Pkg) (code site unit thr a0 a1 a2 : Nat) :
    (g.logAt code site unit thr a0 a1 a2).tok = g.tok := by
  have h := congrArg Pkg.tok (g.logAt_offLog code site unit thr a0 a1 a2); exact h

@[simp] theorem Pkg.logAt_acc (g : Pkg) (code site unit thr a0 a1 a2 : Nat) :
    (g.logAt code site unit thr a0 a1 a2).acc = g.acc := by
  have h := congrArg Pkg.acc (g.logAt_offLog code site unit thr a0 a1 a2); exact h

@[simp] theorem Pkg.logAt_last (g : Pkg) (code site unit thr a0 a1 a2 : Nat) :
    (g.logAt code site unit thr a0 a1 a2).last = g.last := by
  have h := congrArg Pkg.last (g.logAt_offLog code site unit thr a0 a1 a2); exact h

@[simp] theorem Pkg.logAt_ctab (g : Pkg) (code site unit thr a0 a1 a2 : Nat) :
    (g.logAt code site unit thr a0 a1 a2).ctab = g.ctab := by
  have h := congrArg Pkg.ctab (g.logAt_offLog code site unit thr a0 a1 a2); exact h

@[simp] theorem Pkg.logAt_loads (g : Pkg) (code site unit thr a0 a1 a2 : Nat) :
    (g.logAt code site unit thr a0 a1 a2).loads = g.loads := by
  have h := congrArg Pkg.loads (g.logAt_offLog code site unit thr a0 a1 a2); exact h

@[simp] theorem Pkg.logAt_stores (g : Pkg) (code site unit thr a0 a1 a2 : Nat) :
    (g.logAt code site unit thr a0 a1 a2).stores = g.stores := by
  have h := congrArg Pkg.stores (g.logAt_offLog code site unit thr a0 a1 a2); exact h

@[simp] theorem Pkg.logAt_aops (g : Pkg) (code site unit thr a0 a1 a2 : Nat) :
    (g.logAt code site unit thr a0 a1 a2).aops = g.aops := by
  have h := congrArg Pkg.aops (g.logAt_offLog code site unit thr a0 a1 a2); exact h

@[simp] theorem Pkg.logAt_eops (g : Pkg) (code site unit thr a0 a1 a2 : Nat) :
    (g.logAt code site unit thr a0 a1 a2).eops = g.eops := by
  have h := congrArg Pkg.eops (g.logAt_offLog code site unit thr a0 a1 a2); exact h

@[simp] theorem Pkg.logAt_qops (g : Pkg) (code site unit thr a0 a1 a2 : Nat) :
    (g.logAt code site unit thr a0 a1 a2).qops = g.qops := by
  have h := congrArg Pkg.qops (g.logAt_offLog code site unit thr a0 a1 a2); exact h

@[simp] theorem Pkg.logAt_seq (g : Pkg) (code site unit thr a0 a1 a2 : Nat) :
    (g.logAt code site unit thr a0 a1 a2).seq = g.seq := by
  have h := congrArg Pkg.seq (g.logAt_offLog code site unit thr a0 a1 a2); exact h

@[simp] theorem Pkg.logAt_qcopy (g : Pkg) (code site unit thr a0 a1 a2 : Nat) :
    (g.logAt code site unit thr a0 a1 a2).qcopy = g.qcopy := by
  have h := congrArg Pkg.qcopy (g.logAt_offLog code site unit thr a0 a1 a2); exact h

@[simp] theorem Pkg.logAt_qlast (g : Pkg) (code site unit thr a0 a1 a2 : Nat) :
    (g.logAt code site unit thr a0 a1 a2).qlast = g.qlast := by
  have h := congrArg Pkg.qlast (g.logAt_offLog code site unit thr a0 a1 a2); exact h

@[simp] theorem Pkg.logAt_strm (g : Pkg) (code site unit thr a0 a1 a2 : Nat) :
    (g.logAt code site unit thr a0 a1 a2).strm = g.strm := by
  have h := congrArg Pkg.strm (g.logAt_offLog code site unit thr a0 a1 a2); exact h

@[simp] theorem Pkg.logAt_strmPost (g : Pkg) (code site unit thr a0 a1 a2 : Nat) :
    (g.logAt code site unit thr a0 a1 a2).strmPost = g.strmPost := by
  have h := congrArg Pkg.strmPost (g.logAt_offLog code site unit thr a0 a1 a2); exact h

@[simp] theorem Pkg.logAt_busy (g : Pkg) (code site unit thr a0 a1 a2 : Nat) :
    (g.logAt code site unit thr a0 a1 a2).busy = g.busy := by
  have h := congrArg Pkg.busy (g.logAt_offLog code site unit thr a0 a1 a2); exact h

@[simp] theorem Pkg.logAt_armed (g : Pkg) (code site unit thr a0 a1 a2 : Nat) :
    (g.logAt code site unit thr a0 a1 a2).armed = g.armed := by
  have h := congrArg Pkg.armed (g.logAt_offLog code site unit thr a0 a1 a2); exact h

@[simp] theorem Pkg.logAt_arms (g : Pkg) (code site unit thr a0 a1 a2 : Nat) :
    (g.logAt code site unit thr a0 a1 a2).arms = g.arms := by
  have h := congrArg Pkg.arms (g.logAt_offLog code site unit thr a0 a1 a2); exact h

@[simp] theorem Pkg.logAt_armDone (g : Pkg) (code site unit thr a0 a1 a2 : Nat) :
    (g.logAt code site unit thr a0 a1 a2).armDone = g.armDone := by
  have h := congrArg Pkg.armDone (g.logAt_offLog code site unit thr a0 a1 a2); exact h

@[simp] theorem Pkg.logAt_kst (g : Pkg) (code site unit thr a0 a1 a2 : Nat) :
    (g.logAt code site unit thr a0 a1 a2).kst = g.kst := by
  have h := congrArg Pkg.kst (g.logAt_offLog code site unit thr a0 a1 a2); exact h

@[simp] theorem Pkg.logAt_booked (g : Pkg) (code site unit thr a0 a1 a2 : Nat) :
    (g.logAt code site unit thr a0 a1 a2).booked = g.booked := by
  have h := congrArg Pkg.booked (g.logAt_offLog code site unit thr a0 a1 a2); exact h

@[simp] theorem Pkg.logAt_flows (g : Pkg) (code site unit thr a0 a1 a2 : Nat) :
    (g.logAt code site unit thr a0 a1 a2).flows = g.flows := by
  have h := congrArg Pkg.flows (g.logAt_offLog code site unit thr a0 a1 a2); exact h

@[simp] theorem Pkg.logAt_sites (g : Pkg) (code site unit thr a0 a1 a2 : Nat) :
    (g.logAt code site unit thr a0 a1 a2).sites = g.sites := by
  have h := congrArg Pkg.sites (g.logAt_offLog code site unit thr a0 a1 a2); exact h

@[simp] theorem Pkg.logAt_started (g : Pkg) (code site unit thr a0 a1 a2 : Nat) :
    (g.logAt code site unit thr a0 a1 a2).started = g.started := by
  have h := congrArg Pkg.started (g.logAt_offLog code site unit thr a0 a1 a2); exact h

@[simp] theorem Pkg.logAt_ce (g : Pkg) (code site unit thr a0 a1 a2 : Nat) :
    (g.logAt code site unit thr a0 a1 a2).ce = g.ce := by
  have h := congrArg Pkg.ce (g.logAt_offLog code site unit thr a0 a1 a2); exact h

@[simp] theorem Pkg.logAt_tr (g : Pkg) (code site unit thr a0 a1 a2 : Nat) :
    (g.logAt code site unit thr a0 a1 a2).tr = g.tr := by
  have h := congrArg Pkg.tr (g.logAt_offLog code site unit thr a0 a1 a2); exact h

@[simp] theorem Pkg.logAt_co (g : Pkg) (code site unit thr a0 a1 a2 : Nat) :
    (g.logAt code site unit thr a0 a1 a2).co = g.co := by
  have h := congrArg Pkg.co (g.logAt_offLog code site unit thr a0 a1 a2); exact h

@[simp] theorem Pkg.logAt_ld (g : Pkg) (code site unit thr a0 a1 a2 : Nat) :
    (g.logAt code site unit thr a0 a1 a2).ld = g.ld := by
  have h := congrArg Pkg.ld (g.logAt_offLog code site unit thr a0 a1 a2); exact h

@[simp] theorem Pkg.logAt_pr (g : Pkg) (code site unit thr a0 a1 a2 : Nat) :
    (g.logAt code site unit thr a0 a1 a2).pr = g.pr := by
  have h := congrArg Pkg.pr (g.logAt_offLog code site unit thr a0 a1 a2); exact h

@[simp] theorem Pkg.logAt_sk (g : Pkg) (code site unit thr a0 a1 a2 : Nat) :
    (g.logAt code site unit thr a0 a1 a2).sk = g.sk := by
  have h := congrArg Pkg.sk (g.logAt_offLog code site unit thr a0 a1 a2); exact h

@[simp] theorem Pkg.logAt_net (g : Pkg) (code site unit thr a0 a1 a2 : Nat) :
    (g.logAt code site unit thr a0 a1 a2).net = g.net := by
  have h := congrArg Pkg.net (g.logAt_offLog code site unit thr a0 a1 a2); exact h

@[simp] theorem Pkg.logAt_links (g : Pkg) (code site unit thr a0 a1 a2 : Nat) :
    (g.logAt code site unit thr a0 a1 a2).links = g.links := by
  have h := congrArg Pkg.links (g.logAt_offLog code site unit thr a0 a1 a2); exact h

@[simp] theorem Pkg.logAt_arun (g : Pkg) (code site unit thr a0 a1 a2 : Nat) :
    (g.logAt code site unit thr a0 a1 a2).arun = g.arun := by
  have h := congrArg Pkg.arun (g.logAt_offLog code site unit thr a0 a1 a2); exact h

@[simp] theorem Pkg.logAt_pw (g : Pkg) (code site unit thr a0 a1 a2 : Nat) :
    (g.logAt code site unit thr a0 a1 a2).pw = g.pw := by
  have h := congrArg Pkg.pw (g.logAt_offLog code site unit thr a0 a1 a2); exact h

/-- Of the Husk's part an occurrence changes AER alone (R367). -/
theorem Pkg.logAt_hk (g : Pkg) (code site unit thr a0 a1 a2 : Nat) :
    { (g.logAt code site unit thr a0 a1 a2).hk with aer := [] } = { g.hk with aer := [] } := by
  have h := congrArg Pkg.hk (g.logAt_offLog code site unit thr a0 a1 a2); exact h

@[simp] theorem Pkg.logAt_accq (g : Pkg) (code site unit thr a0 a1 a2 : Nat) :
    (g.logAt code site unit thr a0 a1 a2).accq = g.accq := by
  have h := congrArg Pkg.accq (g.logAt_offLog code site unit thr a0 a1 a2); exact h

@[simp] theorem Pkg.logAt_posts (g : Pkg) (code site unit thr a0 a1 a2 : Nat) :
    (g.logAt code site unit thr a0 a1 a2).posts = g.posts := by
  have h := congrArg Pkg.posts (g.logAt_offLog code site unit thr a0 a1 a2); exact h

@[simp] theorem Pkg.logAt_straps (g : Pkg) (code site unit thr a0 a1 a2 : Nat) :
    (g.logAt code site unit thr a0 a1 a2).straps = g.straps := by
  have h := congrArg Pkg.straps (g.logAt_offLog code site unit thr a0 a1 a2); exact h

@[simp] theorem Pkg.logAt_fz (g : Pkg) (code site unit thr a0 a1 a2 : Nat) :
    (g.logAt code site unit thr a0 a1 a2).fz = g.fz := by
  have h := congrArg Pkg.fz (g.logAt_offLog code site unit thr a0 a1 a2); exact h

@[simp] theorem Pkg.logAt_fw (g : Pkg) (code site unit thr a0 a1 a2 : Nat) :
    (g.logAt code site unit thr a0 a1 a2).fw = g.fw := by
  have h := congrArg Pkg.fw (g.logAt_offLog code site unit thr a0 a1 a2); exact h

@[simp] theorem Pkg.logAt_th (g : Pkg) (code site unit thr a0 a1 a2 : Nat) (t : Tid) :
    (g.logAt code site unit thr a0 a1 a2).th t = g.th t := by
  simp [Pkg.th]

@[simp] theorem Pkg.threadFault_th (g : Pkg) (t u : Tid) (cause : Nat) (addr : Word) :
    (g.threadFault t cause addr).th u = g.th u := Pkg.logAt_th ..

end Sys2Proof.Machine
end

