-- ==== Sys2Proof/Laws/Issue.lean ====
section
/-! SUPPORT. Laws of issue: what a command of a thread does in each of the forms of R92, R111, R115, R117 and R219. -/

set_option linter.unusedVariables false

namespace Sys2Proof.Machine

@[simp] theorem Pack.settle_mem (s : Pack) (t : Tid) (x : Thread) : (s.settle t x).mem = s.mem := rfl
@[simp] theorem Pack.settle_thread (s : Pack) (t : Tid) (x : Thread) : (s.settle t x).thread t = x := by
  simp [Pack.settle, Pack.thread]
theorem Pack.settle_g_ne (s : Pack) (t : Tid) (x : Thread) {k : Nat} (h : k ≠ t.pkg) : (s.settle t x).g k = s.g k :=
  Pack.on_g_ne s _ h

/-! A posted write changes the package's registers and memory not yet (R379). -/

@[simp] theorem Pack.posted_mem (s : Pack) (k : Nat) (x : Post) : (s.posted k x).mem = s.mem := rfl
@[simp] theorem Pack.posted_regs (s : Pack) (k : Nat) (x : Post) : ((s.posted k x).g k).regs = (s.g k).regs := by simp [Pack.posted]
@[simp] theorem Pack.posted_busy (s : Pack) (k : Nat) (x : Post) : ((s.posted k x).g k).busy = x.key :: (s.g k).busy := by simp [Pack.posted]
@[simp] theorem Pack.posted_posts (s : Pack) (k : Nat) (x : Post) : ((s.posted k x).g k).posts = (s.g k).posts ++ [x] := by simp [Pack.posted]
theorem Pack.posted_g_ne (s : Pack) {k j : Nat} (x : Post) (h : j ≠ k) : (s.posted k x).g j = s.g j := Pack.on_g_ne s _ h

/-- A command for a thread its unit does not issue from changes nothing. -/
theorem issue_other {op : Op} {t : Tid} {f : Fields} {body : Body} {s : Pack} (h : (s.g t.pkg).canIssue t = false) :
    issue op t f body s = s := by
  simp [issue, h]

/-- Issue held for a seal. -/
theorem issue_held {op : Op} {t : Tid} {f : Fields} {body : Body} {s : Pack} (h : (s.g t.pkg).canIssue t = true)
    (h2 : (s.g t.pkg).issueHeld = true) : issue op t f body s = s.on t.pkg (fun g => g.waitTh t .seal) := by
  simp [issue, h, h2]

/-- A reserved encoding. -/
theorem issue_bad {op : Op} {t : Tid} {f : Fields} {body : Body} {s : Pack} (h : (s.g t.pkg).canIssue t = true)
    (h2 : (s.g t.pkg).issueHeld = false) (h3 : encOk op f = false) :
    issue op t f body s = (s.on t.pkg (fun g => g.issued t)).leave t (.trap 3 none) := by
  simp [issue, h, h2, h3]

/-- A guard that fails. -/
theorem issue_skip {op : Op} {t : Tid} {f : Fields} {body : Body} {s : Pack} (h : (s.g t.pkg).canIssue t = true)
    (h2 : (s.g t.pkg).issueHeld = false) (h3 : encOk op f = true) (h4 : (s.thread t).pred f.gp.toNat = f.gn) :
    issue op t f body s = s.settle t (s.thread t).past := by
  have h4' : ((s.g t.pkg).th t).pred f.gp.toNat = f.gn := h4
  simp only [issue, h, h2, h3, h4']
  simp only [Bool.not_true, Bool.false_eq_true, if_false, beq_self_eq_true, if_true, Pack.leave, Pkg.finish, Pack.on_on, Pack.settle]
  exact Pack.on_congr rfl

/-- A scalar that awaits a load. -/
theorem issue_awaits {op : Op} {t : Tid} {f : Fields} {body : Body} {s : Pack} (h : (s.g t.pkg).canIssue t = true)
    (h2 : (s.g t.pkg).issueHeld = false) (h3 : encOk op f = true) (h4 : (s.thread t).pred f.gp.toNat ≠ f.gn)
    (h5 : (s.g t.pkg).awaits t op f = true) : issue op t f body s = s.on t.pkg (fun g => g.waitTh t .mem) := by
  have h4' : (((s.g t.pkg).th t).pred f.gp.toNat == f.gn) = false := by simpa [Pack.thread] using h4
  simp only [issue, h, h2, h3, h4', h5]
  simp [Pack.leave, Pkg.finish]

/-- An instruction that executes. -/
theorem issue_runs {op : Op} {t : Tid} {f : Fields} {body : Body} {s : Pack} (h : Issues s t op f) :
    issue op t f body s =
      ((body (s.thread t) (s.on t.pkg (fun g => g.issued t))).1).leave t (body (s.thread t) (s.on t.pkg (fun g => g.issued t))).2 := by
  have h4' : (((s.g t.pkg).th t).pred f.gp.toNat == f.gn) = false := by simpa [Pack.thread] using h.guard
  simp only [issue, h.can, h.free, h.enc, h4', h.loaded]
  rfl


/-- A body that changes its thread alone, and where the thread goes on. -/
theorem leave_th {t : Tid} {s : Pack} (h : Thread → Thread) :
    ((s.on t.pkg (fun g => g.issued t)).onTh t h).leave t .adv = s.settle t (h (s.thread t)).past := by
  simp only [Pack.onTh, Pack.leave, Pkg.finish, Pack.on_on, Pack.settle]
  exact Pack.on_congr (by simp [Pkg.onTh, Pack.thread, Thread.past, Thread.adv])

theorem leave_goto {t : Tid} {s : Pack} (h : Thread → Thread) (pc : BitVec 16) :
    ((s.on t.pkg (fun g => g.issued t)).onTh t h).leave t (.goto pc) = s.settle t ((h (s.thread t)).go pc) := by
  simp only [Pack.onTh, Pack.leave, Pkg.finish, Pack.on_on, Pack.settle]
  exact Pack.on_congr (by simp [Pkg.onTh, Pack.thread])

/-- A body that changes nothing. -/
theorem leave_nop {t : Tid} {s : Pack} :
    (s.on t.pkg (fun g => g.issued t)).leave t .adv = s.settle t (s.thread t).past := by
  simp only [Pack.leave, Pkg.finish, Pack.on_on, Pack.settle]
  exact Pack.on_congr (by simp [Pkg.onTh, Pack.thread, Thread.past, Thread.adv])

theorem leave_goto_nop {t : Tid} {s : Pack} (pc : BitVec 16) :
    (s.on t.pkg (fun g => g.issued t)).leave t (.goto pc) = s.settle t ((s.thread t).go pc) := by
  simp only [Pack.leave, Pkg.finish, Pack.on_on, Pack.settle]
  exact Pack.on_congr (by simp [Pkg.onTh, Pack.thread])

/-- A trap whose cause is no access fault, or whose address is known. -/
theorem leave_trap {t : Tid} {s : Pack} {c : Nat} (h : causeAccess c = false) :
    (s.on t.pkg (fun g => g.issued t)).leave t (.trap c none) =
      s.on t.pkg (fun g => (g.issued t).except t (s.thread t).pc c 0) := by
  simp only [Pack.leave, h, Bool.false_eq_true, if_false, Pkg.finish, Pack.on_on]
  exact Pack.on_congr rfl

theorem leave_trap_at {t : Tid} {s : Pack} {c : Nat} {a : Word} :
    (s.on t.pkg (fun g => g.issued t)).leave t (.trap c (some a)) =
      s.on t.pkg (fun g => (g.issued t).except t (s.thread t).pc c a) := by
  simp only [Pack.leave, Pkg.finish, Pack.on_on]
  exact Pack.on_congr rfl

/-- An access fault without an address: FADDR is a free value (log 11). -/
theorem leave_access {t : Tid} {s : Pack} {c : Nat} (h : causeAccess c = true) :
    (s.on t.pkg (fun g => g.issued t)).leave t (.trap c none) =
      { s with fresh := s.fresh + 1 }.on t.pkg
        (fun g => (g.issued t).except t (s.thread t).pc c (BitVec.ofNat 64 (Config.freeValue s.fresh))) := by
  have e : (s.on t.pkg (fun g => g.issued t)).draw.2 = { s with fresh := s.fresh + 1 }.on t.pkg (fun g => g.issued t) := rfl
  simp only [Pack.leave, h, if_true, e, Pkg.finish, Pack.on_on]
  exact Pack.on_congr rfl

/-- A body that makes the thread wait. -/
theorem leave_wait {t : Tid} {s : Pack} (w : Wait) :
    (s.on t.pkg (fun g => g.issued t)).leave t (.wait w) = s.on t.pkg (fun g => (g.issued t).waitTh t w) := by
  simp only [Pack.leave, Pkg.finish, Pack.on_on]

/-- A body that changes the thread's package, and where the thread goes on. -/
theorem leave_with {t : Tid} {s : Pack} (h : Pkg → Pkg) (k : Thread → Thread) (e : ∀ g : Pkg, (h g).th t = g.th t) :
    (((s.on t.pkg (fun g => g.issued t)).on t.pkg h).onTh t k).leave t .adv = s.settleWith t (k (s.thread t)).past h := by
  simp only [Pack.onTh, Pack.leave, Pkg.finish, Pack.on_on, Pack.settleWith]
  exact Pack.on_congr (by simp [Pkg.onTh, Pack.thread, Thread.past, Thread.adv, e])

end Sys2Proof.Machine
end

