-- ==== Sys2Proof/Tests/Slice0.lean ====
section
/-! SUPPORT. Own tests: the smoke test of well-formedness, and for each statement states and operands that meet its hypotheses, clause by clause, with what the command leaves. -/

set_option linter.unusedVariables false
set_option Elab.async false

namespace Sys2Proof.Tests

open Sys2Proof Sys2Proof.Machine

/-- A package in P0 with every unit, buffer and block of die 0 and the hub enabled, past the ROM phase, the leader of a pack of one at epoch 1, every site ACTIVE and die 0 started. -/
def live : Pkg :=
  { regs := ([(rGateU 0 0, 0xFFFF#32), (rGateC 0, 0xFFFF#32), (rGateB 0, 0x7F#32), (rGate0, 0x3F#32), (rGates, 0xFFF#32),
      (rPackEpoch, 1#32), (rMemLo, 1#32), (rPackId, 0xC0#32), (rKey 0, 0x20000000#32)] : List (Nat × W32)).foldl (fun m p => mins m p.1 p.2) [],
    started := [(0, true)], hk := { state := 2, perst := false, pwrok := true } }

/-- Thread 0 of unit 0 of die 0. -/
def t0 : Tid := { pkg := 0, site := 0, unit := 0, thr := 0 }

/-- The pack of one package. -/
def one (g : Pkg) : State := { pack := { pkgs := [(0, g)] }, pending := [] }

/-- The same with thread 0 READY with given scalar registers. -/
def run (x : Thread) : State := one (live.setTh t0 { x with st := .ready })

/-- Plain fields. -/
def ff : Fields := { d := 3, a := 1, b := 2, c := 0, gn := false, gp := 0, imm := 0 }

/-- The condition `Issues` as a check. -/
def issuesOk (s : State) (t : Tid) (op : Op) (f : Fields) : Bool :=
  (s.pack.g t.pkg).canIssue t && !(s.pack.g t.pkg).issueHeld && encOk op f && (s.pack.thread t).pred f.gp.toNat != f.gn &&
    !(s.pack.g t.pkg).awaits t op f

theorem issues_of_ok {s : State} {t : Tid} {op : Op} {f : Fields} (h : issuesOk s t op f = true) : Issues s.pack t op f := by
  simp only [issuesOk, Bool.and_eq_true, bne_iff_ne, Bool.not_eq_true'] at h
  exact ⟨h.1.1.1.1, h.1.1.1.2, h.1.1.2, h.1.2, h.2⟩

/-- The condition `Writable` as a check. -/
def writable (s : State) (k : Nat) (m : Master) (site off : Nat) (b : Blk) (o : Nat) : Bool :=
  (s.pack.g k).hubUp && decide (off % 4 = 0) && decide (blockOf site off = some (b, o)) &&
    (match (s.pack.g k).place k site 3 off with | .ok _ => true | _ => false) &&
    (match busyKey site b o with | some key => !(s.pack.g k).busy.contains key | none => true) && (m.priv || decide (pvMask b o = 0))

theorem writable_of_ok {s : State} {k : Nat} {m : Master} {site off : Nat} {b : Blk} {o : Nat} (h : writable s k m site off b o = true) :
    Writable s.pack k m site off b o := by
  simp only [writable, Bool.and_eq_true, Bool.or_eq_true, decide_eq_true_eq] at h
  refine ⟨h.1.1.1.1.1, h.1.1.1.1.2, h.1.1.1.2, ?_, fun key hk => ?_, h.2⟩
  · have := h.1.1.2
    cases hp : (s.pack.g k).place k site 3 off with
    | ok l => exact ⟨l, rfl⟩
    | invalid => simp [hp] at this
    | gated => simp [hp] at this
  · have := h.1.2
    simpa [hk] using this

/-- What a command leaves, as a check. -/
def runs (c : Instr) (s : State) (P : Pack → Bool) : Bool :=
  match exec c s with
  | .next t => decide (t.pending = s.pending) && P t.pack
  | _ => false

theorem leaves_of_runs {c : Instr} {s : State} {P : Pack → Bool} (h : runs c s P = true) : Leaves c s (fun p => P p = true) := by
  unfold runs at h
  split at h
  · next t ht =>
    simp only [Bool.and_eq_true, decide_eq_true_eq] at h
    exact ⟨t.pack, by rw [Gives, ht, ← h.1], h.2⟩
  · simp at h

/-- The command answers a next state with the pack `p`, as a check. -/
def gives (c : Instr) (s : State) (p : Pack) : Bool := runs c s (fun q => decide (q = p))

/-- Scalar registers 1 and 2. -/
def regs2 (a b : Word) : Thread := { regs := [(1, a), (2, b)] }

/-- A package of a pack of two: PACK.ID, both members, the other's position, reached through port 0. -/
def paired (g : Pkg) (id : W32) (other : Nat) : Pkg :=
  ((((g.wr rPackId id).wr rMemLo 3).wr (rPort 0 0) 0x20000000#32).wr (hubR (0x7100 + 8 * other)) 1).wr (hubR (0x7104 + 8 * other)) 1

/-- The pack of a leader at position 0 and a member at position 1. -/
def two (a b : Pkg) : State := { pack := { pkgs := [(0, paired a 0xC0 1), (1, paired b 0x41 0)] }, pending := [] }

/-- A posted write issued at its register and completed under the BUSY bit of the register at `off` of `site`. -/
def lands (c : Instr) (site off : Nat) (s : State) (P : Pack → Bool) : Bool :=
  runs c s (fun p => runs (.postedWriteComplete 0 site off) { s with pack := p } P)

/-- The only posted write of package 0 under its key is `x`, as a check of `Due`. -/
def due (s : State) (x : Post) : Bool :=
  (s.pack.g 0).busy.contains x.key && decide ((s.pack.g 0).posts.filter (fun p => p.key == x.key) = [x])

theorem due_of_ok {s : State} {x : Post} (h : due s x = true) : Due s.pack 0 x := by
  simp only [due, Bool.and_eq_true, decide_eq_true_eq] at h
  exact ⟨h.1, h.2⟩

/-- A state with a posted write on its way. -/
def posting (g : Pkg) (x : Post) : State := one { g with busy := x.key :: g.busy, posts := g.posts ++ [x] }


/-! Well-formedness: a term that each kind of check refuses, and one that it admits. -/

theorem test_wf_thread : Instr.wf (.add t0 ff) = true ∧ Instr.wf (.add { t0 with pkg := 64 } ff) = false ∧
    Instr.wf (.add { t0 with site := 48 } ff) = false ∧ Instr.wf (.add { t0 with unit := 64 } ff) = false ∧
    Instr.wf (.add { t0 with thr := 16 } ff) = false := by decide +kernel
theorem test_wf_reserved_encoding_is_a_command : Instr.wf (.add t0 { ff with imm := 1 }) = true ∧ encOk .add { ff with imm := 1 } = false := by
  decide +kernel
theorem test_wf_registers : Instr.wf (.queueEnable 0 .host 47 4095 0) = true ∧ Instr.wf (.queueEnable 0 .host 48 0 0) = false ∧
    Instr.wf (.queueEnable 0 .host 0 4096 0) = false ∧ Instr.wf (.stageEnable 0 .host 8 0) = false ∧ Instr.wf (.mbtCtlWrite 0 .host 512 0) = false ∧
    Instr.wf (.scaleCurWrite 0 .host 0 2048 0) = false ∧ Instr.wf (.streamCtlWrite 0 .host 1024 0) = false ∧
    Instr.wf (.ownWrite 0 .host 0x4000 true 0) = false ∧ Instr.wf (.schedEnable 0 .host 64 (0, .ok)) = false ∧ Instr.wf (.timerRel 0 .host 64) = false ∧
    Instr.wf (.hsend 0 .husk 257) = false ∧ Instr.wf (.revoke 0 .husk 16) = false := by decide +kernel
theorem test_wf_events : Instr.wf (.packBeat 0 32 1 0 []) = false ∧ Instr.wf (.packBeat 0 31 1 0 []) = true ∧
    Instr.wf (.d2dFrame 0 63 0 0 [] [] (.ok, .ok)) = false ∧ Instr.wf (.d2dFrame 0 62 5 0 [] [] (.ok, .ok)) = false ∧ Instr.wf (.refresh 0 12 0 0 false) = false ∧
    Instr.wf (.refresh 0 0 128 0 false) = false ∧ Instr.wf (.junctionSample 0 0 1024) = false ∧ Instr.wf (.assign 0 0 (0, (2 ^ 64))) = false ∧
    Instr.wf (.member 64 { epoch := 0, mem := 0, links := [] }) = false ∧ Instr.wf (.hostMemoryRead 0 0 (2 ^ 40) 4 .ok) = false ∧
    Instr.wf (.setEndpointId 0 256) = false := by decide +kernel

/-! Steps, reset, forms that do not execute -/

theorem witness_StepRunsTheFrontCommand :
    ({ State.reset with pending := [Instr.nop t0 ff] } : State).pending = Instr.nop t0 ff :: [] ∧ State.reset.pending = [] := by decide +kernel

theorem witness_EveryStepKeepsMemoryCanonical : Memory.wf (one live).pack.mem = true ∧ Memory.wf ({ one live with pack := { (one live).pack with mem := [(5, 1)] } } : State).pack.mem = true := by
  decide +kernel

theorem witness_DecodeOfEncode : encOk .add ff = true ∧ encOk .addi { ff with b := 0, imm := 0xFFFFFFFF } = true ∧ encOk .fenceE { ff with d := 0, a := 0, b := 0, imm := 2 } = true := by
  decide +kernel

theorem witness_FormsThatDoNotExecute :
    (live.canIssue t0 = false) ∧
    ((live.setTh t0 { st := .ready }).setPhase 3).canIssue t0 = true ∧ ((live.setTh t0 { st := .ready }).setPhase 3).issueHeld = true ∧
    (let g := (run {}).pack.g 0; g.canIssue t0 = true ∧ g.issueHeld = false ∧ encOk .add { ff with imm := 1 } = false) ∧
    (encOk .add { ff with gn := true } = true ∧ ((run {}).pack.thread t0).pred 0 = true) ∧
    (let g := { (live.setTh t0 { st := .ready }) with loads := [{ seq := 1, t := t0, pc := 0, addr := 0, size := 4, sx := false, d := 3 }] }
     g.canIssue t0 = true ∧ g.issueHeld = false ∧ g.awaits t0 .add ff = true) := by decide +kernel

theorem witness_arithmetic :
    ∀ op ∈ [Op.add, .sub, .mul, .mulhu, .divu, .remu, .divs, .rems, .and, .or, .xor, .shl, .shr, .sra], issuesOk (run (regs2 7 3)) t0 op ff = true := by
  decide +kernel
theorem witness_immediates :
    ∀ op ∈ [Op.addi, .subi, .muli, .mulhui, .divui, .remui, .divsi, .remsi, .andi, .ori, .xori, .movhi],
      issuesOk (run (regs2 7 3)) t0 op { ff with b := 0, imm := 0xFFFFFFFF } = true := by decide +kernel
theorem witness_shift_immediates : ∀ op ∈ [Op.shli, .shri, .srai], issuesOk (run (regs2 7 3)) t0 op { ff with b := 0, imm := 63 } = true := by
  decide +kernel
theorem witness_DivisionAndItsTrap :
    ∀ op ∈ [Op.divu, .remu, .divs, .rems], issuesOk (run (regs2 7 0)) t0 op ff = true ∧ ((run (regs2 7 0)).pack.thread t0).s 2 = 0 := by decide +kernel
theorem witness_CompareAndPredicateLogic :
    issuesOk (run (regs2 1 2)) t0 .cmp { ff with c := 5 } = true ∧ issuesOk (run (regs2 1 2)) t0 .cmpi { ff with b := 0, c := 4 } = true ∧
    issuesOk (run (regs2 1 2)) t0 .plog { ff with c := 3 } = true := by decide +kernel

/-- The boundary of the quotient: −2^63 / −1; the worked values of a wrap and of a signed shift, by hand. -/
theorem test_add_wraps : runs (.add t0 ff) (run (regs2 0xFFFFFFFFFFFFFFFF 2)) (fun p => decide ((p.thread t0).s 3 = 1)) = true := by decide +kernel
theorem test_divs_boundary : runs (.divs t0 ff) (run (regs2 0x8000000000000000 0xFFFFFFFFFFFFFFFF)) (fun p => decide ((p.thread t0).s 3 = 0x8000000000000000)) = true := by
  decide +kernel
theorem test_sra : runs (.sra t0 ff) (run (regs2 0x8000000000000000 4)) (fun p => decide ((p.thread t0).s 3 = 0xF800000000000000)) = true := by decide +kernel
theorem test_mulhui_sign : runs (.mulhui t0 { ff with b := 0, imm := 0xFFFFFFFF }) (run (regs2 2 0)) (fun p => decide ((p.thread t0).s 3 = 1)) = true := by
  decide +kernel

theorem witness_ControlInstructions :
    issuesOk (run (regs2 1 2)) t0 .br { ff with d := 0, a := 0, b := 0, imm := 0xFFFFFFFF } = true ∧
    issuesOk (run (regs2 1 2)) t0 .call { ff with a := 0, b := 0, imm := 5 } = true ∧
    issuesOk (run (regs2 1 2)) t0 .jr { ff with d := 0, b := 0 } = true ∧
    issuesOk (run {}) t0 .halt { ff with d := 0, a := 0, b := 0 } = true ∧ issuesOk (run {}) t0 .nop { ff with d := 0, a := 0, b := 0 } = true ∧
    (∀ p ∈ [(Op.xgetCause, 0), (.xgetFpc, 1), (.xgetFaddr, 2), (.xgetSstat, 3)], issuesOk (run {}) t0 p.1 (({ ff with a := 0, b := 0 } : Fields).select p.2) = true) ∧
    issuesOk (run {}) t0 .xclr { ff with d := 0, a := 0, b := 0 } = true ∧ issuesOk (run {}) t0 .xret { ff with d := 0, a := 0, b := 0, imm := 1 } = true := by
  decide +kernel
theorem test_br_back : runs (.br t0 { ff with d := 0, a := 0, b := 0, imm := 0xFFFFFFFF }) (run {}) (fun p => decide ((p.thread t0).pc = 0xFFFF)) = true := by
  decide +kernel

theorem witness_TakingAnException :
    bit ({ theh := 0x00010007#32 } : Thread).theh 16 = true ∧ bit ({} : Thread).theh 16 = false ∧ bit ({} : Thread).theh 17 = false := by decide +kernel

/-- A store and a load of thread 0 in flight. -/
def inFlight : Pkg :=
  { (live.setTh t0 { st := .ready }) with
    stores := [{ seq := 0, t := t0, pc := 0, addr := 0, size := 4, data := 0x04030201 }],
    loads := [{ seq := 0, t := t0, pc := 0, addr := 8, size := 4, sx := true, d := 5 }],
    eops := [{ seq := 0, t := t0, pc := 0, op := .cvt, f := ff, td := {}, ta := {}, tb := {}, tc := {}, v := [] }] }

theorem witness_Fences :
    (∀ p ∈ [(Op.fenceW, 0), (.fenceRw, 1), (.fenceE, 2), (.fenceI, 3)],
      issuesOk (run {}) t0 p.1 (({ ff with d := 0, a := 0, b := 0 } : Fields).select p.2) = true ∧
      issuesOk (one inFlight) t0 p.1 (({ ff with d := 0, a := 0, b := 0 } : Fields).select p.2) = true) ∧
    (∃ x ∈ inFlight.stores, x.t = t0 ∧ ¬ inFlight.seq + 1 ≤ x.seq) ∧ (∃ x ∈ inFlight.loads, x.t = t0 ∧ ¬ inFlight.seq + 1 ≤ x.seq) ∧
    (∃ x ∈ inFlight.aops ++ inFlight.eops, x.t = t0 ∧ ¬ inFlight.seq + 1 ≤ x.seq) := by decide +kernel

/-! Memory instructions -/

/-- Byte 0x40 of cluster 0's buffer of the thread's own die (space 1). -/
def own1 : Word := 0x03F1000000000040

/-- A load of 4 bytes of s1 into s5; a store of 4 bytes of s2 at s1. -/
def fLd : Fields := { ff with d := 5, b := 0, imm := 0xA0000000 }
def fSt : Fields := { ff with d := 0, imm := 0x80000000 }

/-- A package with `n` loads and `m` stores of thread 0 in flight. -/
def busyMem (n m : Nat) : State :=
  one { (live.setTh t0 { regs2 own1 7 with st := .ready }) with
    loads := List.replicate n { seq := 0, t := t0, pc := 0, addr := own1, size := 4, sx := false, d := 9 },
    stores := List.replicate m { seq := 0, t := t0, pc := 0, addr := own1, size := 4, data := 1 } }

theorem witness_LoadAndStoreIssue :
    issuesOk (run (regs2 own1 7)) t0 .ld fLd = true ∧ issuesOk (run (regs2 own1 7)) t0 .st fSt = true ∧
    ((run (regs2 own1 7)).pack.atIssue t0).issueBad t0 own1.toNat 4 = none ∧
    ((run (regs2 own1 7)).pack.atIssue t0).issueBad t0 (own1.toNat + 2) 4 = some 5 ∧
    ((run (regs2 own1 7)).pack.atIssue t0).issueBad t0 0x03F5000000000040 4 = some 1 ∧
    issuesOk (busyMem 8 0) t0 .ld fLd = true ∧ ((busyMem 8 0).pack.atIssue t0).issueBad t0 own1.toNat 4 = none ∧
    8 ≤ (((busyMem 8 0).pack.g 0).loadsOf t0).length ∧
    issuesOk (busyMem 0 16) t0 .st fSt = true ∧ 16 ≤ (((busyMem 0 16).pack.g 0).storesOf t0).length := by decide +kernel
theorem witness_LoadAndStoreIssue_places :
    ((run (regs2 own1 7)).pack.atIssue t0).at 0 (own1.toNat / 2 ^ 58) = some 0 ∧ staticOk 0 1 (own1.toNat % 2 ^ 48) = true ∧
    staticOk 0 5 0x40 = false ∧ ((run {}).pack.atIssue t0).at 0 5 = none ∧ (own1 + 2).toNat % 4 ≠ 0 ∧
    (0x03F3000000000000 : Word).toNat / 2 ^ 48 % 16 = 3 ∧ ((run {}).pack.g 0).unitFlight t0 < 64 ∧ 64 ≤ ((busyMem 8 56).pack.g 0).unitFlight t0 := by
  decide +kernel
theorem test_ld_waits_at_the_limit : runs (.ld t0 fLd) (busyMem 8 0) (fun p => decide ((p.thread t0).wait = some .mem)) = true := by decide +kernel
theorem test_st_misaligned : runs (.st t0 fSt) (run (regs2 (own1 + 2) 7)) (fun p => decide ((p.thread t0).cause = 5 ∧ (p.thread t0).faddr = own1 + 2)) = true := by
  decide +kernel

/-- A state with memory. -/
def withMem (s : State) (m : Mem) : State := { s with pack := { s.pack with mem := m } }

/-- A load and a store of thread 0 in flight at `own1`. -/
def accPkg : Pkg :=
  { live with thr := [(0, { st := .ready })], loads := [{ seq := 1, t := t0, pc := 0, addr := own1, size := 2, sx := true, d := 5 }],
              stores := [{ seq := 3, t := t0, pc := 0, addr := own1 + 8, size := 4, data := 0x0A0B0C0D }] }
def access : State := withMem (one accPkg) [(2 ^ 48 + 0x40, 0x34), (2 ^ 48 + 0x41, 0xF2)]

theorem witness_MemoryResponses :
    (access.pack.g 0).hubUp = true ∧ access.pack.inOrder t0 1 own1.toNat 2 = true ∧
    (∃ l, access.pack.where' 0 (some 0) own1.toNat = .ok l ∧ l.space ≠ 3 ∧ access.pack.chWaits l = false) ∧
    (∀ x ∈ (access.pack.g 0).stores, x.stuck = false ∧ access.pack.chWaits { pk := 0, site := 0, space := 1, off := 0x48 } = false ∧ access.pack.siteOrder x = true ∧ access.pack.inOrder t0 x.seq x.addr.toNat x.size = true ∧
      access.pack.where' 0 (some 0) x.addr.toNat = .ok { pk := 0, site := 0, space := 1, off := 0x48 }) := by
  refine ⟨by decide +kernel, by decide +kernel, ⟨{ pk := 0, site := 0, space := 1, off := 0x40 }, by decide +kernel, by decide, by decide +kernel⟩, by decide +kernel⟩
/-- Little-endian and sign-extended (R4, R119): bytes 34 F2 are 0xF234. -/
theorem test_load_response : runs (.loadResponse 0 0 .ok) access (fun p => decide ((p.thread t0).s 5 = 0xFFFFFFFFFFFFF234 ∧ (p.g 0).loads = [])) = true := by
  decide +kernel
theorem test_store_ack : runs (.storeAck 0 0 .ok) access (fun p =>
    decide (memRd p.mem (2 ^ 48 + 0x48) = 0x0D ∧ memRd p.mem (2 ^ 48 + 0x4B) = 0x0A ∧ memRd p.mem (2 ^ 48 + 0x4C) = 0 ∧ Memory.wf p.mem = true)) = true := by
  decide +kernel
theorem test_store_ue : runs (.storeAck 0 0 .ue) access (fun p => decide (p.mem = access.pack.mem ∧ (p.g 0).stores = [])) = true := by decide +kernel

/-- A thread with descriptor 3: F4, 32 by 32 elements apart by 128 bytes. -/
def tile0 : Tile := { w0 := 0x03F0000000001000, w1 := 128 }

theorem witness_DescriptorInstructions :
    issuesOk (run { regs2 5 7 with tiles := [(3, tile0)] }) t0 .tdset { ff with b := 0, imm := 4 } = true ∧
    issuesOk (run { regs2 5 7 with tiles := [(1, tile0)] }) t0 .tdget { ff with b := 0, imm := 1 } = true ∧
    issuesOk (run { regs2 5 7 with tiles := [(3, tile0)] }) t0 .tdadv { ff with b := 0, imm := 1 } = true ∧
    issuesOk (run (regs2 0x3F800000 7)) t0 .cvts { ff with b := 0, imm := 0x10 } = true ∧ tile0.blk = false := by decide +kernel
/-- The three outcomes of TDADV: it moves, it is refused (an odd move of an F4 view along columns), its format code is reserved. -/
theorem witness_DescriptorAdvance_outcomes :
    (tile0.advance 1 4).isSome = true ∧
    (let f4 : Tile := { w4 := 0 }
     issuesOk (run { regs2 5 7 with tiles := [(3, f4)] }) t0 .tdadv { ff with b := 0, imm := 1 } = true ∧ f4.fmtCode < 8 ∧ f4.advance 1 5 = none) ∧
    (let r : Tile := { w4 := BitVec.ofNat 64 (8 * 2 ^ 51) }
     issuesOk (run { regs2 5 7 with tiles := [(3, r)] }) t0 .tdadv { ff with b := 0, imm := 1 } = true ∧ 8 ≤ r.fmtCode) := by decide +kernel
theorem witness_DescriptorAdvance :
    (let d : Tile := { w4 := BitVec.ofNat 64 (2 ^ 55) }; d.blk = true ∧ d.baxis = 0) ∧ (let d : Tile := { w4 := BitVec.ofNat 64 (2 ^ 55 + 2 ^ 56) }; d.blk = true ∧ d.baxis = 1) ∧
    tile0.blk = false ∧ ({ w4 := 0 } : Tile).fmt = .f4 ∧ ({ ff with imm := 5 } : Fields).imm.toNat % 8 = 5 ∧
    ({ w4 := BitVec.ofNat 64 (8 * 2 ^ 51) } : Tile).fmtCode = 8 := by decide +kernel
theorem test_advance_along_blocks : (({ w1 := 10, w4 := BitVec.ofNat 64 (2 ^ 55 + 4 * 2 ^ 51) } : Tile).advance 1 (-64)).map Tile.bebase = some 8 ∧
    ({ w4 := BitVec.ofNat 64 (2 ^ 55 + 4 * 2 ^ 51) } : Tile).advance 1 16 = none := by decide +kernel

/-! Tile instructions, the Kennel, tokens, timers, draws -/

/-- B16, 32 by 32, in the cluster buffer. -/
def tileB : Tile := { w0 := 0x03F1000000001000, w3 := 64, w4 := 0x0018000000000000 }

/-- A thread with descriptors 0 to 3 and scalars 1 and 2. -/
def tiled (a b : Word) : Thread := { regs2 a b with tiles := [(0, tileB), (1, tileB), (2, tileB), (3, tileB)], st := .ready }

/-- The package with stream slot 0 in effect with SEQEN, micro-batch 5 held with 2 granules. -/
def tiledPkg (a b : Word) : Pkg :=
  { ((live.setTh t0 (tiled a b)).wr (rMbt 5 0) (mk32 (2 ^ 18))).wr (rMbt 5 0x10) 2 with strm := [(0, { ctl := 0x01000001#32 })] }
def tiledSt (a b : Word) : State := one (tiledPkg a b)

def fZ : Fields := { ff with d := 0, a := 1, b := 2, c := 0 }

theorem witness_OperationsAreHandedOver :
    (issuesOk (tiledSt 5 0) t0 .mma { fZ with imm := 0x80 } = true ∧ mmaChk ((tiledSt 5 0).pack.atIssue t0) t0 { fZ with imm := 0x80 } tileB tileB = none) ∧
    (issuesOk (tiledSt 5 0) t0 .mmb { fZ with c := 3, imm := 3 } = true ∧ mmbChk ((tiledSt 5 0).pack.atIssue t0) t0 { fZ with c := 3, imm := 3 } tileB tileB tileB = none) ∧
    (issuesOk (tiledSt 5 0) t0 .epi { fZ with b := 31 } = true ∧ epiChk ((tiledSt 5 0).pack.atIssue t0) t0 { fZ with b := 31 } tileB {} [0, 5, 0] = none) ∧
    (issuesOk (tiledSt 5 0) t0 .cvt { fZ with b := 0 } = true ∧ eltChk ((tiledSt 5 0).pack.atIssue t0) .cvt t0 { fZ with b := 0 } tileB tileB tileB 0 = none) ∧
    (issuesOk (tiledSt 5 128) t0 .kstash { fZ with b := 1, c := 2 } = true ∧ tileB.bad = none ∧ kFmtOk tileB = true ∧ (tiledPkg 5 128).mbHeld 5 = true ∧
      128 + recBytes tileB ≤ (tiledPkg 5 128).mbGran 5 * 4096 ∧ ((tiledSt 5 128).pack.atIssue t0).viewBad t0 tileB 32 32 = none) ∧
    issuesOk (tiledSt 5 128) t0 .kfetch { fZ with a := 0, b := 1, c := 2 } = true ∧
    (issuesOk (tiledSt 5 0) t0 .randt fZ = true ∧ randtChk ((tiledSt 5 0).pack.atIssue t0) t0 fZ = none) ∧
    (issuesOk (tiledSt 5 0) t0 .gather { fZ with b := 0 } = true ∧ (tiledPkg 5 0).scaleOn 0 = true ∧ (tiledPkg 5 0).cengOn 0 = true ∧
      ((tiledSt 5 0).pack.atIssue t0).viewBad t0 tileB 32 32 = none) := by decide +kernel

theorem witness_OperationsAreHandedOver_more :
    (∀ op ∈ [Op.fnv, .fnd], issuesOk (tiledSt 5 0) t0 op { fZ with b := 0 } = true ∧ eltChk ((tiledSt 5 0).pack.atIssue t0) op t0 { fZ with b := 0 } tileB tileB tileB 0 = none) ∧
    (let r := mkOp (tiledPkg 5 0) .kfetch t0 fZ {} [5, 0]
     let s := one { tiledPkg 5 0 with eops := [r] }
     issuesOk s t0 .kfree { ff with d := 0, a := 0, b := 1 } = true ∧ (s.pack.g 0).kBusy 5 = true) ∧
    (let r := mkOp (tiledPkg 5 0) .cvt t0 fZ {} [0, 0]
     let g := (tiledPkg 5 0).setTh { t0 with thr := 1 } { st := .wait, wait := some (.room r 0 none) }
     issuesOk (one g) t0 .cvt { fZ with b := 0 } = true ∧ (∃ y ∈ g.roomWaits, sameInput r y = true) ∧
     (tiledPkg 5 0).room r = true ∧ (tiledPkg 5 0).roomWaits = []) := by decide +kernel

/-- Room, and none where the queue of the conversion's engine holds all it takes (log 5). -/
theorem witness_room (r : OpRec) (h : r.toArray = false) (h' : sameEngine r r = true) :
    live.room r = true ∧ ({ live with eops := List.replicate inputDepth r } : Pkg).room r = false := by
  constructor
  · simp [Pkg.room, h, live, inputDepth]
  · simp [Pkg.room, h, h']
theorem witness_room_record : (mkOp live .cvt t0 ff {} []).toArray = false ∧ sameEngine (mkOp live .cvt t0 ff {} []) (mkOp live .cvt t0 ff {} []) = true := by
  decide +kernel

theorem witness_KennelOverrun :
    issuesOk (tiledSt 5 8192) t0 .kstash { fZ with b := 1, c := 2 } = true ∧ (tiledPkg 5 8192).mbGran 5 * 4096 < 8192 + recBytes tileB ∧
    issuesOk (tiledSt 6 0) t0 .kstash { fZ with b := 1, c := 2 } = true ∧ (tiledPkg 6 0).mbHeld 6 = false := by decide +kernel
theorem witness_KennelOverrun_counts :
    (((tiledPkg 5 8192).wr (rMbt 5 0xC) 0xFFFFFFFF#32).rd (rMbt 5 0xC)).toNat = 0xFFFFFFFF ∧
    0 < ({ fZ with b := 1, c := 2, imm := 0x04300000 } : Fields).tcnt ∧
    issuesOk (tiledSt 5 8192) t0 .kstash { fZ with b := 1, c := 2, imm := 0x04300000 } = true ∧
    (tiledPkg 5 8192).thr.all (fun e => e.2.wait.isNone) = true ∧ bit ({} : Thread).theh 17 = false := by decide +kernel
theorem test_kstash_overrun : runs (.kstash t0 { fZ with b := 1, c := 2 }) (tiledSt 5 6208) (fun p =>
    decide ((p.g 0).mbRecomp 5 = true ∧ ((p.g 0).rd (rMbt 5 0xC)).toNat = 97 ∧ (p.thread t0).cause = 0x10 ∧ (p.thread t0).pc = 1)) = true := by decide +kernel

/-- Stage 1 enabled with KCAP 1 MiB and DEPTH 2, thread 0 of cluster 0 in it. -/
def staged (b n : Word) : Pkg :=
  let g := live.setTh t0 { regs2 b n with st := .ready }
  ((g.wr (rStage 1 0) (mk32 (2 ^ 27 + 2 * 2 ^ 16))).wr (rStage 1 4) 1).wr (rTmap 0 0 0) 9

theorem witness_KennelReservations :
    issuesOk (one (staged 5 8192)) t0 .kreserve { ff with a := 0, b := 1, c := 2 } = true ∧ (staged 5 8192).stageOf t0 = some 1 ∧
    2 ≤ (staged 5 8192).stCap 1 ∧ (staged 5 8192).kLine 1 = [] ∧ (staged 5 8192).kGrantOk 1 2 = true ∧ (staged 5 8192).mbHeld 5 = false ∧
    issuesOk (run (regs2 5 8192)) t0 .kreserve { ff with a := 0, b := 1, c := 2 } = true ∧ live.stageOf t0 = none ∧
    (staged 5 0x100040).stCap 1 < 257 ∧ ((staged 5 8192).wf (rStage 1 0x14) 9 0 2).kGrantOk 1 2 = false ∧
    issuesOk (tiledSt 5 0) t0 .kfree { ff with d := 0, a := 0, b := 1 } = true ∧ (tiledPkg 5 0).kBusy 5 = false ∧ (tiledPkg 5 0).mbHeld 5 = true := by decide +kernel
theorem witness_KennelReservations_bounds :
    2 < 2 ^ 26 ∧ (staged 5 8192).stUsed 1 + 2 ≤ (staged 5 8192).stCap 1 ∧ (staged 5 8192).stInfl 1 + 1 < 1024 ∧
    (staged 5 8192).stInfl 1 < (staged 5 8192).rf (rStage 1 0) 25 16 ∧ (staged 5 8192).bqReady 1 = 0 ∧
    (let g := (staged 5 8192).setTh { t0 with thr := 1 } { st := .wait, wait := some (.kres 1 6 64 3) }
     issuesOk (one g) t0 .kreserve { ff with a := 0, b := 1, c := 2 } = true ∧ g.kLine 1 ≠ []) := by decide +kernel
theorem test_kreserve : runs (.kreserve t0 { ff with a := 0, b := 1, c := 2 }) (one (staged 5 4160)) (fun p =>
    decide ((p.g 0).mbHeld 5 = true ∧ (p.g 0).mbGran 5 = 2 ∧ (p.g 0).stInfl 1 = 1 ∧ (p.thread t0).pred 3 = true)) = true := by decide +kernel
theorem test_kfree : runs (.kfree t0 { ff with d := 0, a := 0, b := 1 }) (tiledSt 5 0) (fun p =>
    decide ((p.g 0).mbHeld 5 = false ∧ (p.g 0).rd (rMbt 5 0xC) = 0xFFFFFFFF#32)) = true := by decide +kernel

/-- Token counter 7 of the thread's unit holds 3. -/
def tokens : Pkg := live.setTk 0 0 7 { count := 3 }
def fTok (n i : BitVec 32) : Fields := { ff with d := 2, a := 0, b := 0, imm := n * 65536 + i }

theorem witness_TokenInstructionsIssue :
    issuesOk (run (regs2 0x03F0000000000047 0)) t0 .tgive { ff with d := 0, b := 0, imm := 0xFFFF } = true ∧
    ((run {}).pack.atIssue t0).at 0 0 = some 0 ∧ ((run {}).pack.g 0).hole 0 = false ∧
    issuesOk (one (tokens.setTh t0 { st := .ready })) t0 .ttake (fTok 3 7) = true ∧ issuesOk (one (tokens.setTh t0 { st := .ready })) t0 .twait (fTok 4 7) = true ∧
    (tokens.tk 0 0 7).count = 3 ∧ (tokens.waiters (fun _ _ => true)) = [] ∧
    issuesOk (run {}) t0 .ttake { fTok 1 0x47 with c := 1 } = true ∧ live.tmrAlloc 0 = false ∧
    (live.wr (rTmr 0 0) 0x88000000#32).tmrAlloc 0 = true ∧ (live.wr (rTmr 0 0) 0x88000000#32).tmrExp 0 = false ∧
    (live.wr (rTmr 0 0) 0xC8000000#32).tmrExp 0 = true := by decide +kernel
theorem test_ttake : runs (.ttake t0 (fTok 3 7)) (one (tokens.setTh t0 { st := .ready })) (fun p =>
    decide (((p.g 0).tk 0 0 7).count = 0 ∧ (p.thread t0).pred 2 = true)) = true := by decide +kernel
theorem test_twait_waits : runs (.twait t0 (fTok 4 7)) (one (tokens.setTh t0 { st := .ready })) (fun p =>
    decide (((p.g 0).tk 0 0 7).count = 3 ∧ (p.thread t0).wait = some (.token 7 4 false 2 none))) = true := by decide +kernel

/-- Tokens on their way to counter 7. -/
def flying (n : Nat) : Flight := { seq := 5, pc := 0, src := t0, dst := t0, ctr := 7, n := n, rel := true, step := 1 }
def flySt (n : Nat) : State := { one tokens with pack := { (one tokens).pack with flight := [flying n] } }

theorem witness_TokenDeliveries :
    (flySt 65533).pack.flight[0]? = some (flying 65533) ∧ (tokens.writesDone t0 5) = true ∧ tokens.hole 0 = false ∧ tokens.unitOn 0 0 = true ∧ tokens.thr = [] ∧
    writable (one tokens) 0 .host 0 (0x10000 + 0x200 + 4 * 63) .unit (0x200 + 4 * 63) = true ∧
    (t0.key / 16 = uk 0 0) ∧ (3 : Nat) + 65532 ≤ 65535 := by decide +kernel
/-- A delivery to a gated unit, and a counter with one thread that waits on it. -/
theorem witness_TokenDeliveries_gated :
    (let s : State := { one (tokens.wr (rGateU 0 0) 0) with pack := { (one (tokens.wr (rGateU 0 0) 0)).pack with flight := [flying 2] } }
     s.pack.flight[0]? = some (flying 2) ∧ (s.pack.g 0).writesDone t0 5 = true ∧ (s.pack.thread t0).st ≠ .wait ∧ (s.pack.g 0).unitOn 0 0 = false ∧
     (s.pack.g 0).hole 0 = false) ∧
    (let g := tokens.setTh t0 { st := .wait, wait := some (.token 7 4 true 2 none) }
     (∃ x, g.thr = [(t0.key, x)] ∧ x.st = .wait ∧ x.wait = some (.token 7 4 true 2 none)) ∧ (g.tk 0 0 7).count + 1 ≤ 65535 ∧ 4 ≤ (g.tk 0 0 7).count + 1) := by
  refine ⟨by decide +kernel, ⟨⟨{ st := .wait, wait := some (.token 7 4 true 2 none) }, by decide +kernel, rfl, rfl⟩, by decide +kernel, by decide +kernel⟩⟩
theorem test_delivery_saturates : runs (.tokenDelivery 0) (flySt 65533) (fun p => decide ((p.g 0).tk 0 0 7 = { count := 65535, sat := true })) = true := by
  decide +kernel
theorem test_count_write : runs (.tokenCountWrite 0 .host 0 0 63 9 false) (one tokens) (fun p => decide (((p.g 0).tk 0 0 63).count = 9)) = true := by decide +kernel

/-- Timers 0 allocated and running, the others free; and all 64 allocated. -/
def timers : Pkg := live.wr (rTmr 0 0) 0xA8000000#32
def noTimer : Pkg := (List.range 64).foldl (fun g n => g.wr (rTmr n 0) 0x88000000#32) live

theorem witness_Timers :
    issuesOk (one (timers.setTh t0 { st := .ready })) t0 .tmalloc { ff with a := 0, b := 0, c := 1 } = true ∧ timers.timerOn = true ∧
    timers.tmrAlloc 0 = true ∧ timers.tmrAlloc 1 = false ∧ (∀ j, j < 64 → noTimer.tmrAlloc j = true) ∧
    issuesOk (one (noTimer.setTh t0 { st := .ready })) t0 .tmalloc { ff with a := 0, b := 0, c := 1 } = true ∧
    issuesOk (one (noTimer.setTh t0 { regs2 63 100 with st := .ready })) t0 .tmset { ff with d := 0 } = true ∧
    issuesOk (one (noTimer.setTh t0 { regs2 63 100 with st := .ready })) t0 .tmfree { ff with d := 0, b := 0 } = true ∧
    writable (one timers) 0 .host 62 0x1000 .timer 0 = true ∧ timers.rf (rTmr 0 0) 28 27 = 1 ∧ timers.rb (rTmr 0 0) 29 = true ∧ timers.hubUp = true := by
  decide +kernel
theorem test_tmalloc : runs (.tmalloc t0 { ff with a := 0, b := 0, c := 1 }) (one (timers.setTh t0 { st := .ready })) (fun p =>
    decide ((p.thread t0).s 3 = 1 ∧ (p.thread t0).pred 1 = true ∧ (p.g 0).tmrAlloc 1 = true)) = true := by decide +kernel
theorem witness_Timers_waiter :
    (let g := timers.setTh t0 { st := .wait, wait := some (.token 7 4 true 2 (some 0)) }
     (∃ x w, g.thr = [(t0.key, x)] ∧ x.st = .wait ∧ x.wait = some w ∧ w.timer = some 0) ∧ g.rb (rTmr 0 0) 29 = true ∧ g.rf (rTmr 0 0) 28 27 ≠ 2) := by
  refine ⟨⟨{ st := .wait, wait := some (.token 7 4 true 2 (some 0)) }, .token 7 4 true 2 (some 0), by decide +kernel, rfl, rfl, rfl⟩, by decide +kernel⟩
theorem test_timer_expiry : runs (.timerExpiry 0 0) (one timers) (fun p => decide ((p.g 0).tmrExp 0 = true ∧ (p.g 0).rb (rTmr 0 0) 29 = false)) = true := by
  decide +kernel

theorem witness_RandomInstructions :
    issuesOk (tiledSt 5 7) t0 .rand { fZ with imm := 0 } = true ∧ issuesOk (tiledSt 5 7) t0 .rand { fZ with imm := 0x400 } = true ∧
    issuesOk (tiledSt 5 7) t0 .randt { fZ with imm := 0x400 } = true ∧ ((tiledPkg 5 7).drawOf 0 5).isSome = true ∧ (tiledPkg 5 7).seqen 0 = true ∧
    ({ tiledPkg 5 7 with strm := [(0, { ctl := 1#32 })] } : Pkg).seqen 0 = false ∧ (tiledPkg 5 7).streamOn = true := by decide +kernel
theorem test_rand_seq : runs (.rand t0 { fZ with imm := 0x400 }) (tiledSt 5 7) (fun p => decide ((p.g 0).cursor 0 = 1 ∧ (p.thread t0).pc = 1)) = true := by
  decide +kernel

/-! Queues, arrays and engines, unit registers -/

/-- Queue 600 (class 0b01) at die 0, 16 entries at space 0x2, mapped and enabled; indices `i`, AVAIL and OUT; the thread READY with `x`. -/
def queued (q cfg : Nat) (i : Ix) (av out : Nat) (x : Thread) : Pkg :=
  let g := (((live.setTh t0 { x with st := .ready }).wr (rQmap q) 0x40#32).wr (rQ 0 q 0) (mk32 (4 * 2 ^ 16 + cfg))).wr (rQ 0 q 8) 0x00020000#32
  ((g.qArm 0 q).setIx 0 q i).setCred 0 q av out
def ix0 : Ix := { p := 0, c := 0, m := 0, l := 0 }
def q600 (a : Word) : Pkg := (queued 600 0 ix0 10 6 (regs2 a 600)).setCredits 0 0 0 600 4
def fQ (n : BitVec 32) : Fields := { ff with d := 3, a := 0, b := 2, c := 0, imm := n }

theorem witness_QueueInstructionsIssue :
    (∀ op ∈ [Op.qmark, .qrewind, .qrelease, .cgive, .qcount, .qpush, .qpop, .ctake],
      let f : Fields := match op with | .qpush | .qpop => { fQ 3 with a := 1, d := if op = .qpush then 0 else 3 } | .qcount => fQ 0 | .ctake => fQ 3 | .qmark | .qrewind => { fQ 0 with d := 0 } | _ => { fQ 3 with d := 0 }
      issuesOk (one (q600 64)) t0 op f = true ∧ ((one (q600 64)).pack.atIssue t0).queueTo t0 600 = some (0, 600, 0, 0) ∧
      issuesOk (one ((q600 64).setTh t0 { regs2 64 7 with st := .ready })) t0 op f = true) ∧
    ((q600 64).thr.lookup t0.key).map (fun x => (x.s 1, x.s 2)) = some (64, 600) ∧ (q600 64).credits 0 0 0 600 = 4 ∧ (q600 64).credRoom 0 0 0 600 = true ∧
    ((one (q600 64)).pack.atIssue t0).queueTo t0 7 = none ∧ (fQ 3).i 7 0 = 3 ∧ (fQ 3).ib 8 = false := by decide +kernel
/-- The engine's input queue of die 0 holds all it takes (log 5). -/
theorem witness_QueueInstructionsIssue_full (r : QReq) (h : (r.site == 0 && r.r.op != .ctake && r.r.op != .qpop) = true) : ({ q600 64 with qops := List.replicate inputDepth r } : Pkg).engRoom 0 = false ∧
    (q600 64).engRoom 0 = true := by
  constructor
  · simp only [Pkg.engRoom, List.filter_replicate, h, if_true, List.length_replicate, Nat.lt_irrefl, decide_false]
  · decide +kernel
theorem test_qpush_sends : runs (.qpush t0 { fQ 4 with a := 1, d := 0 }) (one (q600 64)) (fun p => decide ((p.g 0).qops.map (fun x => (x.site, x.qid, x.n)) = [(0, 600, 4)] ∧
    (p.g 0).credits 0 0 0 600 = 0 ∧ (p.thread t0).pc = 1)) = true := by decide +kernel
theorem test_qpop_waits : runs (.qpop t0 { fQ 3 with a := 1 }) (one (q600 64)) (fun p => decide ((p.thread t0).wait = some (.qpop 0 600 3 3 none) ∧ (p.thread t0).pc = 0)) = true := by decide +kernel
theorem test_ctake_unmapped : runs (.ctake t0 (fQ 3)) (one ((q600 64).setTh t0 { regs2 64 7 with st := .ready })) (fun p => decide ((p.thread t0).cause = 1)) = true := by decide +kernel

/-- A request of the thread at queue 600. -/
def req (op : Op) (n : Nat) (v : List Word) : QReq := { seq := 9, r := mkOp live op t0 (fQ (BitVec.ofNat 32 n)) {} v, site := 0, qid := 600, n := n }
/-- Queue 600 with P 9, C 5, M 3, L 1 and the one request. -/
def slice (op : Op) (n : Nat) : Pkg := { queued 600 0 { p := 9, c := 5, m := 3, l := 1 } 8 0 { st := .ready } with qops := [req op n []] }

theorem witness_QueueInstructionsIssue_request : (let r := req .qmark 0 []; (r.site == 0 && r.r.op != .ctake && r.r.op != .qpop) = true) := by decide +kernel
theorem witness_QueueEngineSlice : ∀ op ∈ [Op.qmark, .qrewind, .qrelease],
    let g := slice op 4
    g.hubUp = true ∧ g.qengOn 0 = true ∧ g.qState 0 600 = 1 ∧ g.qInput 0 600 = false ∧ g.copiesOk 0 600 = true ∧
    (g.ix 0 600).ok (g.qSize 0 600) = true ∧ g.ix 0 600 = { p := 9, c := 5, m := 3, l := 1 } ∧ (4 ≤ ringDist (g.ix 0 600).c (g.ix 0 600).l) ∧
    g.avail 0 600 + 4 < 65536 ∧ g.pr.dq = [] ∧ g.ld.resume = false := by decide +kernel
/-- A QPUSH of three entries that spends credits, and a QCOUNT whose thread waits. -/
theorem witness_QueueEngineSlice_more :
    (let g : Pkg := { queued 600 0 { p := 9, c := 5, m := 3, l := 1 } 8 6 { st := .ready } with qops := [req .qpush 3 [0x0002000000010000]] }
     3 ≤ g.qSize 0 600 ∧ g.writesDone t0 9 = true ∧ ((one g).pack.engSpan 0 0 0x0002000000010000 192).isSome = true ∧
     ringDist (g.ix 0 600).p (g.ix 0 600).l + 3 ≤ g.qSize 0 600 ∧ 3 ≤ g.outc 0 600) ∧
    (let g := (slice .qcount 0).setTh t0 { st := .wait, wait := some (.resp 3) }
     (g.th t0).st = .wait ∧ (g.th t0).wait = some (.resp (req .qcount 0 []).r.f.d.toNat)) := by decide +kernel
theorem test_qmark : runs (.queueEngineSlice 0 0 (0, .ok)) (one (slice .qmark 0)) (fun p => decide ((p.g 0).ix 0 600 = { p := 9, c := 5, m := 5, l := 1 })) = true := by decide +kernel
theorem test_qrewind : runs (.queueEngineSlice 0 0 (0, .ok)) (one (slice .qrewind 0)) (fun p => decide ((p.g 0).ix 0 600 = { p := 9, c := 3, m := 3, l := 1 })) = true := by decide +kernel
theorem test_qrelease : runs (.queueEngineSlice 0 0 (0, .ok)) (one (slice .qrelease 4)) (fun p =>
    decide ((p.g 0).ix 0 600 = { p := 9, c := 5, m := 5, l := 5 } ∧ (p.g 0).avail 0 600 = 12)) = true := by decide +kernel

/-- A CTAKE at the head of its line. -/
def taking : Pkg := { queued 600 0 ix0 8 2 {} with qops := [req .ctake 3 []] }.setTh t0 { st := .wait, wait := some (.ctake 0 600 3 3 none) }
/-- A QPOP of two entries at the head of its line, the ring holding two entries with right CHK. -/
def popping (upset : Bool) : State :=
  let q := queued 600 0 { p := 2, c := 0, m := 0, l := 0 } 14 0 {}
  let g := { q with qops := [req .qpop 2 [0x0002000000010000]] }.setTh t0 { st := .wait, wait := some (.qpop 0 600 2 3 none) }
  let e (i : Nat) : List Byte := let d := List.replicate 59 0 ++ [BitVec.ofNat 8 (i + 1)]; d ++ leBytes (chkOf 600 i d + (if upset then 1 else 0)) 4
  let key := (g.ringLoc (g.entryLoc 0 0 600 0)).key
  { one g with pack := { (one g).pack with mem := memWrN [] key (e 0 ++ e 1) } }
/-- Stage 1 with thread 0 first in its line. -/
def reserving : Pkg := (staged 5 8192).setTh t0 { st := .wait, wait := some (.kres 1 5 8192 3) }
/-- A conversion, which waits for room. -/
def roomRec : OpRec := mkOp live .cvt t0 ff {} []
def roomSt : Pkg := live.setTh t0 { st := .wait, wait := some (.room roomRec 0 none) }

theorem witness_Grants :
    (let g := taking
     g.hubUp = true ∧ g.qops = [req .ctake 3 []] ∧ g.qengOn 0 = true ∧ g.qState 0 600 = 1 ∧ g.qProd 0 600 = 0 ∧ 3 ≤ g.qSize 0 600 ∧ 3 ≤ g.avail 0 600 ∧
     g.outc 0 600 + 3 < 65536 ∧ g.waiters (fun key w => match w with | .push _ => true | _ => false) = [] ∧ (fQ 3).d.toNat < 8 ∧ g.credRoom 0 0 0 600 = true) ∧
    (let s := popping false
     let g := s.pack.g 0
     g.qops = [req .qpop 2 [0x0002000000010000]] ∧ g.qState 0 600 = 1 ∧ g.qInput 0 600 = false ∧ 2 ≤ ringDist (g.ix 0 600).p (g.ix 0 600).c ∧ g.copiesOk 0 600 = true ∧
     (g.ix 0 600).ok (g.qSize 0 600) = true ∧ ((s.pack.ringRead 0 0 600 2 0).all (fun e => chkOk 600 e.1 e.2)) = true ∧
     (s.pack.engSpan 0 0 0x0002000000010000 128).isSome = true ∧ (req .qpop 2 []).r.f.i 31 26 = 0) ∧
    (let g := reserving
     g.hubUp = true ∧ g.pipeOn = true ∧ g.kLine 1 = [t0.key] ∧ (mget ({} : Thread) g.thr t0.key).wait = some (.kres 1 5 8192 3) ∧ g.kGrantOk 1 2 = true ∧ g.mbHeld 5 = false) ∧
    (let g := roomSt
     g.hubUp = true ∧ (g.th t0).st = .wait ∧ (g.th t0).wait = some (.room roomRec 0 none) ∧ g.room roomRec = true ∧ g.issueHeld = false ∧ queueOp roomRec.op = false ∧
     (∀ y ∈ g.roomWaits.takeWhile (fun y => !(y == roomRec)), sameInput roomRec y = false)) ∧
    (let r := (req .qmark 0 []).r
     let g := (q600 64).setTh t0 { regs2 64 600 with st := .wait, wait := some (.room r 0 none) }
     queueOp r.op = true ∧ (one g).pack.queueTo t0 ((g.th t0).s r.f.b.toNat) = some (0, 600, 0, 0) ∧ g.engRoom 0 = true ∧ g.issueHeld = false) := by decide +kernel
theorem test_ctake_grant : runs (.ctakeGrant 0 0 600) (one taking) (fun p => decide ((p.g 0).avail 0 600 = 5 ∧ (p.g 0).outc 0 600 = 5 ∧ (p.g 0).credits 0 0 0 600 = 3)) = true := by
  decide +kernel
theorem test_qpop : runs (.qpopSatisfied 0 0 600 (0, .ok)) (popping false) (fun p => decide (((p.g 0).ix 0 600).c = 2 ∧ (p.thread t0).pred 3 = true)) = true := by decide +kernel
theorem test_qpop_upset : runs (.qpopSatisfied 0 0 600 (0, .ok)) (popping true) (fun p => decide (((p.g 0).ix 0 600).c = 0 ∧ (p.g 0).qState 0 600 ≠ 1)) = true := by decide +kernel
theorem test_kreserve_grant : runs (.kreserveGrant 0 1) (one reserving) (fun p => decide ((p.g 0).mbHeld 5 = true ∧ (p.thread t0).pred 3 = true ∧ (p.thread t0).st = .ready)) = true := by
  decide +kernel
theorem test_engine_room : runs (.engineQueueRoom t0) (one roomSt) (fun p => decide ((p.g 0).eops = [roomRec] ∧ (p.thread t0).pc = 1)) = true := by decide +kernel

/-- An MMA without flags at accumulator tile 9, its operands in cluster buffer; and a RANDT. -/
def mmaRec : OpRec := { mkOp live .mma t0 { ff with d := 9, a := 0, b := 1, imm := 0x80 } {} [] with ta := tileB, tb := tileB }
def mmaSt : State := one { live with aops := [mmaRec] }
def randRec : OpRec := { mkOp live .randt t0 { ff with imm := 0x04300801 } {} [5, 0] with td := { tileB with w0 := 0x03F0000000000400 } }
def randSt : State := one { tiledPkg 5 0 with eops := [{ randRec with f := { ff with imm := 0x04300800 } }] }

theorem witness_ArrayOperationCompletes :
    (let g := mmaSt.pack.g 0; g.hubUp = true ∧ g.aops = [mmaRec] ∧ g.held mmaRec = false ∧ mmaSt.pack.opFree mmaRec = true ∧ mmaRec.f.d.toNat = 9 ∧ 9 / 8 = 1) ∧
    (let g := randSt.pack.g 0; g.hubUp = true ∧ (g.eops.all (fun r => !g.held r && randSt.pack.opFree r)) = true ∧ (g.drawOf 0 5).isSome = true ∧ ff.i 9 0 = 0) := by
  decide +kernel

theorem witness_EngineOperationCompletes : (match randSt.pack.spanOk 0 (some 0) 0x03F0000000000400 16 with | .ok _ => true | _ => false) = true ∧
    (randSt.pack.g 0).thr.all (fun e => e.2.st != .wait) = true ∧ ((randSt.pack.g 0).tk 0 0 3).count + 1 ≤ 65535 ∧
    (randSt.pack.g 0).eops.map (fun r => (r.f.i 31 26, r.f.i 25 20, r.f.i 18 11, r.f.i 9 0)) = [(1, 3, 1, 0)] := by decide +kernel
theorem test_randt_completes : runs (.engineCompletion 0 0 .ok 0) randSt (fun p => decide ((p.g 0).eops = [] ∧ ((p.g 0).tk 0 0 3).count = 1 ∧ p.mem.length ≤ 32)) = true := by
  decide +kernel
theorem test_mma_completes : runs (.arrayOperationComplete 0 0 0 1 .ok 0) mmaSt (fun p => decide ((p.g 0).aops = [] ∧ ((p.g 0).tile 0 0 1 1).kb = 1)) = true := by decide +kernel

def oUnit (u o : Nat) : Nat := 0x10000 + 0x400 * u + o
theorem witness_ThreadsStartAndStop :
    writable (one live) 0 .host 0 (oUnit 15 0) .unit (0x400 * 15) = true ∧ writable (one live) 0 .thread 0 (oUnit 0 0) .unit 0 = true := by decide +kernel
theorem test_run_start : runs (.runStart 0 .host 0 0 15) (one live) (fun p => decide (((p.g 0).th { t0 with thr := 15 }).st = .ready)) = true := by decide +kernel
theorem test_run_stop : runs (.runStop 0 .host 0 0 0) (one (live.setTh t0 { st := .wait, wait := some (.resp 3), pc := 7 })) (fun p =>
    decide (((p.g 0).th t0).st = .idle ∧ ((p.g 0).th t0).pc = 8)) = true := by decide +kernel

theorem witness_StatusWordAccess : writable (one live) 0 .host 0 (oUnit 15 0x33C) .unit (0x400 * 15 + 0x33C) = true ∧ live.tileAhead 0 15 1 7 = 0 ∧
    (live.tile 0 15 1 7).late = [] ∧ live.busy = [] := by decide +kernel
theorem test_status_word : runs (.accstAccess 0 .host 0 0 0 3 (some 0x00050001#32)) (one (live.setTile 0 0 0 3 { sta := 0x00020103#32 })) (fun p =>
    decide (((p.g 0).tile 0 0 0 3).sta = 0x00050102#32)) = true := by decide +kernel

theorem witness_RegisterWrites :
    writable (one live) 0 .host 0 (oUnit 15 0xFC) .unit (0x400 * 15 + 0xFC) = true ∧ writable (one live) 0 .host 0 (oUnit 0 0x40) .unit 0x40 = true ∧
    writable (one live) 0 .host 0 (oUnit 5 0x80) .unit (0x400 * 5 + 0x80) = true ∧
    live.place 0 0 3 0xFFFFC = .invalid ∧ (live.wr (rGateU 0 0) 0).place 0 0 3 (oUnit 0 0x40) = .gated ∧
    (∃ b o, blockOf 62 0x7010 = some (b, o) ∧ pvMask b o ≠ 0 ∧ mixedReg b o = false) ∧ Master.priv .thread = false ∧
    (match live.place 0 62 3 0x7010 with | .ok _ => true | _ => false) = true := by
  refine ⟨by decide +kernel, by decide +kernel, by decide +kernel, by decide +kernel, by decide +kernel, ⟨.pack, 0x10, ?_⟩, by decide +kernel, by decide +kernel⟩
  decide +kernel
theorem test_register_write_theh : runs (.registerWrite 0 .host 0 (oUnit 0 0xC0) 0xFFFFFFFF#32) (one live) (fun p => decide (((p.g 0).th t0).theh = 0xFFFFF#32)) = true := by decide +kernel
theorem test_register_write_thread_lock : gives (.registerWrite 0 .thread 62 0x7010 0#32) (one live) (one live).pack = true := by decide +kernel

theorem witness_PostedWritesAndErrlogTail :
    ({ live with busy := [5] } : Pkg).busy.contains (0 * 0x100000 + 5) = true ∧ writable (one live) 0 .host 62 0x20008 .errlog 8 = true ∧
    writable (one live) 0 .host 62 (0x30000 + 0x40 * 1023) .stream (0x40 * 1023) = true ∧ writable (one live) 0 .host 62 (0x30000 + 0x40 * 0 + 16) .stream 16 = true ∧
    ({ live with strm := [(3, { ctl := 1#32 })] } : Pkg).strmValid 3 = true ∧ live.strmValid 3 = false ∧ live.phase = 0 := by decide +kernel
/-- Posted writes that are due, and values that no rule forbids. -/
theorem witness_PostedWrites_due :
    (let x : Post := { key := rErrCtl, site := 62, off := 0x20008, v := 5, x := {} }
     due (posting live x) x = true ∧ x.key = rk 62 0x20000 ∧ blockOf x.site x.off = some (.errlog, 8) ∧ busyKey 62 .errlog 8 = some rErrCtl ∧
     forbidden .errlog 8 5#32 = none ∧ ¬ (hubR 0x30000 ≤ x.key ∧ x.key < hubR 0x40000)) ∧
    Master.priv .husk = true ∧ writable (one live) 0 .husk 62 0xC000 .qmap 0 = true ∧ busyKey 62 .qmap 0 = some (rQmap 0) := by decide +kernel
/-- A slot in use while the package is in P1, and a posted word of a slot that is not. -/
theorem witness_StreamSlotWrites_P1 :
    ((({ live with strm := [(3, { ctl := 1#32 })] } : Pkg).setPhase 3).phase = 3 ∧ (({ live with strm := [(3, { ctl := 1#32 })] } : Pkg).setPhase 3).strmValid 3 = true) ∧
    (let g : Pkg := { live with strmPost := [{ slot := 3, off := 4, v := 9 }], busy := [rStrm 3 0] }
     (∃ x : StrmPost, x.slot = 3 ∧ x.off = 4 ∧ g.strmPost = [x]) ∧ ∀ y ∈ g.posts, y.key ≠ rStrm 3 0) := by
  refine ⟨by decide +kernel, ⟨⟨{ slot := 3, off := 4, v := 9 }, rfl, rfl, rfl⟩, by decide +kernel⟩⟩
theorem test_errlog_tail : lands (.errlogTailWrite 0 .host 0#32) 62 0x20000 (one { live with smb := true }) (fun p => decide ((p.g 0).smb = false ∧ (p.g 0).busy = [])) = true := by
  decide +kernel
theorem test_stream_key : runs (.postedWriteComplete 0 62 (0x30000 + 0x40 * 3)) (one { live with strmPost := [{ slot := 3, off := 4, v := 9 }], busy := [rStrm 3 0] }) (fun p =>
    decide ((mget {} (p.g 0).strm 3).k0 = 9 ∧ (p.g 0).busy = [])) = true := by decide +kernel
theorem test_stream_staged : runs (.streamCtlWrite 0 .host 3 0x00000100#32) (one { live with strm := [(3, { ctl := 1#32 })] }) (fun p =>
    decide ((p.g 0).rb (rStrm 3 0) 30 = true ∧ (mget {} (p.g 0).strm 3).ctl = 1)) = true := by decide +kernel

theorem witness_ScaleSlotWrites : writable (one live) 0 .host 0 (0x40004 + 0x80 * 2047) .scale (0x80 * 2047 + 4) = true ∧
    writable (one live) 0 .host 0 0x40000 .scale 0 = true ∧ 0 < (0x7F7F#32).toNat % 65536 ∧ (0x7F7F#32).toNat % 65536 < 0x7F80 ∧ (0x10000#32).toNat % 65536 = 0 ∧
    0x7F80 ≤ (0x8001#32).toNat % 65536 := by decide +kernel
theorem test_cur_refused : runs (.scaleCurWrite 0 .host 0 7 0x8001#32) (one live) (fun p => decide ((p.g 0).rb (rScale 0 7 0) 29 = true ∧ (p.g 0).cur 0 7 = 0x3F80)) = true := by decide +kernel
theorem test_fill_discard : runs (.scaleFillDiscard 0 .host 0 7 1#32) (one live) (fun p => decide ((p.g 0).rf (rScale 0 7 0) 21 18 = 4)) = true := by decide +kernel

/-- Slot 7 of die 0 in warm-up, tag 2. -/
def warm : Pkg := (live.wr (rScale 0 7 0) (mk32 (1 + 3 * 2 ^ 18))).wr (rScale 0 7 0xC) (mk32 (2 + 2 * 65536))
theorem witness_WarmUpExchange : warm.rf (rScale 0 7 0) 21 18 ≠ 0 ∧ warm.rb (rScale 0 7 0) 30 = false ∧ warm.armed = [] ∧ 0 < warm.slotWarm 0 7 ∧ warm.slotTag 0 7 = 2 ∧
    writable (one warm) 0 .host 0 (0x40000 + 0x80 * 7) .scale (0x80 * 7) = true ∧ warm.leads = true ∧ warm.hubUp = true ∧ warm.armDone = [] ∧ warm.arms = [] := by decide +kernel
theorem test_arm : runs (.scaleArm 0 .host 0 7 0x40000001#32) (one warm) (fun p => decide (((p.g 0).sent.map (fun m => match m with | .arm n tag _ _ => (n, tag) | _ => (0, 0))).length = 1)) = true := by
  decide +kernel
theorem test_arm_receipt : runs (.warmupArmReceipt 0 7 2 2 0x4000) (one { warm with arms := [{ slot := 7, tag := 2, pre := 0x3F80, n := 1 }] }) (fun p =>
    decide ((p.g 0).sent = [.combined 7 2 0x4000])) = true := by decide +kernel
theorem test_combined : runs (.warmupCombined 0 7 2 0x4000) (one warm) (fun p => decide ((p.g 0).slotArm 0 7 = true)) = true := by decide +kernel

/-- CONTRIB to queue 2600 of class 0b10 with and without a credit. -/
def fC (n : BitVec 32) : Fields := { fZ with d := 3, a := 0, b := 2, c := 2, imm := n }
def contributing (n : Nat) : Pkg :=
  (queued 2600 0 ix0 10 0 { regs := [(1, 5#64), (2, 2600#64)], tiles := [(0, tileB)] }).setCredits 0 0 0 2600 n
theorem witness_ContribIssue : (∀ n ∈ [0, 1], let s := one (contributing n)
      issuesOk s t0 .contrib (fC 4) = true ∧ (s.pack.atIssue t0).queueTo t0 2600 = some (0, 2600, 0, 0) ∧ (contributing n).credits 0 0 0 2600 = n ∧
      (contributing n).qState 0 2600 = 1 ∧ (contributing n).qengOn 0 = true ∧ (s.pack.atIssue t0).viewBad t0 tileB 32 32 = none) ∧
    (contributing 1).pipeOn = true ∧ (fC 4).i 6 2 = 1 ∧ (fC 4).ib 0 = false ∧ tileB.bad = none ∧ tileB.fmt = .b16 ∧ tileB.blk = false ∧ (({} : Tile).rsv = 0) := by decide +kernel
theorem test_contrib : runs (.contrib t0 (fC 4)) (one (contributing 1)) (fun p => decide ((p.g 0).eops.length = 1 ∧ (p.g 0).credits 0 0 0 2600 = 0)) = true := by decide +kernel
theorem test_contrib_waits : runs (.contrib t0 (fC 4)) (one (contributing 0)) (fun p => decide ((p.g 0).eops = [] ∧ (p.thread t0).st = .wait)) = true := by decide +kernel

/-- Queue 5 (class 0b00) as PROD 1 or CHOST. -/
def unqueued (base : W32) : Pkg := ((live.wr (rQmap 5) 0x40#32).wr (rQ 0 5 0) (mk32 0)).wr (rQ 0 5 8) base
theorem witness_QueueConfiguration :
    writable (one live) 0 .host 62 (0xC000 + 4 * 4095) .qmap (4 * 4095) = true ∧ live.siteSt 47 = .active ∧ live.home 4095 = none ∧
    (queued 600 0 ix0 16 0 {}).home 600 = some 0 ∧ (queued 600 0 ix0 16 0 {}).qEn 0 600 = true ∧
    writable (one (unqueued 0x00020000)) 0 .host 0 (oQueue 5 0) .queue (0x40 * 5) = true ∧ (unqueued 0x00020000).qEn 0 5 = false ∧
    ((unqueued 0x00020000).wr (rQ 0 5 0) 0x00040000#32).qCfgOk 0 5 = true ∧ ((unqueued 0x00020000).wr (rQ 0 5 0) 0x00030000#32).qCfgOk 0 5 = false ∧
    writable (one (queued 600 0 ix0 16 0 {})) 0 .host 0 (oQueue 600 0) .queue (0x40 * 600) = true ∧ (queued 600 0 ix0 16 0 {}).outc 0 600 = 0 ∧
    (queued 600 0 ix0 15 1 {}).outc 0 600 ≠ 0 := by decide +kernel
theorem witness_QueueConfiguration_due :
    (let x : Post := { key := rQmap 4095, site := 62, off := 0xC000 + 4 * 4095, v := 0x6F, x := {} }
     due (posting live x) x = true ∧ x.key = rk 62 (0xC000 + 4 * 4095)) ∧
    (let x : Post := { key := rQmap 600, site := 62, off := 0xC000 + 4 * 600, v := 0x6F, x := {} }
     due (posting (queued 600 0 ix0 16 0 {}) x) x = true) := by decide +kernel
theorem test_qmap : lands (.qmapWrite 0 .host 4095 0x6F#32) 62 (0xC000 + 4 * 4095) (one live) (fun p => decide ((p.g 0).home 4095 = some 47)) = true := by decide +kernel
theorem test_queue_enable : runs (.queueEnable 0 .host 0 5 0x00040000#32) (one (unqueued 0x00020000)) (fun p => decide ((p.g 0).qState 0 5 = 1 ∧ (p.g 0).avail 0 5 = 16)) = true := by
  decide +kernel
theorem test_queue_enable_cfgerr : runs (.queueEnable 0 .host 0 5 0x00040000#32) (one (unqueued 0x00120000)) (fun p => decide ((p.g 0).qEn 0 5 = false ∧ (p.g 0).rb (rQ 0 5 0x1C) 3 = true)) = true := by
  decide +kernel
theorem test_queue_disable_refused : runs (.queueDisable 0 .host 0 600 0#32) (one (queued 600 0 ix0 15 1 {})) (fun p => decide ((p.g 0).qEn 0 600 = true)) = true := by decide +kernel

theorem witness_Doorbells :
    (let g := queued 5 (2 ^ 20) { p := 65535, c := 0, m := 0, l := 65530 } 8 0 {}
     g.qProd 0 5 = 1 ∧ 2 ≤ g.avail 0 5 ∧ writable (one g) 0 .host 0 (oQueue 5 0x2C) .queue (0x40 * 5 + 0x2C) = true ∧ g.home 5 = some 0 ∧ g.qengOn 0 = true) ∧
    (let g := queued 5 (2 ^ 22) { p := 3, c := 65535, m := 65530, l := 65530 } 7 0 {}
     let i := g.ix 0 5
     g.qChost 0 5 = true ∧ 4 ≤ ringDist i.p i.c ∧ ({ i with c := (i.c + 4) % 65536 } : Ix).ok (g.qSize 0 5) = true ∧ g.qState 0 5 = 1 ∧
     ({ i with c := (i.c + 4) % 65536, l := (i.l + 4) % 65536, m := (i.l + 4) % 65536 } : Ix).ok (g.qSize 0 5) = true ∧ g.avail 0 5 + 4 < 65536) ∧
    ({ live with hk := { live.hk with perst := false } } : Pkg).hubUp = true := by decide +kernel
theorem test_door_push : runs (.queueDoorPush 0 .host 0 5 (2, 0)) (one (queued 5 (2 ^ 20) { p := 65535, c := 65530, m := 65530, l := 65530 } 8 0 {})) (fun p =>
    decide (((p.g 0).ix 0 5).p = 1 ∧ (p.g 0).avail 0 5 = 6)) = true := by decide +kernel
theorem test_door_release : runs (.queueDoorConsumeRelease 0 .host 0 5 (4, 0)) (one (queued 5 (2 ^ 22) { p := 3, c := 65535, m := 65530, l := 65530 } 7 0 {})) (fun p =>
    decide ((p.g 0).ix 0 5 = { p := 3, c := 3, m := 65534, l := 65534 } ∧ (p.g 0).avail 0 5 = 11)) = true := by decide +kernel

/-! Pipeline registers, tensors, the Thresher, gathers, replicas -/

/-- Stage 1 with queues 512 and 2559, its anchors and KCAP 1 MiB, the pool 1 MiB. -/
def stageOff (fq kpool : W32) : Pkg := ((live.wr (rStage 1 4) 1).wr (rStage 1 8) (setF fq 27 16 2559)).wr rKpool kpool
theorem witness_StagesAndModes :
    writable (one live) 0 .host 47 (0x2000 + 8 * 15 + 4) .clus (8 * 15 + 4) = true ∧
    writable (one live) 0 .host 62 (0x6000 + 0x40 * 7) .stage (0x40 * 7) = true ∧ (stageOff 512 1).stEn 1 = false ∧ (stageOff 512 1).rf (rStage 1 8) 11 0 = 512 ∧
    (stageOff 512 1).rf (rStage 1 8) 27 16 = 2559 ∧ (stageOff 512 1).kcapSum 1 + (stageOff 512 1).stKcap 1 ≤ (stageOff 512 1).rf rKpool 18 0 ∧
    (stageOff 511 1).rf (rStage 1 8) 11 0 < 512 ∧ (stageOff 512 0).rf rKpool 18 0 < (stageOff 512 0).kcapSum 1 + (stageOff 512 0).stKcap 1 ∧
    (staged 0 0).stEn 1 = true ∧ (staged 0 0).stInfl 1 = 0 ∧ ((staged 0 0).wf (rStage 1 0x14) 9 0 1).stInfl 1 ≠ 0 ∧
    writable (one live) 0 .host 62 0x5000 .pipe 0 = true ∧ writable (one live) 0 .host 62 0x5004 .pipe 4 = true ∧ live.mode = 0 ∧
    (List.range 512).all (fun n => !live.mbValid n) = true ∧ (List.range 8).all (fun i => !live.stEn i) = true ∧ live.anyHeld = false ∧
    (tiledPkg 5 0).anyHeld = true ∧ live.kcapSum 8 ≤ kpoolOf (live.shareSum 48 0) 0 ∧ ¬ (257 : Nat) ≤ 256 := by decide +kernel
theorem witness_StagesAndModes_due :
    (let x : Post := { key := rStage 1 0, site := 62, off := 0x6000 + 0x40 * 1, v := setB 0x00020000#32 27 true, x := {} }
     due (posting (stageOff 512 1) x) x = true ∧ x.key = rk 62 (0x6000 + 0x40)) ∧
    (let x : Post := { key := rStage 1 0, site := 62, off := 0x6000 + 0x40 * 1, v := setB 0x00020000#32 27 false, x := {} }
     due (posting (staged 0 0) x) x = true) ∧
    (∀ o ∈ [0x5000, 0x5004], let x : Post := { key := rPipeMode, site := 62, off := o, v := 1, x := {} }
      due (posting live x) x = true ∧ x.key = rk 62 0x5000) := by decide +kernel
theorem test_stage_enable : lands (.stageEnable 0 .host 1 0x00020000#32) 62 (0x6000 + 0x40) (one (stageOff 512 1)) (fun p => decide ((p.g 0).stEn 1 = true)) = true := by decide +kernel
theorem test_stage_enable_conf : lands (.stageEnable 0 .host 1 0x00020000#32) 62 (0x6000 + 0x40) (one (stageOff 511 1)) (fun p => decide ((p.g 0).stEn 1 = false ∧ (p.g 0).rb (rStage 1 0) 29 = true)) = true := by
  decide +kernel
theorem test_pipe_mode : lands (.pipeModeWrite 0 .host 1#32) 62 0x5000 (one live) (fun p => decide ((p.g 0).mode = 1)) = true := by decide +kernel
theorem test_tmap_running_thread : runs (.clusTmapWrite 0 .host 0 0 false 0x99#32) (one (live.setTh t0 { st := .ready })) (fun p => decide ((p.g 0).rd (rTmap 0 0 0) = 0x90#32)) = true := by
  decide +kernel

theorem witness_MicroBatchEntries : writable (one live) 0 .host 62 (0x10000 + 0x20 * 511) .mbt (0x20 * 511) = true ∧ live.mbValid 5 = false ∧
    live.rf (rVref 3) 9 0 < 1023 ∧ (let g := (tiledPkg 0 0).wb (rMbt 5 0) 28 true; g.mbValid 5 = true ∧ g.mbHeld 5 = true) ∧
    (let g := (live.wb (rMbt 5 0) 28 true).wr (rVref 0) 1; g.mbValid 5 = true ∧ g.mbHeld 5 = false ∧ g.mbTag 5 = 0 ∧ 0 < g.rf (rVref 0) 9 0) := by decide +kernel
theorem witness_MicroBatchEntries_due :
    (let x : Post := { key := rMbt 5 0, site := 62, off := 0x10000 + 0x20 * 5, v := 0, x := {} }
     due (posting ((tiledPkg 0 0).wb (rMbt 5 0) 28 true) x) x = true ∧ x.key = rk 62 (0x10000 + 0x20 * 5)) := by decide +kernel
theorem test_mbt_valid : lands (.mbtCtlWrite 0 .host 511 0x10C00001#32) 62 (0x10000 + 0x20 * 511) (one live) (fun p => decide ((p.g 0).mbValid 511 = true ∧ (p.g 0).rf (rVref 3) 9 0 = 1)) = true := by decide +kernel
theorem test_mbt_held : lands (.mbtCtlWrite 0 .host 5 0#32) 62 (0x10000 + 0x20 * 5) (one ((tiledPkg 0 0).wb (rMbt 5 0) 28 true)) (fun p => decide ((p.g 0).mbValid 5 = true ∧ (p.g 0).logSeq = 1)) = true := by
  decide +kernel

/-- Tensor 3: one tile, one shard with owner entry 7 at position 0 and stack 0, group 1 with rule 0, stream slot 0; `ctl` its control word. -/
def tensor (ctl : Nat) : Pkg :=
  { (((((live.wr (rTens 3 0) (mk32 ctl)).wr (rTens 3 4) 0x00010001).wr (rTens 3 8) 0x00010001).wr (rTens 3 0xC) 7).wr (rTens 3 0x10) (mk32 (2 ^ 25 + 2 ^ 20))).wr (rOwn 7 4) 0x40000000
      |>.wr (rSched 1 0) 0x20000000 with strm := [(0, { ctl := 0x01000001#32 })] }
/-- Enabled, updated, group 1, KACC 2. -/
def tOn : Nat := 2 ^ 29 + 2 ^ 28 + 2 ^ 20 + 2 ^ 14
theorem witness_StateTablesWrites :
    writable (one live) 0 .host 62 (0x80000 + 0x20 * 16383) .tens (0x20 * 16383) = true ∧ live.calm = true ∧ (live.wr rPipeMode 1).calm = false ∧
    (tensor (2 ^ 20)).tEn 3 = false ∧ (tensor (2 ^ 20)).tensOk 3 = true ∧ (tensor (2 ^ 21)).tensOk 3 = false ∧ (tensor tOn).tEn 3 = true ∧ live.tr.passes = [] ∧
    (let g := { tensor (2 ^ 20) with tr := { passes := [3] } }
     g.nsh 3 = 1 ∧ g.repl 3 = 1 ∧ g.moments 3 = 0 ∧ (one g).pack.at 0 (g.ownPos (g.own0 3)) = some 0) ∧
    writable (one live) 0 .host 62 (0x60000 + 8 * 16383 + 4) .own (8 * 16383 + 4) = true ∧ (tensor tOn).ownUsed 7 = true ∧ (tensor tOn).ownUsed 8 = false ∧
    writable (one live) 0 .host 62 (0xA000 + 0x80 * 63) .sched (0x80 * 63) = true ∧ live.sEn 1 = false ∧ (one live).pack.schedOk 0 1 false = true ∧
    (one (live.wr (rSched 1 0xC) 0x3F800000)).pack.schedOk 0 1 false = false ∧ (tensor 0).sEn 1 = true ∧ (tensor 0).tensors = [] ∧ (tensor tOn).tensors = [3] := by decide +kernel
theorem witness_StateTablesWrites_due :
    (∀ b ∈ [true, false], let x : Post := { key := rTens 3 0, site := 62, off := 0x80000 + 0x20 * 3, v := setB (mk32 tOn) 29 b, x := {} }
      due (posting (tensor (2 ^ 20)) x) x = true ∧ x.key = rk 62 (0x80000 + 0x20 * 3)) ∧
    (∀ hi ∈ [true, false], let x : Post := { key := rOwn 8 4, site := 62, off := 0x60000 + 8 * 8 + 4 * b2n hi, v := 5, x := {} }
      due (posting (tensor tOn) x) x = true ∧ x.key = rk 62 (0x60000 + 8 * 8 + 4)) ∧
    (∀ e ∈ [Ecc.ok, .ce, .ue], let x : Post := { key := rSched 1 0, site := 62, off := 0xA000 + 0x80 * 1, v := setB 0#32 29 true, x := { ecc := e } }
      due (posting live x) x = true ∧ x.key = rk 62 (0xA000 + 0x80)) ∧
    (live.wr (rSched 1 0) (mk32 (3 * 2 ^ 22))).readsTable 1 = true := by decide +kernel
/-- The first pass at an owner whose stack is served, and at one whose stack is gated. -/
theorem witness_StateTablesWrites_pass :
    (let g := { tensor (2 ^ 20) with tr := { passes := [3] } }
     g.ownerOn 3 0 0) ∧
    (let g := { tensor (2 ^ 20) with tr := { passes := [3] } }.wr rGates 0
     ¬ g.ownerOn 3 0 0 ∧ g.tr.passes.contains 3 = true ∧ g.nsh 3 = 1 ∧ g.repl 3 = 1) := by
  unfold Pkg.ownerOn; decide +kernel
theorem test_tens_enable : lands (.tensEnable 0 .host 3 (mk32 tOn)) 62 (0x80000 + 0x20 * 3) (one (tensor (2 ^ 20 + 2 ^ 14))) (fun p => decide ((p.g 0).tr.passes = [3] ∧ (p.g 0).wslot 3 = 1)) = true := by decide +kernel
theorem test_tens_enable_err : lands (.tensEnable 0 .host 3 (mk32 0)) 62 (0x80000 + 0x20 * 3) (one (tensor 0)) (fun p => decide ((p.g 0).rb (rTens 3 0) 30 = true)) = true := by decide +kernel
theorem test_own_write : lands (.ownWrite 0 .host 8 true 0xFFFFFFFF#32) 62 (0x60000 + 8 * 8 + 4) (one (tensor tOn)) (fun p => decide ((p.g 0).rd (rOwn 8 4) = 0x4000FFDF#32)) = true := by decide +kernel
theorem test_sched_disable_used : lands (.schedDisable 0 .host 1 0#32) 62 (0xA000 + 0x80) (one (tensor tOn)) (fun p => decide ((p.g 0).sEn 1 = true ∧ (p.g 0).rb (rSched 1 0) 30 = true)) = true := by decide +kernel

/-- A reduced record of step `n`, ordinal `o`; an end-of-step mark of step `n`. -/
def redRec (n o : Nat) : RedRec :=
  let r : RedRec := { step := n, tensor := 3, row := 0, col := 0, ord := o, n := 1, sta := 0, root := 0, chk := 0, data := List.replicate 1024 0x3F80 }
  { r with chk := crc32c (redBytes r) }
def wired (c : Cargo) (g : Pkg) : State := { one g with pack := { (one g).pack with wire := [{ src := 0, dst := 0, dq := 0, qk := 0, idx := 0, body := c }] } }
/-- The tensor enabled at step 5, its tile at ordinal `n`. -/
def atStep (n : Nat) : Pkg := ((tensor tOn).wr rSealStep 4).setTileSt 3 0 0 { next := n, cnt := n }
theorem witness_ThresherArrivals :
    (atStep 0).step = 5 ∧ later 5 4 = true ∧ later 5 6 = false ∧ (atStep 0).shardOf 3 0 = 0 ∧ (atStep 0).myRep 3 0 = some 0 ∧ (atStep 0).tEn 3 = true ∧ (atStep 0).tUpd 3 = true ∧
    ((atStep 0).shardSt 3 0).stop = false ∧ 2 ≤ (atStep 0).kacc 3 ∧ ((atStep 0).tileSt 3 0 0).done = false ∧ (one (atStep 0)).pack.gatherReads 0 3 0 ((atStep 0).wslot 3) = false ∧
    ((atStep 1).tileSt 3 0 0).next = 1 ∧ (atStep 0).myShards 3 = [0] ∧ (atStep 0).rootOf 3 0 = 0 ∧ ((atStep 0).shardSt 3 0).mark = false ∧
    (let g := (atStep 2).setTileSt 3 0 0 { done := true }; (g.shardTiles 3 0).all (fun c => (g.tileSt 3 c.1 c.2).done) = true) := by decide +kernel
theorem witness_ThresherArrivals_quiet : (atStep 0).thQuiet ∧ (atStep 1).thQuiet ∧ (atStep 0).ownerOn 3 0 0 := by
  refine ⟨⟨by decide +kernel, by decide +kernel, by decide +kernel, by decide +kernel⟩, ⟨by decide +kernel, by decide +kernel, by decide +kernel, by decide +kernel⟩, ?_⟩
  unfold Pkg.ownerOn; decide +kernel
theorem witness_record : crc32c (redBytes (redRec 5 0)) = (redRec 5 0).chk := by simp only [redRec, redBytes]
theorem test_record_stale : runs (.reducedRecord 0 0 []) (wired (.red { redRec 4 0 with chk := 0 }) (atStep 0)) (fun p => decide (p.wire = [] ∧ (p.g 0).logSeq = 1)) = true := by decide +kernel
theorem test_record_later : runs (.reducedRecord 0 0 []) (wired (.red { redRec 6 0 with chk := 0 }) (atStep 0)) (fun p => decide ((p.g 0).tr.late.length = 1)) = true := by decide +kernel
theorem test_record_repeated : runs (.reducedRecord 0 0 []) (wired (.red { redRec 5 0 with chk := 0 }) (atStep 1)) (fun p => decide (((p.g 0).shardSt 3 0).stop = true)) = true := by decide +kernel
theorem test_mark_completes : runs (.endOfStepMark 0 (0, [])) (wired (.eos { step := 5, tensor := 3, root := 0 }) ((atStep 2).setTileSt 3 0 0 { done := true })) (fun p =>
    decide (((p.g 0).shardSt 3 0).mark = true ∧ p.wire = [])) = true := by decide +kernel

/-- The tensor's group in sweep mode. -/
def sweeping (x : ShardSt) : Pkg := ((atStep 2).wr (rSched 1 0) 0x30000000).setShard 3 0 x
def accOf (n : Nat) : NormAcc := { group := 1, sum := n, ovf := false }
theorem witness_Sweeps :
    (let g := sweeping { mark := true }
     g.sEn 1 = true ∧ g.sweep 1 = true ∧ g.groupTensors 1 = [3] ∧ g.myShards 3 = [0] ∧ (g.shardSt 3 0).mark = true ∧ (g.shardSt 3 0).p1 = false ∧ g.normOwner 3 0 = true ∧
     g.shardTiles 3 0 = [(0, 0)] ∧ g.leads = true ∧ positions g.mem = [0]) ∧
    (let g := { sweeping {} with regs := mins (sweeping {}).regs rMemLo 3#32 }; positions g.mem = [0, 1] ∧ g.leads = true) ∧
    ((sweeping { mark := true, p1 := true }).shardSt 3 0).p1 = true ∧ ((sweeping { mark := true, p1 := true, p2 := true }).shardSt 3 0).p2 = true := by decide +kernel
theorem witness_Sweeps_owner : (sweeping { mark := true }).ownerOn 3 0 (((sweeping { mark := true }).myRep 3 0).getD 0) ∧
    (sweeping { mark := true, p1 := true }).ownerOn 3 0 (((sweeping { mark := true, p1 := true }).myRep 3 0).getD 0) ∧
    (one (sweeping { mark := true, p1 := true })).pack.gatherReads 0 3 0 ((sweeping { mark := true, p1 := true }).wslot 3) = false := by
  unfold Pkg.ownerOn; decide +kernel
theorem test_sweep_waits : runs (.sweepAccumulator 0 0 5 (accOf 1)) (one { sweeping {} with regs := mins (sweeping {}).regs rMemLo 3#32 }) (fun p =>
    decide ((p.g 0).ld.sweep.length = 1 ∧ (p.g 0).sent = [])) = true := by decide +kernel
theorem test_sweep_done : runs (.sweepAccumulator 0 0 5 (accOf (2 ^ 200))) (one (sweeping {})) (fun p =>
    decide ((p.g 0).sent = [.sweepNorm 5 { group := 1, norm := 0x3F800000, fclip := 0x3F800000 }])) = true := by decide +kernel

/-- A gather of the tensor at die 0's engine, its request resolved or not. -/
def gatherRec : OpRec := { mkOp live .gather t0 fZ {} [3, 0] with td := tileB }
def gathering (xs : List GReq) : Pkg := { atStep 0 with eops := [gatherRec], co := { gath := xs } }
def bound : GReq := { seq := gatherRec.seq, tensor := 3, shard := 0, pk := 0, rep := 0, slot := 0 }
/-- The stored digest of the plane's one block matches what it holds. -/
def gatherSt (xs : List GReq) (ok : Bool) : State :=
  let s := one (gathering xs)
  { s with pack := if ok then s.pack.digest 0 3 0 0 0 0 else s.pack }
theorem witness_Gathers :
    (let g := gathering []
     g.tEn 3 = true ∧ gatherRec.td.orgi + (gatherExt gatherRec).1 ≤ 32 * g.rows32 3 ∧ gatherRec.td.orgj + (gatherExt gatherRec).2 ≤ 32 * g.cols32 3 ∧
     (g.gatherShards gatherRec 3).contains 0 = true ∧ (one g).pack.at 0 (g.rootOf 3 0) = some 0 ∧ g.resolve 3 0 = some 0 ∧ gatherRec.f.i 1 0 = 0 ∧
     (g.wr rVret 1).resolve 3 0 = none ∧ g.held gatherRec = false) ∧
    (∀ a, a < 32 → (gathering [bound]).shardOf 3 ((0 + a) / 32) = 0) ∧ (gatherRec.f.i 10 3 = 0) ∧ (gatherRec.f.i 31 26 = 0) := by decide +kernel
theorem memRdN_out (bs : List Byte) (m : Mem) (a : Nat) : ∀ n x, x + n ≤ a → memRdN (memWrN m a bs) x n = memRdN m x n
  | 0, _, _ => rfl
  | n + 1, x, h => by
    simp only [memRdN]
    rw [memRd_memWrN_out bs m a x (.inl (by omega)), memRdN_out bs m a n (x + 1) (by omega)]
theorem crc_stored (m : Mem) (a x n : Nat) (h : x + n ≤ a) :
    leVal (memRdN (memWrN m a (leBytes (crc32c (memRdN m x n)) 4)) a 4) = crc32c (memRdN (memWrN m a (leBytes (crc32c (memRdN m x n)) 4)) x n) := by
  have hw (v : Nat) := memRdN_memWrN (leBytes v 4) m a
  simp only [leBytes_length] at hw
  rw [hw, leVal_leBytes, memRdN_out _ _ _ _ _ h, Nat.mod_eq_of_lt]
  exact BitVec.isLt _
theorem bytes_stack (s : Pack) (l : Loc) (h : l.space = 8) (n : Nat) : s.bytes l n = memRdN s.mem l.key n := by simp [Pack.bytes, Pkg.ringLoc, h]
theorem store_stack (s : Pack) (l : Loc) (h : l.space = 8) (bs : List Byte) : (s.store l bs).mem = memWrN s.mem l.key bs := by
  simp [Pack.store, Pkg.ringLoc, h]
theorem digest_clean (s : Pack) (k t n r pl b : Nat) (h : pl < (s.g k).planes t) (hb : b < (s.g k).planeBlocks t) :
    (s.digest k t n r pl b).digStored k t n r pl b = (s.digest k t n r pl b).digNow k t n r pl b := by
  have e : (s.g k).planeBytes t = (s.g k).planeBlocks t * 4096 := by
    simp only [Pkg.planeBlocks, Pkg.planeBytes, up4k]; omega
  have hm : (pl + 1) * (s.g k).planeBytes t ≤ (s.g k).planes t * (s.g k).planeBytes t := Nat.mul_le_mul_right _ h
  have hk : ((s.g k).planeLoc k t n r pl (4096 * b)).key + 4096 ≤ ((s.g k).digLoc k t n r pl b).key := by
    simp only [Loc.key, Pkg.digLoc, Pkg.planeLoc]
    rw [Nat.add_mul, Nat.one_mul] at hm
    omega
  rw [Pack.digStored, Pack.digNow, Pack.digest, Pack.store_g, bytes_stack _ _ rfl, bytes_stack _ _ rfl, store_stack _ _ rfl, Pack.digNow,
    bytes_stack _ _ rfl]
  exact crc_stored _ _ _ _ hk
theorem witness_gather_digests :
    (gatherSt [bound] true).pack.digStored 0 3 0 0 0 0 = (gatherSt [bound] true).pack.digNow 0 3 0 0 0 0 :=
  digest_clean _ 0 3 0 0 0 0 (by decide +kernel) (by decide +kernel)
theorem test_gather_request : runs (.gatherRequest 0 0 0) (gatherSt [] false) (fun p => decide ((p.g 0).co.gath = [bound])) = true := by decide +kernel
theorem test_gather_verr : runs (.gatherRequest 0 0 0) (one ((gathering []).wr rVret 1)) (fun p => decide ((p.g 0).rb (rTens 3 0x18) 3 = true ∧ (p.g 0).eops = [])) = true := by decide +kernel

/-- Replica 0 of a tensor with two, the other on package 1 at position 1; the shard complete. -/
def replica : Pkg := (((atStep 2).wf (rTens 3 0) 11 10 1).wr (rOwn 8 4) 0x40000400).setShard 3 0 { mark := true }
def repWith (digs : List Nat) : State := two replica { replica with sent := [.digests 5 3 0 1 digs] }
def repSt : State := repWith ((two replica replica).pack.newDigests 0 3 0 0)
theorem witness_ReplicaComparison :
    (let s := repSt
     let g := s.pack.g 0
     g.myRep 3 0 = some 0 ∧ g.firstRep 3 0 = 0 ∧ g.repl 3 = 2 ∧ g.shardDone 3 0 = true ∧ g.hubUp = true ∧
     (List.range (g.repl 3)).filter (fun i => i != 0 && !g.lostPos (g.ownPos (g.ownerOf 3 0 i))) = [1] ∧ s.pack.at 0 (g.ownPos (g.ownerOf 3 0 1)) = some 1 ∧
     g.planeBlocks 3 = 1 ∧ g.moments 3 = 0) ∧
    (((repWith [1]).pack.g 1).sent = [.digests ((repWith [1]).pack.g 0).step 3 0 1 [1]]) ∧
    (((repWith [1]).pack.g 0).setShard 3 0 { mark := true }).shardDone 3 0 = true := by decide +kernel
theorem test_replicas_agree : runs (.replicaDigests 0 3 0 1 (repSt.pack.newDigests 0 3 0 0) [] []) repSt (fun p => decide (((p.g 0).shardSt 3 0).cmp = true ∧ ((p.g 1).shardSt 3 0).cmp = true)) = true := by
  decide +kernel
theorem test_replicas_diverge : runs (.replicaDigests 0 3 0 1 [1] [] []) (repWith [1]) (fun p => decide ((p.g 0).tr.diverged = true)) = true := by decide +kernel

/-! Seals, reduction groups, records between packages, the permute -/

/-- The leader alone in its pack, in step 5, with SEAL.CTL, phase and next version tag. -/
def sealing (ctl ph : Nat) : Pkg := (((live.wr rSealStep 4).wr rSealCtl (mk32 ctl)).setPhase ph).wr rSealEpoch 0
def readyMsg (p : Nat) (nan : Bool) : ReadyMsg :=
  { pos := p, step := 5, epoch := 1, scales := [], vref := [0, 0, 0, 0], norms := [], nan := nan, diverged := false, mismatch := false, flows := [] }
def commitMsg (n : Nat) : CommitMsg := { step := n, epoch := 1, scales := [], vsum := [0, 0, 0, 0], norms := [] }
/-- A member whose commit is in. -/
def applying (m : Nat) : Pkg := { (sealing 2 2).wr rPipeMode (mk32 m) with pr := { (sealing 2 2).pr with commit := some (commitMsg 5) } }

theorem witness_SealAtAMember :
    (let g : Pkg := { sealing 0 0 with pr := { prep := 6 } }
     g.assigned = true ∧ g.pr.bad = false ∧ g.shardsReady = true ∧ g.pr.prep = g.step + 1 ∧ (one g).pack.protReady 0 = true ∧ (one g).pack.suppOld 0 = false ∧ g.phase = 0 ∧ g.hubUp = true) ∧
    ({ sealing 0 1 with pr := { prep := 6 } } : Pkg).phase ≠ 0 ∧ ({ sealing 0 0 with pr := { bad := true } } : Pkg).pr.bad = true ∧
    ((atStep 0).shardsReady = false) ∧ (live.wr rPackId 0).assigned = false ∧
    (sealing 0 1).phase = 1 ∧ (sealing 0 1).step = (commitMsg 5).step ∧ (sealing 0 1).pr.commit = none ∧ (commitMsg 4).step ≠ (sealing 0 1).step ∧
    (one { applying 1 with eops := [roomRec] }).pack.executing 0 = true ∧
    (let s := two live (applying 1)
     let g := s.pack.g 1
     g.pr.commit = some (commitMsg 5) ∧ s.pack.executing 1 = false ∧ g.leads = false ∧ g.mode ≠ 0 ∧ g.tensors = [] ∧ g.liveQueues = [] ∧
     (∀ j, j < 64 → g.sEn j = false) ∧ g.tr.late = [] ∧ g.tr.lateMarks = [] ∧ g.dqHome = none ∧ g.sealHold = true ∧ g.pr.revWait = false ∧ g.links = []) ∧
    (commitMsg 5).epoch = (sealing 0 1).epoch ∧ ({ commitMsg 5 with epoch := 3 } : CommitMsg).epoch ≠ (sealing 0 1).epoch ∧ 3 ≠ ((sealing 0 1).epoch + 1) % 65536 := by decide +kernel
/-- Its mirror, itself, holds a supplement with another C. -/
def supped : State := one (({ sealing 0 0 with pr := { prep := 6, suppAck := 6, supps := [(0, { pos := 0, step := 5, cons := [(1, 1)] })] } } : Pkg).wb (rProt 0) 17 true)
theorem witness_SealAtAMember_supplement : supped.pack.protReady 0 = true ∧ supped.pack.suppOld 0 = true ∧ (supped.pack.g 0).phase = 0 ∧ (supped.pack.g 0).shardsReady = true := by decide +kernel
theorem test_supplement_anew : runs (.locallyReady 0) supped (fun p => decide ((p.g 0).phase = 0 ∧ (p.g 0).pr.suppAck = 0)) = true := by decide +kernel
theorem test_locally_ready : runs (.locallyReady 0) (one { sealing 0 0 with pr := { prep := 6 } }) (fun p => decide ((p.g 0).phase = 1 ∧ (p.g 0).sent.length = 1)) = true := by decide +kernel
theorem test_commit : runs (.commit 0 (commitMsg 5)) (one (sealing 0 1)) (fun p => decide ((p.g 0).phase = 2)) = true := by decide +kernel
theorem test_seal_apply : runs (.sealApply 1 []) (two live (applying 1)) (fun p => decide ((p.g 1).sealed = 5 ∧ (p.g 1).phase = 3 ∧ (p.g 1).rf rVcur 1 0 = 1)) = true := by decide +kernel

theorem witness_SealAtTheLeader :
    (sealing 1 1).leads = true ∧ (readyMsg 0 false).step = (sealing 1 1).step ∧ (sealing 1 1).epoch = 1 ∧ (sealing 1 1).mem.testBit 0 = true ∧
    positions (sealing 1 1).mem = [0] ∧ (sealing 1 1).sealAuto = true ∧ (sealing 0 1).sealAuto = false ∧ (sealing 0 1).ld.req = false ∧
    (sealing 1 1).refusal [readyMsg 0 false] = none ∧ (sealing 1 1).refusal [readyMsg 0 true] = some 1 ∧ (one (sealing 1 1)).pack.members 0 = [0] ∧
    (two (sealing 1 1) live).pack.members 0 = [0, 1] ∧ positions ((two (sealing 1 1) live).pack.g 0).mem = [0, 1] ∧
    ([0, 1].filter (· != 0)) ≠ ([] : List Nat) ∧ ([0].filter (· != 0)) = ([] : List Nat) ∧ (sealing 1 2).pr.commit = none ∧
    writable (one (sealing 0 3)) 0 .husk 62 0x2000 .seal 0 = true ∧ (one (sealing 0 3)).pack.owes 0 = false ∧ (sealing 0 3).pr.image = [] ∧ (sealing 0 3).pr.dq = [] := by decide +kernel
theorem test_ready_commits : runs (.ready 0 (readyMsg 0 false)) (one (sealing 1 1)) (fun p => decide ((p.g 0).ld.acks = [0] ∧ (p.g 0).ld.record.isSome = true)) = true := by decide +kernel
theorem test_ready_halts : runs (.ready 0 (readyMsg 0 true)) (one (sealing 1 1)) (fun p => decide ((p.g 0).phase = 4 ∧ (p.g 0).rf rSealStat 15 8 = 1)) = true := by decide +kernel
theorem test_seal_ack : runs (.sealAck 0 0 4) (one { sealing 1 2 with ld := { acks := [0] } }) (fun p => decide ((p.g 0).phase = 0)) = true := by decide +kernel
theorem test_seal_resume : runs (.sealResume 0 .husk 8#32) (one (sealing 0 3)) (fun p => decide ((p.g 0).phase = 0)) = true := by decide +kernel
theorem test_host_lost : runs (.hostLinkLost 0) (two live live) (fun p => decide ((p.g 0).sealHold = true ∧ (p.g 1).sealHold = true)) = true := by decide +kernel

/-- Group 2's inbound queue 2600 is producer 2 and enabled; `ctl` its control word, `mem` its members. -/
def coll (ctl mem : Nat) : Pkg := ((((queued 2600 (2 * 2 ^ 20) ix0 16 0 {}).wr (rColl 2 0) (mk32 (2600 + ctl))).wr (rColl 2 4) (mk32 mem)).wr (rColl 2 0xC) 100).wr rSealStep 4
def collOn (mem : Nat) : Pkg := (coll (2 ^ 28) mem).wr (rColl 2 0x1C) 4
theorem witness_ReductionGroups :
    writable (one live) 0 .host 62 (0x8000 + 0x40 * 63) .coll (0x40 * 63) = true ∧ (coll 0 1).calm = true ∧ (coll 0 1).cEn 2 = false ∧ (coll 0 1).collOk 2 = true ∧
    (coll 0 1).timed 2 = false ∧ (coll (2 ^ 26) 1).timed 2 = true ∧ (coll (2 ^ 26) 1).collOk 2 = true ∧ (coll 0 1).freeTimer = some 0 ∧
    ((List.range 64).foldl (fun g n => g.wr (rTmr n 0) 0x88000000#32) (coll 0 1)).freeTimer = none ∧ (coll 0 0).collOk 2 = false ∧ (collOn 1).cEn 2 = true ∧
    ((collOn 1).wr rPipeMode 1).calm = false ∧ (collOn 1).openInsts 2 = [] ∧ positions ((collOn 1).cMem 2) = [0] ∧
    (let g := atStep 0; g.updTensors = [3] ∧ g.tGroup 3 = 1 ∧ g.nsh 3 = 1 ∧ g.repl 3 = 1 ∧ g.ownPos (g.own0 3) = g.pos ∧ g.lostPos g.pos = false ∧
      (one g).pack.at 0 g.pos = some 0 ∧ g.co.out = [] ∧ g.co.inb = []) := by decide +kernel
theorem witness_ReductionGroups_due :
    (∀ b ∈ [true, false], let x : Post := { key := rColl 2 0, site := 62, off := 0x8000 + 0x40 * 2, v := setB (mk32 2600) 28 b, x := {} }
      due (posting (coll 0 1) x) x = true ∧ x.key = rk 62 0x8080) ∧
    (let g := { collOn 5 with co := { st := [(2, { run := true, closed := true })] } }
     (mget ({} : CollSt) g.co.st 2).run = true ∧ (mget ({} : CollSt) g.co.st 2).closed = true ∧ (mget ({} : CollSt) g.co.st 2).exp = none) ∧
    (collOn 5).openInsts 2 = [] ∧ (collOn 5).markedOf 2 (((collOn 5).openStep 2 + 1) % 2 ^ 32) = [] := by decide +kernel
theorem test_coll_enable : lands (.collEnable 0 .host 2 (mk32 (2 ^ 26 + 2600))) 62 0x8080 (one (coll 0 1)) (fun p => decide ((p.g 0).cEn 2 = true ∧ (p.g 0).cTimer 2 = some 0 ∧ (p.g 0).lstep 2 = 4)) = true := by
  decide +kernel
theorem test_coll_enable_bad : lands (.collEnable 0 .host 2 (mk32 2600)) 62 0x8080 (one (coll 0 0)) (fun p => decide ((p.g 0).cEn 2 = false ∧ (p.g 0).rb (rColl 2 0) 29 = true)) = true := by decide +kernel
theorem test_deadline : runs (.collDeadlineExpiry 0 2) (one { collOn 5 with co := { st := [(2, { run := true })] } }) (fun p =>
    decide ((p.g 0).rd (rColl 2 0x28) = 2 ∧ (p.g 0).rd (rColl 2 0x14) = 5 ∧ (mget ({} : CollSt) (p.g 0).co.st 2).closed = true)) = true := by decide +kernel
theorem test_step_close : runs (.stepClose 0 1) (one { (atStep 0).wr (rColl 1 4) 1 with co := { st := [(1, { closed := true })] } }) (fun p =>
    decide (p.wire.length = 1 ∧ (p.g 0).lstep 1 = 1)) = true := by decide +kernel

/-- An outgoing entry for tile (0, 0) of tensor 3, whose shard's owner is position 1 and whose group is 1; member 1's inbound queue 2700. -/
def outEntry : List Byte := let p := ([0x10, 0, 0, 0] ++ leBytes 5 4 ++ leBytes 3 4 ++ List.replicate 48 0 : List Byte); p ++ leBytes (chkOf 2600 0 p) 4
def collPair : State :=
  let t (g : Pkg) : Pkg := ((((((g.wr (rTens 3 0) (mk32 tOn)).wr (rTens 3 4) 0x00010001).wr (rTens 3 8) 0x00010001).wr (rTens 3 0xC) 7).wr (rOwn 7 4) 0x40000400).wr
    (rColl 1 0) (mk32 (2 ^ 28 + 2700))).wr (rColl 1 4) 3
  let a := t (queued 2600 0 { p := 1, c := 0, m := 0, l := 0 } 15 0 {})
  let b := (t (queued 2700 (2 * 2 ^ 20) ix0 16 0 {})).wr (rQ 0 2700 8) 0x04020000#32
  let s := two a b
  { s with pack := { s.pack with mem := memWrN [] ((s.pack.g 0).entryLoc 0 0 2600 0).key outEntry } }
theorem witness_collSend :
    (let g := collPair.pack.g 0
     let h := collPair.pack.g 1
     qClass 2600 = 2 ∧ qClass 2700 = 2 ∧ g.home 2600 = some 0 ∧ g.qState 0 2600 = 1 ∧ g.qProd 0 2600 = 0 ∧ g.cengOn 0 = true ∧ g.qengOn 0 = true ∧ (g.ix 0 2600).p ≠ (g.ix 0 2600).c ∧
     chkOk 2600 0 (collPair.pack.bytes (g.entryLoc 0 0 2600 0) 64) = true ∧ eField outEntry 0 1 = 0x10 ∧ g.destsOf outEntry = some [(1, 2700)] ∧ g.co.acks = [] ∧
     collPair.pack.at 0 1 = some 1 ∧ h.home 2700 = some 0 ∧ h.qProd 0 2700 = 2 ∧ h.qState 0 2700 = 1 ∧ 0 < h.avail 0 2700 ∧
     h.credOf (qkey 0 2700) 0 < h.credCap (g.tGroup (eField outEntry 8 4)) 0 2700 ∧ h.outc 0 2700 + 1 < 65536 ∧ (Ix.mk 1 1 0 0).ok (g.qSize 0 2600) = true) := by decide +kernel

/-- A contribution, a mark and a broadcast on their way to queue 2600, where group 2 has the one member 0. -/
def inEntry (kind : Nat) (good : Bool) : List Byte :=
  let p : List Byte := leBytes kind 1 ++ [0, 0, 0] ++ leBytes 5 4 ++ leBytes 3 4 ++ List.replicate 8 0
  p ++ leBytes (tchkOf p [1, 2] + if good then 0 else 1) 4 ++ [0, 2, 0, 0] ++ leBytes 2 4 ++ List.replicate 32 0
def inbound (kind mem : Nat) (good : Bool) : State :=
  let g := ((collOn mem).wr (rTens 3 0) (mk32 (2 ^ 29 + 2 * 2 ^ 20))).wr (rTens 3 4) 0x00010001 |>.wr (rTens 3 8) 0x00010001 |>.wr (rTens 3 0xC) 7 |>.wr (rOwn 7 4) 0x40000000
  { one g with pack := { (one g).pack with wire := [{ src := 0, dst := 0, dq := 2600, qk := 0, idx := 0, body := .coll (inEntry kind good) [1, 2] }] } }
theorem witness_CollectiveRecords :
    (let s := inbound 0x10 1 true
     let g := s.pack.g 0
     let e := inEntry 0x10 true
     (s.pack.collWire 0 0 0x10).isSome = true ∧ g.home 2600 = some 0 ∧ g.qState 0 2600 = 1 ∧ (Ix.mk 1 0 0 0).ok (g.qSize 0 2600) = true ∧ g.co.acks = [] ∧ g.co.inb = [] ∧
     eField e 25 1 % 64 = 2 ∧ g.cEn 2 = true ∧ g.iqid 2 = 2600 ∧ (g.cMem 2).testBit (eField e 24 1 % 64) = true ∧ eField e 20 4 = tchkOf e [1, 2] ∧ g.tEn 3 = true ∧
     eField e 4 4 = g.openStep 2 ∧ positions (g.cMem 2) = [0] ∧ g.repl 3 = 1 ∧ s.pack.at 0 (g.ownPos (g.ownerOf 3 0 0)) = some 0 ∧ g.pos = 0) ∧
    eField (inEntry 0x10 false) 20 4 ≠ tchkOf (inEntry 0x10 false) [1, 2] ∧
    (1 ∈ positions (((inbound 0x10 3 true).pack.g 0).cMem 2)) ∧ ((inbound 0x11 1 true).pack.collWire 0 0 0x11).isSome = true ∧
    ((inbound 0x12 1 true).pack.collWire 0 0 0x12).isSome = true ∧ eField (inEntry 0x12 true) 28 4 = 2 ∧ ((inbound 0x10 1 true).pack.g 0).co.seen = [] := by decide +kernel
theorem test_contribution_waits : runs (.inboundRecord 0 0 0) (inbound 0x10 3 true) (fun p => decide ((p.g 0).co.inb.length = 1 ∧ ((p.g 0).ix 0 2600).p = 1 ∧ p.wire = [])) = true := by decide +kernel
theorem test_contribution_bad : runs (.inboundRecord 0 0 0) (inbound 0x10 3 false) (fun p => decide ((p.g 0).pr.bad = true)) = true := by decide +kernel
theorem test_mark : runs (.markArrival 0 0 0) (inbound 0x11 1 true) (fun p => decide ((mget ({} : CollSt) (p.g 0).co.st 2).closed = true)) = true := by decide +kernel
theorem test_bcast : runs (.bcastDelivery 0 0 0) (inbound 0x12 1 true) (fun p => decide (((p.g 0).ix 0 2600).p = 1 ∧ p.wire = [])) = true := by decide +kernel

/-- A permute table of one entry in stack 0: one block, its digest words. -/
def permEntryBytes : List Byte := leBytes 0x0308000000010000 8 ++ leBytes 0x0308000000020000 8 ++ leBytes 0x0308000000030000 8 ++ leBytes 0x0308000000040000 8 ++ leBytes 1 4 ++ List.replicate 28 0
def perm (ph n run : Nat) : State :=
  let g := (((live.setPhase ph).wr (rPerm 8) 0x03080000).wr (rPerm 0xC) (mk32 n)).wr (rPerm 0) (mk32 (run * 2 ^ 31))
  { one g with pack := { (one g).pack with mem := memWrN [] (Loc.key { pk := 0, site := 48, space := 8, off := 0 }) permEntryBytes } }
theorem witness_Permutation :
    writable (perm 3 1 0) 0 .host 62 0x3000 .perm 0 = true ∧ ((perm 3 1 0).pack.g 0).phase = 3 ∧ (perm 3 1 0).pack.permEntry 0 0 = some permEntryBytes ∧
    (perm 3 1 0).pack.permOk 0 permEntryBytes = true ∧ eField permEntryBytes 36 4 = 0 ∧ ((perm 0 1 0).pack.g 0).phase ≠ 3 ∧
    ((perm 3 1 1).pack.g 0).rb (rPerm 0) 31 = true ∧ ((perm 3 1 1).pack.g 0).co.pwait = false ∧
    (∀ o ∈ [0, 8], (match (perm 3 1 1).pack.spanOk 0 none (eField permEntryBytes o 8) 4096 with | .ok _ => true | _ => false) = true) ∧
    (∀ o ∈ [16, 24], (match (perm 3 1 1).pack.spanOk 0 none (eField permEntryBytes o 8) 4 with | .ok _ => true | _ => false) = true) ∧
    positions ((two live live).pack.g 0).mem = [0, 1] ∧ positions live.mem = [0] ∧ (one live).pack.members 0 = [0] ∧
    (perm 3 1 1).pack.permClash 0 permEntryBytes (eField permEntryBytes 0 8) = false ∧ ((perm 3 0 0).pack.g 0).rf (rPerm 0xC) 15 0 = 0 := by decide +kernel
/-- Position 1 stands at barrier 0 of its table, position 0 does not; a package alone that waits at its barrier. -/
def atBarrier : Pkg := { live.wr (rPerm 0) 0x80000000 with co := { pwait := true } }
theorem witness_Permutation_barriers :
    (let s := two live atBarrier
     let g := s.pack.g 0
     g.leads = true ∧ g.mem.testBit 1 = true ∧ s.pack.permStands 0 1 0 = true ∧ s.pack.permStands 0 0 0 = false ∧ 0 ∈ positions g.mem ∧ 0 + 64 * 0 ∉ g.co.lbar ∧
     (∃ j, s.pack.at 0 1 = some j ∧ (s.pack.g j).rb (rPerm 0) 31 = true)) ∧
    (let g := (one atBarrier).pack.g 0
     positions g.mem = [0] ∧ (one atBarrier).pack.members 0 = [0] ∧ (one atBarrier).pack.at 0 0 = some 0 ∧ g.rb (rPerm 0) 31 = true ∧ g.co.pwait = true ∧ g.co.pbar = 0 ∧
     g.rf (rPerm 0xC) 15 0 ≤ g.rf (rPerm 0xC) 31 16 + 1) := by
  refine ⟨⟨by decide +kernel, by decide +kernel, by decide +kernel, by decide +kernel, by decide +kernel, by decide +kernel, ⟨1, by decide +kernel⟩⟩, by decide +kernel⟩
theorem test_perm_start : runs (.permStart 0 .host 0x80000000#32) (perm 3 1 0) (fun p => decide ((p.g 0).rb (rPerm 0) 31 = true ∧ (p.g 0).co.pblk = 0)) = true := by decide +kernel
theorem test_perm_not_held : runs (.permStart 0 .host 0x80000000#32) (perm 0 1 0) (fun p => decide ((p.g 0).rb (rPerm 0) 30 = true)) = true := by decide +kernel
theorem test_perm_done : runs (.permDone 0 0) (one live) (fun p => decide ((p.g 0).rb (rPerm 0) 27 = true)) = true := by decide +kernel
theorem test_perm_barrier : runs (.permBarrierRelease 0 (1, 0)) (two live atBarrier) (fun p => decide ((p.g 0).co.lbar = [1])) = true := by decide +kernel

/-! Stacks, die links, routes -/

def sreq (w : Bool) : StackReq := { src := 2, off := 0x100, write := w, n := 8, data := if w then List.replicate 64 7 else [], err := [] }
/-- Two bytes written into a burst that is uncorrectable. -/
def partReq : StackReq := { src := 2, off := 0x1C0, write := true, n := 2, data := [1, 2], err := [(0, 1), (1, 1), (2, 1), (3, 1)] }
def postponed : Pkg := live.setPost 0 1 4 8
def leveled (n : Nat) : Pkg := live.wf (rStack 0 0x30) 3 2 n
theorem witness_StackAccesses :
    live.stackServes 0 = true ∧ live.stackServes 11 = true ∧ postponed.forced 0 1 = some 4 ∧ live.forced 0 1 = none ∧ (leveled 3).chLevel 0 1 = 3 ∧ live.chLevel 0 1 = 0 ∧
    live.reqOk 0 1 (sreq true) = true ∧ live.reqOk 0 1 (sreq false) = true ∧ mget 0 live.sk.rot (chKey 0 1) < 3 ∧ (sreq true).data.length = 64 ∧
    live.chLevel 0 (chanOf 0x1C0) ≠ 3 ∧ 0x1C0 % 64 + 64 ≤ 64 ∧ burstDecode partReq.err = none ∧ live.reqOk 0 (chanOf 0x1C0) partReq = true ∧ partReq.write = true ∧ partReq.data.length < 64 ∧
    (sreq true).crc = true ∧ ({ sreq true with crc := false } : StackReq).crc = false := by decide +kernel
theorem test_stack_write : runs (.stackRequest 0 0 1 [sreq true]) (one live) (fun p => decide (p.mem.length = 64 ∧ mget 9 (p.g 0).sk.rot (chKey 0 1) = 0)) = true := by decide +kernel
theorem test_stack_partial_ue : runs (.stackPartialWrite 0 0 (chanOf partReq.off) partReq []) (one live) (fun p => decide (p.mem = [] ∧ (p.g 0).pr.bad = true)) = true := by
  decide +kernel

theorem witness_StackMaintenance :
    live.selfRef 0 = false ∧ mget 0 postponed.sk.post (bankKey 0 1 4) = 8 ∧ live.stackFail 0 = false ∧ live.rf (rStack 0 0) 23 16 ≠ 0 ∧ live.forced 0 1 = none ∧
    live.stackPort 0 0 = true ∧ live.stackPort 0 1 = true ∧ (live.wb (rStack 0 0) 29 false).stackPort 0 1 = false ∧ live.assigned = true ∧
    (∃ fix, burstDecode [(5, 3)] = some fix ∧ fix ≠ []) := by
  refine ⟨by decide +kernel, by decide +kernel, by decide +kernel, by decide +kernel, by decide +kernel, by decide +kernel, by decide +kernel, by decide +kernel, by decide +kernel, [(5, 3)], ?_⟩
  decide +kernel
theorem witness_StackMaintenance_ports : (live.setTh t0 {}).stackPort 0 (1 - 0) = true ∧ (live.wb (rStack 0 0) 29 false).stackPort 0 (1 - 0) = false ∧ live.chLevel 0 1 ≠ 3 := by
  decide +kernel
theorem witness_scrub : (burstRead ((one live).pack.bytes (stackLoc 0 0 (burstAddr 1 0 / 64 * 64)) 64) [(5, 3)]) = some (List.replicate 64 0, true) := by decide +kernel
theorem test_refresh_postponed : runs (.refresh 0 0 1 4 true) (one live) (fun p => decide (mget 0 (p.g 0).sk.post (bankKey 0 1 4) = 1)) = true := by decide +kernel
theorem test_refresh_ninth : runs (.refresh 0 0 1 4 true) (one postponed) (fun p => decide (mget 0 (p.g 0).sk.post (bankKey 0 1 4) = 0)) = true := by decide +kernel
theorem test_stack_fails : runs (.stackPortLost 0 0 0) (one (live.wb (rStack 0 0) 29 false)) (fun p => decide ((p.g 0).stackFail 0 = true ∧ (p.g 0).sent = [.pkgFail 0])) = true := by decide +kernel
theorem test_self_refresh_exit : runs (.selfRefreshExit 0 0) (one (live.wb (rStack 0 0) 27 true)) (fun p => decide ((p.g 0).selfRef 0 = false)) = true := by decide +kernel

/-- A flit of die 1 to die 0, the first of its sequence. -/
def fl0 : Flit := { body := 5, ch := 0, sp := 0, ss := 1, dp := 0, ds := 0, num := 0 }
/-- Edge 1 of die 0 faces edge 3 of die 1; both in a state, frame 7 of die 1 not yet acknowledged and to be sent again. -/
def edged (st : Nat) (x : Edge) : Pkg :=
  ({ live with started := [(0, true), (1, true)] }.setEdge 0 1 { x with state := st, ck := 3, next := 7 }).setEdge 1 3
    { state := st, ck := 3, retry := [{ n := 7, flits := [fl0] }], back := some 7, sn := 8 }
theorem witness_DieLinks_start :
    facing 0 1 = some (1, 3) ∧ live.siteSt 1 = .active ∧ mget false live.started 1 = false ∧ facing 1 3 = some (0, 1) ∧ live.hole 0 = false ∧ live.netLive 0 = true ∧
    (47 < 48 ∧ ∀ i, i < 32 → portSites.getD (i / 4) 99 = 1 → live.portState i = 0 ∨ live.portState i = 4) ∧ live.hubUp = true := by decide +kernel
theorem witness_DieLinks_frames :
    (let g := edged 2 {}
     let x := g.edge 0 1
     x.state = 2 ∧ x.pend = none ∧ x.lanes = [] ∧ (g.sendFrame 1 3).isSome = true ∧ (∀ p, g.sendFrame 1 3 = some p → p.1.bad = false ∧ p.1.flits.length ≤ 32 ∧ p.1.n % 4096 = x.next) ∧
     x.wireBits (hubEnd 0 1) [] = [] ∧ (g.edge 1 3).retry.find? (fun q => q.n == 7) = some { n := 7, flits := [fl0] } ∧ (g.edge 1 3).back = some 7) ∧
    ((edged 2 {}).edge 0 1).wireBits (hubEnd 0 1) [(0, 0)] ≠ [] ∧
    (let g := edged 3 {}
     let x := g.edge 0 1
     x.state = 3 ∧ (g.sendPacket 1 3).isSome = true ∧ (∀ p, g.sendPacket 1 3 = some p → p.1.bad = false ∧ p.1.flits.length ≤ 2 ∧ p.1.n % 65536 = x.next)) := by
  refine ⟨⟨by decide +kernel, by decide +kernel, by decide +kernel, by decide +kernel, ?_, by decide +kernel, by decide +kernel, by decide +kernel⟩, by decide +kernel, by decide +kernel, by decide +kernel, ?_⟩
  · rintro p h
    have : (edged 2 {}).sendFrame 1 3 = some ({ n := 7, flits := [fl0] }, (edged 2 {}).setEdge 1 3 { ((edged 2 {}).edge 1 3) with back := none }) := by decide +kernel
    rw [this] at h; cases h; decide +kernel
  · rintro p h
    have : (edged 3 {}).sendPacket 1 3 = some ({ n := 7, flits := [fl0] }, (edged 3 {}).setEdge 1 3 { ((edged 3 {}).edge 1 3) with back := none }) := by decide +kernel
    rw [this] at h; cases h; decide +kernel
theorem witness_DieLinks_senders :
    (let y := ({ edged 2 {} with net := { (edged 2 {}).net with edges := [] } }).edge 1 3; y.back = none ∧ y.todo = [] ∧ y.retry.length < 256) ∧
    (∀ r : SentFrm, 256 ≤ ({ retry := List.replicate 256 r } : Edge).retry.length) ∧ ({ credits := 0 } : Edge).credits = 0 := by
  refine ⟨by decide +kernel, fun r => Nat.le_of_eq List.length_replicate.symm, rfl⟩
theorem upset_last (l : List Nat) (v : Nat) (h : l.length = 33) : upsetWords (l ++ [v]) [8448] = l ++ [v ^^^ 1] := by
  apply List.ext_getElem
  · simp [upsetWords, h]
  · intro i h1 h2
    simp only [upsetWords, List.getElem_map, List.getElem_range, List.filter_cons, List.filter_nil]
    simp only [List.length_append, h, List.length_singleton] at h2
    by_cases hi : i = 33
    · subst hi
      simp [h, List.getD_eq_getElem?_getD]
    · have : ((8448 / 256 == i) = false) := by simp; omega
      rw [this]
      simp only [Bool.false_eq_true, if_false, List.foldl_nil]
      rw [List.getElem_append_left (by omega), List.getD_eq_getElem?_getD, List.getElem?_append_left (by omega), List.getElem?_eq_getElem (by omega)]
      rfl
theorem frameCrc_append (l : List Nat) (v : Nat) (h : l.length = 33) :
    frameCrc (l ++ [v]) = crc32c (l.flatMap (fun w => leBytes w 32) ++ leBytes (v / 2 ^ 32) 28) := by
  rw [frameCrc, List.take_left' h]
  simp [List.getD_eq_getElem?_getD, h]
/-- One bit of the CRC field turned over: the frame's CRC fails. -/
theorem witness_bad_frame (r : SentFrm) (a : Nat) (k : Bool) :
    let ws := upsetWords (frameWords r a k) [8448]
    frameCrc ws ≠ ctlF ws 31 0 := by
  intro ws
  have key : ∀ (l : List Nat) (c : Nat), l.length = 33 → c % 2 ^ 32 = 0 →
      frameCrc (upsetWords (l ++ [c + frameCrc (l ++ [c])]) [8448]) ≠ ctlF (upsetWords (l ++ [c + frameCrc (l ++ [c])]) [8448]) 31 0 := by
    intro l c h hc
    rw [upset_last l _ h, frameCrc_append l _ h]
    have hx : crc32c (l.flatMap (fun w => leBytes w 32) ++ leBytes (c / 2 ^ 32) 28) < 2 ^ 32 := BitVec.isLt _
    rw [frameCrc_append l c h]
    generalize hg : crc32c (l.flatMap (fun w => leBytes w 32) ++ leBytes (c / 2 ^ 32) 28) = x at hx ⊢
    have hd : ((c + x) ^^^ 1) / 2 ^ 32 = c / 2 ^ 32 := by
      rw [← Nat.shiftRight_eq_div_pow, Nat.shiftRight_xor_distrib, Nat.shiftRight_eq_div_pow, Nat.shiftRight_eq_div_pow]
      simp; omega
    rw [hd, hg, ctlF]
    have : (l ++ [(c + x) ^^^ 1]).getD 33 0 = (c + x) ^^^ 1 := by simp [List.getD_eq_getElem?_getD, h]
    rw [this, Nat.pow_zero, Nat.div_one]
    intro e
    have h1 : ((c + x) ^^^ 1) % 2 = 1 - (c + x) % 2 := by
      have := Nat.xor_mod_two_pow (a := c + x) (b := 1) (n := 1)
      rw [Nat.pow_one] at this
      rw [this]
      rcases Nat.mod_two_eq_zero_or_one (c + x) with h | h <;> rw [h] <;> decide
    omega
  exact key _ _ (by simp) (by omega)
theorem witness_bad_frame_errs : ((edged 2 {}).edge 0 1).wireBits (hubEnd 0 1) [(33, 0)] = [8448] := by decide +kernel
theorem witness_DieLinks_switch :
    ((edged 2 {}).edge 0 1).up = true ∧ ((edged 4 {}).edge 0 1).up = false ∧ ((edged 2 {}).edge 0 1).told = false ∧ ((edged 2 {}).edge 1 3).nextNo = 7 ∧
    ((edged 3 { tried := 0 }).edge 0 1).tried ≠ (edged 3 {}).sealed + 1 ∧ ((edged 3 {}).edge 0 1).autoret = true ∧ logLanes false ≤ (goodLanes false 0).length ∧
    3 &&& allClocks false = allClocks false ∧ ((edged 3 {}).edge 0 1).state = 3 := by decide +kernel
theorem witness_DieLinks_flits :
    live.way 0 fl0 = .here ∧ live.way 0 { fl0 with ds := 1 } ≠ .here ∧ live.net.reord = [] ∧ fl0.num = mget 0 live.net.rx (flitKey fl0) := by decide +kernel
theorem test_flit_in_turn : (live.flitsIn 0 [fl0]).net.got = [fl0] ∧ (live.flitsIn 0 [{ fl0 with num := 1 }, fl0, fl0]).net.got = [fl0, { fl0 with num := 1 }] := by decide +kernel
theorem test_switch_to_fallback : runs (.d2dMapSwitch 0 0 1) (one (edged 2 { pend := some (7, true), told := true })) (fun p => decide (((p.g 0).edge 0 1).state = 3 ∧ ((p.g 0).edge 0 1).fbk = 1)) = true := by decide +kernel
theorem test_wrong_strap : runs (.dieStart 0 1 48 0 []) (one live) (fun p => decide ((p.g 0).siteSt 1 = .failed)) = true := by decide +kernel
theorem test_ferlim : runs (.d2dFerlimWindow 0 0 1) (one (edged 2 { fails := 9 })) (fun p => decide (((p.g 0).edge 0 1).fercnt = 9 ∧ ((p.g 0).edge 0 1).fails = 0)) = true := by decide +kernel

/-- A table on its way to die 0. -/
def routed (v : Nat) : Pkg := { live with net := { sent := [(0, v, List.replicate 64 3)], tver := [(0, 5)] } }
/-- Dies 0 and 41 alone, and the hub's port of die 41; die 0 unreached. -/
def hubNet : Pkg := ({ live with started := [(41, true)] }.setEdge 41 4 { state := 2 }).setEdge 62 0 { state := 2 }
theorem witness_LostDiesAndRoutes :
    ((edged 2 {}).edge 0 1).ck.testBit 1 = true ∧ writable (one live) 0 .husk 0 (0x1000 + 0x40 * 3 + 0xC + 4 * 8) .d2d (0x40 * 3 + 0xC + 4 * 8) = true ∧
    live.siteSt 0 = .active ∧ mget false live.started 0 = true ∧ (∀ i, i < 32 → portSites.getD (i / 4) 99 = 0 → live.portState i = 0 ∨ live.portState i = 4) ∧
    ({ live with sites := [(5, .off)] } : Pkg).siteSt 5 ≠ .active ∧ (∀ i, i < 48 → hubNet.dieLive i = true → hubNet.reached i = true) ∧
    (edged 2 {}).hop ((edged 2 {}).distFrom 0) 1 0 = some (4, 1) ∧ ((routed 6).net.sent.find? (fun x => x.1 == 0)) = some (0, 6, List.replicate 64 3) ∧ (routed 6).dieLive 0 = true ∧
    (6 + 65536 - mget 0 (routed 6).net.tver 0) % 65536 < 32768 ∧ 32768 ≤ (4 + 65536 - mget 0 (routed 4).net.tver 0) % 65536 := by decide +kernel
theorem test_bundle_timeout : runs (.d2dBundleTimeout 0 0 1) (one (edged 2 {})) (fun p => decide (((p.g 0).edge 0 1).state = 4 ∧ ((p.g 0).edge 1 3).state = 4)) = true := by decide +kernel
theorem test_governor_silence : runs (.governorSilence 0 0) (one (live.setTh t0 { st := .ready })) (fun p => decide ((p.g 0).siteSt 0 = .failed ∧ (p.thread t0).st = .idle)) = true := by decide +kernel
theorem test_routing_compute : runs (.routingCompute 0) (one hubNet) (fun p => decide ((p.g 0).net.ver = 1 ∧ (p.g 0).net.sent.length = 1)) = true := by decide +kernel
theorem test_routing_table : runs (.routingTable 0 0) (one (routed 6)) (fun p => decide (mget 0 (p.g 0).net.tver 0 = 6 ∧ mget 7 (p.g 0).net.tab 63 = 3)) = true := by decide +kernel
theorem test_routing_older : runs (.routingTable 0 0) (one (routed 4)) (fun p => decide (mget 0 (p.g 0).net.tver 0 = 5)) = true := by decide +kernel

/-! Budget, power, pack ports, membership, revert, protection -/

/-- Dies 0 and 1 live with CAP 100 and USE 96 each, MINCAP 50, MAXCAP 200; messages waiting. -/
def governed (x : Gov) (ms : List GovMsg) : Pkg :=
  let w (g : Pkg) (d : Nat) : Pkg := (g.wr (rGov d 0) (mk32 (100 * 65536 + 96))).wr (rGov d 4) (mk32 (200 * 65536 + 50))
  { w (w { live with started := [(0, true), (1, true)] } 0) 1 with pw := { gov := [(0, x)], msgs := ms } }
def gmsg (kind src dst amt : Nat) : GovMsg := { kind := kind, src := src, dst := dst, seq := 4, use := 7, cap := 9, amt := amt, ref := 6 }
theorem witness_Governors :
    (governed {} []).dieLive 0 = true ∧ (governed {} []).gCap 0 = 100 ∧ (governed {} []).gUse 0 = 96 ∧ 100 ≤ 96 + 16 ∧ ((governed { rcl := 9 } []).gov 0).rcl = 9 ∧
    ((governed {} []).gov 0).offer = none ∧ (governed {} []).maxCap 0 = 200 ∧ 100 ≤ 96 + 8 ∧ 100 + 100 ≤ 200 ∧ ¬ 100 + 101 ≤ 200 ∧
    takeAt [gmsg 0x21 1 0 100] 0 = some (gmsg 0x21 1 0 100, []) ∧ takeAt [gmsg 0x21 1 62 1] 0 = some (gmsg 0x21 1 62 1, []) ∧
    (governed {} []).grant + 1 ≤ ((governed {} []).wr (rPwr 4) 6500).allowance ∧
    ((governed { offer := some (1, 6, 5) } []).gov 0).offer = some (1, 6, 5) ∧ 100 + 5 < 65536 ∧ (gmsg 0x20 62 0 3).amt = 3 ∧ (gmsg 0x20 3 62 0).src < 48 ∧
    (1 ∉ portSites) ∧ (governed {} []).siteSt 1 = .active := by decide +kernel
/-- A message of die 1 that reports the level its fuses give, and one that reports another. -/
def leveledMsg (kind dst amt extra : Nat) : GovMsg := { gmsg kind 1 dst amt with level := Config.siteLevel 0 1 % 8 + extra }
theorem witness_level (kind dst amt : Nat) : badLevel 0 (leveledMsg kind dst amt 0) = false ∧ badLevel 0 (leveledMsg kind dst amt 8) = true := by
  simp [badLevel, leveledMsg, gmsg]
theorem witness_level_messages (kind dst amt extra : Nat) : takeAt [leveledMsg kind dst amt extra] 0 = some (leveledMsg kind dst amt extra, []) := rfl
theorem witness_hub_level (kind dst amt : Nat) : badLevel 0 (gmsg kind 62 dst amt) = false := rfl
theorem witness_hub_pool : ({ gmsg 0x20 62 0 0 with pool := 40 } : GovMsg).amt = 0 ∧ 100 + 40 ≤ (governed {} []).maxCap 0 ∧ (governed {} []).grant + 5 ≤ ((governed {} []).wr (rPwr 4) 6500).allowance := by
  decide +kernel
theorem test_accept : runs (.accept 0 0) (one (governed { offer := some (62, 6, 5) } [gmsg 0x22 62 0 5])) (fun p => decide (((p.g 0).gov 0).offer = none ∧ (p.g 0).gCap 0 = 100)) = true := by decide +kernel
theorem test_refuse : runs (.refuse 0 0) (one (governed { offer := some (62, 6, 5) } [gmsg 0x23 62 0 5])) (fun p => decide ((p.g 0).gCap 0 = 105)) = true := by decide +kernel
theorem test_recall : runs (.hubStatusMessage 0 0) (one (governed {} [gmsg 0x20 62 0 3])) (fun p => decide (((p.g 0).gov 0).rcl = 3)) = true := by decide +kernel
theorem test_pool_taken : runs (.hubStatusMessage 0 0) (one (governed {} [{ gmsg 0x20 62 0 0 with pool := 40 }])) (fun p => decide ((p.g 0).gCap 0 = 140)) = true := by decide +kernel
theorem test_gov_period : runs (.govPeriod 0 0 (90, 3)) (one (governed { rcl := 9 } [])) (fun p => decide ((p.g 0).gCap 0 = 91 ∧ ((p.g 0).gov 0).offer = some (62, 0, 9))) = true := by decide +kernel

def tripped : Pkg := { live with hk := { live.hk with trips := [3] } }
theorem witness_PowerAndHeat :
    writable (one live) 0 .husk 62 0x14004 .pwr 4 = true ∧ 2000 ≤ (mk32 6500).toNat % 65536 ∧ (mk32 6501).toNat % 65536 > 6500 ∧ tripped.hk.trips = [3] ∧
    541 < 542 ∧ 21 * live.emergLimit < 20 * 65535 ∧ (live.wb (rPwr 0xC) 20 true).rb (rPwr 0xC) 20 = true ∧ 20 ≤ ({ live with pw := { calm := 20 } } : Pkg).pw.calm ∧ live.pw.calm < 20 ∧
    live.dieLive 0 = true ∧ (live.wr (rGov 0 0xC) 1).rf (rGov 0 0xC) 15 0 ≠ 0 ∧ live.regionActive 0 3 = false ∧ live.hk.ref = true ∧
    ({ live with hk := { live.hk with ref := false } } : Pkg).hk.ref = false := by decide +kernel
theorem test_wire_trip : runs (.stackSensorSample 0 0 0 440) (one { live with hk := { live.hk with failed := true } }) (fun p => decide ((p.g 0).hk.trips = [48])) = true := by decide +kernel
theorem test_plim : lands (.pwrLimitWrite 0 .husk 2000#32) 62 0x14000 (one live) (fun p => decide ((p.g 0).rf (rPwr 4) 15 0 = 2000)) = true := by decide +kernel
theorem test_plim_refused : lands (.pwrLimitWrite 0 .husk 1999#32) 62 0x14000 (one live) (fun p => decide ((p.g 0).rb (rPwr 0) 30 = true)) = true := by decide +kernel
theorem test_input_emergency : runs (.inputSample 0 542 0) (one live) (fun p => decide ((p.g 0).rb (rPwr 0xC) 20 = true)) = true := by decide +kernel
theorem test_emergency_end : runs (.emergencyEnd 0) (one { live.wb (rPwr 0xC) 20 true with pw := { calm := 20 } }) (fun p => decide ((p.g 0).rb (rPwr 0xC) 20 = false)) = true := by decide +kernel

/-- Port 0 of the leader and port 1 of the member face each other. -/
def cabled (a b : Nat) (x y : Link) : State :=
  let s := two live live
  let f (g : Pkg) (n st p : Nat) (l : Link) (j m : Nat) : Pkg := { (g.wf (rPort n 0) 30 28 st).wr (rPort n 4) (mk32 p) with links := [(n, { l with peer := some (j, m) })] }
  { s with pack := { s.pack with pkgs := [(0, f (s.pack.g 0) 0 a (2 ^ 31 + 2 ^ 30 + 2 ^ 13) x 1 1), (1, f (s.pack.g 1) 1 b (2 ^ 31 + 2 ^ 30) y 0 0)] } }
/-- A flit from position 1 to die 0 of position 0, and the frame that carries it. -/
def packFlit : Flit := { body := 5, ch := 0, sp := 1, ss := 0, dp := 0, ds := 0, num := 0 }
def packFrame : SentFrm := { n := 7, flits := [packFlit] }
def sending : Link := { retry := [packFrame], back := some 7, sn := 8 }
theorem witness_PackPorts_frames :
    (let s := cabled 2 2 { next := 7 } sending
     let g := s.pack.g 0
     let h := s.pack.g 1
     g.portState 0 = 2 ∧ h.portState 1 = 2 ∧ g.portLive 0 = true ∧ h.portLive 1 = true ∧ h.beats 1 = true ∧ g.pos = 0 ∧ h.pos ≠ g.pos ∧ ¬ (g.leads = true ∧ h.leads = true) ∧ g.epoch = 1 ∧
     h.epoch = g.epoch ∧ (g.link 0).peer = some (1, 1) ∧ (g.link 0).next = 7 ∧ (h.link 1).retry.find? (fun q => q.n == 7) = some packFrame ∧ (h.sendData 1).1 = some packFrame ∧
     packFrame.bad = false ∧ packFrame.flits.length ≤ 25 ∧ ∀ f ∈ packFrame.flits, f.dp = g.pos ∨ f.hop < 7) ∧
    ((cabled 2 3 {} {}).pack.g 1).portState 1 = 3 ∧
    (let s := cabled 2 2 {} sending; ((s.pack.g 1).wr rPackEpoch 2).epoch ≠ (s.pack.g 0).epoch) ∧ (live.link 5).peer = none := by decide +kernel
/-- A partner that is DOWN and still has DOWN beats to send; one that sends none. -/
theorem witness_PackPorts_down :
    (let h := (cabled 2 4 {} { dwn := 3 }).pack.g 1; h.beats 1 = true ∧ h.portState 1 = 4) ∧ ((cabled 2 4 {} {}).pack.g 1).beats 1 = false := by decide +kernel
/-- The last 21 symbols of a frame wrong: their syndromes, ten at a time, and no codeword within reach. -/
def lastWrong : List (Nat × Nat) := (List.range 21).map (fun i => (i, 1))
def synAt (i : Nat) : Nat := lastWrong.foldl (fun a e => a ^^^ gfPack.mul e.2 (gfPack.alpha (i * e.1))) 0
theorem syn_0 : (List.range' 0 10).map synAt = [1, 902, 982, 567, 754, 513, 14, 846, 171, 894] := by decide +kernel
theorem syn_1 : (List.range' 10 10).map synAt = [275, 77, 84, 990, 802, 865, 220, 623, 555, 444] := by decide +kernel
theorem syn_2 : (List.range' 20 10).map synAt = [837, 291, 117, 724, 308, 954, 690, 436, 863, 653] := by decide +kernel
theorem syn_3 : (List.range' 30 10).map synAt = [894, 965, 484, 315, 362, 926, 350, 445, 905, 858] := by decide +kernel
theorem syn_all : gfPack.syn (2 * 20) lastWrong = [1, 902, 982, 567, 754, 513, 14, 846, 171, 894, 275, 77, 84, 990, 802, 865, 220, 623, 555, 444,
    837, 291, 117, 724, 308, 954, 690, 436, 863, 653, 894, 965, 484, 315, 362, 926, 350, 445, 905, 858] := by
  have h : List.range (2 * 20) = List.range' 0 10 ++ (List.range' 10 10 ++ (List.range' 20 10 ++ List.range' 30 10)) := by decide
  have e : gfPack.syn (2 * 20) lastWrong = (List.range (2 * 20)).map synAt := rfl
  rw [e, h, List.map_append, List.map_append, List.map_append, syn_0, syn_1, syn_2, syn_3]
  rfl
theorem undecodable : gfPack.decode 700 20 lastWrong = none := by
  unfold GF.decode
  rw [syn_all]
  decide +kernel
def lastErrs : List (Nat × Nat × Nat) := (List.range 21).map (fun i => ((699 - i) % 4, (699 - i) / 4, 1))
theorem witness_unreadable (bs : List Byte) : slotRead bs (symErrs false lastErrs) = none := by
  have e : (symErrs false lastErrs).map (fun e => (699 - e.1, e.2 % 1024)) = lastWrong := by decide +kernel
  rw [slotRead, e, undecodable]; rfl
theorem witness_PackPorts_senders : ({ sending with back := none } : Link).retry.length < 512 ∧ (∀ r : SentFrm, 512 ≤ ({ retry := List.replicate 512 r } : Link).retry.length) ∧
    ((live.onLink 1 (fun x => { x with credits := [(0, 2)] })).link 1).back = none := by
  refine ⟨by decide, fun r => Nat.le_of_eq List.length_replicate.symm, by decide +kernel⟩
theorem witness_PackPorts_control : mget 0 ({ nak := true, seen := true, next := 7, tot := { owed := [(8, 3)] } } : Link).tot.owed 8 = 3 ∧
    mget 0 (({ owed := [(8, 3)] } : Tot).due 65535) 8 = 3 := by decide +kernel
theorem witness_PackPorts :
    ((cabled 2 2 {} {}).pack.g 0).rf (rPort 0 0x18) 3 0 + 1 < 8 ∧ 8 ≤ (((cabled 2 2 {} {}).pack.g 0).wf (rPort 0 0x18) 3 0 7).rf (rPort 0 0x18) 3 0 + 1 ∧
    (let s := cabled 1 3 {} {}
     let g := s.pack.g 0
     let h := s.pack.g 1
     g.portState 0 = 1 ∧ g.rb (rPort 0 0) 27 = false ∧ (g.link 0).dwn = 0 ∧ g.portLive 0 = true ∧ h.portLive 1 = true ∧ h.portState 1 = 3 ∧ h.rb (rPort 1 0) 27 = false ∧ (h.link 1).dwn = 0 ∧
     g.mode = 0 ∧ h.mode = 0 ∧ g.linkable = true ∧ h.linkable = true ∧ g.epoch = h.epoch ∧ g.mem.testBit h.pos = true ∧ h.mem.testBit g.pos = true) ∧
    ({ live with hk := { live.hk with state := 0 } } : Pkg).portLive 1 = false ∧ (live.wr rPipeMode 1).mode ≠ 0 ∧
    writable (cabled 2 2 {} {}) 0 .husk 0 (0x3000 + 0x40 * 3) .port (0x40 * 3) = true ∧ ((cabled 2 2 {} {}).pack.g 0).hole 0 = false ∧
    (let x : Post := { key := rk 0 0x3000, site := 0, off := 0x3000, v := setB 0#32 27 true, x := {} }
     due (posting live x) x = true) ∧
    (let s := cabled 2 2 {} { tot := { mark := true, sent := [(0, 5)] } }
     let y := (s.pack.g 1).link 1
     y.tot.mark = true ∧ allTaken 65536 0 y.retry = true ∧ ({} : Tot).audit y.tot = false ∧ ({} : Tot).audit { mark := true } = true) := by decide +kernel
theorem test_window_eighth : runs (.beatWindowExpiry 0 0) (one ((live.wf (rPort 0 0) 30 28 2).wf (rPort 0 0x18) 3 0 7)) (fun p => decide ((p.g 0).portState 0 = 4)) = true := by decide +kernel
theorem test_port_isolate : lands (.portIsolate 0 .husk 0 0x08000000#32) 0 0x3000 (cabled 2 2 {} {}) (fun p => decide ((p.g 0).portState 0 = 4 ∧ (p.g 0).rb (rPort 0 0) 27 = true)) = true := by decide +kernel
theorem test_port_train : runs (.portTrain 0 0 ((1, 1), true, 5)) (cabled 1 3 {} {}) (fun p => decide ((p.g 0).portState 0 = 2 ∧ (p.g 1).portState 1 = 2)) = true := by decide +kernel
theorem test_audit_mismatch : runs (.auditMarker 0 (.port 0) 1 (.port 1)) (cabled 2 2 {} { tot := { mark := true, sent := [(0, 5)] } }) (fun p => decide ((p.g 0).rb (rLedger 0) 31 = true)) = true := by decide +kernel

def memberMsg (e mem : Nat) : MemberMsg := { epoch := e, mem := mem, links := [] }
/-- The pack of two with the leader's PIPE.MODE, PROT.CTL, phase and cause, and positions held lost. -/
def packed (mode ctl ph cause gone : Nat) : State :=
  let g := ((live.wr rPipeMode (mk32 mode)).wr (rProt 0) (mk32 ctl)).setPhase ph |>.wf rSealStat 15 8 cause
  two { g with pr := { g.pr with gone := gone, links := [(0, 2), (1, 2)] } } g
theorem witness_PackMembership :
    writable (one live) 0 .husk 62 (0x7100 + 8 * 63 + 4) .pack (0x100 + 8 * 63 + 4) = true ∧ writable (one live) 0 .husk 62 0x7018 .pack 0x18 = true ∧
    writable (one live) 0 .husk 62 0x7014 .pack 0x14 = true ∧ (packed 0 0 0 0 0).pack.members 0 = [0, 1] ∧ ((packed 1 0 0 0 0).pack.g 1).mode = 1 ∧
    (live.wr rPackId 0).assigned = false ∧ ((live.wr rPackId 0).wr rMemLo 0).mem.testBit 5 = false ∧ (∀ n, n < 32 → live.rb (rPort n 4) 31 = false) ∧
    (let g := (packed 1 0 0 0 0).pack.g 0
     g.assigned = true ∧ (memberMsg 2 3).epoch = (g.epoch + 1) % 65536 ∧ ¬ (g.phase = 4 ∧ g.cause = 0xA) ∧ g.mode ≠ 0 ∧ (3 : Nat).testBit g.pos = true ∧ (2 : Nat).testBit g.pos = false ∧
     (memberMsg 3 3).epoch ≠ (g.epoch + 1) % 65536 ∧ g.pr.downs = [] ∧ 1 < mget 0 g.pr.links 0 ∧ g.mem.testBit 1 = true ∧ g.pos = 0 ∧ g.pr.gone.testBit 1 = false) ∧
    (let g := (two (live.wr rPackEpoch 1) (live.wf rPackStat 15 10 5)).pack.g 1; g.leads = false ∧ 0 ≠ g.lpos ∧ g.pr.gone.testBit g.lpos = false ∧ g.mem.testBit 0 = true ∧ 0 ≠ g.pos) ∧
    (let g := (packed 1 (2 ^ 29) 0 0 0).pack.g 0; ({ g with pr := { g.pr with gone := 2 } } : Pkg).sufficient = true ∧ g.pr.commit = none ∧ g.ld.reverting = [] ∧ g.rlim = 0 ∧ g.autorev = true) ∧
    (let g := ((packed 1 0 0 0 0).pack.g 0).wr rMemLo 7; ({ g with pr := { g.pr with gone := 6 } } : Pkg).sufficient = false ∧ g.leads = true) ∧
    (let g := (packed 1 0 0 0 1).pack.g 0; (∀ q, q ∈ positions g.mem → q < 1 → g.pr.gone.testBit q = true) ∧ g.mem.testBit 1 = true ∧ g.pr.gone.testBit g.lpos = true) ∧
    (let g := (packed 1 0 0 0 0).pack.g 0; 0 ∈ positions g.mem ∧ (0 : Nat) < 1 ∧ g.pr.gone.testBit 0 = false ∧ g.pr.gone.testBit g.lpos = false) := by decide +kernel
/-- A member that holds its leader, position 0, lost. -/
def orphan : State := two live { live with pr := { live.pr with gone := 1 } }
/-- The leader has sent ASSIGN to the unassigned package that its port 0 faces. -/
def assigning : State :=
  let a := { live.wf (rPort 0 0) 30 28 3 with sent := [.assign 1 (serialOf 1) 0 0], links := [(0, { peer := some (1, 0) })] }
  let b := { ((live.wr rPackId 0).wr rMemLo 0).wf (rPort 0 0) 30 28 3 with links := [(0, { peer := some (0, 0) })] }
  { pack := { pkgs := [(0, a), (1, b)] }, pending := [] }
theorem witness_PackMembership_assign :
    (let h := assigning.pack.g 0
     let g := assigning.pack.g 1
     (g.link 0).peer = some (0, 0) ∧ h.assigned = true ∧ h.leads = true ∧ h.pos = 0 ∧ g.portState 0 = 3 ∧ h.portState 0 = 3 ∧ g.assigned = false ∧ h.mem.testBit 1 = false) ∧
    Msg.assign 1 (serialOf 1) 0 0 ∈ (assigning.pack.g 0).sent := by
  refine ⟨⟨rfl, by decide +kernel, by decide +kernel, by decide +kernel, by decide +kernel, by decide +kernel, by decide +kernel, by decide +kernel⟩, List.mem_cons_self ..⟩
theorem witness_PackMembership_claims :
    (let g := orphan.pack.g 1
     g.leads = false ∧ g.assigned = true ∧ g.mem.testBit 1 = true ∧ (∀ q, q ∈ positions g.mem → q < 1 → g.pr.gone.testBit q = true) ∧ ¬ (g.phase = 4 ∧ g.cause = 0xA) ∧ g.epoch = 1) ∧
    (let g := (packed 1 0 0 0 0).pack.g 0; g.committing = false ∧ ({ g with ld := { g.ld with reverting := [0] } } : Pkg).ld.reverting ≠ [] ∧ g.leads = true ∧ (1 : Nat) ≠ g.pos) ∧
    (∃ j ∈ (packed 1 0 0 0 0).pack.members 0, ((packed 1 0 0 0 0).pack.g j).mode ≠ 0) := by
  refine ⟨by decide +kernel, by decide +kernel, ⟨0, by decide +kernel, by decide +kernel⟩⟩
theorem witness_serial (k : Nat) : ∃ n, n ≠ serialOf k := ⟨serialOf k + 1, by omega⟩
theorem test_memnext : runs (.packMemnextWrite 0 .husk true 0#32) (one (live.wr (hubR 0x7010) 1)) (fun p => decide ((p.g 0).sent = [.member { epoch := 2, mem := 1, links := List.replicate 64 0 }])) = true := by
  decide +kernel
theorem test_member : runs (.member 1 (memberMsg 2 3)) (packed 1 0 0 0 0) (fun p => decide ((p.g 1).epoch = 2 ∧ (p.g 1).mem = 3)) = true := by decide +kernel
theorem test_member_out : runs (.member 1 (memberMsg 2 1)) (packed 1 0 0 0 0) (fun p => decide ((p.g 1).epoch = 1 ∧ (p.g 1).leads = true)) = true := by decide +kernel
theorem test_pkg_fail_revert : runs (.pkgFail 0 1) (packed 1 (2 ^ 29) 0 0 0) (fun p => decide ((p.g 0).takeSt = 1 ∧ (p.g 0).ld.reverting = [0])) = true := by decide +kernel
theorem test_claim : runs (.leadClaim 1 1 1) orphan (fun p => decide ((p.g 1).lpos = 1)) = true := by decide +kernel
theorem test_partition : runs (.partitionTimeout 0) (packed 1 0 0 0 1) (fun p => decide ((p.g 0).phase = 4 ∧ (p.g 0).cause = 0xA)) = true := by decide +kernel

/-! Revert, reclaim, protection, host, responders, gates, power states -/

def reverting (l : List Nat) (gone : Nat) (rec : Nat) : Pkg :=
  let g := live.wr (rLedger 0) (mk32 (rec * 2 ^ 30))
  { g with ld := { g.ld with reverting := l, reclaiming := l }, pr := { g.pr with gone := gone } }
def someCut : Cut := { step := 3, epoch := 1, pos := 0, serial := 0, floor := 0, commit := none, regs := [], strm := [] }
theorem witness_RevertsAndReclaims :
    (let g := (packed 1 (2 ^ 29) 0 0 0).pack.g 0
     g.leads = true ∧ ¬ (g.phase = 4 ∧ (g.cause = 0xA ∨ g.cause = 5 ∨ g.cause = 8)) ∧ g.pr.commit = none ∧ g.ld.reverting = [] ∧ g.rlim = 0 ∧ g.autorev = true ∧ g.assigned = true ∧ g.epoch = 1 ∧
     g.pr.gone &&& g.mem = 0 ∧ g.rb (rLedger 0) 30 = false ∧ (packed 1 (2 ^ 29) 0 0 0).pack.owesReclaim 0 = false ∧ g.pr.repair = []) ∧
    (applying 1).pr.commit.isSome = true ∧
    (let g := ((packed 1 (2 ^ 29 + 2 ^ 24) 0 0 0).pack.g 0).wf (rProt 4) 15 8 1; g.phase ≠ 4 ∧ g.mem.testBit g.pos = true ∧ 0 < g.rlim ∧ g.rlim ≤ g.revcnt) ∧
    ((packed 1 0 0 0 0).pack.g 0).autorev = false ∧ (reverting [0] 2 0).mem = 1 ∧ (let g := (packed 1 0 0 0 2).pack.g 0; g.pr.gone &&& g.mem ≠ 0) ∧
    (reverting [0] 0 1).rb (rLedger 0) 30 = true ∧ 0 ∈ (reverting [0] 0 1).ld.reclaiming ∧ (one (reverting [0] 0 1)).pack.members 0 = [0] ∧ (reverting [0] 0 1).pr.rev ≠ 1 ∧
    (∃ h ∈ positions (3 &&& (2 ^ 64 - 1 - 0 % 2 ^ 64)), h ≠ 0) ∧ ((two live live).pack.g 1).leads = false ∧
    writable (one live) 0 .husk 62 0x40000 .prot 0 = true ∧ Master.priv .husk = true ∧ cutsOk [someCut] true = true ∧ (live.setPhase 3).phase = 3 ∧ live.mem = 2 ^ live.pos ∧
    live.lready = true ∧ (live.wr rPipeMode 1).lready = false := by decide +kernel
theorem test_revert_request : runs (.revertRequest 0) (packed 1 (2 ^ 29) 0 0 0) (fun p => decide ((p.g 0).takeSt = 1 ∧ (p.g 0).revcnt = 1 ∧ (p.g 0).ld.reverting = [0, 1])) = true := by decide +kernel
theorem test_revert_limit : runs (.revertRequest 0) (one (((live.wr (rProt 0) (mk32 (2 ^ 29 + 2 ^ 24))).wf (rProt 4) 15 8 1))) (fun p => decide ((p.g 0).phase = 4 ∧ (p.g 0).cause = 7)) = true := by decide +kernel
theorem test_revert_done : runs (.revertDone 0 0 0) (one (reverting [0] 0 0)) (fun p => decide ((p.g 0).ld.reverting = [] ∧ (p.g 0).takeSt = 0)) = true := by decide +kernel
theorem test_reclaim : runs (.reclaim 0 0) (one (live.setCredits 0 0 0 600 4)) (fun p => decide ((p.g 0).rb (rLedger 0) 30 = true ∧ (p.g 0).ld.reclaiming = [0])) = true := by decide +kernel
theorem test_prot_unassign : lands (.protUnassign 0 .husk 0#32) 62 0x40000 (one live) (fun p => decide ((p.g 0).assigned = false ∧ (p.g 0).epoch = 0)) = true := by decide +kernel

/-- A parity delta of step 5 for tensor 3, whose group's holder is entry 9 on this package. -/
def delta (n : Nat) : ParDelta := { step := n, tensor := 3, group := 0, member := 0, plane := 0, block := 0, delta := List.replicate 4096 1, digest := 77 }
def parity : Pkg := ((atStep 0).wr (rTmode 3) (mk32 (2 ^ 30 + 3 * 2 ^ 26 + 9))).wr (rOwn 9 4) 0x40000040
theorem witness_ProtectionAndTakeover :
    (parity.step = 5 ∧ (0 : Nat) < parity.lplanes 3 ∧ 0 < parity.planeBlocks 3 ∧ 0 < parity.pgroup 3 ∧ parity.tEn 3 = true ∧ parity.tmodeSet 3 = 1 ∧ parity.modesIn.tmode 3 = 1 ∧ parity.ownPos (parity.holder 3 0) = parity.pos ∧
      0 < parity.pgroups 3) ∧
    (let g := (packed 1 (2 ^ 28) 3 0 2).pack.g 0
     g.leads = true ∧ g.mem.testBit g.pos = true ∧ g.pr.gone &&& g.mem ≠ 0 ∧ g.autotk = true ∧ g.ld.reverting = [] ∧ g.phase = 3 ∧ (∀ x, x < 8 → g.rb (rSpare x 8) 31 = false)) ∧
    ((packed 1 0 3 0 2).pack.g 0).autotk = false ∧ writable (one live) 0 .husk 62 0x40000 .prot 0 = true ∧ (live.wf (rProt 4) 31 29 5).takeSt = 5 ∧ live.takeSt ≠ 5 ∧ live.pr.hostBlocks = [] ∧
    writable (one live) 0 .host 62 (0x50000 + 4 * 16383) .prot (0x10000 + 4 * 16383) = true ∧ live.calm = true ∧ live.tEn 3 = false ∧ (live.wr rPipeMode 1).calm = false ∧
    fld (0x80000000#32) 31 30 = 2 ∧ fld (0x40000000#32) 31 30 = 1 ∧ live.parityOk 3 0x40000000#32 = false ∧
    (let g := ((tensor 0).wr (rOwn 9 4) 0x40000440); g.parityOk 3 (mk32 (2 ^ 30 + 3 * 2 ^ 26 + 9)) = true) ∧
    writable (one live) 0 .husk 62 (0x40048 + 16 * 7) .prot (0x48 + 16 * 7) = true := by decide +kernel
theorem witness_delta : (delta 5).delta.length = 4096 ∧ (delta 5).step = 5 := ⟨List.length_replicate .., rfl⟩
theorem test_parity_stale : runs (.parityDelta 0 0) (wired (.delta { delta 4 with delta := [] }) parity) (fun p => decide (p.wire = [])) = true := by decide +kernel
theorem test_takeover_no_spare : runs (.spareTakeover 0 none) (packed 1 (2 ^ 28) 3 0 2) (fun p => decide ((p.g 0).phase = 4 ∧ (p.g 0).cause = 9)) = true := by decide +kernel
theorem test_tmode_image : lands (.protTmodeWrite 0 .host 3 0x80000000#32) 62 0x40000 (one live) (fun p => decide ((p.g 0).tmodeSet 3 = 2 ∧ (p.g 0).tmode 3 = 0 ∧ (p.g 0).pr.image = [3])) = true := by decide +kernel
theorem test_tmode_enabled : lands (.protTmodeWrite 0 .host 3 0x80000000#32) 62 262144 (one (live.wb (rTens 3 0) 29 true)) (fun p => decide ((p.g 0).tmodeSet 3 = 0 ∧ (p.g 0).pr.image = [])) = true := by decide +kernel
theorem test_spctl : runs (.protSpctlWrite 0 .husk 7 0xFFFFFFFF#32) (one live) (fun p => decide ((p.g 0).rb (rSpare 7 8) 31 = true ∧ (p.g 0).rb (rSpare 7 8) 30 = false)) = true := by decide +kernel

/-- A spare entry 0 that names a package outside the pack, with no position, whose port faces port 0 of the leader. -/
def takeoverSt : State :=
  let s := packed 1 (2 ^ 28) 3 0 2
  let a := (((s.pack.g 0).wr (rSpare 0 8) 0x80000000#32).wr (rPort 0 4) 0x80000000#32)
  { s with pack := { s.pack with pkgs := [(0, { a with links := [(0, { peer := some (2, 0) })] }), (1, s.pack.g 1), (2, (live.wr rPackId 0).wr rMemLo 0)] } }
theorem witness_spare : takeoverSt.pack.chooseSpare 0 0 = some (0, 2) := by
  have e : takeoverSt.pack.spareOf 0 0 0 = some 2 := by
    unfold Pack.spareOf
    simp only [Nat.not_lt_zero, decide_false, Bool.or_false]
    decide +kernel
  rw [Pack.chooseSpare, show List.range 8 = 0 :: (List.range 7).map (· + 1) by decide, List.findSome?_cons, e]
  rfl
theorem witness_no_mirror : (packed 1 (2 ^ 28) 3 0 2).pack.mirrorCut 0 1 0 = none := by decide +kernel

/-- The function ready: every die started. -/
def ready : Pkg := { live with started := (List.range 48).map (fun n => (n, true)), hif := [(0x100, 1#32), (0x104, 0x00020000#32), (0x110, 1#32)] }
def shut : Pkg := { ready with regs := mins ready.regs (rGateB 0) 0 }
theorem witness_HostRequests :
    ready.hubUp = true ∧ ready.ready = true ∧ live.ready = false ∧ ready.tlpOk 0 0 4 4096 = true ∧ ready.hk.d3 = false ∧ ((two ready live).pack.g 1).hostTo 0 0 = .ur ∧
    ready.hostTo 0 0x3C00000 = .bad ∧ ready.hostTo 0 0x3F00010 = .hif 0x10 ∧ oneDw 0x3F00010 4 = true ∧ oneDw 0x3F00010 8 = false ∧
    ready.hostTo 0 0x10040 = .addr (gaddr 0 0 3 0x10040) ∧ ready.hostTo 2 0x400000 = .addr (gaddr 0 0 2 0x400000) ∧ ready.tlpOk 2 0x400000 64 512 = true ∧
    (match (one ready).pack.where' 0 none (gaddr 0 0 3 0x10040) with | .ok l => (one ready).pack.statusTurn l none == 0 | _ => false) = true ∧
    (match (one ready).pack.spanOk 0 none (gaddr 0 0 2 0x400000) 64 with | .ok _ => true | _ => false) = true ∧ (one shut).pack.spanOk 0 none (gaddr 0 0 2 0) 64 = .gated ∧
    (one (ready.wr (rGateU 0 0) 0)).pack.where' 0 none (gaddr 0 0 3 0x10040) = .gated ∧
    ({ ready with hif := mins ready.hif 0x104 0x00FF0000#32 } : Pkg).hostTo 2 0 = .addr (0x00FF000000000000) ∧
    (one ready).pack.spanOk 0 none 0x00FF000000000000 64 = .invalid ∧
    ready.hostTo 4 (15 * 2 ^ 20 + 4 * 14) = .ctl (4 * 14) ∧ ready.leads = true ∧
    ({ ready with msix := [(2047, true)], hk := { ready.hk with msixOn := true }, hif := [(0x4000C + 16 * 2047, 1#32)] } : Pkg).hrd (0x4000C + 16 * 2047) = 1#32 := by decide +kernel
/-- A status word behind an operation on its tile, a channel that is held, the function in D3hot, a poisoned write's request. -/
theorem witness_HostRequests_more :
    (let s := one { ready with aops := [mmaRec] }
     let l : Loc := { pk := 0, site := 0, space := 3, off := 0x10000 + 0x300 + 0x20 + 4 }
     accstOf l.site l.off = some (0, 1, 1) ∧ s.pack.statusTurn l none ≠ 0 ∧ ready.hostTo 0 l.off = .addr (gaddr 0 0 3 l.off) ∧ s.pack.where' 0 none (gaddr 0 0 3 l.off) = .ok l) ∧
    (∃ o ∈ (List.range 256).map (64 * ·), (one (leveled 3)).pack.chWaits (stackLoc 0 0 o) = true) ∧
    (one ready).pack.chWaits { pk := 0, site := 0, space := 2, off := 0 } = false ∧
    ({ ready with hk := { ready.hk with d3 := true } } : Pkg).hk.d3 = true ∧ (ready.hostTo 0 0x3F00000 = .hif 0) ∧
    (∀ x ∈ ([some 1, some 2, some 3, some 4] : List (Option Byte)), x.isSome = true) ∧ ready.hostTo 0 (0x3F00000 + hIvec) = .hif hIvec := by decide +kernel
theorem test_host_read : runs (.hostMemoryRead 0 0 0x10040 4 .ok) (one (ready.setTh t0 { prio := 2 })) (fun p => match (p.g 0).hk.cpl with | .data _ => true | _ => false) = true := by decide +kernel
theorem test_host_write_bytes : runs (.hostMemoryWrite 0 2 0x400000 ([some 5, none, some 7], false) .ok) (one ready) (fun p => decide (p.mem.map (·.2) = [5, 7])) = true := by decide +kernel
theorem test_host_ca : runs (.hostMemoryRead 0 0 0x10040 8 .ok) (one ready) (fun p => decide ((p.g 0).hk.cpl = .ca ∧ fld ((p.g 0).hrd 4) 30 28 = 3)) = true := by decide +kernel
theorem test_config_rrs : runs (.configRequest 0 .ids) (one live) (fun p => decide ((p.g 0).hk.cpl = .rrs)) = true := by decide +kernel
theorem test_msix : runs (.msixMessage 0 2047) (one { ready with msix := [(2047, true)], hk := { ready.hk with msixOn := true }, hif := [(0x40000 + 16 * 2047, 0xFEE00000#32), (0x4000C + 16 * 2047, 1#32)] })
    (fun p => decide ((p.g 0).hk.msi = some (0xFEE00000, 0))) = true := by decide +kernel

def messaged (f b : Nat) : Pkg := live.wr (rHusk 4) (mk32 (f * 2 ^ 30 + b * 2 ^ 29 + 3))
theorem witness_Responders :
    ready.ready = true ∧ live.hk.vaon = true ∧ 0x14004 % 4 = 0 ∧ mctpReach 0x14004 = true ∧ mctpReach 0x10000 = false ∧ mctpReach (0x17FFC + 4 * 2 - 1) = false ∧
    blockOf 62 0x20008 = some (.errlog, 8) ∧ (busyKey 62 .errlog 8).isSome = true ∧ live.busy = [] ∧ (match live.place 0 62 3 0x14004 with | .ok _ => true | _ => false) = true ∧
    (messaged 0 1).rb (rHusk 4) 29 = true ∧ (messaged 0 0).rb (rHusk 4) 29 = false ∧ (messaged 1 0).rb (rHusk 4) 30 = true ∧ (messaged 0 0).rb (rHusk 4) 30 = false := by decide +kernel
theorem test_set_eid : runs (.setEndpointId 0 254) (one live) (fun p => decide ((p.g 0).hk.eid = 254)) = true := by decide +kernel
theorem test_mctp_write : runs (.mctpWrite 0 0x14004 3000#32) (one live) (fun p => decide ((p.g 0).rf (rPwr 4) 15 0 = 3000 ∧ (p.g 0).hk.resp.1 = 0)) = true := by decide +kernel
theorem test_mctp_out_of_reach : runs (.mctpRead 0 0x17FFC 2) (one live) (fun p => decide ((p.g 0).hk.resp = (1, []))) = true := by decide +kernel
theorem test_bsend : runs (.bsend 0 [1, 2, 3]) (one live) (fun p => decide ((p.g 0).huskBytes 0x200 3 = [1, 2, 3] ∧ (p.g 0).rb (rHusk 4) 29 = true)) = true := by decide +kernel
theorem test_htake : runs (.htake 0) (one (messaged 1 0)) (fun p => decide ((p.g 0).hk.resp = (0, [3, 0, 0, 0, 0]) ∧ (p.g 0).rb (rHusk 4) 30 = false)) = true := by decide +kernel
theorem test_get_version : runs (.getVersion 0) (one ready) (fun p => decide ((p.g 0).hk.answer = .version [0x12, 0x13])) = true := by decide +kernel

theorem witness_GatesAndTestPort :
    writable (one live) 0 .husk 0 16 .die 16 = true ∧ writable (one live) 0 .host 47 4 .die 4 = true ∧ writable (one live) 0 .host 0 0x14 .die 0x14 = true ∧
    writable (one live) 0 .host 0 0x18 .die 0x18 = true ∧ writable (one live) 0 .host 62 4 .hub 4 = true ∧ writable (one live) 0 .host 62 8 .hub 8 = true ∧
    writable (one live) 0 .host 0 0x1C .die 0x1C = true ∧ live.romPhase = false ∧ (live.setBphase 0).romPhase = true ∧ live.calm = true ∧ live.anyHeld = false ∧
    live.kcapSum 8 ≤ kpoolOf (live.shareSum 0 16) 0 ∧ live.shareCovers 0 16 = false ∧ fld (17#32) 4 0 = 17 ∧ (tiledPkg 5 0).anyHeld = true ∧
    (queued 600 0 ix0 16 0 {}).shareCovers 0 16 = true ∧ live.hubUp = true := by decide +kernel
theorem test_gateu_held : runs (.dieGateuWrite 0 .host 0 0 0x00010000#32) (one (live.setTh t0 { st := .ready })) (fun p => decide ((p.g 0).unitOn 0 0 = true ∧ (p.g 0).rb (rGstat 0) 0 = true)) = true := by
  decide +kernel
theorem test_gateu_off : runs (.dieGateuWrite 0 .host 0 0 0x00010000#32) (one live) (fun p => decide ((p.g 0).unitOn 0 0 = false ∧ (p.g 0).unitOn 0 1 = true)) = true := by decide +kernel
theorem test_kshr : runs (.dieKshrWrite 0 .host 0 16#32) (one live) (fun p => decide ((p.g 0).share 0 0 = 4194304 ∧ (p.g 0).rf rKpool 18 0 = 4)) = true := by decide +kernel
theorem test_kshr_gcov : runs (.dieKshrWrite 0 .host 0 16#32) (one (queued 600 0 ix0 16 0 {})) (fun p => decide ((p.g 0).share 0 0 = 0 ∧ (p.g 0).rb (rGstat 0) 1 = true)) = true := by decide +kernel

/-- Off in S3 or S1, PWR_OK as given, the log's reader at its reset. -/
def off (st : Nat) (ok perst rst : Bool) : Pkg := { live with hk := { live.hk with state := st, pwrok := ok, perst := perst, rst := rst } }
theorem witness_PowerStatesBoardAndBoot :
    (off 0 true false false).hk.vaon = true ∧ (off 0 true false false).busy = [] ∧ (off 0 true false false).rb (rPwr 0xC) 28 = false ∧ (off 0 false false false).hk.pwrok = false ∧
    writable (one live) 0 .husk 62 0x14008 .pwr 8 = true ∧ live.mayLeave = true ∧ (live.wr rPipeMode 1).mayLeave = false ∧ live.siteSt 0 = .active ∧ mget false live.started 0 = true ∧
    (live.wb (rPwr 0) 29 true).rb (rPwr 0) 29 = true ∧ (live.wb (rPwr 0) 29 false).rb (rPwr 0) 29 = false ∧ (off 2 true true true).hk.rst = true ∧ live.hk.ref = true ∧ live.hk.rst = false ∧
    (∀ n, n < 32 → live.portState n ≠ 2 ∧ live.portState n ≠ 3) ∧ writable (one live) 0 .husk 62 0x15004 .husk 4 = true ∧ (messaged 1 0).rb (rHusk 4) 30 = true ∧
    writable (one live) 0 .husk 62 0x15008 .husk 8 = true ∧ writable (one live) 0 .husk 62 0x1500C .husk 0xC = true ∧ live.hk.quote = none ∧
    writable (one live) 0 .husk 62 (0x15300 + 4 * 7) .husk (0x300 + 4 * 7) = true ∧ writable (one live) 0 .husk 62 0x17000 .keyb 0 = true ∧ live.bphase = 2 ∧
    (live.setBphase 0).bphase = 0 ∧ ((live.setBphase 0).loadLoc 0).isSome = true ∧ (live.setBphase 1).bphase = 1 ∧ writable (one live) 0 .husk 62 0x16000 .fuse 0 = true ∧
    (let s := two { live with ld := { live.ld with push := [1] } } (live.setBphase 0)
     (s.pack.g 0).ld.push.contains (s.pack.g 1).pos = true ∧ live.ld.push.contains (s.pack.g 1).pos = false ∧ (s.pack.g 1).assigned = true ∧ s.pack.at 1 (s.pack.g 1).lpos = some 0 ∧ (s.pack.g 0).bphase = 2 ∧ (s.pack.g 0).leads = true) := by decide +kernel
theorem witness_quote_body : (List.replicate 128 (0 : Byte)).length = 128 := List.length_replicate ..
/-- Posted commands to the power block, the mailbox, the keys and the fuses that are due. -/
theorem witness_PowerStates_due :
    (∀ n ∈ [1, 2, 3, 4, 5], let x : Post := { key := rPwr 0, site := 62, off := 0x14008, v := mk32 (n * 2 ^ 28), x := {} }
      due (posting live x) x = true ∧ due (posting (off 0 true false false) x) x = true ∧ x.key = rk 62 0x14000) ∧
    (∀ p ∈ [(rHusk 4, 0x15004), (rFuse 0, 0x16000)], ∀ o ∈ [0x15004, 0x15008, 0x16000, 0x17000],
      let x : Post := { key := p.1, site := 62, off := o, v := 5, x := {} }
      due (posting live x) x = true ∧ x.key = rk 62 p.2) ∧
    (∀ n ∈ [20, 21, 22, 23], let x : Post := { key := rProt 0, site := 62, off := 0x40000, v := setB 0#32 n true, x := {} }
      due (posting live x) x = true ∧ x.key = rk 62 0x40000) ∧
    live.siteSt 5 ≠ .off ∧ live.busy.contains (rPwr 0) = false ∧ (messaged 1 0).rb (rHusk 4) 30 = true ∧ (messaged 0 0).rb (rHusk 4) 30 = false := by decide +kernel
theorem witness_PowerStates_advancing :
    ({ live with posts := [{ key := rFuse 0, site := 62, off := 0x16000, v := 16, x := {} }] } : Pkg).advancing = true ∧ live.advancing = false := by decide +kernel
theorem test_perst_release_without_refclk : runs (.perstRelease 0) (one { off 2 true true true with hk := { (off 2 true true true).hk with ref := false } }) (fun p => decide ((p.g 0).powered = true ∧ (p.g 0).hubUp = false)) = true := by decide +kernel
theorem test_powerOff : lands (.powerOff 0 .husk true) 62 0x14000 (one live) (fun p => decide ((p.g 0).hk.state = 0 ∧ (p.g 0).hubUp = false)) = true := by decide +kernel
theorem test_standby_refused : lands (.standby 0 .husk false false) 62 0x14000 (one (live.wr rPipeMode 1)) (fun p => decide ((p.g 0).hk.state = 2 ∧ (p.g 0).rb (rPwr 0xC) 19 = true)) = true := by decide +kernel
theorem test_diereset : runs (.diereset 0 .husk 0 []) (one live) (fun p => decide ((p.g 0).posts.map (fun x => (x.key, x.off)) = [(rPwr 0, 0x14008)] ∧ (p.g 0).siteSt 0 = .active)) = true := by decide +kernel
theorem test_refclk_loss : runs (.refclkLoss 0) (one live) (fun p => decide ((p.g 0).hk.failed = true ∧ (p.g 0).rb (rPwr 0xC) 21 = true)) = true := by decide +kernel
theorem test_perst : runs (.perstAssert 0) (one (off 0 true false false)) (fun p => decide ((p.g 0).hk.perst = true)) = true := by decide +kernel
theorem test_hsend : lands (.hsend 0 .husk 256) 62 0x15004 (one live) (fun p => decide ((p.g 0).rf (rHusk 4) 8 0 = 256 ∧ (p.g 0).rb (rHusk 4) 30 = true)) = true := by decide +kernel
theorem test_load_bad_magic : lands (.load 0 .husk) 62 0x16000 (one (live.setBphase 0)) (fun p => decide ((p.g 0).bphase = 3 ∧ (p.g 0).rf (rKey 0) 27 24 = 1)) = true := by decide +kernel
theorem test_load_running : lands (.load 0 .husk) 62 0x16000 (one live) (fun p => decide ((p.g 0).bphase = 2 ∧ (p.g 0).rf (rKey 0) 27 24 = 8)) = true := by decide +kernel
theorem test_advsvn_before_run : lands (.advsvn 0 .husk) 62 0x16000 (one (live.setBphase 0)) (fun p => decide ((p.g 0).rf (rKey 0) 27 24 = 8)) = true := by decide +kernel

theorem witness_CommandsOfOnePackage : (Instr.idcode 3).alone = some 3 ∧ (Instr.perstRelease 0).alone = some 0 ∧ (Instr.nop t0 ff).alone = none := by decide +kernel

end Sys2Proof.Tests
end

section
/-! PROOFS. Every instruction of a thread goes through `issue`; the forms in which it does not execute (R111, R115, R117, R219). -/

namespace Sys2Proof.Machine

/-- The command `c` is thread `t` issuing operation `op` with these fields and this body. -/
def IssuedAs (c : Instr) (op : Op) (t : Tid) (f : Fields) (body : Body) : Prop :=
  ∀ s : State, exec c s = .next { s with pack := issue op t f body s.pack }

theorem IssuedAs.gives {c : Instr} {op : Op} {t : Tid} {f : Fields} {body : Body} (hc : IssuedAs c op t f body)
    {s : State} {p : Pack} (h : issue op t f body s.pack = p) : Gives c s p := by
  rw [Gives, hc s, h]

/-- Operations differ by their body and by the fields they issue with; the way through `issue` is the same for all. -/
theorem toInstr_issuedAs (op : Op) (t : Tid) (f : Fields) :
    ∃ body : Body, IssuedAs (op.toInstr t f) op t (op.fields f) body := by
  cases op <;> exact ⟨_, fun _ => rfl⟩

/-- Settles O6: each form is a law of `issue` that holds whatever the body is, so it holds of every operation. -/
theorem formsThatDoNotExecute : Obligations.FormsThatDoNotExecute := by
  unfold Obligations.FormsThatDoNotExecute
  intro s t op f
  obtain ⟨body, hissued⟩ := toInstr_issuedAs op t f
  refine ⟨fun hcan => ?other, fun hcan hheld => ?held, fun hcan hfree henc => ?reserved,
    fun hcan hfree henc hguard => ?skipped, fun hcan hfree henc hguard hwait => ?awaits, rfl⟩
  case other => exact hissued.gives (issue_other hcan)
  case held => exact hissued.gives (issue_held hcan hheld)
  case reserved => exact ⟨_, hissued.gives ((issue_bad hcan hfree henc).trans (leave_access rfl))⟩
  case skipped => exact hissued.gives (issue_skip hcan hfree henc hguard)
  case awaits => exact hissued.gives (issue_awaits hcan hfree henc hguard hwait)

end Sys2Proof.Machine
end

section
/-! PROOFS. The moves of a descriptor (R121): `Tile.advance` as one equation, and each field of the descriptor it answers. -/

namespace Sys2Proof.Machine

theorem imod_lt (z : Int) (n : Nat) : imod z n < 2 ^ n := by
  have hpos : (0 : Int) < (2 ^ n : Nat) := by exact_mod_cast Nat.two_pow_pos n
  have hlt := Int.emod_lt_of_pos z hpos
  have hnonneg := Int.emod_nonneg z hpos.ne'
  unfold imod
  omega

theorem ofNat_imod (z : Int) : BitVec.ofNat 64 (imod z 64) = BitVec.ofInt 64 z := by
  apply BitVec.eq_of_toNat_eq
  simp only [imod, BitVec.toNat_ofNat, BitVec.toNat_ofInt]
  exact Nat.mod_eq_of_lt (imod_lt z 64)

theorem coe_imod_20 (z : Int) : (imod z 20 : Int) = z % 2 ^ 20 :=
  Int.toNat_of_nonneg (Int.emod_nonneg z (by decide))

/-- The move runs along the axis in which the blocks of the view extend. -/
def Tile.alongBlocks (d : Tile) (axis : Nat) : Bool := d.blk && d.baxis == 1 - axis

/-- What R121 refuses: to move by a part of a block, or by half a byte. -/
def Tile.refuses (d : Tile) (axis : Nat) (v : Int) : Bool :=
  (d.alongBlocks axis && v % 32 != 0) || (d.fmt == .f4 && axis == 1 && v % 2 != 0)

/-- How far BASE moves. -/
def Tile.baseStep (d : Tile) (axis : Nat) (v : Int) : Int :=
  if axis = 0 then v * d.stride else v * fmtBits d.fmt / 8

/-- How far BEBASE moves in a view with block exponents: one exponent for each block passed, or for each element. -/
def Tile.bebaseStep (d : Tile) (axis : Nat) (v : Int) : Int :=
  let n := if d.alongBlocks axis then v / 32 else v
  if axis = 0 then n * d.bestride else n

/-- Word 4 with ORGI (rows) or ORGJ (columns) moved. -/
def Tile.w4Moved (d : Tile) (axis : Nat) (v : Int) : Nat :=
  if axis = 0 then d.w4.toNat - d.orgi + imod (d.orgi + v) 20
  else d.w4.toNat - d.orgj * 2 ^ 20 + imod (d.orgj + v) 20 * 2 ^ 20

/-- The moved descriptor. -/
def Tile.moved (d : Tile) (axis : Nat) (v : Int) : Tile :=
  { d with
    w0 := BitVec.ofInt 64 (d.base + d.baseStep axis v)
    w1 := if d.blk then BitVec.ofInt 64 (d.bebase + d.bebaseStep axis v) else d.w1
    w4 := BitVec.ofNat 64 (d.w4Moved axis v) }

/-- The model's own test of the block axis, which spells out both axes. -/
theorem Tile.alongBlocks_eq (d : Tile) {axis : Nat} (haxis : axis < 2) :
    (d.blk && ((axis == 1 && d.baxis == 0) || (axis == 0 && d.baxis == 1))) = d.alongBlocks axis := by
  obtain rfl | rfl : axis = 0 ∨ axis = 1 := by omega
  · simp [Tile.alongBlocks]
  · simp [Tile.alongBlocks]

/-- A descriptor without block exponents keeps BEBASE. -/
theorem Tile.w1_moved (d : Tile) (axis : Nat) (v : Int) :
    (d.moved axis v).w1 = BitVec.ofInt 64 (d.bebase + if !d.blk then 0 else d.bebaseStep axis v) := by
  cases hblk : d.blk
  · simp [Tile.moved, hblk, Tile.bebase]
  · simp [Tile.moved, hblk]

theorem Tile.advance_eq (d : Tile) {axis : Nat} (haxis : axis < 2) (v : Int) :
    d.advance axis v = if d.refuses axis v then none else some (d.moved axis v) := by
  have hw1 := d.w1_moved axis v
  simp only [Tile.moved] at hw1
  unfold Tile.advance
  simp only [d.alongBlocks_eq haxis, ofNat_imod, beq_iff_eq]
  by_cases hpart : (d.alongBlocks axis && v % 32 != 0) = true
  · simp only [Tile.refuses, hpart, Bool.true_or, if_true]
  by_cases hodd : (d.fmt == .f4 && axis == 1 && v % 2 != 0) = true
  · simp only [Tile.refuses, hodd, Bool.or_true, if_true, ite_self]
  · simp only [Tile.refuses, hpart, hodd, Bool.or_false, Tile.moved, hw1]
    rfl

/-! ORGI and ORGJ are the low fields of word 4; a move writes one of them and leaves the rest of the word. -/

theorem Tile.orgi_eq (d : Tile) : d.orgi = d.w4.toNat % 2 ^ 20 := by simp [Tile.orgi, fld64]

theorem Tile.orgj_eq (d : Tile) : d.orgj = d.w4.toNat / 2 ^ 20 % 2 ^ 20 := by
  simp [Tile.orgj, fld64, Nat.shiftRight_eq_div_pow]

theorem Tile.w4_moved_toNat (d : Tile) (axis : Nat) (v : Int) :
    (d.moved axis v).w4.toNat = d.w4Moved axis v := by
  have hw4 := d.w4.isLt
  have hi := imod_lt (d.orgi + v) 20
  have hj := imod_lt (d.orgj + v) 20
  have hfit : d.w4Moved axis v < 2 ^ 64 := by
    simp only [Tile.w4Moved, d.orgi_eq, d.orgj_eq] at hi hj ⊢
    split <;> omega
  exact (BitVec.toNat_ofNat ..).trans (Nat.mod_eq_of_lt hfit)

theorem Tile.orgi_moved (d : Tile) (axis : Nat) (v : Int) :
    ((d.moved axis v).orgi : Int) = if axis = 0 then ((d.orgi : Int) + v) % 2 ^ 20 else (d.orgi : Int) := by
  rw [Tile.orgi_eq, d.w4_moved_toNat, Tile.w4Moved]
  split
  · rw [← coe_imod_20]
    have hi := imod_lt (d.orgi + v) 20
    have := d.orgi_eq
    omega
  · have := d.orgi_eq
    have := d.orgj_eq
    omega

theorem Tile.orgj_moved (d : Tile) (axis : Nat) (v : Int) :
    ((d.moved axis v).orgj : Int) = if axis = 0 then (d.orgj : Int) else ((d.orgj : Int) + v) % 2 ^ 20 := by
  rw [Tile.orgj_eq, d.w4_moved_toNat, Tile.w4Moved]
  split
  · have hi := imod_lt (d.orgi + v) 20
    have := d.orgi_eq
    have := d.orgj_eq
    omega
  · rw [← coe_imod_20]
    have hj := imod_lt (d.orgj + v) 20
    have := d.orgj_eq
    omega

/-- SLOT, the format, BLK, BAXIS and the reserved bits stand above ORGJ. -/
theorem Tile.w4_moved_high (d : Tile) (axis : Nat) (v : Int) :
    (d.moved axis v).w4.toNat / 2 ^ 40 = d.w4.toNat / 2 ^ 40 := by
  have hi := imod_lt (d.orgi + v) 20
  have hj := imod_lt (d.orgj + v) 20
  have := d.orgi_eq
  have := d.orgj_eq
  rw [d.w4_moved_toNat, Tile.w4Moved]
  split <;> omega

end Sys2Proof.Machine
end

section
/-! PROOFS. What an instruction that executes leaves, where its body changes its thread alone and where it traps (R111 to R113). -/

namespace Sys2Proof.Machine

variable {c : Instr} {op : Op} {t : Tid} {f : Fields} {body : Body} {s : State}

theorem IssuedAs.gives_of_onTh (hc : IssuedAs c op t f body) (hi : Issues s.pack t op f) (h : Thread → Thread)
    (hbody : body (s.pack.thread t) (s.pack.atIssue t) = ((s.pack.atIssue t).onTh t h, .adv)) :
    Gives c s (s.pack.settle t (h (s.pack.thread t)).past) := by
  rw [Pack.atIssue] at hbody
  exact hc.gives (by rw [issue_runs hi, hbody, leave_th h])

/-- Taking an exception leaves the thread recorded, and at its handler, at the next instruction, or in FAULT. -/
theorem Pkg.except_th_cases (g : Pkg) (t : Tid) (pc : BitVec 16) (cause : Nat) (addr : Word) :
    (∃ theh pc', (g.except t pc cause addr).th t = { (g.th t).record pc cause addr with theh := theh }.go pc') ∨
      (g.except t pc cause addr).th t = { (g.th t).record pc cause addr with st := .fault, wait := none } := by
  dsimp only [Pkg.except]
  split_ifs with hhandler hoverrun haccess
  · exact .inl ⟨_, _, Pkg.setTh_th_self ..⟩
  · exact .inl ⟨((g.th t).record pc cause addr).theh, _, Pkg.setTh_th_self ..⟩
  · exact .inr ((Pkg.threadFault_th ..).trans (Pkg.setTh_th_self ..))
  · exact .inr (Pkg.setTh_th_self ..)

@[simp] theorem Pkg.except_th_cause (g : Pkg) (t : Tid) (pc : BitVec 16) (cause : Nat) (addr : Word) :
    ((g.except t pc cause addr).th t).cause = cause := by
  obtain ⟨_, _, h⟩ | h := g.except_th_cases t pc cause addr <;> rw [h] <;> rfl

@[simp] theorem Pkg.except_th_tiles (g : Pkg) (t : Tid) (pc : BitVec 16) (cause : Nat) (addr : Word) :
    ((g.except t pc cause addr).th t).tiles = (g.th t).tiles := by
  obtain ⟨_, _, h⟩ | h := g.except_th_cases t pc cause addr <;> rw [h] <;> rfl

/-- A trap of an access cause leaves descriptors and memory as they were. -/
theorem IssuedAs.leaves_of_trap (hc : IssuedAs c op t f body) (hi : Issues s.pack t op f) {cause : Nat}
    (hcause : causeAccess cause = true)
    (hbody : body (s.pack.thread t) (s.pack.atIssue t) = (s.pack.atIssue t, .trap cause none)) :
    Leaves c s (fun p => (p.thread t).tiles = (s.pack.thread t).tiles ∧ (p.thread t).cause = cause ∧ p.mem = s.pack.mem) := by
  rw [Pack.atIssue] at hbody
  have htrap := issue_runs (body := body) hi
  rw [hbody, leave_access hcause] at htrap
  refine ⟨_, hc.gives htrap, ?_, ?_, rfl⟩
  · simp only [Pack.thread, Pack.on_g_self, Pkg.except_th_tiles]
    rfl
  · simp only [Pack.thread, Pack.on_g_self, Pkg.except_th_cause]

end Sys2Proof.Machine
end

section
/-! PROOFS. TDSET, TDGET, TDADV and CVTS (R117, R121, R129). -/

namespace Sys2Proof.Machine

/-! What an allowed encoding leaves of IMM (R117) -/

/-- The bits of IMM that an operation does not use are zero. -/
theorem imm_lt_of_encOk {op : Op} {f : Fields} {k : Nat} (hk : k ≤ 32) (hshape : (shape op).imm = 2 ^ k - 1)
    (henc : encOk op f = true) : f.imm.toNat < 2 ^ k := by
  have hpos := Nat.two_pow_pos k
  have hle : 2 ^ k ≤ 2 ^ 32 := Nat.pow_le_pow_right (by decide) hk
  have hmask : f.imm.toNat &&& (2 ^ 32 - (2 ^ k - 1 + 1)) = 0 := by
    simp only [encOk, hshape, Bool.and_eq_true, beq_iff_eq] at henc
    obtain ⟨⟨-, hrest⟩, -⟩ := henc
    rwa [show 2 ^ 32 - (2 ^ k - 1 + 1) = 0xFFFFFFFF - (2 ^ k - 1) by omega]
  refine Nat.lt_pow_two_of_testBit _ fun i hki => ?_
  by_cases hi : i < 32
  · have hunused : (2 ^ 32 - (2 ^ k - 1 + 1)).testBit i = true := by
      rw [Nat.testBit_two_pow_sub_succ (by omega), Nat.testBit_two_pow_sub_one]
      simp [hi, hki]
    have hbit := congrArg (·.testBit i) hmask
    simpa only [Nat.testBit_and, hunused, Bool.and_true, Nat.zero_testBit] using hbit
  · exact Nat.testBit_lt_two_pow (lt_of_lt_of_le f.imm.isLt (Nat.pow_le_pow_right (by decide) (by omega)))

/-- An operation that uses the low bits of IMM alone reads in them the whole of IMM. -/
theorem Fields.i_eq_imm {op : Op} {f : Fields} {n : Nat} (hn : n < 32) (hshape : (shape op).imm = 2 ^ (n + 1) - 1)
    (henc : encOk op f = true) : f.i n 0 = f.imm.toNat :=
  Nat.mod_eq_of_lt (imm_lt_of_encOk hn hshape henc)

theorem encOk_of_modsOk_false {op : Op} {f : Fields} (h : modsOk op f = false) : encOk op f = false := by
  simp [encOk, h]

theorem encOk_word_reserved {f : Fields} (h : 4 < f.imm.toNat % 8) :
    encOk .tdset f = false ∧ encOk .tdget f = false := by
  have hword : decide (f.i 2 0 ≤ 4) = false := decide_eq_false (Nat.not_le.mpr h)
  exact ⟨encOk_of_modsOk_false hword, encOk_of_modsOk_false hword⟩

theorem encOk_rounding_reserved {f : Fields} (h : f.imm.toNat / 2 ^ 8 % 4 ≠ 0) : encOk .cvts f = false := by
  have hround : (f.i 9 8 == 0) = false := by
    simpa [Fields.i, fld, Nat.shiftRight_eq_div_pow] using h
  exact encOk_of_modsOk_false (by simp [modsOk, hround])

/-! Words of a descriptor -/

theorem Tile.setWord_eq (d : Tile) (n : Nat) (v : Word) :
    d.setWord n v = if n = 0 then { d with w0 := v } else if n = 1 then { d with w1 := v }
      else if n = 2 then { d with w2 := v } else if n = 3 then { d with w3 := v } else { d with w4 := v } :=
  match n with
  | 0 | 1 | 2 | 3 | _ + 4 => rfl

theorem Tile.word_eq (d : Tile) (n : Nat) :
    d.word n = if n = 0 then d.w0 else if n = 1 then d.w1 else if n = 2 then d.w2 else if n = 3 then d.w3 else d.w4 :=
  match n with
  | 0 | 1 | 2 | 3 | _ + 4 => rfl

/-! The four instructions -/

section
variable {s : State} {t : Tid} {f : Fields}

theorem tdset_issuedAs (t : Tid) (f : Fields) : IssuedAs (.tdset t f) .tdset t f (tdsetBody t f) := fun _ => rfl
theorem tdget_issuedAs (t : Tid) (f : Fields) : IssuedAs (.tdget t f) .tdget t f (tdgetBody t f) := fun _ => rfl
theorem tdadv_issuedAs (t : Tid) (f : Fields) : IssuedAs (.tdadv t f) .tdadv t f (tdadvBody t f) := fun _ => rfl
theorem cvts_issuedAs (t : Tid) (f : Fields) : IssuedAs (.cvts t f) .cvts t f (cvtsBody t f) := fun _ => rfl

theorem gives_tdset (hi : Issues s.pack t .tdset f) :
    let x := s.pack.thread t
    Gives (.tdset t f) s (s.pack.settle t
      (x.setTd f.d.toNat ((x.td f.d.toNat).setWord f.imm.toNat (x.s f.a.toNat))).past) := by
  rw [← Fields.i_eq_imm (n := 2) (by decide) rfl hi.enc]
  exact (tdset_issuedAs t f).gives_of_onTh hi
    (fun x => x.setTd f.d.toNat ((x.td f.d.toNat).setWord (f.i 2 0) ((s.pack.thread t).s f.a.toNat))) rfl

theorem gives_tdget (hi : Issues s.pack t .tdget f) :
    let x := s.pack.thread t
    Gives (.tdget t f) s (s.pack.settle t (x.setS f.d.toNat ((x.td f.a.toNat).word f.imm.toNat)).past) := by
  rw [← Fields.i_eq_imm (n := 2) (by decide) rfl hi.enc]
  exact (tdget_issuedAs t f).gives_of_onTh hi
    (fun x => x.setS f.d.toNat (((s.pack.thread t).td f.a.toNat).word (f.i 2 0))) rfl

theorem gives_cvts (hi : Issues s.pack t .cvts f) :
    let x := s.pack.thread t
    let r := convert (decode (fmtD (f.imm.toNat % 16)) (x.s f.a.toNat).toNat) (fmtD (f.imm.toNat / 16 % 16)) .rne
    Gives (.cvts t f) s (s.pack.settle t ((x.setS f.d.toNat (BitVec.ofNat 64 r.1)).orStat r.2).past) := by
  intro x r
  have hdst : f.i 7 4 = f.imm.toNat / 16 % 16 := by
    simp [Fields.i, fld, Nat.shiftRight_eq_div_pow]
  refine (cvts_issuedAs t f).gives_of_onTh hi (fun y => (y.setS f.d.toNat (BitVec.ofNat 64 r.1)).orStat r.2) ?_
  simp only [cvtsBody, hdst]
  rfl

theorem tdadv_axis (hi : Issues s.pack t .tdadv f) : f.i 0 0 = f.imm.toNat :=
  Fields.i_eq_imm (by decide) rfl hi.enc

/-- The format code matters to a move along columns alone (log 101). -/
theorem tdadvBody_eq_moved {m : Tile} (hi : Issues s.pack t .tdadv f)
    (hfmt : f.imm.toNat = 0 ∨ ((s.pack.thread t).td f.d.toNat).fmtCode < 8)
    (hm : ((s.pack.thread t).td f.d.toNat).advance f.imm.toNat ((s.pack.thread t).s f.a.toNat).toInt = some m) (p : Pack) :
    tdadvBody t f (s.pack.thread t) p = (p.onTh t (fun x => x.setTd f.d.toNat m), .adv) := by
  have hserved : ¬ (f.imm.toNat = 1 ∧ 8 ≤ ((s.pack.thread t).td f.d.toNat).fmtCode) := by omega
  simp only [tdadvBody, tdadv_axis hi, if_neg hserved, sval, hm]

theorem tdadvBody_eq_refused (hi : Issues s.pack t .tdadv f)
    (hfmt : f.imm.toNat = 0 ∨ ((s.pack.thread t).td f.d.toNat).fmtCode < 8)
    (hm : ((s.pack.thread t).td f.d.toNat).advance f.imm.toNat ((s.pack.thread t).s f.a.toNat).toInt = none) (p : Pack) :
    tdadvBody t f (s.pack.thread t) p = (p, .trap 6 none) := by
  have hserved : ¬ (f.imm.toNat = 1 ∧ 8 ≤ ((s.pack.thread t).td f.d.toNat).fmtCode) := by omega
  simp only [tdadvBody, tdadv_axis hi, if_neg hserved, sval, hm]

theorem tdadvBody_eq_reserved (hi : Issues s.pack t .tdadv f) (hcols : f.imm.toNat = 1)
    (hfmt : 8 ≤ ((s.pack.thread t).td f.d.toNat).fmtCode) (p : Pack) :
    tdadvBody t f (s.pack.thread t) p = (p, .trap 3 none) := by
  simp only [tdadvBody, tdadv_axis hi, hcols, hfmt, and_self, if_true]

end

/-! The obligation -/

theorem Tile.refuses_iff (d : Tile) (axis : Nat) (v : Int) :
    d.refuses axis v = true ↔
      ((d.blk = true ∧ d.baxis = 1 - axis) ∧ v % 32 ≠ 0) ∨ (d.fmt = .f4 ∧ axis = 1 ∧ v % 2 ≠ 0) := by
  simp [Tile.refuses, Tile.alongBlocks, and_assoc]

theorem Tile.alongBlocks_iff (d : Tile) (axis : Nat) :
    d.alongBlocks axis = true ↔ d.blk = true ∧ d.baxis = 1 - axis := by
  simp [Tile.alongBlocks]

/-- Settles O15, from the equation of each instruction and the fields of the moved descriptor. -/
theorem descriptorInstructions : Obligations.DescriptorInstructions := by
  unfold Obligations.DescriptorInstructions
  refine ⟨?instructions, ?moves, fun _ => encOk_word_reserved, fun _ => encOk_rounding_reserved⟩
  case instructions =>
    intro s t f
    refine ⟨fun hi => ?tdset, fun hi => ?tdget, fun hi => ⟨fun hfmt => ⟨?moved, ?refused⟩, ?reserved⟩, fun hi => gives_cvts hi⟩
    case tdset => exact Tile.setWord_eq .. ▸ gives_tdset hi
    case tdget => exact Tile.word_eq .. ▸ gives_tdget hi
    case moved =>
      exact fun m hm => (tdadv_issuedAs t f).gives_of_onTh hi (fun x => x.setTd f.d.toNat m) (tdadvBody_eq_moved hi hfmt hm _)
    case refused => exact fun hm => (tdadv_issuedAs t f).leaves_of_trap hi rfl (tdadvBody_eq_refused hi hfmt hm _)
    case reserved => exact fun hcols hfmt => (tdadv_issuedAs t f).leaves_of_trap hi rfl (tdadvBody_eq_reserved hi hcols hfmt _)
  case moves =>
    intro d v axis haxis along refused
    have hrefuses : d.refuses axis v = true ↔ refused := d.refuses_iff axis v
    have halong : d.alongBlocks axis = true ↔ along := d.alongBlocks_iff axis
    refine ⟨fun h => ?refused, fun h => ⟨d.moved axis v, ?advance, rfl, fun hblk => ?still, fun hblk hacross => ?across,
      fun ⟨hblk, hbaxis⟩ => ?along, rfl, rfl, d.orgi_moved axis v, d.orgj_moved axis v, d.w4_moved_high axis v⟩⟩
    case refused => rw [d.advance_eq haxis, if_pos (hrefuses.mpr h)]
    case advance => rw [d.advance_eq haxis, if_neg (mt hrefuses.mp h)]
    case still => simp [Tile.moved, hblk]
    case across => simp [Tile.moved, hblk, Tile.bebaseStep, mt halong.mp hacross]
    case along => simp [Tile.moved, hblk, Tile.bebaseStep, halong.mpr ⟨hblk, hbaxis⟩]

end Sys2Proof.Machine
end

section
/-! PROOFS. Fields of a register (R4): what `fld` and `bit` read after `setF` and `setB`. -/

namespace Sys2Proof.Machine

theorem fld_eq (w : W32) (hi lo : Nat) : fld w hi lo = w.toNat / 2 ^ lo % 2 ^ (hi + 1 - lo) := by
  rw [fld, Nat.shiftRight_eq_div_pow]

theorem fld_low (w : W32) (hi : Nat) : fld w hi 0 = w.toNat % 2 ^ (hi + 1) := by
  simp [fld_eq]

theorem two_pow_mul_add_lt {a b m n : Nat} (ha : a < 2 ^ m) (hb : b < 2 ^ n) : 2 ^ n * a + b < 2 ^ (n + m) := by
  calc 2 ^ n * a + b < 2 ^ n * (a + 1) := by rw [Nat.mul_succ]; omega
    _ ≤ 2 ^ n * 2 ^ m := Nat.mul_le_mul_left _ ha
    _ = 2 ^ (n + m) := (Nat.pow_add ..).symm

/-- A number as the bits above a field, the field, and the bits below it. -/
theorem split_at_field (w : Nat) {hi lo : Nat} (hlo : lo ≤ hi) :
    2 ^ lo * (2 ^ (hi + 1 - lo) * (w / 2 ^ (hi + 1)) + w / 2 ^ lo % 2 ^ (hi + 1 - lo)) + w % 2 ^ lo = w := by
  have hspan : 2 ^ (hi + 1) = 2 ^ lo * 2 ^ (hi + 1 - lo) := by rw [← Nat.pow_add]; congr 1; omega
  rw [hspan, ← Nat.div_div_eq_div_mul, Nat.div_add_mod, Nat.div_add_mod]

/-- A write replaces the field and leaves the bits above it and below it. -/
theorem setF_toNat (w : W32) {hi lo : Nat} (v : Nat) (hlo : lo ≤ hi) (hhi : hi < 32) :
    (setF w hi lo v).toNat =
      2 ^ lo * (2 ^ (hi + 1 - lo) * (w.toNat / 2 ^ (hi + 1)) + v % 2 ^ (hi + 1 - lo)) + w.toNat % 2 ^ lo := by
  have hsplit := split_at_field w.toNat hlo
  have habove : w.toNat / 2 ^ (hi + 1) < 2 ^ (31 - hi) := by
    rw [Nat.div_lt_iff_lt_mul (Nat.two_pow_pos _), ← Nat.pow_add, show 31 - hi + (hi + 1) = 32 by omega]
    exact w.isLt
  have hfit := two_pow_mul_add_lt (two_pow_mul_add_lt habove (Nat.mod_lt v (Nat.two_pow_pos (hi + 1 - lo))))
    (Nat.mod_lt w.toNat (Nat.two_pow_pos lo))
  rw [show lo + (hi + 1 - lo + (31 - hi)) = 32 by omega] at hfit
  rw [setF, mk32, fld_eq, BitVec.toNat_ofNat, at', at', Nat.shiftLeft_eq, Nat.shiftLeft_eq, ← Nat.mod_eq_of_lt hfit]
  congr 1
  rw [Nat.mul_add] at hsplit ⊢
  rw [Nat.mul_comm (_ % _) (2 ^ lo), Nat.mul_comm (v % _) (2 ^ lo)]
  omega

theorem bit_setF (w : W32) {hi lo : Nat} (v i : Nat) (hlo : lo ≤ hi) (hhi : hi < 32) :
    bit (setF w hi lo v) i = if lo ≤ i ∧ i ≤ hi then v.testBit (i - lo) else bit w i := by
  rw [bit, setF_toNat w v hlo hhi, Nat.testBit_two_pow_mul_add _ (Nat.mod_lt _ (Nat.two_pow_pos _)),
    Nat.testBit_two_pow_mul_add _ (Nat.mod_lt _ (Nat.two_pow_pos _)), Nat.testBit_mod_two_pow, Nat.testBit_mod_two_pow,
    Nat.testBit_div_two_pow, bit]
  by_cases hbelow : i < lo
  · rw [if_pos hbelow, if_neg (by omega), decide_eq_true hbelow, Bool.true_and]
  rw [if_neg hbelow]
  by_cases habove : i ≤ hi
  · rw [if_pos (by omega), if_pos (by omega), decide_eq_true (by omega), Bool.true_and]
  · rw [if_neg (by omega), if_neg (by omega)]
    congr 1
    omega

theorem testBit_fld (w : W32) (hi lo i : Nat) : (fld w hi lo).testBit i = (decide (i < hi + 1 - lo) && bit w (lo + i)) := by
  rw [fld, Nat.testBit_mod_two_pow, Nat.testBit_shiftRight, bit]

/-- The field that was written. -/
theorem fld_setF_same (w : W32) {hi lo : Nat} (v : Nat) (hlo : lo ≤ hi) (hhi : hi < 32) :
    fld (setF w hi lo v) hi lo = v % 2 ^ (hi + 1 - lo) := by
  refine Nat.eq_of_testBit_eq fun i => ?_
  rw [testBit_fld, Nat.testBit_mod_two_pow, bit_setF w v _ hlo hhi]
  by_cases hi' : i < hi + 1 - lo
  · rw [if_pos (by omega), Nat.add_sub_cancel_left]
  · simp [hi']

/-- A field that was copied from another word. -/
theorem fld_setF_fld (w v : W32) {hi lo : Nat} (hlo : lo ≤ hi) (hhi : hi < 32) :
    fld (setF w hi lo (fld v hi lo)) hi lo = fld v hi lo := by
  rw [fld_setF_same w _ hlo hhi, fld_eq, Nat.mod_mod]

/-- A field apart from the one that was written. -/
theorem fld_setF_apart (w : W32) {hi lo hi' lo' : Nat} (v : Nat) (hlo : lo ≤ hi) (hhi : hi < 32)
    (hapart : hi' < lo ∨ hi < lo') : fld (setF w hi lo v) hi' lo' = fld w hi' lo' := by
  refine Nat.eq_of_testBit_eq fun i => ?_
  rw [testBit_fld, testBit_fld, bit_setF w v _ hlo hhi]
  by_cases hi : i < hi' + 1 - lo'
  · rw [if_neg (by omega)]
  · simp [hi]

theorem bit_setF_apart (w : W32) {hi lo i : Nat} (v : Nat) (hlo : lo ≤ hi) (hhi : hi < 32) (hapart : i < lo ∨ hi < i) :
    bit (setF w hi lo v) i = bit w i := by
  rw [bit_setF w v i hlo hhi, if_neg (by omega)]

/-- A bit of a field that was copied from another word. -/
theorem bit_setF_fld (w v : W32) {hi lo i : Nat} (hhi : hi < 32) (hin : lo ≤ i ∧ i ≤ hi) :
    bit (setF w hi lo (fld v hi lo)) i = bit v i := by
  rw [bit_setF w _ i (by omega) hhi, if_pos hin, testBit_fld, decide_eq_true (by omega), Bool.true_and]
  congr 1
  omega

theorem bit_setB_same (w : W32) {i : Nat} (b : Bool) (hi : i < 32) : bit (setB w i b) i = b := by
  rw [setB, bit_setF w _ i le_rfl hi, if_pos ⟨le_rfl, le_rfl⟩, Nat.sub_self]
  cases b <;> rfl

theorem bit_setB_apart (w : W32) {i j : Nat} (b : Bool) (hi : i < 32) (hne : j ≠ i) : bit (setB w i b) j = bit w j :=
  bit_setF_apart w _ le_rfl hi (by omega)

theorem fld_setB_apart (w : W32) {i hi lo : Nat} (b : Bool) (hi' : i < 32) (hapart : hi < i ∨ i < lo) :
    fld (setB w i b) hi lo = fld w hi lo :=
  fld_setF_apart w _ le_rfl hi' hapart

end Sys2Proof.Machine
end

section
/-! PROOFS. Registers of a package: what a register reads after a write, and the places of thin stages, MBT entries and version tags (R385). -/

namespace Sys2Proof.Machine

theorem Pkg.rd_wr (g : Pkg) (a b : Nat) (v : W32) : (g.wr a v).rd b = if b = a then v else g.rd b := by
  split
  case isTrue h => rw [h, Pkg.wr_rd_self]
  case isFalse h => exact g.wr_rd_ne v h

@[simp] theorem Pkg.wr_wr (g : Pkg) (a : Nat) (v w : W32) : (g.wr a v).wr a w = g.wr a w := by
  simp [Pkg.wr]

theorem Pkg.wr_wb (g : Pkg) (a i : Nat) (v : W32) (b : Bool) : (g.wr a v).wb a i b = g.wr a (setB v i b) := by
  simp [Pkg.wb]

theorem Pkg.wr_wf (g : Pkg) (a hi lo n : Nat) (v : W32) : (g.wr a v).wf a hi lo n = g.wr a (setF v hi lo n) := by
  simp [Pkg.wf]

theorem Pkg.rd_wf (g : Pkg) (a b hi lo v : Nat) :
    (g.wf a hi lo v).rd b = if b = a then setF (g.rd a) hi lo v else g.rd b := g.rd_wr ..

theorem Pkg.rd_wb (g : Pkg) (a b i : Nat) (v : Bool) :
    (g.wb a i v).rd b = if b = a then setB (g.rd a) i v else g.rd b := g.rd_wr ..

@[simp] theorem Pkg.book_rd (g : Pkg) (kind place : Nat) (d : Int) (a : Nat) : (g.book kind place d).rd a = g.rd a := by
  rw [Pkg.rd]; rfl

/-! A stage has 0x40 bytes of the hub's registers, an MBT entry 0x20, a version tag 4. -/

@[simp] theorem rStage_eq_rStage (j o o' : Nat) : rStage j o = rStage j o' ↔ o = o' := by
  simp [rStage, hubR, rk]

@[simp] theorem rMbt_eq_rMbt (n o o' : Nat) : rMbt n o = rMbt n o' ↔ o = o' := by
  simp [rMbt, hubR, rk]

@[simp] theorem rVref_eq_rVref (t u : Nat) : rVref t = rVref u ↔ t = u := by
  simp [rVref, hubR, rk]

theorem rStage_ne_rStage {i j o o' : Nat} (h : i ≠ j) (ho : o < 0x40) (ho' : o' < 0x40) : rStage i o ≠ rStage j o' := by
  simp only [rStage, hubR, rk]; omega

theorem rMbt_ne_rStage {n o j o' : Nat} (hj : j < 8) (ho' : o' < 0x40) : rMbt n o ≠ rStage j o' := by
  simp only [rMbt, rStage, hubR, rk]; omega

theorem rMbt_ne_rVref {n o t : Nat} (ht : t < 4) : rMbt n o ≠ rVref t := by
  simp only [rMbt, rVref, hubR, rk]; omega

end Sys2Proof.Machine
end

section
/-! PROOFS. What KRESERVE and KFREE do to the entry and its stage (R174, R177). -/

namespace Sys2Proof.Machine

variable (g : Pkg)

/-- The entry of an MBID that holds `n` granules for stage `j`. -/
def Pkg.kHold (j mbid n : Nat) : Pkg :=
  (g.wr (rMbt mbid 0) (setB (setF (g.rd (rMbt mbid 0)) 21 19 j) 18 true)).wf (rMbt mbid 0x10) 26 0 n

/-- An entry that holds nothing. -/
def Pkg.kClear (mbid : Nat) : Pkg :=
  ((g.wr (rMbt mbid 0) (setB (setF (g.rd (rMbt mbid 0)) 30 29 0) 18 false)).wf (rMbt mbid 0x10) 26 0 0).wr
    (rMbt mbid 0xC) 0xFFFFFFFF#32

/-- IN_FLIGHT and USED of stage `j`. -/
def Pkg.kCount (j infl used : Nat) : Pkg :=
  (g.wf (rStage j 0x14) 9 0 infl).wf (rStage j 0x18) 26 0 used

/-- The reservation of an entry goes back to its stage. -/
def Pkg.kReturn (mbid : Nat) : Pkg :=
  (g.kCount (g.mbStage mbid) (g.stInfl (g.mbStage mbid) - 1) (g.stUsed (g.mbStage mbid) - g.mbGran mbid)).book 3
    (g.mbStage mbid) (-(g.mbGran mbid : Int))

theorem Pkg.kGrant_eq (j mbid n : Nat) :
    let h := g.kHold j mbid n
    g.kGrant j mbid n = (h.kCount j (h.stInfl j + 1) (h.stUsed j + n)).book 3 j n := rfl

theorem Pkg.kFree_eq (mbid : Nat) :
    let h := (if g.mbHeld mbid then g.kReturn mbid else g).kClear mbid
    g.kFree mbid = { h with kst := h.kst.filter (fun c => c.1 / 2 ^ 40 != mbid) } := rfl

theorem Pkg.kGrant_th (j mbid n : Nat) (t : Tid) : (g.kGrant j mbid n).th t = g.th t := by
  rw [Pkg.kGrant_eq]; rfl

theorem Pkg.kFree_th (mbid : Nat) (t : Tid) : (g.kFree mbid).th t = g.th t := by
  rw [Pkg.kFree_eq]
  cases g.mbHeld mbid <;> rfl

/-! The stage's counters and the entry's words -/

theorem Pkg.kHold_rd_stage {j : Nat} (mbid n : Nat) (hj : j < 8) {o : Nat} (ho : o < 0x40) :
    (g.kHold j mbid n).rd (rStage j o) = g.rd (rStage j o) := by
  simp [Pkg.kHold, Pkg.rd_wf, Pkg.rd_wr, (rMbt_ne_rStage hj ho).symm]

theorem Pkg.kCount_rd_mbt {j : Nat} (infl used mbid o : Nat) (hj : j < 8) :
    (g.kCount j infl used).rd (rMbt mbid o) = g.rd (rMbt mbid o) := by
  simp [Pkg.kCount, Pkg.rd_wf, rMbt_ne_rStage hj]

theorem Pkg.kCount_stInfl (j infl used : Nat) : (g.kCount j infl used).stInfl j = infl % 2 ^ 10 := by
  simp [Pkg.kCount, Pkg.stInfl, Pkg.rf, Pkg.rd_wf, fld_setF_same]

theorem Pkg.kCount_stUsed (j infl used : Nat) : (g.kCount j infl used).stUsed j = used % 2 ^ 27 := by
  simp [Pkg.kCount, Pkg.stUsed, Pkg.rf, Pkg.rd_wf, fld_setF_same]

theorem Pkg.book_stInfl (kind place : Nat) (d : Int) (j : Nat) : (g.book kind place d).stInfl j = g.stInfl j :=
  congrArg (fld · 9 0) (g.book_rd kind place d _)

theorem Pkg.book_stUsed (kind place : Nat) (d : Int) (j : Nat) : (g.book kind place d).stUsed j = g.stUsed j :=
  congrArg (fld · 26 0) (g.book_rd kind place d _)

theorem Pkg.kClear_rd_mbt (mbid o : Nat) : (g.kClear mbid).rd (rMbt mbid o) =
    if o = 0xC then 0xFFFFFFFF#32 else if o = 0x10 then setF (g.rd (rMbt mbid 0x10)) 26 0 0
    else if o = 0 then setB (setF (g.rd (rMbt mbid 0)) 30 29 0) 18 false else g.rd (rMbt mbid o) := by
  simp [Pkg.kClear, Pkg.rd_wf, Pkg.rd_wr]

theorem Pkg.kClear_rd_stage {j : Nat} (mbid : Nat) (hj : j < 8) {o : Nat} (ho : o < 0x40) :
    (g.kClear mbid).rd (rStage j o) = g.rd (rStage j o) := by
  simp [Pkg.kClear, Pkg.rd_wf, Pkg.rd_wr, (rMbt_ne_rStage hj ho).symm]

theorem Pkg.mbStage_lt (mbid : Nat) : g.mbStage mbid < 8 := Nat.mod_lt _ (by decide)
theorem Pkg.stInfl_lt (j : Nat) : g.stInfl j < 2 ^ 10 := Nat.mod_lt _ (by decide)
theorem Pkg.stUsed_lt (j : Nat) : g.stUsed j < 2 ^ 27 := Nat.mod_lt _ (by decide)

/-- The granules held are counted at the entry and at the stage. -/
theorem Pkg.kGrant_counts {j n : Nat} (mbid : Nat) (hj : j < 8) (hn : n < 2 ^ 26) (hused : g.stUsed j + n < 2 ^ 27)
    (hinfl : g.stInfl j + 1 < 1024) :
    (g.kGrant j mbid n).mbHeld mbid = true ∧ (g.kGrant j mbid n).mbGran mbid = n ∧ (g.kGrant j mbid n).mbStage mbid = j ∧
      (g.kGrant j mbid n).stUsed j = g.stUsed j + n ∧ (g.kGrant j mbid n).stInfl j = g.stInfl j + 1 := by
  have hmbt (o : Nat) : (g.kGrant j mbid n).rd (rMbt mbid o) = (g.kHold j mbid n).rd (rMbt mbid o) := by
    rw [Pkg.kGrant_eq, Pkg.book_rd, Pkg.kCount_rd_mbt _ _ _ _ _ hj]
  have hctl : (g.kGrant j mbid n).rd (rMbt mbid 0) = setB (setF (g.rd (rMbt mbid 0)) 21 19 j) 18 true := by
    simp [hmbt, Pkg.kHold, Pkg.rd_wf]
  have hstage {o : Nat} (ho : o < 0x40) := g.kHold_rd_stage mbid n hj ho
  refine ⟨?held, ?gran, ?stage, ?used, ?infl⟩
  case held => rw [Pkg.mbHeld, Pkg.rb, hctl, bit_setB_same _ _ (by decide)]
  case gran =>
    rw [Pkg.mbGran, Pkg.rf, hmbt, Pkg.kHold, Pkg.rd_wf, if_pos rfl, fld_setF_same _ _ (by decide) (by decide)]
    exact Nat.mod_eq_of_lt (by omega)
  case stage =>
    rw [Pkg.mbStage, Pkg.rf, hctl, fld_setB_apart _ _ (by decide) (by decide), fld_setF_same _ _ (by decide) (by decide)]
    exact Nat.mod_eq_of_lt hj
  case used =>
    have hheld : (g.kHold j mbid n).stUsed j = g.stUsed j := congrArg (fld · 26 0) (hstage (by decide))
    rw [Pkg.kGrant_eq, Pkg.book_stUsed, Pkg.kCount_stUsed, hheld]
    exact Nat.mod_eq_of_lt hused
  case infl =>
    have hheld : (g.kHold j mbid n).stInfl j = g.stInfl j := congrArg (fld · 9 0) (hstage (by decide))
    rw [Pkg.kGrant_eq, Pkg.book_stInfl, Pkg.kCount_stInfl, hheld]
    exact Nat.mod_eq_of_lt hinfl

theorem Pkg.kReturn_rd_mbt (mbid o : Nat) : (g.kReturn mbid).rd (rMbt mbid o) = g.rd (rMbt mbid o) := by
  rw [Pkg.kReturn, Pkg.book_rd, Pkg.kCount_rd_mbt _ _ _ _ _ (g.mbStage_lt mbid)]

/-- The words of the entry, whether or not it held a reservation. -/
theorem Pkg.kFree_rd_mbt (mbid o : Nat) : (g.kFree mbid).rd (rMbt mbid o) =
    if o = 0xC then 0xFFFFFFFF#32 else if o = 0x10 then setF (g.rd (rMbt mbid 0x10)) 26 0 0
    else if o = 0 then setB (setF (g.rd (rMbt mbid 0)) 30 29 0) 18 false else g.rd (rMbt mbid o) := by
  have hreturned (o : Nat) : (if g.mbHeld mbid then g.kReturn mbid else g).rd (rMbt mbid o) = g.rd (rMbt mbid o) := by
    split
    · exact g.kReturn_rd_mbt mbid o
    · rfl
  rw [Pkg.kFree_eq]
  exact (Pkg.kClear_rd_mbt _ mbid o).trans (by simp only [hreturned])

theorem Pkg.kFree_rd_stage {mbid : Nat} (hheld : g.mbHeld mbid = true) {o : Nat} (ho : o < 0x40) :
    (g.kFree mbid).rd (rStage (g.mbStage mbid) o) = (g.kReturn mbid).rd (rStage (g.mbStage mbid) o) := by
  rw [Pkg.kFree_eq, if_pos hheld]
  exact Pkg.kClear_rd_stage _ mbid (g.mbStage_lt mbid) ho

/-- The granules return to the stage. -/
theorem Pkg.kFree_counts {mbid : Nat} (hheld : g.mbHeld mbid = true) :
    (g.kFree mbid).stUsed (g.mbStage mbid) = g.stUsed (g.mbStage mbid) - g.mbGran mbid ∧
      (g.kFree mbid).stInfl (g.mbStage mbid) = g.stInfl (g.mbStage mbid) - 1 := by
  have hused : (g.kFree mbid).stUsed (g.mbStage mbid) = (g.kReturn mbid).stUsed (g.mbStage mbid) :=
    congrArg (fld · 26 0) (g.kFree_rd_stage hheld (by decide))
  have hinfl : (g.kFree mbid).stInfl (g.mbStage mbid) = (g.kReturn mbid).stInfl (g.mbStage mbid) :=
    congrArg (fld · 9 0) (g.kFree_rd_stage hheld (by decide))
  rw [hused, hinfl, Pkg.kReturn, Pkg.book_stUsed, Pkg.book_stInfl, Pkg.kCount_stUsed, Pkg.kCount_stInfl]
  exact ⟨Nat.mod_eq_of_lt ((Nat.sub_le _ _).trans_lt (g.stUsed_lt _)), Nat.mod_eq_of_lt ((Nat.sub_le _ _).trans_lt (g.stInfl_lt _))⟩

/-- The fields that KFREE clears (R177). -/
theorem Pkg.kFree_clears (mbid : Nat) :
    (g.kFree mbid).mbHeld mbid = false ∧ (g.kFree mbid).mbRecomp mbid = false ∧ (g.kFree mbid).rb (rMbt mbid 0) 30 = false ∧
      ((g.kFree mbid).rd (rMbt mbid 0xC)).toNat = 0xFFFFFFFF ∧ (g.kFree mbid).mbGran mbid = 0 := by
  have hctl : (g.kFree mbid).rd (rMbt mbid 0) = setB (setF (g.rd (rMbt mbid 0)) 30 29 0) 18 false := g.kFree_rd_mbt mbid 0
  have hcleared {i : Nat} (hi : 29 ≤ i ∧ i ≤ 30) : (g.kFree mbid).rb (rMbt mbid 0) i = false := by
    rw [Pkg.rb, hctl, bit_setB_apart _ _ (by decide) (by omega), bit_setF _ _ _ (by decide) (by decide), if_pos hi,
      Nat.zero_testBit]
  refine ⟨?held, hcleared ⟨le_rfl, by decide⟩, hcleared ⟨by decide, le_rfl⟩, ?kovr, ?gran⟩
  case held => rw [Pkg.mbHeld, Pkg.rb, hctl, bit_setB_same _ _ (by decide)]
  case kovr => rw [g.kFree_rd_mbt]; rfl
  case gran =>
    rw [Pkg.mbGran, Pkg.rf, g.kFree_rd_mbt]
    exact fld_setF_same _ _ (by decide) (by decide)

/-- The other bits of the entry's control word. -/
theorem Pkg.kFree_keeps_bit (mbid : Nat) {i : Nat} (h18 : i ≠ 18) (h29 : i ≠ 29) (h30 : i ≠ 30) :
    (g.kFree mbid).rb (rMbt mbid 0) i = g.rb (rMbt mbid 0) i := by
  rw [Pkg.rb, g.kFree_rd_mbt, if_neg (by decide), if_neg (by decide), if_pos rfl, bit_setB_apart _ _ (by decide) h18,
    bit_setF_apart _ _ (by decide) (by decide) (by omega), Pkg.rb]

end Sys2Proof.Machine
end

section
/-! PROOFS. KRESERVE and KFREE as instructions (R133, R135, R163, R175). -/

namespace Sys2Proof.Machine

variable {s : State} {t : Tid} {f : Fields} {j : Nat}

theorem kreserve_issuedAs (t : Tid) (f : Fields) : IssuedAs (.kreserve t f) .kreserve t f (kreserveBody t f) := fun _ => rfl
theorem kfree_issuedAs (t : Tid) (f : Fields) : IssuedAs (.kfree t f) .kfree t f (kfreeBody t f) := fun _ => rfl

/-- An instruction that changes its thread's package, and goes on. -/
theorem leave_on {t : Tid} {s : Pack} (h : Pkg → Pkg) (hth : ∀ g : Pkg, (h g).th t = g.th t) :
    ((s.atIssue t).on t.pkg h).leave t .adv = s.settleWith t (s.thread t).past h := by
  simp only [Pack.atIssue, Pack.leave, Pkg.finish, Pack.on_on, Pack.settleWith]
  exact Pack.on_congr (by simp [Pkg.onTh, Pack.thread, Thread.past, Thread.adv, hth])

theorem Pack.atIssue_g (s : Pack) (t : Tid) : (s.atIssue t).g t.pkg = (s.g t.pkg).issued t := Pack.on_g_self ..

/-- The requests that KRESERVE looks at its stage for: KENNEL enabled, an MBID without a reservation, a multiple of 64 bytes. -/
structure Reserves (g : Pkg) (x : Thread) (f : Fields) : Prop where
  on : g.pipeOn = true
  mbid : (x.s f.b.toNat).toNat % 2 ^ 16 ≤ 511
  bytes : (x.s f.c.toNat).toNat % 64 = 0
  free : g.mbHeld ((x.s f.b.toNat).toNat % 2 ^ 16) = false

/-- What KRESERVE answers to such a request: by its thread's stage, the stage's capacity and its line (R133, R163, R175). -/
theorem kreserveBody_eq (h : Reserves (s.pack.g t.pkg) (s.pack.thread t) f) :
    let g := s.pack.g t.pkg
    let x := s.pack.thread t
    let p := s.pack.atIssue t
    let mbid := (x.s f.b.toNat).toNat % 2 ^ 16
    let bytes := (x.s f.c.toNat).toNat
    kreserveBody t f x p = (match g.stageOf t with
      | none => (p.onTh t (fun x => x.setPred f.d.toNat false), .adv)
      | some j =>
        if g.stCap j < granules bytes then (p.onTh t (fun x => x.setPred f.d.toNat false), .adv)
        else if g.kLine j = [] ∧ g.kGrantOk j (granules bytes) then
          ((p.on t.pkg (fun g => g.kGrant j mbid (granules bytes))).onTh t (fun x => x.setPred f.d.toNat true), .adv)
        else (p, .wait (.kres j mbid bytes f.d.toNat))) := by
  obtain ⟨hon, hmbid, hbytes, hfree⟩ := h
  have hon' : ((s.pack.g t.pkg).issued t).pipeOn = true := hon
  have hfree' : ((s.pack.g t.pkg).issued t).mbHeld (((s.pack.thread t).s f.b.toNat).toNat % 2 ^ 16) = false := hfree
  have hrequest : ¬ (511 < ((s.pack.thread t).s f.b.toNat).toNat % 2 ^ 16 ∨ ((s.pack.thread t).s f.c.toNat).toNat % 64 ≠ 0) := by
    omega
  simp only [kreserveBody, Pack.atIssue_g, hon', hfree', if_neg hrequest]
  rfl

theorem Pkg.kGrantOk_iff (g : Pkg) (j n : Nat) : g.kGrantOk j n = true ↔
    g.stUsed j + n ≤ g.stCap j ∧ (g.rf (rStage j 0) 25 16 = 0 ∨ g.stInfl j < g.rf (rStage j 0) 25 16) ∧
      (g.rb (rStage j 0) 26 = true ∨ g.bqReady j = 0) := by
  simp [Pkg.kGrantOk, Pkg.rf, Pkg.rb, and_assoc]

section
variable (hi : Issues s.pack t .kreserve f) (h : Reserves (s.pack.g t.pkg) (s.pack.thread t) f)
include hi h

/-- No stage, or more granules than the stage has. -/
theorem gives_kreserve_refused
    (hstage : (s.pack.g t.pkg).stageOf t = none ∨ ∃ j, (s.pack.g t.pkg).stageOf t = some j ∧
      (s.pack.g t.pkg).stCap j < granules ((s.pack.thread t).s f.c.toNat).toNat) :
    Gives (.kreserve t f) s (s.pack.settle t ((s.pack.thread t).setPred f.d.toNat false).past) := by
  refine (kreserve_issuedAs t f).gives_of_onTh hi (fun x => x.setPred f.d.toNat false) ((kreserveBody_eq h).trans ?_)
  obtain hnone | ⟨j, hj, hcap⟩ := hstage
  · simp only [hnone]
  · simp only [hj, if_pos hcap]

theorem gives_kreserve_granted (hj : (s.pack.g t.pkg).stageOf t = some j)
    (hfits : (s.pack.g t.pkg).kGrantOk j (granules ((s.pack.thread t).s f.c.toNat).toNat) = true)
    (hline : (s.pack.g t.pkg).kLine j = []) :
    Gives (.kreserve t f) s (s.pack.settleWith t ((s.pack.thread t).setPred f.d.toNat true).past
      (fun g => g.kGrant j (((s.pack.thread t).s f.b.toNat).toNat % 2 ^ 16) (granules ((s.pack.thread t).s f.c.toNat).toNat))) := by
  have hcap := (Nat.le_add_left _ _).trans ((Pkg.kGrantOk_iff ..).mp hfits).1
  have hbody := kreserveBody_eq h
  simp only [hj, if_neg (Nat.not_lt.mpr hcap), if_pos (And.intro hline hfits)] at hbody
  refine (kreserve_issuedAs t f).gives ((issue_runs hi).trans ?_)
  rw [← Pack.atIssue, hbody]
  exact leave_with _ (fun x => x.setPred f.d.toNat true) (fun g => g.kGrant_th _ _ _ t)

theorem gives_kreserve_waits (hj : (s.pack.g t.pkg).stageOf t = some j)
    (hcap : granules ((s.pack.thread t).s f.c.toNat).toNat ≤ (s.pack.g t.pkg).stCap j)
    (hturn : ¬ ((s.pack.g t.pkg).kLine j = [] ∧
      (s.pack.g t.pkg).kGrantOk j (granules ((s.pack.thread t).s f.c.toNat).toNat) = true)) :
    Gives (.kreserve t f) s (s.pack.on t.pkg (fun g => (g.issued t).waitTh t (.kres j
      (((s.pack.thread t).s f.b.toNat).toNat % 2 ^ 16) ((s.pack.thread t).s f.c.toNat).toNat f.d.toNat))) := by
  have hbody := kreserveBody_eq h
  simp only [hj, if_neg (Nat.not_lt.mpr hcap), if_neg hturn] at hbody
  refine (kreserve_issuedAs t f).gives ((issue_runs hi).trans ?_)
  rw [← Pack.atIssue, hbody]
  exact leave_wait _
end

/-- KFREE with no Kennel operation of its MBID handed over (R135). -/
theorem gives_kfree (hi : Issues s.pack t .kfree f) (hon : (s.pack.g t.pkg).pipeOn = true)
    (hmbid : ((s.pack.thread t).s f.b.toNat).toNat % 2 ^ 16 ≤ 511)
    (hidle : (s.pack.g t.pkg).kBusy (((s.pack.thread t).s f.b.toNat).toNat % 2 ^ 16) = false) :
    Gives (.kfree t f) s (s.pack.settleWith t (s.pack.thread t).past
      (fun g => g.kFree (((s.pack.thread t).s f.b.toNat).toNat % 2 ^ 16))) := by
  have hbody : kfreeBody t f (s.pack.thread t) (s.pack.atIssue t) =
      ((s.pack.atIssue t).on t.pkg (fun g => g.kFree (((s.pack.thread t).s f.b.toNat).toNat % 2 ^ 16)), .adv) := by
    have hon' : ((s.pack.g t.pkg).issued t).pipeOn = true := hon
    have hidle' : ((s.pack.g t.pkg).issued t).kBusy (((s.pack.thread t).s f.b.toNat).toNat % 2 ^ 16) = false := hidle
    simp only [kfreeBody, Pack.atIssue_g, hon', hidle', if_neg (Nat.not_lt.mpr hmbid)]
    rfl
  refine (kfree_issuedAs t f).gives ((issue_runs hi).trans ?_)
  rw [← Pack.atIssue, hbody]
  exact leave_on _ (fun g => g.kFree_th _ t)

/-- Settles O18, from what KRESERVE answers by its stage and what the grant and KFREE leave of the entry and the stage. -/
theorem kennelReservations : Obligations.KennelReservations := by
  unfold Obligations.KennelReservations
  intro s t f j g x mbid bytes n fits
  have hfits : g.kGrantOk j n = true ↔ fits := g.kGrantOk_iff j n
  refine ⟨fun hi hon hmbid hbytes hfree => ?kreserve, fun hj _ hn hused hinfl _ => g.kGrant_counts mbid hj hn hused hinfl,
    fun hi hon hmbid hidle => ?kfree⟩
  case kreserve =>
    have h : Reserves g x f := ⟨hon, hmbid, hbytes, hfree⟩
    refine ⟨fun hnone => gives_kreserve_refused hi h (.inl hnone),
      fun hj hcap => gives_kreserve_refused hi h (.inr ⟨j, hj, hcap⟩),
      fun hj hf hline => gives_kreserve_granted hi h hj (hfits.mpr hf) hline,
      fun hj hcap hturn => gives_kreserve_waits hi h hj hcap fun ⟨hline, hok⟩ => ?_⟩
    exact hturn.elim (· hline) (· (hfits.mp hok))
  case kfree =>
    refine ⟨s.pack.settleWith t x.past (fun g => g.kFree mbid), gives_kfree hi hon hmbid hidle, ?_⟩
    let h := (g.issued t).kFree mbid
    have hg : (s.pack.settleWith t x.past (fun g => g.kFree mbid)).g t.pkg = h.setTh t x.past := Pack.on_g_self ..
    obtain ⟨hheld, hrecomp, horphan, hkovr, hgran⟩ := (g.issued t).kFree_clears mbid
    beta_reduce
    rw [hg]
    exact ⟨hheld, hrecomp, horphan, hkovr, hgran, fun i _ h18 h29 h30 => (g.issued t).kFree_keeps_bit mbid h18 h29 h30,
      (g.issued t).kFree_rd_mbt mbid 4, (g.issued t).kFree_rd_mbt mbid 8, fun hheld => (g.issued t).kFree_counts hheld,
      by rw [Pack.thread, hg, Pkg.setTh_th_self], rfl⟩

end Sys2Proof.Machine
end

section
/-! PROOFS. Writes of a master (R374, R379, R380): a write at a register that is served, the posting of a posted one, and its effect when it completes. -/

namespace Sys2Proof.Machine

section
variable {s : Pack} {k site off o key : Nat} {m : Master} {b : Blk} {v : W32} {x : WrX}

theorem busWrite_served (hw : Writable s k m site off b o) : s.busWrite k m site off v x = s.regWrite k m site b o off v x := by
  obtain ⟨l, hplace⟩ := hw.place
  simp [Pack.busWrite, hw.block, hw.up, hw.aligned, hplace]

/-- Where a register has no privileged fields, every master writes the whole word. -/
theorem unmasked_word (m : Master) (v c : W32) :
    (if m.priv then v else (v &&& ~~~ BitVec.ofNat 32 0) ||| (c &&& BitVec.ofNat 32 0)) = v := by
  rw [show ~~~ BitVec.ofNat 32 0 = BitVec.allOnes 32 from rfl, BitVec.and_allOnes]
  simp

/-- A register without privileged fields that is not posted, and a word without a forbidden value. -/
theorem regWrite_now (hpv : pvMask b o = 0) (hword : forbidden b o v = none) (hkey : busyKey site b o = none) :
    s.regWrite k m site b o off v x = s.blkWrite k site b o v x := by
  simp only [Pack.regWrite, hpv, unmasked_word, hword, hkey]
  simp

/-- The same of a posted register: BUSY is set, and the write is on its way. -/
theorem regWrite_posts (hpv : pvMask b o = 0) (hword : forbidden b o v = none) (hkey : busyKey site b o = some key)
    (hidle : (s.g k).busy.contains key = false) (hb : b ≠ .stream) :
    s.regWrite k m site b o off v x = s.posted k { key := key, site := site, off := off, v := v, x := x } := by
  simp only [Pack.regWrite, hpv, unmasked_word, hword, hkey, hidle, if_neg hb]
  simp [Pack.posted]

theorem busWrite_posts (hw : Writable s k m site off b o) (hpv : pvMask b o = 0) (hword : forbidden b o v = none)
    (hkey : busyKey site b o = some key) (hb : b ≠ .stream) :
    s.busWrite k m site off v = s.posted k { key := key, site := site, off := off, v := v, x := {} } :=
  (busWrite_served hw).trans (regWrite_posts hpv hword hkey (hw.idle key hkey) hb)
end

/-- A command that changes the pack and never the waiting commands. -/
theorem gives_of_onPack {s : State} {c : Instr} {h : Pack → Pack} {p : Pack} (hc : exec c s = .next (s.onPack h)) (hp : h s.pack = p) :
    Gives c s p := by
  rw [Gives, hc, State.onPack_eq, hp]

/-- Between two packs, package `k`'s registers and memory are the same but for the registers listed. -/
def Pack.keepsBut (s p : Pack) (k : Nat) (l : List Nat) : Prop :=
  (∀ b, b ∉ l → (p.g k).rd b = (s.g k).rd b) ∧ p.mem = s.mem

/-- The package once the posted write under a BUSY bit has arrived, and before its effect. -/
def Pkg.arrived (g : Pkg) (key : Nat) : Pkg :=
  { g with busy := g.busy.filter (· != key), posts := g.posts.filter (fun p => p.key != key) }

@[simp] theorem Pkg.arrived_rd (g : Pkg) (key a : Nat) : (g.arrived key).rd a = g.rd a := rfl

section
variable {s : State} {k o : Nat} {x : Post} {b : Blk}

/-- POSTED_WRITE_COMPLETE of a write that is due performs it at its block. -/
theorem postedDone_due {p : Pack} {site off : Nat} (hkey : x.key = rk site off) (hdue : Due p k x)
    (hblock : blockOf x.site x.off = some (b, o)) (hstrm : x.key < hubR 0x30000) :
    p.postedDone k site off = (p.on k (fun g => g.arrived x.key)).blkWrite k x.site b o x.v x.x := by
  rw [Pack.postedDone]
  simp only [← hkey, hdue.busy, hdue.only, Nat.not_le.mpr hstrm]
  simp [Pack.land, hblock, Pkg.arrived]

/-- A posted write whose effect is a change `h` of its package. -/
theorem lands_of_on {P : Pack → Prop} (hblock : blockOf x.site x.off = some (b, o)) (hstrm : x.key < hubR 0x30000)
    (h : Pkg → Pkg) (hblk : ∀ p : Pack, p.g k = (s.pack.g k).arrived x.key → p.blkWrite k x.site b o x.v x.x = p.on k h)
    (hP : ∀ p : Pack, p.g k = h ((s.pack.g k).arrived x.key) → p.mem = s.pack.mem → P p) : Lands s k x P := by
  intro site off hkey hdue
  refine ⟨s.pack.postedDone k site off, rfl, ?_⟩
  rw [postedDone_due hkey hdue hblock hstrm, hblk _ (Pack.on_g_self ..)]
  exact hP _ (by simp) rfl

/-- A posted write whose effect is one register's new word: BUSY clears, and nothing else of the package's registers changes. -/
theorem lands_of_wr {P : Pack → Prop} (hblock : blockOf x.site x.off = some (b, o)) (hstrm : x.key < hubR 0x30000)
    {h : Pkg → Pkg} {a : Nat} {w : W32}
    (hblk : ∀ p : Pack, p.g k = (s.pack.g k).arrived x.key → p.blkWrite k x.site b o x.v x.x = p.on k h)
    (hword : h ((s.pack.g k).arrived x.key) = ((s.pack.g k).arrived x.key).wr a w)
    (hP : ∀ p : Pack, (p.g k).rd a = w → s.pack.keepsBut p k [a] →
      (p.g k).busy = (s.pack.g k).busy.filter (· != x.key) → P p) : Lands s k x P := by
  refine lands_of_on hblock hstrm h hblk fun p hg hmem => hP p ?_ ⟨fun c hc => ?_, hmem⟩ ?_
  · rw [hg, hword, Pkg.wr_rd_self]
  · rw [hg, hword, Pkg.wr_rd_ne _ _ (List.mem_singleton.not.mp hc), Pkg.arrived_rd]
  · rw [hg, hword]; rfl
end

end Sys2Proof.Machine
end

section
/-! PROOFS. STAGE.CTL (R166, R383): what each write leaves of the stage's control word. -/

namespace Sys2Proof.Machine

/-- The control word with the error bits cleared that a write names. -/
def stageErrs (c v : W32) : W32 := setF c 30 28 (fld c 30 28 &&& (7 - fld v 30 28))

/-- The same with the configuration of a write taken. -/
def stageTaken (c v : W32) : W32 := setF (setF (stageErrs c v) 26 16 (fld v 26 16)) 8 0 (fld v 8 0)

/-- The queues of a stage are numbers of forward and backward queues, and its anchors are in order (R166). -/
def Pkg.stageSound (g : Pkg) (j : Nat) : Prop :=
  512 ≤ g.rf (rStage j 8) 11 0 ∧ g.rf (rStage j 8) 11 0 ≤ 2559 ∧ 512 ≤ g.rf (rStage j 8) 27 16 ∧ g.rf (rStage j 8) 27 16 ≤ 2559 ∧
    (g.rd (rStage j 0xC)).toNat ≤ (g.rd (rStage j 0x10)).toNat

theorem bit_stageErrs (c v : W32) {i : Nat} (hi : i < 28) : bit (stageErrs c v) i = bit c i :=
  bit_setF_apart _ _ (by decide) (by decide) (.inl hi)

theorem fld_stageErrs (c v : W32) {hi lo : Nat} (hhi : hi < 28) : fld (stageErrs c v) hi lo = fld c hi lo :=
  fld_setF_apart _ _ (by decide) (by decide) (.inl hhi)

theorem bit_stageTaken_27 (c v : W32) : bit (stageTaken c v) 27 = bit c 27 := by
  rw [stageTaken, bit_setF_apart _ _ (by decide) (by decide) (by decide), bit_setF_apart _ _ (by decide) (by decide) (by decide),
    bit_stageErrs _ _ (by decide)]

/-- The sum of KCAP reads the first two words of the other stages (R166). -/
theorem Pkg.kcapSum_congr {g h : Pkg} {j : Nat}
    (hwords : ∀ i, i < 8 → i ≠ j → ∀ o, o < 0x40 → h.rd (rStage i o) = g.rd (rStage i o)) : h.kcapSum j = g.kcapSum j := by
  refine List.foldl_ext _ _ _ fun n i hi => ?_
  by_cases hij : i = j
  · simp [hij]
  · have hother := hwords i (List.mem_range.mp hi) hij
    have hen : h.stEn i = g.stEn i := congrArg (bit · 27) (hother 0 (by decide))
    have hcap : h.stKcap i = g.stKcap i := congrArg (fld · 17 0) (hother 4 (by decide))
    rw [hen, hcap]

/-! A write of the stage's own control word leaves the other words, and the other stages, as they read. -/

theorem Pkg.wr_stage_rd (g : Pkg) (j : Nat) (w : W32) {o : Nat} (ho : o ≠ 0) :
    (g.wr (rStage j 0) w).rd (rStage j o) = g.rd (rStage j o) :=
  g.wr_rd_ne w (by simpa using ho)

theorem Pkg.wr_stage_kcapSum (g : Pkg) (j : Nat) (w : W32) : (g.wr (rStage j 0) w).kcapSum j = g.kcapSum j :=
  Pkg.kcapSum_congr fun i _ hij o ho => g.wr_rd_ne w (rStage_ne_rStage hij ho (by decide))

/-- A write of the control word. -/
theorem stageWrite_ctl (g : Pkg) (j : Nat) (v : W32) :
    let a := rStage j 0
    let c := stageErrs (g.rd a) v
    let u := (g.wr a c).wr a (stageTaken (g.rd a) v)
    g.stageWrite j 0 v =
      if bit c 27 then
        if bit v 27 then g.wr a c else if (g.wr a c).stInfl j ≠ 0 then (g.wr a c).wb a 28 true else (g.wr a c).wb a 27 false
      else if !bit v 27 then u
      else if u.rf (rStage j 8) 11 0 < 512 ∨ 2559 < u.rf (rStage j 8) 11 0 ∨ u.rf (rStage j 8) 27 16 < 512 ∨
          2559 < u.rf (rStage j 8) 27 16 ∨ (u.rd (rStage j 0x10)).toNat < (u.rd (rStage j 0xC)).toNat then u.wb a 29 true
      else if u.rf rKpool 18 0 < u.kcapSum j + u.stKcap j then (g.wr a c).wb a 30 true
      else u.wb a 27 true := rfl

section
variable {g : Pkg} {j : Nat} {v : W32}

section
variable (hen : g.stEn j = true) (hv : bit v 27 = false)
include hen hv

/-- The check of a stage that is to be disabled reads IN_FLIGHT, which is as it was. -/
theorem stageWrite_disables : g.stageWrite j 0 v =
    if g.stInfl j ≠ 0 then g.wr (rStage j 0) (setB (stageErrs (g.rd (rStage j 0)) v) 28 true)
    else g.wr (rStage j 0) (setB (stageErrs (g.rd (rStage j 0)) v) 27 false) := by
  have hbit : bit (stageErrs (g.rd (rStage j 0)) v) 27 = true := (bit_stageErrs _ _ (by decide)).trans hen
  have hinfl : (g.wr (rStage j 0) (stageErrs (g.rd (rStage j 0)) v)).stInfl j = g.stInfl j :=
    congrArg (fld · 9 0) (g.wr_stage_rd j _ (by decide))
  simp only [stageWrite_ctl, hbit, hv, hinfl, Pkg.wr_wb]
  simp

theorem stageWrite_idle (hidle : g.stInfl j = 0) :
    g.stageWrite j 0 v = g.wr (rStage j 0) (setB (stageErrs (g.rd (rStage j 0)) v) 27 false) := by
  rw [stageWrite_disables hen hv, if_neg (not_not.mpr hidle)]

theorem stageWrite_busy (hinfl : g.stInfl j ≠ 0) :
    g.stageWrite j 0 v = g.wr (rStage j 0) (setB (stageErrs (g.rd (rStage j 0)) v) 28 true) := by
  rw [stageWrite_disables hen hv, if_pos hinfl]
end

section
variable (hen : g.stEn j = false) (hv : bit v 27 = true)
include hen hv

/-- The checks of a stage that is to be enabled read its other words, which are as they were. -/
theorem stageWrite_enables (hj : j < 8) : g.stageWrite j 0 v =
    if g.rf (rStage j 8) 11 0 < 512 ∨ 2559 < g.rf (rStage j 8) 11 0 ∨ g.rf (rStage j 8) 27 16 < 512 ∨
        2559 < g.rf (rStage j 8) 27 16 ∨ (g.rd (rStage j 0x10)).toNat < (g.rd (rStage j 0xC)).toNat
      then g.wr (rStage j 0) (setB (stageTaken (g.rd (rStage j 0)) v) 29 true)
    else if g.rf rKpool 18 0 < g.kcapSum j + g.stKcap j
      then g.wr (rStage j 0) (setB (stageErrs (g.rd (rStage j 0)) v) 30 true)
    else g.wr (rStage j 0) (setB (stageTaken (g.rd (rStage j 0)) v) 27 true) := by
  have hbit : bit (stageErrs (g.rd (rStage j 0)) v) 27 = false := (bit_stageErrs _ _ (by decide)).trans hen
  have hpool : rKpool ≠ rStage j 0 := by simp only [rKpool, rStage, hubR, rk]; omega
  have hcap (w : W32) : (g.wr (rStage j 0) w).stKcap j = g.stKcap j := congrArg (fld · 17 0) (g.wr_stage_rd j w (by decide))
  have hword (w : W32) {o : Nat} (ho : o ≠ 0) := g.wr_stage_rd j w ho
  simp only [stageWrite_ctl, hbit, hv, Pkg.wr_wr, Pkg.wr_wb, Pkg.rf, hcap, g.wr_stage_kcapSum, g.wr_rd_ne _ hpool,
    hword _ (o := 8) (by decide), hword _ (o := 0xC) (by decide), hword _ (o := 0x10) (by decide)]
  rw [if_neg (by decide), if_neg (by decide)]
  congr

theorem stageWrite_unsound (hj : j < 8) (hsound : ¬ g.stageSound j) :
    g.stageWrite j 0 v = g.wr (rStage j 0) (setB (stageTaken (g.rd (rStage j 0)) v) 29 true) := by
  rw [stageWrite_enables hen hv hj, if_pos]
  by_contra h
  exact hsound (by unfold Pkg.stageSound; omega)

theorem stageWrite_conflict (hj : j < 8) (hsound : g.stageSound j) (hpool : g.rf rKpool 18 0 < g.kcapSum j + g.stKcap j) :
    g.stageWrite j 0 v = g.wr (rStage j 0) (setB (stageErrs (g.rd (rStage j 0)) v) 30 true) := by
  rw [stageWrite_enables hen hv hj, if_neg (by unfold Pkg.stageSound at hsound; omega), if_pos hpool]

theorem stageWrite_passes (hj : j < 8) (hsound : g.stageSound j) (hpool : g.kcapSum j + g.stKcap j ≤ g.rf rKpool 18 0) :
    g.stageWrite j 0 v = g.wr (rStage j 0) (setB (stageTaken (g.rd (rStage j 0)) v) 27 true) := by
  rw [stageWrite_enables hen hv hj, if_neg (by unfold Pkg.stageSound at hsound; omega), if_neg (Nat.not_lt.mpr hpool)]
end
end

end Sys2Proof.Machine
end

section
/-! PROOFS. STAGE_ENABLE and STAGE_DISABLE (R166, R379, R383). -/

namespace Sys2Proof.Machine

theorem blockOf_stage {j : Nat} (hj : j < 8) : blockOf 62 (0x6000 + 0x40 * j) = some (.stage, 0x40 * j) := by
  simp (disch := omega) only [blockOf, if_neg, if_pos, if_true, Nat.add_sub_cancel_left]

/-- A write of STAGE.CTL on its way. -/
def stagePost (j : Nat) (v : W32) : Post := { key := rStage j 0, site := 62, off := 0x6000 + 0x40 * j, v := v, x := {} }

section
variable {s : State} {k j : Nat} {m : Master} {v : W32}

theorem busWrite_stageCtl {p : Pack} (hj : j < 8) (hw : Writable p k m 62 (0x6000 + 0x40 * j) .stage (0x40 * j))
    (hdepth : fld v 25 16 ≤ 512) : p.busWrite k m 62 (0x6000 + 0x40 * j) v = p.posted k (stagePost j v) := by
  refine busWrite_posts hw rfl (if_neg fun h => Nat.not_lt.mpr hdepth h.2) ?_ (by decide)
  have hslot : 0x40 * j / 0x40 = j := by omega
  have hword : 0x40 * j < 0x200 ∧ 0x40 * j % 0x40 % 0x20 ≤ (if 0x40 * j % 0x40 < 0x20 then 0x10 else 0x1C) := by
    rw [Nat.mul_mod_right]
    exact ⟨by omega, by decide⟩
  simp only [busyKey, if_pos hword, hslot]

/-- Neither command touches the other fields of the word. -/
theorem gives_stageCtl (hj : j < 8) (hw : Writable s.pack k m 62 (0x6000 + 0x40 * j) .stage (0x40 * j))
    (hdepth : v.toNat / 2 ^ 16 % 1024 ≤ 512) :
    Gives (.stageEnable k m j v) s (s.pack.posted k (stagePost j (setB v 27 true))) ∧
      Gives (.stageDisable k m j v) s (s.pack.posted k (stagePost j (setB v 27 false))) := by
  have hdepth' (b : Bool) : fld (setB v 27 b) 25 16 ≤ 512 := by
    rwa [fld_setB_apart _ _ (by decide) (by decide), fld_eq]
  exact ⟨gives_of_onPack rfl (busWrite_stageCtl hj hw (hdepth' true)),
    gives_of_onPack rfl (busWrite_stageCtl hj hw (hdepth' false))⟩

/-- What a write of STAGE.CTL leaves once it completes, by the control word it leaves. -/
theorem lands_stageCtl {P : Pack → Prop} {w : W32} (hj : j < 8)
    (hword : ((s.pack.g k).arrived (rStage j 0)).stageWrite j 0 v = ((s.pack.g k).arrived (rStage j 0)).wr (rStage j 0) w)
    (hP : ∀ p : Pack, (p.g k).rd (rStage j 0) = w → s.pack.keepsBut p k [rStage j 0] →
      (p.g k).busy = (s.pack.g k).busy.filter (· != rStage j 0) → P p) : Lands s k (stagePost j v) P := by
  have hstrm : rStage j 0 < hubR 0x30000 := by simp only [rStage, hubR, rk]; omega
  refine lands_of_wr (x := stagePost j v) (h := fun g => g.stageWrite j 0 v) (blockOf_stage hj) hstrm (fun p _ => ?_) hword hP
  have hslot : 0x40 * j / 0x40 = j := by omega
  simp only [stagePost, Pack.blkWrite, hslot, Nat.mul_mod_right]
  exact if_pos (by omega)

section
variable (hj : j < 8) (hen : (s.pack.g k).stEn j = false)
include hj hen

theorem lands_stageEnable_passes (hsound : (s.pack.g k).stageSound j)
    (hpool : (s.pack.g k).kcapSum j + (s.pack.g k).stKcap j ≤ (s.pack.g k).rf rKpool 18 0) :
    Lands s k (stagePost j (setB v 27 true)) (fun p => s.pack.keepsBut p k [rStage j 0] ∧
      (p.g k).stEn j = true ∧ (p.g k).rf (rStage j 0) 26 16 = v.toNat / 2 ^ 16 % 2 ^ 11 ∧
      (p.g k).rf (rStage j 0) 8 0 = v.toNat % 512 ∧ (p.g k).busy = (s.pack.g k).busy.filter (· != rStage j 0)) := by
  refine lands_stageCtl hj (stageWrite_passes hen (bit_setB_same _ _ (by decide)) hj hsound hpool)
    fun p hword hrest hbusy => ⟨hrest, ?enabled, ?depth, ?number, hbusy⟩
  case enabled => rw [Pkg.stEn, Pkg.rb, hword, bit_setB_same _ _ (by decide)]
  case depth =>
    rw [Pkg.rf, hword, fld_setB_apart _ _ (by decide) (by decide), stageTaken,
      fld_setF_apart _ _ (by decide) (by decide) (by decide), fld_setF_fld _ _ (by decide) (by decide),
      fld_setB_apart _ _ (by decide) (by decide), fld_eq]
  case number =>
    rw [Pkg.rf, hword, fld_setB_apart _ _ (by decide) (by decide), stageTaken, fld_setF_fld _ _ (by decide) (by decide),
      fld_setB_apart _ _ (by decide) (by decide), fld_low]
    rfl

theorem lands_stageEnable_unsound (hsound : ¬ (s.pack.g k).stageSound j) :
    Lands s k (stagePost j (setB v 27 true)) (fun p => s.pack.keepsBut p k [rStage j 0] ∧
      (p.g k).stEn j = false ∧ (p.g k).rb (rStage j 0) 29 = true) := by
  refine lands_stageCtl hj (stageWrite_unsound hen (bit_setB_same _ _ (by decide)) hj hsound)
    fun p hword hrest _ => ⟨hrest, ?disabled, ?cfgerr⟩
  case disabled =>
    rw [Pkg.stEn, Pkg.rb, hword, bit_setB_apart _ _ (by decide) (by decide), bit_stageTaken_27]
    exact hen
  case cfgerr => rw [Pkg.rb, hword, bit_setB_same _ _ (by decide)]

theorem lands_stageEnable_conflict (hsound : (s.pack.g k).stageSound j)
    (hpool : (s.pack.g k).rf rKpool 18 0 < (s.pack.g k).kcapSum j + (s.pack.g k).stKcap j) :
    Lands s k (stagePost j (setB v 27 true)) (fun p => s.pack.keepsBut p k [rStage j 0] ∧
      (p.g k).stEn j = false ∧ (p.g k).rb (rStage j 0) 30 = true ∧
      (p.g k).rf (rStage j 0) 26 0 = (s.pack.g k).rf (rStage j 0) 26 0) := by
  refine lands_stageCtl hj (stageWrite_conflict hen (bit_setB_same _ _ (by decide)) hj hsound hpool)
    fun p hword hrest _ => ⟨hrest, ?disabled, ?conf, ?config⟩
  case disabled =>
    rw [Pkg.stEn, Pkg.rb, hword, bit_setB_apart _ _ (by decide) (by decide), bit_stageErrs _ _ (by decide)]
    exact hen
  case conf => rw [Pkg.rb, hword, bit_setB_same _ _ (by decide)]
  case config =>
    rw [Pkg.rf, hword, fld_setB_apart _ _ (by decide) (by decide), fld_stageErrs _ _ (by decide)]
    rfl
end

section
variable (hj : j < 8) (hen : (s.pack.g k).stEn j = true)
include hj hen

theorem lands_stageDisable_idle (hidle : (s.pack.g k).stInfl j = 0) :
    Lands s k (stagePost j (setB v 27 false)) (fun p => s.pack.keepsBut p k [rStage j 0] ∧ (p.g k).stEn j = false) := by
  refine lands_stageCtl hj (stageWrite_idle hen (bit_setB_same _ _ (by decide)) hidle)
    fun p hword hrest _ => ⟨hrest, ?_⟩
  rw [Pkg.stEn, Pkg.rb, hword, bit_setB_same _ _ (by decide)]

theorem lands_stageDisable_busy (hinfl : (s.pack.g k).stInfl j ≠ 0) :
    Lands s k (stagePost j (setB v 27 false)) (fun p => s.pack.keepsBut p k [rStage j 0] ∧
      (p.g k).stEn j = true ∧ (p.g k).rb (rStage j 0) 28 = true) := by
  refine lands_stageCtl hj (stageWrite_busy hen (bit_setB_same _ _ (by decide)) hinfl)
    fun p hword hrest _ => ⟨hrest, ?enabled, ?busyerr⟩
  case enabled =>
    rw [Pkg.stEn, Pkg.rb, hword, bit_setB_apart _ _ (by decide) (by decide), bit_stageErrs _ _ (by decide)]
    exact hen
  case busyerr => rw [Pkg.rb, hword, bit_setB_same _ _ (by decide)]
end
end

end Sys2Proof.Machine
end

section
/-! PROOFS. CLUS.TMAP (R164): the entries of quiet threads are written, one field of four bits for each thread. -/

namespace Sys2Proof.Machine

/-- The first `m` of the fields of four bits taken from `v` where `q` allows it. -/
def nibblesFrom (q : Nat → Bool) (v w : W32) (m : Nat) : W32 :=
  (List.range m).foldl (fun w n => if q n then setF w (4 * n + 3) (4 * n) (fld v (4 * n + 3) (4 * n)) else w) w

theorem tmapWrite_eq (g : Pkg) (site c hi : Nat) (v : W32) :
    g.tmapWrite site c hi v =
      g.wr (rTmap site c hi) (nibblesFrom (fun n => g.quietThread site c (8 * hi + n)) v (g.rd (rTmap site c hi)) 8) := rfl

theorem fld_nibblesFrom (q : Nat → Bool) (v w : W32) {m n : Nat} (hm : m ≤ 8) (hn : n < 8) :
    fld (nibblesFrom q v w m) (4 * n + 3) (4 * n) =
      if n < m ∧ q n then fld v (4 * n + 3) (4 * n) else fld w (4 * n + 3) (4 * n) := by
  induction m with
  | zero => rw [if_neg (by omega)]; rfl
  | succ m ih =>
    have hlast : nibblesFrom q v w (m + 1) =
        if q m then setF (nibblesFrom q v w m) (4 * m + 3) (4 * m) (fld v (4 * m + 3) (4 * m)) else nibblesFrom q v w m := by
      simp [nibblesFrom, List.range_succ]
    have ih := ih (by omega)
    by_cases hnm : n = m
    · subst hnm
      cases hq : q n
      · simp [hlast, hq, ih]
      · simp [hlast, hq, fld_setF_fld _ _ (Nat.le_add_right _ _) (show 4 * n + 3 < 32 by omega)]
    · have hsame : fld (nibblesFrom q v w (m + 1)) (4 * n + 3) (4 * n) = fld (nibblesFrom q v w m) (4 * n + 3) (4 * n) := by
        rw [hlast]
        split
        · exact fld_setF_apart _ _ (by omega) (by omega) (by omega)
        · rfl
      rw [hsame, ih]
      simp only [show n < m + 1 ↔ n < m by omega]

theorem nibble_eq (w : W32) (n : Nat) : w.toNat / 2 ^ (4 * n) % 16 = fld w (4 * n + 3) (4 * n) := by
  rw [fld_eq, show 4 * n + 3 + 1 - 4 * n = 4 by omega]
  rfl

theorem leaves_clusTmapWrite {s : State} {k site c : Nat} {m : Master} {hi : Bool} {v : W32} (hc : c < 16)
    (hw : Writable s.pack k m site (0x2000 + 8 * c + 4 * b2n hi) .clus (8 * c + 4 * b2n hi)) :
    Leaves (.clusTmapWrite k m site c hi v) s (fun p => s.pack.keepsBut p k [rTmap site c (b2n hi)] ∧ ∀ n, n < 8 →
      ((p.g k).rd (rTmap site c (b2n hi))).toNat / 2 ^ (4 * n) % 16 =
        if (s.pack.g k).quietThread site c (8 * b2n hi + n) then v.toNat / 2 ^ (4 * n) % 16
        else ((s.pack.g k).rd (rTmap site c (b2n hi))).toNat / 2 ^ (4 * n) % 16) := by
  have hhi : b2n hi < 2 := by cases hi <;> decide
  have hblk : s.pack.blkWrite k site .clus (8 * c + 4 * b2n hi) v {} = s.pack.on k (fun g => g.tmapWrite site c (b2n hi) v) := by
    simp only [Pack.blkWrite, show (8 * c + 4 * b2n hi) / 8 = c by omega, show (8 * c + 4 * b2n hi) % 8 / 4 = b2n hi by omega]
    exact if_pos (by omega)
  have hgives : Gives (.clusTmapWrite k m site c hi v) s (s.pack.on k (fun g => g.tmapWrite site c (b2n hi) v)) :=
    gives_of_onPack rfl ((busWrite_served hw).trans ((regWrite_now rfl rfl rfl).trans hblk))
  refine ⟨_, hgives, ⟨fun b hb => ?_, rfl⟩, fun n hn => ?_⟩
  · rw [Pack.on_g_self, tmapWrite_eq, Pkg.wr_rd_ne _ _ (List.mem_singleton.not.mp hb)]
  · rw [Pack.on_g_self, tmapWrite_eq, Pkg.wr_rd_self, nibble_eq, nibble_eq, nibble_eq, fld_nibblesFrom _ _ _ le_rfl hn]
    simp only [hn, true_and]

end Sys2Proof.Machine
end

section
/-! PROOFS. PIPE.MODE and PIPE.SPILL (R173, R184, R379, R383). -/

namespace Sys2Proof.Machine

theorem blockOf_pipe {o : Nat} (ho : o < 0x1000) : blockOf 62 (0x5000 + o) = some (.pipe, o) := by
  simp (disch := omega) only [blockOf, if_neg, if_pos, if_true, Nat.add_sub_cancel_left]

/-- A write of PIPE.MODE (offset 0x5000) or PIPE.SPILL (0x5004) on its way, both under the BUSY of PIPE.MODE. -/
def pipePost (off : Nat) (v : W32) : Post := { key := rPipeMode, site := 62, off := off, v := v, x := {} }

section
variable {s : State} {k : Nat} {m : Master} {v : W32}

theorem gives_pipeModeWrite (hw : Writable s.pack k m 62 0x5000 .pipe 0) :
    Gives (.pipeModeWrite k m v) s (s.pack.posted k (pipePost 0x5000 v)) :=
  gives_of_onPack rfl (busWrite_posts hw rfl rfl rfl (by decide))

theorem gives_pipeSpillWrite (hw : Writable s.pack k m 62 0x5004 .pipe 4) :
    Gives (.pipeSpillWrite k m v) s (s.pack.posted k (pipePost 0x5004 v)) :=
  gives_of_onPack rfl (busWrite_posts hw rfl rfl rfl (by decide))
end

/-! PIPE.MODE -/

/-- No MBT entry is valid, and no stage is enabled. -/
def Pkg.atRest (g : Pkg) : Prop := (∀ n, n < 512 → g.mbValid n = false) ∧ ∀ i, i < 8 → g.stEn i = false

theorem Pkg.atRest_iff (g : Pkg) :
    ((List.range 512).any (fun n => g.mbValid n) || (List.range 8).any (fun j => g.stEn j)) = false ↔ g.atRest := by
  simp only [Bool.or_eq_false_iff, List.any_eq_false, List.mem_range, Bool.not_eq_true, Pkg.atRest]

/-- PIPE.MODE with its error bit cleared where a write names it. -/
def modeErr (c v : W32) : W32 := setB c 30 (bit c 30 && !bit v 30)

theorem Pkg.atRest_wr_mode (g : Pkg) (w : W32) : (g.wr rPipeMode w).atRest ↔ g.atRest := by
  have hentry (n : Nat) : (g.wr rPipeMode w).mbValid n = g.mbValid n :=
    congrArg (bit · 28) (g.wr_rd_ne w (by simp only [rMbt, rPipeMode, hubR, rk]; omega))
  have hstage (i : Nat) : (g.wr rPipeMode w).stEn i = g.stEn i :=
    congrArg (bit · 27) (g.wr_rd_ne w (by simp only [rStage, rPipeMode, hubR, rk]; omega))
  simp only [Pkg.atRest, hentry, hstage]

section
variable {p : Pack} {k : Nat} {v : W32}

theorem modeWrite_eq (p : Pack) (k : Nat) (v : W32) :
    let q := p.on k (fun g => g.wr rPipeMode (modeErr (g.rd rPipeMode) v))
    p.modeWrite k v =
      if (List.range 512).any (fun n => (q.g k).mbValid n) || (List.range 8).any (fun j => (q.g k).stEn j) then
        q.on k (fun g => g.wb rPipeMode 30 true)
      else if fld v 1 0 = 3 then q.draw.2.on k (fun g => g.wf rPipeMode 1 0 (q.draw.1 % 4))
      else q.on k (fun g => g.wf rPipeMode 1 0 (fld v 1 0)) := rfl

theorem modeWrite_atRest (hrest : (p.g k).atRest) (hmode : fld v 1 0 ≠ 3) :
    p.modeWrite k v = p.on k (fun g => g.wr rPipeMode (setF (modeErr (g.rd rPipeMode) v) 1 0 (fld v 1 0))) := by
  have hany := (Pkg.atRest_iff _).mpr (((p.g k).atRest_wr_mode (modeErr ((p.g k).rd rPipeMode) v)).mpr hrest)
  rw [modeWrite_eq, Pack.on_g_self, hany, if_neg Bool.false_ne_true, if_neg hmode, Pack.on_on]
  simp only [Pkg.wr_wf]

theorem modeWrite_engaged (hrest : ¬ (p.g k).atRest) :
    p.modeWrite k v = p.on k (fun g => g.wr rPipeMode (setB (modeErr (g.rd rPipeMode) v) 30 true)) := by
  have hany := mt ((Pkg.atRest_iff _).mp) (mt (((p.g k).atRest_wr_mode (modeErr ((p.g k).rd rPipeMode) v)).mp) hrest)
  rw [modeWrite_eq, Pack.on_g_self, if_pos (Bool.not_eq_false _ ▸ hany), Pack.on_on]
  simp only [Pkg.wr_wb]
end

section
variable {s : State} {k : Nat} {v : W32}

theorem blkWrite_pipeMode {site : Nat} {x : WrX} (p : Pack) : p.blkWrite k site .pipe 0 v x = p.modeWrite k v := by
  simp only [Pack.blkWrite]
  exact if_pos trivial

theorem lands_pipeMode {P : Pack → Prop} (h : W32 → W32)
    (hmode : ∀ p : Pack, p.g k = (s.pack.g k).arrived rPipeMode →
      p.modeWrite k v = p.on k (fun g => g.wr rPipeMode (h (g.rd rPipeMode))))
    (hP : ∀ p : Pack, (p.g k).rd rPipeMode = h ((s.pack.g k).rd rPipeMode) → s.pack.keepsBut p k [rPipeMode] → P p) :
    Lands s k (pipePost 0x5000 v) P := by
  refine lands_of_wr (x := pipePost 0x5000 v) (blockOf_pipe (o := 0) (by decide)) ?_ (h := fun g => g.wr rPipeMode (h (g.rd rPipeMode)))
    (fun p hg => (blkWrite_pipeMode p).trans (hmode p hg)) rfl (fun p hword hkeeps _ => hP p hword hkeeps)
  simp [pipePost, rPipeMode, hubR, rk]

theorem lands_pipeMode_atRest (hrest : (s.pack.g k).atRest) (hmode : v.toNat % 4 ≠ 3) :
    Lands s k (pipePost 0x5000 v) (fun p => s.pack.keepsBut p k [rPipeMode] ∧ (p.g k).mode = v.toNat % 4) := by
  have hfld : fld v 1 0 = v.toNat % 4 := fld_low v 1
  refine lands_pipeMode (fun c => setF (modeErr c v) 1 0 (fld v 1 0))
    (fun p hg => modeWrite_atRest (by rw [hg]; exact hrest) (hfld ▸ hmode)) fun p hword hkeeps => ⟨hkeeps, ?_⟩
  rw [Pkg.mode, Pkg.rf, hword, fld_setF_fld _ _ (by decide) (by decide), hfld]

theorem lands_pipeMode_engaged (hrest : ¬ (s.pack.g k).atRest) :
    Lands s k (pipePost 0x5000 v) (fun p => s.pack.keepsBut p k [rPipeMode] ∧ (p.g k).mode = (s.pack.g k).mode ∧
      (p.g k).rb rPipeMode 30 = true) := by
  refine lands_pipeMode (fun c => setB (modeErr c v) 30 true)
    (fun p hg => modeWrite_engaged (by rw [hg]; exact hrest)) fun p hword hkeeps => ⟨hkeeps, ?mode, ?held⟩
  case mode =>
    rw [Pkg.mode, Pkg.rf, hword, fld_setB_apart _ _ (by decide) (by decide), modeErr, fld_setB_apart _ _ (by decide) (by decide)]
    rfl
  case held => rw [Pkg.rb, hword, bit_setB_same _ _ (by decide)]
end

end Sys2Proof.Machine
end

section
/-! PROOFS. PIPE.SPILL (R173, R379, R383): the pool follows the overflow, or the write is refused. -/

namespace Sys2Proof.Machine

/-- PIPE.SPILL with its error bit cleared where a write names it. -/
def spillErr (c v : W32) : W32 := setB c 31 (bit c 31 && !bit v 31)

/-- The same with the sizes of a write taken. -/
def spillTaken (c v : W32) : W32 := setF (setF (spillErr c v) 8 0 (fld v 8 0)) 24 16 (fld v 24 16)

/-- KPOOL under the overflow that a write asks for. -/
def Pkg.spillPool (g : Pkg) (v : W32) : Nat := kpoolOf (g.shareSum 48 0) (fld v 8 0)

/-- The overflow and the staging fit the stacks, and the capacities of the stages fit the pool (R173, log 40). -/
def Pkg.spillFits (g : Pkg) (v : W32) : Prop :=
  fld v 8 0 ≤ 256 ∧ (fld v 8 0 + 11) / 12 + (fld v 24 16 + 11) / 12 ≤ 24 ∧ g.kcapSum 8 ≤ g.spillPool v

/-! A write of PIPE.SPILL leaves what its checks read. -/

theorem Pkg.wr_spill_shareSum (g : Pkg) (w : W32) : (g.wr rPipeSpill w).shareSum 48 0 = g.shareSum 48 0 := by
  refine List.foldl_ext _ _ _ fun n site hsite => ?_
  have hplace : rKshr site ≠ rPipeSpill := by
    have := List.mem_range.mp hsite
    simp only [rKshr, rPipeSpill, hubR, rk]; omega
  simp only [g.wr_rd_ne w hplace]

theorem Pkg.wr_spill_kcapSum (g : Pkg) (w : W32) : (g.wr rPipeSpill w).kcapSum 8 = g.kcapSum 8 :=
  Pkg.kcapSum_congr fun i _ _ o _ => g.wr_rd_ne w (by simp only [rStage, rPipeSpill, hubR, rk]; omega)

theorem Pkg.wr_spill_anyHeld (g : Pkg) (w : W32) : (g.wr rPipeSpill w).anyHeld = g.anyHeld := by
  have hentry (n : Nat) : (g.wr rPipeSpill w).mbHeld n = g.mbHeld n :=
    congrArg (bit · 18) (g.wr_rd_ne w (by simp only [rMbt, rPipeSpill, hubR, rk]; omega))
  simp only [Pkg.anyHeld, hentry]

theorem spillWrite_eq (g : Pkg) (v : W32) :
    let h := g.wr rPipeSpill (spillErr (g.rd rPipeSpill) v)
    g.spillWrite v =
      if 256 < fld v 8 0 ∨ 24 < (fld v 8 0 + 11) / 12 + (fld v 24 16 + 11) / 12 ∨ h.spillPool v < h.kcapSum 8 then
        h.wb rPipeSpill 31 true
      else if h.anyHeld then h.wb rPipeMode 30 true
      else ((h.wf rPipeSpill 8 0 (fld v 8 0)).wf rPipeSpill 24 16 (fld v 24 16)).wf rKpool 18 0 (h.spillPool v) := rfl

section
variable {g : Pkg} {v : W32}

theorem spillWrite_unfit (hfits : ¬ g.spillFits v) :
    g.spillWrite v = g.wr rPipeSpill (setB (spillErr (g.rd rPipeSpill) v) 31 true) := by
  rw [spillWrite_eq, if_pos, Pkg.wr_wb]
  rw [Pkg.spillPool, Pkg.wr_spill_shareSum, Pkg.wr_spill_kcapSum]
  by_contra h
  exact hfits (by unfold Pkg.spillFits Pkg.spillPool; omega)

section
variable (hfits : g.spillFits v)
include hfits

theorem spillWrite_fits : g.spillWrite v =
    if g.anyHeld then (g.wr rPipeSpill (spillErr (g.rd rPipeSpill) v)).wb rPipeMode 30 true
    else (g.wr rPipeSpill (spillTaken (g.rd rPipeSpill) v)).wf rKpool 18 0 (g.spillPool v) := by
  rw [spillWrite_eq, Pkg.spillPool, Pkg.wr_spill_shareSum, Pkg.wr_spill_kcapSum, Pkg.wr_spill_anyHeld, Pkg.wr_wf, Pkg.wr_wf]
  refine if_neg ?_
  unfold Pkg.spillFits Pkg.spillPool at hfits
  omega

theorem spillWrite_held (hheld : g.anyHeld = true) :
    g.spillWrite v = (g.wr rPipeSpill (spillErr (g.rd rPipeSpill) v)).wb rPipeMode 30 true := by
  rw [spillWrite_fits hfits, if_pos hheld]

theorem spillWrite_passes (hheld : g.anyHeld = false) :
    g.spillWrite v = (g.wr rPipeSpill (spillTaken (g.rd rPipeSpill) v)).wf rKpool 18 0 (g.spillPool v) := by
  rw [spillWrite_fits hfits, hheld, if_neg Bool.false_ne_true]
end
end

section
variable {s : State} {k : Nat} {v : W32}

/-- What a write of PIPE.SPILL leaves once it completes, by the registers it leaves. -/
theorem lands_pipeSpill {P : Pack → Prop} {h : Pkg}
    (hspill : ((s.pack.g k).arrived rPipeMode).spillWrite v = h)
    (hP : ∀ p : Pack, p.g k = h → p.mem = s.pack.mem → P p) : Lands s k (pipePost 0x5004 v) P := by
  refine lands_of_on (x := pipePost 0x5004 v) (blockOf_pipe (o := 4) (by decide)) ?_ (fun g => g.spillWrite v) (fun p _ => ?_)
    (fun p hg hmem => hP p (hg.trans hspill) hmem)
  · simp [pipePost, rPipeMode, hubR, rk]
  · simp only [Pack.blkWrite]
    rfl

theorem fld_spillErr (c v : W32) {hi lo : Nat} (hhi : hi < 31) : fld (spillErr c v) hi lo = fld c hi lo :=
  fld_setB_apart _ _ (by decide) (.inl hhi)

section
variable (hfits : (s.pack.g k).spillFits v)
include hfits

theorem lands_pipeSpill_passes (hheld : (s.pack.g k).anyHeld = false) :
    Lands s k (pipePost 0x5004 v) (fun p => s.pack.keepsBut p k [rPipeSpill, rKpool] ∧
      (p.g k).rf rPipeSpill 8 0 = v.toNat % 512 ∧ (p.g k).rf rPipeSpill 24 16 = v.toNat / 2 ^ 16 % 512 ∧
      (p.g k).rf rKpool 18 0 = (s.pack.g k).spillPool v % 2 ^ 19) := by
  refine lands_pipeSpill (spillWrite_passes hfits hheld) fun p hg hmem => ⟨⟨fun b hb => ?rest, hmem⟩, ?kovf, ?dstg, ?pool⟩
  case rest =>
    simp only [List.mem_cons, List.not_mem_nil, or_false, not_or] at hb
    simp [hg, Pkg.rd_wf, Pkg.rd_wr, hb]
  all_goals rw [hg, Pkg.rf, Pkg.rd_wf]
  case kovf =>
    rw [if_neg (by decide), Pkg.wr_rd_self, spillTaken, fld_setF_apart _ _ (by decide) (by decide) (by decide),
      fld_setF_fld _ _ (by decide) (by decide), fld_low]
    rfl
  case dstg =>
    rw [if_neg (by decide), Pkg.wr_rd_self, spillTaken, fld_setF_fld _ _ (by decide) (by decide), fld_eq]
    rfl
  case pool =>
    rw [if_pos rfl, fld_setF_same _ _ (by decide) (by decide)]
    rfl

theorem lands_pipeSpill_held (hheld : (s.pack.g k).anyHeld = true) :
    Lands s k (pipePost 0x5004 v) (fun p => s.pack.keepsBut p k [rPipeSpill, rPipeMode] ∧
      (p.g k).rb rPipeMode 30 = true ∧ (p.g k).rf rPipeSpill 24 0 = (s.pack.g k).rf rPipeSpill 24 0) := by
  refine lands_pipeSpill (spillWrite_held hfits hheld) fun p hg hmem => ⟨⟨fun b hb => ?rest, hmem⟩, ?held, ?sizes⟩
  case rest =>
    simp only [List.mem_cons, List.not_mem_nil, or_false, not_or] at hb
    simp [hg, Pkg.rd_wb, Pkg.rd_wr, hb]
  case held => rw [hg, Pkg.rb, Pkg.rd_wb, if_pos rfl, bit_setB_same _ _ (by decide)]
  case sizes =>
    rw [hg, Pkg.rf, Pkg.rd_wb, if_neg (by decide), Pkg.wr_rd_self, fld_spillErr _ _ (by decide)]
    rfl
end

theorem lands_pipeSpill_unfit (hfits : ¬ (s.pack.g k).spillFits v) :
    Lands s k (pipePost 0x5004 v) (fun p => s.pack.keepsBut p k [rPipeSpill] ∧
      (p.g k).rb rPipeSpill 31 = true ∧ (p.g k).rf rPipeSpill 24 0 = (s.pack.g k).rf rPipeSpill 24 0) := by
  refine lands_pipeSpill (spillWrite_unfit hfits) fun p hg hmem => ⟨⟨fun b hb => ?rest, hmem⟩, ?held, ?sizes⟩
  case rest => rw [hg, Pkg.wr_rd_ne _ _ (List.mem_singleton.not.mp hb), Pkg.arrived_rd]
  case held => rw [hg, Pkg.rb, Pkg.wr_rd_self, bit_setB_same _ _ (by decide)]
  case sizes =>
    rw [hg, Pkg.rf, Pkg.wr_rd_self, fld_setB_apart _ _ (by decide) (by decide), fld_spillErr _ _ (by decide)]
    rfl
end

end Sys2Proof.Machine
end

section
/-! PROOFS. An occurrence that is logged changes no register but those of the log and the pins, and takes one sequence number (R312 to R315). -/

namespace Sys2Proof.Machine

theorem Pkg.rd_of_regs {g h : Pkg} (hregs : h.regs = g.regs) (a : Nat) : h.rd a = g.rd a := by
  rw [Pkg.rd, Pkg.rd, hregs]

theorem Pkg.errAt_regs (g : Pkg) (p : Nat) : (g.errAt p).regs = g.regs := by
  unfold Pkg.errAt; dsimp only; split <;> split <;> rfl

theorem Pkg.errAt_logSeq (g : Pkg) (p : Nat) : (g.errAt p).logSeq = g.logSeq := by
  unfold Pkg.errAt; dsimp only; split <;> split <;> rfl

theorem Pkg.alarm_regs (g : Pkg) : g.alarm.regs = g.regs := by
  unfold Pkg.alarm; dsimp only; split
  · exact Pkg.errAt_regs _ _
  · split <;> rfl

theorem Pkg.alarm_logSeq (g : Pkg) : g.alarm.logSeq = g.logSeq := by
  unfold Pkg.alarm; dsimp only; split
  · exact Pkg.errAt_logSeq _ _
  · split <;> rfl

theorem Pkg.lost_rd (g : Pkg) (err : Bool) {a : Nat} (ha : a ≠ rErrLost) : (g.lost err).rd a = g.rd a := by
  cases err <;> exact g.wr_rd_ne _ ha

theorem Pkg.put_rd (g : Pkg) (r : LogRec) {a : Nat} (hhead : a ≠ rErrHead) (hlost : a ≠ rErrLost) : (g.put r).rd a = g.rd a := by
  unfold Pkg.put
  dsimp only
  split
  · exact g.wr_rd_ne _ hhead
  · split
    · exact g.lost_rd false hlost
    · split
      · exact g.lost_rd false hlost
      · exact g.lost_rd true hlost

theorem Pkg.fatal_rd (g : Pkg) {a : Nat} (hctl : a ≠ rErrCtl) (hpins : a ≠ rPins) :
    (((g.wb rErrCtl 30 true).wb rPins 4 true).aerSet .internal).rd a = g.rd a := by
  have haer : (((g.wb rErrCtl 30 true).wb rPins 4 true).aerSet .internal).regs = ((g.wb rErrCtl 30 true).wb rPins 4 true).regs := rfl
  rw [Pkg.rd_of_regs haer, Pkg.rd_wb, if_neg hpins, Pkg.rd_wb, if_neg hctl]

theorem Pkg.logAt_rd (g : Pkg) (code site unit thr a0 a1 a2 : Nat) {a : Nat}
    (ha : a ∉ [rErrCtl, rErrHead, rErrLost, rPins]) : (g.logAt code site unit thr a0 a1 a2).rd a = g.rd a := by
  simp only [List.mem_cons, List.not_mem_nil, or_false, not_or] at ha
  obtain ⟨hctl, hhead, hlost, hpins⟩ := ha
  unfold Pkg.logAt
  extract_lets r src g1 g2
  have hput : g1.rd a = g.rd a := (Pkg.rd_of_regs rfl a).trans (g.put_rd r hhead hlost)
  have hfatal : g2.rd a = g1.rd a := by
    by_cases hclass : codeClass code = 2
    · rw [show g2 = ((g1.wb rErrCtl 30 true).wb rPins 4 true).aerSet .internal from if_pos hclass, Pkg.fatal_rd _ hctl hpins]
    · rw [show g2 = g1 from if_neg hclass]
  rw [← hput, ← hfatal]
  split
  · rfl
  · exact Pkg.rd_of_regs (Pkg.alarm_regs g2) a

theorem Pkg.fatal_logSeq (g : Pkg) : (((g.wb rErrCtl 30 true).wb rPins 4 true).aerSet .internal).logSeq = g.logSeq := rfl

theorem Pkg.logAt_logSeq (g : Pkg) (code site unit thr a0 a1 a2 : Nat) :
    (g.logAt code site unit thr a0 a1 a2).logSeq = g.logSeq + 1 := by
  unfold Pkg.logAt
  extract_lets r src g1 g2
  have hput : g1.logSeq = g.logSeq + 1 := rfl
  have hfatal : g2.logSeq = g1.logSeq := by
    by_cases hclass : codeClass code = 2
    · rw [show g2 = ((g1.wb rErrCtl 30 true).wb rPins 4 true).aerSet .internal from if_pos hclass, Pkg.fatal_logSeq]
    · rw [show g2 = g1 from if_neg hclass]
  rw [← hput, ← hfatal]
  split
  · rfl
  · exact Pkg.alarm_logSeq g2

end Sys2Proof.Machine
end

section
/-! PROOFS. MBT.CTL (R170, R171, R379): the entry and the reference counts of the version tags. -/

namespace Sys2Proof.Machine

theorem blockOf_mbt {n : Nat} (hn : n < 512) : blockOf 62 (0x10000 + 0x20 * n) = some (.mbt, 0x20 * n) := by
  simp (disch := omega) only [blockOf, if_neg, if_pos, if_true, Nat.add_sub_cancel_left]

/-- A write of MBT.CTL on its way. -/
def mbtPost (n : Nat) (v : W32) : Post := { key := rMbt n 0, site := 62, off := 0x10000 + 0x20 * n, v := v, x := {} }

/-- The entry's control word with the fields of a write taken. -/
def mbtTaken (c v : W32) : W32 := setF (setF c 28 22 (fld v 28 22)) 15 0 (fld v 15 0)

/-- The references to a version tag. -/
def Pkg.vrefs (g : Pkg) (t : Nat) : Nat := g.rf (rVref t) 9 0

theorem bit_mbtTaken (c v : W32) {i : Nat} (hi : 22 ≤ i ∧ i ≤ 28) : bit (mbtTaken c v) i = bit v i := by
  rw [mbtTaken, bit_setF_apart _ _ (by decide) (by decide) (by omega), bit_setF_fld _ _ (by decide) hi]

theorem bit_mbtTaken_apart (c v : W32) {i : Nat} (hi : 15 < i ∧ i < 22 ∨ 28 < i) : bit (mbtTaken c v) i = bit c i := by
  rw [mbtTaken, bit_setF_apart _ _ (by decide) (by decide) (by omega), bit_setF_apart _ _ (by decide) (by decide) (by omega)]

theorem Pkg.vref_rd (g : Pkg) (t : Nat) (up : Bool) (a : Nat) :
    (g.vref t up).rd a = if a = rVref t then setF (g.rd a) 9 0 (if up then g.vrefs t + 1 else g.vrefs t - 1) else g.rd a := by
  rw [Pkg.vref, Pkg.book_rd, Pkg.rd_wf]
  split
  case isTrue h => rw [h]; rfl
  case isFalse h => rfl

theorem Pkg.vref_vrefs_ne (g : Pkg) {t u : Nat} (up : Bool) (h : u ≠ t) : (g.vref t up).vrefs u = g.vrefs u := by
  rw [Pkg.vrefs, Pkg.rf, Pkg.vref_rd, if_neg (by simpa using h)]; rfl

theorem Pkg.vref_vrefs_self (g : Pkg) (t : Nat) (up : Bool) :
    (g.vref t up).vrefs t = (if up then g.vrefs t + 1 else g.vrefs t - 1) % 2 ^ 10 := by
  rw [Pkg.vrefs, Pkg.rf, Pkg.vref_rd, if_pos rfl, fld_setF_same _ _ (by decide) (by decide)]

theorem Pkg.wr_mbt_vrefs (g : Pkg) (n : Nat) (w : W32) {t : Nat} (ht : t < 4) : (g.wr (rMbt n 0) w).vrefs t = g.vrefs t :=
  congrArg (fld · 9 0) (g.wr_rd_ne w (rMbt_ne_rVref ht).symm)

section
variable {g : Pkg} {n : Nat} {v : W32}

theorem mbtWrite_held (hvalid : g.mbValid n = true) (hv : bit v 28 = false) (hheld : g.mbHeld n = true) :
    g.mbtWrite n 0 v = g.logHub 0x0107 n 0 0 := by
  have hvalid' : bit (g.rd (rMbt n 0)) 28 = true := hvalid
  have hheld' : bit (g.rd (rMbt n 0)) 18 = true := hheld
  simp [Pkg.mbtWrite, hvalid', hheld', hv]

theorem mbtWrite_validates (hvalid : g.mbValid n = false) (hv : bit v 28 = true) (hkind : bit v 27 = (g.mode == 2)) :
    g.mbtWrite n 0 v = (g.wr (rMbt n 0) (mbtTaken (g.rd (rMbt n 0)) v)).vref (fld v 23 22) true := by
  have hvalid' : bit (g.rd (rMbt n 0)) 28 = false := hvalid
  simp [Pkg.mbtWrite, hvalid', hv, hkind, mbtTaken]

theorem mbtWrite_invalidates (hvalid : g.mbValid n = true) (hv : bit v 28 = false) (hheld : g.mbHeld n = false) :
    g.mbtWrite n 0 v = (g.wr (rMbt n 0) (mbtTaken (g.rd (rMbt n 0)) v)).vref (g.mbTag n) false := by
  have hvalid' : bit (g.rd (rMbt n 0)) 28 = true := hvalid
  have hheld' : bit (g.rd (rMbt n 0)) 18 = false := hheld
  simp [Pkg.mbtWrite, hvalid', hheld', hv, mbtTaken, Pkg.mbTag, Pkg.rf]
end

section
variable {s : State} {k n : Nat} {m : Master} {v : W32}

theorem gives_mbtCtlWrite (hphase : v.toNat / 2 ^ 24 % 8 < 6)
    (hw : Writable s.pack k m 62 (0x10000 + 0x20 * n) .mbt (0x20 * n)) :
    Gives (.mbtCtlWrite k m n v) s (s.pack.posted k (mbtPost n v)) := by
  refine gives_of_onPack rfl (busWrite_posts hw rfl (if_neg fun h => Nat.not_le.mpr hphase (fld_eq v 26 24 ▸ h.2)) ?_ (by decide))
  simp [busyKey]

/-- What a write of MBT.CTL leaves once it completes, by the package it leaves. -/
theorem lands_mbtCtl {P : Pack → Prop} {h : Pkg} (hn : n < 512) (hmbt : ((s.pack.g k).arrived (rMbt n 0)).mbtWrite n 0 v = h)
    (hP : ∀ p : Pack, p.g k = h → p.mem = s.pack.mem → P p) : Lands s k (mbtPost n v) P := by
  have hstrm : rMbt n 0 < hubR 0x30000 := by simp only [rMbt, hubR, rk]; omega
  refine lands_of_on (x := mbtPost n v) (blockOf_mbt hn) hstrm (fun g => g.mbtWrite n 0 v) (fun p _ => ?_)
    (fun p hg hmem => hP p (hg.trans hmbt) hmem)
  simp [mbtPost, Pack.blkWrite]

theorem lands_mbtCtl_validates (hn : n < 512) (hvalid : (s.pack.g k).mbValid n = false) (hv : v.toNat.testBit 28 = true)
    (hkind : v.toNat.testBit 27 = ((s.pack.g k).mode == 2)) (hrefs : (s.pack.g k).vrefs (v.toNat / 2 ^ 22 % 4) < 1023) :
    Lands s k (mbtPost n v) (fun p =>
      (p.g k).mbValid n = true ∧ (p.g k).rf (rMbt n 0) 28 22 = v.toNat / 2 ^ 22 % 2 ^ 7 ∧
      (p.g k).rf (rMbt n 0) 15 0 = v.toNat % 2 ^ 16 ∧
      (p.g k).vrefs (v.toNat / 2 ^ 22 % 4) = (s.pack.g k).vrefs (v.toNat / 2 ^ 22 % 4) + 1 ∧
      (∀ t, t < 4 → t ≠ v.toNat / 2 ^ 22 % 4 → (p.g k).vrefs t = (s.pack.g k).vrefs t) ∧
      (p.g k).mbHeld n = (s.pack.g k).mbHeld n ∧ (p.g k).mbRecomp n = (s.pack.g k).mbRecomp n ∧ p.mem = s.pack.mem) := by
  have htag : fld v 23 22 = v.toNat / 2 ^ 22 % 4 := fld_eq v 23 22
  have hlt : v.toNat / 2 ^ 22 % 4 < 4 := Nat.mod_lt _ (by decide)
  refine lands_mbtCtl hn (mbtWrite_validates hvalid hv hkind) fun p hg hmem => ?_
  rw [htag] at hg
  have hctl : (p.g k).rd (rMbt n 0) = mbtTaken ((s.pack.g k).rd (rMbt n 0)) v := by
    rw [hg, Pkg.vref_rd, if_neg (rMbt_ne_rVref hlt), Pkg.wr_rd_self]; rfl
  refine ⟨?valid, ?fields, ?stage, ?counted, fun t ht hne => ?others, ?held, ?recomp, hmem⟩
  case valid => rw [Pkg.mbValid, Pkg.rb, hctl, bit_mbtTaken _ _ (by decide)]; exact hv
  case fields =>
    rw [Pkg.rf, hctl, mbtTaken, fld_setF_apart _ _ (by decide) (by decide) (by decide), fld_setF_fld _ _ (by decide) (by decide), fld_eq]
  case stage => rw [Pkg.rf, hctl, mbtTaken, fld_setF_fld _ _ (by decide) (by decide), fld_low]
  case counted =>
    rw [hg, Pkg.vref_vrefs_self, Pkg.wr_mbt_vrefs _ _ _ hlt]
    exact Nat.mod_eq_of_lt (Nat.succ_lt_succ hrefs)
  case others => rw [hg, Pkg.vref_vrefs_ne _ _ hne, Pkg.wr_mbt_vrefs _ _ _ ht]; rfl
  case held => rw [Pkg.mbHeld, Pkg.rb, hctl, bit_mbtTaken_apart _ _ (by decide)]; rfl
  case recomp => rw [Pkg.mbRecomp, Pkg.rb, hctl, bit_mbtTaken_apart _ _ (by decide)]; rfl

theorem lands_mbtCtl_invalidates (hn : n < 512) (hvalid : (s.pack.g k).mbValid n = true) (hv : v.toNat.testBit 28 = false)
    (hheld : (s.pack.g k).mbHeld n = false) :
    Lands s k (mbtPost n v) (fun p => (p.g k).mbValid n = false ∧
      (p.g k).vrefs ((s.pack.g k).mbTag n) = (s.pack.g k).vrefs ((s.pack.g k).mbTag n) - 1 ∧
      (∀ t, t < 4 → t ≠ (s.pack.g k).mbTag n → (p.g k).vrefs t = (s.pack.g k).vrefs t) ∧ p.mem = s.pack.mem) := by
  have hlt : (s.pack.g k).mbTag n < 4 := Nat.mod_lt _ (by decide)
  refine lands_mbtCtl hn (mbtWrite_invalidates hvalid hv hheld) fun p hg hmem => ?_
  rw [show ((s.pack.g k).arrived (rMbt n 0)).mbTag n = (s.pack.g k).mbTag n from rfl] at hg
  refine ⟨?invalid, ?counted, fun t ht hne => ?others, hmem⟩
  case invalid =>
    rw [Pkg.mbValid, Pkg.rb, hg, Pkg.vref_rd, if_neg (rMbt_ne_rVref hlt), Pkg.wr_rd_self, bit_mbtTaken _ _ (by decide)]
    exact hv
  case counted =>
    rw [hg, Pkg.vref_vrefs_self, Pkg.wr_mbt_vrefs _ _ _ hlt]
    exact Nat.mod_eq_of_lt ((Nat.sub_le _ _).trans_lt (Nat.mod_lt _ (by decide)))
  case others => rw [hg, Pkg.vref_vrefs_ne _ _ hne, Pkg.wr_mbt_vrefs _ _ _ ht]; rfl

theorem lands_mbtCtl_held (hn : n < 512) (hvalid : (s.pack.g k).mbValid n = true) (hv : v.toNat.testBit 28 = false)
    (hheld : (s.pack.g k).mbHeld n = true) :
    Lands s k (mbtPost n v) (fun p => (p.g k).rd (rMbt n 0) = (s.pack.g k).rd (rMbt n 0) ∧
      (p.g k).logSeq = (s.pack.g k).logSeq + 1 ∧ p.mem = s.pack.mem) := by
  refine lands_mbtCtl hn (mbtWrite_held hvalid hv hheld) fun p hg hmem => ⟨?_, ?_, hmem⟩
  · rw [hg, Pkg.logHub, Pkg.logAt_rd, Pkg.arrived_rd]
    simp only [List.mem_cons, List.not_mem_nil, or_false, rMbt, rErrCtl, rErrHead, rErrLost, rPins, hubR, rk]
    omega
  · rw [hg, Pkg.logHub, Pkg.logAt_logSeq]; rfl
end

/-- Settles O35, clause by clause, from what each write leaves once it completes. -/
theorem pipelineRegisters : Obligations.PipelineRegisters := by
  unfold Obligations.PipelineRegisters
  refine ⟨?pipeline, ?mbt⟩
  case pipeline =>
    intro s k m site c j hi v g a nib st fq bq qs rest kovf dstg pool fits same
    refine ⟨fun hc _ hw => leaves_clusTmapWrite hc hw, fun hj hdepth => ⟨fun hw => gives_stageCtl hj hw hdepth, fun hen => ?enable,
      fun hen => ⟨lands_stageDisable_idle hj hen, lands_stageDisable_busy hj hen⟩⟩, ?mode, ?spill⟩
    case enable =>
      exact ⟨lands_stageEnable_passes hj hen, lands_stageEnable_unsound hj hen, lands_stageEnable_conflict hj hen⟩
    case mode => exact ⟨gives_pipeModeWrite, lands_pipeMode_atRest, lands_pipeMode_engaged⟩
    case spill =>
      have hkovf : fld v 8 0 = kovf := fld_low v 8
      have hdstg : fld v 24 16 = dstg := fld_eq v 24 16
      have hpool : g.spillPool v = pool := by rw [Pkg.spillPool, hkovf]
      have hfits : g.spillFits v ↔ fits := by rw [Pkg.spillFits, hkovf, hdstg, hpool]
      rw [← hfits, ← hpool]
      exact ⟨gives_pipeSpillWrite, lands_pipeSpill_passes, lands_pipeSpill_held, lands_pipeSpill_unfit⟩
  case mbt =>
    intro s k m n v g a t0 t1 refs x hn hphase
    exact ⟨gives_mbtCtlWrite hphase, lands_mbtCtl_validates hn, fun hvalid hv hheld _ => lands_mbtCtl_invalidates hn hvalid hv hheld,
      lands_mbtCtl_held hn⟩

end Sys2Proof.Machine
end

section
/-! PROOFS. A write at a register that is served and not posted (R374, R379), and what a bit of a register reads after writes of bits. -/

namespace Sys2Proof.Machine

section
variable {s : State} {k site off o : Nat} {m : Master} {b : Blk} {v : W32}

/-- A command that is a write of a register without privileged, posted or forbidden parts, whose effect is a change `h` of its package. -/
theorem leaves_of_write {c : Instr} {h : Pkg → Pkg} {P : Pack → Prop} (hw : Writable s.pack k m site off b o)
    (hc : exec c s = .next (s.onPack (fun p => p.busWrite k m site off v)))
    (hpv : pvMask b o = 0) (hword : forbidden b o v = none) (hkey : busyKey site b o = none)
    (hblk : s.pack.blkWrite k site b o v {} = s.pack.on k h)
    (hP : ∀ p : Pack, p.g k = h (s.pack.g k) → p.mem = s.pack.mem → P p) : Leaves c s P :=
  ⟨s.pack.on k h, gives_of_onPack hc ((busWrite_served hw).trans ((regWrite_now hpv hword hkey).trans hblk)),
    hP _ (Pack.on_g_self ..) (Pack.on_mem ..)⟩
end

theorem Pkg.rb_wb (g : Pkg) (a b : Nat) {i : Nat} (j : Nat) (x : Bool) (hi : i < 32) :
    (g.wb a i x).rb b j = if b = a ∧ j = i then x else g.rb b j := by
  rw [Pkg.rb, Pkg.rd_wb]
  by_cases hb : b = a
  · by_cases hj : j = i
    · simp [hb, hj, bit_setB_same _ x hi]
    · simp [hb, hj, bit_setB_apart _ x hi hj, Pkg.rb]
  · simp [hb, Pkg.rb]

theorem Pkg.rb_wb_same (g : Pkg) (a : Nat) {i : Nat} (x : Bool) (hi : i < 32) : (g.wb a i x).rb a i = x := by
  rw [g.rb_wb a a i x hi, if_pos ⟨rfl, rfl⟩]

theorem Pkg.rb_wb_ne (g : Pkg) {a b : Nat} (i j : Nat) (x : Bool) (hb : b ≠ a) : (g.wb a i x).rb b j = g.rb b j := by
  rw [Pkg.rb, Pkg.rd_wb, if_neg hb, Pkg.rb]

end Sys2Proof.Machine
end

section
/-! PROOFS. Gate registers (R378, R382, R413): a masked write takes the enables that its mask names, one after another. -/

namespace Sys2Proof.Machine

/-- One enable of a masked write to the gate register `a`, with `x` the package so far. -/
def Pkg.gateStep (g : Pkg) (a gs : Nat) (held early : Nat → Bool) (v : W32) (x : Pkg) (i : Nat) : Pkg :=
  if !bit v (16 + i) then x
  else if bit v i then
    (if g.romPhase && !early i then x.wb (rKey 0) 22 true else x.wb a i true)
  else if x.rb a i && held i then x.wb gs 0 true
  else x.wb a i false

/-- The first `n` enables of such a write. -/
def Pkg.gateSteps (g : Pkg) (a gs n : Nat) (held early : Nat → Bool) (v : W32) : Pkg :=
  (List.range n).foldl (g.gateStep a gs held early v) g

theorem gateWrite_eq (g : Pkg) (a gs n : Nat) (held early : Nat → Bool) (v : W32) :
    g.gateWrite a gs n held early v = g.gateSteps a gs n held early v := rfl

theorem gateSteps_succ (g : Pkg) (a gs n : Nat) (held early : Nat → Bool) (v : W32) :
    g.gateSteps a gs (n + 1) held early v = g.gateStep a gs held early v (g.gateSteps a gs n held early v) n := by
  simp [Pkg.gateSteps, List.range_succ]

/-- A clear of an enable that is set and held. -/
def Pkg.gateRefuses (g : Pkg) (a : Nat) (held : Nat → Bool) (v : W32) (i : Nat) : Bool :=
  bit v (16 + i) && !bit v i && g.rb a i && held i

/-- After the ROM phase, what the first `n` enables of a masked write leave: those that the mask names are set, or cleared where nothing holds them; GREF stands in `gs` once one was refused. -/
structure Pkg.GatesTaken (g : Pkg) (a gs n : Nat) (held : Nat → Bool) (v : W32) (x : Pkg) : Prop where
  enables : ∀ i, x.rb a i = if i < n ∧ bit v (16 + i) then (bit v i || (g.rb a i && held i)) else g.rb a i
  gref : x.rb gs 0 = (g.rb gs 0 || (List.range n).any (g.gateRefuses a held v))
  rest : ∀ b, b ≠ a → b ≠ gs → x.rd b = g.rd b

section
variable {g : Pkg} {a gs : Nat} {held early : Nat → Bool} {v : W32}

section
variable {n : Nat} {x : Pkg} (hx : g.GatesTaken a gs n held v x)
include hx

theorem Pkg.GatesTaken.skip (hmask : bit v (16 + n) = false) : g.GatesTaken a gs (n + 1) held v x where
  enables i := by
    rw [hx.enables]
    by_cases hi : i = n
    · simp [hi, hmask]
    · simp only [show i < n + 1 ↔ i < n by omega]
  gref := by simp [hx.gref, List.range_succ, Pkg.gateRefuses, hmask]
  rest := hx.rest

/-- The enable is written. -/
theorem Pkg.GatesTaken.write (hn : n < 32) (hgs : gs ≠ a) (hmask : bit v (16 + n) = true) {y : Bool}
    (hy : y = (bit v n || (g.rb a n && held n))) (hpass : g.gateRefuses a held v n = false) :
    g.GatesTaken a gs (n + 1) held v (x.wb a n y) where
  enables i := by
    rw [x.rb_wb a a i y hn, hx.enables]
    by_cases hi : i = n
    · simp [hi, hmask, hy]
    · simp only [hi, and_false, if_false, show i < n + 1 ↔ i < n by omega]
  gref := by rw [x.rb_wb_ne _ _ _ hgs, hx.gref, List.range_succ, List.any_append]; simp [hpass]
  rest b hb hbs := by rw [Pkg.rd_wb, if_neg hb, hx.rest b hb hbs]

/-- The clear is refused: the enable stays, and GREF is set. -/
theorem Pkg.GatesTaken.refuse (hgs : gs ≠ a) (hrefuses : g.gateRefuses a held v n = true) :
    g.GatesTaken a gs (n + 1) held v (x.wb gs 0 true) where
  enables i := by
    rw [x.rb_wb_ne _ _ _ hgs.symm, hx.enables]
    by_cases hi : i = n
    · simp only [Pkg.gateRefuses, Bool.and_eq_true] at hrefuses
      simp [hi, hrefuses]
    · simp only [show i < n + 1 ↔ i < n by omega]
  gref := by rw [x.rb_wb_same _ _ (by decide), List.range_succ, List.any_append]; simp [hrefuses]
  rest b hb hbs := by rw [Pkg.rd_wb, if_neg hbs, hx.rest b hb hbs]

theorem Pkg.GatesTaken.step (hn : n < 32) (hgs : gs ≠ a) (hrun : g.romPhase = false) :
    g.GatesTaken a gs (n + 1) held v (g.gateStep a gs held early v x n) := by
  have hbit : x.rb a n = g.rb a n := by rw [hx.enables, if_neg (by omega)]
  rw [Pkg.gateStep, hrun, hbit]
  cases hmask : bit v (16 + n)
  case false => exact hx.skip hmask
  cases hset : bit v n
  case true => exact hx.write hn hgs hmask (by simp [hset]) (by simp [Pkg.gateRefuses, hset])
  cases hheld : g.rb a n && held n
  case false => exact hx.write hn hgs hmask (by simp [hset, hheld]) (by simp [Pkg.gateRefuses, Bool.and_assoc, hheld])
  case true => exact hx.refuse hgs (by simp [Pkg.gateRefuses, hmask, hset, hheld])
end

theorem gateSteps_taken (hgs : gs ≠ a) (hrun : g.romPhase = false) {n : Nat} (hn : n ≤ 32) :
    g.GatesTaken a gs n held v (g.gateSteps a gs n held early v) := by
  induction n with
  | zero => exact ⟨fun i => by simp [Pkg.gateSteps], by simp [Pkg.gateSteps], fun _ _ _ => rfl⟩
  | succ n ih => rw [gateSteps_succ]; exact (ih (by omega)).step (by omega) hgs hrun

/-- In the ROM phase, what the first `n` enables of a masked write leave where none may be set early: no enable that the write asks for is set, and EARLY stands once one was asked for. -/
structure Pkg.GatesEarly (g : Pkg) (a n : Nat) (v : W32) (x : Pkg) : Prop where
  kept : ∀ i, bit v (16 + i) = true → bit v i = true → x.rb a i = g.rb a i
  flagged : ∀ i, i < n → bit v (16 + i) = true → bit v i = true → x.rb (rKey 0) 22 = true

theorem Pkg.GatesEarly.step {n : Nat} {x : Pkg} (hx : g.GatesEarly a n v x) (hn : n < 32) (hgs : gs ≠ a) (hkey : a ≠ rKey 0)
    (hkey' : gs ≠ rKey 0) (hrom : g.romPhase = true) (hearly : early n = false) :
    g.GatesEarly a (n + 1) v (g.gateStep a gs held early v x n) := by
  -- an enable that the write does not set: neither the others nor the flag change
  have other (y : Pkg) (hy : bit v (16 + n) = false ∨ bit v n = false) (hbits : ∀ i, i ≠ n → y.rb a i = x.rb a i)
      (hflag : y.rb (rKey 0) 22 = x.rb (rKey 0) 22) : g.GatesEarly a (n + 1) v y := by
    have hne (i : Nat) (hmask : bit v (16 + i) = true) (hset : bit v i = true) : i ≠ n := by
      rintro rfl; simp [hmask, hset] at hy
    exact ⟨fun i hmask hset => by rw [hbits i (hne i hmask hset), hx.kept i hmask hset], fun i hi hmask hset => by
      rw [hflag]; exact hx.flagged i (by have := hne i hmask hset; omega) hmask hset⟩
  rw [Pkg.gateStep, hrom, hearly]
  cases hmask : bit v (16 + n)
  case false => exact other x (.inl hmask) (fun _ _ => rfl) rfl
  cases hset : bit v n
  case true =>
    exact ⟨fun i hm hs => by rw [← hx.kept i hm hs]; exact x.rb_wb_ne _ _ _ hkey, fun _ _ _ _ => x.rb_wb_same _ _ (by decide)⟩
  cases x.rb a n && held n
  case false =>
    exact other _ (.inr hset) (fun i hi => (x.rb_wb a a i false hn).trans (if_neg (by simp [hi]))) (x.rb_wb_ne _ _ _ hkey.symm)
  case true => exact other _ (.inr hset) (fun i _ => x.rb_wb_ne _ _ _ hgs.symm) (x.rb_wb_ne _ _ _ hkey'.symm)

theorem gateSteps_early (hgs : gs ≠ a) (hkey : a ≠ rKey 0) (hkey' : gs ≠ rKey 0) (hrom : g.romPhase = true)
    (hearly : ∀ i, early i = false) {n : Nat} (hn : n ≤ 32) : g.GatesEarly a n v (g.gateSteps a gs n held early v) := by
  induction n with
  | zero => exact ⟨fun _ _ _ => rfl, fun i hi => absurd hi (Nat.not_lt_zero i)⟩
  | succ n ih => rw [gateSteps_succ]; exact (ih (by omega)).step (by omega) hgs hkey hkey' hrom (hearly n)
end

end Sys2Proof.Machine
end

section
/-! PROOFS. Writes of the gate registers of a die and of the hub (R382, R413). -/

namespace Sys2Proof.Machine

/-- The places of a die's first registers. -/
theorem rk_ne_rk {site o o' : Nat} (h : o ≠ o') : rk site o ≠ rk site o' := fun e => h (Nat.add_left_cancel e)

theorem rk_ne_hubR {site o o' : Nat} (ho : o < 0x1000) (ho' : 0x1000 ≤ o' ∧ o' < 0x100000) : rk site o ≠ hubR o' := by
  simp only [hubR, rk]; omega

/-- What a write of the gate register `a` leaves in package `k` after the ROM phase. -/
def Pack.GatesTook (s : Pack) (k : Nat) (v : W32) (a gs n : Nat) (held : Nat → Bool) (q : Pack) : Prop :=
  (∀ i, i < n → (q.g k).rb a i = if bit v (16 + i) then (bit v i || ((s.g k).rb a i && held i)) else (s.g k).rb a i) ∧
  (q.g k).rb gs 0 = ((s.g k).rb gs 0 || (List.range n).any (fun i => bit v (16 + i) && !bit v i && (s.g k).rb a i && held i)) ∧
  (∀ b, b ≠ a → b ≠ gs → (q.g k).rd b = (s.g k).rd b) ∧ q.mem = s.mem

/-- The same in the ROM phase, where no enable may be set early. -/
def Pack.GatesEarly (s : Pack) (k : Nat) (v : W32) (a n : Nat) (q : Pack) : Prop :=
  (∀ i, i < n → bit v (16 + i) = true → bit v i = true → (q.g k).rb a i = (s.g k).rb a i) ∧
  ((∃ i, i < n ∧ bit v (16 + i) = true ∧ bit v i = true) → (q.g k).rb (rKey 0) 22 = true) ∧ q.mem = s.mem

section
variable {s p : Pack} {k a gs n : Nat} {held early : Nat → Bool} {v : W32}
variable (hp : p.g k = (s.g k).gateWrite a gs n held early v) (hmem : p.mem = s.mem) (hgs : gs ≠ a) (hn : n ≤ 32)
include hp hmem hgs hn

theorem gatesTook_of_gateWrite (hrun : (s.g k).romPhase = false) : s.GatesTook k v a gs n held p := by
  have htaken : (s.g k).GatesTaken a gs n held v (p.g k) := by rw [hp, gateWrite_eq]; exact gateSteps_taken hgs hrun hn
  exact ⟨fun i hi => by rw [htaken.enables]; simp [hi], htaken.gref, htaken.rest, hmem⟩

theorem gatesEarly_of_gateWrite (hkey : a ≠ rKey 0) (hkey' : gs ≠ rKey 0) (hrom : (s.g k).romPhase = true)
    (hearly : ∀ i, early i = false) : s.GatesEarly k v a n p := by
  have hx : (s.g k).GatesEarly a n v (p.g k) := by
    rw [hp, gateWrite_eq]; exact gateSteps_early hgs hkey hkey' hrom hearly hn
  exact ⟨fun i _ => hx.kept i, fun ⟨i, hi, hmask, hset⟩ => hx.flagged i hi hmask hset, hmem⟩
end

section
variable {s : State} {k site j : Nat} {m : Master} {v : W32}

section
variable (hj : j < 4) (hw : Writable s.pack k m site (4 + 4 * j) .die (4 + 4 * j))
include hj hw

/-- What DIE_GATEU_WRITE leaves, by the package it leaves. -/
theorem leaves_dieGateuWrite {P : Pack → Prop}
    (hP : ∀ p : Pack, p.g k = (s.pack.g k).gateUWrite site j v → p.mem = s.pack.mem → P p) :
    Leaves (.dieGateuWrite k m site j v) s P := by
  refine leaves_of_write (h := fun g => g.gateUWrite site j v) (v := v) hw ?_ rfl rfl rfl ?_ hP
  · show execDieGateuWrite k m site j v s = _
    rw [execDieGateuWrite, Nat.mod_eq_of_lt hj]
  · interval_cases j <;> rfl

theorem leaves_dieGateuWrite_run (hrun : (s.pack.g k).romPhase = false) : Leaves (.dieGateuWrite k m site j v) s
    (s.pack.GatesTook k v (rGateU site j) (rGstat site) 16 (fun i => (s.pack.g k).unitHeld site (16 * j + i))) :=
  leaves_dieGateuWrite hj hw fun _ hg hmem => gatesTook_of_gateWrite hg hmem (rk_ne_rk (by omega)) (by decide) hrun

theorem leaves_dieGateuWrite_rom (hrom : (s.pack.g k).romPhase = true) :
    Leaves (.dieGateuWrite k m site j v) s (s.pack.GatesEarly k v (rGateU site j) 16) :=
  leaves_dieGateuWrite hj hw fun _ hg hmem => gatesEarly_of_gateWrite hg hmem (rk_ne_rk (by omega)) (by decide)
    (rk_ne_hubR (by omega) (by decide)) (rk_ne_hubR (by decide) (by decide)) hrom fun _ => rfl
end

section
variable (hrun : (s.pack.g k).romPhase = false)
include hrun

theorem leaves_dieGatecWrite (hw : Writable s.pack k m site 0x14 .die 0x14) : Leaves (.dieGatecWrite k m site v) s
    (s.pack.GatesTook k v (rGateC site) (rGstat site) 16 (fun c => (List.range 4).any (fun i => (s.pack.g k).unitOn site (4 * c + i)))) :=
  leaves_of_write (h := fun g => g.gateCWrite site v) hw rfl rfl rfl rfl rfl fun _ hg hmem =>
    gatesTook_of_gateWrite hg hmem (rk_ne_rk (by decide)) (by decide) hrun

theorem leaves_dieGatebWrite (hw : Writable s.pack k m site 0x18 .die 0x18) : Leaves (.dieGatebWrite k m site v) s
    (s.pack.GatesTook k v (rGateB site) (rGstat site) 7 (fun i => (s.pack.g k).gateBHeld site i)) :=
  leaves_of_write (h := fun g => g.gateBWrite site v) hw rfl rfl rfl rfl rfl fun _ hg hmem =>
    gatesTook_of_gateWrite hg hmem (rk_ne_rk (by decide)) (by decide) hrun

theorem leaves_hubGate0Write (hw : Writable s.pack k m 62 4 .hub 4) : Leaves (.hubGate0Write k m v) s
    (s.pack.GatesTook k v rGate0 (hubR 0) 6 (fun i => (s.pack.g k).gate0Held i)) :=
  leaves_of_write (h := fun g => g.gate0Write v) hw rfl rfl rfl rfl rfl fun _ hg hmem =>
    gatesTook_of_gateWrite hg hmem (rk_ne_rk (by decide)) (by decide) hrun

theorem leaves_hubGatesWrite (hw : Writable s.pack k m 62 8 .hub 8) : Leaves (.hubGatesWrite k m v) s
    (s.pack.GatesTook k v rGates (hubR 0) 12 (fun i => (s.pack.g k).stackHeld i)) :=
  leaves_of_write (h := fun g => g.gatesWrite v) hw rfl rfl rfl rfl rfl fun _ hg hmem =>
    gatesTook_of_gateWrite hg hmem (rk_ne_rk (by decide)) (by decide) hrun
end
end

end Sys2Proof.Machine
end

section
/-! PROOFS. DIE.KSHR (R386): a write of the Kennel shares is taken whole, or refused whole with CFGE, HELD or CONF. -/

namespace Sys2Proof.Machine

/-- The shares that a write names, one field for each region. -/
def kshrWord (v : W32) : W32 := mk32 (fld v 4 0 + at' (fld v 12 8) 8 + at' (fld v 20 16) 16 + at' (fld v 28 24) 24)

/-- No share is above a region's 16 units. -/
def KshrSmall (v : W32) : Prop := fld v 4 0 ≤ 16 ∧ fld v 12 8 ≤ 16 ∧ fld v 20 16 ≤ 16 ∧ fld v 28 24 ≤ 16

/-- KPOOL under the shares that a write names. -/
def Pkg.kshrPool (g : Pkg) (site : Nat) (v : W32) : Nat := kpoolOf (g.shareSum site (kshrWord v)) (g.rf rPipeSpill 8 0)

section
variable {g : Pkg} {site : Nat} {v : W32}

theorem kshrWrite_large (hsmall : ¬ KshrSmall v) : g.kshrWrite site v = g.wb (rGstat site) 3 true :=
  if_pos (by unfold KshrSmall at hsmall; omega)

section
variable (hsmall : KshrSmall v)
include hsmall

theorem kshrWrite_small : g.kshrWrite site v =
    if !g.calm ∨ g.anyHeld then g.wb (rGstat site) 2 true
    else if g.kshrPool site v < g.kcapSum 8 ∨ g.shareCovers site (kshrWord v) then g.wb (rGstat site) 1 true
    else (g.wr (rKshr site) (kshrWord v)).wf rKpool 18 0 (g.kshrPool site v) :=
  if_neg (by unfold KshrSmall at hsmall; omega)

theorem kshrWrite_engaged (h : g.calm = false ∨ g.anyHeld = true) : g.kshrWrite site v = g.wb (rGstat site) 2 true := by
  rw [kshrWrite_small hsmall, if_pos (by simpa using h)]

section
variable (hcalm : g.calm = true) (hheld : g.anyHeld = false)
include hcalm hheld

theorem kshrWrite_conflict (h : g.kshrPool site v < g.kcapSum 8 ∨ g.shareCovers site (kshrWord v) = true) :
    g.kshrWrite site v = g.wb (rGstat site) 1 true := by
  rw [kshrWrite_small hsmall, if_neg (by simp [hcalm, hheld]), if_pos h]

theorem kshrWrite_passes (hpool : g.kcapSum 8 ≤ g.kshrPool site v) (hcovers : g.shareCovers site (kshrWord v) = false) :
    g.kshrWrite site v = (g.wr (rKshr site) (kshrWord v)).wf rKpool 18 0 (g.kshrPool site v) := by
  rw [kshrWrite_small hsmall, if_neg (by simp [hcalm, hheld]), if_neg (by simp [hcovers]; omega)]
end
end
end

theorem rKshr_ne_rGstat (site : Nat) : rKshr site ≠ rGstat site := rk_ne_rk (by decide)

theorem rKshr_ne_rKpool (site : Nat) : rKshr site ≠ rKpool := rk_ne_hubR (by decide) (by decide)

theorem rGstat_ne_rKpool (site : Nat) : rGstat site ≠ rKpool := rk_ne_hubR (by decide) (by decide)

section
variable {s : State} {k site : Nat} {m : Master} {v : W32} (hw : Writable s.pack k m site 0x1C .die 0x1C)
include hw

/-- What DIE_KSHR_WRITE leaves, by the package it leaves. -/
theorem leaves_dieKshrWrite {P : Pack → Prop} {h : Pkg} (hkshr : (s.pack.g k).kshrWrite site v = h)
    (hP : ∀ p : Pack, p.g k = h → p.mem = s.pack.mem → P p) : Leaves (.dieKshrWrite k m site v) s P :=
  leaves_of_write (h := fun g => g.kshrWrite site v) hw rfl rfl rfl rfl rfl fun p hg => hP p (hg.trans hkshr)

/-- A refused write sets its bit of GSTAT and leaves the shares. -/
theorem leaves_dieKshrWrite_refused {i : Nat} (hi : i < 32)
    (hkshr : (s.pack.g k).kshrWrite site v = (s.pack.g k).wb (rGstat site) i true) :
    Leaves (.dieKshrWrite k m site v) s (fun q =>
      (q.g k).rb (rGstat site) i = true ∧ (q.g k).rd (rKshr site) = (s.pack.g k).rd (rKshr site) ∧ q.mem = s.pack.mem) := by
  refine leaves_dieKshrWrite hw hkshr fun p hg hmem => ⟨?_, ?_, hmem⟩
  · rw [hg, Pkg.rb_wb_same _ _ _ hi]
  · rw [hg, Pkg.rd_wb, if_neg (rKshr_ne_rGstat site)]

theorem leaves_dieKshrWrite_passes (hsmall : KshrSmall v) (hcalm : (s.pack.g k).calm = true) (hheld : (s.pack.g k).anyHeld = false)
    (hpool : (s.pack.g k).kcapSum 8 ≤ (s.pack.g k).kshrPool site v) (hcovers : (s.pack.g k).shareCovers site (kshrWord v) = false) :
    Leaves (.dieKshrWrite k m site v) s (fun q =>
      (q.g k).rd (rKshr site) = kshrWord v ∧ (q.g k).rf rKpool 18 0 = (s.pack.g k).kshrPool site v % 2 ^ 19 ∧
      (q.g k).rd (rGstat site) = (s.pack.g k).rd (rGstat site) ∧ q.mem = s.pack.mem) := by
  refine leaves_dieKshrWrite hw (kshrWrite_passes hsmall hcalm hheld hpool hcovers) fun p hg hmem => ⟨?shares, ?pool, ?stat, hmem⟩
  all_goals rw [hg]
  case shares => rw [Pkg.rd_wf, if_neg (rKshr_ne_rKpool site), Pkg.wr_rd_self]
  case pool => rw [Pkg.rf, Pkg.rd_wf, if_pos rfl, fld_setF_same _ _ (by decide) (by decide)]
  case stat => rw [Pkg.rd_wf, if_neg (rGstat_ne_rKpool site), Pkg.wr_rd_ne _ _ (rKshr_ne_rGstat site).symm]
end

end Sys2Proof.Machine
end

section
/-! PROOFS. States of pack ports (R292, R293, R301): whatever a port that goes DOWN sets off, no port of any package comes back into use. -/

namespace Sys2Proof.Machine

/-- A port in TRAIN, UP or FENCED. -/
def PortInUse (st : Nat) : Prop := 1 ≤ st ∧ st ≤ 3

/-- A port's state has stayed, or a port in use has gone to another such state or DOWN. -/
def PortLapse (st st' : Nat) : Prop := st' = st ∨ (PortInUse st ∧ 1 ≤ st' ∧ st' ≤ 4)

theorem PortLapse.trans {st st' st'' : Nat} (h : PortLapse st st') (h' : PortLapse st' st'') : PortLapse st st'' := by
  unfold PortLapse PortInUse at *; omega

theorem PortLapse.stays {st st' : Nat} (h : PortLapse st st') (hst : ¬ PortInUse st) : st' = st :=
  h.resolve_right fun hin => hst hin.1

/-- A port that is no longer in use is DOWN where it was. -/
theorem PortLapse.down {st st' : Nat} (h : PortLapse st st') (hst' : ¬ PortInUse st') :
    st' = if 1 ≤ st ∧ st ≤ 3 then 4 else st := by
  unfold PortLapse PortInUse at *; split <;> omega

/-- Every port of the package has lapsed or stayed. -/
def Pkg.PortsLapse (g h : Pkg) : Prop := ∀ n, PortLapse (g.portState n) (h.portState n)

/-- Every port of every package has. -/
def Pack.PortsLapse (s p : Pack) : Prop := ∀ j, (s.g j).PortsLapse (p.g j)

theorem Pkg.PortsLapse.of_eq {g h : Pkg} (hstate : ∀ n, h.portState n = g.portState n) : g.PortsLapse h := fun n => .inl (hstate n)

theorem Pkg.PortsLapse.refl (g : Pkg) : g.PortsLapse g := .of_eq fun _ => rfl

theorem Pkg.PortsLapse.trans {g h i : Pkg} (hgh : g.PortsLapse h) (hhi : h.PortsLapse i) : g.PortsLapse i := fun n =>
  (hgh n).trans (hhi n)

theorem Pack.PortsLapse.refl (s : Pack) : s.PortsLapse s := fun _ => .refl _

theorem Pack.PortsLapse.trans {s p q : Pack} (hsp : s.PortsLapse p) (hpq : p.PortsLapse q) : s.PortsLapse q := fun j =>
  (hsp j).trans (hpq j)

theorem Pack.PortsLapse.on {s : Pack} {k : Nat} {f : Pkg → Pkg} (hf : (s.g k).PortsLapse (f (s.g k))) : s.PortsLapse (s.on k f) := by
  intro j
  by_cases hj : j = k
  · rw [hj, Pack.on_g_self]; exact hf
  · rw [Pack.on_g_ne _ _ hj]; exact .refl _

theorem Pack.PortsLapse.onMembers (s : Pack) (k : Nat) {f : Pkg → Pkg} (hf : ∀ g : Pkg, g.PortsLapse (f g)) :
    s.PortsLapse (s.onMembers k f) :=
  List.foldlRecOn _ _ (.refl s) fun _ hp _ _ => hp.trans (.on (hf _))

/-! Registers of the hub hold no port's state -/

theorem rPort_lt_hubR (n o : Nat) : rPort n 0 < hubR o := by
  have hsite : portSites.getD (n / 4) 0 ≤ 47 := by
    rw [List.getD_eq_getElem?_getD]
    cases h : portSites[n / 4]? with
    | none => exact Nat.zero_le _
    | some site => exact (by decide : ∀ x ∈ portSites, x ≤ 47) site (List.mem_of_getElem? h)
  simp only [rPort, hubR, rk]; omega

@[simp] theorem Pkg.wr_hubR_portState (g : Pkg) (o : Nat) (w : W32) (n : Nat) : (g.wr (hubR o) w).portState n = g.portState n :=
  congrArg (fld · 30 28) (g.wr_rd_ne w (rPort_lt_hubR n o).ne)

theorem Pkg.portState_of_regs {g h : Pkg} (hregs : h.regs = g.regs) (n : Nat) : h.portState n = g.portState n :=
  congrArg (fld · 30 28) (Pkg.rd_of_regs hregs _)

@[simp] theorem Pkg.setPhase_portState (g : Pkg) (p n : Nat) : (g.setPhase p).portState n = g.portState n := by
  unfold Pkg.setPhase
  dsimp only
  split <;> exact g.wr_hubR_portState ..

@[simp] theorem Pkg.setCause_portState (g : Pkg) (c n : Nat) : (g.setCause c).portState n = g.portState n := g.wr_hubR_portState ..

@[simp] theorem Pkg.logAt_portState (g : Pkg) (code site unit thr a0 a1 a2 n : Nat) :
    (g.logAt code site unit thr a0 a1 a2).portState n = g.portState n := by
  refine congrArg (fld · 30 28) (g.logAt_rd code site unit thr a0 a1 a2 ?_)
  have hne (o : Nat) : rPort n 0 ≠ hubR o := (rPort_lt_hubR n o).ne
  simp [rErrCtl, rErrHead, rErrLost, rPins, hne]

@[simp] theorem Pkg.failPkg_portState (g : Pkg) (n : Nat) : g.failPkg.portState n = g.portState n := by
  unfold Pkg.failPkg
  split
  · exact ((g.send _).wr_hubR_portState ..).trans (Pkg.portState_of_regs rfl n)
  · rfl

theorem Pkg.halt_lapses (g : Pkg) (cause : Nat) : g.PortsLapse (g.halt cause) := by
  refine .of_eq fun n => ?_
  unfold Pkg.halt
  split
  · rfl
  · simp [Pkg.logHub]

/-! A port's own registers -/

@[simp] theorem Pkg.linkClear_portState (g : Pkg) (m n : Nat) : (g.linkClear m).portState n = g.portState n :=
  (Pkg.wr_hubR_portState ..).trans (Pkg.portState_of_regs rfl n)

/-- Ports are told apart by their registers, so that no port numbers need be compared. -/
theorem Pkg.setState_portState (g : Pkg) (m n : Nat) {st : Nat} (hst : st < 8) :
    (g.wf (rPort m 0) 30 28 st).portState n = if rPort n 0 = rPort m 0 then st else g.portState n := by
  rw [Pkg.portState, Pkg.rf, Pkg.rd_wf]
  split
  · rw [fld_setF_same _ _ (by decide) (by decide)]; exact Nat.mod_eq_of_lt hst
  · rfl

theorem Pkg.setState_lapses (g : Pkg) (m : Nat) {st : Nat} (hst : 1 ≤ st ∧ st ≤ 4) (huse : PortInUse (g.portState m)) :
    g.PortsLapse (g.wf (rPort m 0) 30 28 st) := by
  intro n
  rw [g.setState_portState m n (by omega)]
  split
  case isTrue h =>
    have hsame : g.portState n = g.portState m := by rw [Pkg.portState, Pkg.portState, h]
    exact .inr ⟨by rw [hsame]; exact huse, hst⟩
  case isFalse h => exact .inl rfl

theorem Pkg.fencePort_lapses (g : Pkg) (m : Nat) : g.PortsLapse (g.fencePort m) := by
  unfold Pkg.fencePort
  split
  case isTrue hup =>
    have hclear : g.PortsLapse (g.linkClear m) := .of_eq (g.linkClear_portState m)
    refine hclear.trans (Pkg.setState_lapses _ m (by decide) ?_)
    rw [Pkg.linkClear_portState, hup, PortInUse]; decide
  case isFalse => exact .refl g

theorem Pkg.fenceAll_lapses (g : Pkg) : g.PortsLapse g.fenceAll :=
  List.foldlRecOn _ _ (.refl g) fun h hg n _ => hg.trans (h.fencePort_lapses n)

theorem Pkg.partition_lapses (g : Pkg) : g.PortsLapse g.partition := by
  unfold Pkg.partition
  split
  · exact .refl g
  · refine Pkg.PortsLapse.trans (.of_eq fun n => ?_) (Pkg.fenceAll_lapses _)
    refine (Pkg.portState_of_regs rfl n).trans ((Pkg.failPkg_portState ..).trans ((Pkg.logAt_portState ..).trans ?_))
    refine (Pkg.wr_hubR_portState ..).trans ?_
    rw [Pkg.setCause_portState, Pkg.setPhase_portState]

/-! What the loss of a position sets off (R220, R301, R302, R343) -/

section
variable (s : Pack) (k : Nat)

theorem Pack.startRevert_lapses (upto : Nat) : s.PortsLapse (s.startRevert k upto) := by
  refine .on (.of_eq fun n => (Pkg.portState_of_regs rfl n).trans ?_)
  exact (Pkg.wr_hubR_portState ..).trans (Pkg.wr_hubR_portState ..)

theorem Pack.restartRevert_lapses : s.PortsLapse (s.restartRevert k) := .on (.of_eq fun n => Pkg.portState_of_regs rfl n)

theorem Pack.haltAll_lapses (cause : Nat) : s.PortsLapse (s.haltAll k cause) := .onMembers s k fun g => g.halt_lapses cause

theorem Pack.revertTo_lapses (host : Bool) (upto : Nat) : s.PortsLapse (s.revertTo k host upto) := by
  unfold Pack.revertTo
  dsimp only
  split_ifs
  · exact .refl s
  · exact .on (.of_eq fun n => Pkg.portState_of_regs rfl n)
  · exact s.restartRevert_lapses k
  · exact .refl s
  · exact s.haltAll_lapses k 7
  · exact s.startRevert_lapses k upto
  · exact s.haltAll_lapses k 6

theorem Pack.succeed_lapses : s.PortsLapse (s.succeed k) := by
  unfold Pack.succeed
  dsimp only
  split_ifs
  · exact .on (Pkg.partition_lapses _)
  · refine Pack.PortsLapse.trans (.on (.of_eq fun n => (Pkg.portState_of_regs rfl n).trans ?_)) (Pack.revertTo_lapses _ k _ _)
    exact (Pkg.wr_hubR_portState ..).trans (Pkg.wr_hubR_portState ..)
  · exact .refl s

theorem Pack.declareLost_lapses (p : Nat) : s.PortsLapse (s.declareLost k p) := by
  unfold Pack.declareLost
  extract_lets g t h
  have hgone : s.PortsLapse t := .on (.of_eq fun n => Pkg.portState_of_regs rfl n)
  split_ifs
  · exact .refl s
  · exact hgone.trans (.on (Pkg.partition_lapses _))
  · exact hgone.trans (t.revertTo_lapses k _ _)
  · exact hgone.trans (t.restartRevert_lapses k)
  · exact hgone.trans (t.succeed_lapses k)
  · exact hgone

theorem Pack.takePortDown_lapses (pos port farPos farPort : Nat) : s.PortsLapse (s.takePortDown k pos port farPos farPort) := by
  unfold Pack.takePortDown
  extract_lets a b g links t u
  have hlinks : s.PortsLapse t := .on (.of_eq fun n => Pkg.portState_of_regs rfl n)
  have hnear : s.PortsLapse u := by
    refine hlinks.trans ?_
    show t.PortsLapse (if mget 0 links pos = 0 then t.declareLost k pos else t)
    split
    · exact t.declareLost_lapses k pos
    · exact .refl t
  split_ifs
  · exact .refl s
  · exact hnear.trans (u.declareLost_lapses k farPos)
  · exact hnear

theorem Pack.hostLinkLost_lapses : s.PortsLapse (s.hostLinkLost k) := by
  unfold Pack.hostLinkLost
  split
  · exact .onMembers s k fun g => .of_eq fun n => (Pkg.portState_of_regs rfl n).trans (g.wr_hubR_portState ..)
  · exact .refl s

/-! A port that goes DOWN -/

/-- The port itself, its transfers stopped, is DOWN and logged with its far end. -/
def Pkg.portFell (g : Pkg) (n : Nat) (beats : Bool) (far : Nat × Nat) : Pkg :=
  (((g.linkClear n).onLink n (fun x => { x with dwn := if beats then 16 else 0 })).wf (rPort n 0) 30 28 4).logAt 0x0210
    (portSites.getD (n / 4) 0) 0xFF 0xFF n far.1 far.2

theorem Pack.portDown_unused {n : Nat} (beats : Bool) (h : ¬ PortInUse ((s.g k).portState n)) : s.portDown k n beats = s :=
  if_pos (by unfold PortInUse at h; omega)

theorem Pack.portDown_inUse {n : Nat} (beats : Bool) (h : PortInUse ((s.g k).portState n)) :
    s.portDown k n beats =
      let far := (s.g k).farEnd n
      let t := s.on k (fun g => g.portFell n beats far)
      if (s.g k).assigned then t.takePortDown k (s.g k).pos n far.1 far.2 else t :=
  if_neg (by unfold PortInUse at h; omega)

end

theorem Pkg.portFell_lapses {g : Pkg} {n : Nat} (beats : Bool) (far : Nat × Nat) (huse : PortInUse (g.portState n)) :
    g.PortsLapse (g.portFell n beats far) := by
  have hclear (m : Nat) : ((g.linkClear n).onLink n (fun x => { x with dwn := if beats then 16 else 0 })).portState m = g.portState m :=
    (Pkg.portState_of_regs rfl m).trans (g.linkClear_portState n m)
  refine Pkg.PortsLapse.trans (.of_eq hclear) (Pkg.PortsLapse.trans (Pkg.setState_lapses _ n (by decide) ?_) (.of_eq fun m => Pkg.logAt_portState ..))
  rw [hclear]; exact huse

theorem Pkg.portFell_portState (g : Pkg) (n : Nat) (beats : Bool) (far : Nat × Nat) : (g.portFell n beats far).portState n = 4 := by
  rw [Pkg.portFell, Pkg.logAt_portState, Pkg.setState_portState _ _ _ (by decide), if_pos rfl]

section
variable (s : Pack) (k : Nat)

theorem Pack.portDown_lapses (n : Nat) (beats : Bool) : s.PortsLapse (s.portDown k n beats) := by
  by_cases huse : PortInUse ((s.g k).portState n)
  · have hfell : s.PortsLapse (s.on k (fun g => g.portFell n beats ((s.g k).farEnd n))) := .on (Pkg.portFell_lapses beats _ huse)
    rw [s.portDown_inUse k beats huse]
    dsimp only
    split
    · exact hfell.trans (Pack.takePortDown_lapses _ _ _ _ _ _)
    · exact hfell
  · rw [s.portDown_unused k beats huse]; exact .refl s

theorem Pack.portDown_portState (n : Nat) (beats : Bool) : ¬ PortInUse (((s.portDown k n beats).g k).portState n) := by
  by_cases huse : PortInUse ((s.g k).portState n)
  · have hfell : ((s.on k (fun g => g.portFell n beats ((s.g k).farEnd n))).g k).portState n = 4 := by
      rw [Pack.on_g_self, Pkg.portFell_portState]
    have hdown : ¬ PortInUse 4 := by unfold PortInUse; decide
    rw [s.portDown_inUse k beats huse]
    dsimp only
    split
    · rw [(Pack.takePortDown_lapses _ _ _ _ _ _ k n).stays (hfell ▸ hdown), hfell]; exact hdown
    · rw [hfell]; exact hdown
  · rw [s.portDown_unused k beats huse]; exact huse

/-- The first `m` ports of a package are taken DOWN. -/
def Pack.portsDown (m : Nat) : Pack := (List.range m).foldl (fun s n => s.portDown k n) s

theorem Pack.portsDown_lapses (m : Nat) : s.PortsLapse (s.portsDown k m) :=
  List.foldlRecOn _ _ (.refl s) fun p hp n _ => hp.trans (p.portDown_lapses k n true)

theorem Pack.portsDown_portState {m n : Nat} (hn : n < m) : ¬ PortInUse (((s.portsDown k m).g k).portState n) := by
  induction m with
  | zero => exact absurd hn (Nat.not_lt_zero n)
  | succ m ih =>
    have hlast : s.portsDown k (m + 1) = (s.portsDown k m).portDown k m := by simp [Pack.portsDown, List.range_succ]
    rw [hlast]
    by_cases hnm : n = m
    · rw [hnm]; exact Pack.portDown_portState _ k m true
    · have ih := ih (by omega)
      rw [((s.portsDown k m).portDown_lapses k m true k n).stays ih]
      exact ih
end

end Sys2Proof.Machine
end

section
/-! PROOFS. The test access port (R439 to R442): what shifts out, the pins as SAMPLE captures them, the ports that EXTEST takes. -/

namespace Sys2Proof.Machine

theorem testBit_b2n_add_zero (b : Bool) (n : Nat) : (b2n b + 2 * n).testBit 0 = b := by
  cases b <;> simp [b2n, Nat.testBit_zero]

theorem testBit_b2n_add_succ (b : Bool) (n i : Nat) : (b2n b + 2 * n).testBit (i + 1) = n.testBit i := by
  have hb : b2n b < 2 := by cases b <;> decide
  rw [Nat.testBit_succ, show (b2n b + 2 * n) / 2 = n by omega]

/-- The captured cells from cell 289 up: the six sideband pins, then free values. -/
def Pkg.sideband (g : Pkg) (k free : Nat) : Nat :=
  b2n (!g.hk.perst) + 2 * (b2n g.hk.pwrok + 2 * (b2n (!g.hk.leadLow) + 2 * (b2n (!(g.pinLow k).1) +
    2 * (b2n (!(g.pinLow k).2.1) + 2 * (b2n (!(g.pinLow k).2.2) + 2 * (free % 2 ^ 297 / 2 ^ 295))))))

theorem capture_eq (g : Pkg) (k free : Nat) : g.capture k free = 2 ^ 289 * g.sideband k free + free % 2 ^ 297 % 2 ^ 289 := by
  have hpow {m : Nat} (i : Nat) (hm : m = 289 + i) : 2 ^ m = 2 ^ 289 * 2 ^ i := by rw [hm, pow_add]
  unfold Pkg.capture Pkg.sideband
  dsimp only
  generalize free % 2 ^ 297 / 2 ^ 295 = high, free % 2 ^ 297 % 2 ^ 289 = low
  rw [hpow (m := 290) 1 rfl, hpow (m := 291) 2 rfl, hpow (m := 292) 3 rfl, hpow (m := 293) 4 rfl, hpow (m := 294) 5 rfl,
    hpow (m := 295) 6 rfl]
  generalize 2 ^ 289 = p
  ring

theorem testBit_capture (g : Pkg) (k free i : Nat) : (g.capture k free).testBit (289 + i) = (g.sideband k free).testBit i := by
  rw [capture_eq, Nat.testBit_two_pow_mul_add _ (Nat.mod_lt _ (Nat.two_pow_pos _)), if_neg (by omega), Nat.add_sub_cancel_left]

/-- Shifting in an instruction that loads the cells and shifts out `out`. -/
def Husk.shifted (h : Husk) (op out cells : Nat) : Husk := { (h.shiftIr op) with tapOut := out, tapCells := cells % 2 ^ 297 }

theorem Pkg.onHk_portState (g : Pkg) (f : Husk → Husk) (n : Nat) : (g.onHk f).portState n = g.portState n := rfl

section
variable (s : Pack) (k op cells : Nat)

theorem tapSample_locked (hlock : Config.dbgLock k = true) : s.tapSample k cells = s.on k Pkg.tapBypass := if_pos hlock

theorem tapSample_open (hlock : Config.dbgLock k = false) :
    s.tapSample k cells = s.draw.2.on k (fun g => g.onHk (fun h => h.shifted 2 (g.capture k s.draw.1) cells)) :=
  if_neg (by simp [hlock])

theorem tapExtest_bypass (h : Config.dbgLock k = true ∨ (s.g k).powered = false) : s.tapExtest k op cells = s.on k Pkg.tapBypass :=
  if_pos (by simpa using h)

theorem tapExtest_drives (hlock : Config.dbgLock k = false) (hpow : (s.g k).powered = true) :
    s.tapExtest k op cells = ((s.draw.2.portsDown k 32).hostLinkLost k).on k (fun g =>
      g.onHk (fun h => h.shifted op ((s.g k).capture k s.draw.1) cells)) :=
  if_neg (by simp [hlock, hpow])

/-- In P0 and P1 every pack port that is in use is DOWN once EXTEST drives the cells. -/
theorem tapExtest_portState (hlock : Config.dbgLock k = false) (hpow : (s.g k).powered = true) {n : Nat} (hn : n < 32) :
    ((s.tapExtest k op cells).g k).portState n =
      if 1 ≤ (s.g k).portState n ∧ (s.g k).portState n ≤ 3 then 4 else (s.g k).portState n := by
  have hhost := (s.draw.2.portsDown k 32).hostLinkLost_lapses k k n
  have hdown := s.draw.2.portsDown_portState k hn
  have hall := s.draw.2.portsDown_lapses k 32 k n
  rw [tapExtest_drives s k op cells hlock hpow, Pack.on_g_self, Pkg.onHk_portState, hhost.stays hdown]
  exact hall.down hdown
end

section
variable (s : State) (k cells : Nat)

/-- The pack once the TAP of package `k` has taken BYPASS. -/
def Pack.bypassed (s : Pack) (k : Nat) : Pack := s.on k (fun g => g.onHk (fun h => { h with tapIr := 0xFF, irOut := 1, tapOut := 0 }))

theorem gives_tapReset : Gives (.tapReset k) s (s.pack.on k (fun g => g.onHk (fun h => { h with tapIr := 1 }))) := rfl

theorem gives_bypass : Gives (.bypass k) s (s.pack.bypassed k) := rfl

theorem gives_idcode : Gives (.idcode k) s (s.pack.on k (fun g => g.onHk (fun h => { h with tapIr := 1, irOut := 1, tapOut := idcode k }))) :=
  rfl

theorem leaves_samplePreload :
    Leaves (.samplePreload k cells) s (fun q =>
      if Config.dbgLock k = true then q = s.pack.bypassed k
      else (q.g k).hk.tapIr = 2 ∧ (q.g k).hk.irOut = 1 ∧ (q.g k).hk.tapCells = cells % 2 ^ 297 ∧
        (q.g k).hk.tapOut.testBit 289 = (!(s.pack.g k).hk.perst) ∧ (q.g k).hk.tapOut.testBit 290 = (s.pack.g k).hk.pwrok ∧
        (q.g k).hk.tapOut.testBit 291 = (!(s.pack.g k).hk.leadLow) ∧ (q.g k).hk.tapOut.testBit 292 = (!((s.pack.g k).pinLow k).1) ∧
        (q.g k).hk.tapOut.testBit 293 = (!((s.pack.g k).pinLow k).2.1) ∧ (q.g k).hk.tapOut.testBit 294 = (!((s.pack.g k).pinLow k).2.2) ∧
        (q.g k).regs = (s.pack.g k).regs ∧ q.mem = s.pack.mem) := by
  refine ⟨s.pack.tapSample k cells, rfl, ?_⟩
  cases hlock : Config.dbgLock k
  case true => exact tapSample_locked s.pack k cells hlock
  case false =>
    rw [tapSample_open s.pack k cells hlock, Pack.on_g_self, Pack.draw_g]
    have hbit := testBit_capture (s.pack.g k) k s.pack.draw.1
    refine ⟨rfl, rfl, rfl, (hbit 0).trans ?_, (hbit 1).trans ?_, (hbit 2).trans ?_, (hbit 3).trans ?_, (hbit 4).trans ?_,
      (hbit 5).trans ?_, rfl, rfl⟩
    all_goals simp only [Pkg.sideband, testBit_b2n_add_zero, testBit_b2n_add_succ]

section
variable {c : Instr} {op : Nat} (hc : exec c s = .next (s.onPack (fun p => p.tapExtest k op cells)))
include hc

theorem gives_tapExtest_unpowered (hpow : (s.pack.g k).powered = false) : Gives c s (s.pack.bypassed k) :=
  gives_of_onPack hc (tapExtest_bypass s.pack k op cells (.inr hpow))

theorem leaves_tapExtest (hpow : (s.pack.g k).powered = true) :
    Leaves c s (fun q => if Config.dbgLock k = true then q = s.pack.bypassed k
      else (q.g k).hk.tapIr = op ∧ (q.g k).hk.irOut = 1 ∧ (q.g k).hk.tapCells = cells % 2 ^ 297 ∧
        (∀ n, n < 32 → (q.g k).portState n =
          if 1 ≤ (s.pack.g k).portState n ∧ (s.pack.g k).portState n ≤ 3 then 4 else (s.pack.g k).portState n)) := by
  refine ⟨s.pack.tapExtest k op cells, gives_of_onPack hc rfl, ?_⟩
  cases hlock : Config.dbgLock k
  case true => exact tapExtest_bypass s.pack k op cells (.inl hlock)
  case false =>
    have hhk : ((s.pack.tapExtest k op cells).g k).hk.tapIr = op ∧ ((s.pack.tapExtest k op cells).g k).hk.irOut = 1 ∧
        ((s.pack.tapExtest k op cells).g k).hk.tapCells = cells % 2 ^ 297 := by
      rw [tapExtest_drives s.pack k op cells hlock hpow, Pack.on_g_self]
      exact ⟨rfl, rfl, rfl⟩
    obtain ⟨hir, hout, hcells⟩ := hhk
    exact ⟨hir, hout, hcells, fun n => tapExtest_portState s.pack k op cells hlock hpow⟩
end
end

end Sys2Proof.Machine
end

section
/-! PROOFS. Gate registers, Kennel shares and the test access port (R382, R386, R413, R439 to R442). -/

namespace Sys2Proof.Machine

/-- Settles O58, clause by clause, from what each write and each instruction of the TAP leaves. -/
theorem gatesAndTestPort : Obligations.GatesAndTestPort := by
  unfold Obligations.GatesAndTestPort
  intro s k site j cells m v g took early w pool small low dumb lines
  refine ⟨fun hj hw => ⟨leaves_dieGateuWrite_run hj hw, leaves_dieGateuWrite_rom hj hw⟩, fun hw hrun => leaves_dieGatecWrite hrun hw,
    fun hw hrun => leaves_dieGatebWrite hrun hw, fun hw hrun => leaves_hubGate0Write hrun hw, fun hw hrun => leaves_hubGatesWrite hrun hw,
    fun hw => ⟨leaves_dieKshrWrite_passes hw, ?large, ?engaged, ?conflict⟩, gives_tapReset s k, gives_bypass s k, gives_idcode s k,
    leaves_samplePreload s k cells, ?unpowered, ?powered⟩
  case large => exact fun hsmall => leaves_dieKshrWrite_refused hw (by decide) (kshrWrite_large hsmall)
  case engaged => exact fun hsmall h => leaves_dieKshrWrite_refused hw (by decide) (kshrWrite_engaged hsmall h)
  case conflict =>
    exact fun hsmall hcalm hheld h => leaves_dieKshrWrite_refused hw (by decide) (kshrWrite_conflict hsmall hcalm hheld h)
  case unpowered =>
    exact fun hpow => ⟨gives_tapExtest_unpowered s k cells rfl hpow, gives_tapExtest_unpowered s k cells rfl hpow,
      gives_tapExtest_unpowered s k cells rfl hpow⟩
  case powered =>
    exact fun hpow => ⟨leaves_tapExtest s k cells rfl hpow, leaves_tapExtest s k cells rfl hpow, leaves_tapExtest s k cells rfl hpow⟩

end Sys2Proof.Machine
end

section
/-! PROOFS. What each operation does to memory: it leaves it as it is (`_mem`), or keeps its canonical form (`_wf`). In the order of the model. -/
set_option linter.unusedVariables false

namespace Sys2Proof.Machine

/-- Loops keep what each of their rounds keeps. -/
theorem foldl_mem {α : Type} {f : Pack → α → Pack} (hf : ∀ s x, (f s x).mem = s.mem) (l : List α) (s : Pack) : (l.foldl f s).mem = s.mem :=
  List.foldlRecOn l f (motive := fun p => p.mem = s.mem) rfl fun p h x _ => (hf p x).trans h

theorem foldl_wf {α : Type} {f : Pack → α → Pack} (hf : ∀ s x, Memory.wf s.mem = true → Memory.wf (f s x).mem = true) (l : List α)
    {s : Pack} (h : Memory.wf s.mem = true) : Memory.wf (l.foldl f s).mem = true :=
  List.foldlRecOn l f h fun s h x _ => hf s x h

@[simp] theorem Pack.store_wf (s : Pack) (l : Loc) (bs : List Byte) (h : Memory.wf s.mem = true) : Memory.wf (s.store l bs).mem = true :=
  memWrN_wf _ _ h

@[simp] theorem Pack.storeAt_wf (s : Pack) (k : Nat) (own : Option Nat) (a : Nat) (bs : List Byte) (h : Memory.wf s.mem = true) : Memory.wf
    (s.storeAt k own a bs).mem = true := by
  unfold Pack.storeAt
  split <;> simp [h]

@[simp] theorem Pack.leave_mem (s : Pack) (t : Tid) (nx : Next) : (s.leave t nx).mem = s.mem := by
  unfold Pack.leave; dsimp only; repeat' split
  all_goals simp

theorem issue_mem {op : Op} {t : Tid} {f : Fields} {body : Body} (hb : ∀ x s, (body x s).1.mem = s.mem) (s : Pack) :
    (issue op t f body s).mem = s.mem := by
  unfold issue
  dsimp only
  repeat' split
  all_goals simp [hb]

@[simp] theorem Pack.onTh_mem (s : Pack) (t : Tid) (h : Thread → Thread) : (s.onTh t h).mem = s.mem := rfl

@[simp] theorem Pack.look_mem (s : Pack) (t : Tid) : (s.look t).mem = s.mem := by
  fun_cases Pack.look <;> simp [*]

@[simp] theorem Pack.eccAt_mem (s : Pack) (w : Who) (l : Loc) (e : Ecc) : (s.eccAt w l e).mem = s.mem := by
  unfold Pack.eccAt
  split <;> simp

@[simp] theorem aluR_mem (t : Tid) (f : Fields) (op : Word → Word → Word) (x : Thread) (s : Pack) : (aluR t f op x s).1.mem = s.mem := rfl
@[simp] theorem aluI_mem (t : Tid) (f : Fields) (op : Word → Word → Word) (x : Thread) (s : Pack) : (aluI t f op x s).1.mem = s.mem := rfl

@[simp] theorem divBy_mem (t : Tid) (f : Fields) (op : Word → Word → Word) (y : Word) (x : Thread) (s : Pack) : (divBy t f op y x s).1.mem
    = s.mem := by
  unfold divBy
  split <;> simp

@[simp] theorem divR_mem (t : Tid) (f : Fields) (op : Word → Word → Word) (x : Thread) (s : Pack) : (divR t f op x s).1.mem = s.mem := by
  simp [divR]

@[simp] theorem divI_mem (t : Tid) (f : Fields) (op : Word → Word → Word) (x : Thread) (s : Pack) : (divI t f op x s).1.mem = s.mem := by
  simp [divI]

@[simp] theorem movhiBody_mem (t : Tid) (f : Fields) (x : Thread) (s : Pack) : (movhiBody t f x s).1.mem = s.mem := rfl
@[simp] theorem cmpBody_mem (t : Tid) (f : Fields) (y : Thread → Word) (x : Thread) (s : Pack) : (cmpBody t f y x s).1.mem = s.mem := rfl
@[simp] theorem plogBody_mem (t : Tid) (f : Fields) (x : Thread) (s : Pack) : (plogBody t f x s).1.mem = s.mem := rfl
@[simp] theorem brBody_mem (f : Fields) (x : Thread) (s : Pack) : (brBody f x s).1.mem = s.mem := rfl
@[simp] theorem callBody_mem (t : Tid) (f : Fields) (x : Thread) (s : Pack) : (callBody t f x s).1.mem = s.mem := rfl
@[simp] theorem jrBody_mem (f : Fields) (x : Thread) (s : Pack) : (jrBody f x s).1.mem = s.mem := rfl

@[simp] theorem ldBody_mem (t : Tid) (f : Fields) (x : Thread) (s : Pack) : (ldBody t f x s).1.mem = s.mem := by
  fun_cases ldBody <;> simp [*]

@[simp] theorem stBody_mem (t : Tid) (f : Fields) (x : Thread) (s : Pack) : (stBody t f x s).1.mem = s.mem := by
  fun_cases stBody <;> simp [*]

@[simp] theorem tdsetBody_mem (t : Tid) (f : Fields) (x : Thread) (s : Pack) : (tdsetBody t f x s).1.mem = s.mem := rfl
@[simp] theorem tdgetBody_mem (t : Tid) (f : Fields) (x : Thread) (s : Pack) : (tdgetBody t f x s).1.mem = s.mem := rfl

@[simp] theorem tdadvBody_mem (t : Tid) (f : Fields) (x : Thread) (s : Pack) : (tdadvBody t f x s).1.mem = s.mem := by
  fun_cases tdadvBody <;> simp [*]

@[simp] theorem cvtsBody_mem (t : Tid) (f : Fields) (x : Thread) (s : Pack) : (cvtsBody t f x s).1.mem = s.mem := rfl
@[simp] theorem xgetBody_mem (t : Tid) (f : Fields) (v : Thread → Word) (x : Thread) (s : Pack) : (xgetBody t f v x s).1.mem = s.mem := rfl
@[simp] theorem xclrBody_mem (t : Tid) (x : Thread) (s : Pack) : (xclrBody t x s).1.mem = s.mem := rfl
@[simp] theorem xretBody_mem (t : Tid) (f : Fields) (x : Thread) (s : Pack) : (xretBody t f x s).1.mem = s.mem := rfl

@[simp] theorem fenceBody_mem (t : Tid) (op : Op) (x : Thread) (s : Pack) : (fenceBody t op x s).1.mem = s.mem := by
  fun_cases fenceBody <;> simp [*]

@[simp] theorem tgiveBody_mem (t : Tid) (f : Fields) (x : Thread) (s : Pack) : (tgiveBody t f x s).1.mem = s.mem := by
  unfold tgiveBody; dsimp only; repeat' split
  all_goals simp

@[simp] theorem Pack.dropWaits_mem (s : Pack) (k n : Nat) : (s.dropWaits k n).mem = s.mem := rfl
@[simp] theorem Pack.endTimer_mem (s : Pack) (k n : Nat) : (s.endTimer k n).mem = s.mem := rfl

@[simp] theorem takeBody_mem (t : Tid) (f : Fields) (take : Bool) (x : Thread) (s : Pack) : (takeBody t f take x s).1.mem = s.mem := by
  unfold takeBody; dsimp only; repeat' split
  all_goals simp

@[simp] theorem tmallocBody_mem (t : Tid) (f : Fields) (x : Thread) (s : Pack) : (tmallocBody t f x s).1.mem = s.mem := by
  fun_cases tmallocBody <;> simp [*]

@[simp] theorem tmsetBody_mem (t : Tid) (f : Fields) (x : Thread) (s : Pack) : (tmsetBody t f x s).1.mem = s.mem := by
  fun_cases tmsetBody <;> simp [*]

@[simp] theorem tmfreeBody_mem (t : Tid) (f : Fields) (x : Thread) (s : Pack) : (tmfreeBody t f x s).1.mem = s.mem := by
  fun_cases tmfreeBody <;> simp [*]

@[simp] theorem randBody_mem (t : Tid) (f : Fields) (x : Thread) (s : Pack) : (randBody t f x s).1.mem = s.mem := by
  unfold randBody; dsimp only; repeat' split
  all_goals simp

@[simp] theorem Pack.hand_mem (s : Pack) (r : OpRec) : (s.hand r).1.mem = s.mem := by
  unfold Pack.hand
  dsimp only
  split <;> simp

@[simp] theorem mmaBody_mem (t : Tid) (f : Fields) (x : Thread) (s : Pack) : (mmaBody t f x s).1.mem = s.mem := by
  unfold mmaBody
  split <;> simp

@[simp] theorem mmbBody_mem (t : Tid) (f : Fields) (x : Thread) (s : Pack) : (mmbBody t f x s).1.mem = s.mem := by
  unfold mmbBody
  split <;> simp

@[simp] theorem epiBody_mem (t : Tid) (f : Fields) (x : Thread) (s : Pack) : (epiBody t f x s).1.mem = s.mem := by
  unfold epiBody
  dsimp only
  split <;> simp

@[simp] theorem eltBody_mem (op : Op) (t : Tid) (f : Fields) (x : Thread) (s : Pack) : (eltBody op t f x s).1.mem = s.mem := by
  unfold eltBody
  dsimp only
  split <;> simp

@[simp] theorem Pack.wrOut_wf (s : Pack) (t : Tid) (a : Nat) (bs : List Byte) (h : Memory.wf s.mem = true) : Memory.wf (s.wrOut t a bs).mem
    = true := by
  fun_cases Pack.wrOut <;> simp [*]

@[simp] theorem Pack.wrView_wf (s : Pack) (t : Tid) (d : Tile) (codes exps : List (List Nat)) (h : Memory.wf s.mem = true) : Memory.wf
    (s.wrView t d codes exps).mem = true := by
  unfold Pack.wrView
  grind [foldl_wf, Pack.on_mem, Pack.draw_mem, Pack.put_mem, Pack.on_mem, Pack.wrOut_wf]

@[simp] theorem Pack.convOut_wf (s : Pack) (t : Tid) (d : Tile) (vs : List (List Val)) (pre sr : Bool) (dr : Option Draw)
    (h : Memory.wf s.mem = true) : Memory.wf (s.convOut t d vs pre sr dr).1.mem = true := by
  unfold Pack.convOut
  split <;> simp [h]

@[simp] theorem Pack.wrWord_wf (s : Pack) (t : Tid) (a : Nat) (v : W32) (h : Memory.wf s.mem = true) : Memory.wf (s.wrWord t a v).mem =
    true := by
  simp [Pack.wrWord, h]

@[simp] theorem Pack.runMma_mem (s : Pack) (r : OpRec) : (s.runMma r).mem = s.mem := by
  unfold Pack.runMma
  split <;> simp

@[simp] theorem Pack.runEpi_wf (s : Pack) (r : OpRec) (h : Memory.wf s.mem = true) : Memory.wf (s.runEpi r).mem = true := by
  unfold Pack.runEpi
  grind [Pack.convOut_wf, Pack.on_mem, Pack.wrWord_wf]

@[simp] theorem Pack.orFlags_wf (s : Pack) (t : Tid) (a : Nat) (f : Flg) (h : Memory.wf s.mem = true) : Memory.wf (s.orFlags t a f).mem =
    true := by
  unfold Pack.orFlags
  split <;> simp [h]

@[simp] theorem Pack.runElt_wf (s : Pack) (r : OpRec) (h : Memory.wf s.mem = true) : Memory.wf (s.runElt r).mem = true := by
  simp [Pack.runElt, h]

@[simp] theorem randtBody_mem (t : Tid) (f : Fields) (x : Thread) (s : Pack) : (randtBody t f x s).1.mem = s.mem := by
  unfold randtBody; dsimp only; repeat' split
  all_goals simp

@[simp] theorem Pack.runRandt_wf (s : Pack) (r : OpRec) (h : Memory.wf s.mem = true) : Memory.wf (s.runRandt r).mem = true := by
  unfold Pack.runRandt
  dsimp only
  split <;> simp [h]

@[simp] theorem Pack.releaseT_mem (s : Pack) (t : Tid) (pd : Nat) (b : Bool) : (s.releaseT t pd b).mem = s.mem := rfl
@[simp] theorem Pack.leaveLines_mem (s : Pack) (t : Tid) : (s.leaveLines t).mem = s.mem := rfl

@[simp] theorem Pack.faultAt_mem (s : Pack) (t : Tid) (pc : BitVec 16) (cause : Nat) (addr : Option Word) : (s.faultAt t pc cause addr).mem
    = s.mem :=
  by

  unfold Pack.faultAt; dsimp only; repeat' split
  all_goals simp

@[simp] theorem Pack.all_mem (s : Pack) (f : Nat → Pkg → Pkg) : (s.all f).mem = s.mem := rfl

theorem Pack.spendCredit_mem {s : Pack} {r : OpRec} {p : Pack} (hp : s.spendCredit r = some p) : p.mem = s.mem := by
  unfold Pack.spendCredit at hp
  grind [Pack.on_mem]

@[simp] theorem Pack.pushWaiters_mem (s : Pack) (k site u : Nat) : (s.pushWaiters k site u).mem = s.mem := by
  unfold Pack.pushWaiters; dsimp only
  refine foldl_mem (fun s x => ?_) _ _
  all_goals (repeat' split)
  all_goals simp [*]

@[simp] theorem Pack.giveCredits_mem (s : Pack) (t : Tid) (pos q n : Nat) : (s.giveCredits t pos q n).mem = s.mem := by
  simp [Pack.giveCredits]

@[simp] theorem Pack.endQueueWaits_mem (s : Pack) (k q cause : Nat) : (s.endQueueWaits k q cause).mem = s.mem := by
  unfold Pack.endQueueWaits
  grind [foldl_mem, Pack.on_mem, Pack.draw_mem, Pack.put_mem, Pack.on_mem, Pack.faultAt_mem]

@[simp] theorem Pack.clearCredits_mem (s : Pack) (k q : Nat) : (s.clearCredits k q).mem = s.mem := rfl

@[simp] theorem Pack.integrity_mem (s : Pack) (k site q : Nat) (idx : Bool) (at' : Nat) : (s.integrity k site q idx at').mem = s.mem := by
  simp [Pack.integrity]

@[simp] theorem Pack.moveIx_mem (s : Pack) (k site q upset : Nat) (x : Ix) : (s.moveIx k site q upset x).mem = s.mem := by
  unfold Pack.moveIx
  dsimp only
  split <;> simp

@[simp] theorem Pack.ringWrite_wf (s : Pack) (k site q : Nat) (src : List Byte) (n i : Nat) (h : Memory.wf s.mem = true) :
    Memory.wf (s.ringWrite k site q src n i).mem = true := by
  induction n generalizing s src i with
  | zero => exact h
  | succ n ih => exact ih _ _ _ (Pack.store_wf _ _ _ h)

@[simp] theorem Pack.inflow_mem (s : Pack) (k kind from' n : Nat) : (s.inflow k kind from' n).mem = s.mem := by
  unfold Pack.inflow
  split <;> simp

@[simp] theorem Pack.serveReq_wf (s : Pack) (k site q upset : Nat) (ecc : Ecc) (x : QReq) (h : Memory.wf s.mem = true) : Memory.wf
    (s.serveReq k site q upset ecc x).1.mem = true := by
  unfold Pack.serveReq
  grind [foldl_wf, Pack.on_mem, Pack.draw_mem, Pack.put_mem, Pack.inflow_mem, Pack.faultAt_mem, Pack.on_mem, Pack.eccAt_mem,
    Pack.ringWrite_wf, Pack.moveIx_mem, Pack.draw_mem, Pack.releaseT_mem, Pack.integrity_mem, Pack.store_wf, Pack.giveCredits_mem]

@[simp] theorem Pack.servePass_wf (k site q upset : Nat) (ecc : Ecc) (xs : List QReq) (s : Pack) (held : List Tid) (pop take : Bool)
    (h : Memory.wf s.mem = true) : Memory.wf (Pack.servePass k site q upset ecc xs s held pop take).mem = true := by
  induction xs generalizing s upset ecc held pop take with
  | nil => exact h
  | cons x xs ih =>
    unfold Pack.servePass
    dsimp only
    repeat' split
    all_goals exact ih _ _ _ _ _ _ (by simp [h])

@[simp] theorem Pack.serveQueue_wf (s : Pack) (k site q upset : Nat) (ecc : Ecc) (h : Memory.wf s.mem = true) : Memory.wf
    (s.serveQueue k site q upset ecc).mem = true := by
  simp [Pack.serveQueue, h]

@[simp] theorem Pack.sendReq_mem (s : Pack) (pk hs q n : Nat) (r : OpRec) : (s.sendReq pk hs q n r).mem = s.mem := rfl

@[simp] theorem qBody_mem (op : Op) (t : Tid) (f : Fields) (n : Nat) (vals : Thread → List Word) (after : Nat → Nat → Next) (x : Thread)
    (s : Pack) : (qBody op t f n vals after x s).1.mem = s.mem := by
  fun_cases qBody <;> simp [*]

@[simp] theorem qpushBody_mem (t : Tid) (f : Fields) (x : Thread) (s : Pack) : (qpushBody t f x s).1.mem = s.mem := by
  unfold qpushBody; dsimp only; repeat' split
  all_goals simp

@[simp] theorem qpopBody_mem (t : Tid) (f : Fields) (x : Thread) (s : Pack) : (qpopBody t f x s).1.mem = s.mem := by
  fun_cases qpopBody <;> simp [*]

@[simp] theorem ctakeBody_mem (t : Tid) (f : Fields) (x : Thread) (s : Pack) : (ctakeBody t f x s).1.mem = s.mem := by
  fun_cases ctakeBody <;> simp [*]

@[simp] theorem Pack.door_mem (s : Pack) (k site q op n upset : Nat) : (s.door k site q op n upset).mem = s.mem := by
  unfold Pack.door; dsimp only; repeat' split
  all_goals simp

@[simp] theorem Pack.qCfgWrite_mem (s : Pack) (k site q : Nat) (v : W32) : (s.qCfgWrite k site q v).mem = s.mem := by
  unfold Pack.qCfgWrite; dsimp only; repeat' split
  all_goals simp

@[simp] theorem Pack.qSeal_mem (s : Pack) (k site q next : Nat) : (s.qSeal k site q next).mem = s.mem := by simp [Pack.qSeal]

@[simp] theorem Pack.qFlush_mem (s : Pack) (k site q : Nat) : (s.qFlush k site q).mem = s.mem := by simp [Pack.qFlush]

@[simp] theorem Pack.qRevert_mem (s : Pack) (k site q : Nat) : (s.qRevert k site q).mem = s.mem := by
  unfold Pack.qRevert
  dsimp only
  split <;> simp

@[simp] theorem kreserveBody_mem (t : Tid) (f : Fields) (x : Thread) (s : Pack) : (kreserveBody t f x s).1.mem = s.mem := by
  unfold kreserveBody; dsimp only; repeat' split
  all_goals simp

@[simp] theorem kfreeBody_mem (t : Tid) (f : Fields) (x : Thread) (s : Pack) : (kfreeBody t f x s).1.mem = s.mem := by
  fun_cases kfreeBody <;> simp [*]

@[simp] theorem kstashBody_mem (t : Tid) (f : Fields) (x : Thread) (s : Pack) : (kstashBody t f x s).1.mem = s.mem := by
  unfold kstashBody; dsimp only; repeat' split
  all_goals simp

@[simp] theorem kfetchBody_mem (t : Tid) (f : Fields) (x : Thread) (s : Pack) : (kfetchBody t f x s).1.mem = s.mem := by
  fun_cases kfetchBody <;> simp [*]

@[simp] theorem Pack.runKstash_mem (s : Pack) (r : OpRec) : (s.runKstash r).mem = s.mem := by
  fun_cases Pack.runKstash <;> simp [*]

@[simp] theorem Pack.kRead_mem (s : Pack) (k mbid off n : Nat) : (s.kRead k mbid off n).2.mem = s.mem := rfl

@[simp] theorem Pack.runKfetch_wf (s : Pack) (r : OpRec) (h : Memory.wf s.mem = true) : Memory.wf (s.runKfetch r).mem = true := by
  unfold Pack.runKfetch; dsimp only; repeat' split
  all_goals simp [h]

@[simp] theorem Pack.modeWrite_mem (s : Pack) (k : Nat) (v : W32) : (s.modeWrite k v).mem = s.mem := by
  unfold Pack.modeWrite; dsimp only; repeat' split
  all_goals simp

@[simp] theorem Pack.digest_wf (s : Pack) (k t n r plane b : Nat) (h : Memory.wf s.mem = true) : Memory.wf (s.digest k t n r plane b).mem =
    true := by
  simp [Pack.digest, h]

@[simp] theorem Pack.digestPlane_wf (s : Pack) (k t n r plane : Nat) (h : Memory.wf s.mem = true) : Memory.wf
    (s.digestPlane k t n r plane).mem = true := by
  unfold Pack.digestPlane
  grind [foldl_wf, Pack.on_mem, Pack.draw_mem, Pack.put_mem, Pack.digest_wf]

@[simp] theorem Pack.wrPlaneTile_wf (s : Pack) (k t n r plane row col : Nat) (cs : List Nat) (h : Memory.wf s.mem = true) : Memory.wf
    (s.wrPlaneTile k t n r plane row col cs).mem = true := by
  unfold Pack.wrPlaneTile
  grind [foldl_wf, Pack.on_mem, Pack.draw_mem, Pack.put_mem, Pack.store_wf, Pack.digest_wf]

@[simp] theorem Pack.shardReads_mem (s : Pack) (k t n r : Nat) (us : List Upset) : (s.shardReads k t n r us).mem = s.mem := by
  unfold Pack.shardReads
  grind [foldl_mem, Pack.on_mem, Pack.draw_mem, Pack.put_mem, Pack.on_mem, Pack.eccAt_mem]

@[simp] theorem Pack.applyTile_wf (s : Pack) (k t n r row col : Nat) (g16 : List Nat) (cnt : Nat) (norm : Bool)
    (h : Memory.wf s.mem = true) : Memory.wf (s.applyTile k t n r row col g16 cnt norm).mem = true := by
  unfold Pack.applyTile
  grind [Pack.on_mem, Pack.wrPlaneTile_wf]

@[simp] theorem Pack.slotAdd_wf (s : Pack) (k t n r row col ord : Nat) (data : List Nat) (h : Memory.wf s.mem = true) : Memory.wf
    (s.slotAdd k t n r row col ord data).mem = true := by
  fun_cases Pack.slotAdd <;> simp [*]

@[simp] theorem Pack.takeRec_wf (s : Pack) (k t n r row col ord : Nat) (data : List Nat) (cnt : Nat) (h : Memory.wf s.mem = true) :
    Memory.wf (s.takeRec k t n r row col ord data cnt).mem = true :=
  by

  unfold Pack.takeRec; dsimp only; repeat' split
  all_goals simp [h]

@[simp] theorem Pack.takeHeld_wf (k t n r row col m : Nat) (s : Pack) (h : Memory.wf s.mem = true) :
    Memory.wf (Pack.takeHeld k t n r row col m s).mem = true := by
  induction m generalizing s with
  | zero => exact h
  | succ m ih =>
    unfold Pack.takeHeld
    dsimp only
    repeat' split
    all_goals simp [h, ih]

theorem Pack.takeRed_wf {s : Pack} {k : Nat} {x : RedRec} {us : List Upset} {p : Pack} (hp : s.takeRed k x us = some p)
    (h : Memory.wf s.mem = true) : Memory.wf p.mem = true := by
  unfold Pack.takeRed at hp
  dsimp only at hp
  repeat' split at hp
  all_goals cases hp <;> simp [h]

theorem Pack.redArrive_wf {s : Pack} {k : Nat} {x : RedRec} {us : List Upset} {p : Pack} (hp : s.redArrive k x us = some p)
    (h : Memory.wf s.mem = true) : Memory.wf p.mem = true := by
  unfold Pack.redArrive at hp
  dsimp only at hp
  repeat' split at hp
  case isTrue => exact Pack.takeRed_wf hp h
  all_goals cases hp <;> simp [h]

@[simp] theorem Pack.finishTile_wf (k t n r row col m : Nat) (s : Pack) (h : Memory.wf s.mem = true) :
    Memory.wf (Pack.finishTile k t n r row col m s).mem = true := by
  induction m generalizing s with
  | zero => exact h
  | succ m ih =>
    rw [Pack.finishTile]
    dsimp only
    split
    · exact h
    · exact ih _ (Pack.takeRec_wf _ _ _ _ _ _ _ _ _ _ (by simpa using h))

@[simp] theorem Pack.sendDigests_mem (s : Pack) (k t n : Nat) : (s.sendDigests k t n).mem = s.mem := by
  fun_cases Pack.sendDigests <;> simp [*]

@[simp] theorem Pack.takeEos_wf (s : Pack) (k : Nat) (m : EosMark) (us : List Upset) (h : Memory.wf s.mem = true) : Memory.wf
    (s.takeEos k m us).mem = true := by
  unfold Pack.takeEos
  grind [foldl_wf, Pack.on_mem, Pack.draw_mem, Pack.put_mem, Pack.on_mem, Pack.shardReads_mem, Pack.finishTile_wf, Pack.sendDigests_mem]

@[simp] theorem Pack.eosArrive_wf (s : Pack) (k : Nat) (m : EosMark) (us : List Upset) (h : Memory.wf s.mem = true) : Memory.wf
    (s.eosArrive k m us).mem = true := by
  fun_cases Pack.eosArrive <;> simp [*]

@[simp] theorem Pack.sweepPass1_mem (s : Pack) (k j : Nat) (us : List Upset) : (s.sweepPass1 k j us).mem = s.mem := by
  unfold Pack.sweepPass1
  grind [foldl_mem, Pack.on_mem, Pack.draw_mem, Pack.put_mem, Pack.shardReads_mem, Pack.on_mem]

@[simp] theorem Pack.sweepRun_wf (s : Pack) (k j : Nat) (us : List Upset) (h : Memory.wf s.mem = true) : Memory.wf (s.sweepRun k j us).mem
    = true := by
  unfold Pack.sweepRun
  grind [foldl_wf, Pack.on_mem, Pack.draw_mem, Pack.put_mem, Pack.shardReads_mem, Pack.applyTile_wf, Pack.sendDigests_mem, Pack.on_mem]

@[simp] theorem Pack.sweepPass2_wf (s : Pack) (k : Nat) (m : NormRes) (us : List Upset) (h : Memory.wf s.mem = true) : Memory.wf
    (s.sweepPass2 k m us).mem = true := by
  simp [Pack.sweepPass2, h]

@[simp] theorem Pack.lateRecs_wf (k : Nat) (rs : List RedRec) (s : Pack) (h : Memory.wf s.mem = true) :
    Memory.wf (Pack.lateRecs k rs s).mem = true := by
  induction rs generalizing s with
  | nil => exact h
  | cons x rs ih =>
    refine ih _ ?_
    split
    case h_1 hp => exact Pack.redArrive_wf hp h
    case h_2 => exact h

@[simp] theorem Pack.lateRounds_wf (k n : Nat) (s : Pack) (h : Memory.wf s.mem = true) : Memory.wf (Pack.lateRounds k n s).mem = true := by
  induction n generalizing s with
  | zero => exact h
  | succ n ih =>
    unfold Pack.lateRounds
    dsimp only
    split
    all_goals simp [h, ih]

@[simp] theorem Pack.thRetry_wf (s : Pack) (k : Nat) (h : Memory.wf s.mem = true) : Memory.wf (s.thRetry k).mem = true := by
  unfold Pack.thRetry
  grind [foldl_wf, Pack.on_mem, Pack.draw_mem, Pack.put_mem, Pack.takeHeld_wf, Pack.lateRounds_wf, Pack.eosArrive_wf, Pack.on_mem,
    Pack.sweepRun_wf]

@[simp] theorem Pack.copyBlock_wf (s : Pack) (k1 r1 k2 r2 t n plane b : Nat) (h : Memory.wf s.mem = true) : Memory.wf
    (s.copyBlock k1 r1 k2 r2 t n plane b).mem = true := by
  simp [Pack.copyBlock, h]

@[simp] theorem Pack.compare_wf (s : Pack) (k t n : Nat) (reps : List (Nat × Nat × List Nat)) (events : List (Nat × Nat))
    (h : Memory.wf s.mem = true) : Memory.wf (s.compare k t n reps events).mem = true := by
  unfold Pack.compare
  grind [foldl_wf, Pack.on_mem, Pack.draw_mem, Pack.put_mem, Pack.on_mem, Pack.copyBlock_wf]

@[simp] theorem Pack.replicaDigests_wf (s : Pack) (k t n r : Nat) (digs : List Nat) (events : List (Nat × Nat)) (mine : List Nat)
    (h : Memory.wf s.mem = true) : Memory.wf (s.replicaDigests k t n r digs events mine).mem = true :=
  by

  unfold Pack.replicaDigests; dsimp only; repeat' split
  all_goals simp [h]

@[simp] theorem Pack.tableRead_mem (s : Pack) (k j : Nat) (e : Ecc) : (s.tableRead k j e).mem = s.mem := by simp [Pack.tableRead]

@[simp] theorem Pack.schedStep_mem (s : Pack) (k j : Nat) (ue : Bool) : (s.schedStep k j ue).mem = s.mem := by
  unfold Pack.schedStep; dsimp only; repeat' split
  all_goals simp

@[simp] theorem Pack.schedArm_mem (s : Pack) (k j : Nat) : (s.schedArm k j).mem = s.mem := rfl

@[simp] theorem Pack.schedWrite_mem (s : Pack) (k j o : Nat) (v : W32) (ecc : Ecc) : (s.schedWrite k j o v ecc).mem = s.mem := by
  unfold Pack.schedWrite; dsimp only; repeat' split
  all_goals simp

@[simp] theorem Pack.tensPass_wf (s : Pack) (k t : Nat) (us : List Upset) (h : Memory.wf s.mem = true) : Memory.wf (s.tensPass k t us).mem
    = true :=
  by

  unfold Pack.tensPass
  extract_lets g r
  have hr : Memory.wf r.1.mem = true := by
    refine List.foldlRecOn _ _ (motive := fun a : Pack × Bool => Memory.wf a.1.mem = true) h fun a ha n _ => ?_
    refine List.foldlRecOn _ _ (motive := fun a : Pack × Bool => Memory.wf a.1.mem = true) ha fun a ha r _ => ?_
    dsimp only
    repeat' split
    case h_2.isFalse.isFalse => exact foldl_wf (fun s x h => by simp [h]) _ (by simpa using ha)
    all_goals simpa using ha
  repeat' split
  all_goals simpa using ‹_›

@[simp] theorem Pack.setSel_wf (s : Pack) (k t j ib v : Nat) (h : Memory.wf s.mem = true) : Memory.wf (s.setSel k t j ib v).mem = true := by
  simp [Pack.setSel, h]

@[simp] theorem Pack.mapSel_wf (s : Pack) (k : Nat) (f : Nat → Nat) (h : Memory.wf s.mem = true) : Memory.wf (s.mapSel k f).mem = true := by
  unfold Pack.mapSel
  grind [foldl_wf, Pack.on_mem, Pack.draw_mem, Pack.put_mem, Pack.setSel_wf]

@[simp] theorem Pack.parityCommit_wf (s : Pack) (k : Nat) (h : Memory.wf s.mem = true) : Memory.wf (s.parityCommit k).mem = true := by
  simp [Pack.parityCommit, h]

@[simp] theorem Pack.parityRevert_wf (s : Pack) (k : Nat) (h : Memory.wf s.mem = true) : Memory.wf (s.parityRevert k).mem = true := by
  simp [Pack.parityRevert, h]

@[simp] theorem Pack.parityDelta_wf (s : Pack) (k : Nat) (d : ParDelta) (h : Memory.wf s.mem = true) : Memory.wf (s.parityDelta k d).mem =
    true := by
  unfold Pack.parityDelta
  grind [foldl_wf, Pack.on_mem, Pack.draw_mem, Pack.put_mem, Pack.store_wf, Pack.setSel_wf]

@[simp] theorem Pack.sendDeltas_mem (s : Pack) (k : Nat) : (s.sendDeltas k).mem = s.mem := by
  unfold Pack.sendDeltas
  grind [foldl_mem, Pack.on_mem, Pack.draw_mem, Pack.put_mem]

@[simp] theorem Pack.parityBuild_wf (s : Pack) (k t j : Nat) (h : Memory.wf s.mem = true) : Memory.wf (s.parityBuild k t j).mem = true := by
  unfold Pack.parityBuild
  grind [foldl_wf, Pack.on_mem, Pack.draw_mem, Pack.put_mem, Pack.store_wf, Pack.setSel_wf, Pack.on_mem]

@[simp] theorem Pack.dqPump_wf (k n : Nat) (s : Pack) (h : Memory.wf s.mem = true) : Memory.wf (Pack.dqPump k n s).mem = true := by
  induction n generalizing s with
  | zero => exact h
  | succ n ih =>
    unfold Pack.dqPump
    dsimp only
    repeat' split
    all_goals simp [h, ih]

@[simp] theorem Pack.dqRun_wf (s : Pack) (k : Nat) (h : Memory.wf s.mem = true) : Memory.wf (s.dqRun k).mem = true := by
  simp [Pack.dqRun, h]

@[simp] theorem Pack.dqBlocks_wf (s : Pack) (k : Nat) (h : Memory.wf s.mem = true) : Memory.wf (s.dqBlocks k).mem = true := by
  simp [Pack.dqBlocks, h]

@[simp] theorem Pack.dqImages_wf (s : Pack) (k : Nat) (h : Memory.wf s.mem = true) : Memory.wf (s.dqImages k).mem = true := by
  simp [Pack.dqImages, h]

@[simp] theorem Pack.sealCut_wf (s : Pack) (k : Nat) (c : Option CommitMsg) (h : Memory.wf s.mem = true) : Memory.wf (s.sealCut k c).mem =
    true :=
  by

  unfold Pack.sealCut; dsimp only; repeat' split
  all_goals simp [h]

@[simp] theorem Pack.onMembers_mem (s : Pack) (k : Nat) (f : Pkg → Pkg) : (s.onMembers k f).mem = s.mem := by
  unfold Pack.onMembers
  grind [foldl_mem, Pack.on_mem, Pack.draw_mem, Pack.put_mem, Pack.on_mem]

@[simp] theorem Pack.haltAll_mem (s : Pack) (k cause : Nat) : (s.haltAll k cause).mem = s.mem := by simp [Pack.haltAll]

@[simp] theorem Pack.locallyReady_wf (s : Pack) (k : Nat) (h : Memory.wf s.mem = true) : Memory.wf (s.locallyReady k).mem = true := by
  unfold Pack.locallyReady; dsimp only; repeat' split
  all_goals simp [h]

@[simp] theorem Pack.takeSupplement_mem (s : Pack) (k : Nat) (m : Supplement) : (s.takeSupplement k m).mem = s.mem := by
  unfold Pack.takeSupplement
  dsimp only
  split <;> simp

@[simp] theorem Pack.trySeal_mem (s : Pack) (k : Nat) : (s.trySeal k).mem = s.mem := by
  unfold Pack.trySeal; dsimp only; repeat' split
  all_goals simp

@[simp] theorem Pack.takeReady_mem (s : Pack) (k : Nat) (m : ReadyMsg) : (s.takeReady k m).mem = s.mem := by
  fun_cases Pack.takeReady <;> simp [*]

@[simp] theorem Pack.sealReq_mem (s : Pack) (k : Nat) : (s.sealReq k).mem = s.mem := by
  unfold Pack.sealReq
  split <;> simp

@[simp] theorem Pack.flip_mem (s : Pack) (k t : Nat) : (s.flip k t).mem = s.mem := rfl

@[simp] theorem Pack.sendMember_mem (s : Pack) (k : Nat) : (s.sendMember k).mem = s.mem := by
  unfold Pack.sendMember
  dsimp only
  split <;> simp

@[simp] theorem Pack.sealApply_wf (s : Pack) (k : Nat) (ue : List Nat) (h : Memory.wf s.mem = true) : Memory.wf (s.sealApply k ue).mem =
    true := by
  unfold Pack.sealApply
  grind [foldl_wf, Pack.on_mem, Pack.draw_mem, Pack.put_mem, Pack.on_mem, Pack.flip_mem, Pack.parityCommit_wf, Pack.qSeal_mem,
    Pack.schedStep_mem, Pkg.wr_wf, Pack.dqRun_wf, Pack.sealCut_wf, Pack.thRetry_wf, Pack.sendMember_mem]

@[simp] theorem Pack.tryResume_mem (s : Pack) (k : Nat) : (s.tryResume k).mem = s.mem := by
  unfold Pack.tryResume
  dsimp only
  split <;> simp

@[simp] theorem Pack.sealResume_wf (s : Pack) (k : Nat) (h : Memory.wf s.mem = true) : Memory.wf (s.sealResume k).mem = true := by
  unfold Pack.sealResume
  grind [foldl_wf, Pack.on_mem, Pack.draw_mem, Pack.put_mem, Pack.on_mem, Pack.dqImages_wf, Pack.tryResume_mem]

@[simp] theorem Pack.sealCtl_wf (s : Pack) (k : Nat) (v : W32) (h : Memory.wf s.mem = true) : Memory.wf (s.sealCtl k v).mem = true := by
  unfold Pack.sealCtl; dsimp only; repeat' split
  all_goals simp [h]

@[simp] theorem Pack.hostLinkLost_mem (s : Pack) (k : Nat) : (s.hostLinkLost k).mem = s.mem := by
  unfold Pack.hostLinkLost
  split <;> simp

@[simp] theorem contribBody_mem (t : Tid) (f : Fields) (x : Thread) (s : Pack) : (contribBody t f x s).1.mem = s.mem := by
  have hspend (p : Pack) (r : OpRec) : ((p.spendCredit r).getD p).mem = p.mem := by
    cases h : p.spendCredit r with
    | none => rfl
    | some q => exact Pack.spendCredit_mem h
  unfold contribBody
  extract_lets g acc src mbid
  split
  · rfl
  · split
    · rfl
    · extract_lets sta r r' h
      split
      · split
        · exact (hspend _ _).trans (Pack.hand_mem _ _)
        · exact Pack.hand_mem _ _
      · split <;> rfl

@[simp] theorem Pack.contribTile_wf (s : Pack) (r : OpRec) (h : Memory.wf s.mem = true) : Memory.wf (s.contribTile r).2.2.mem = true := by
  unfold Pack.contribTile; dsimp only; repeat' split
  all_goals simp [h]

@[simp] theorem Pack.contribBack_mem (s : Pack) (r : OpRec) : (s.contribBack r).mem = s.mem := by
  fun_cases Pack.contribBack <;> simp [*]

@[simp] theorem Pack.runContrib_wf (s : Pack) (r : OpRec) (h : Memory.wf s.mem = true) : Memory.wf (s.runContrib r).mem = true := by
  unfold Pack.runContrib
  grind [Pack.on_mem, Pack.contribBack_mem, Pack.contribTile_wf, Pkg.rd_wf, Pack.store_wf, Pack.ringWrite_wf, Pack.moveIx_mem,
    Pack.inflow_mem]

@[simp] theorem gatherBody_mem (t : Tid) (f : Fields) (x : Thread) (s : Pack) : (gatherBody t f x s).1.mem = s.mem := by
  unfold gatherBody
  dsimp only
  split <;> simp

@[simp] theorem Pack.gatherEnd_wf (s : Pack) (k : Nat) (r : OpRec) (h : Memory.wf s.mem = true) : Memory.wf (s.gatherEnd k r).mem = true :=
    by
  unfold Pack.gatherEnd
  grind [foldl_wf, Pack.on_mem, Pack.draw_mem, Pack.put_mem, Pack.on_mem, Pack.thRetry_wf, Pack.look_mem]

@[simp] theorem Pack.gatherRequest_wf (s : Pack) (k i n : Nat) (h : Memory.wf s.mem = true) : Memory.wf (s.gatherRequest k i n).mem = true
    :=
  by

  unfold Pack.gatherRequest; dsimp only; repeat' split
  all_goals simp [h]

@[simp] theorem Pack.gatherReadsAt_mem (s : Pack) (w : Who) (xs : List GReq) (us : List Upset) : (s.gatherReadsAt w xs us).mem = s.mem := by
  unfold Pack.gatherReadsAt
  grind [foldl_mem, Pack.on_mem, Pack.draw_mem, Pack.put_mem, Pack.eccAt_mem]

@[simp] theorem Pack.gatherTile_wf (s : Pack) (k i j : Nat) (us : List Upset) (chk : Bool) (h : Memory.wf s.mem = true) : Memory.wf
    (s.gatherTile k i j us chk).mem = true := by
  unfold Pack.gatherTile
  grind [Pack.gatherEnd_wf, Pack.on_mem, Pack.gatherReadsAt_mem, Pack.convOut_wf, Pack.orFlags_wf]

@[simp] theorem Pack.releaseHead_mem (s : Pack) (k site q : Nat) : (s.releaseHead k site q).mem = s.mem := by simp [Pack.releaseHead]

@[simp] theorem Pack.freeOut_mem (k site q n : Nat) (s : Pack) : (Pack.freeOut k site q n s).mem = s.mem := by
  induction n generalizing s with
  | zero => rfl
  | succ n ih =>
    unfold Pack.freeOut
    dsimp only
    split
    all_goals simp [ih]

@[simp] theorem Pack.passHead_mem (s : Pack) (k site q : Nat) : (s.passHead k site q).mem = s.mem := by simp [Pack.passHead]

@[simp] theorem Pack.collSend_mem (s : Pack) (k site q : Nat) (ecc : Ecc) : (s.collSend k site q ecc).mem = s.mem := by
  fun_cases Pack.collSend <;> grind [foldl_mem, Pack.on_mem, Pack.draw_mem, Pack.put_mem, Pack.eccAt_mem, Pack.passHead_mem, Pack.on_mem,
    Pack.integrity_mem]

@[simp] theorem Pack.freeIn_mem (k site q n : Nat) (s : Pack) : (Pack.freeIn k site q n s).mem = s.mem := by
  induction n generalizing s with
  | zero => rfl
  | succ n ih =>
    unfold Pack.freeIn
    dsimp only
    split
    all_goals simp [ih]

@[simp] theorem Pack.freeWhere_mem (s : Pack) (k : Nat) (test : Inb → Bool) : (s.freeWhere k test).mem = s.mem := by
  unfold Pack.freeWhere
  grind [foldl_mem, Pack.on_mem, Pack.draw_mem, Pack.put_mem, Pack.on_mem, Pack.freeIn_mem]

@[simp] theorem Pack.closeInst_mem (s : Pack) (k j step t row col ord : Nat) : (s.closeInst k j step t row col ord).mem = s.mem := by
  unfold Pack.closeInst
  dsimp only
  split <;> simp

@[simp] theorem Pack.closeFull_mem (s : Pack) (k j : Nat) : (s.closeFull k j).mem = s.mem := by
  unfold Pack.closeFull
  grind [foldl_mem, Pack.on_mem, Pack.draw_mem, Pack.put_mem, Pack.closeInst_mem]

@[simp] theorem Pack.closeStep_mem (s : Pack) (k j late : Nat) : (s.closeStep k j late).mem = s.mem := by
  unfold Pack.closeStep
  grind [foldl_mem, Pack.on_mem, Pack.draw_mem, Pack.put_mem, Pack.closeInst_mem, Pack.on_mem]

@[simp] theorem Pack.lookMarks_mem (s : Pack) (k j : Nat) : (s.lookMarks k j).mem = s.mem := by
  fun_cases Pack.lookMarks <;> simp [*]

@[simp] theorem Pack.landEntry_wf (s : Pack) (k site upset : Nat) (w : Wire) (e data : List Byte) (h : Memory.wf s.mem = true) : Memory.wf
    (s.landEntry k site upset w e data).mem = true := by
  simp [Pack.landEntry, h]

@[simp] theorem Pack.arrive_wf (s : Pack) (k upset : Nat) (w : Wire) (e data : List Byte) (mark : Bool) (h : Memory.wf s.mem = true) :
    Memory.wf (s.arrive k upset w e data mark).mem = true := by
  fun_cases Pack.arrive <;> grind [foldl_wf, Pack.on_mem, Pack.draw_mem, Pack.put_mem, Pack.landEntry_wf, Pack.on_mem, Pack.freeWhere_mem,
    Pack.lookMarks_mem, Pack.put_mem, Pack.closeFull_mem]

@[simp] theorem Pack.inboundRecord_wf (s : Pack) (k i upset : Nat) (h : Memory.wf s.mem = true) : Memory.wf (s.inboundRecord k i upset).mem
    = true := by
  unfold Pack.inboundRecord
  split <;> simp [h]

@[simp] theorem Pack.markArrival_wf (s : Pack) (k i upset : Nat) (h : Memory.wf s.mem = true) : Memory.wf (s.markArrival k i upset).mem =
    true := by
  unfold Pack.markArrival
  split <;> simp [h]

@[simp] theorem Pack.bcastDelivery_wf (s : Pack) (k i upset : Nat) (h : Memory.wf s.mem = true) : Memory.wf (s.bcastDelivery k i upset).mem
    = true := by
  fun_cases Pack.bcastDelivery <;> simp [*]

@[simp] theorem Pack.deadline_mem (s : Pack) (k j : Nat) : (s.deadline k j).mem = s.mem := by
  unfold Pack.deadline; dsimp only; repeat' split
  all_goals simp

@[simp] theorem Pack.stepClose_mem (s : Pack) (k j : Nat) : (s.stepClose k j).mem = s.mem := by
  unfold Pack.stepClose; dsimp only; repeat' split
  all_goals simp

@[simp] theorem Pack.reducedRecord_wf (s : Pack) (k i : Nat) (us : List Upset) (h : Memory.wf s.mem = true) : Memory.wf
    (s.reducedRecord k i us).mem = true := by
  fun_cases Pack.reducedRecord <;> grind [foldl_wf, Pack.on_mem, Pack.draw_mem, Pack.put_mem, Pack.redArrive_wf, Pack.thRetry_wf,
    Pack.on_mem, Pack.freeWhere_mem]

@[simp] theorem Pack.eosMark_wf (s : Pack) (k i : Nat) (us : List Upset) (h : Memory.wf s.mem = true) : Memory.wf (s.eosMark k i us).mem =
    true := by
  fun_cases Pack.eosMark <;> simp [*]

@[simp] theorem Pack.parityArrive_wf (s : Pack) (k i : Nat) (h : Memory.wf s.mem = true) : Memory.wf (s.parityArrive k i).mem = true := by
  unfold Pack.parityArrive; dsimp only; repeat' split
  all_goals simp [h]

@[simp] theorem Pack.permLook_mem (s : Pack) (k : Nat) : (s.permLook k).mem = s.mem := by
  fun_cases Pack.permLook <;> simp [*]

@[simp] theorem Pack.permStart_mem (s : Pack) (k : Nat) : (s.permStart k).mem = s.mem := by
  unfold Pack.permStart; dsimp only; repeat' split
  all_goals simp

@[simp] theorem Pack.permBlock_wf (s : Pack) (k : Nat) (ecc : Ecc) (off : Nat) (lost : Bool) (h : Memory.wf s.mem = true) : Memory.wf
    (s.permBlock k ecc off lost).mem = true :=
  by

  unfold Pack.permBlock; dsimp only; repeat' split
  all_goals simp [h]

@[simp] theorem Pack.permBarrier_mem (s : Pack) (k p n : Nat) : (s.permBarrier k p n).mem = s.mem := by
  unfold Pack.permBarrier
  grind [foldl_mem, Pack.on_mem, Pack.draw_mem, Pack.put_mem, Pack.on_mem, Pack.permLook_mem]

@[simp] theorem Pack.skipFlit_mem (s : Pack) (f : Flit) : (s.skipFlit f).mem = s.mem := by
  unfold Pack.skipFlit
  split <;> simp

@[simp] theorem Pack.linkEcc_mem (s : Pack) (k site : Nat) (e : Ecc) : (s.linkEcc k site e).mem = s.mem := by
  unfold Pack.linkEcc
  split <;> simp

@[simp] theorem Pack.startRevert_mem (s : Pack) (k upto : Nat) : (s.startRevert k upto).mem = s.mem := rfl
@[simp] theorem Pack.restartRevert_mem (s : Pack) (k : Nat) : (s.restartRevert k).mem = s.mem := rfl

@[simp] theorem Pack.revertTo_mem (s : Pack) (k : Nat) (host : Bool) (upto : Nat) : (s.revertTo k host upto).mem = s.mem := by
  fun_cases Pack.revertTo <;> simp [*]

@[simp] theorem Pack.revertRequest_mem (s : Pack) (k : Nat) (host : Bool) : (s.revertRequest k host).mem = s.mem := by
  simp [Pack.revertRequest]

@[simp] theorem Pack.quiesce_mem (s : Pack) (k : Nat) : (s.quiesce k).mem = s.mem := by
  unfold Pack.quiesce
  grind [foldl_mem, Pack.on_mem, Pack.draw_mem, Pack.put_mem, Pack.contribBack_mem, Pack.all_mem, Pack.on_mem]

@[simp] theorem Pack.rebuildBlock_wf (s : Pack) (k t n r i b : Nat) (h : Memory.wf s.mem = true) : Memory.wf
    (s.rebuildBlock k t n r i b).1.mem = true := by
  fun_cases Pack.rebuildBlock <;> simp [*]

@[simp] theorem Pack.rebuildAll_wf (s : Pack) (k : Nat) (h : Memory.wf s.mem = true) : Memory.wf (s.rebuildAll k).1.mem = true := by
  refine List.foldlRecOn _ _ (motive := fun a : Pack × List Nat × Bool => Memory.wf a.1.mem = true) h fun a ha t _ => ?_
  refine List.foldlRecOn _ _ (motive := fun a : Pack × List Nat × Bool => Memory.wf a.1.mem = true) ha fun a ha n _ => ?_
  refine List.foldlRecOn _ _ (motive := fun a : Pack × List Nat × Bool => Memory.wf a.1.mem = true) ha fun a ha i _ => ?_
  refine List.foldlRecOn _ _ (motive := fun a : Pack × List Nat × Bool => Memory.wf a.1.mem = true) ha fun a ha b _ => ?_
  dsimp only
  split
  · exact Pack.rebuildBlock_wf _ _ _ _ _ _ _ ha
  · split <;> exact ha

@[simp] theorem Pack.rebuildParity_wf (s : Pack) (k : Nat) (h : Memory.wf s.mem = true) : Memory.wf (s.rebuildParity k).mem = true := by
  unfold Pack.rebuildParity
  grind [foldl_wf, Pack.on_mem, Pack.draw_mem, Pack.put_mem, Pack.parityBuild_wf]

@[simp] theorem Pack.repairs_wf (s : Pack) (k : Nat) (h : Memory.wf s.mem = true) : Memory.wf (s.repairs k).mem = true := by
  unfold Pack.repairs
  grind [foldl_wf, Pack.on_mem, Pack.draw_mem, Pack.put_mem, Pack.on_mem, Pack.parityBuild_wf, Pack.rebuildBlock_wf, Pack.haltAll_mem]

@[simp] theorem Pack.revertActions_wf (s : Pack) (k cause : Nat) (h : Memory.wf s.mem = true) : Memory.wf (s.revertActions k cause).mem =
    true := by
  unfold Pack.revertActions
  grind [foldl_wf, Pack.on_mem, Pack.draw_mem, Pack.put_mem, Pack.qRevert_mem, Pack.on_mem, Pack.parityRevert_wf, Pack.dqRun_wf,
    Pack.repairs_wf]

@[simp] theorem Pack.takeRevert_wf (s : Pack) (k step epoch : Nat) (h : Memory.wf s.mem = true) : Memory.wf (s.takeRevert k step epoch).mem
    = true :=
  by

  unfold Pack.takeRevert; dsimp only; repeat' split
  all_goals simp [h]

@[simp] theorem Pack.revertDone_mem (s : Pack) (k p step : Nat) : (s.revertDone k p step).mem = s.mem := by
  unfold Pack.revertDone
  dsimp only
  split <;> simp

@[simp] theorem Pack.reclaimDone_wf (s : Pack) (k p : Nat) (h : Memory.wf s.mem = true) : Memory.wf (s.reclaimDone k p).mem = true := by
  unfold Pack.reclaimDone
  grind [foldl_wf, Pack.on_mem, Pack.draw_mem, Pack.put_mem, Pack.on_mem, Pack.revertActions_wf]

@[simp] theorem Pack.reclaim_mem (s : Pack) (k step : Nat) : (s.reclaim k step).mem = s.mem := rfl

@[simp] theorem Pack.raisePort_mem (s : Pack) (k n : Nat) : (s.raisePort k n).mem = s.mem := by
  fun_cases Pack.raisePort <;> simp [*]

@[simp] theorem Pack.raisePorts_mem (s : Pack) (k : Nat) : (s.raisePorts k).mem = s.mem := by
  unfold Pack.raisePorts
  grind [foldl_mem, Pack.on_mem, Pack.draw_mem, Pack.put_mem, Pack.raisePort_mem]

@[simp] theorem Pack.raiseOff_mem (s : Pack) (k n : Nat) : (s.raiseOff k n).mem = s.mem := by
  fun_cases Pack.raiseOff <;> simp [*]

@[simp] theorem Pack.raiseAllOff_mem (s : Pack) (k : Nat) : (s.raiseAllOff k).mem = s.mem := by
  unfold Pack.raiseAllOff
  grind [foldl_mem, Pack.on_mem, Pack.draw_mem, Pack.put_mem, Pack.raiseOff_mem]

@[simp] theorem Pack.routes_mem (s : Pack) (k : Nat) : (s.routes k).mem = s.mem := by
  unfold Pack.routes
  grind [foldl_mem, Pack.on_mem, Pack.draw_mem, Pack.put_mem, Pack.on_mem, Pkg.wr_wf]

@[simp] theorem Pack.restoreCut_mem (s : Pack) (k : Nat) (c : Cut) : (s.restoreCut k c).mem = s.mem := by
  unfold Pack.restoreCut
  grind [foldl_mem, Pack.on_mem, Pack.draw_mem, Pack.put_mem, Pack.quiesce_mem, Pack.on_mem, Pack.qFlush_mem, Pkg.wr_wf]

@[simp] theorem Pack.rollForward_mem (s : Pack) (k lead : Nat) (m : CommitMsg) (sup : Supplement) : (s.rollForward k lead m sup).mem =
    s.mem :=
  rfl

@[simp] theorem Pack.verifyFail_mem (s : Pack) (k : Nat) (js : List Nat) : (s.verifyFail k js).mem = s.mem := by
  unfold Pack.verifyFail
  grind [foldl_mem, Pack.on_mem, Pack.draw_mem, Pack.put_mem, Pack.haltAll_mem, Pack.on_mem]

@[simp] theorem Pack.takeover_wf (s : Pack) (k : Nat) (hostCut : Option Cut) (h : Memory.wf s.mem = true) : Memory.wf
    (s.takeover k hostCut).mem = true := by
  unfold Pack.takeover
  grind [Pack.haltAll_mem, Pack.on_mem, Pack.raisePorts_mem, Pkg.wr_wf, Pkg.rd_wf, Pack.onMembers_mem, Pack.routes_mem,
    Pack.restoreCut_mem, Pack.rollForward_mem, Pack.rebuildAll_wf, Pack.rebuildParity_wf, Pack.verifyFail_mem]

@[simp] theorem Pack.hostDone_mem (s : Pack) (k : Nat) : (s.hostDone k).mem = s.mem := by
  unfold Pack.hostDone
  grind [foldl_mem, Pack.on_mem, Pack.draw_mem, Pack.put_mem, Pack.on_mem, Pack.verifyFail_mem]

@[simp] theorem Pack.restore_mem (s : Pack) (k : Nat) (cs : List Cut) (crc : Bool) : (s.restore k cs crc).mem = s.mem := by
  unfold Pack.restore
  grind [foldl_mem, Pack.on_mem, Pack.draw_mem, Pack.put_mem, Pack.on_mem, Pack.restoreCut_mem, Pack.verifyFail_mem]

@[simp] theorem Pack.protCtl_mem (s : Pack) (k : Nat) (v : W32) (cs : List Cut) (crc : Bool) : (s.protCtl k v cs crc).mem = s.mem := by
  unfold Pack.protCtl; dsimp only; repeat' split
  all_goals simp

@[simp] theorem Pack.burst_mem (s : Pack) (w : Who) (k j off : Nat) (err : List (Nat × Nat)) : (s.burst w k j off err).2.mem = s.mem := by
  unfold Pack.burst
  grind [Pack.on_mem]

@[simp] theorem Pack.partialWrite_wf (s : Pack) (w : Who) (k j off : Nat) (data : List Byte) (err : List (Nat × Nat))
    (h : Memory.wf s.mem = true) : Memory.wf (s.partialWrite w k j off data err).mem = true := by
  unfold Pack.partialWrite
  grind [Pack.burst_mem, Pack.store_wf]

@[simp] theorem Pack.doReq_wf (s : Pack) (k j : Nat) (r : StackReq) (h : Memory.wf s.mem = true) : Memory.wf (s.doReq k j r).mem = true :=
    by
  unfold Pack.doReq
  grind [Pack.store_wf, Pack.partialWrite_wf, Pack.burst_mem, Pack.on_mem]

@[simp] theorem Pack.stackRequest_wf (s : Pack) (k j c : Nat) (rs : List StackReq) (h : Memory.wf s.mem = true) : Memory.wf
    (s.stackRequest k j c rs).mem = true := by
  fun_cases Pack.stackRequest <;> simp [*]

@[simp] theorem Pack.stackPartial_wf (s : Pack) (k j c : Nat) (r : StackReq) (others : List StackReq) (h : Memory.wf s.mem = true) :
    Memory.wf (s.stackPartial k j c r others).mem = true := by
  unfold Pack.stackPartial
  split <;> simp [h]

@[simp] theorem Pack.scrub_wf (s : Pack) (k j c : Nat) (err : List (Nat × Nat)) (h : Memory.wf s.mem = true) : Memory.wf
    (s.scrub k j c err).mem = true := by
  unfold Pack.scrub
  grind [Pack.burst_mem, Pack.store_wf, Pack.on_mem]

@[simp] theorem Pack.portDrop_mem (s : Pack) (k j p : Nat) : (s.portDrop k j p).mem = s.mem := rfl

@[simp] theorem Pack.stackPortDown_mem (s : Pack) (k j p : Nat) : (s.stackPortDown k j p).mem = s.mem := by
  unfold Pack.stackPortDown
  split <;> simp

@[simp] theorem Pack.frmLost_mem (s : Pack) (k t f : Nat) (r : SentFrm) : (s.frmLost k t f r).mem = s.mem := by
  unfold Pack.frmLost
  grind [foldl_mem, Pack.on_mem, Pack.draw_mem, Pack.put_mem, Pack.on_mem, Pack.skipFlit_mem]

@[simp] theorem Pack.flitsTaken_mem (s : Pack) (k site : Nat) (lost : Bool) (fs : List Flit) : (s.flitsTaken k site lost fs).mem = s.mem :=
    by
  unfold Pack.flitsTaken
  grind [foldl_mem, Pack.on_mem, Pack.draw_mem, Pack.put_mem, Pack.skipFlit_mem, Pack.on_mem]

@[simp] theorem Pack.d2dFrame_mem (s : Pack) (k site e gap : Nat) (new : List FlitReq) (errs : List (Nat × Nat)) (tx rx : Ecc) :
    (s.d2dFrame k site e gap new errs tx rx).mem = s.mem :=
  by

  unfold Pack.d2dFrame; dsimp only; repeat' split
  all_goals simp

@[simp] theorem Pack.d2dPacket_mem (s : Pack) (k site e ty : Nat) (new : List FlitReq) (errs : List (Nat × Nat)) (tx rx : Ecc) :
    (s.d2dPacket k site e ty new errs tx rx).mem = s.mem := by
  unfold Pack.d2dPacket
  grind [Pack.on_mem, Pack.linkEcc_mem, Pack.put_mem, Pack.frmLost_mem, Pack.flitsTaken_mem]

@[simp] theorem Pack.succeed_mem (s : Pack) (k : Nat) : (s.succeed k).mem = s.mem := by
  unfold Pack.succeed; dsimp only; repeat' split
  all_goals simp

@[simp] theorem Pack.declareLost_mem (s : Pack) (k p : Nat) : (s.declareLost k p).mem = s.mem := by
  unfold Pack.declareLost; dsimp only; repeat' split
  all_goals simp

@[simp] theorem Pack.takePortDown_mem (s : Pack) (k pos port farPos farPort : Nat) : (s.takePortDown k pos port farPos farPort).mem = s.mem
    :=
  by

  unfold Pack.takePortDown; dsimp only; repeat' split
  all_goals simp

@[simp] theorem Pack.portDown_mem (s : Pack) (k n : Nat) (beats : Bool) : (s.portDown k n beats).mem = s.mem := by
  unfold Pack.portDown; dsimp only; repeat' split
  all_goals simp

@[simp] theorem Pack.beatTaken_mem (s : Pack) (k n j : Nat) (bs : List Byte) : (s.beatTaken k n j bs).mem = s.mem := by
  unfold Pack.beatTaken; dsimp only; repeat' split
  all_goals simp

@[simp] theorem Pack.beat_mem (s : Pack) (k n j m : Nat) (errs : List (Nat × Nat × Nat)) : (s.beat k n j m errs).mem = s.mem := by
  unfold Pack.beat; dsimp only; repeat' split
  all_goals simp

@[simp] theorem Pack.beatMiss_mem (s : Pack) (k n : Nat) : (s.beatMiss k n).mem = s.mem := by
  unfold Pack.beatMiss; dsimp only; repeat' split
  all_goals simp

@[simp] theorem Pack.flitsPort_mem (s : Pack) (k n : Nat) (fs : List Flit) : (s.flitsPort k n fs).mem = s.mem := by
  unfold Pack.flitsPort
  grind [foldl_mem, Pack.on_mem, Pack.draw_mem, Pack.put_mem, Pack.on_mem, Pack.skipFlit_mem]

@[simp] theorem Pack.portFrmLost_mem (s : Pack) (j m : Nat) (r : SentFrm) : (s.portFrmLost j m r).mem = s.mem := by
  unfold Pack.portFrmLost
  grind [foldl_mem, Pack.on_mem, Pack.draw_mem, Pack.put_mem, Pack.on_mem, Pack.skipFlit_mem]

@[simp] theorem Pack.dataTaken_mem (s : Pack) (k n : Nat) (r : SentFrm) (bs : List Byte) (rx : Ecc) : (s.dataTaken k n r bs rx).mem = s.mem
    := by
  unfold Pack.dataTaken
  grind [foldl_mem, Pack.on_mem, Pack.draw_mem, Pack.put_mem, Pack.on_mem, Pack.linkEcc_mem, Pack.skipFlit_mem, Pack.flitsPort_mem]

@[simp] theorem Pack.dataFrame_mem (s : Pack) (k n slot : Nat) (new : List FlitReq) (errs : List (Nat × Nat × Nat)) (tx rx : Ecc) :
    (s.dataFrame k n slot new errs tx rx).mem = s.mem :=
  by

  unfold Pack.dataFrame; dsimp only; repeat' split
  all_goals simp

@[simp] theorem Pack.controlWord_mem (s : Pack) (k n slot : Nat) (errs : List (Nat × Nat × Nat)) : (s.controlWord k n slot errs).mem =
    s.mem :=
  by

  unfold Pack.controlWord; dsimp only; repeat' split
  all_goals simp

@[simp] theorem Pack.portTrain_mem (s : Pack) (k n : Nat) (peer : Nat × Nat) (rev : Bool) (pol : Nat) : (s.portTrain k n peer rev pol).mem
    = s.mem := by
  unfold Pack.portTrain
  dsimp only
  split <;> simp

@[simp] theorem Pack.portWrite_mem (s : Pack) (k n o : Nat) (priv : Bool) (v : W32) : (s.portWrite k n o priv v).mem = s.mem := by
  unfold Pack.portWrite; dsimp only; repeat' split
  all_goals simp

@[simp] theorem Pack.takeAssign_mem (s : Pack) (k n p serial : Nat) : (s.takeAssign k n p serial).mem = s.mem := by
  fun_cases Pack.takeAssign <;> simp [*]

@[simp] theorem Pack.memNext_mem (s : Pack) (k : Nat) (hi : Bool) (v : W32) : (s.memNext k hi v).mem = s.mem := by
  unfold Pack.memNext; dsimp only; repeat' split
  all_goals simp

@[simp] theorem Pack.takeMember_mem (s : Pack) (k : Nat) (m : MemberMsg) : (s.takeMember k m).mem = s.mem := by simp [Pack.takeMember]

@[simp] theorem Pack.auditMarker_mem (s : Pack) (k : Nat) (l : LinkEnd) (j : Nat) (far : LinkEnd) : (s.auditMarker k l j far).mem = s.mem
    := by
  fun_cases Pack.auditMarker <;> simp [*]

@[simp] theorem Pack.siteLost_mem (s : Pack) (k site : Nat) (x : SiteSt) : (s.siteLost k site x).mem = s.mem := by
  unfold Pack.siteLost
  grind [foldl_mem, Pack.on_mem, Pack.draw_mem, Pack.put_mem, Pack.portDown_mem, Pack.on_mem, Pack.skipFlit_mem, Pack.stackPortDown_mem]

@[simp] theorem Pack.dieFailed_mem (s : Pack) (k site reason : Nat) : (s.dieFailed k site reason).mem = s.mem := by
  unfold Pack.dieFailed
  split <;> simp

@[simp] theorem Pack.dieStart_mem (s : Pack) (k site strapSite strapOri : Nat) (tests : List EdgeTest) :
    (s.dieStart k site strapSite strapOri tests).mem = s.mem :=
  by

  unfold Pack.dieStart; dsimp only; repeat' split
  all_goals simp

@[simp] theorem Pack.routing_mem (s : Pack) (k : Nat) : (s.routing k).mem = s.mem := by
  unfold Pack.routing
  grind [foldl_mem, Pack.on_mem, Pack.draw_mem, Pack.put_mem, Pack.dieFailed_mem, Pack.on_mem]

@[simp] theorem Pack.govPeriod_mem (s : Pack) (k site use level : Nat) : (s.govPeriod k site use level).mem = s.mem := by
  unfold Pack.govPeriod
  split <;> simp

@[simp] theorem Pack.govIn_mem (s : Pack) (k i kind : Nat) (f : GovMsg → Pkg → Pkg) : (s.govIn k i kind f).mem = s.mem := by
  unfold Pack.govIn; dsimp only; repeat' split
  all_goals simp

@[simp] theorem Pack.takeOffer_mem (s : Pack) (k i : Nat) : (s.takeOffer k i).mem = s.mem := by simp [Pack.takeOffer]

@[simp] theorem Pack.takeAccept_mem (s : Pack) (k i : Nat) : (s.takeAccept k i).mem = s.mem := by simp [Pack.takeAccept]

@[simp] theorem Pack.takeRefuse_mem (s : Pack) (k i : Nat) : (s.takeRefuse k i).mem = s.mem := by simp [Pack.takeRefuse]

@[simp] theorem Pack.hubStatus_mem (s : Pack) (k i : Nat) : (s.hubStatus k i).mem = s.mem := by
  unfold Pack.hubStatus; dsimp only; repeat' split
  all_goals simp

@[simp] theorem Pack.govMessage_mem (s : Pack) (k site i : Nat) : (s.govMessage k site i).mem = s.mem := by
  fun_cases Pack.govMessage <;> simp [*]

@[simp] theorem Pack.pllLoss_mem (s : Pack) (k site : Nat) : (s.pllLoss k site).mem = s.mem := by
  unfold Pack.pllLoss
  split <;> simp

@[simp] theorem Pack.isolate_mem (s : Pack) (k : Nat) : (s.isolate k).mem = s.mem := rfl

@[simp] theorem Pack.pkgReset_wf (s : Pack) (k : Nat) (stk : Bool) (h : Memory.wf s.mem = true) : Memory.wf (s.pkgReset k stk).mem = true :=
  filter_wf _ (by simpa using h)

@[simp] theorem Pack.powerDown_wf (s : Pack) (k : Nat) (s1 : Bool) (h : Memory.wf s.mem = true) : Memory.wf (s.powerDown k s1).mem = true :=
  filter_wf _ (by simpa using h)

@[simp] theorem Pack.wake_wf (s : Pack) (k : Nat) (h : Memory.wf s.mem = true) : Memory.wf (s.wake k).mem = true := by
  fun_cases Pack.wake <;> simp [*]

@[simp] theorem Pack.standby_wf (s : Pack) (k : Nat) (force stuck : Bool) (h : Memory.wf s.mem = true) : Memory.wf
    (s.standby k force stuck).mem = true := by
  unfold Pack.standby
  dsimp only
  split <;> simp [h]

@[simp] theorem Pack.off_wf (s : Pack) (k : Nat) (force : Bool) (h : Memory.wf s.mem = true) : Memory.wf (s.off k force).mem = true := by
  unfold Pack.off
  dsimp only
  split <;> simp [h]

@[simp] theorem Pack.pkgResetCmd_wf (s : Pack) (k : Nat) (h : Memory.wf s.mem = true) : Memory.wf (s.pkgResetCmd k).mem = true := by
  unfold Pack.pkgResetCmd
  split <;> simp [h]

@[simp] theorem Pack.dieReset_mem (s : Pack) (k site : Nat) (tests : List EdgeTest) : (s.dieReset k site tests).mem = s.mem := by
  unfold Pack.dieReset; dsimp only; repeat' split
  all_goals simp

@[simp] theorem Pack.pwrCmd_wf (s : Pack) (k : Nat) (v : W32) (stuck : Bool) (tests : List EdgeTest) (h : Memory.wf s.mem = true) :
    Memory.wf (s.pwrCmd k v stuck tests).mem = true := by
  fun_cases Pack.pwrCmd <;> simp [*]

@[simp] theorem Pack.pwrOkRise_wf (s : Pack) (k : Nat) (h : Memory.wf s.mem = true) : Memory.wf (s.pwrOkRise k).mem = true := by
  unfold Pack.pwrOkRise; dsimp only; repeat' split
  all_goals simp [h]

@[simp] theorem Pack.pwrOkFall_wf (s : Pack) (k : Nat) (h : Memory.wf s.mem = true) : Memory.wf (s.pwrOkFall k).mem = true := by
  unfold Pack.pwrOkFall; dsimp only; repeat' split
  all_goals simp [h]

@[simp] theorem Pack.thermalTrip_wf (s : Pack) (k : Nat) (h : Memory.wf s.mem = true) : Memory.wf (s.thermalTrip k).mem = true := by
  unfold Pack.thermalTrip
  split <;> simp [h]

@[simp] theorem Pack.perstAssert_wf (s : Pack) (k : Nat) (h : Memory.wf s.mem = true) : Memory.wf (s.perstAssert k).mem = true := by
  unfold Pack.perstAssert; dsimp only; repeat' split
  all_goals simp [h]

@[simp] theorem Pack.vaonRise_wf (s : Pack) (k : Nat) (h : Memory.wf s.mem = true) : Memory.wf (s.vaonRise k).mem = true :=
  filter_wf _ (by simpa using h)

@[simp] theorem Pack.vaonInterlock_wf (s : Pack) (k : Nat) (h : Memory.wf s.mem = true) : Memory.wf (s.vaonInterlock k).mem = true := by
  unfold Pack.vaonInterlock
  split <;> simp [h]

@[simp] theorem Pack.vaonLoss_wf (s : Pack) (k : Nat) (h : Memory.wf s.mem = true) : Memory.wf (s.vaonLoss k).mem = true :=
  filter_wf _ (by simpa using h)

@[simp] theorem Pack.huskTrim_mem (s : Pack) (k : Nat) : (s.huskTrim k).mem = s.mem := by
  unfold Pack.huskTrim; dsimp only; repeat' split
  all_goals simp

@[simp] theorem Pack.runStop_mem (s : Pack) (k site u n : Nat) : (s.runStop k site u n).mem = s.mem := by
  unfold Pack.runStop; dsimp only; repeat' split
  all_goals simp

@[simp] theorem Pack.runWrite_mem (s : Pack) (k site u : Nat) (v : W32) : (s.runWrite k site u v).mem = s.mem := by
  unfold Pack.runWrite
  grind [foldl_mem, Pack.on_mem, Pack.draw_mem, Pack.put_mem, Pack.on_mem, Pack.runStop_mem]

@[simp] theorem Pack.accRead_mem (s : Pack) (k site u arr n : Nat) : (s.accRead k site u arr n).2.mem = s.mem :=
  List.foldlRecOn _ _ (motive := fun a : W32 × Pack => a.2.mem = s.mem) rfl fun a ha x _ => by split <;> exact ha

@[simp] theorem Pack.unitWrite_mem (s : Pack) (k site u o : Nat) (v : W32) : (s.unitWrite k site u o v).mem = s.mem := by
  unfold Pack.unitWrite; dsimp only; repeat' split
  all_goals simp

@[simp] theorem Pack.unitRead_mem (s : Pack) (k site u o : Nat) : (s.unitRead k site u o).2.mem = s.mem := by
  fun_cases Pack.unitRead <;> simp [*]

@[simp] theorem Pack.isoWrite_mem (s : Pack) (k : Nat) (v : W32) : (s.isoWrite k v).mem = s.mem := by
  unfold Pack.isoWrite
  grind [foldl_mem, Pack.on_mem, Pack.draw_mem, Pack.put_mem, Pack.on_mem, Pkg.wr_wf, Pack.portDown_mem]

@[simp] theorem Pack.qreq_mem (s : Pack) (k : Nat) : (s.qreq k).mem = s.mem := by
  unfold Pack.qreq; dsimp only; repeat' split
  all_goals simp

@[simp] theorem Pack.quoteDone_mem (s : Pack) (k : Nat) : (s.quoteDone k).mem = s.mem := by
  unfold Pack.quoteDone
  split <;> simp

@[simp] theorem Pack.load_mem (s : Pack) (k : Nat) : (s.load k).mem = s.mem := by
  fun_cases Pack.load <;> simp [*]

@[simp] theorem Pack.loadComplete_wf (s : Pack) (k : Nat) (h : Memory.wf s.mem = true) : Memory.wf (s.loadComplete k).mem = true := by
  fun_cases Pack.loadComplete
  case case5 => exact filter_wf _ h
  all_goals exact h

@[simp] theorem Pack.imagePush_wf (s : Pack) (k : Nat) (h : Memory.wf s.mem = true) : Memory.wf (s.imagePush k).mem = true := by
  unfold Pack.imagePush; dsimp only; repeat' split
  all_goals simp [h]

@[simp] theorem Pack.challenge_mem (s : Pack) (k : Nat) (req : List Byte) : (s.challenge k req).mem = s.mem := by
  unfold Pack.challenge
  split <;> simp

@[simp] theorem Pack.getMeasurements_mem (s : Pack) (k : Nat) (req : List Byte) : (s.getMeasurements k req).mem = s.mem := rfl

@[simp] theorem Pack.tapSample_mem (s : Pack) (k cells : Nat) : (s.tapSample k cells).mem = s.mem := by
  unfold Pack.tapSample
  split <;> simp

@[simp] theorem Pack.tapExtest_mem (s : Pack) (k op cells : Nat) : (s.tapExtest k op cells).mem = s.mem := by
  unfold Pack.tapExtest
  grind [foldl_mem, Pack.on_mem, Pack.draw_mem, Pack.put_mem, Pack.on_mem, Pack.draw_mem, Pack.portDown_mem, Pack.hostLinkLost_mem]

@[simp] theorem Pack.timerRel_mem (s : Pack) (k n : Nat) : (s.timerRel k n).mem = s.mem := by
  unfold Pack.timerRel
  split <;> simp

@[simp] theorem Pack.timerExpiry_mem (s : Pack) (k n : Nat) : (s.timerExpiry k n).mem = s.mem := by
  fun_cases Pack.timerExpiry <;> simp [*]

@[simp] theorem Pack.dqWake_wf (s : Pack) (k : Nat) (h : Memory.wf s.mem = true) : Memory.wf (s.dqWake k).mem = true := by
  unfold Pack.dqWake
  dsimp only
  split <;> simp [h]

@[simp] theorem Pack.doorRun_wf (s : Pack) (k site q op n upset : Nat) (h : Memory.wf s.mem = true) : Memory.wf
    (s.doorRun k site q op n upset).mem = true := by
  unfold Pack.doorRun
  split <;> simp [h]

@[simp] theorem Pack.queueWrite_wf (s : Pack) (k site q o : Nat) (v : W32) (x : WrX) (h : Memory.wf s.mem = true) : Memory.wf
    (s.queueWrite k site q o v x).mem = true := by
  unfold Pack.queueWrite
  split <;> simp [h]

@[simp] theorem Pack.packWrite_mem (s : Pack) (k o : Nat) (v : W32) : (s.packWrite k o v).mem = s.mem := by
  fun_cases Pack.packWrite <;> simp [*]

@[simp] theorem Pack.pwrWrite_wf (s : Pack) (k o : Nat) (v : W32) (x : WrX) (h : Memory.wf s.mem = true) : Memory.wf
    (s.pwrWrite k o v x).mem = true := by
  unfold Pack.pwrWrite
  split <;> simp [h]

@[simp] theorem Pack.huskWrite_mem (s : Pack) (k o : Nat) (v : W32) : (s.huskWrite k o v).mem = s.mem := by
  fun_cases Pack.huskWrite <;> simp [*]

@[simp] theorem Pack.keyWrite_mem (s : Pack) (k o : Nat) (v : W32) : (s.keyWrite k o v).mem = s.mem := by
  unfold Pack.keyWrite; dsimp only; repeat' split
  all_goals simp

@[simp] theorem Pack.protWrite_mem (s : Pack) (k o : Nat) (v : W32) (x : WrX) : (s.protWrite k o v x).mem = s.mem := by
  fun_cases Pack.protWrite <;> simp [*]

@[simp] theorem Pack.blkWrite_wf (s : Pack) (k site : Nat) (b : Blk) (o : Nat) (v : W32) (x : WrX) (h : Memory.wf s.mem = true) : Memory.wf
    (s.blkWrite k site b o v x).mem = true :=
  by

  unfold Pack.blkWrite; dsimp only; repeat' split
  all_goals simp [h]

@[simp] theorem Pack.busyWrite_mem (s : Pack) (k site : Nat) (b : Blk) (o a : Nat) (priv : Bool) : (s.busyWrite k site b o a priv).mem =
    s.mem :=
  by

  unfold Pack.busyWrite; dsimp only; repeat' split
  all_goals simp

@[simp] theorem Pack.regWrite_wf (s : Pack) (k : Nat) (m : Master) (site : Nat) (b : Blk) (o off : Nat) (v : W32) (x : WrX)
    (h : Memory.wf s.mem = true) : Memory.wf (s.regWrite k m site b o off v x).mem = true :=
  by

  unfold Pack.regWrite; dsimp only; repeat' split
  all_goals simp [h]

@[simp] theorem Pack.busWrite_wf (s : Pack) (k : Nat) (m : Master) (site off : Nat) (v : W32) (x : WrX) (h : Memory.wf s.mem = true) :
    Memory.wf (s.busWrite k m site off v x).mem = true := by
  fun_cases Pack.busWrite <;> simp [*]

@[simp] theorem Pack.blkRead_mem (s : Pack) (k site : Nat) (b : Blk) (o off : Nat) : (s.blkRead k site b o off).2.mem = s.mem := by
  unfold Pack.blkRead; dsimp only; repeat' split
  all_goals simp

@[simp] theorem Pack.regWord_mem (s : Pack) (k : Nat) (m : Master) (site : Nat) (b : Blk) (o off : Nat) :
    (s.regWord k m site b o off).2.mem = s.mem := by
  simp [Pack.regWord]

@[simp] theorem Pack.regRead_mem (s : Pack) (k : Nat) (m : Master) (site off : Nat) : (s.regRead k m site off).2.mem = s.mem := by
  unfold Pack.regRead
  split <;> simp

@[simp] theorem Pack.land_wf (s : Pack) (k : Nat) (p : Post) (h : Memory.wf s.mem = true) : Memory.wf (s.land k p).mem = true := by
  unfold Pack.land
  split <;> simp [h]

@[simp] theorem Pack.postedDone_wf (s : Pack) (k site off : Nat) (h : Memory.wf s.mem = true) : Memory.wf (s.postedDone k site off).mem =
    true := by
  fun_cases Pack.postedDone <;> grind [foldl_wf, Pack.on_mem, Pack.draw_mem, Pack.put_mem, Pack.on_mem, Pack.land_wf]

@[simp] theorem Pack.regStore_wf (s : Pack) (p : Loc) (v : W32) (h : Memory.wf s.mem = true) : Memory.wf (s.regStore p v).mem = true := by
  unfold Pack.regStore
  split <;> simp [h]

@[simp] theorem Pack.accDo_mem (s : Pack) (k : Nat) (x : AccReq) : (s.accDo k x).mem = s.mem := by
  unfold Pack.accDo
  split <;> simp

@[simp] theorem Pack.tilesDone_mem (s : Pack) (r : OpRec) : (s.tilesDone r).mem = s.mem := by
  unfold Pack.tilesDone
  grind [foldl_mem, Pack.on_mem, Pack.draw_mem, Pack.put_mem, Pack.on_mem, Pack.accDo_mem]

@[simp] theorem Pack.accAsk_mem (s : Pack) (k src site u arr n : Nat) : (s.accAsk k src site u arr n).mem = s.mem := by
  unfold Pack.accAsk
  dsimp only
  split <;> simp

@[simp] theorem Pack.loadResponse_mem (s : Pack) (k i : Nat) (ecc : Ecc) : (s.loadResponse k i ecc).mem = s.mem := by
  unfold Pack.loadResponse; dsimp only; repeat' split
  all_goals simp

@[simp] theorem Pack.storeAck_wf (s : Pack) (k i : Nat) (ecc : Ecc) (h : Memory.wf s.mem = true) : Memory.wf (s.storeAck k i ecc).mem =
    true :=
  by

  unfold Pack.storeAck; dsimp only; repeat' split
  all_goals simp [h]

@[simp] theorem Pack.tokenDelivery_mem (s : Pack) (i : Nat) : (s.tokenDelivery i).mem = s.mem := by
  unfold Pack.tokenDelivery; dsimp only; repeat' split
  all_goals simp

@[simp] theorem Pack.serveFirst_wf (s : Pack) (k site q upset : Nat) (ecc : Ecc) (op : Op) (h : Memory.wf s.mem = true) : Memory.wf
    (s.serveFirst k site q upset ecc op).mem = true :=
  by

  unfold Pack.serveFirst; dsimp only; repeat' split
  all_goals simp [h]

@[simp] theorem Pack.ctakeGrant_wf (s : Pack) (k site q : Nat) (h : Memory.wf s.mem = true) : Memory.wf (s.ctakeGrant k site q).mem = true
    := by
  simp [Pack.ctakeGrant, h]

@[simp] theorem Pack.qpopServe_wf (s : Pack) (k site q upset : Nat) (ecc : Ecc) (h : Memory.wf s.mem = true) : Memory.wf
    (s.qpopServe k site q upset ecc).mem = true := by
  simp [Pack.qpopServe, h]

@[simp] theorem Pack.queueRoom_mem (s : Pack) (t : Tid) : (s.queueRoom t).mem = s.mem := by
  unfold Pack.queueRoom
  grind [Pack.on_mem, Pack.spendCredit_mem]

@[simp] theorem Pack.engineSlice_wf (s : Pack) (k site upset : Nat) (ecc : Ecc) (h : Memory.wf s.mem = true) : Memory.wf
    (s.engineSlice k site upset ecc).mem = true := by
  unfold Pack.engineSlice
  split <;> simp [h]

@[simp] theorem Pack.opEnd_mem (s : Pack) (r : OpRec) : (s.opEnd r).mem = s.mem := by
  unfold Pack.opEnd
  split <;> simp

@[simp] theorem Pack.runOp_wf (s : Pack) (r : OpRec) (h : Memory.wf s.mem = true) : Memory.wf (s.runOp r).mem = true := by
  fun_cases Pack.runOp <;> simp [*]

@[simp] theorem Pack.opLost_mem (s : Pack) (r : OpRec) : (s.opLost r).mem = s.mem := by
  unfold Pack.opLost
  split <;> simp

@[simp] theorem Pack.runEcc_wf (s : Pack) (r : OpRec) (ecc : Ecc) (a : Nat) (h : Memory.wf s.mem = true) : Memory.wf (s.runEcc r ecc a).mem
    = true :=
  by

  unfold Pack.runEcc; dsimp only; repeat' split
  all_goals simp [h]

@[simp] theorem Pack.arrayComplete_wf (s : Pack) (k site u arr : Nat) (ecc : Ecc) (a : Nat) (h : Memory.wf s.mem = true) : Memory.wf
    (s.arrayComplete k site u arr ecc a).mem = true := by
  fun_cases Pack.arrayComplete <;> simp [*]

@[simp] theorem Pack.engineComplete_wf (s : Pack) (k i : Nat) (ecc : Ecc) (a : Nat) (h : Memory.wf s.mem = true) : Memory.wf
    (s.engineComplete k i ecc a).mem = true := by
  fun_cases Pack.engineComplete <;> simp [*]

@[simp] theorem Pack.accstAccess_wf (s : Pack) (k : Nat) (m : Master) (site u arr n : Nat) (w : Option W32) (h : Memory.wf s.mem = true) :
    Memory.wf (s.accstAccess k m site u arr n w).mem = true := by
  fun_cases Pack.accstAccess <;> simp [*]

@[simp] theorem Pack.hifDoor_wf (s : Pack) (k q op n upset : Nat) (h : Memory.wf s.mem = true) : Memory.wf (s.hifDoor k q op n upset).mem =
    true := by
  fun_cases Pack.hifDoor <;> simp [*]

@[simp] theorem Pack.hifWord_mem (s : Pack) (k o : Nat) : (s.hifWord k o).2.mem = s.mem := by
  unfold Pack.hifWord
  split <;> simp

@[simp] theorem Pack.hifWrite_wf (s : Pack) (k o : Nat) (v : W32) (h : Memory.wf s.mem = true) : Memory.wf (s.hifWrite k o v).mem = true :=
  by

  unfold Pack.hifWrite; dsimp only; repeat' split
  all_goals simp [h]

@[simp] theorem Pack.hostRead_mem (s : Pack) (k bar off n : Nat) (ecc : Ecc) : (s.hostRead k bar off n ecc).mem = s.mem := by
  unfold Pack.hostRead; dsimp only; repeat' split
  all_goals simp

@[simp] theorem Pack.hostWrite_wf (s : Pack) (k bar off : Nat) (bs : List (Option Byte)) (ep : Bool) (ecc : Ecc)
    (h : Memory.wf s.mem = true) : Memory.wf (s.hostWrite k bar off bs ep ecc).mem = true :=
  by

  unfold Pack.hostWrite; dsimp only; repeat' split
  all_goals simp [h]

@[simp] theorem Pack.hostTimeout_mem (s : Pack) (k bar off n : Nat) : (s.hostTimeout k bar off n).mem = s.mem := by
  fun_cases Pack.hostTimeout <;> simp [*]

@[simp] theorem Pack.mctpRead_mem (s : Pack) (k o n : Nat) : (s.mctpRead k o n).mem = s.mem := by
  unfold Pack.mctpRead
  dsimp only
  repeat' split
  case isFalse.isFalse.isFalse =>
    exact List.foldlRecOn _ _ (motive := fun a : List Byte × Pack => a.2.mem = s.mem) rfl fun a ha x _ => by simpa using ha
  all_goals rfl

@[simp] theorem Pack.mctpWrite_wf (s : Pack) (k o : Nat) (v : W32) (h : Memory.wf s.mem = true) : Memory.wf (s.mctpWrite k o v).mem = true
    :=
  by

  unfold Pack.mctpWrite; dsimp only; repeat' split
  all_goals simp [h]

@[simp] theorem Pack.sealAll_wf (s : Pack) (k : Nat) (ue : List Nat) (h : Memory.wf s.mem = true) : Memory.wf (s.sealAll k ue).mem = true :=
  by

  unfold Pack.sealAll; dsimp only; repeat' split
  all_goals simp [h]

end Sys2Proof.Machine
end

section
/-! PROOFS. Every command keeps the canonical form of memory. -/

namespace Sys2Proof.Machine

@[simp] theorem Pack.atHub_wf {s : Pack} {k : Nat} {f : Pack → Pack} (hf : Memory.wf (f s).mem = true) (h : Memory.wf s.mem = true) :
    Memory.wf (s.atHub k f).mem = true := by
  unfold Pack.atHub
  split <;> assumption

@[simp] theorem Pack.atPort_wf {s : Pack} {k : Nat} {f : Pack → Pack} (hf : Memory.wf (f s).mem = true) (h : Memory.wf s.mem = true) :
    Memory.wf (s.atPort k f).mem = true := by
  unfold Pack.atPort
  split <;> assumption

theorem issue_wf {op : Op} {t : Tid} {f : Fields} {body : Body} {s : Pack} (hb : ∀ x s, (body x s).1.mem = s.mem)
    (h : Memory.wf s.mem = true) : Memory.wf (issue op t f body s).mem = true := by
  rw [issue_mem hb]; exact h

/-- Every command is a change of the pack. An instruction of a thread leaves memory as it is; what any other command does to memory is what the operations it is made of do. -/
theorem exec_keeps_wf (c : Instr) (s : State) : ∃ p, Gives c s p ∧ (Memory.wf s.pack.mem = true → Memory.wf p.mem = true) := by
  cases c
  case sweepNormBroadcast k step r =>
    refine ⟨_, rfl, fun h => Pack.atHub_wf ?_ h⟩
    split
    · exact Pack.sweepPass2_wf _ _ _ _ h
    · exact h
  case hifDoorForward k q op n =>
    refine ⟨_, rfl, fun h => ?_⟩
    dsimp only
    split
    · exact Pack.hifDoor_wf _ _ _ _ _ _ h
    · exact h
  case parityBuild k t j => exact ⟨_, rfl, fun h => Pack.atHub_wf (Pack.dqWake_wf _ _ (Pack.parityBuild_wf _ _ _ _ h)) h⟩
  all_goals
    refine ⟨_, rfl, fun h => ?_⟩
    first
    | simp [h]; done
    | exact issue_wf (by simp) h

/-- Settles O3: the front command changes the pack alone, and keeps the canonical form of memory. -/
theorem everyStepKeepsMemoryCanonical : Obligations.EveryStepKeepsMemoryCanonical := by
  intro s
  unfold step
  split
  · exact ⟨s, rfl, id⟩
  · next c r hr =>
    obtain ⟨p, hp, hwf⟩ := exec_keeps_wf c { s with pending := r }
    exact ⟨_, hp, hwf⟩

end Sys2Proof.Machine
end

section
/-! PROOFS. Decoding an encoded instruction (R114, R117, R119); the step; the reset state. -/

namespace Sys2Proof.Machine

/-- The fields of a word that `encodeWord` lays out are the ones it was given (R114). -/
theorem ofWord_encodeWord (op : Op) (f : Fields) : Fields.ofWord (encodeWord op f) = f := by
  obtain ⟨d, a, b, c, gn, gp, imm⟩ := f
  simp only [Fields.ofWord, encodeWord, Fields.mk.injEq]
  refine ⟨?_, ?_, ?_, ?_, ?_, ?_, ?_⟩
  case refine_5 =>
    simp only [BitVec.getLsbD_append]
    grind
  all_goals
    apply BitVec.eq_of_getLsbD_eq
    intro i hi
    simp only [BitVec.getLsbD_extractLsb', BitVec.getLsbD_append, hi, decide_true, Bool.true_and]
    grind

theorem opcode_encodeWord (op : Op) (f : Fields) : (encodeWord op f).extractLsb' 56 8 = BitVec.ofNat 8 op.code := by
  apply BitVec.eq_of_getLsbD_eq
  intro i hi
  simp only [encodeWord, BitVec.getLsbD_extractLsb', BitVec.getLsbD_append, hi, decide_true, Bool.true_and]
  grind

theorem Op.code_toNat (op : Op) : (BitVec.ofNat 8 op.code).toNat = op.code := by
  cases op <;> rfl

/-- The selector that the check of R117 asks for is the operation's own. -/
theorem sel_of_encOk {op : Op} {f : Fields} (h : encOk op f = true) {n : Nat} (hs : op.sel = some n) : f.i 1 0 = n := by
  have hm : modsOk op f = true := by
    simp only [encOk, Bool.and_eq_true] at h
    exact h.2
  cases op <;> simp_all [modsOk, Op.sel]

theorem Op.ofCode_code {op : Op} {m : Nat} (h : ∀ n, op.sel = some n → m = n) : Op.ofCode op.code m = some op := by
  cases op
  case fenceW | fenceRw | fenceE | fenceI | xgetCause | xgetFpc | xgetFaddr | xgetSstat => rw [h _ rfl]; rfl
  all_goals rfl

/-- Settles O4: the fields stand where the decoder reads them, and the opcode with the selector names the operation. -/
theorem decodeOfEncode : Obligations.DecodeOfEncode := by
  intro op f h
  simp only [decodeWord, ofWord_encodeWord, opcode_encodeWord, Op.code_toNat, Op.ofCode_code (fun n => sel_of_encOk h), Option.map_some]

/-- Settles O1: `step` is `exec` of the front command. -/
theorem stepRunsTheFrontCommand : Obligations.StepRunsTheFrontCommand :=
  ⟨fun s c r h => by simp only [step, h], fun s h => by simp only [step, h]⟩

/-- Settles O5: the decoder evaluates each word. -/
theorem writtenWordsDecode : Obligations.WrittenWordsDecode := by
  refine ⟨?_, ?_, ?_, ?_, ?_, ?_, ?_⟩ <;> decide

theorem th_reset (t : Tid) : State.reset.pack.thread t = {} := by
  obtain ⟨_ | k, d, u, n⟩ := t <;> rfl

/-- Settles O2: the values of the reset state, row by row. -/
theorem resetState : Obligations.ResetState := by
  refine ⟨rfl, rfl, rfl, by decide, by decide, by decide, by decide, fun t => ?_, fun a => rfl⟩
  rw [th_reset]

end Sys2Proof.Machine
end

section
/-! PROOFS. Exceptions, scalar arithmetic and division (R111 to R113, R119). -/

namespace Sys2Proof.Machine

/-! ## Taking an exception (R111 to R113) -/

/-- What a handler enabled for the cause leaves of the thread. -/
theorem Pkg.except_th_handled {g : Pkg} {t : Tid} {cause : Nat} (pc : BitVec 16) (addr : Word)
    (h : bit (g.th t).theh (causeBit cause) = true) :
    (g.except t pc cause addr).th t = { (g.th t).record pc cause addr with theh := setB (g.th t).theh (causeBit cause) false }.go
      (BitVec.ofNat 16 (fld (g.th t).theh 15 0)) := by
  have h' : bit ((g.th t).record pc cause addr).theh (causeBit cause) = true := h
  simp only [Pkg.except, h', if_true, Pkg.setTh_th_self]
  rfl

theorem Pkg.except_th_overrun {g : Pkg} {t : Tid} (pc : BitVec 16) (addr : Word)
    (h : bit (g.th t).theh (causeBit 0x10) = false) :
    (g.except t pc 0x10 addr).th t = ((g.th t).record pc 0x10 addr).go (pc + 1) := by
  have h' : bit ((g.th t).record pc 0x10 addr).theh (causeBit 0x10) = false := h
  simp only [Pkg.except, h', Bool.false_eq_true, if_false, if_true, Pkg.setTh_th_self]

theorem Pkg.except_th_fault {g : Pkg} {t : Tid} {cause : Nat} (pc : BitVec 16) (addr : Word)
    (h : bit (g.th t).theh (causeBit cause) = false) (hc : cause ≠ 0x10) :
    (g.except t pc cause addr).th t = { (g.th t).record pc cause addr with st := .fault, wait := none } := by
  have h' : bit ((g.th t).record pc cause addr).theh (causeBit cause) = false := h
  simp only [Pkg.except, h', Bool.false_eq_true, if_false, hc]
  split
  · exact (Pkg.threadFault_th ..).trans (Pkg.setTh_th_self ..)
  · exact Pkg.setTh_th_self ..

theorem causeBit_eq (cause : Nat) :
    causeBit cause = if cause = 0x10 then 17 else if cause = 0x20 then 18 else if cause = 0x30 then 19 else 16 := by
  unfold causeBit
  split <;> simp_all

theorem causeAccess_eq (cause : Nat) : causeAccess cause = decide (cause < 0x10) := by
  simp [causeAccess]

/-- Settles O7: what every exception records, and where the thread goes on, handler by handler. -/
theorem takingAnException : Obligations.TakingAnException := by
  unfold Obligations.TakingAnException
  intro g t pc cause addr x y cls
  have hcls : cls = causeBit cause := (causeBit_eq cause).symm
  clear_value cls
  subst hcls
  have hrec : ∃ theh pc' st w, y = { x.record pc cause addr with theh := theh, pc := pc', st := st, wait := w } := by
    obtain ⟨_, _, h⟩ | h := g.except_th_cases t pc cause addr
    · exact ⟨_, _, _, _, h⟩
    · exact ⟨_, _, _, _, h⟩
  refine ⟨?_, ?_, ?_, ?_, ?_, ?_, ?_, fun h => ?handled, fun h hc => ?overrun, fun h hc => ?fault⟩
  case handled => rw [show y = _ from Pkg.except_th_handled pc addr h]; exact ⟨rfl, rfl, rfl⟩
  case overrun => subst hc; rw [show y = _ from Pkg.except_th_overrun pc addr h]; exact ⟨rfl, rfl, rfl⟩
  case fault => rw [show y = _ from Pkg.except_th_fault pc addr h hc]; exact ⟨rfl, rfl, rfl⟩
  all_goals
    obtain ⟨_, _, _, _, h⟩ := hrec
    rw [h]
    simp [Thread.record, causeAccess_eq]

/-! ## Scalar arithmetic (R119): what the model's operations on words are in numbers -/

theorem word_add (a b : Word) : a + b = BitVec.ofNat 64 (a.toNat + b.toNat) := by
  apply BitVec.eq_of_toNat_eq; simp

theorem word_mul (a b : Word) : a * b = BitVec.ofNat 64 (a.toNat * b.toNat) := by
  apply BitVec.eq_of_toNat_eq; simp

theorem ofInt_toNat (a : Word) : BitVec.ofInt 64 (a.toNat : Int) = a := by simp

theorem ofInt_sub (m n : Int) : BitVec.ofInt 64 (m - n) = BitVec.ofInt 64 m - BitVec.ofInt 64 n := by
  rw [Int.sub_eq_add_neg, BitVec.ofInt_add, BitVec.ofInt_neg, BitVec.sub_eq_add_neg]

theorem word_sub (a b : Word) : a - b = BitVec.ofInt 64 ((a.toNat : Int) - b.toNat) := by
  rw [ofInt_sub, ofInt_toNat, ofInt_toNat]

theorem shlW_eq (a b : Word) : shlW a b = BitVec.ofNat 64 (a.toNat * 2 ^ (b.toNat % 64)) := by
  apply BitVec.eq_of_toNat_eq; simp [shlW, Nat.shiftLeft_eq]

theorem shrW_eq (a b : Word) : shrW a b = BitVec.ofNat 64 (a.toNat / 2 ^ (b.toNat % 64)) := by
  apply BitVec.eq_of_toNat_eq
  simp only [shrW, BitVec.toNat_ushiftRight, Nat.shiftRight_eq_div_pow, BitVec.toNat_ofNat]
  exact (Nat.mod_eq_of_lt (lt_of_le_of_lt (Nat.div_le_self ..) a.isLt)).symm

theorem sraW_eq (a b : Word) : sraW a b = BitVec.ofInt 64 (a.toInt / 2 ^ (b.toNat % 64)) := by
  rw [← BitVec.ofInt_toInt (x := sraW a b), sraW, BitVec.toInt_sshiftRight, Int.shiftRight_eq_div_pow]
  norm_cast

theorem sext_eq (f : Fields) : f.sext = BitVec.ofInt 64 f.imm.toInt := rfl

theorem toInt_sext (f : Fields) : f.sext.toInt = f.imm.toInt := BitVec.toInt_signExtend_of_le (by decide)

theorem toNat_sext (f : Fields) : (f.sext.toNat : Int) = f.imm.toInt % 2 ^ 64 := by
  rw [← toInt_sext, BitVec.toInt_eq_toNat_bmod, Int.emod_def, Int.bmod]
  have := f.sext.isLt
  omega

/-- A shift by the low 6 bits of IMM does not see its sign. -/
theorem toNat_sext_mod (f : Fields) : f.sext.toNat % 64 = f.imm.toNat % 64 := by
  have hword := toNat_sext f
  have himm := BitVec.toInt_eq_toNat_cond f.imm
  split at himm <;> omega

theorem addi_eq (a : Word) (f : Fields) : a + f.sext = BitVec.ofInt 64 (a.toNat + f.imm.toInt) := by
  rw [BitVec.ofInt_add, ofInt_toNat, sext_eq]

theorem subi_eq (a : Word) (f : Fields) : a - f.sext = BitVec.ofInt 64 (a.toNat - f.imm.toInt) := by
  rw [ofInt_sub, ofInt_toNat, sext_eq]

theorem muli_eq (a : Word) (f : Fields) : a * f.sext = BitVec.ofInt 64 (a.toNat * f.imm.toInt) := by
  rw [BitVec.ofInt_mul, ofInt_toNat, sext_eq]

theorem mulhui_eq (a : Word) (f : Fields) : mulhu a f.sext = BitVec.ofInt 64 (a.toNat * (f.imm.toInt % 2 ^ 64) / 2 ^ 64) := by
  rw [← toNat_sext, mulhu, ← BitVec.ofInt_natCast]
  norm_cast

theorem shli_eq (a : Word) (f : Fields) : shlW a f.sext = BitVec.ofNat 64 (a.toNat * 2 ^ (f.imm.toNat % 64)) := by
  rw [shlW_eq, toNat_sext_mod]

theorem shri_eq (a : Word) (f : Fields) : shrW a f.sext = BitVec.ofNat 64 (a.toNat / 2 ^ (f.imm.toNat % 64)) := by
  rw [shrW_eq, toNat_sext_mod]

theorem srai_eq (a : Word) (f : Fields) : sraW a f.sext = BitVec.ofInt 64 (a.toInt / 2 ^ (f.imm.toNat % 64)) := by
  rw [sraW_eq, toNat_sext_mod]

theorem movhi_eq (a : Word) (i : BitVec 32) : i ++ a.setWidth 32 = BitVec.ofNat 64 (i.toNat * 2 ^ 32 + a.toNat % 2 ^ 32) := by
  apply BitVec.eq_of_toNat_eq
  have := i.isLt
  simp only [BitVec.toNat_append, BitVec.toNat_setWidth, BitVec.toNat_ofNat]
  rw [← Nat.shiftLeft_add_eq_or_of_lt (Nat.mod_lt _ (by decide)), Nat.shiftLeft_eq]
  omega

section
variable {c : Instr} {op : Op} {t : Tid} {f : Fields} {s : State}

/-- A register form: sd takes what its operation makes of sa and sb. -/
theorem IssuedAs.gives_of_aluR {o : Word → Word → Word} (hc : IssuedAs c op t f (aluR t f o)) (hi : Issues s.pack t op f) :
    Gives c s (s.pack.settle t ((s.pack.thread t).setS f.d.toNat
      (o ((s.pack.thread t).s f.a.toNat) ((s.pack.thread t).s f.b.toNat))).past) :=
  hc.gives_of_onTh hi _ rfl

/-- An immediate form: sd takes what its operation makes of sa and sext(IMM). -/
theorem IssuedAs.gives_of_aluI {o : Word → Word → Word} (hc : IssuedAs c op t f (aluI t f o)) (hi : Issues s.pack t op f) :
    Gives c s (s.pack.settle t ((s.pack.thread t).setS f.d.toNat (o ((s.pack.thread t).s f.a.toNat) f.sext)).past) :=
  hc.gives_of_onTh hi _ rfl

end

/-- Settles O8: each form is its word operation, which is the one of numbers modulo 2^64. -/
theorem scalarArithmetic : Obligations.ScalarArithmetic := by
  refine ⟨fun s t f => ⟨?_, ?_, ?_, ?_, ?_, ?_, ?_, ?_, ?_, ?_⟩, fun s t f => ⟨?_, ?_, ?_, ?_, ?_, ?_, ?_, ?_, ?_, ?_, ?_⟩⟩
  all_goals intro hi
  · rw [← word_add]; exact IssuedAs.gives_of_aluR (fun _ => rfl) hi
  · rw [← word_sub]; exact IssuedAs.gives_of_aluR (fun _ => rfl) hi
  · rw [← word_mul]; exact IssuedAs.gives_of_aluR (fun _ => rfl) hi
  · exact IssuedAs.gives_of_aluR (o := mulhu) (fun _ => rfl) hi
  · exact IssuedAs.gives_of_aluR (o := (· &&& ·)) (fun _ => rfl) hi
  · exact IssuedAs.gives_of_aluR (o := (· ||| ·)) (fun _ => rfl) hi
  · exact IssuedAs.gives_of_aluR (o := (· ^^^ ·)) (fun _ => rfl) hi
  · rw [← shlW_eq]; exact IssuedAs.gives_of_aluR (fun _ => rfl) hi
  · rw [← shrW_eq]; exact IssuedAs.gives_of_aluR (fun _ => rfl) hi
  · rw [← sraW_eq]; exact IssuedAs.gives_of_aluR (fun _ => rfl) hi
  · rw [← addi_eq]; exact IssuedAs.gives_of_aluI (fun _ => rfl) hi
  · rw [← subi_eq]; exact IssuedAs.gives_of_aluI (fun _ => rfl) hi
  · rw [← muli_eq]; exact IssuedAs.gives_of_aluI (fun _ => rfl) hi
  · rw [← mulhui_eq]; exact IssuedAs.gives_of_aluI (fun _ => rfl) hi
  · exact IssuedAs.gives_of_aluI (o := (· &&& ·)) (fun _ => rfl) hi
  · exact IssuedAs.gives_of_aluI (o := (· ||| ·)) (fun _ => rfl) hi
  · exact IssuedAs.gives_of_aluI (o := (· ^^^ ·)) (fun _ => rfl) hi
  · rw [← shli_eq]; exact IssuedAs.gives_of_aluI (fun _ => rfl) hi
  · rw [← shri_eq]; exact IssuedAs.gives_of_aluI (fun _ => rfl) hi
  · rw [← srai_eq]; exact IssuedAs.gives_of_aluI (fun _ => rfl) hi
  · rw [← movhi_eq]; exact IssuedAs.gives_of_onTh (body := movhiBody t f) (fun _ => rfl) hi _ rfl

/-! ## Division (R119) -/

theorem udiv_eq (a b : Word) : BitVec.udiv a b = BitVec.ofNat 64 (a.toNat / b.toNat) := by
  apply BitVec.eq_of_toNat_eq
  rw [BitVec.udiv_eq, BitVec.toNat_udiv, BitVec.toNat_ofNat]
  exact (Nat.mod_eq_of_lt (lt_of_le_of_lt (Nat.div_le_self ..) a.isLt)).symm

theorem umod_eq (a b : Word) : BitVec.umod a b = BitVec.ofNat 64 (a.toNat % b.toNat) := by
  apply BitVec.eq_of_toNat_eq
  rw [BitVec.umod_eq, BitVec.toNat_umod, BitVec.toNat_ofNat]
  exact (Nat.mod_eq_of_lt (lt_of_le_of_lt (Nat.mod_le ..) a.isLt)).symm

theorem sdiv_eq (a b : Word) : BitVec.sdiv a b = BitVec.ofInt 64 (a.toInt.tdiv b.toInt) := by
  apply BitVec.eq_of_toInt_eq
  rw [BitVec.toInt_sdiv, BitVec.toInt_ofInt]

theorem srem_eq (a b : Word) : BitVec.srem a b = BitVec.ofInt 64 (a.toInt.tmod b.toInt) := by
  rw [← BitVec.ofInt_toInt (x := BitVec.srem a b), BitVec.toInt_srem]

theorem divui_eq (a : Word) (f : Fields) : BitVec.udiv a f.sext = BitVec.ofInt 64 (a.toNat / (f.imm.toInt % 2 ^ 64)) := by
  rw [← toNat_sext, udiv_eq, ← BitVec.ofInt_natCast]
  norm_cast

theorem remui_eq (a : Word) (f : Fields) : BitVec.umod a f.sext = BitVec.ofInt 64 (a.toNat % (f.imm.toInt % 2 ^ 64)) := by
  rw [← toNat_sext, umod_eq, ← BitVec.ofInt_natCast]
  norm_cast

theorem sext_ne_zero {f : Fields} (h : f.imm.toInt ≠ 0) : f.sext ≠ 0 := by
  intro h0
  rw [← toInt_sext, h0] at h
  exact h rfl

section
variable {c : Instr} {op : Op} {t : Tid} {f : Fields} {s : State} {o : Word → Word → Word} {y : Word}

theorem divBy_of_ne (hy : y ≠ 0) (x : Thread) (p : Pack) :
    divBy t f o y x p = (p.onTh t (fun x' => x'.setS f.d.toNat (o (x.s f.a.toNat) y)), .adv) := by
  exact if_neg hy

theorem IssuedAs.gives_of_divR (hc : IssuedAs c op t f (divR t f o)) (hb : (s.pack.thread t).s f.b.toNat ≠ 0) (hi : Issues s.pack t op f) :
    Gives c s (s.pack.settle t ((s.pack.thread t).setS f.d.toNat
      (o ((s.pack.thread t).s f.a.toNat) ((s.pack.thread t).s f.b.toNat))).past) :=
  hc.gives_of_onTh hi _ (divBy_of_ne hb _ _)

theorem IssuedAs.gives_of_divI (hc : IssuedAs c op t f (divI t f o)) (hm : f.imm.toInt ≠ 0) (hi : Issues s.pack t op f) :
    Gives c s (s.pack.settle t ((s.pack.thread t).setS f.d.toNat (o ((s.pack.thread t).s f.a.toNat) f.sext)).past) :=
  hc.gives_of_onTh hi _ (divBy_of_ne (sext_ne_zero hm) _ _)

/-- A trap without an access cause. -/
theorem IssuedAs.gives_of_trap {body : Body} {cause : Nat} (hc : IssuedAs c op t f body) (hcause : causeAccess cause = false)
    (hbody : body (s.pack.thread t) (s.pack.atIssue t) = (s.pack.atIssue t, .trap cause none)) (hi : Issues s.pack t op f) :
    Gives c s (s.pack.on t.pkg (fun g => (g.issued t).except t (s.pack.thread t).pc cause 0)) := by
  rw [Pack.atIssue] at hbody
  exact hc.gives (by rw [issue_runs hi, hbody, leave_trap hcause])

theorem divBy_zero (x : Thread) (p : Pack) : divBy t f o 0 x p = (p, .trap 0x30 none) := by
  simp [divBy]

theorem IssuedAs.gives_of_divR_zero (hc : IssuedAs c op t f (divR t f o)) (hb : (s.pack.thread t).s f.b.toNat = 0)
    (hi : Issues s.pack t op f) :
    Gives c s (s.pack.on t.pkg (fun g => (g.issued t).except t (s.pack.thread t).pc 0x30 0)) := by
  refine hc.gives_of_trap rfl ?_ hi
  rw [divR, hb, divBy_zero]

theorem IssuedAs.gives_of_divI_zero (hc : IssuedAs c op t f (divI t f o)) (hm : f.imm = 0) (hi : Issues s.pack t op f) :
    Gives c s (s.pack.on t.pkg (fun g => (g.issued t).except t (s.pack.thread t).pc 0x30 0)) := by
  refine hc.gives_of_trap rfl ?_ hi
  rw [divI, show f.sext = 0 by rw [Fields.sext, hm]; rfl, divBy_zero]

end

/-- Settles O9: the quotients and remainders in numbers; every operation by zero takes the trap of `divBy`. -/
theorem divisionAndItsTrap : Obligations.DivisionAndItsTrap := by
  refine ⟨fun s t f => ⟨fun hb => ⟨?_, ?_, ?_, ?_⟩, fun hm => ⟨?_, ?_, ?_, ?_⟩⟩, ?trap⟩
  case trap =>
    intro s t f op c hcase hi
    obtain ⟨hmem, hb⟩ | ⟨hmem, hm⟩ := hcase
    · simp only [List.mem_cons, Prod.mk.injEq, List.not_mem_nil, or_false] at hmem
      obtain ⟨rfl, rfl⟩ | ⟨rfl, rfl⟩ | ⟨rfl, rfl⟩ | ⟨rfl, rfl⟩ := hmem
      all_goals exact IssuedAs.gives_of_divR_zero (fun _ => rfl) hb hi
    · simp only [List.mem_cons, Prod.mk.injEq, List.not_mem_nil, or_false] at hmem
      obtain ⟨rfl, rfl⟩ | ⟨rfl, rfl⟩ | ⟨rfl, rfl⟩ | ⟨rfl, rfl⟩ := hmem
      all_goals exact IssuedAs.gives_of_divI_zero (fun _ => rfl) hm hi
  all_goals intro hi
  · rw [← udiv_eq]; exact IssuedAs.gives_of_divR (fun _ => rfl) hb hi
  · rw [← umod_eq]; exact IssuedAs.gives_of_divR (fun _ => rfl) hb hi
  · rw [← sdiv_eq]; exact IssuedAs.gives_of_divR (fun _ => rfl) hb hi
  · rw [← srem_eq]; exact IssuedAs.gives_of_divR (fun _ => rfl) hb hi
  · rw [← divui_eq]; exact IssuedAs.gives_of_divI (fun _ => rfl) hm hi
  · rw [← remui_eq]; exact IssuedAs.gives_of_divI (fun _ => rfl) hm hi
  · rw [← toInt_sext, ← sdiv_eq]; exact IssuedAs.gives_of_divI (fun _ => rfl) hm hi
  · rw [← toInt_sext, ← srem_eq]; exact IssuedAs.gives_of_divI (fun _ => rfl) hm hi

end Sys2Proof.Machine
end

section
/-! PROOFS. Compares, branches, exception control, fences, loads and stores at issue (R96, R98, R108, R113, R119). -/

namespace Sys2Proof.Machine

/-! ## Compares, predicates, branches, exception control -/

theorem condHolds_eq (c : BitVec 5) (a b : Word) :
    condHolds c.toNat a b = if c = 0 then decide (a = b) else if c = 1 then decide (a ≠ b) else if c = 2 then decide (a.toNat < b.toNat)
      else if c = 3 then decide (b.toNat ≤ a.toNat) else if c = 4 then decide (a.toInt < b.toInt) else decide (b.toInt ≤ a.toInt) := by
  have hc (n : Nat) (hn : n < 32) : c = BitVec.ofNat 5 n ↔ c.toNat = n := by
    rw [← BitVec.toNat_inj, BitVec.toNat_ofNat, Nat.mod_eq_of_lt hn]
  simp only [show (0 : BitVec 5) = BitVec.ofNat 5 0 from rfl, hc 0 (by decide), hc 1 (by decide), hc 2 (by decide), hc 3 (by decide),
    hc 4 (by decide)]
  unfold condHolds
  split <;> simp_all [BitVec.ult, BitVec.slt] <;> grind

theorem plogOp_eq (c : BitVec 5) (p q : Bool) :
    plogOp c.toNat p q = if c = 0 then p && q else if c = 1 then p || q else if c = 2 then p ^^ q else p && !q := by
  have hc (n : Nat) (hn : n < 32) : c = BitVec.ofNat 5 n ↔ c.toNat = n := by
    rw [← BitVec.toNat_inj, BitVec.toNat_ofNat, Nat.mod_eq_of_lt hn]
  simp only [show (0 : BitVec 5) = BitVec.ofNat 5 0 from rfl, hc 0 (by decide), hc 1 (by decide), hc 2 (by decide)]
  unfold plogOp
  split <;> simp_all

theorem Thread.pred_setPred (x : Thread) {i j : Nat} (b : Bool) (hi : 0 < i) (hi' : i < 8) (hj : j < 8) :
    (x.setPred i b).pred j = if j = i then b else x.pred j := by
  have hbit : (BitVec.ofNat 8 (2 ^ i)).toNat.testBit j = decide (i = j) := by
    rw [BitVec.toNat_ofNat, Nat.mod_eq_of_lt (Nat.pow_lt_pow_right (by decide) hi'), Nat.testBit_two_pow]
  cases b
  · simp only [Thread.setPred, Thread.pred, hi.ne', if_false, Bool.false_eq_true, BitVec.toNat_and, Nat.testBit_and,
      BitVec.testBit_toNat, BitVec.getLsbD_not, hj, decide_true, Bool.true_and]
    rw [← BitVec.testBit_toNat (x := BitVec.ofNat 8 (2 ^ i)), hbit]
    grind
  · simp only [Thread.setPred, Thread.pred, hi.ne', if_false, if_true, BitVec.toNat_or, Nat.testBit_or, hbit]
    grind

/-- Settles O10: COND and OPC case by case. -/
theorem compareAndPredicateLogic : Obligations.CompareAndPredicateLogic := by
  intro s t f x a res holds p q
  refine ⟨fun hi => ?_, fun hi => ?_, fun hi => ?_, fun _ => rfl, rfl, fun i j b hi hi' hj => x.pred_setPred b hi hi' hj⟩
  · simp only [holds, ← condHolds_eq]
    exact IssuedAs.gives_of_onTh (body := cmpBody t f (fun th => th.s f.b.toNat)) (fun _ => rfl) hi _ rfl
  · simp only [holds, ← condHolds_eq]
    exact IssuedAs.gives_of_onTh (body := cmpBody t f (fun _ => f.sext)) (fun _ => rfl) hi _ rfl
  · simp only [← plogOp_eq]
    exact IssuedAs.gives_of_onTh (body := plogBody t f) (fun _ => rfl) hi _ rfl

theorem branchTo_eq (x : Thread) (f : Fields) : branchTo x f = BitVec.ofInt 16 (x.pc.toNat + f.imm.toInt) := by
  have himm : f.imm.setWidth 16 = BitVec.ofInt 16 f.imm.toInt := by
    apply BitVec.eq_of_toNat_eq
    have := BitVec.toInt_eq_toNat_cond f.imm
    simp only [BitVec.toNat_setWidth, BitVec.toNat_ofInt]
    split at this <;> omega
  rw [BitVec.ofInt_add, BitVec.ofInt_natCast, BitVec.ofNat_toNat, branchTo, himm, BitVec.setWidth_eq]

section
variable {c : Instr} {op : Op} {t : Tid} {f : Fields} {body : Body} {s : State}

/-- An instruction that changes its thread alone and says where it goes on. -/
theorem IssuedAs.gives_of_goto (hc : IssuedAs c op t f body) (hi : Issues s.pack t op f) (h : Thread → Thread) (pc : BitVec 16)
    (hbody : body (s.pack.thread t) (s.pack.atIssue t) = ((s.pack.atIssue t).onTh t h, .goto pc)) :
    Gives c s (s.pack.settle t ((h (s.pack.thread t)).go pc)) := by
  rw [Pack.atIssue] at hbody
  exact hc.gives (by rw [issue_runs hi, hbody, leave_goto h])

theorem IssuedAs.gives_of_goto_nop (hc : IssuedAs c op t f body) (hi : Issues s.pack t op f) (pc : BitVec 16)
    (hbody : body (s.pack.thread t) (s.pack.atIssue t) = (s.pack.atIssue t, .goto pc)) :
    Gives c s (s.pack.settle t ((s.pack.thread t).go pc)) := by
  rw [Pack.atIssue] at hbody
  exact hc.gives (by rw [issue_runs hi, hbody, leave_goto_nop])

theorem IssuedAs.gives_of_nop (hc : IssuedAs c op t f body) (hi : Issues s.pack t op f)
    (hbody : body (s.pack.thread t) (s.pack.atIssue t) = (s.pack.atIssue t, .adv)) :
    Gives c s (s.pack.settle t (s.pack.thread t).past) := by
  rw [Pack.atIssue] at hbody
  exact hc.gives (by rw [issue_runs hi, hbody, leave_nop])

theorem leave_halt {p : Pack} : (p.on t.pkg (fun g => g.issued t)).leave t .halt = p.settle t { (p.thread t).past with st := .idle } := by
  simp only [Pack.leave, Pkg.finish, Pack.on_on, Pack.settle]
  exact Pack.on_congr (by simp [Pkg.onTh, Pack.thread, Thread.past, Thread.adv])
end

/-- Where XRET goes on: SKIP is the whole of IMM (R117). -/
theorem xret_eq (x : Thread) {f : Fields} (h : encOk .xret f = true) :
    x.xret (f.ib 0) = { x with theh := setB x.theh (causeBit x.cause) true }.go (if f.imm = 1 then x.fpc + 1 else x.fpc) := by
  have hlt : f.imm.toNat < 2 := imm_lt_of_encOk (k := 1) (by decide) rfl h
  have hskip : f.ib 0 = decide (f.imm = 1) := by
    have hone : f.imm = 1 ↔ f.imm.toNat = 1 := by rw [← BitVec.toNat_inj]; rfl
    simp only [hone, Fields.ib]
    interval_cases f.imm.toNat <;> rfl
  rw [Thread.xret, hskip]
  by_cases h1 : f.imm = 1
  · simp only [h1, decide_true, if_true]; rfl
  · simp only [h1, decide_false, if_false]
    rw [show x.fpc + BitVec.ofNat 16 (b2n false) = x.fpc from BitVec.add_zero _]

theorem ofNat_toNat_64 {w : Nat} (x : BitVec w) : BitVec.ofNat 64 x.toNat = x.setWidth 64 := by
  apply BitVec.eq_of_toNat_eq
  simp

theorem ofNat_toNat_16 (x : Word) : BitVec.ofNat 16 x.toNat = x.setWidth 16 := by
  apply BitVec.eq_of_toNat_eq
  simp

section
variable {t : Tid} {f : Fields} {s : State}

theorem gives_br (hi : Issues s.pack t .br f) :
    Gives (.br t f) s (s.pack.settle t ((s.pack.thread t).go (branchTo (s.pack.thread t) f))) :=
  IssuedAs.gives_of_goto_nop (body := brBody f) (fun _ => rfl) hi _ rfl

theorem gives_call (hi : Issues s.pack t .call f) :
    Gives (.call t f) s (s.pack.settle t (((s.pack.thread t).setS f.d.toNat
      (((s.pack.thread t).pc + 1).setWidth 64)).go (branchTo (s.pack.thread t) f))) :=
  IssuedAs.gives_of_goto (body := callBody t f) (fun _ => rfl) hi _ _ rfl

theorem gives_jr (hi : Issues s.pack t .jr f) :
    Gives (.jr t f) s (s.pack.settle t ((s.pack.thread t).go (((s.pack.thread t).s f.a.toNat).setWidth 16))) :=
  IssuedAs.gives_of_goto_nop (body := jrBody f) (fun _ => rfl) hi _ rfl

theorem gives_halt (hi : Issues s.pack t .halt f) :
    Gives (.halt t f) s (s.pack.settle t { (s.pack.thread t).past with st := .idle }) :=
  IssuedAs.gives (body := fun _ s => (s, .halt)) (fun _ => rfl) ((issue_runs hi).trans leave_halt)

theorem gives_nop (hi : Issues s.pack t .nop f) : Gives (.nop t f) s (s.pack.settle t (s.pack.thread t).past) :=
  IssuedAs.gives_of_nop (body := fun _ s => (s, .adv)) (fun _ => rfl) hi rfl

theorem gives_xgetCause (hi : Issues s.pack t .xgetCause (f.select 0)) : Gives (.xgetCause t f) s
    (s.pack.settle t ((s.pack.thread t).setS f.d.toNat (BitVec.ofNat 64 (s.pack.thread t).cause)).past) :=
  IssuedAs.gives_of_onTh (body := xgetBody t f (fun x => BitVec.ofNat 64 x.cause)) (fun _ => rfl) hi _ rfl

theorem gives_xgetFpc (hi : Issues s.pack t .xgetFpc (f.select 1)) : Gives (.xgetFpc t f) s
    (s.pack.settle t ((s.pack.thread t).setS f.d.toNat ((s.pack.thread t).fpc.setWidth 64)).past) :=
  IssuedAs.gives_of_onTh (body := xgetBody t f (fun x => x.fpc.setWidth 64)) (fun _ => rfl) hi _ rfl

theorem gives_xgetFaddr (hi : Issues s.pack t .xgetFaddr (f.select 2)) : Gives (.xgetFaddr t f) s
    (s.pack.settle t ((s.pack.thread t).setS f.d.toNat (s.pack.thread t).faddr).past) :=
  IssuedAs.gives_of_onTh (body := xgetBody t f (fun x => x.faddr)) (fun _ => rfl) hi _ rfl

theorem gives_xgetSstat (hi : Issues s.pack t .xgetSstat (f.select 3)) : Gives (.xgetSstat t f) s
    (s.pack.settle t ((s.pack.thread t).setS f.d.toNat (BitVec.ofNat 64 (s.pack.thread t).sstat)).past) :=
  IssuedAs.gives_of_onTh (body := xgetBody t f (fun x => BitVec.ofNat 64 x.sstat)) (fun _ => rfl) hi _ rfl

theorem gives_xclr (hi : Issues s.pack t .xclr f) :
    Gives (.xclr t f) s (s.pack.settle t { (s.pack.thread t) with sstat := 0 }.past) :=
  IssuedAs.gives_of_onTh (body := xclrBody t) (fun _ => rfl) hi (fun x => { x with sstat := 0 }) rfl

theorem gives_xret (hi : Issues s.pack t .xret f) :
    Gives (.xret t f) s (s.pack.settle t ((s.pack.thread t).xret (f.ib 0))) :=
  IssuedAs.gives_of_goto (body := xretBody t f) (fun _ => rfl) hi (fun _ => (s.pack.thread t).xret (f.ib 0)) _ rfl

end

/-- Settles O11: what each instruction leaves of its thread; targets and classes as the statement counts them. -/
theorem controlInstructions : Obligations.ControlInstructions := by
  refine ⟨fun s t f => ?_, fun s t f => ?_⟩
  · intro x target
    have htarget : target = branchTo x f := (branchTo_eq x f).symm
    have hlink : BitVec.ofNat 64 ((x.pc.toNat + 1) % 2 ^ 16) = (x.pc + 1).setWidth 64 := by
      rw [← ofNat_toNat_64, BitVec.toNat_add]
      rfl
    rw [htarget, hlink, ofNat_toNat_16]
    exact ⟨gives_br, gives_call, gives_jr, gives_halt, gives_nop⟩
  · intro x res cls
    have hcls : cls = causeBit x.cause := (causeBit_eq _).symm
    rw [hcls, ofNat_toNat_64]
    refine ⟨gives_xgetCause, gives_xgetFpc, gives_xgetFaddr, gives_xgetSstat, gives_xclr, fun hi => ?_⟩
    rw [← xret_eq x hi.enc]
    exact gives_xret hi

/-! ## Fences (R108) -/

theorem mget_of_forall {α : Type} {d : α} {P : α → Prop} (hd : P d) (i : Nat) : ∀ {m : Map α}, (∀ p ∈ m, P p.2) → P (mget d m i)
  | [], _ => hd
  | (k, w) :: r, h => by
    obtain ⟨hw, hr⟩ := List.forall_mem_cons.mp h
    unfold mget
    split
    · exact hw
    · exact mget_of_forall hd i hr

/-- A test that the written record passes just when the record it replaces does holds of all records as before. -/
theorem forall_mem_mins {α : Type} {d v : α} {P : α → Prop} (hd : P d) (i : Nat) : ∀ {m : Map α}, (P v ↔ P (mget d m i)) →
    ((∀ p ∈ mins m i v, P p.2) ↔ ∀ p ∈ m, P p.2)
  | [], hv => by simpa [mins, mget, hd] using hv
  | (k, w) :: r, hv => by
    unfold mins
    split
    · rw [List.forall_mem_cons]
      exact ⟨And.right, fun h => ⟨hv.mpr (mget_of_forall hd i h), h⟩⟩
    · split
      · next hik =>
        subst hik
        simp only [mget, if_true] at hv
        simp only [List.forall_mem_cons, hv]
      · next hne =>
        have hv' : P v ↔ P (mget d r i) := by simpa [mget, Ne.symm hne] using hv
        simp only [List.forall_mem_cons, forall_mem_mins hd i hv']

/-- A change of a package that keeps its queue requests keeps what the queues of all packages hold. -/
theorem forall_qops_on {s : Pack} {k : Nat} {h : Pkg → Pkg} {P : QReq → Prop} (hq : (h (s.g k)).qops = (s.g k).qops) :
    (∀ p ∈ (s.on k h).pkgs, ∀ q ∈ p.2.qops, P q) ↔ ∀ p ∈ s.pkgs, ∀ q ∈ p.2.qops, P q :=
  forall_mem_mins (P := fun g => ∀ q ∈ g.qops, P q) (d := coldPkg k) (fun _ hq => nomatch hq) k (by rw [hq]; rfl)

theorem Pkg.writesDone_iff (g : Pkg) (t : Tid) (n : Nat) : g.writesDone t n = true ↔
    (∀ x ∈ g.stores, x.t = t → n ≤ x.seq) ∧ (∀ r ∈ g.aops ++ g.eops, r.t = t → outWrite r.op = true → n ≤ r.seq) := by
  simp only [Pkg.writesDone, Bool.and_eq_true, Bool.not_eq_true', List.any_eq_false]
  refine and_congr (forall₂_congr fun x _ => ?_) (forall₂_congr fun x _ => ?_)
  · simp
  · simp; grind

theorem Pkg.readsDone_iff (g : Pkg) (t : Tid) (n : Nat) : g.readsDone t n = true ↔ ∀ x ∈ g.loads, x.t = t → n ≤ x.seq := by
  simp [Pkg.readsDone]

theorem Pack.engDone_iff (s : Pack) (t : Tid) (n : Nat) : s.engDone t n = true ↔
    (∀ r ∈ (s.g t.pkg).aops ++ (s.g t.pkg).eops, r.t = t → n ≤ r.seq) ∧ ∀ p ∈ s.pkgs, ∀ q ∈ p.2.qops, q.r.t = t → n ≤ q.r.seq := by
  simp only [Pack.engDone, Pack.opsOf, List.all_append, Bool.and_eq_true, List.all_eq_true, List.mem_filter, List.mem_flatMap,
    List.mem_map, decide_eq_true_eq, beq_iff_eq]
  refine and_congr ⟨fun h r hr ht => h r ⟨hr, ht⟩, fun h r hr => h r hr.1 hr.2⟩ ⟨fun h p hp q hq ht => ?_, ?_⟩
  · exact h _ ⟨p, hp, q, ⟨hq, ht⟩, rfl⟩
  · rintro h _ ⟨p, hp, q, ⟨hq, ht⟩, rfl⟩
    exact h p hp q hq ht

/-- Taking an issue number leaves an engine fence to wait for what it waited for. -/
theorem Pack.engDone_atIssue (s : Pack) (t : Tid) (n : Nat) : (s.atIssue t).engDone t n = s.engDone t n := by
  rw [Bool.eq_iff_iff, Pack.engDone_iff, Pack.engDone_iff, Pack.atIssue, forall_qops_on rfl, Pack.on_g_self]
  rfl

section
variable {c : Instr} {op : Op} {t : Tid} {f : Fields} {body : Body} {s : State}

theorem IssuedAs.gives_of_wait (hc : IssuedAs c op t f body) (hi : Issues s.pack t op f) (w : Wait)
    (hbody : body (s.pack.thread t) (s.pack.atIssue t) = (s.pack.atIssue t, .wait w)) :
    Gives c s (s.pack.on t.pkg (fun g => (g.issued t).waitTh t w)) := by
  rw [Pack.atIssue] at hbody
  exact hc.gives (by rw [issue_runs hi, hbody, leave_wait])

/-- What a fence looks at: what its unit has in flight, the thread's issue number taken. -/
def fenceMet (p : Pack) (t : Tid) (o : Op) : Bool :=
  let g := p.g t.pkg
  match o with
  | .fenceW => g.writesDone t (g.seq + 1)
  | .fenceRw => g.writesDone t (g.seq + 1) && g.readsDone t (g.seq + 1)
  | .fenceE => p.engDone t (g.seq + 1)
  | _ => true

theorem fenceBody_atIssue (p : Pack) (t : Tid) (o : Op) (x : Thread) :
    fenceBody t o x (p.atIssue t) = if fenceMet p t o then (p.atIssue t, .adv) else (p.atIssue t, .wait (.fence o)) := by
  cases o
  case fenceE =>
    simp only [fenceBody, fenceMet, Pack.engDone_atIssue]
    rw [Pack.atIssue, Pack.on_g_self]
    rfl
  case fenceW | fenceRw => simp only [fenceBody, fenceMet, Pack.atIssue, Pack.on_g_self]; rfl
  all_goals rfl

theorem IssuedAs.gives_of_fence {o : Op} (hc : IssuedAs c op t f (fenceBody t o)) (hi : Issues s.pack t op f) {P : Prop}
    (hP : fenceMet s.pack t o = true ↔ P) :
    (P → Gives c s (s.pack.settle t (s.pack.thread t).past)) ∧
      (¬ P → Gives c s (s.pack.on t.pkg (fun g => (g.issued t).waitTh t (.fence o)))) := by
  refine ⟨fun h => hc.gives_of_nop hi ?_, fun h => hc.gives_of_wait hi _ ?_⟩
  · rw [fenceBody_atIssue, if_pos (hP.mpr h)]
  · rw [fenceBody_atIssue, if_neg (fun hm => h (hP.mp hm))]

end

/-- Settles O12: each fence tests what its unit and the queues hold. -/
theorem fences : Obligations.Fences := by
  intro s t f g done hold noWrite noRead noOp
  have hwrite : g.writesDone t (g.seq + 1) = true ↔ noWrite := g.writesDone_iff t _
  have hread : g.readsDone t (g.seq + 1) = true ↔ noRead := g.readsDone_iff t _
  refine ⟨fun hi => ?_, fun hi => ?_, fun hi => ?_, fun hi => ?_⟩
  · exact IssuedAs.gives_of_fence (fun _ => rfl) hi hwrite
  · exact IssuedAs.gives_of_fence (fun _ => rfl) hi ((Bool.and_eq_true _ _).to_iff.trans (and_congr hwrite hread))
  · exact IssuedAs.gives_of_fence (fun _ => rfl) hi (s.pack.engDone_iff t _)
  · exact IssuedAs.gives_of_nop (body := fenceBody t .fenceI) (fun _ => rfl) hi rfl

/-! ## LD and ST at issue (R28, R30, R98) -/

section
variable {p : Pack} {t : Tid} {a size : Nat}

/-- The address is misaligned, or of register space and not of 4 bytes. -/
def Skew (a size : Nat) : Prop := a % size ≠ 0 ∨ (a / 2 ^ 48 % 16 = 3 ∧ size ≠ 4)

/-- The address names a member and a pair of R28. -/
def Named (p : Pack) (t : Tid) (a : Nat) : Prop :=
  (∃ pk, p.at t.pkg (a / 2 ^ 58) = some pk) ∧
    staticOk (if a / 2 ^ 52 % 64 = 63 then t.site else a / 2 ^ 52 % 64) (a / 2 ^ 48 % 16) (a % 2 ^ 48) = true

theorem issueBad_skew (h : Skew a size) : p.issueBad t a size = some 5 := by
  simp only [Pack.issueBad, Nat.shiftRight_eq_div_pow]
  exact if_pos h

theorem issueBad_unnamed (ha : a < 2 ^ 64) (h : ¬ Skew a size) (hn : ¬ Named p t a) : p.issueBad t a size = some 1 := by
  have hpos : a / 2 ^ 58 % 64 = a / 2 ^ 58 := Nat.mod_eq_of_lt (by omega)
  simp only [Pack.issueBad, Nat.shiftRight_eq_div_pow, hpos]
  refine (if_neg h).trans (if_pos ?_)
  simp only [Named, not_and_or, Bool.not_eq_true, ← Option.isSome_iff_exists] at hn
  rw [← Option.not_isSome, Bool.or_eq_true]
  exact hn.imp (fun h => by rw [h]; rfl) (fun h => by rw [h]; rfl)

theorem issueBad_named (ha : a < 2 ^ 64) (h : ¬ Skew a size) (hn : Named p t a) : p.issueBad t a size = none := by
  have hpos : a / 2 ^ 58 % 64 = a / 2 ^ 58 := Nat.mod_eq_of_lt (by omega)
  obtain ⟨⟨pk, hpk⟩, hstatic⟩ := hn
  simp only [Pack.issueBad, Nat.shiftRight_eq_div_pow, hpos]
  refine (if_neg h).trans (if_neg ?_)
  rw [hpk, hstatic]
  exact Bool.false_ne_true

end

theorem lsAddr_eq (x : Thread) (f : Fields) :
    lsAddr x f = BitVec.ofInt 64 ((x.s f.a.toNat).toNat + (f.imm.extractLsb' 0 28).toInt) := by
  rw [BitVec.ofInt_add, BitVec.ofInt_natCast, BitVec.ofNat_toNat, BitVec.setWidth_eq, lsAddr,
    show f.imm.extractLsb' 0 28 = f.imm.setWidth 28 from BitVec.setWidth_eq_extractLsb' (by decide) |>.symm]
  rfl

theorem lsSize_eq (f : Fields) : f.i 31 30 = f.imm.toNat / 2 ^ 30 := by
  have := f.imm.isLt
  rw [Fields.i, fld_eq]
  omega

section
variable {c : Instr} {op : Op} {t : Tid} {f : Fields} {body : Body} {s : State}

theorem IssuedAs.gives_of_trap_at (hc : IssuedAs c op t f body) (hi : Issues s.pack t op f) {cause : Nat} {a : Word}
    (hbody : body (s.pack.thread t) (s.pack.atIssue t) = (s.pack.atIssue t, .trap cause (some a))) :
    Gives c s (s.pack.on t.pkg (fun g => (g.issued t).except t (s.pack.thread t).pc cause a)) := by
  rw [Pack.atIssue] at hbody
  exact hc.gives (by rw [issue_runs hi, hbody, leave_trap_at])

theorem IssuedAs.gives_with (hc : IssuedAs c op t f body) (hi : Issues s.pack t op f) (h : Pkg → Pkg)
    (hth : ∀ g : Pkg, (h g).th t = g.th t)
    (hbody : body (s.pack.thread t) (s.pack.atIssue t) = ((s.pack.atIssue t).on t.pkg h, .adv)) :
    Gives c s (s.pack.settleWith t (s.pack.thread t).past h) := by
  rw [Pack.atIssue] at hbody
  refine hc.gives ?_
  rw [issue_runs hi, hbody]
  simp only [Pack.leave, Pkg.finish, Pack.on_on, Pack.settleWith]
  exact Pack.on_congr (by simp [Pkg.onTh, Pack.thread, Thread.past, Thread.adv, hth])

end

section
variable {t : Tid} {f : Fields} {x : Thread} {p : Pack}

/-- The load that LD puts in flight. -/
def newLoad (p : Pack) (t : Tid) (f : Fields) (x : Thread) : Load :=
  { seq := (p.g t.pkg).seq, t := t, pc := x.pc, addr := lsAddr x f, size := 2 ^ f.i 31 30, sx := f.ib 29, d := f.d.toNat,
    reach := p.reachAtIssue t (lsAddr x f).toNat }

/-- The store that ST puts in flight. -/
def newStore (p : Pack) (t : Tid) (f : Fields) (x : Thread) : Store :=
  { seq := (p.g t.pkg).seq, t := t, pc := x.pc, addr := lsAddr x f, size := 2 ^ f.i 31 30, data := x.s f.b.toNat,
    reach := p.reachAtIssue t (lsAddr x f).toNat }

theorem ldBody_bad {cause : Nat} (h : p.issueBad t (lsAddr x f).toNat (2 ^ f.i 31 30) = some cause) :
    ldBody t f x p = (p, .trap cause (some (lsAddr x f))) := by
  simp only [ldBody, h]

theorem ldBody_full (h : p.issueBad t (lsAddr x f).toNat (2 ^ f.i 31 30) = none)
    (hfull : 8 ≤ ((p.g t.pkg).loadsOf t).length ∨ 64 ≤ (p.g t.pkg).unitFlight t) : ldBody t f x p = (p, .wait .mem) := by
  simp only [ldBody, h, hfull, if_true]

theorem ldBody_goes (h : p.issueBad t (lsAddr x f).toNat (2 ^ f.i 31 30) = none)
    (hroom : ¬ (8 ≤ ((p.g t.pkg).loadsOf t).length ∨ 64 ≤ (p.g t.pkg).unitFlight t)) :
    ldBody t f x p = (p.on t.pkg (fun g => { g with loads := g.loads ++ [newLoad p t f x] }), .adv) := by
  simp only [ldBody, h, hroom, if_false, newLoad]

theorem stBody_bad {cause : Nat} (h : p.issueBad t (lsAddr x f).toNat (2 ^ f.i 31 30) = some cause) :
    stBody t f x p = (p, .trap cause (some (lsAddr x f))) := by
  simp only [stBody, h]

theorem stBody_full (h : p.issueBad t (lsAddr x f).toNat (2 ^ f.i 31 30) = none)
    (hfull : 16 ≤ ((p.g t.pkg).storesOf t).length ∨ 64 ≤ (p.g t.pkg).unitFlight t) : stBody t f x p = (p, .wait .mem) := by
  simp only [stBody, h, hfull, if_true]

theorem stBody_goes (h : p.issueBad t (lsAddr x f).toNat (2 ^ f.i 31 30) = none)
    (hroom : ¬ (16 ≤ ((p.g t.pkg).storesOf t).length ∨ 64 ≤ (p.g t.pkg).unitFlight t)) :
    stBody t f x p = (p.on t.pkg (fun g => { g with stores := g.stores ++ [newStore p t f x] }), .adv) := by
  simp only [stBody, h, hroom, if_false, newStore]

end

/-- Settles O13: an access is refused, waits for room, or is put in flight; LD and ST differ in their limit and in what they put. -/
theorem loadAndStoreIssue : Obligations.LoadAndStoreIssue := by
  intro s t f g x a size trap hold reach ld st site skew named
  have haddr : lsAddr x f = a := lsAddr_eq x f
  have hsize : 2 ^ f.i 31 30 = size := by rw [lsSize_eq]
  have hg : (s.pack.atIssue t).g t.pkg = g.issued t := Pack.on_g_self ..
  have hskewed (h : skew) : (s.pack.atIssue t).issueBad t (lsAddr x f).toNat (2 ^ f.i 31 30) = some 5 := by
    rw [haddr, hsize]; exact issueBad_skew h
  have hunnamed (h : ¬ skew) (hn : ¬ named) : (s.pack.atIssue t).issueBad t (lsAddr x f).toNat (2 ^ f.i 31 30) = some 1 := by
    rw [haddr, hsize]; exact issueBad_unnamed a.isLt h hn
  have hnamed (h : ¬ skew) (hn : named) : (s.pack.atIssue t).issueBad t (lsAddr x f).toNat (2 ^ f.i 31 30) = none := by
    rw [haddr, hsize]; exact issueBad_named a.isLt h hn
  have hld : newLoad (s.pack.atIssue t) t f x = ld := by
    simp only [newLoad, haddr, hsize, hg]; rfl
  have hst : newStore (s.pack.atIssue t) t f x = st := by
    simp only [newStore, haddr, hsize, hg]; rfl
  refine ⟨fun hi => ⟨fun hs => ?_, fun hs hn => ?_, fun hs hn hfull => ?_, fun hs hn hl hu => ?_⟩,
    fun hi => ⟨fun hs => ?_, fun hs hn => ?_, fun hs hn hfull => ?_, fun hs hn hl hu => ?_⟩⟩
  · simp only [trap, ← haddr]
    exact IssuedAs.gives_of_trap_at (body := ldBody t f) (fun _ => rfl) hi (ldBody_bad (hskewed hs))
  · simp only [trap, ← haddr]
    exact IssuedAs.gives_of_trap_at (body := ldBody t f) (fun _ => rfl) hi (ldBody_bad (hunnamed hs hn))
  · exact IssuedAs.gives_of_wait (body := ldBody t f) (fun _ => rfl) hi .mem (ldBody_full (hnamed hs hn) (hg ▸ hfull))
  · refine IssuedAs.gives_with (body := ldBody t f) (fun _ => rfl) hi _ (fun _ => rfl) ?_
    rw [← hld]
    exact ldBody_goes (hnamed hs hn) (hg ▸ not_or.mpr ⟨Nat.not_le.mpr hl, Nat.not_le.mpr hu⟩)
  · simp only [trap, ← haddr]
    exact IssuedAs.gives_of_trap_at (body := stBody t f) (fun _ => rfl) hi (stBody_bad (hskewed hs))
  · simp only [trap, ← haddr]
    exact IssuedAs.gives_of_trap_at (body := stBody t f) (fun _ => rfl) hi (stBody_bad (hunnamed hs hn))
  · exact IssuedAs.gives_of_wait (body := stBody t f) (fun _ => rfl) hi .mem (stBody_full (hnamed hs hn) (hg ▸ hfull))
  · refine IssuedAs.gives_with (body := stBody t f) (fun _ => rfl) hi _ (fun _ => rfl) ?_
    rw [← hst]
    exact stBody_goes (hnamed hs hn) (hg ▸ not_or.mpr ⟨Nat.not_le.mpr hl, Nat.not_le.mpr hu⟩)

end Sys2Proof.Machine
end

section
/-! PROOFS. The commands that change one package alone. -/

namespace Sys2Proof.Machine

/-- The pack differs from `s` at package `k` alone. -/
structure Pack.OnlyAt (k : Nat) (s p : Pack) : Prop where
  mem : p.mem = s.mem
  flight : p.flight = s.flight
  wire : p.wire = s.wire
  fresh : p.fresh = s.fresh
  other : ∀ j, j ≠ k → p.g j = s.g j

theorem Pack.OnlyAt.refl (k : Nat) (s : Pack) : s.OnlyAt k s := ⟨rfl, rfl, rfl, rfl, fun _ _ => rfl⟩

theorem Pack.OnlyAt.on (s : Pack) (k : Nat) (f : Pkg → Pkg) : s.OnlyAt k (s.on k f) :=
  ⟨rfl, rfl, rfl, rfl, fun _ hj => Pack.on_g_ne s f hj⟩

theorem Pack.OnlyAt.trans {k : Nat} {s p q : Pack} (h : s.OnlyAt k p) (h' : p.OnlyAt k q) : s.OnlyAt k q :=
  ⟨h'.mem.trans h.mem, h'.flight.trans h.flight, h'.wire.trans h.wire, h'.fresh.trans h.fresh,
    fun j hj => (h'.other j hj).trans (h.other j hj)⟩

theorem Pack.OnlyAt.atHub {k : Nat} {s : Pack} {f : Pack → Pack} (h : s.OnlyAt k (f s)) : s.OnlyAt k (s.atHub k f) := by
  unfold Pack.atHub
  split
  · exact h
  · exact .refl k s

theorem Pack.OnlyAt.atHub_on (s : Pack) (k : Nat) (f : Pkg → Pkg) : s.OnlyAt k (s.atHub k (fun s => s.on k f)) := .atHub (.on s k f)

theorem Pack.takeAssign_onlyAt (s : Pack) (k n p serial : Nat) : s.OnlyAt k (s.takeAssign k n p serial) := by
  unfold Pack.takeAssign
  dsimp only
  split
  · exact .refl k s
  · split
    · exact .refl k s
    · exact .on ..

theorem Pack.revertDone_onlyAt (s : Pack) (k p step : Nat) : s.OnlyAt k (s.revertDone k p step) := by
  unfold Pack.revertDone
  dsimp only
  split
  · exact .refl k s
  · exact .on ..

/-- A command of package `k` changes that package alone: it is a change of the package, for most where its hub is up. -/
theorem exec_onlyAt (c : Instr) (s : State) {k : Nat} (h : c.alone = some k) : Leaves c s (fun p => s.pack.OnlyAt k p) := by
  cases c <;> (simp only [Instr.alone, Option.some.injEq, reduceCtorEq] at h) <;> subst h
  case assign => exact ⟨_, rfl, .atHub (Pack.takeAssign_onlyAt ..)⟩
  case revertDone => exact ⟨_, rfl, .atHub (Pack.revertDone_onlyAt ..)⟩
  case permDone | d2dFerlimWindow | d2dMapSwitch | d2dBundleTimeout | d2dClockLoss | d2dRetrain | routingTable | followerErrorPosition
      | kreserveGrant | leadClaim | partitionTimeout | serdesHubSilence | hubBudgetPeriod | inputSample | emergencyEnd
      | thermalThrottleStep | arrayClockIdleStop | holderReport | cutMirror | warmupArmReceipt | warmupCombined | commit | sealAck
      | refresh | selfRefreshExit | sweepAccumulator =>
    exact ⟨_, rfl, .atHub_on ..⟩
  all_goals exact ⟨_, rfl, .on ..⟩

/-- Settles O60. -/
theorem commandsOfOnePackage : Obligations.CommandsOfOnePackage := by
  intro s c k h
  obtain ⟨p, hp, h⟩ := exec_onlyAt c s h
  exact ⟨p, hp, h.mem, h.flight, h.wire, h.fresh, h.other⟩

end Sys2Proof.Machine
end

section
/-! PROOFS. Tile instructions are handed over to their array or engine (R63, R92, R122 to R128, R134 to R138). -/

namespace Sys2Proof.Machine

section
variable {c : Instr} {op : Op} {t : Tid} {f : Fields} {body : Body} {s : State}

/-- The input queue of an operation has room, and nobody waits for room in it (R63, R92). -/
def Pkg.turn (g : Pkg) (r : OpRec) : Prop := g.room r = true ∧ ∀ y ∈ g.roomWaits, sameInput r y = false

theorem hand_turn {p : Pack} {r : OpRec} (h : (p.g r.t.pkg).turn r) : p.hand r = (p.on r.t.pkg (fun g => g.handOver r), .adv) := by
  obtain ⟨hroom, hwait⟩ := h
  simp only [Pack.hand, hroom, Bool.true_and]
  exact if_pos (List.all_eq_true.mpr fun y hy => by rw [hwait y hy]; rfl)

theorem hand_wait {p : Pack} {r : OpRec} (h : ¬ (p.g r.t.pkg).turn r) : p.hand r = (p, .wait (.room r 0 none)) := by
  refine if_neg fun hall => h ?_
  obtain ⟨hroom, hwait⟩ := (Bool.and_eq_true ..).to_iff.mp hall
  exact ⟨hroom, fun y hy => by simpa using List.all_eq_true.mp hwait y hy⟩

/-- What an instruction that hands the operation `r` over leaves: the operation in its queue, or the thread waiting for room. -/
theorem IssuedAs.gives_of_hand (hc : IssuedAs c op t f body) (hi : Issues s.pack t op f) {r : OpRec} (hr : r.t = t)
    (hbody : body (s.pack.thread t) (s.pack.atIssue t) = (s.pack.atIssue t).hand r) :
    ((s.pack.g t.pkg).turn r → r.toArray = true →
      Gives c s (s.pack.settleWith t (s.pack.thread t).past (fun g => { g with aops := g.aops ++ [r] }))) ∧
    ((s.pack.g t.pkg).turn r → r.toArray = false →
      Gives c s (s.pack.settleWith t (s.pack.thread t).past (fun g => { g with eops := g.eops ++ [r] }))) ∧
    (¬ (s.pack.g t.pkg).turn r → Gives c s (s.pack.on t.pkg (fun g => (g.issued t).waitTh t (.room r 0 none)))) := by
  have hturn : ((s.pack.atIssue t).g r.t.pkg).turn r ↔ (s.pack.g t.pkg).turn r := by
    rw [hr, Pack.atIssue, Pack.on_g_self]; rfl
  have hgoes (h : (s.pack.g t.pkg).turn r) :
      body (s.pack.thread t) (s.pack.atIssue t) = ((s.pack.atIssue t).on t.pkg (fun g => g.handOver r), .adv) := by
    rw [hbody, hand_turn (hturn.mpr h), hr]
  refine ⟨fun h ha => ?_, fun h ha => ?_, fun h => ?_⟩
  · refine hc.gives_with hi _ (fun _ => rfl) ((hgoes h).trans ?_)
    simp only [Pkg.handOver, ha, if_true]
  · refine hc.gives_with hi _ (fun _ => rfl) ((hgoes h).trans ?_)
    simp only [Pkg.handOver, ha, Bool.false_eq_true, if_false]
  · exact hc.gives_of_wait hi _ (hbody.trans (hand_wait (fun h' => h (hturn.mp h'))))

end

/-! What each tile instruction hands over, its checks passed -/

section
variable {t : Tid} {f : Fields} {x : Thread} {p : Pack}

theorem mmaBody_hands (h : mmaChk p t f (x.td f.a.toNat) (x.td f.b.toNat) = none) :
    mmaBody t f x p = p.hand (mkOp (p.g t.pkg) .mma t f x [x.s (f.i 16 12)]) := by
  simp only [mmaBody, h]

theorem mmbBody_hands (h : mmbChk p t f (x.td f.a.toNat) (x.td f.b.toNat) (x.td f.c.toNat) = none) :
    mmbBody t f x p = p.hand (mkOp (p.g t.pkg) .mmb t f x [x.s (f.i 8 4)]) := by
  simp only [mmbBody, h]

theorem epiBody_hands (h : epiChk p t f (x.td f.d.toNat) (x.td f.b.toNat)
      [x.s f.c.toNat, x.s (f.c.toNat + 1), x.s (f.c.toNat + 2)] = none) :
    epiBody t f x p = p.hand (mkOp (p.g t.pkg) .epi t f x [x.s f.c.toNat, x.s (f.c.toNat + 1), x.s (f.c.toNat + 2)]) := by
  simp only [epiBody, h]

theorem eltBody_hands {op : Op} (h : eltChk p op t f (x.td f.d.toNat) (x.td f.a.toNat) (x.td f.b.toNat) (x.s f.c.toNat) = none) :
    eltBody op t f x p = p.hand (mkOp (p.g t.pkg) op t f x [x.s f.c.toNat, x.s (f.i 7 3)]) := by
  simp only [eltBody, h]

theorem randtBody_hands (h : randtChk p t f = none) (hseq : f.ib 10 = false) :
    randtBody t f x p = p.hand (mkOp (p.g t.pkg) .randt t f x [x.s f.a.toNat, x.s f.b.toNat]) := by
  simp only [randtBody, h, hseq, Bool.false_eq_true, if_false]

theorem firstBad_none {l : List (Option (Nat × Option Word))} (h : ∀ y ∈ l, y = none) : firstBad l = none := by
  induction l with
  | nil => rfl
  | cons y r ih =>
    obtain ⟨rfl, hr⟩ := List.forall_mem_cons.mp h
    exact ih hr

theorem need_none {ok : Bool} {c : Nat} (h : ok = true) : need ok c = none := by
  rw [h]; rfl

theorem tileChk_none {d : Tile} (h : d.bad = none) : tileChk d = none := by
  rw [tileChk, h]; rfl

/-- The record of a KSTASH or KFETCH lies inside its micro-batch's reservation (R134, R135). -/
structure Pkg.Inside (g : Pkg) (d : Tile) (mbid off : Nat) : Prop where
  aligned : off % 64 = 0
  inRange : mbid ≤ 511
  view : d.bad = none
  format : kFmtOk d = true
  pipe : g.pipeOn = true
  held : g.mbHeld mbid = true
  fits : off + recBytes d ≤ g.mbGran mbid * 4096

theorem kstashBody_hands (h : (p.g t.pkg).Inside (x.td f.a.toNat) ((x.s f.b.toNat).toNat % 2 ^ 16) (x.s f.c.toNat).toNat)
    (hview : viewChk p t (x.td f.a.toNat) 32 32 = none) :
    kstashBody t f x p = p.hand (mkOp (p.g t.pkg) .kstash t f x [x.s f.b.toNat, x.s f.c.toNat]) := by
  obtain ⟨haligned, hmbid, hbad, hformat, hpipe, hheld, hfits⟩ := h
  have hchk := firstBad_none (l := [need (p.g t.pkg).pipeOn 2, need (decide ((x.s f.b.toNat).toNat % 2 ^ 16 ≤ 511)) 6,
    tileChk (x.td f.a.toNat), need (kFmtOk (x.td f.a.toNat)) 6, need ((x.s f.c.toNat).toNat % 64 == 0) 5,
    viewChk p t (x.td f.a.toNat) 32 32])
    (by simp [-Nat.reducePow, need, tileChk, haligned, hbad, hformat, hpipe, hview, decide_eq_true hmbid])
  simp only [kstashBody, hchk, hheld, Bool.not_true, Bool.false_eq_true, or_false, Nat.not_lt.mpr hfits, if_false]

theorem kfetchBody_hands (h : (p.g t.pkg).Inside (x.td f.d.toNat) ((x.s f.b.toNat).toNat % 2 ^ 16) (x.s f.c.toNat).toNat) :
    kfetchBody t f x p = p.hand (mkOp (p.g t.pkg) .kfetch t f x [x.s f.b.toNat, x.s f.c.toNat]) := by
  obtain ⟨haligned, hmbid, hbad, hformat, hpipe, hheld, hfits⟩ := h
  have hchk := firstBad_none (l := [need (p.g t.pkg).pipeOn 2, need (decide ((x.s f.b.toNat).toNat % 2 ^ 16 ≤ 511)) 6,
    tileChk (x.td f.d.toNat), need (kFmtOk (x.td f.d.toNat)) 6, need ((x.s f.c.toNat).toNat % 64 == 0) 5])
    (by simp [-Nat.reducePow, need, tileChk, haligned, hbad, hformat, hpipe, decide_eq_true hmbid])
  simp only [kfetchBody, hchk, hheld, Bool.not_true, Bool.false_eq_true, or_false, Nat.not_lt.mpr hfits, if_false]

theorem kfreeBody_hands (hpipe : (p.g t.pkg).pipeOn = true) (hmbid : (x.s f.b.toNat).toNat % 2 ^ 16 ≤ 511)
    (hbusy : (p.g t.pkg).kBusy ((x.s f.b.toNat).toNat % 2 ^ 16) = true) :
    kfreeBody t f x p = p.hand (mkOp (p.g t.pkg) .kfree t f x [x.s f.b.toNat]) := by
  simp only [kfreeBody, hpipe, Bool.not_true, Bool.false_eq_true, if_false, Nat.not_lt.mpr hmbid, hbusy, if_true]

theorem gatherBody_hands (hbad : (x.td f.d.toNat).bad = none) (hscale : (p.g t.pkg).scaleOn t.site = true)
    (hceng : (p.g t.pkg).cengOn t.site = true) (hstate : (p.g t.pkg).stateOn = true)
    (hview : viewChk p t (x.td f.d.toNat) 32 (32 * (f.i 10 3 + 1)) = none) :
    gatherBody t f x p = p.hand (mkOp (p.g t.pkg) .gather t f x [x.s f.a.toNat]) := by
  have hchk := firstBad_none (l := [tileChk (x.td f.d.toNat), need ((p.g t.pkg).scaleOn t.site) 2, need ((p.g t.pkg).cengOn t.site) 2,
    need (p.g t.pkg).stateOn 2, viewChk p t (x.td f.d.toNat) 32 (32 * (f.i 10 3 + 1))]) (by simp [need, tileChk, *])
  simp only [gatherBody, hchk]

end

/-- Of the operations but CONTRIB, the matrix instructions and EPI go to arrays. -/
theorem OpRec.toArray_iff (r : OpRec) (h : r.op ≠ .contrib) : r.toArray = true ↔ r.op = .mma ∨ r.op = .mmb ∨ r.op = .epi := by
  unfold OpRec.toArray OpRec.arrays OpRec.tiles
  split <;> simp_all

/-- Settles O16: each body, its checks passed, is `Pack.hand` of the operation. -/
theorem operationsAreHandedOver : Obligations.OperationsAreHandedOver := by
  intro s t f op v g x p r d a b c c3 mbid off inside ready turn hi hready
  have hg : p.g t.pkg = g.issued t := Pack.on_g_self ..
  have hr (op' : Op) (w : List Word) : mkOp (p.g t.pkg) op' t f x w = { r with op := op', v := w } := by
    rw [hg]; rfl
  have harr : r.toArray = true ↔ op = .mma ∨ op = .mmb ∨ op = .epi := r.toArray_iff fun (hop : op = .contrib) => by
    subst hop
    simp [ready] at hready
  suffices hbody : ∃ body, IssuedAs (op.toInstr t f) op t f body ∧ body x p = p.hand r by
    obtain ⟨body, hc, hbody⟩ := hbody
    obtain ⟨h1, h2, h3⟩ := hc.gives_of_hand hi rfl hbody
    exact ⟨h1, h2, h3, harr⟩
  obtain ⟨rfl, rfl, h⟩ | ⟨rfl, rfl, h⟩ | ⟨rfl, rfl, h⟩ | ⟨hop, rfl, h⟩ | ⟨rfl, rfl, h, hv⟩ | ⟨rfl, rfl, h⟩ | ⟨rfl, rfl, hp, hm, hb⟩ |
    ⟨rfl, hq, rfl, h⟩ | ⟨rfl, rfl, hb, hs, hc, ht, hv⟩ := hready
  · exact ⟨mmaBody t f, fun _ => rfl, (mmaBody_hands h).trans (by rw [hr])⟩
  · exact ⟨mmbBody t f, fun _ => rfl, (mmbBody_hands h).trans (by rw [hr])⟩
  · exact ⟨epiBody t f, fun _ => rfl, (epiBody_hands h).trans (by rw [hr])⟩
  · obtain rfl | rfl | rfl := hop
    · exact ⟨eltBody .fnv t f, fun _ => rfl, (eltBody_hands h).trans (by rw [hr])⟩
    · exact ⟨eltBody .fnd t f, fun _ => rfl, (eltBody_hands h).trans (by rw [hr])⟩
    · exact ⟨eltBody .cvt t f, fun _ => rfl, (eltBody_hands h).trans (by rw [hr])⟩
  · obtain ⟨ha, hm, hbad, hfmt, hpipe, hheld, hfit⟩ := h
    exact ⟨kstashBody t f, fun _ => rfl, (kstashBody_hands (hg ▸ ⟨ha, hm, hbad, hfmt, hpipe, hheld, hfit⟩) hv).trans (by rw [hr])⟩
  · obtain ⟨ha, hm, hbad, hfmt, hpipe, hheld, hfit⟩ := h
    exact ⟨kfetchBody t f, fun _ => rfl, (kfetchBody_hands (hg ▸ ⟨ha, hm, hbad, hfmt, hpipe, hheld, hfit⟩)).trans (by rw [hr])⟩
  · exact ⟨kfreeBody t f, fun _ => rfl, (kfreeBody_hands (hg ▸ hp) hm (hg ▸ hb)).trans (by rw [hr])⟩
  · exact ⟨randtBody t f, fun _ => rfl, (randtBody_hands h hq).trans (by rw [hr])⟩
  · exact ⟨gatherBody t f, fun _ => rfl, (gatherBody_hands hb (hg ▸ hs) (hg ▸ hc) (hg ▸ ht) hv).trans (by rw [hr])⟩

end Sys2Proof.Machine
end

section
/-! PROOFS. Refutations by evaluation: the states, and what a command leaves in them -/

namespace Sys2Proof.Machine

/-! ## Concrete states: what a refutation evaluates -/

/-- The pack that a command leaves. -/
def after (c : Instr) (s : State) : Pack :=
  match exec c s with
  | .next t => t.pack
  | _ => s.pack

theorem Gives.after_eq {c : Instr} {s : State} {p : Pack} (h : Gives c s p) : after c s = p := by
  rw [after, show exec c s = _ from h]

/-- A statement about what a command leaves is about the pack it evaluates to. -/
theorem Leaves.after {c : Instr} {s : State} {P : Pack → Prop} (h : Leaves c s P) : P (after c s) := by
  obtain ⟨p, hp, hP⟩ := h
  rwa [hp.after_eq]

/-- `Issues` as a test. -/
def issuesNow (s : Pack) (t : Tid) (op : Op) (f : Fields) : Bool :=
  (s.g t.pkg).canIssue t && (!(s.g t.pkg).issueHeld && (encOk op f && ((s.thread t).pred f.gp.toNat != f.gn && !(s.g t.pkg).awaits t op f)))

theorem issues_of_now {s : Pack} {t : Tid} {op : Op} {f : Fields} (h : issuesNow s t op f = true) : Issues s t op f := by
  simp only [issuesNow, Bool.and_eq_true, bne_iff_ne, Bool.not_eq_true'] at h
  obtain ⟨hcan, hfree, henc, hguard, hloaded⟩ := h
  exact ⟨hcan, hfree, henc, hguard, hloaded⟩

/-- Package 0 in P0: die 0 started with its units and blocks enabled, the hub's blocks enabled, past the ROM phase. -/
def sampleOn : Pkg :=
  { regs := ([(rGateU 0 0, 0xFFFF#32), (rGateC 0, 0xFFFF#32), (rGateB 0, 0x7F#32), (rGate0, 0x3F#32), (rGates, 0xFFF#32),
      (rPackEpoch, 1#32), (rMemLo, 1#32), (rPackId, 0xC0#32), (rKey 0, 0x20000000#32)] : List (Nat × W32)).foldl (fun m p => mins m p.1 p.2) [],
    started := [(0, true)], hk := { state := 2, perst := false, pwrok := true } }

/-- A machine of one package. -/
def alone (g : Pkg) : State := { pack := { pkgs := [(0, g)] }, pending := [] }

/-- Thread 0 of unit 0 of die 0. -/
def thread0 : Tid := { pkg := 0, site := 0, unit := 0, thr := 0 }

/-! ### A sequential RANDT whose descriptor has a reserved bit set -/

def randtReserved : Pkg :=
  { (sampleOn.setTh thread0 { st := .ready, tiles := [(0, { w4 := 0x8000000000000000 })] }) with strm := [(0, { ctl := 0x01000001#32 })] }
def randtSeq : Fields := { d := 0, a := 1, b := 2, c := 0, gn := false, gp := 0, imm := 0x400 }

/-- Refutes O22: a sequential RANDT whose tdst has a reserved bit set raises CAUSE 0x03 and reserves nothing. -/
theorem not_randomInstructions : ¬ Obligations.RandomInstructions := by
  intro h
  obtain ⟨-, hrandt⟩ := h (alone randtReserved) thread0 randtSeq { key := 0, step := 0, f16 := 0, site := 0, lane := 0 }
    (by decide +kernel) (by decide +kernel)
  exact absurd (hrandt (issues_of_now (by decide +kernel)) (by decide +kernel) (by decide +kernel)).after (by decide +kernel)

/-! ### A RANDT whose destination is register space -/

/-- A RANDT of one draw of slot 0 that leads to the THREAD block of its own unit. -/
def randtToRegs : OpRec :=
  { seq := 0, t := thread0, pc := 0, op := .randt, f := { d := 0, a := 1, b := 2, c := 0, gn := false, gp := 0, imm := 0 },
    td := { w0 := 0x03F3000000010000 }, ta := {}, tb := {}, tc := {}, v := [] }
def randtRegs : Pkg := { sampleOn with strm := [(0, { ctl := 0x00000001#32 })], eops := [randtToRegs] }
def draw0 : Draw := { key := 0, step := 0, f16 := 0, site := 0, lane := 0 }
def unitRegs : Loc := { pk := 0, site := 0, space := 3, off := 0x10000 }
/-- Refutes O26: a RANDT whose tdst leads to registers writes no record, as the output writer reports an ENGINE_ACCESS instead. -/
theorem not_engineOperationCompletes : ¬ Obligations.EngineOperationCompletes := by
  intro h
  obtain ⟨-, -, hrecords, -⟩ := (h (alone randtRegs) 0 randtToRegs draw0 unitRegs 0 (by decide +kernel) rfl rfl rfl
    (by decide +kernel) (by decide +kernel) (by decide +kernel) (by decide +kernel) (by decide +kernel) (by decide +kernel)).after
  exact absurd (hrecords 0 (by decide)) (by decide +kernel)

/-! ### A store of threads in which one key stands twice -/

/-- A thread whose stale wait would be for tokens of counter 3; its descriptor 0 names 2,048 bytes. -/
def kstasher : Thread :=
  { tiles := [(0, { w0 := 0x03F1000000001000, w3 := 64, w4 := 0x0018000000000000 })], regs := [(1, 5), (2, 8192)], st := .ready,
    wait := some (.token 3 0 true 0 none) }
/-- Micro-batch 5 held with two granules; the entry of thread 0 stands twice, the second one waiting. -/
def kstashTwice : Pkg :=
  { (sampleOn.wr (rMbt 5 0) (mk32 (2 ^ 18))).wr (rMbt 5 0x10) 2 with thr := [(0, kstasher), (0, { kstasher with st := .wait })] }
def kstashPast : Fields := { d := 0, a := 0, b := 1, c := 2, gn := false, gp := 0, imm := 0x04300000 }
/-- Refutes O17: in a state whose store of threads holds the key of the thread twice, the tokens that its completion count delivers serve the second entry, and the thread goes on two instructions further. -/
theorem not_kennelOverrun : ¬ Obligations.KennelOverrun := by
  intro h
  obtain ⟨-, -, -, -, -, -, -, -, hgoes⟩ := (h (alone kstashTwice) thread0 kstashPast (issues_of_now (by decide +kernel))
    (by decide +kernel) (by decide +kernel) (by decide +kernel) (by decide +kernel) (by decide +kernel) (by decide +kernel)
    (by decide +kernel)).after
  exact absurd (hgoes (by decide +kernel)).2 (by decide +kernel)

end Sys2Proof.Machine
end

section
/-! PROOFS. Writes of UNIT.RUN (R96): threads start and stop -/

namespace Sys2Proof.Machine

/-! ## Writes of UNIT.RUN (R96) -/

/-- A thread whose wait is not for tokens is not served when its counters are. -/
def Thread.noToken (x : Thread) : Prop := ∀ c n b pd tm, x.wait ≠ some (.token c n b pd tm)

theorem Pkg.release_other (g : Pkg) {i j : Nat} (pd : Nat) (b : Bool) (h : j ≠ i) :
    mget ({} : Thread) (g.release i pd b).thr j = mget {} g.thr j := mget_mins_ne _ _ _ h

theorem Pkg.serveTakes_other (site u c : Nat) {j : Nat} : ∀ (l : List Nat) (g : Pkg), (mget ({} : Thread) g.thr j).noToken →
    mget {} (Pkg.serveTakes site u c l g).thr j = mget {} g.thr j
  | [], _, _ => rfl
  | i :: l, g, hj => by
    rw [Pkg.serveTakes]
    split
    · next n pd tm hi =>
      have hne : j ≠ i := fun e => hj _ _ _ _ _ (e ▸ hi)
      dsimp only
      split
      · refine (Pkg.serveTakes_other site u c l _ ?_).trans (Pkg.release_other _ pd true hne)
        rw [Pkg.release_other _ pd true hne]
        exact hj
      · rfl
    · exact Pkg.serveTakes_other site u c l g hj

theorem Pkg.serveWaits_other (site u c : Nat) {j : Nat} : ∀ (l : List Nat) (g : Pkg), (mget ({} : Thread) g.thr j).noToken →
    mget {} (Pkg.serveWaits site u c l g).thr j = mget {} g.thr j
  | [], _, _ => rfl
  | i :: l, g, hj => by
    rw [Pkg.serveWaits]
    split
    · next n pd tm hi =>
      have hne : j ≠ i := fun e => hj _ _ _ _ _ (e ▸ hi)
      split
      · refine (Pkg.serveWaits_other site u c l _ ?_).trans (Pkg.release_other _ pd true hne)
        rw [Pkg.release_other _ pd true hne]
        exact hj
      · exact Pkg.serveWaits_other site u c l g hj
    · exact Pkg.serveWaits_other site u c l g hj

theorem Pkg.serveTok_other (g : Pkg) (site u c : Nat) {j : Nat} (hj : (mget ({} : Thread) g.thr j).noToken) :
    mget {} (g.serveTok site u c).thr j = mget {} g.thr j := by
  rw [Pkg.serveTok]
  exact (Pkg.serveWaits_other _ _ _ _ _ (by rw [Pkg.serveTakes_other _ _ _ _ _ hj]; exact hj)).trans
    (Pkg.serveTakes_other _ _ _ _ _ hj)

theorem Pkg.lineLeft_other (g : Pkg) (key : Nat) (w : Option Wait) {j : Nat} (hj : (mget ({} : Thread) g.thr j).noToken) :
    mget {} (g.lineLeft key w).thr j = mget {} g.thr j := by
  unfold Pkg.lineLeft
  split
  · exact Pkg.serveTok_other g _ _ _ hj
  · rfl

theorem Pkg.lineLeft_noTake (g : Pkg) (key : Nat) {w : Option Wait} (hw : ∀ c n pd tm, w ≠ some (.token c n true pd tm)) :
    g.lineLeft key w = g := by
  unfold Pkg.lineLeft
  split
  · next c n pd tm => exact absurd rfl (hw c n pd tm)
  · rfl

/-- What no change of the listed records touches is the same at every index. -/
theorem mget_mmap_of_eq {α β : Type} {d : α} {f : Nat → α → α} {P : α → β} (h : ∀ i x, P (f i x) = P x) (i : Nat) :
    ∀ m : Map α, P (mget d (mmap f m) i) = P (mget d m i)
  | [] => rfl
  | p :: m => by
    rw [mmap, List.map_cons, mget, mget]
    split
    · exact h ..
    · exact mget_mmap_of_eq h i m

@[simp] theorem Pack.leaveLines_thr (s : Pack) (t : Tid) (k : Nat) : ((s.leaveLines t).g k).thr = (s.g k).thr := by
  rw [Pack.leaveLines, Pack.g, Pack.g]
  dsimp only
  refine mget_mmap_of_eq (P := Pkg.thr) ?_ k s.pkgs
  intro _ _
  rfl

/-- A fold in which one element of a list without repetitions does something. -/
theorem foldl_only {α β : Type} {f : α → β → α} {n : β} : ∀ {l : List β}, l.Nodup → n ∈ l → (∀ a, ∀ i ∈ l, i ≠ n → f a i = a) →
    ∀ a, l.foldl f a = f a n
  | i :: l, hl, hn, hf, a => by
    obtain ⟨hi, hl⟩ := List.nodup_cons.mp hl
    have hrest : ∀ (l' : List β), (∀ b ∈ l', b ∈ l ∧ b ≠ n) → ∀ a, l'.foldl f a = a := by
      intro l'
      induction l' with
      | nil => intro _ _; rfl
      | cons b l' ih =>
        intro hb a
        obtain ⟨hmem, hne⟩ := hb b (List.mem_cons_self ..)
        rw [List.foldl_cons, hf a b (List.mem_cons_of_mem _ hmem) hne]
        exact ih (fun c hc => hb c (List.mem_cons_of_mem _ hc)) a
    rw [List.foldl_cons]
    by_cases hin : i = n
    · subst hin
      exact hrest l (fun b hb => ⟨hb, fun e => hi (e ▸ hb)⟩) _
    · rw [hf a i (List.mem_cons_self ..) hin]
      exact foldl_only hl ((List.mem_cons.mp hn).resolve_left (Ne.symm hin)) (fun a j hj => hf a j (List.mem_cons_of_mem _ hj)) a

/-- A word that addresses the one thread `n`. -/
theorem runWrite_one (s : Pack) (k site u : Nat) {v : W32} {n : Nat} (hn : n < 16) (hmask : ∀ i < 16, bit v (16 + i) = decide (i = n)) :
    s.runWrite k site u v = if bit v n then s.on k (fun g => g.runStart site u n) else s.runStop k site u n := by
  rw [Pack.runWrite, foldl_only List.nodup_range (List.mem_range.mpr hn)]
  · simp [hmask n hn]
  · intro a i hi hne
    simp [hmask i (List.mem_range.mp hi), hne]

theorem bit_pow_add {i n : Nat} (hi : i < 16) (hn : n < 16) :
    (bit (mk32 (2 ^ (16 + n % 16) + 2 ^ (n % 16))) (16 + i) = decide (i = n)) ∧ bit (mk32 (2 ^ (16 + n % 16) + 2 ^ (n % 16))) n = true := by
  have h : ∀ i < 16, ∀ n < 16, (bit (mk32 (2 ^ (16 + n % 16) + 2 ^ (n % 16))) (16 + i) = decide (i = n)) ∧
      bit (mk32 (2 ^ (16 + n % 16) + 2 ^ (n % 16))) n = true := by decide
  exact h i hi n hn

theorem bit_pow {i n : Nat} (hi : i < 16) (hn : n < 16) :
    (bit (mk32 (2 ^ (16 + n % 16))) (16 + i) = decide (i = n)) ∧ bit (mk32 (2 ^ (16 + n % 16))) n = false := by
  have h : ∀ i < 16, ∀ n < 16, (bit (mk32 (2 ^ (16 + n % 16))) (16 + i) = decide (i = n)) ∧
      bit (mk32 (2 ^ (16 + n % 16))) n = false := by decide
  exact h i hi n hn

/-- A write of a unit's register that is served acts on its block at once. -/
theorem busWrite_unit {p : Pack} {k site off o : Nat} {m : Master} {v : W32} (hw : Writable p k m site off .unit o) :
    p.busWrite k m site off v = p.unitWrite k site (o / 0x400) (o % 0x400) v :=
  (busWrite_served hw).trans (regWrite_now rfl rfl rfl)

theorem busWrite_run {p : Pack} {k site u : Nat} {m : Master} {v : W32} (hw : Writable p k m site (0x10000 + 0x400 * u) .unit (0x400 * u)) :
    p.busWrite k m site (oUnit u 0) v = p.runWrite k site u v := by
  refine (busWrite_unit hw).trans ?_
  simp [Pack.unitWrite]

section
variable {s : State} {k site u n : Nat} {m : Master}

theorem gives_runStart (hn : n < 16) (hw : Writable s.pack k m site (0x10000 + 0x400 * u) .unit (0x400 * u)) :
    Gives (.runStart k m site u n) s (s.pack.on k (fun g => g.runStart site u n)) :=
  gives_of_onPack (h := fun p => p.busWrite k m site (oUnit u 0) (mk32 (2 ^ (16 + n % 16) + 2 ^ (n % 16)))) rfl (by
    rw [busWrite_run hw, runWrite_one _ _ _ _ hn (fun i hi => (bit_pow_add hi hn).1), if_pos (bit_pow_add hn hn).2])

theorem gives_runStop (hn : n < 16) (hw : Writable s.pack k m site (0x10000 + 0x400 * u) .unit (0x400 * u)) :
    Gives (.runStop k m site u n) s (s.pack.runStop k site u n) :=
  gives_of_onPack (h := fun p => p.busWrite k m site (oUnit u 0) (mk32 (2 ^ (16 + n % 16)))) rfl (by
    rw [busWrite_run hw, runWrite_one _ _ _ _ hn (fun i hi => (bit_pow hi hn).1), (bit_pow hn hn).2]
    rfl)
end

/-- The thread that RUN = 0 leaves. -/
def Thread.stopped (x : Thread) : Thread :=
  if x.st = .ready ∨ x.st = .wait then
    { x with st := .idle, wait := none, pc := match x.wait with | some (.resp _) => x.pc + 1 | _ => x.pc }
  else x

theorem Thread.stopped_eq {x : Thread} (h : x.st = .ready ∨ x.st = .wait) :
    x.stopped = { x with pc := if (x.wait.map Wait.issued).getD false then x.pc + 1 else x.pc, st := .idle, wait := none } := by
  rw [Thread.stopped, if_pos h]
  rcases x.wait with _ | w
  · rfl
  · cases w <;> rfl

/-- The threads of the package that RUN = 0 leaves: the thread stopped, then its line of TTAKEs looked at. -/
theorem runStop_thr (p : Pack) (k site u n : Nat) :
    let key := uk site u * 16 + n
    let x := mget ({} : Thread) (p.g k).thr key
    ((p.runStop k site u n).mem = p.mem) ∧
    (¬ (x.st = .ready ∨ x.st = .wait) → p.runStop k site u n = p) ∧
    ((x.st = .ready ∨ x.st = .wait) → ∃ g : Pkg, g.thr = mins (p.g k).thr key x.stopped ∧
      ((p.runStop k site u n).g k) = g.lineLeft key (if x.st = TState.wait then x.wait else none)) := by
  intro key x
  refine ⟨by simp, fun h => ?_, fun h => ?_⟩
  · rw [Pack.runStop]
    exact if_neg h
  · rw [Pack.runStop]
    simp only [show (mget ({} : Thread) (p.g k).thr (uk site u * 16 + n)) = x from rfl, if_pos h, Pack.on_g_self]
    refine ⟨_, ?_, rfl⟩
    rw [Thread.stopped_eq h]
    dsimp only
    split <;> simp [key]

/-- Settles O27: RUN acts on the one thread it addresses; a TTAKE that stops lets those behind it in its counter's line be served, which never touches a thread that waits for no tokens. -/
theorem threadsStartAndStop : Obligations.ThreadsStartAndStop := by
  intro s k m site u n g key x hu hn hw
  refine ⟨⟨_, gives_runStart hn hw, ?_⟩, ⟨_, gives_runStop hn hw, ?_⟩⟩
  · have hthr : ((s.pack.on k (fun g => g.runStart site u n)).g k).thr =
        if x.st = .idle ∨ x.st = .fault then mins g.thr key (x.go x.pc) else g.thr := by
      rw [Pack.on_g_self, Pkg.runStart]
      split <;> simp_all [key, x, uk, g]
    dsimp only
    rw [hthr]
    refine ⟨?_, fun j hj => ?_, rfl⟩
    · split
      · exact mget_mins_self ..
      · rfl
    · split
      · exact mget_mins_ne _ _ _ hj
      · rfl
  · obtain ⟨hmem, hother, hstops⟩ := runStop_thr s.pack k site u n
    by_cases hst : x.st = .ready ∨ x.st = .wait
    · obtain ⟨g', hthr, hg'⟩ := hstops hst
      have hself : mget {} g'.thr key = x.stopped := by rw [hthr]; exact mget_mins_self ..
      refine ⟨?_, fun hw j hj => ?_, hmem⟩
      · rw [hg']
        refine (Pkg.lineLeft_other _ _ _ ?_).trans hself
        rw [hself, Thread.stopped_eq hst]
        exact fun _ _ _ _ _ => nofun
      · rw [hg', Pkg.lineLeft_noTake, hthr]
        · exact mget_mins_ne _ _ _ hj
        · intro c n pd tm
          split
          · exact hw c n pd tm
          · nofun
    · rw [hother hst, if_neg hst]
      exact ⟨rfl, fun _ _ _ => rfl, rfl⟩

end Sys2Proof.Machine
end

section
/-! PROOFS. The UNIT block's registers; status words (R68, R448) -/

namespace Sys2Proof.Machine

/-! ## Status words (R68, R448) -/

/-- A bit of the complement of a field. -/
theorem testBit_255_sub {x j : Nat} (hx : x < 256) (hj : j < 8) : (0xFF - x).testBit j = !x.testBit j := by
  rw [show 0xFF - x = 2 ^ 8 - (x + 1) by omega, Nat.testBit_two_pow_sub_succ hx]
  simp [hj]

theorem staWrite_flags (w v : W32) {j : Nat} (hj : j < 8) : bit (staWrite w v) j = (bit w j && !bit v j) := by
  have hv : fld v 7 0 < 256 := by rw [fld_low]; exact Nat.mod_lt _ (by decide)
  rw [staWrite, bit_setF _ _ _ (by decide) (by decide), if_pos (by omega), Nat.sub_zero, Nat.testBit_and, testBit_255_sub hv hj,
    testBit_fld, testBit_fld, Nat.zero_add, decide_eq_true (by omega), Bool.true_and, Bool.true_and]

theorem staWrite_first (w v : W32) : fld (staWrite w v) 31 16 = fld v 31 16 := by
  rw [staWrite, fld_setF_apart _ _ (by decide) (by decide) (by decide), fld_setF_fld _ _ (by decide) (by decide)]

theorem staWrite_mode (w v : W32) : fld (staWrite w v) 15 8 = fld w 15 8 := by
  rw [staWrite, fld_setF_apart _ _ (by decide) (by decide) (by decide), fld_setF_apart _ _ (by decide) (by decide) (by decide)]

/-- The upper half of a register, as a number. -/
theorem fld_31_16 (w : W32) : fld w 31 16 = w.toNat / 65536 := by
  rw [fld_eq]
  have := w.isLt
  omega

@[simp] theorem Pkg.setTile_tile_self (g : Pkg) (site u arr n : Nat) (x : Acc) : (g.setTile site u arr n x).tile site u arr n = x :=
  mget_mins_self ..

section
variable {g : Pkg} {site u arr n : Nat}

/-- A write with no operation on the tile and nothing still to be taken in acts on the status word at once. -/
theorem Pkg.accArrive_free (v : W32) (hahead : g.tileAhead site u arr n = 0) (hlate : (g.tile site u arr n).late = []) :
    g.accArrive site u arr n v = g.setTile site u arr n { g.tile site u arr n with sta := staWrite (g.tile site u arr n).sta v } := by
  simp [Pkg.accArrive, hahead, Pkg.accWrite, hlate]

/-- A read by a master of the package with no operation on the tile answers with the word. -/
theorem Pack.accAsk_free {p : Pack} {k : Nat} (hahead : (p.g k).tileAhead site u arr n = 0) (hlate : ((p.g k).tile site u arr n).late = []) :
    p.accAsk k k site u arr n = p.on k (fun g => g.readBack ((p.g k).tile site u arr n).sta) := by
  simp [Pack.accAsk, hahead, Pack.accDo, Pack.accRead, hlate]
end

theorem gives_of_atHub {s : State} {c : Instr} {k : Nat} {h : Pack → Pack} {p : Pack}
    (hc : exec c s = .next (s.onPack (fun s => s.atHub k h))) (hup : (s.pack.g k).hubUp = true) (hp : h s.pack = p) : Gives c s p :=
  gives_of_onPack hc (by rw [Pack.atHub, if_pos hup, hp])

section
variable {p : Pack} {k site u o : Nat} (v : W32)

/-- The parts of the UNIT block that a write reaches by its offset. -/
theorem unitWrite_prio (ho : 0x40 ≤ o ∧ o < 0x80) : p.unitWrite k site u o v =
    p.on k (fun g => { g with thr := mupd {} g.thr (uk site u * 16 + (o - 0x40) / 4) (fun x => { x with prio := fld v 7 6 }) }) := by
  rw [Pack.unitWrite, if_neg (by omega), if_pos ho]

theorem unitWrite_pc (ho : 0x80 ≤ o ∧ o < 0xC0) : p.unitWrite k site u o v =
    p.on k (fun g => { g with thr := mupd {} g.thr (uk site u * 16 + (o - 0x80) / 4) (fun x =>
      if x.st = .ready ∨ x.st = .wait then x else { x with pc := BitVec.ofNat 16 (fld v 15 0) }) }) := by
  rw [Pack.unitWrite, if_neg (by omega), if_neg (by omega), if_pos ho]

theorem unitWrite_theh (ho : 0xC0 ≤ o ∧ o < 0x100) : p.unitWrite k site u o v =
    p.on k (fun g => { g with thr := mupd {} g.thr (uk site u * 16 + (o - 0xC0) / 4) (fun x => { x with theh := mk32 (fld v 19 0) }) }) := by
  rw [Pack.unitWrite, if_neg (by omega), if_neg (by omega), if_neg (by omega), if_pos ho]

theorem unitWrite_sta (ho : 0x300 ≤ o ∧ o < 0x340) : p.unitWrite k site u o v =
    p.on k (fun g => g.accArrive site u ((o - 0x300) / 0x20) ((o - 0x300) % 0x20 / 4) v) := by
  rw [Pack.unitWrite, if_neg (by omega), if_neg (by omega), if_neg (by omega), if_neg (by omega), if_neg (by omega), if_pos ho]
end

/-- Settles O28: with no operation on the tile a status word is written and read at once. -/
theorem statusWordAccess : Obligations.StatusWordAccess := by
  intro s k m site u arr n v g off w hu harr hn hw hahead hlate
  have hoff : 0x10000 + 0x400 * u + 0x300 + 0x20 * (arr % 2) + 4 * (n % 8) = off := by omega
  constructor
  · refine ⟨s.pack.on k (fun g => g.accArrive site u arr n v), ?_, ?_⟩
    · refine gives_of_atHub rfl hw.up ?_
      dsimp only [Pack.accstAccess]
      rw [hoff, busWrite_unit hw, unitWrite_sta _ (by omega), show (off - 0x10000) / 0x400 = u by omega,
        show ((off - 0x10000) % 0x400 - 0x300) / 0x20 = arr by omega, show ((off - 0x10000) % 0x400 - 0x300) % 0x20 / 4 = n by omega]
    · have hsta : ((Pack.g (s.pack.on k (fun g => g.accArrive site u arr n v)) k).tile site u arr n).sta = staWrite w v := by
        rw [Pack.on_g_self, Pkg.accArrive_free v hahead hlate, Pkg.setTile_tile_self]
      dsimp only
      rw [hsta]
      refine ⟨?_, ?_, fun j hj => staWrite_flags w v hj, rfl⟩
      · rw [← fld_31_16, staWrite_first, fld_31_16]
      · have h := staWrite_mode w v
        rwa [fld_eq, fld_eq] at h
  · refine ⟨s.pack.on k (fun g => g.readBack w), gives_of_atHub rfl hw.up ?_, ?_⟩
    · obtain ⟨l, hplace⟩ := hw.place
      dsimp only [Pack.accstAccess]
      rw [hoff, hplace, Nat.mod_eq_of_lt harr, Nat.mod_eq_of_lt hn]
      exact Pack.accAsk_free hahead hlate
    · dsimp only
      rw [Pack.on_g_self]
      exact ⟨rfl, rfl, rfl⟩

end Sys2Proof.Machine
end

section
/-! PROOFS. Plain and posted register writes (R6, R368, R379) -/

namespace Sys2Proof.Machine

/-! ## Plain and posted register writes (R6, R368, R379) -/

section
variable {s : State} {k site off o key : Nat} {m : Master} {b : Blk} {v : W32}

/-- A write of a unit's register that changes one thread. -/
theorem gives_unitThread {u n : Nat} {f : Thread → Thread} (hw : Writable s.pack k m site off .unit o)
    (hunit : s.pack.unitWrite k site (o / 0x400) (o % 0x400) v =
      s.pack.on k (fun g => { g with thr := mupd {} g.thr (uk site u * 16 + n) f })) :
    Gives (.registerWrite k m site off v) s
      (s.pack.on k (fun g => { g with thr := mins g.thr ((site * 64 + u) * 16 + n) (f (mget {} (s.pack.g k).thr ((site * 64 + u) * 16 + n))) })) :=
  gives_of_onPack (h := fun p => p.busWrite k m site off v) rfl ((busWrite_unit hw).trans (hunit.trans (Pack.on_congr rfl)))

/-- A write at a place that is gated or names no register is refused. -/
theorem busWrite_refused {p : Pack} (hup : (p.g k).hubUp = true) (hal : off % 4 = 0)
    (hplace : (p.g k).place k site 3 off = .invalid ∨ (p.g k).place k site 3 off = .gated) :
    ∃ gated addr, p.busWrite k m site off v = p.on k (fun g => g.refusedFor m gated addr) := by
  unfold Pack.busWrite
  cases blockOf site off with
  | none => exact ⟨_, _, if_pos hup⟩
  | some x =>
    obtain ⟨b, o⟩ := x
    rcases hplace with h | h
    · exact ⟨_, _, by simp only [hup, hal, h]; rfl⟩
    · exact ⟨_, _, by simp only [hup, hal, h]; rfl⟩

@[simp] theorem Pkg.refusedFor_thr (g : Pkg) (m : Master) (gated : Bool) (addr : Nat) : (g.refusedFor m gated addr).thr = g.thr := by
  cases m <;> simp [Pkg.refusedFor, Pkg.engErr] <;> rfl

@[simp] theorem Pkg.refusedFor_tok (g : Pkg) (m : Master) (gated : Bool) (addr : Nat) : (g.refusedFor m gated addr).tok = g.tok := by
  cases m <;> simp [Pkg.refusedFor, Pkg.engErr] <;> rfl

/-- A register of privileged fields alone ignores a master without privilege. -/
theorem busWrite_unprivileged {p : Pack} (hblock : blockOf site off = some (b, o)) (hpv : pvMask b o ≠ 0) (hmix : mixedReg b o = false)
    (hm : m.priv = false) (hup : (p.g k).hubUp = true) (hal : off % 4 = 0) (hplace : ∃ l, (p.g k).place k site 3 off = .ok l) :
    p.busWrite k m site off v = p := by
  obtain ⟨l, hplace⟩ := hplace
  unfold Pack.busWrite
  simp only [hblock, hup, hal, hplace]
  simp [Pack.regWrite, hm, hpv, hmix]

/-- A posted write of a privileged master. -/
theorem regWrite_posts_priv {p : Pack} {x : WrX} (hm : m.priv = true) (hword : forbidden b o v = none) (hkey : busyKey site b o = some key)
    (hidle : (p.g k).busy.contains key = false) (hb : b ≠ .stream) :
    p.regWrite k m site b o off v x = p.posted k { key := key, site := site, off := off, v := v, x := x } := by
  simp only [Pack.regWrite, hm, Bool.not_true, Bool.false_and, if_true, hword, hkey, hidle, if_neg hb]
  simp [Pack.posted]

/-- POSTED_WRITE_COMPLETE of a write that is due, at any register but a stream slot's. -/
theorem gives_postedWriteComplete {x : Post} (hkey : x.key = rk site off) (hstrm : ¬ (hubR 0x30000 ≤ x.key ∧ x.key < hubR 0x40000))
    (hdue : Due s.pack k x) (hblock : blockOf x.site x.off = some (b, o)) :
    Gives (.postedWriteComplete k site off) s ((s.pack.on k (fun g => g.arrived x.key)).blkWrite k x.site b o x.v x.x) := by
  refine gives_of_onPack (h := fun p => p.postedDone k site off) rfl ?_
  rw [Pack.postedDone]
  simp only [← hkey, hdue.busy, hdue.only, if_neg hstrm]
  simp [Pack.land, hblock, Pkg.arrived]

/-- ERRLOG.TAIL: its field takes the value, and SMB_ALERT_N is released where no record is left. -/
theorem Pkg.tailWrite_eq (g : Pkg) (n : Nat) :
    (g.tailWrite n).rf rErrTail 9 0 = n % 1024 ∧ (g.tailWrite n).smb = (if n % 1024 = g.rf rErrHead 9 0 then false else g.smb) ∧
    (g.tailWrite n).log = g.log ∧ (g.tailWrite n).busy = g.busy := by
  have htail : (g.wf rErrTail 9 0 n).rf rErrTail 9 0 = n % 1024 := by
    exact (congrArg (fld · 9 0) (Pkg.wr_rd_self ..)).trans (fld_setF_same _ _ (by decide) (by decide))
  have hhead : (g.wf rErrTail 9 0 n).rf rErrHead 9 0 = g.rf rErrHead 9 0 := by
    rw [Pkg.rf, Pkg.wf, Pkg.wr_rd_ne _ _ (by decide), ← Pkg.rf]
  simp only [Pkg.tailWrite, htail, hhead]
  split
  · exact ⟨htail, rfl, rfl, rfl⟩
  · exact ⟨htail, rfl, rfl, rfl⟩
end

/-- The write of a thread's PC, which takes effect while the thread is IDLE or in FAULT. -/
theorem pcWrite_eq (x : Thread) (v : W32) :
    (if x.st = .ready ∨ x.st = .wait then x else { x with pc := BitVec.ofNat 16 (fld v 15 0) }) =
      if x.st = .idle ∨ x.st = .fault then { x with pc := BitVec.ofNat 16 v.toNat } else x := by
  have hpc : BitVec.ofNat 16 (fld v 15 0) = BitVec.ofNat 16 v.toNat := by
    rw [fld_low]
    exact BitVec.eq_of_toNat_eq (by simp)
  rw [hpc]
  cases x.st <;> rfl

/-- Settles O29: a register that is served takes the write at once or posts it; a refused one changes neither memory nor threads nor counters. -/
theorem registerAccess : Obligations.RegisterAccess := by
  refine ⟨fun s k m site off v => ⟨?_, ?_, ?_⟩, ?_, ?_, ?_, ?_⟩
  · intro u n key x set hu hn
    refine ⟨fun hoff hw => ?_, fun hoff hw => ?_, fun hoff hw => ?_⟩
    · have h := gives_unitThread (v := v) hw (n := n) (u := u) (f := fun x => { x with theh := mk32 (fld v 19 0) })
        (by rw [unitWrite_theh _ (by omega), show (off - 0x10000) / 0x400 = u by omega, show ((off - 0x10000) % 0x400 - 0xC0) / 4 = n by omega])
      rwa [fld_low] at h
    · have h := gives_unitThread (v := v) hw (n := n) (u := u) (f := fun x => { x with prio := fld v 7 6 })
        (by rw [unitWrite_prio _ (by omega), show (off - 0x10000) / 0x400 = u by omega, show ((off - 0x10000) % 0x400 - 0x40) / 4 = n by omega])
      rwa [fld_eq] at h
    · have h := gives_unitThread (v := v) hw (n := n) (u := u)
        (f := fun x => if x.st = .ready ∨ x.st = .wait then x else { x with pc := BitVec.ofNat 16 (fld v 15 0) })
        (by rw [unitWrite_pc _ (by omega), show (off - 0x10000) / 0x400 = u by omega, show ((off - 0x10000) % 0x400 - 0x80) / 4 = n by omega])
      rwa [pcWrite_eq] at h
  · intro hup hal hplace
    obtain ⟨gated, addr, hw⟩ := busWrite_refused (m := m) (v := v) hup hal hplace
    refine ⟨s.pack.on k (fun g => g.refusedFor m gated addr), gives_of_onPack rfl hw, Pack.on_mem .., by simp, by simp, fun hm j => ?_⟩
    rw [hm]
    by_cases hj : j = k
    · rw [hj]; exact Pack.on_g_self ..
    · exact Pack.on_g_ne _ _ hj
  · intro b o hblock hpv hmix hm hup hal hplace
    exact gives_of_onPack (h := fun p => p.busWrite k m site off v) rfl (busWrite_unprivileged hblock hpv hmix hm hup hal hplace)
  · intro s k m site off o key b v hw hkey hb hword hm
    exact gives_of_onPack (h := fun p => p.busWrite k m site off v) rfl ((busWrite_served hw).trans (regWrite_posts_priv hm hword hkey (hw.idle key hkey) hb))
  · intro s k site off x b o hkey hstrm hdue hblock
    exact gives_postedWriteComplete hkey hstrm hdue hblock
  · intro s k m v hw
    exact gives_of_onPack (h := fun p => p.busWrite k m 62 0x20008 v) rfl (busWrite_posts hw rfl rfl rfl (by decide))
  · intro s k v g head
    have hblock : blockOf 62 0x20008 = some (.errlog, 8) := by decide
    have hkey : rErrCtl < hubR 0x30000 := by decide
    refine lands_of_on (b := .errlog) (o := 8) hblock hkey (fun g => g.tailWrite (fld v 9 0)) (fun p _ => rfl) fun p hg hmem => ?_
    obtain ⟨htail, hsmb, hlog, hbusy⟩ := Pkg.tailWrite_eq (g.arrived rErrCtl) (fld v 9 0)
    rw [← hg] at htail hsmb hlog hbusy
    simp only [Pkg.rf, fld_low, Pkg.arrived_rd, Nat.mod_mod, show 2 ^ (9 + 1) = 1024 from rfl] at htail hsmb
    exact ⟨htail, hsmb, hlog, hbusy, hmem⟩

end Sys2Proof.Machine
end

section
/-! PROOFS. Stream slots (R79) -/

namespace Sys2Proof.Machine

/-! ## Stream slots (R79) -/

/-- BUSY of a register reads 1. -/
def Pkg.setBusy (g : Pkg) (key : Nat) : Pkg := { g with busy := key :: g.busy }

section
variable {s : State} {k n o : Nat} {m : Master} {v : W32} {g : Pkg}

/-- A write of a stream slot's word: BUSY at once, and the word written or staged. -/
theorem busWrite_stream {p : Pack} (hw : Writable p k m 62 (0x30000 + 0x40 * n + o) .stream (0x40 * n + o)) (ho : o ≤ 0x10) :
    p.busWrite k m 62 (0x30000 + 0x40 * n + o) v = p.on k (fun g => (g.setBusy (rStrm n 0)).strmWrite n o v) := by
  have hslot : (0x40 * n + o) / 0x40 = n ∧ (0x40 * n + o) % 0x40 = o := by omega
  have hkey : busyKey 62 .stream (0x40 * n + o) = some (rStrm n 0) := by
    simp only [busyKey, hslot.1, hslot.2, if_pos ho]
  have hidle := hw.idle _ hkey
  rw [busWrite_served hw]
  simp only [Pack.regWrite, hkey, hidle, show pvMask .stream (0x40 * n + o) = 0 from rfl, show forbidden .stream (0x40 * n + o) v = none from rfl,
    unmasked_word]
  simp [Pack.blkWrite, hslot.1, hslot.2, ho, Pkg.setBusy]

/-- The word that a write of STREAM.CTL leaves in the register. -/
def strmCtlWord (c v : W32) : W32 := setB (setF (setF c 24 8 (fld v 24 8)) 0 0 (fld v 0 0)) 29 (bit c 29 && !bit v 29)

theorem bit_strmCtlWord (c v : W32) : bit (strmCtlWord c v) 0 = bit v 0 := by
  rw [strmCtlWord, bit_setB_apart _ _ (by decide) (by decide), bit_setF_fld _ _ (by decide) (by decide)]

theorem fld_strmCtlWord (c v : W32) : fld (strmCtlWord c v) 24 8 = v.toNat / 256 % 2 ^ 17 := by
  rw [strmCtlWord, fld_setB_apart _ _ (by decide) (by decide), fld_setF_apart _ _ (by decide) (by decide) (by decide),
    fld_setF_fld _ _ (by decide) (by decide), fld_eq, show 2 ^ 8 = 256 by decide, show 24 + 1 - 8 = 17 by decide]

/-- The word that a write leaves in a register of a stream slot. -/
def strmWord (c v : W32) (o : Nat) : W32 := if o = 0 then strmCtlWord c v else v

theorem strmWrite_eq (g : Pkg) (n o : Nat) (v : W32) : g.strmWrite n o v =
    let h := g.wr (rStrm n o) (strmWord (g.rd (rStrm n o)) v o)
    if h.strmValid n then (if h.inP1 then h.strmEffect { slot := n, off := o, v := strmWord (g.rd (rStrm n o)) v o } else h.wb (rStrm n 0) 30 true)
    else { h with strmPost := h.strmPost ++ [{ slot := n, off := o, v := strmWord (g.rd (rStrm n o)) v o }] } := by
  by_cases ho : o = 0
  · subst ho
    simp [Pkg.strmWrite, strmWord, strmCtlWord, Pkg.rb]
  · simp [Pkg.strmWrite, strmWord, ho]

@[simp] theorem Pkg.wr_strmValid (g : Pkg) (a : Nat) (w : W32) (n : Nat) : (g.wr a w).strmValid n = g.strmValid n := rfl

theorem rStrm_ne_rStrm {o' : Nat} (ho : o < 0x40) (ho' : o' < 0x40) (h : o ≠ o') : rStrm n o ≠ rStrm n o' := by
  simp only [rStrm, hubR, rk]
  omega

theorem Pkg.wr_strm_inP1 (g : Pkg) (w : W32) : (g.wr (rStrm n o) w).inP1 = g.inP1 := by
  have hne : rSealStat ≠ rStrm n o := by
    simp only [rSealStat, rStrm, hubR, rk]
    omega
  rw [Pkg.inP1, Pkg.inP1, Pkg.phase, Pkg.phase, Pkg.rf, Pkg.rf, Pkg.wr_rd_ne _ _ hne]

theorem inP1_iff (g : Pkg) : g.inP1 = true ↔ g.phase = 3 ∨ g.phase = 4 := by
  simp [Pkg.inP1]

/-- While the slot is in use outside P1 the word is staged. -/
theorem strmWrite_staged (hvalid : g.strmValid n = true) (hp1 : ¬ (g.phase = 3 ∨ g.phase = 4)) :
    g.strmWrite n o v = (g.wr (rStrm n o) (strmWord (g.rd (rStrm n o)) v o)).wb (rStrm n 0) 30 true := by
  rw [← inP1_iff, Bool.not_eq_true] at hp1
  simp [strmWrite_eq, hvalid, Pkg.wr_strm_inP1, hp1]

/-- In P1 it takes effect. -/
theorem strmWrite_effect (hvalid : g.strmValid n = true) (hp1 : g.phase = 3 ∨ g.phase = 4) :
    g.strmWrite n o v = (g.wr (rStrm n o) (strmWord (g.rd (rStrm n o)) v o)).strmEffect
      { slot := n, off := o, v := strmWord (g.rd (rStrm n o)) v o } := by
  rw [← inP1_iff] at hp1
  simp [strmWrite_eq, hvalid, Pkg.wr_strm_inP1, hp1]

/-- A slot that is not in use has it sent to its replicas. -/
theorem strmWrite_sent (hvalid : g.strmValid n = false) :
    g.strmWrite n o v = { (g.wr (rStrm n o) (strmWord (g.rd (rStrm n o)) v o)) with
      strmPost := g.strmPost ++ [{ slot := n, off := o, v := strmWord (g.rd (rStrm n o)) v o }] } := by
  simp [strmWrite_eq, hvalid]

/-- A word in effect with one of its five words replaced. -/
def strmPut (e : Strm) (o : Nat) (v : W32) : Strm :=
  match o with
  | 0 => { e with ctl := mk32 (fld v 24 0) }
  | 4 => { e with k0 := v }
  | 8 => { e with k1 := v }
  | 0xC => { e with k2 := v }
  | _ => { e with k3 := v }

/-- A KEY word takes effect: VALID stays, so that neither STEP nor CURSOR is set. -/
theorem strmEffect_key (g : Pkg) (n : Nat) (w : Nat) (hw : w < 4) (v : W32) : g.strmEffect { slot := n, off := 4 + 4 * w, v := v } =
    { g with strm := mins g.strm n (strmPut (mget {} g.strm n) (4 + 4 * w) v) } := by
  have hctl : (strmPut (mget {} g.strm n) (4 + 4 * w) v).ctl = (mget {} g.strm n).ctl := by
    interval_cases w <;> rfl
  have heff : g.strmEffect { slot := n, off := 4 + 4 * w, v := v } =
      (let h : Pkg := { g with strm := mins g.strm n (strmPut (mget {} g.strm n) (4 + 4 * w) v) }
       if !bit (mget {} g.strm n).ctl 0 && bit (strmPut (mget {} g.strm n) (4 + 4 * w) v).ctl 0 then
         (h.wr (rStrm n 0x14) (mk32 h.step)).wr64 (rStrm n 0x18) (rStrm n 0x1C) 0
       else h) := rfl
  rw [heff, hctl]
  simp

section
variable {P : Pack → Prop}

theorem leaves_streamCtlWrite (hw : Writable s.pack k m 62 (0x30000 + 0x40 * n) .stream (0x40 * n))
    (hP : ∀ p : Pack, p.g k = ((s.pack.g k).setBusy (rStrm n 0)).strmWrite n 0 v → p.mem = s.pack.mem → P p) :
    Leaves (.streamCtlWrite k m n v) s P :=
  ⟨s.pack.on k (fun g => (g.setBusy (rStrm n 0)).strmWrite n 0 v), gives_of_onPack (h := fun p => p.busWrite k m 62 (oStream n 0) v) rfl (busWrite_stream (o := 0) hw (by decide)),
    hP _ (Pack.on_g_self ..) rfl⟩

theorem leaves_streamKeyWrite {w : Nat} (hlt : w < 4)
    (hw : Writable s.pack k m 62 (0x30000 + 0x40 * n + (4 + 4 * w)) .stream (0x40 * n + (4 + 4 * w)))
    (hP : ∀ p : Pack, p.g k = ((s.pack.g k).setBusy (rStrm n 0)).strmWrite n (4 + 4 * w) v →
      p.mem = s.pack.mem → P p) :
    Leaves (.streamKeyWrite k m n w v) s P := by
  refine ⟨s.pack.on k (fun g => (g.setBusy (rStrm n 0)).strmWrite n (4 + 4 * w) v),
    gives_of_onPack (h := fun p => p.busWrite k m 62 (oStream n (4 + 4 * (w % 4))) v) rfl ?_, hP _ (Pack.on_g_self ..) rfl⟩
  rw [Nat.mod_eq_of_lt hlt]
  exact busWrite_stream hw (by omega)
end
end

/-- The one word on its way to a slot's replicas takes effect. -/
theorem strmLand_key (g : Pkg) {n w : Nat} {v : W32} (hw : w < 4) (hpost : g.strmPost = [{ slot := n, off := 4 + 4 * w, v := v }]) :
    g.strmLand n = { g with strm := mins g.strm n (strmPut (mget {} g.strm n) (4 + 4 * w) v), strmPost := [] } := by
  have h := strmEffect_key { g with strmPost := [] } n w hw v
  simpa [Pkg.strmLand, hpost] using h

/-- POSTED_WRITE_COMPLETE of a stream slot. -/
theorem postedDone_stream {p : Pack} {k n : Nat} (hn : n < 1024) (hbusy : (p.g k).busy.contains (rStrm n 0) = true)
    (hposts : ∀ y ∈ (p.g k).posts, y.key ≠ rStrm n 0) :
    p.postedDone k 62 (0x30000 + 0x40 * n) = p.on k (fun g => (g.arrived (rStrm n 0)).strmLand n) := by
  have hkey : rk 62 (0x30000 + 0x40 * n) = rStrm n 0 := rfl
  have hnone : (p.g k).posts.filter (fun y => y.key == rStrm n 0) = [] := by
    rw [List.filter_eq_nil_iff]
    exact fun y hy => by simpa using hposts y hy
  have hrange : hubR 0x30000 ≤ rStrm n 0 ∧ rStrm n 0 < hubR 0x40000 := by
    simp only [rStrm, hubR, rk]
    omega
  have hslot : (rStrm n 0 - hubR 0x30000) / 0x40 = n := by
    simp only [rStrm, hubR, rk]
    omega
  rw [Pack.postedDone]
  simp only [hkey, hbusy, hnone, hslot, if_pos hrange]
  simp [Pkg.arrived]

/-- Settles O31: the slot in use outside P1, in P1, and not in use; and the landing of a key word. -/
theorem streamSlotWrites : Obligations.StreamSlotWrites := by
  intro s k m n w v g hn hlt
  refine ⟨fun hw => ⟨fun hvalid h3 h4 => ?_, fun hvalid => ?_⟩, fun hw => ⟨fun hvalid h3 h4 => ?_, fun hvalid => ?_⟩,
    fun hw hvalid hp1 => ?_, fun x hslot hoff hpost hbusy hposts => ?_⟩
  · refine leaves_streamCtlWrite hw fun p hg hmem => ?_
    rw [strmWrite_staged (g := g.setBusy (rStrm n 0)) hvalid (not_or.mpr ⟨h3, h4⟩)] at hg
    have hrd : (p.g k).rd (rStrm n 0) = setB (strmCtlWord (g.rd (rStrm n 0)) v) 30 true := by
      rw [hg, Pkg.wb, Pkg.wr_rd_self, Pkg.wr_rd_self]
      rfl
    refine ⟨?_, ?_, ?_, by rw [hg]; rfl, by rw [hg]; rfl, hmem⟩
    · rw [Pkg.rb, hrd, bit_setB_same _ _ (by decide)]
    · rw [Pkg.rf, hrd, fld_setB_apart _ _ (by decide) (by decide), fld_strmCtlWord]
    · rw [Pkg.rb, hrd, bit_setB_apart _ _ (by decide) (by decide), bit_strmCtlWord, bit]
  · refine leaves_streamCtlWrite hw fun p hg hmem => ?_
    rw [strmWrite_sent (g := g.setBusy (rStrm n 0)) hvalid] at hg
    refine ⟨⟨{ slot := n, off := 0, v := strmCtlWord (g.rd (rStrm n 0)) v }, by rw [hg]; rfl, rfl, rfl, bit_strmCtlWord _ v, fld_strmCtlWord _ v⟩, by rw [hg]; rfl, by rw [hg]; rfl, hmem⟩
  · refine leaves_streamKeyWrite hlt hw fun p hg hmem => ?_
    rw [strmWrite_staged (g := g.setBusy (rStrm n 0)) hvalid (not_or.mpr ⟨h3, h4⟩)] at hg
    have hword (c : W32) : strmWord c v (4 + 4 * w) = v := if_neg (by omega)
    refine ⟨?_, ?_, by rw [hg]; rfl, by rw [hg]; rfl, hmem⟩
    · rw [hg, Pkg.wb, Pkg.wr_rd_ne _ _ (rStrm_ne_rStrm (by omega) (by decide) (by omega)), Pkg.wr_rd_self, hword]
    · rw [hg, Pkg.rb_wb_same _ _ _ (by decide)]
  · refine leaves_streamKeyWrite hlt hw fun p hg hmem => ?_
    rw [strmWrite_sent (g := g.setBusy (rStrm n 0)) hvalid] at hg
    have hword (c : W32) : strmWord c v (4 + 4 * w) = v := if_neg (by omega)
    refine ⟨?_, ?_, by rw [hg]; rfl, by rw [hg]; rfl, hmem⟩
    · rw [hg]
      exact (Pkg.wr_rd_self ..).trans (hword _)
    · rw [hg]
      dsimp only
      rw [hword]
      rfl
  · refine leaves_streamKeyWrite hlt hw fun p hg hmem => ?_
    have hword (c : W32) : strmWord c v (4 + 4 * w) = v := if_neg (by omega)
    rw [strmWrite_effect (g := g.setBusy (rStrm n 0)) hvalid hp1, hword, strmEffect_key _ _ _ hlt] at hg
    have he : mget {} (p.g k).strm n = strmPut (mget {} g.strm n) (4 + 4 * w) v := by
      rw [hg]
      exact mget_mins_self ..
    dsimp only
    rw [he]
    refine ⟨?_, ?_, by rw [hg]; rfl, hmem⟩
    · interval_cases w <;> rfl
    · interval_cases w <;> rfl
  · have hland := strmLand_key (g.arrived (rStrm n 0)) (n := n) (v := x.v) (w := 0) (by decide)
      (show g.strmPost = [{ slot := n, off := 4, v := x.v }] by rw [hpost, ← hslot, ← hoff])
    refine ⟨_, gives_of_onPack (h := fun p => p.postedDone k 62 (0x30000 + 0x40 * n)) rfl
      (postedDone_stream hn (by rw [hbusy]; simp) hposts), ?_⟩
    dsimp only
    rw [Pack.on_g_self, hland]
    refine ⟨mget_mins_self .., rfl, ?_, rfl⟩
    simp [Pkg.arrived, hbusy, g]

end Sys2Proof.Machine
end

section
/-! PROOFS. Scale slots and the warm-up exchange (R50, R55, R57) -/

namespace Sys2Proof.Machine

/-! ## Scale slots (R50, R55, R57) -/

section
variable {s : State} {k site n o : Nat} {m : Master} {v : W32} {g : Pkg}

/-- A write of a scale slot's word acts on the slot at once. -/
theorem busWrite_scale {p : Pack} (hw : Writable p k m site (0x40000 + 0x80 * n + o) .scale (0x80 * n + o)) (ho : o < 0x80) :
    p.busWrite k m site (0x40000 + 0x80 * n + o) v = p.on k (fun g => g.scaleWrite site n o v) := by
  have hslot : (0x80 * n + o) / 0x80 = n ∧ (0x80 * n + o) % 0x80 = o := by omega
  rw [busWrite_served hw, regWrite_now rfl rfl rfl, Pack.blkWrite, hslot.1, hslot.2]

theorem busWrite_scaleCtl {p : Pack} (hw : Writable p k m site (0x40000 + 0x80 * n) .scale (0x80 * n)) :
    p.busWrite k m site (oScale n 0) v = p.on k (fun g => g.scaleCtl site n v) :=
  busWrite_scale (o := 0) hw (by decide)

theorem rScale_add (site n o : Nat) : rScale site n 0 + o = rScale site n o := by
  simp only [rScale, rk]
  omega

theorem rScale_ne {o' : Nat} (h : o ≠ o') : rScale site n o ≠ rScale site n o' := by
  simp only [rScale, rk]
  omega

/-- The word that a write of SCALE.CTL leaves before the entry test of R55. -/
def scaleCtlWord (c v : W32) : W32 :=
  let c := setF c 29 28 (fld c 29 28 &&& (3 - fld v 29 28))
  let c := if fld v 27 22 = 0 then setF c 27 22 0 else c
  setF c 17 0 (fld v 17 0)

theorem scaleCtlWord_low (c v : W32) : fld (scaleCtlWord c v) 17 0 = fld v 17 0 := fld_setF_fld _ _ (by decide) (by decide)

theorem bit_scaleCtlWord_valid (c v : W32) : bit (scaleCtlWord c v) 0 = bit v 0 := bit_setF_fld _ _ (by decide) (by decide)

theorem scaleCtlWord_hwarm (c v : W32) : fld (scaleCtlWord c v) 17 14 = fld v 17 14 := by
  refine Nat.eq_of_testBit_eq fun i => ?_
  rw [testBit_fld, testBit_fld]
  by_cases hi : i ≤ 3
  · rw [scaleCtlWord, bit_setF_fld _ _ (by decide) (by omega)]
  · simp only [show ¬ i < 17 + 1 - 14 by omega, decide_false, Bool.false_and]

theorem scaleCtlWord_warm (c v : W32) : fld (scaleCtlWord c v) 21 18 = fld c 21 18 := by
  rw [scaleCtlWord, fld_setF_apart _ _ (by decide) (by decide) (by decide)]
  split
  · rw [fld_setF_apart _ _ (by decide) (by decide) (by decide), fld_setF_apart _ _ (by decide) (by decide) (by decide)]
  · rw [fld_setF_apart _ _ (by decide) (by decide) (by decide)]

theorem scaleCtlWord_arm (c v : W32) : bit (scaleCtlWord c v) 30 = bit c 30 := by
  rw [scaleCtlWord, bit_setF_apart _ _ (by decide) (by decide) (by decide)]
  split
  · rw [bit_setF_apart _ _ (by decide) (by decide) (by decide), bit_setF_apart _ _ (by decide) (by decide) (by decide)]
  · rw [bit_setF_apart _ _ (by decide) (by decide) (by decide)]

theorem scaleCtlWord_fill (c : W32) {v : W32} (hv : fld v 27 22 = 0) : fld (scaleCtlWord c v) 27 22 = 0 := by
  rw [scaleCtlWord, fld_setF_apart _ _ (by decide) (by decide) (by decide), if_pos hv, fld_setF_same _ _ (by decide) (by decide), Nat.zero_mod]

/-- A control word after the entry test of R55. -/
def warmed (w : W32) : W32 := if bit w 0 ∧ fld w 27 22 = 0 ∧ fld w 21 18 = 0 then setF w 21 18 (warmLen w) else w

theorem fld_warmed (w : W32) {hi lo : Nat} (h : hi < 18 ∨ 21 < lo) : fld (warmed w) hi lo = fld w hi lo := by
  rw [warmed]
  split
  · exact fld_setF_apart _ _ (by decide) (by decide) h
  · rfl

theorem bit_warmed (w : W32) {i : Nat} (h : i < 18 ∨ 21 < i) : bit (warmed w) i = bit w i := by
  rw [warmed]
  split
  · exact bit_setF_apart _ _ (by decide) (by decide) h
  · rfl

/-- The warm-up count after the entry test. -/
theorem fld_warm (w : W32) : fld (warmed w) 21 18 =
    if bit w 0 ∧ fld w 27 22 = 0 ∧ fld w 21 18 = 0 then (if fld w 17 14 = 0 then 4 else fld w 17 14) else fld w 21 18 := by
  rw [warmed]
  split
  · rw [fld_setF_same _ _ (by decide) (by decide), warmLen]
    refine Nat.mod_eq_of_lt ?_
    split
    · decide
    · rw [fld_eq]
      exact Nat.mod_lt _ (by decide)
  · rfl

theorem warmed_of_warm {w : W32} (h : fld w 21 18 ≠ 0) : warmed w = w := if_neg (fun e => h e.2.2)

theorem warmTest_wr (g : Pkg) (site n : Nat) (w : W32) :
    (g.wr (rScale site n 0) w).warmTest site n = g.wr (rScale site n 0) (warmed w) := by
  rw [Pkg.warmTest, Pkg.wr_rd_self, warmed]
  split
  · rw [Pkg.wf, Pkg.wr_rd_self]
    simp [Pkg.wr]
  · rfl

theorem scaleCtl_eq (g : Pkg) (site n : Nat) (v : W32) : g.scaleCtl site n v =
    let h := g.wr (rScale site n 0) (warmed (scaleCtlWord (g.rd (rScale site n 0)) v))
    if bit v 30 then h.armSlot site n else h := by
  rw [Pkg.scaleCtl, ← warmTest_wr]
  rfl

theorem Pkg.armSlot_rd (g : Pkg) (site n a : Nat) : (g.armSlot site n).rd a = g.rd a := by
  rw [Pkg.armSlot]
  split <;> rfl

theorem scaleCtl_rd (g : Pkg) (site n : Nat) (v : W32) (a : Nat) : (g.scaleCtl site n v).rd a =
    if a = rScale site n 0 then warmed (scaleCtlWord (g.rd (rScale site n 0)) v) else g.rd a := by
  rw [scaleCtl_eq]
  dsimp only
  split
  · rw [Pkg.armSlot_rd, Pkg.rd_wr]
  · rw [Pkg.rd_wr]

section
variable {P : Pack → Prop}

theorem leaves_scaleCurWrite (hw : Writable s.pack k m site (0x40000 + 0x80 * n + 4) .scale (0x80 * n + 4))
    (hP : ∀ p : Pack, p.g k = (if 0 < fld v 15 0 ∧ fld v 15 0 < 0x7F80 then (s.pack.g k).wf (rScale site n 4) 15 0 (fld v 15 0)
      else (s.pack.g k).wb (rScale site n 0) 29 true) → p.mem = s.pack.mem → P p) : Leaves (.scaleCurWrite k m site n v) s P :=
  ⟨s.pack.on k (fun g => g.scaleWrite site n 4 v),
    gives_of_onPack (h := fun p => p.busWrite k m site (oScale n 4) v) rfl (busWrite_scale hw (by decide)), hP _ (Pack.on_g_self ..) rfl⟩

theorem leaves_scaleFillDiscard (hw : Writable s.pack k m site (0x40000 + 0x80 * n) .scale (0x80 * n))
    (hP : ∀ p : Pack, p.g k = (s.pack.g k).scaleCtl site n (setF v 27 22 0) → p.mem = s.pack.mem → P p) :
    Leaves (.scaleFillDiscard k m site n v) s P :=
  ⟨s.pack.on k (fun g => g.scaleCtl site n (setF v 27 22 0)),
    gives_of_onPack (h := fun p => p.busWrite k m site (oScale n 0) (setF v 27 22 0)) rfl (busWrite_scaleCtl hw),
    hP _ (Pack.on_g_self ..) rfl⟩

theorem leaves_scaleArm (hw : Writable s.pack k m site (0x40000 + 0x80 * n) .scale (0x80 * n))
    (hP : ∀ p : Pack, p.g k = (s.pack.g k).scaleCtl site n (setB v 30 true) → p.mem = s.pack.mem → P p) :
    Leaves (.scaleArm k m site n v) s P :=
  ⟨s.pack.on k (fun g => g.scaleCtl site n (setB v 30 true)),
    gives_of_onPack (h := fun p => p.busWrite k m site (oScale n 0) (setB v 30 true)) rfl (busWrite_scaleCtl hw),
    hP _ (Pack.on_g_self ..) rfl⟩
end

/-- ARM = 1 on a slot in warm-up that has not been armed in the step. -/
theorem scaleCtl_arms (hwarm : g.rf (rScale site n 0) 21 18 ≠ 0) (harm : g.rb (rScale site n 0) 30 = false)
    (hfree : g.armed.contains (rScale site n 0) = false) (hv : bit v 30 = true) :
    (g.scaleCtl site n v).sent = .arm n (g.rf (rScale site n 0xC) 15 0) (g.rf (rScale site n 0x50) 15 0) (g.rf (rScale site n 0xC) 31 16) :: g.sent ∧
    (g.scaleCtl site n v).armed = rScale site n 0 :: g.armed := by
  have hword : fld (scaleCtlWord (g.rd (rScale site n 0)) v) 21 18 ≠ 0 := by rwa [scaleCtlWord_warm]
  have hbit : bit (scaleCtlWord (g.rd (rScale site n 0)) v) 30 = false := by rwa [scaleCtlWord_arm]
  have hne {o : Nat} (ho : o ≠ 0) : rScale site n o ≠ rScale site n 0 := rScale_ne ho
  rw [scaleCtl_eq, warmed_of_warm hword]
  dsimp only
  rw [if_pos hv, Pkg.armSlot]
  simp only [Pkg.slotWarm, Pkg.slotArm, Pkg.slotTag, Pkg.rf, Pkg.rb, Pkg.wr_rd_self, hword, hbit, Pkg.wr_armed, hfree,
    Pkg.wr_rd_ne _ _ (hne (o := 0xC) (by decide)), Pkg.wr_rd_ne _ _ (hne (o := 0x50) (by decide))]
  exact ⟨rfl, rfl⟩
end

/-! The warm-up exchange (R57) -/

theorem armReceipt_eq {g : Pkg} {slot tag : Nat} (ncopy pre : Nat) (hnew : g.armDone.contains (slot, tag) = false) :
    let e := g.arms.find? (fun x => x.slot == slot && x.tag == tag)
    let n := (e.map Arms.n).getD 0 + 1
    let best := hmax ((e.map Arms.pre).getD 0) pre
    let rest := g.arms.filter (fun x => !(x.slot == slot && x.tag == tag))
    g.armReceipt slot tag ncopy pre =
      if max ncopy 1 ≤ n then ({ g with arms := rest, armDone := (slot, tag) :: g.armDone }).send (.combined slot tag best)
      else { g with arms := rest ++ [{ slot := slot, tag := tag, pre := best, n := n }] } := by
  intro e n best rest
  rw [Pkg.armReceipt, hnew]
  cases he : e with
  | none =>
    simp only [n, best, rest, he, show g.arms.find? (fun x => x.slot == slot && x.tag == tag) = none from he]
    rfl
  | some x =>
    have hx := List.find?_some (show g.arms.find? (fun x => x.slot == slot && x.tag == tag) = some x from he)
    simp only [Bool.and_eq_true, beq_iff_eq] at hx
    obtain ⟨rfl, rfl⟩ := hx
    simp only [n, best, rest, he, show g.arms.find? (fun y => y.slot == x.slot && y.tag == x.tag) = some x from he]
    rfl

/-- What a fold over sites does at one of them, where each step changes registers of its own site alone. -/
theorem foldl_sites {f : Pkg → Nat → Pkg} (hown : ∀ g i a, a / 0x100000 ≠ i → (f g i).rd a = g.rd a) :
    ∀ (l : List Nat) (g : Pkg) (a : Nat), a / 0x100000 ∉ l → (l.foldl f g).rd a = g.rd a
  | [], _, _, _ => rfl
  | i :: l, g, a, ha => by
    obtain ⟨hi, hl⟩ := not_or.mp (mt List.mem_cons.mpr ha)
    rw [List.foldl_cons, foldl_sites hown l _ a hl, hown g i a hi]

/-- Flags that a conversion raises leave every other register. -/
theorem raise_rd (g : Pkg) {a b i : Nat} (x : Bool) (h : b ≠ a) : (if x then g.wb a i true else g).rd b = g.rd b := by
  split
  · exact Pkg.wr_rd_ne _ _ h
  · rfl

theorem setCur_cur (g : Pkg) (site n h : Nat) : (g.setCur site n h).cur site n =
    (scaleFrom h (fld (g.rd (rScale site n 0)) 4 1) (fld (g.rd (rScale site n 0)) 13 10) (g.cur site n)).1 % 65536 := by
  have hne : rScale site n 4 ≠ rScale site n 0 := rScale_ne (by decide)
  rw [Pkg.setCur, Pkg.cur, Pkg.rf, raise_rd _ _ hne, raise_rd _ _ hne, Pkg.wf, Pkg.wr_rd_self, fld_setF_same _ _ (by decide) (by decide),
    show 2 ^ (15 + 1 - 0) = 65536 by decide]

theorem setCur_rd (g : Pkg) (site n h : Nat) {a : Nat} (h0 : a ≠ rScale site n 0) (h4 : a ≠ rScale site n 4) :
    (g.setCur site n h).rd a = g.rd a := by
  rw [Pkg.setCur, raise_rd _ _ h0, raise_rd _ _ h0, Pkg.wf, Pkg.wr_rd_ne _ _ h4]

/-- One site's part of a combined value. -/
def Pkg.armSite (slot tag pre : Nat) (g : Pkg) (site : Nat) : Pkg :=
  if 0 < g.slotWarm site slot ∧ g.slotTag site slot = tag then (g.setCur site slot pre).wb (rScale site slot 0) 30 true else g

theorem rScale_div (site : Nat) {n o : Nat} (hn : n < 2048) (ho : o < 0x80) : rScale site n o / 0x100000 = site := by
  simp only [rScale, rk]
  omega

theorem armSite_rd {slot : Nat} (tag pre : Nat) (hslot : slot < 2048) (g : Pkg) (i a : Nat) (ha : a / 0x100000 ≠ i) :
    (g.armSite slot tag pre i).rd a = g.rd a := by
  have hne {o : Nat} (ho : o < 0x80) : a ≠ rScale i slot o := fun e => ha (e ▸ rScale_div i hslot ho)
  rw [Pkg.armSite]
  split
  · rw [Pkg.wb, Pkg.wr_rd_ne _ _ (hne (by decide)), setCur_rd _ _ _ _ (hne (by decide)) (hne (by decide))]
  · rfl

theorem armSite_self {g : Pkg} {slot tag pre site : Nat} (hwarm : 0 < g.slotWarm site slot) (htag : g.slotTag site slot = tag) :
    (g.armSite slot tag pre site).cur site slot = (scaleFrom pre (fld (g.rd (rScale site slot 0)) 4 1)
      (fld (g.rd (rScale site slot 0)) 13 10) (g.cur site slot)).1 % 65536 ∧ (g.armSite slot tag pre site).slotArm site slot = true := by
  rw [Pkg.armSite, if_pos ⟨hwarm, htag⟩, ← setCur_cur]
  constructor
  · rw [Pkg.cur, Pkg.cur, Pkg.rf, Pkg.rf, Pkg.wb, Pkg.wr_rd_ne _ _ (rScale_ne (by decide))]
  · exact Pkg.rb_wb_same _ _ _ (by decide)

/-- A combined value sets CUR and ARM of the slot at a site whose copy is in warm-up with its tag. -/
theorem armCombined_site {g : Pkg} {slot tag pre site : Nat} (hsite : site < 48) (hslot : slot < 2048) (hwarm : 0 < g.slotWarm site slot)
    (htag : g.slotTag site slot = tag) :
    (g.armCombined slot tag pre).cur site slot = (scaleFrom pre (fld (g.rd (rScale site slot 0)) 4 1)
      (fld (g.rd (rScale site slot 0)) 13 10) (g.cur site slot)).1 % 65536 ∧ (g.armCombined slot tag pre).slotArm site slot = true := by
  obtain ⟨l, r, hl⟩ := List.append_of_mem (List.mem_range.mpr hsite)
  have hnodup := hl ▸ List.nodup_range (n := 48)
  have hnotl : site ∉ l := fun hm => (List.nodup_append.mp hnodup).2.2 _ hm _ (List.mem_cons_self ..) rfl
  have hnotr : site ∉ r := (List.nodup_cons.mp (List.nodup_append.mp hnodup).2.1).1
  have hown := armSite_rd tag pre hslot
  have hbefore {o : Nat} (ho : o < 0x80) : (l.foldl (Pkg.armSite slot tag pre) g).rd (rScale site slot o) = g.rd (rScale site slot o) :=
    foldl_sites hown l g _ (by rwa [rScale_div site hslot ho])
  have hafter (g : Pkg) {o : Nat} (ho : o < 0x80) : (r.foldl (Pkg.armSite slot tag pre) g).rd (rScale site slot o) = g.rd (rScale site slot o) :=
    foldl_sites hown r g _ (by rwa [rScale_div site hslot ho])
  have hfold : g.armCombined slot tag pre = r.foldl (Pkg.armSite slot tag pre) ((l.foldl (Pkg.armSite slot tag pre) g).armSite slot tag pre site) := by
    rw [Pkg.armCombined, hl, List.foldl_append, List.foldl_cons]
    rfl
  have hself := armSite_self (g := l.foldl (Pkg.armSite slot tag pre) g) (slot := slot) (tag := tag) (pre := pre) (site := site)
    (by rw [Pkg.slotWarm, Pkg.rf, hbefore (by decide)]; exact hwarm) (by rw [Pkg.slotTag, Pkg.rf, hbefore (by decide)]; exact htag)
  simp only [Pkg.cur, Pkg.slotArm, Pkg.rf, Pkg.rb, hbefore (show 0 < 0x80 by decide), hbefore (show 4 < 0x80 by decide)] at hself
  rw [hfold]
  simp only [Pkg.cur, Pkg.slotArm, Pkg.rf, Pkg.rb, hafter _ (show 0 < 0x80 by decide), hafter _ (show 4 < 0x80 by decide)]
  exact hself

/-- Settles O30: CUR and CTL by the words they leave, and the three parts of the exchange. -/
theorem scaleSlots' : Obligations.ScaleSlots := by
  refine ⟨?_, ?_, ?_, ?_⟩
  · intro s k m site n v g ctl off hn
    refine ⟨fun hw => ⟨fun hpos hfin => ?_, fun hbad => ?_⟩, fun hw => ?_⟩
    · refine leaves_scaleCurWrite hw fun p hg hmem => ?_
      rw [fld_low, if_pos ⟨hpos, hfin⟩] at hg
      refine ⟨?_, fun a ha => ?_, hmem⟩
      · rw [hg, Pkg.cur, Pkg.rf, Pkg.wf, Pkg.wr_rd_self, fld_setF_same _ _ (by decide) (by decide)]
        exact Nat.mod_mod ..
      · rw [hg, Pkg.wf, Pkg.wr_rd_ne _ _ (by rwa [← rScale_add])]
    · refine leaves_scaleCurWrite hw fun p hg hmem => ?_
      rw [fld_low, if_neg (by rcases hbad with h | h <;> omega)] at hg
      refine ⟨?_, fun a ha => ?_, hmem⟩
      · rw [hg, Pkg.rb_wb_same _ _ _ (by decide)]
      · rw [hg, Pkg.wb, Pkg.wr_rd_ne _ _ ha]
    · refine leaves_scaleFillDiscard hw fun p hg hmem => ?_
      have hrd (a : Nat) := scaleCtl_rd g site n (setF v 27 22 0) a
      rw [← hg] at hrd
      have hfill : fld (setF v 27 22 0) 27 22 = 0 := by rw [fld_setF_same _ _ (by decide) (by decide), Nat.zero_mod]
      have hlow {hi lo : Nat} (h : hi < 22) : fld (setF v 27 22 0) hi lo = fld v hi lo := fld_setF_apart _ _ (by decide) (by decide) (.inl h)
      have hvalid : bit (setF v 27 22 0) 0 = v.toNat.testBit 0 := bit_setF_apart _ _ (by decide) (by decide) (by decide)
      have hctl := hrd (rScale site n 0)
      rw [if_pos rfl] at hctl
      refine ⟨?_, ?_, ?_, fun a ha => ?_, hmem⟩
      · rw [Pkg.rf, hctl, fld_warmed _ (by decide), scaleCtlWord_fill _ hfill]
      · rw [Pkg.rf, hctl, fld_warm, bit_scaleCtlWord_valid, hvalid, scaleCtlWord_fill _ hfill, scaleCtlWord_warm, scaleCtlWord_hwarm,
          hlow (by decide), fld_eq v 17 14]
        simp only [eq_self, true_and]
        rfl
      · rw [Pkg.rf, hctl, fld_warmed _ (by decide), scaleCtlWord_low, hlow (by decide), fld_low]
      · rw [hrd, if_neg ha]
  · intro s k m site n v g ctl hn hw hwarm harm hfree
    refine leaves_scaleArm hw fun p hg hmem => ?_
    obtain ⟨hsent, harmed⟩ := scaleCtl_arms hwarm harm hfree (bit_setB_same v true (by decide : 30 < 32))
    rw [← hg] at hsent harmed
    rw [rScale_add, rScale_add]
    exact ⟨hsent, harmed, hmem⟩
  · intro s k slot tag ncopy pre g e n best hup hlead hnew
    have hrec := armReceipt_eq ncopy pre hnew
    dsimp only at hrec
    refine ⟨fun hn => ⟨_, gives_of_atHub rfl hup rfl, ?_⟩, fun hn => ⟨_, gives_of_atHub rfl hup rfl, ?_⟩⟩
    · dsimp only
      rw [Pack.on_g_self, if_pos hlead, hrec, if_pos hn]
      exact ⟨rfl, rfl, rfl⟩
    · dsimp only
      rw [Pack.on_g_self, if_pos hlead, hrec, if_neg (Nat.not_le.mpr hn)]
      exact ⟨List.mem_append_right _ (List.mem_singleton.mpr rfl), rfl, rfl⟩
  · intro s k slot tag pre site g c hup hsite hslot hwarm htag
    refine ⟨_, gives_of_atHub rfl hup rfl, ?_⟩
    obtain ⟨hcur, harm⟩ := armCombined_site (pre := pre) hsite hslot hwarm htag
    rw [Pack.on_g_self]
    exact ⟨hcur, harm, rfl⟩

end Sys2Proof.Machine
end

section
/-! PROOFS. Timers (R105, R139, R387) -/

namespace Sys2Proof.Machine

/-! ## Serving waiters leaves the registers (R101, R105) -/

theorem Pkg.serveTakes_regs (site u c : Nat) : ∀ (l : List Nat) (g : Pkg), (Pkg.serveTakes site u c l g).regs = g.regs
  | [], _ => rfl
  | i :: l, g => by
    rw [Pkg.serveTakes]
    split
    · dsimp only
      split
      · exact Pkg.serveTakes_regs site u c l _
      · rfl
    · exact Pkg.serveTakes_regs site u c l g

theorem Pkg.serveWaits_regs (site u c : Nat) : ∀ (l : List Nat) (g : Pkg), (Pkg.serveWaits site u c l g).regs = g.regs
  | [], _ => rfl
  | i :: l, g => by
    rw [Pkg.serveWaits]
    split
    · refine (Pkg.serveWaits_regs site u c l _).trans ?_
      split <;> rfl
    · exact Pkg.serveWaits_regs site u c l g

@[simp] theorem Pkg.serveTok_regs (g : Pkg) (site u c : Nat) : (g.serveTok site u c).regs = g.regs :=
  (Pkg.serveWaits_regs ..).trans (Pkg.serveTakes_regs ..)

@[simp] theorem Pkg.lineLeft_regs (g : Pkg) (key : Nat) (w : Option Wait) : (g.lineLeft key w).regs = g.regs := by
  unfold Pkg.lineLeft
  split
  · exact Pkg.serveTok_regs ..
  · rfl

/-- A fold whose steps keep a part of the state keeps it. -/
theorem foldl_keeps {α β γ : Type} {f : α → β → α} {P : α → γ} (h : ∀ a b, P (f a b) = P a) : ∀ (l : List β) (a : α), P (l.foldl f a) = P a
  | [], _ => rfl
  | b :: l, a => (foldl_keeps h l (f a b)).trans (h a b)

@[simp] theorem Pkg.endTimer_regs (g : Pkg) (k n : Nat) : (g.endTimer k n).regs = g.regs := by
  rw [Pkg.endTimer]
  exact (foldl_keeps (fun _ _ => Pkg.lineLeft_regs ..) ..).trans (foldl_keeps (P := Pkg.regs) (by intro _ _; rfl) ..)

/-- What a change of the listed records leaves alone at one index is the same there. -/
theorem mget_mmap_at {α β : Type} {d : α} {f : Nat → α → α} {P : α → β} {i : Nat} (h : ∀ x, P (f i x) = P x) :
    ∀ m : Map α, P (mget d (mmap f m) i) = P (mget d m i)
  | [] => rfl
  | p :: m => by
    rw [mmap, List.map_cons, mget, mget]
    split
    · next hi => exact hi ▸ h p.2
    · exact mget_mmap_at h m

@[simp] theorem Pack.dropWaits_g (s : Pack) (k n : Nat) : (s.dropWaits k n).g k = s.g k := by
  rw [Pack.dropWaits, Pack.g, Pack.g]
  dsimp only
  refine mget_mmap_at (P := fun g => g) ?_ _
  intro x
  exact if_pos rfl

theorem Pack.endTimer_g (s : Pack) (k n : Nat) : (s.endTimer k n).g k = (s.g k).endTimer k n := by
  rw [Pack.endTimer, Pack.on_g_self, Pack.dropWaits_g]

theorem waiters_nil {g : Pkg} {test : Nat → Wait → Bool}
    (h : ∀ e ∈ g.thr, ∀ w, e.2.st = .wait → e.2.wait = some w → test e.1 w = false) : g.waiters test = [] := by
  unfold Pkg.waiters
  dsimp only
  rw [List.filter_eq_nil_iff.mpr]
  · rfl
  · intro e he
    split
    · next w hst hw => simp [h e he w hst hw]
    · decide

theorem waiters_one {g : Pkg} {test : Nat → Wait → Bool} {key : Nat} {x : Thread} {w : Wait} (hthr : g.thr = [(key, x)])
    (hst : x.st = .wait) (hw : x.wait = some w) (htest : test key w = true) : g.waiters test = [key] := by
  simp [Pkg.waiters, hthr, hst, hw, htest, sortBy, insBy]

/-- With nobody waiting nobody is served. -/
theorem serveTok_ready {g : Pkg} (site u c : Nat) (h : ∀ e ∈ g.thr, e.2.st ≠ .wait) : g.serveTok site u c = g := by
  have hnone (test : Nat → Wait → Bool) : g.waiters test = [] := waiters_nil (fun e he w hst => absurd hst (h e he))
  simp only [Pkg.serveTok, hnone, Pkg.serveTakes, Pkg.serveWaits]

theorem lineLeft_ready {g : Pkg} (key : Nat) (w : Option Wait) (h : ∀ e ∈ g.thr, e.2.st ≠ .wait) : g.lineLeft key w = g := by
  unfold Pkg.lineLeft
  split
  · exact serveTok_ready _ _ _ h
  · rfl

theorem mins_one {α : Type} (i : Nat) (v w : α) : mins [(i, v)] i w = [(i, w)] := by simp [mins]

/-! ## Timers (R105, R139, R387) -/

section
variable {g : Pkg} {n : Nat}

theorem rTmr_ne : rTmr n 4 ≠ rTmr n 0 := by
  simp only [rTmr, hubR, rk]
  omega

theorem tmrStart_eq (g : Pkg) (n count : Nat) : (g.tmrStart n count).rb (rTmr n 0) 29 = true ∧ (g.tmrStart n count).tmrExp n = false ∧
    (g.tmrStart n count).tmrAlloc n = g.tmrAlloc n ∧ (g.tmrStart n count).rd (rTmr n 4) = mk32 count := by
  have hctl : (g.tmrStart n count).rd (rTmr n 0) = setF (g.rd (rTmr n 0)) 30 29 1 := by
    rw [Pkg.tmrStart, Pkg.wr_rd_ne _ _ rTmr_ne.symm, Pkg.wr_rd_self]
  refine ⟨?_, ?_, ?_, Pkg.wr_rd_self ..⟩
  · rw [Pkg.rb, hctl, bit_setF _ _ _ (by decide) (by decide), if_pos (by decide)]
    rfl
  · rw [Pkg.tmrExp, Pkg.rb, hctl, bit_setF _ _ _ (by decide) (by decide), if_pos (by decide)]
    rfl
  · rw [Pkg.tmrAlloc, Pkg.rb, hctl, bit_setF_apart _ _ (by decide) (by decide) (by decide)]
    rfl

theorem tmrFree_eq (g : Pkg) (n : Nat) : (g.tmrFree n).tmrAlloc n = false ∧ (g.tmrFree n).rd (rTmr n 4) = 0 := by
  refine ⟨?_, Pkg.wr_rd_self ..⟩
  rw [Pkg.tmrAlloc, Pkg.rb, Pkg.tmrFree, Pkg.wr_rd_ne _ _ rTmr_ne.symm, Pkg.wr_rd_self]
  rfl

theorem freeTimer_some (hn : n < 64) (hfree : g.tmrAlloc n = false) (hlow : ∀ j, j < n → g.tmrAlloc j = true) : g.freeTimer = some n := by
  rw [Pkg.freeTimer, List.find?_range_eq_some]
  simp only [hfree, hn, List.mem_range, Bool.not_false, true_and]
  exact fun j hj => by simp [hlow j hj]

theorem freeTimer_none (hall : ∀ j, j < 64 → g.tmrAlloc j = true) : g.freeTimer = none := by
  rw [Pkg.freeTimer, List.find?_eq_none]
  intro j hj
  simp [hall j (List.mem_range.mp hj)]

theorem namedTimer_alloc {v : Word} (hv : v.toNat < 64) (halloc : g.tmrAlloc v.toNat = true) : g.namedTimer true v = some (some v.toNat) := by
  simp [Pkg.namedTimer, tmrOf, hv, halloc]

/-- No thread waits for the timer. -/
theorem endTimer_idle (k : Nat) (h : ∀ e ∈ g.thr, ∀ w, e.2.wait = some w → w.timer ≠ some n) : (g.endTimer k n).thr = g.thr := by
  have hnone : g.waiters (fun _ w => w.timer == some n) = [] := by
    exact waiters_nil fun e he w _ hw => by simpa using h e he w hw
  rw [Pkg.endTimer, hnone]
  rfl

/-- One thread waits for it. -/
theorem endTimer_one (k : Nat) {key : Nat} {x : Thread} {w : Wait} (hthr : g.thr = [(key, x)]) (hst : x.st = .wait) (hwait : x.wait = some w)
    (hw : w.timer = some n) : (g.endTimer k n).thr = [(key, (x.setPred w.pd false).past)] := by
  have hself : mget ({} : Thread) g.thr key = x := by simp [hthr, mget]
  rw [Pkg.endTimer, waiters_one hthr hst hwait (by simp [hw])]
  simp only [List.map_cons, List.map_nil, List.foldl_cons, List.foldl_nil, hself, hwait, Option.map_some, Option.getD_some]
  rw [lineLeft_ready]
  · rw [Pkg.release, mupd, hself, hthr, mins_one]
    rfl
  · rw [Pkg.release, mupd, hself, hthr, mins_one]
    simp only [List.mem_singleton]
    rintro e rfl
    exact nofun
end

section
variable {c : Instr} {op : Op} {t : Tid} {f : Fields} {body : Body} {s : State} {P : Pack → Prop}

/-- An instruction that goes on, whatever its body does to the pack. -/
theorem IssuedAs.leaves_of_adv (hc : IssuedAs c op t f body) (hi : Issues s.pack t op f) {q : Pack}
    (hbody : body (s.pack.thread t) (s.pack.atIssue t) = (q, .adv)) (hP : P (q.on t.pkg (fun g => g.onTh t Thread.adv))) : Leaves c s P := by
  rw [Pack.atIssue] at hbody
  exact ⟨_, hc.gives (by rw [issue_runs hi, hbody]; rfl), hP⟩

/-- An instruction that changes its package and its thread's registers, and goes on. -/
theorem IssuedAs.gives_onTh_with (hc : IssuedAs c op t f body) (hi : Issues s.pack t op f) (h : Pkg → Pkg) (y : Thread → Thread)
    (hth : ∀ g : Pkg, (h g).th t = g.th t)
    (hbody : body (s.pack.thread t) (s.pack.atIssue t) = (((s.pack.atIssue t).on t.pkg h).onTh t y, .adv)) :
    Gives c s (s.pack.settleWith t (y (s.pack.thread t)).past h) := by
  rw [Pack.atIssue] at hbody
  exact hc.gives (by rw [issue_runs hi, hbody, leave_with h y hth])
end

section
variable {t : Tid} {f : Fields} {s : State} {P : Pack → Prop}

theorem gives_tmalloc (hi : Issues s.pack t .tmalloc f) (hon : (s.pack.g t.pkg).timerOn = true) {n : Nat}
    (hfree : (s.pack.g t.pkg).freeTimer = some n) : Gives (.tmalloc t f) s
      (s.pack.settleWith t (((s.pack.thread t).setS f.d.toNat (BitVec.ofNat 64 n)).setPred f.c.toNat true).past (fun g => g.wr (rTmr n 0) 0x88000000#32)) :=
  IssuedAs.gives_onTh_with (body := tmallocBody t f) (fun _ => rfl) hi (fun g => g.wr (rTmr n 0) 0x88000000#32)
    (fun x => (x.setS f.d.toNat (BitVec.ofNat 64 n)).setPred f.c.toNat true) (fun _ => rfl) (by
      have hfree' : ((s.pack.g t.pkg).issued t).freeTimer = some n := hfree
      have hon' : ((s.pack.g t.pkg).issued t).timerOn = true := hon
      simp only [tmallocBody, Pack.atIssue_g, hon', hfree']
      rfl)

theorem gives_tmalloc_none (hi : Issues s.pack t .tmalloc f) (hon : (s.pack.g t.pkg).timerOn = true)
    (hfree : (s.pack.g t.pkg).freeTimer = none) : Gives (.tmalloc t f) s
      (s.pack.settle t (((s.pack.thread t).setS f.d.toNat (BitVec.allOnes 64)).setPred f.c.toNat false).past) :=
  IssuedAs.gives_of_onTh (body := tmallocBody t f) (fun _ => rfl) hi (fun x => (x.setS f.d.toNat (BitVec.allOnes 64)).setPred f.c.toNat false) (by
      have hfree' : ((s.pack.g t.pkg).issued t).freeTimer = none := hfree
      have hon' : ((s.pack.g t.pkg).issued t).timerOn = true := hon
      simp only [tmallocBody, Pack.atIssue_g, hon', hfree']
      rfl)

theorem leaves_tmset (hi : Issues s.pack t .tmset f) (hon : (s.pack.g t.pkg).timerOn = true)
    (hm : ((s.pack.thread t).s f.a.toNat).toNat < 64) (halloc : (s.pack.g t.pkg).tmrAlloc ((s.pack.thread t).s f.a.toNat).toNat = true) :
    Gives (.tmset t f) s (s.pack.settleWith t (s.pack.thread t).past
      (fun g => g.tmrStart ((s.pack.thread t).s f.a.toNat).toNat (((s.pack.thread t).s f.b.toNat).toNat % 2 ^ 32))) :=
  IssuedAs.gives_with (body := tmsetBody t f) (fun _ => rfl) hi _ (fun _ => rfl) (by
    have hon' : ((s.pack.g t.pkg).issued t).timerOn = true := hon
    have hnamed : ((s.pack.g t.pkg).issued t).namedTimer true ((s.pack.thread t).s f.a.toNat) = _ := namedTimer_alloc hm halloc
    simp only [tmsetBody, Pack.atIssue_g, hon', hnamed]
    rfl)

theorem leaves_tmfree (hi : Issues s.pack t .tmfree f) (hon : (s.pack.g t.pkg).timerOn = true)
    (hm : ((s.pack.thread t).s f.a.toNat).toNat < 64) (halloc : (s.pack.g t.pkg).tmrAlloc ((s.pack.thread t).s f.a.toNat).toNat = true)
    (hP : ∀ p : Pack, (p.g t.pkg).regs = (((s.pack.g t.pkg).tmrFree ((s.pack.thread t).s f.a.toNat).toNat)).regs → p.mem = s.pack.mem → P p) :
    Leaves (.tmfree t f) s P := by
  have hon' : ((s.pack.g t.pkg).issued t).timerOn = true := hon
  have hnamed : ((s.pack.g t.pkg).issued t).namedTimer true ((s.pack.thread t).s f.a.toNat) = _ := namedTimer_alloc hm halloc
  refine IssuedAs.leaves_of_adv (body := tmfreeBody t f) (fun _ => rfl) hi
    (q := ((s.pack.atIssue t).endTimer t.pkg ((s.pack.thread t).s f.a.toNat).toNat).on t.pkg (fun g => g.tmrFree ((s.pack.thread t).s f.a.toNat).toNat))
    (by simp only [tmfreeBody, Pack.atIssue_g, hon', hnamed]; rfl) (hP _ ?_ rfl)
  simp [Pkg.tmrFree, Pkg.wr, Pack.endTimer_g, Pack.atIssue_g]

theorem leaves_timerRel {k n : Nat} {m : Master} (hn : n < 64) (hw : Writable s.pack k m 62 (0x1000 + 8 * n) .timer (8 * n))
    (howner : (s.pack.g k).rf (rTmr n 0) 28 27 = 1)
    (hP : ∀ p : Pack, (p.g k).regs = ((s.pack.g k).tmrFree n).regs → p.mem = s.pack.mem → P p) : Leaves (.timerRel k m n) s P := by
  refine ⟨(s.pack.endTimer k n).on k (fun g => g.tmrFree n),
    gives_of_onPack (h := fun p => p.busWrite k m 62 (0x1000 + 8 * n) 1) rfl ?_, hP _ ?_ rfl⟩
  · rw [busWrite_served hw, regWrite_now rfl rfl rfl, Pack.blkWrite, if_pos ⟨by omega, by omega, by decide⟩,
      Nat.mul_div_cancel_left _ (by decide), Pack.timerRel, if_pos howner]
  · simp [Pkg.tmrFree, Pkg.wr, Pack.endTimer_g]

theorem leaves_timerExpiry {k n : Nat} (hn : n < 64) (hup : (s.pack.g k).hubUp = true) (hrun : (s.pack.g k).rb (rTmr n 0) 29 = true)
    (howner : (s.pack.g k).rf (rTmr n 0) 28 27 ≠ 2)
    (hP : ∀ p : Pack, p.g k = (((s.pack.g k).wr (rTmr n 0) (setF ((s.pack.g k).rd (rTmr n 0)) 30 29 2)).wr (rTmr n 4) 0).endTimer k n →
      p.mem = s.pack.mem → P p) : Leaves (.timerExpiry k n) s P := by
  refine ⟨_, gives_of_atHub rfl hup rfl, hP _ ?_ ?_⟩
  · rw [Pack.timerExpiry]
    simp only [hrun, howner, Nat.not_le.mpr hn, Pack.endTimer_g]
    simp [Pack.endTimer_g]
  · simp [Pack.timerExpiry, hrun, howner, Nat.not_le.mpr hn]
end

/-- Settles O21: allocation, start and release by instruction and by register, and expiry. -/
theorem timers : Obligations.Timers := by
  refine ⟨?_, ?_, ?_⟩
  · intro s t f g x m
    refine ⟨fun hi hon => ⟨fun n hn hfree hlow => gives_tmalloc hi hon (freeTimer_some hn hfree hlow),
      fun hall => gives_tmalloc_none hi hon (freeTimer_none hall)⟩, fun hi hon hm halloc => ?_, fun hi hon hm halloc => ?_⟩
    · obtain ⟨hrun, hexp, hall, hcount⟩ := tmrStart_eq (g.issued t) m ((x.s f.b.toNat).toNat % 2 ^ 32)
      refine ⟨_, leaves_tmset hi hon hm halloc, ?_⟩
      dsimp only [Pack.settleWith]
      rw [Pack.on_g_self]
      refine ⟨hrun, hexp, hall.trans halloc, ?_, ?_, rfl⟩
      · exact (congrArg BitVec.toNat hcount).trans (by simp [mk32])
      · rw [Pack.thread, Pack.on_g_self, Pkg.setTh_th_self]
    · refine leaves_tmfree hi hon hm halloc fun p hregs hmem => ?_
      obtain ⟨hfree, hcount⟩ := tmrFree_eq g m
      refine ⟨?_, (Pkg.rd_of_regs hregs _).trans hcount, hmem⟩
      rw [← hfree, Pkg.tmrAlloc, Pkg.tmrAlloc, Pkg.rb, Pkg.rb, Pkg.rd_of_regs hregs]
  · intro s k n m g hn hw howner
    refine leaves_timerRel hn hw howner fun p hregs hmem => ?_
    obtain ⟨hfree, hcount⟩ := tmrFree_eq g n
    refine ⟨?_, (Pkg.rd_of_regs hregs _).trans hcount, hmem⟩
    rw [← hfree, Pkg.tmrAlloc, Pkg.tmrAlloc, Pkg.rb, Pkg.rb, Pkg.rd_of_regs hregs]
  · intro s k n g hn hup hrun howner
    refine leaves_timerExpiry hn hup hrun howner fun p hg hmem => ?_
    have hregs : (p.g k).regs = ((g.wr (rTmr n 0) (setF (g.rd (rTmr n 0)) 30 29 2)).wr (rTmr n 4) 0).regs := by rw [hg]; exact Pkg.endTimer_regs ..
    have hctl : (p.g k).rd (rTmr n 0) = setF (g.rd (rTmr n 0)) 30 29 2 := by
      rw [Pkg.rd_of_regs hregs, Pkg.wr_rd_ne _ _ rTmr_ne.symm, Pkg.wr_rd_self]
    refine ⟨?_, ?_, ?_, ?_, hmem, fun hidle => ?_, fun key x w hthr hst hwait hw => ?_⟩
    · rw [Pkg.tmrExp, Pkg.rb, hctl, bit_setF _ _ _ (by decide) (by decide), if_pos (by decide)]
      rfl
    · rw [Pkg.rb, hctl, bit_setF _ _ _ (by decide) (by decide), if_pos (by decide)]
      rfl
    · rw [Pkg.tmrAlloc, Pkg.rb, hctl, bit_setF_apart _ _ (by decide) (by decide) (by decide)]
      rfl
    · rw [Pkg.rd_of_regs hregs, Pkg.wr_rd_self]
    · rw [hg]
      exact endTimer_idle k hidle
    · rw [hg]
      exact endTimer_one k hthr hst hwait hw

end Sys2Proof.Machine
end

section
/-! PROOFS. TGIVE, TTAKE and TWAIT at issue (R100, R101, R105, R107, R132) -/

namespace Sys2Proof.Machine

/-! ## TGIVE, TTAKE and TWAIT at issue (R100, R101, R105, R107, R132) -/

/-- The fields of a token instruction. -/
theorem imm_ctr (f : Fields) : f.i 5 0 = f.imm.toNat % 64 := fld_low ..

theorem imm_low (f : Fields) : f.i 15 0 = f.imm.toNat % 65536 := fld_low ..

theorem imm_high (f : Fields) : f.i 31 16 = f.imm.toNat / 65536 := fld_31_16 ..

section
variable {c : Instr} {t : Tid} {f : Fields} {s : State} {take : Bool} {p : Pack} {x : Thread}

/-- The TTAKEs that wait at a counter of the thread's unit. -/
def Pkg.takeLine (g : Pkg) (t : Tid) (c : Nat) : List Nat :=
  g.waiters (fun key w => key / 16 == uk t.site t.unit && (match w with
    | .token i _ true _ _ => i == c
    | _ => false))

/-- The operand names an allocated timer, or no timer is named. -/
theorem takeBody_unnamed (h : (p.g t.pkg).namedTimer (f.ib 6) (x.s f.c.toNat) = none) : takeBody t f take x p = (p, .trap 6 none) := by
  simp only [takeBody, h]

variable {tmr : Option Nat}

theorem takeBody_takes (hn : (p.g t.pkg).namedTimer (f.ib 6) (x.s f.c.toNat) = some tmr)
    (henough : f.i 31 16 ≤ ((p.g t.pkg).tk t.site t.unit (f.i 5 0)).count) (hline : (p.g t.pkg).takeLine t (f.i 5 0) = []) :
    takeBody t f true x p = ((p.on t.pkg (fun g => (g.setTk t.site t.unit (f.i 5 0)
      { (p.g t.pkg).tk t.site t.unit (f.i 5 0) with count := ((p.g t.pkg).tk t.site t.unit (f.i 5 0)).count - f.i 31 16 }).book 0 t.site
        (-(f.i 31 16 : Int)))).onTh t (fun x => x.setPred f.d.toNat true), .adv) := by
  simp only [takeBody, hn]
  exact if_pos ⟨henough, .inr hline⟩

theorem takeBody_finds (hn : (p.g t.pkg).namedTimer (f.ib 6) (x.s f.c.toNat) = some tmr)
    (henough : f.i 31 16 ≤ ((p.g t.pkg).tk t.site t.unit (f.i 5 0)).count) :
    takeBody t f false x p = (p.onTh t (fun x => x.setPred f.d.toNat true), .adv) := by
  simp only [takeBody, hn]
  exact if_pos ⟨henough, .inl trivial⟩

theorem takeBody_waits (hn : (p.g t.pkg).namedTimer (f.ib 6) (x.s f.c.toNat) = some tmr)
    (hmiss : ((p.g t.pkg).tk t.site t.unit (f.i 5 0)).count < f.i 31 16 ∨ (take = true ∧ (p.g t.pkg).takeLine t (f.i 5 0) ≠ []))
    (htmr : ∀ m, tmr = some m → (p.g t.pkg).tmrExp m = false) :
    takeBody t f take x p = (p, .wait (.token (f.i 5 0) (f.i 31 16) take f.d.toNat tmr)) := by
  have hno : ¬ (f.i 31 16 ≤ ((p.g t.pkg).tk t.site t.unit (f.i 5 0)).count ∧ (take = false ∨ (p.g t.pkg).takeLine t (f.i 5 0) = [])) := by
    rintro ⟨hle, htake | hline⟩
    · rcases hmiss with h | h
      · omega
      · simp [h.1] at htake
    · rcases hmiss with h | h
      · omega
      · exact h.2 hline
  simp only [takeBody, hn]
  refine (if_neg hno).trans ?_
  cases tmr with
  | none => rfl
  | some m => simp only [htmr m rfl]; rfl

theorem takeBody_expired {m : Nat} (hn : (p.g t.pkg).namedTimer (f.ib 6) (x.s f.c.toNat) = some (some m))
    (hmiss : ((p.g t.pkg).tk t.site t.unit (f.i 5 0)).count < f.i 31 16) (hexp : (p.g t.pkg).tmrExp m = true) :
    takeBody t f take x p = (p.onTh t (fun x => x.setPred f.d.toNat false), .adv) := by
  simp only [takeBody, hn]
  refine (if_neg (fun h => by omega)).trans ?_
  simp only [hexp]
  rfl
end

section
variable {t : Tid} {f : Fields} {s : State} {take : Bool}

/-- The command of a TTAKE or a TWAIT. -/
theorem take_issuedAs (take : Bool) (t : Tid) (f : Fields) :
    IssuedAs (if take then .ttake t f else .twait t f) (if take then .ttake else .twait) t f (takeBody t f take) := by
  cases take <;> exact fun _ => rfl

theorem namedTimer_none (g : Pkg) (v : Word) : g.namedTimer false v = some none := rfl

theorem namedTimer_some {g : Pkg} {v : Word} (h : v.toNat < 64) (halloc : g.tmrAlloc v.toNat = true) :
    g.namedTimer true v = some (some v.toNat) := namedTimer_alloc h halloc

theorem namedTimer_bad {g : Pkg} {v : Word} (h : 64 ≤ v.toNat ∨ g.tmrAlloc v.toNat = false) : g.namedTimer true v = none := by
  by_cases hv : v.toNat < 64
  · have halloc : g.tmrAlloc v.toNat = false := h.resolve_left (by omega)
    simp [Pkg.namedTimer, tmrOf, hv, halloc]
  · simp [Pkg.namedTimer, tmrOf, hv]

/-- A take leaves the other counters of its unit. -/
theorem setTk_tk_ne (g : Pkg) {site u c i : Nat} (x : Tok) (h : i ≠ c) : (g.setTk site u c x).tk site u i = g.tk site u i :=
  mget_mins_ne _ _ _ (by simp only [ck]; omega)

theorem gives_tgive {pk : Nat} (hi : Issues s.pack t .tgive f) (hoff : ((s.pack.thread t).s f.a.toNat).toNat % 2 ^ 52 / 2 ^ 12 = 0)
    (hsite : ((s.pack.thread t).s f.a.toNat).toNat / 2 ^ 52 % 64 < 48 ∨ ((s.pack.thread t).s f.a.toNat).toNat / 2 ^ 52 % 64 = 63)
    (hat : (s.pack.atIssue t).at t.pkg (((s.pack.thread t).s f.a.toNat).toNat / 2 ^ 58) = some pk) :
    let g := s.pack.g t.pkg
    let a := ((s.pack.thread t).s f.a.toNat).toNat
    let give : Flight := { seq := g.seq + 1, pc := (s.pack.thread t).pc, src := t,
                           dst := { pkg := pk, site := if a / 2 ^ 52 % 64 = 63 then t.site else a / 2 ^ 52 % 64, unit := a / 64 % 64, thr := 0 },
                           ctr := a % 64, n := f.imm.toNat % 65536, rel := true, step := g.step }
    Gives (.tgive t f) s
      { (if pk = t.pkg then s.pack.settle t (s.pack.thread t).past
          else s.pack.settleWith t (s.pack.thread t).past (fun h => h.flow 0 g.step true give.n))
        with flight := s.pack.flight ++ [give] } := by
  intro g a give
  have hc : IssuedAs (.tgive t f) .tgive t f (tgiveBody t f) := fun _ => rfl
  refine hc.gives ?_
  rw [issue_runs hi]
  have hbad : ¬ (a % 2 ^ 52 / 2 ^ 12 ≠ 0 ∨ (48 ≤ a / 2 ^ 52 % 64 ∧ a / 2 ^ 52 % 64 ≠ 63)) := by omega
  have hbody : tgiveBody t f (s.pack.thread t) (s.pack.on t.pkg (fun g => g.issued t)) =
      ({ (if pk = t.pkg then s.pack.atIssue t else (s.pack.atIssue t).on t.pkg (fun h => h.flow 0 g.step true give.n))
          with flight := s.pack.flight ++ [give] }, .adv) := by
    rw [show s.pack.on t.pkg (fun g => g.issued t) = s.pack.atIssue t from rfl, tgiveBody]
    refine (if_neg hbad).trans ?_
    simp only [hat, Pack.atIssue_g, imm_low]
    by_cases hpk : pk = t.pkg
    · simp only [if_pos hpk]
      rfl
    · have hflow : (s.pack.atIssue t).on t.pkg (fun h => h.flow 0 h.step true (f.imm.toNat % 65536)) =
          (s.pack.atIssue t).on t.pkg (fun h => h.flow 0 g.step true (f.imm.toNat % 65536)) :=
        Pack.on_congr (by rw [Pack.atIssue_g]; rfl)
      simp only [if_neg hpk, hflow]
      rfl
  rw [hbody]
  by_cases hpk : pk = t.pkg
  · rw [if_pos hpk, if_pos hpk]
    exact congrArg (fun p : Pack => { p with flight := s.pack.flight ++ [give] }) (leave_nop (s := s.pack) (t := t))
  · rw [if_neg hpk, if_neg hpk]
    exact congrArg (fun p : Pack => { p with flight := s.pack.flight ++ [give] })
      (leave_on (s := s.pack) (t := t) (fun h => h.flow 0 g.step true give.n) (fun _ => rfl))
end

/-- Settles O19: a give, and a take or a wait by whether the counter holds its tokens and by its timer. -/
theorem tokenInstructionsIssue : Obligations.TokenInstructionsIssue := by
  constructor
  · intro s t f pk site g x a st give c n have' ahead yes hold
    refine ⟨fun hi hoff hsite hat => gives_tgive hi hoff hsite hat, fun hi htmr => ⟨fun hle hline => ?_, fun hmiss => ?_⟩,
      fun hi htmr => ⟨fun hle => ?_, fun hmiss => ?_⟩⟩
    all_goals
      have hnamed : ((s.pack.atIssue t).g t.pkg).namedTimer (f.ib 6) (x.s f.c.toNat) = some none := by
        rw [Fields.ib, htmr]
        rfl
      have hn : f.i 31 16 = n := imm_high f
      have hctr : f.i 5 0 = c := imm_ctr f
    · have hbody := takeBody_takes (p := s.pack.atIssue t) (t := t) hnamed (by rw [hn, hctr, Pack.atIssue_g]; exact hle)
        (by rw [hctr, Pack.atIssue_g]; exact hline)
      rw [Pack.atIssue_g, hn, hctr] at hbody
      refine ⟨_, (take_issuedAs true t f).gives_onTh_with hi (fun h => (h.setTk t.site t.unit c
        { g.tk t.site t.unit c with count := (g.tk t.site t.unit c).count - n }).book 0 t.site (-(n : Int)))
        (fun x => x.setPred f.d.toNat true) (fun _ => rfl) hbody, ?_, ?_, rfl, fun i hi hne => ?_⟩
      · rw [Pack.settleWith, Pack.on_g_self]
        exact congrArg Tok.count (Pkg.setTk_tk_self ..)
      · rw [Pack.thread, Pack.settleWith, Pack.on_g_self, Pkg.setTh_th_self]
      · rw [Pack.settleWith, Pack.on_g_self]
        exact setTk_tk_ne _ _ hne
    · have hbody := takeBody_waits (p := s.pack.atIssue t) (t := t) (take := true) hnamed
        (by rw [hn, hctr, Pack.atIssue_g]; exact hmiss.imp id (fun h => ⟨rfl, h⟩)) (fun m hm => by cases hm)
      rw [hn, hctr] at hbody
      exact (take_issuedAs true t f).gives_of_wait hi _ hbody
    · have hbody := takeBody_finds (p := s.pack.atIssue t) (t := t) hnamed (by rw [hn, hctr, Pack.atIssue_g]; exact hle)
      exact (take_issuedAs false t f).gives_of_onTh hi _ hbody
    · have hbody := takeBody_waits (p := s.pack.atIssue t) (t := t) (take := false) hnamed
        (by rw [hn, hctr, Pack.atIssue_g]; exact .inl hmiss) (fun m hm => by cases hm)
      rw [hn, hctr] at hbody
      exact (take_issuedAs false t f).gives_of_wait hi _ hbody
  · intro s t f take g x m c n cmd hi htmr
    have hn : f.i 31 16 = n := imm_high f
    have hctr : f.i 5 0 = c := imm_ctr f
    have hib : f.ib 6 = true := htmr
    have hc : IssuedAs cmd (if take then .ttake else .twait) t f (takeBody t f take) := take_issuedAs take t f
    refine ⟨fun hbad => ?_, fun hm halloc hmiss hexp => ?_, fun hm halloc hmiss hexp => ?_⟩
    · have hnamed : ((s.pack.atIssue t).g t.pkg).namedTimer (f.ib 6) (x.s f.c.toNat) = none := by
        rw [hib, Pack.atIssue_g]
        exact namedTimer_bad hbad
      obtain ⟨p, hgives, -, hcause, hmem⟩ := hc.leaves_of_trap hi (cause := 6) (by decide) (takeBody_unnamed hnamed)
      exact ⟨p, hgives, hcause, hmem⟩
    all_goals
      have hnamed : ((s.pack.atIssue t).g t.pkg).namedTimer (f.ib 6) (x.s f.c.toNat) = some (some m) := by
        rw [hib, Pack.atIssue_g]
        exact namedTimer_some hm halloc
      have hmiss' : (((s.pack.atIssue t).g t.pkg).tk t.site t.unit (f.i 5 0)).count < f.i 31 16 := by
        rw [hn, hctr, Pack.atIssue_g]
        exact hmiss
      have hexp' := (congrArg (fun g : Pkg => g.tmrExp m) (Pack.atIssue_g s.pack t)).trans hexp
    · exact hc.gives_of_onTh hi _ (takeBody_expired hnamed hmiss' hexp')
    · have hbody := takeBody_waits (take := take) hnamed (.inl hmiss') (fun j hj => by cases hj; exact hexp')
      rw [hn, hctr] at hbody
      exact hc.gives_of_wait hi _ hbody

end Sys2Proof.Machine
end

section
/-! PROOFS. Token deliveries and writes of COUNT (R101, R102, R107, R111) -/

namespace Sys2Proof.Machine

/-! ## Token deliveries and writes of COUNT (R101, R102, R107, R111) -/

/-- The wait of a thread of a unit for tokens of one counter. -/
def tokWait (site u c : Nat) (take : Bool) (key : Nat) (w : Wait) : Bool :=
  key / 16 == uk site u && (match w with
    | .token i _ t _ _ => i == c && t == take
    | _ => false)

theorem serveTok_eq (g : Pkg) (site u c : Nat) : g.serveTok site u c =
    Pkg.serveWaits site u c ((Pkg.serveTakes site u c (g.waiters (tokWait site u c true)) g).waiters (tokWait site u c false))
      (Pkg.serveTakes site u c (g.waiters (tokWait site u c true)) g) := rfl

theorem tokWait_other {site u c key : Nat} {take : Bool} {w : Wait} (h : ∀ n b pd tm, w ≠ .token c n b pd tm) :
    tokWait site u c take key w = false := by
  unfold tokWait
  rw [Bool.and_eq_false_iff]
  right
  split
  · next i n b pd tm =>
    have hne : i ≠ c := by rintro rfl; exact h n b pd tm rfl
    simp [hne]
  · rfl

/-- With no thread waiting for tokens of a counter nobody is served. -/
theorem serveTok_idle {g : Pkg} (site u c : Nat) (h : ∀ e ∈ g.thr, ∀ n b pd tm, e.2.wait ≠ some (.token c n b pd tm)) :
    g.serveTok site u c = g := by
  have hnone (take : Bool) : g.waiters (tokWait site u c take) = [] :=
    waiters_nil fun e he w _ hw => tokWait_other fun n b pd tm e' => h e he n b pd tm (e' ▸ hw)
  simp only [serveTok_eq, hnone, Pkg.serveTakes, Pkg.serveWaits]

/-- A counter of which one thread waits to take. -/
theorem serveTok_take {g : Pkg} {site u c m pd key : Nat} {x : Thread} (hkey : key / 16 = uk site u) (hthr : g.thr = [(key, x)])
    (hst : x.st = .wait) (hwait : x.wait = some (.token c m true pd none)) (henough : m ≤ (g.tk site u c).count) :
    ((g.serveTok site u c).tk site u c).count = (g.tk site u c).count - m ∧ (g.serveTok site u c).thr = [(key, (x.setPred pd true).past)] := by
  have hself : mget ({} : Thread) g.thr key = x := by simp [hthr, mget]
  have hline : g.waiters (tokWait site u c true) = [key] := waiters_one hthr hst hwait (by simp [tokWait, hkey])
  obtain ⟨h, hh⟩ : ∃ h, Pkg.serveTakes site u c [key] g = h := ⟨_, rfl⟩
  have htakes : (h.tk site u c).count = (g.tk site u c).count - m ∧ h.thr = [(key, (x.setPred pd true).past)] := by
    rw [← hh, Pkg.serveTakes, hself, hwait]
    simp only [henough, if_true, Pkg.serveTakes]
    constructor
    · exact congrArg Tok.count (Pkg.setTk_tk_self ..)
    · exact (congrArg (fun l => mins l key ((mget ({} : Thread) l key).setPred pd true).adv) hthr).trans (by rw [mins_one, ← hthr, hself]; rfl)
  rw [serveTok_eq, hline, hh, waiters_nil]
  · exact htakes
  · rw [htakes.2]
    simp only [List.mem_singleton]
    rintro e rfl w hst
    exact nomatch hst

/-- A counter of which one thread waits to find. -/
theorem serveTok_find {g : Pkg} {site u c m pd key : Nat} {x : Thread} (hkey : key / 16 = uk site u) (hthr : g.thr = [(key, x)])
    (hst : x.st = .wait) (hwait : x.wait = some (.token c m false pd none)) (henough : m ≤ (g.tk site u c).count) :
    ((g.serveTok site u c).tk site u c).count = (g.tk site u c).count ∧ (g.serveTok site u c).thr = [(key, (x.setPred pd true).past)] := by
  have hself : mget ({} : Thread) g.thr key = x := by simp [hthr, mget]
  have htakes : g.waiters (tokWait site u c true) = [] := by
    refine waiters_nil fun e he w _ hw => ?_
    rw [hthr, List.mem_singleton] at he
    rw [he, hwait] at hw
    cases hw
    simp [tokWait]
  have hline : g.waiters (tokWait site u c false) = [key] := waiters_one hthr hst hwait (by simp [tokWait, hkey])
  rw [serveTok_eq, htakes, Pkg.serveTakes, hline, Pkg.serveWaits, hself, hwait]
  simp only [henough, if_true, Pkg.serveWaits]
  refine ⟨rfl, ?_⟩
  exact (congrArg (fun l => mins l key ((mget ({} : Thread) l key).setPred pd true).adv) hthr).trans (by rw [mins_one, ← hthr, hself]; rfl)

/-- The package of a delivery before anybody is served: the counter grown, the ledger and the log written. -/
theorem deliver_eq (g : Pkg) (site u c : Nat) {n : Nat} (hn : 0 < n) : ∃ h : Pkg, g.deliver site u c n = h.serveTok site u c ∧
    h.tk site u c = { count := min ((g.tk site u c).count + n) 65535, sat := (g.tk site u c).sat || decide (65535 < (g.tk site u c).count + n) } ∧
    h.thr = g.thr := by
  have hlost : (0 < (g.tk site u c).count + n - min ((g.tk site u c).count + n) 65535) ↔ 65535 < (g.tk site u c).count + n := by omega
  rw [Pkg.deliver, if_neg (by omega)]
  refine ⟨_, rfl, ?_, ?_⟩
  · split
    · rw [← decide_eq_decide.mpr hlost]
      exact Pkg.setTk_tk_self ..
    · rw [← decide_eq_decide.mpr hlost, Pkg.tk, Pkg.logAt_tok]
      exact Pkg.setTk_tk_self ..
  · split
    · rfl
    · exact Pkg.logAt_thr ..

/-- Delivered tokens reach a counter on which nobody waits. -/
theorem deliver_idle {g : Pkg} {site u c n : Nat} (hn : 0 < n) (hidle : ∀ e ∈ g.thr, ∀ m b pd tm, e.2.wait ≠ some (.token c m b pd tm)) :
    (g.deliver site u c n).tk site u c =
      { count := min ((g.tk site u c).count + n) 65535, sat := (g.tk site u c).sat || decide (65535 < (g.tk site u c).count + n) } ∧
    (g.deliver site u c n).thr = g.thr := by
  obtain ⟨h, hdel, htk, hthr⟩ := deliver_eq g site u c hn
  rw [hdel, serveTok_idle _ _ _ (hthr ▸ hidle)]
  exact ⟨htk, hthr⟩

/-- A late fault whose address is a free value reaches a thread that does not wait. -/
theorem faultAt_ready {p : Pack} {t : Tid} (pc : BitVec 16) {cause : Nat} (hst : (p.thread t).st ≠ .wait) (hcause : causeAccess cause = true) :
    p.faultAt t pc cause none = p.draw.2.on t.pkg (fun g => g.lateFault t pc cause (BitVec.ofNat 64 p.draw.1)) := by
  have hst' : ((p.g t.pkg).th t).st ≠ .wait := hst
  simp only [Pack.faultAt, hst', hcause, if_true, if_false]
  rfl

@[simp] theorem Pkg.except_tok (g : Pkg) (t : Tid) (pc : BitVec 16) (cause : Nat) (addr : Word) : (g.except t pc cause addr).tok = g.tok := by
  dsimp only [Pkg.except]
  split_ifs
  · rfl
  · rfl
  · exact Pkg.logAt_tok ..
  · rfl

@[simp] theorem Pkg.lateFault_tok (g : Pkg) (t : Tid) (pc : BitVec 16) (cause : Nat) (addr : Word) : (g.lateFault t pc cause addr).tok = g.tok := by
  rw [Pkg.lateFault]
  split
  · exact Pkg.logAt_tok ..
  · exact Pkg.except_tok ..

@[simp] theorem Pkg.lateFault_cause (g : Pkg) (t : Tid) (pc : BitVec 16) (cause : Nat) (addr : Word) :
    ((g.lateFault t pc cause addr).th t).cause = cause := by
  rw [Pkg.lateFault]
  split
  · rw [Pkg.threadFault_th, Pkg.onTh_eq, Pkg.setTh_th_self]
    rfl
  · exact Pkg.except_th_cause ..

section
variable {s : State} {i : Nat} {x : Flight}

/-- A delivery in its turn, within its package. -/
theorem tokenDelivery_turn {p : Pack} (hx : p.flight[i]? = some x)
    (hfirst : ∀ y ∈ p.flight.take i, ¬ (y.src = x.src ∧ y.dst = x.dst ∧ y.ctr = x.ctr))
    (hdone : (p.g x.src.pkg).writesDone x.src x.seq = true) (hnear : x.dst.pkg = x.src.pkg) :
    let q : Pack := { p with flight := p.flight.take i ++ p.flight.drop (i + 1) }
    p.tokenDelivery i =
      if (p.g x.dst.pkg).hole x.dst.site then q.faultAt x.src x.pc 1 none
      else if (p.g x.dst.pkg).unitOn x.dst.site x.dst.unit then q.on x.dst.pkg (fun g => g.deliver x.dst.site x.dst.unit x.ctr x.n)
      else q.faultAt x.src x.pc 2 none := by
  intro q
  have holder : (p.flight.take i).any (fun y => y.src == x.src && y.dst == x.dst && y.ctr == x.ctr) = false := by
    rw [List.any_eq_false]
    intro y hy
    simpa [and_assoc] using hfirst y hy
  simp only [Pack.tokenDelivery, hx, holder, hdone, hnear, bne_self_eq_false, Bool.false_and, Bool.not_true, Bool.or_false]
  by_cases hhole : (p.g x.src.pkg).hole x.dst.site = true
  · simp [hhole, q]
  · by_cases hon : (p.g x.src.pkg).unitOn x.dst.site x.dst.unit = true
    · simp [hhole, hon, q]
    · simp [hhole, hon, q]
end

/-- A word of COUNT: its value and the SAT it clears. -/
theorem countWord (v : Nat) (sat : Bool) (hv : v < 65536) :
    bit (mk32 (v % 65536 + b2n sat * 65536)) 16 = sat ∧ fld (mk32 (v % 65536 + b2n sat * 65536)) 15 0 = v := by
  have hword : (mk32 (v % 65536 + b2n sat * 65536)).toNat = v + b2n sat * 65536 := by
    have hbit : b2n sat ≤ 1 := by cases sat <;> decide
    rw [mk32, BitVec.toNat_ofNat]
    omega
  constructor
  · rw [bit, hword, Nat.testBit_eq_decide_div_mod_eq]
    cases sat <;> simp only [b2n] <;> simp <;> omega
  · rw [fld_low, hword]
    omega

theorem unitWrite_count {p : Pack} {k site u o : Nat} (v : W32) (ho : 0x200 ≤ o ∧ o < 0x300) : p.unitWrite k site u o v =
    p.on k (fun g => (if bit v 16 then g.setTk site u ((o - 0x200) / 4) { g.tk site u ((o - 0x200) / 4) with sat := false } else g).writeCount
      site u ((o - 0x200) / 4) (fld v 15 0)) := by
  rw [Pack.unitWrite, if_neg (by omega), if_neg (by omega), if_neg (by omega), if_neg (by omega), if_pos ho]

/-- A write of COUNT stands as written where nobody waits. -/
theorem writeCount_idle {g : Pkg} {site u c v : Nat} (hidle : ∀ e ∈ g.thr, ∀ m b pd tm, e.2.wait ≠ some (.token c m b pd tm)) :
    (g.writeCount site u c v).tk site u c = { g.tk site u c with count := v } ∧ (g.writeCount site u c v).thr = g.thr := by
  obtain ⟨h, hh, htk, hthr⟩ : ∃ h : Pkg, g.writeCount site u c v = h.serveTok site u c ∧ h.tk site u c = { g.tk site u c with count := v } ∧
      h.thr = g.thr := by
    rw [Pkg.writeCount]
    refine ⟨_, rfl, ?_, ?_⟩
    · split_ifs <;> exact Pkg.setTk_tk_self ..
    · split_ifs <;> rfl
  rw [hh, serveTok_idle _ _ _ (hthr ▸ hidle)]
  exact ⟨htk, hthr⟩

/-- Settles O20: a delivery and a write of COUNT, with nobody and with one thread waiting. -/
theorem tokenDeliveries : Obligations.TokenDeliveries := by
  refine ⟨⟨?_, ?_, ?_⟩, ?_⟩
  · intro s i x d g old hx hfirst hdone hnear hn hhole hon hidle
    obtain ⟨htk, hthr⟩ := deliver_idle (site := d.site) (u := d.unit) hn hidle
    refine ⟨_, gives_of_onPack rfl (tokenDelivery_turn hx hfirst hdone hnear), ?_⟩
    rw [if_neg (by simpa using hhole), if_pos hon]
    have hg : (Pack.on { s.pack with flight := s.pack.flight.take i ++ s.pack.flight.drop (i + 1) } d.pkg
        (fun g => g.deliver d.site d.unit x.ctr x.n)).g d.pkg = g.deliver d.site d.unit x.ctr x.n := Pack.on_g_self ..
    refine ⟨rfl, ?_, ?_, ?_, rfl⟩
    · rw [hg, htk]
    · rw [hg, htk]
    · rw [hg, hthr]
  · intro s i x d g hx hfirst hdone hnear hst hgone
    have hlost (cause : Nat) (hcause : causeAccess cause = true) (hturn : s.pack.tokenDelivery i =
          Pack.faultAt { s.pack with flight := s.pack.flight.take i ++ s.pack.flight.drop (i + 1) } x.src x.pc cause none) :
        Leaves (.tokenDelivery i) s (fun p => p.flight = s.pack.flight.take i ++ s.pack.flight.drop (i + 1) ∧
          (∀ c, (p.g d.pkg).tk d.site d.unit c = g.tk d.site d.unit c) ∧ (p.thread x.src).cause = cause ∧ p.mem = s.pack.mem) := by
      rw [faultAt_ready _ (by exact hst) hcause] at hturn
      refine ⟨_, gives_of_onPack rfl hturn, rfl, fun c => ?_, ?_, rfl⟩
      · rw [hnear, Pack.on_g_self, Pkg.tk, Pkg.lateFault_tok]
        exact congrArg (fun k => (s.pack.g k).tk d.site d.unit c) hnear.symm
      · rw [Pack.thread, Pack.on_g_self, Pkg.lateFault_cause]
    have hturn := tokenDelivery_turn hx hfirst hdone hnear
    by_cases hhole : g.hole d.site = true
    · rw [if_pos hhole]
      exact hlost 1 (by decide) (hturn.trans (if_pos hhole))
    · have hoff : g.unitOn d.site d.unit = false := hgone.resolve_left hhole
      rw [if_neg hhole]
      exact hlost 2 (by decide) (hturn.trans ((if_neg hhole).trans (if_neg (by simpa using hoff))))
  · intro s k m site u c v sat g old hu hc hv hw hidle
    obtain ⟨hsat, hval⟩ := countWord v sat hv
    obtain ⟨h, hh, htk, hthr⟩ : ∃ h : Pkg, (if bit (mk32 (v % 65536 + b2n sat * 65536)) 16 then
        g.setTk site u c { g.tk site u c with sat := false } else g) = h ∧ h.tk site u c = { old with sat := old.sat && !sat } ∧ h.thr = g.thr := by
      refine ⟨_, rfl, ?_, ?_⟩
      · rw [hsat]
        cases sat with
        | true => simp [old]
        | false => simp [old]
      · split <;> rfl
    obtain ⟨htk', hthr'⟩ := writeCount_idle (site := site) (u := u) (c := c) (v := v) (hthr ▸ hidle)
    refine ⟨s.pack.on k (fun _ => h.writeCount site u c v), gives_of_onPack
      (h := fun p => p.busWrite k m site (oUnit u (0x200 + 4 * c)) (mk32 (v % 65536 + b2n sat * 65536))) rfl ?_, ?_⟩
    · rw [show oUnit u (0x200 + 4 * c) = 0x10000 + 0x400 * u + 0x200 + 4 * c by simp only [oUnit]; omega, busWrite_unit hw,
        unitWrite_count _ (by omega), show (0x400 * u + 0x200 + 4 * c) / 0x400 = u by omega,
        show ((0x400 * u + 0x200 + 4 * c) % 0x400 - 0x200) / 4 = c by omega, hval]
      exact Pack.on_congr (by rw [← hh])
    · dsimp only
      rw [Pack.on_g_self, htk', hthr', htk, hthr]
      exact ⟨rfl, rfl, rfl⟩
  · intro g site u c n m pd key x take hn hkey hthr hst hwait hsum henough p
    obtain ⟨h, hdel, htk, hh⟩ := deliver_eq g site u c hn
    have hcount : (h.tk site u c).count = (g.tk site u c).count + n := by
      rw [htk]
      exact min_eq_left hsum
    cases take with
    | true =>
      obtain ⟨hcnt, hthr'⟩ := serveTok_take hkey (hh.trans hthr) hst hwait (by rw [hcount]; exact henough)
      exact ⟨by rw [show p = _ from hdel, hcnt, hcount]; rfl, by rw [show p = _ from hdel, hthr']⟩
    | false =>
      obtain ⟨hcnt, hthr'⟩ := serveTok_find hkey (hh.trans hthr) hst hwait (by rw [hcount]; exact henough)
      exact ⟨by rw [show p = _ from hdel, hcnt, hcount]; rfl, by rw [show p = _ from hdel, hthr']⟩

end Sys2Proof.Machine
end

section
/-! PROOFS. Queue instructions at issue (R104, R131, R132, R143, R153). -/

namespace Sys2Proof.Machine

/-! ## Queue instructions at issue (R104, R131, R132, R143, R153) -/

/-- What a change of one package keeps is the same on every package. -/
theorem Pack.on_keeps {α : Type} {P : Pkg → α} {f : Pkg → Pkg} (s : Pack) (k j : Nat) (h : P (f (s.g k)) = P (s.g k)) :
    P ((s.on k f).g j) = P (s.g j) := by
  by_cases hj : j = k
  · rw [hj, Pack.on_g_self, h]
  · rw [Pack.on_g_ne _ _ hj]

/-- Threads that are looked at again keep what they go on to. -/
theorem retry_adv (t : Tid) : ∀ (keys : List Nat) (g : Pkg), ((keys.foldl (fun g key => g.retry key) g).th t).adv = (g.th t).adv
  | [], _ => rfl
  | key :: keys, g => by
    rw [List.foldl_cons, retry_adv t keys (g.retry key), Pkg.th, Pkg.th, Pkg.retry, mupd, mget_mins]
    split
    · next h => rw [h]; rfl
    · rfl

/-- What stands in a unit's table once its credits of a queue are `n`. -/
def Pkg.credTab (g : Pkg) (site u pos q n : Nat) : List Cred :=
  let rest := (mget [] g.ctab (uk site u)).filter (fun e => !(e.pos == pos && e.qid == q))
  if n = 0 then rest else rest ++ [{ pos := pos, qid := q, n := n }]

/-- Credits are set in the table, and threads that wait for an entry of it are looked at again. -/
theorem Pkg.setCredits_eq (g : Pkg) (site u pos q n : Nat) : ∃ keys : List Nat, g.setCredits site u pos q n =
    keys.foldl (fun g key => g.retry key) { g with ctab := mins g.ctab (uk site u) (g.credTab site u pos q n) } := by
  unfold Pkg.setCredits
  dsimp only
  generalize (_ && _ : Bool) = b
  cases b
  · exact ⟨[], rfl⟩
  · exact ⟨_, rfl⟩

theorem Pkg.setCredits_adv (g : Pkg) (site u pos q n : Nat) (t : Tid) : ((g.setCredits site u pos q n).th t).adv = (g.th t).adv := by
  obtain ⟨keys, h⟩ := g.setCredits_eq site u pos q n
  rw [h, retry_adv]
  rfl

theorem Pkg.setCredits_qops (g : Pkg) (site u pos q n : Nat) : (g.setCredits site u pos q n).qops = g.qops := by
  obtain ⟨keys, h⟩ := g.setCredits_eq site u pos q n
  rw [h]
  exact foldl_keeps (P := Pkg.qops) (by intro _ _; rfl) ..

theorem Pkg.setCredits_credits (g : Pkg) (site u pos q n : Nat) : (g.setCredits site u pos q n).credits site u pos q = n := by
  have htab : (g.setCredits site u pos q n).ctab = mins g.ctab (uk site u) (g.credTab site u pos q n) := by
    obtain ⟨keys, h⟩ := g.setCredits_eq site u pos q n
    rw [h]
    exact foldl_keeps (P := Pkg.ctab) (by intro _ _; rfl) ..
  have hrest : ((mget [] g.ctab (uk site u)).filter (fun e => !(e.pos == pos && e.qid == q))).find? (fun e => e.pos == pos && e.qid == q) = none := by
    rw [List.find?_eq_none]
    intro e he
    have := (List.mem_filter.mp he).2
    rw [Bool.not_eq_true'] at this
    rw [this]
    exact Bool.false_ne_true
  rw [Pkg.credits, htab, mget_mins_self, Pkg.credTab]
  split_ifs with hn
  · rw [hrest, hn]
  · rw [List.find?_append, hrest]
    simp

section
variable {op : Op} {t : Tid} {f : Fields} {n pos q pk hs : Nat} {w : Option Wait} {x : Thread} {p : Pack} {body : Body}

/-- A queue instruction that sends a request of `n` entries to the engine at `hs` of package `pk`, and then goes on or waits as `w` says;
    with the engine's input queue full it waits for room. What it leaves of its unit's credits is `left`. -/
structure SendsRequest (op : Op) (t : Tid) (f : Fields) (n q pk hs pos left : Nat) (w : Option Wait) (body : Body) (x : Thread) (p : Pack) : Prop where
  full : ((p.g pk).engRoom hs = false) → ∃ r pd, body x p = (p, .wait (.room r pd none)) ∧ r.op = op ∧ r.t = t
  sends : ((p.g pk).engRoom hs = true) → ∃ r p', body x p = (Pack.sendReq p' pk hs q n r, w.elim .adv .wait) ∧ r.op = op ∧ r.t = t ∧ r.f = f ∧
    r.seq = (p.g t.pkg).seq ∧ p'.mem = p.mem ∧ (∀ j, (p'.g j).qops = (p.g j).qops) ∧ (p'.thread t).adv = (p.thread t).adv ∧
    (w.isSome = true → p' = p) ∧ (p'.g t.pkg).credits t.site t.unit pos q = left

theorem qBody_sends {vals : Thread → List Word} {after : Nat → Nat → Next} (hto : p.queueTo t (x.s f.b.toNat) = some (pos, q, pk, hs))
    (hafter : after pos q = w.elim .adv .wait) :
    SendsRequest op t f n q pk hs pos ((p.g t.pkg).credits t.site t.unit pos q) w (qBody op t f n vals after) x p := by
  constructor <;> intro hroom
  · exact ⟨mkOp (p.g t.pkg) op t f x (vals x), 0, by simp only [qBody, hto, hroom]; rfl, rfl, rfl⟩
  · exact ⟨mkOp (p.g t.pkg) op t f x (vals x), p, by simp only [qBody, hto, hroom, hafter]; rfl, rfl, rfl, rfl, rfl, rfl, fun _ => rfl, rfl, fun _ => rfl, rfl⟩

/-- What a QPUSH takes of its unit's credits, and counts as outflow where it crosses packages. -/
def Pkg.spent (g : Pkg) (t : Tid) (pos q pk c n : Nat) : Pkg :=
  let g := (g.setCredits t.site t.unit pos q (c - n)).book 1 t.site (-(n : Int))
  if pk = t.pkg then g else g.flow 1 g.step true n

theorem qpushBody_sends (hto : p.queueTo t (x.s f.b.toNat) = some (pos, q, pk, hs)) (halign : (x.s f.a.toNat).toNat % 64 = 0)
    (hheld : f.i 7 0 ≤ (p.g t.pkg).credits t.site t.unit pos q) :
    SendsRequest .qpush t f (f.i 7 0) q pk hs pos ((p.g t.pkg).credits t.site t.unit pos q - f.i 7 0) none (qpushBody t f) x p := by
  let r := mkOp (p.g t.pkg) .qpush t f x [x.s f.a.toNat, x.s f.b.toNat]
  constructor <;> intro hroom
  · refine ⟨r, 0, ?_, rfl, rfl⟩
    simp only [qpushBody, hto, halign, hroom, hheld]
    rfl
  · refine ⟨r, p.on t.pkg (fun g => g.spent t pos q pk ((p.g t.pkg).credits t.site t.unit pos q) (f.i 7 0)), ?_, rfl, rfl, rfl, rfl, rfl,
      fun j => Pack.on_keeps (P := Pkg.qops) _ _ _ ?_, ?_, nofun, ?_⟩
    · simp only [qpushBody, hto, halign, hroom, hheld, Pkg.spent]
      by_cases hpk : pk = t.pkg
      · simp only [hpk]; rfl
      · simp only [hpk, Pack.on_on]; rfl
    · unfold Pkg.spent
      split <;> exact Pkg.setCredits_qops ..
    · rw [Pack.thread, Pack.on_g_self]
      unfold Pkg.spent
      split <;> exact Pkg.setCredits_adv ..
    · rw [Pack.on_g_self]
      unfold Pkg.spent
      split <;> exact Pkg.setCredits_credits ..

theorem qpopBody_sends (hto : p.queueTo t (x.s f.b.toNat) = some (pos, q, pk, hs)) (htmr : f.ib 8 = false) (halign : (x.s f.a.toNat).toNat % 64 = 0) :
    SendsRequest .qpop t f (f.i 7 0) q pk hs pos ((p.g t.pkg).credits t.site t.unit pos q) (some (.qpop pos q (f.i 7 0) f.d.toNat none)) (qpopBody t f) x p := by
  let r := mkOp (p.g t.pkg) .qpop t f x [x.s f.a.toNat]
  constructor <;> intro hroom
  · refine ⟨r, f.d.toNat, ?_, rfl, rfl⟩
    simp only [qpopBody, hto, htmr, namedTimer_none, halign, hroom]
    rfl
  · refine ⟨r, p, ?_, rfl, rfl, rfl, rfl, rfl, fun _ => rfl, rfl, fun _ => rfl, rfl⟩
    simp only [qpopBody, hto, htmr, namedTimer_none, halign, hroom]
    rfl

theorem ctakeBody_sends (hto : p.queueTo t (x.s f.b.toNat) = some (pos, q, pk, hs)) (htmr : f.ib 8 = false)
    (htab : (p.g t.pkg).credRoom t.site t.unit pos q = true) :
    SendsRequest .ctake t f (f.i 7 0) q pk hs pos ((p.g t.pkg).credits t.site t.unit pos q) (some (.ctake pos q (f.i 7 0) f.d.toNat none)) (ctakeBody t f) x p := by
  let r := mkOp (p.g t.pkg) .ctake t f x []
  constructor <;> intro hroom
  · refine ⟨r, f.d.toNat, ?_, rfl, rfl⟩
    simp only [ctakeBody, hto, htmr, namedTimer_none, htab, hroom]
    rfl
  · refine ⟨r, p, ?_, rfl, rfl, rfl, rfl, rfl, fun _ => rfl, rfl, fun _ => rfl, rfl⟩
    simp only [ctakeBody, hto, htmr, namedTimer_none, htab, hroom]
    rfl
end

section
variable {op : Op} {t : Tid} {f : Fields} {x : Thread} {p : Pack}

theorem qBody_unmapped {n : Nat} {vals : Thread → List Word} {after : Nat → Nat → Next} (hto : p.queueTo t (x.s f.b.toNat) = none) :
    qBody op t f n vals after x p = (p, .trap 1 none) := by
  simp only [qBody, hto]

/-- A queue instruction whose operand names no mapped queue traps (R131, R143). -/
theorem queueInstr_unmapped (hop : op ∈ [Op.qmark, .qrewind, .qrelease, .cgive, .qcount, .qpush, .qpop, .ctake])
    (hto : p.queueTo t (x.s f.b.toNat) = none) :
    ∃ body, IssuedAs (op.toInstr t f) op t f body ∧ body x p = (p, .trap 1 none) := by
  simp only [List.mem_cons, List.not_mem_nil, or_false] at hop
  obtain rfl | rfl | rfl | rfl | rfl | rfl | rfl | rfl := hop
  case inr.inr.inr.inr.inr.inl => exact ⟨qpushBody t f, fun _ => rfl, by simp only [qpushBody, hto]⟩
  case inr.inr.inr.inr.inr.inr.inl => exact ⟨qpopBody t f, fun _ => rfl, by simp only [qpopBody, hto]⟩
  case inr.inr.inr.inr.inr.inr.inr => exact ⟨ctakeBody t f, fun _ => rfl, by simp only [ctakeBody, hto]⟩
  all_goals exact ⟨_, fun _ => rfl, qBody_unmapped hto⟩

@[simp] theorem Pkg.except_th_regs (g : Pkg) (t : Tid) (pc : BitVec 16) (cause : Nat) (addr : Word) :
    ((g.except t pc cause addr).th t).regs = (g.th t).regs := by
  obtain ⟨_, _, h⟩ | h := g.except_th_cases t pc cause addr <;> rw [h] <;> rfl
end

section
variable {c : Instr} {op : Op} {t : Tid} {f : Fields} {body : Body} {s : State} {n q pk hs pos left : Nat} {w : Option Wait}

/-- A trap of an access cause leaves scalars and memory as they were. -/
theorem IssuedAs.leaves_of_access (hc : IssuedAs c op t f body) (hi : Issues s.pack t op f) {cause : Nat} (hcause : causeAccess cause = true)
    (hbody : body (s.pack.thread t) (s.pack.atIssue t) = (s.pack.atIssue t, .trap cause none)) :
    Leaves c s (fun p => (p.thread t).cause = cause ∧ (p.thread t).regs = (s.pack.thread t).regs ∧ p.mem = s.pack.mem) := by
  rw [Pack.atIssue] at hbody
  have htrap := issue_runs (body := body) hi
  rw [hbody, leave_access hcause] at htrap
  refine ⟨_, hc.gives htrap, ?_, ?_, rfl⟩
  · rw [Pack.thread, Pack.on_g_self, Pkg.except_th_cause]
  · rw [Pack.thread, Pack.on_g_self, Pkg.except_th_regs]
    rfl

/-- With the engine's input queue full, a queue instruction leaves its thread waiting for room. -/
theorem SendsRequest.leaves_full (h : SendsRequest op t f n q pk hs pos left w body (s.pack.thread t) (s.pack.atIssue t))
    (hc : IssuedAs c op t f body) (hi : Issues s.pack t op f) (hroom : (s.pack.g pk).engRoom hs = false) :
    Leaves c s (fun p =>
      (∃ r pd, (p.thread t).wait = some (.room r pd none) ∧ r.op = op ∧ r.t = t) ∧ (p.thread t).st = .wait ∧
      (p.thread t).pc = (s.pack.thread t).pc ∧ (p.thread t).regs = (s.pack.thread t).regs ∧ (p.g pk).qops = (s.pack.g pk).qops ∧
      (p.g t.pkg).credits t.site t.unit pos q = (s.pack.g t.pkg).credits t.site t.unit pos q ∧ p.mem = s.pack.mem) := by
  have hroom' : ((s.pack.atIssue t).g pk).engRoom hs = false := by
    rw [Pack.atIssue, Pack.on_keeps (P := fun g => g.engRoom hs) _ _ _ rfl, hroom]
  obtain ⟨r, pd, hbody, hop, ht⟩ := h.full hroom'
  have hx : (s.pack.on t.pkg (fun g => (g.issued t).waitTh t (.room r pd none))).thread t =
      { s.pack.thread t with st := .wait, wait := some (.room r pd none), wseq := (s.pack.g t.pkg).seq + 1 } := by
    rw [Pack.thread, Pack.on_g_self]
    exact Pkg.setTh_th_self ..
  refine ⟨_, hc.gives_of_wait hi _ hbody, ?_⟩
  dsimp only
  rw [hx]
  refine ⟨⟨r, pd, rfl, hop, ht⟩, rfl, rfl, rfl, Pack.on_keeps (P := Pkg.qops) _ _ _ rfl, ?_, rfl⟩
  rw [Pack.on_g_self]
  rfl

/-- A thread goes on past its instruction, or waits at it. -/
def WentOn : Option Wait → Thread → Thread → Prop
  | none, x, y => y = x.past
  | some w, x, y => y.st = .wait ∧ y.wait = some w ∧ y.pc = x.pc ∧ y.regs = x.regs

/-- With room there, the request stands at the end of the engine's input queue, and the thread goes on or waits for the answer. -/
theorem SendsRequest.leaves_sent (h : SendsRequest op t f n q pk hs pos left w body (s.pack.thread t) (s.pack.atIssue t))
    (hc : IssuedAs c op t f body) (hi : Issues s.pack t op f) (hroom : (s.pack.g pk).engRoom hs = true) :
    Leaves c s (fun p =>
      (∃ r : QReq, (p.g pk).qops = (s.pack.g pk).qops ++ [r] ∧ r.site = hs ∧ r.qid = q ∧ r.n = n ∧
        r.r.op = op ∧ r.r.t = t ∧ r.r.f = f ∧ r.seq = (s.pack.g t.pkg).seq + 1) ∧
      WentOn w (s.pack.thread t) (p.thread t) ∧
      (p.g t.pkg).credits t.site t.unit pos q = left ∧ p.mem = s.pack.mem) := by
  have hroom' : ((s.pack.atIssue t).g pk).engRoom hs = true := by
    rw [Pack.atIssue, Pack.on_keeps (P := fun g => g.engRoom hs) _ _ _ rfl, hroom]
  obtain ⟨r, p', hbody, hop, ht, hf, hseq, hmem, hqops, hadv, hwait, hleft⟩ := h.sends hroom'
  let e : QReq := { seq := r.seq, r := r, site := hs, qid := q, n := n }
  let p2 := p'.sendReq pk hs q n r
  have hg : ∀ {α : Type} (P : Pkg → α) (_ : ∀ (g : Pkg) (l : List QReq), P { g with qops := l } = P g) (j : Nat), P (p2.g j) = P (p'.g j) :=
    fun P hP j => Pack.on_keeps (P := P) _ _ _ (hP _ _)
  have hq : (p2.g pk).qops = (s.pack.g pk).qops ++ [e] := by
    rw [show p2.g pk = _ from Pack.on_g_self .., hqops]
    exact congrArg (· ++ [e]) (Pack.on_keeps (P := Pkg.qops) _ _ _ rfl)
  have hseq' : e.seq = (s.pack.g t.pkg).seq + 1 := by
    rw [show e.seq = r.seq from rfl, hseq, Pack.atIssue_g]
    rfl
  have hthr (y : Pkg → Pkg) (hy : ∀ g, (y g).qops = g.qops) : ((p2.on t.pkg y).g pk).qops = (s.pack.g pk).qops ++ [e] := by
    rw [Pack.on_keeps (P := Pkg.qops) _ _ _ (hy _), hq]
  have hcred : (p2.g t.pkg).credits t.site t.unit pos q = left := by
    rw [hg (fun g => g.credits t.site t.unit pos q) (fun _ _ => rfl), hleft]
  have hth : (p2.g t.pkg).th t = p'.thread t := hg (fun g => g.th t) (fun _ _ => rfl) _
  have hx : (s.pack.atIssue t).thread t = s.pack.thread t := by
    rw [Pack.thread, Pack.atIssue_g]
    rfl
  cases w with
  | none =>
    refine hc.leaves_of_adv hi (q := p2) hbody ?_
    refine ⟨⟨e, hthr _ (fun _ => rfl), rfl, rfl, rfl, hop, ht, hf, hseq'⟩, ?_, ?_, hmem⟩
    · rw [WentOn, Pack.thread, Pack.on_g_self]
      refine (Pkg.setTh_th_self ..).trans ?_
      rw [hth, hadv, hx]
      rfl
    · rw [Pack.on_g_self]
      exact hcred
  | some w =>
    have hsame := hwait rfl
    have hgive : Gives c s (p2.on t.pkg (fun g => g.waitTh t w)) := by
      rw [Pack.atIssue] at hbody
      exact hc.gives (by rw [issue_runs hi, hbody]; rfl)
    have hx2 : (p2.on t.pkg (fun g => g.waitTh t w)).thread t =
        { s.pack.thread t with st := .wait, wait := some w, wseq := (p2.g t.pkg).seq } := by
      rw [Pack.thread, Pack.on_g_self]
      refine (Pkg.setTh_th_self ..).trans ?_
      rw [hth, hsame, hx]
    refine ⟨_, hgive, ⟨e, hthr _ (fun _ => rfl), rfl, rfl, rfl, hop, ht, hf, hseq'⟩, ?_, ?_, hmem⟩
    · rw [hx2]
      exact ⟨rfl, rfl, rfl, rfl⟩
    · rw [Pack.on_g_self]
      exact hcred
end

/-- Settles O23: each queue instruction sends one request; with room it goes or waits for its answer, without it waits for room. -/
theorem queueInstructionsIssue : Obligations.QueueInstructionsIssue := by
  intro s t f pos q pk hs op n w g x held a goes hi
  have hheld : ((s.pack.atIssue t).g t.pkg).credits t.site t.unit pos q = held := by
    rw [Pack.atIssue_g]
    rfl
  have hsends (hto : (s.pack.atIssue t).queueTo t (x.s f.b.toNat) = some (pos, q, pk, hs)) (hgoes : goes) :
      ∃ body, IssuedAs (op.toInstr t f) op t f body ∧
        SendsRequest op t f n q pk hs pos (if op = .qpush then held - n else held) w body x (s.pack.atIssue t) := by
    rw [← hheld]
    obtain ⟨rfl, rfl, rfl⟩ | ⟨rfl, rfl, rfl⟩ | ⟨rfl, rfl, rfl⟩ | ⟨rfl, rfl, rfl⟩ | ⟨rfl, rfl, rfl⟩ | ⟨rfl, rfl, rfl, halign, hle⟩ |
      ⟨rfl, rfl, htmr, halign, rfl⟩ | ⟨rfl, rfl, htmr, htab, rfl⟩ := hgoes
    case inr.inr.inr.inr.inr.inl => exact ⟨_, fun _ => rfl, qpushBody_sends hto halign (by rw [hheld]; exact hle)⟩
    case inr.inr.inr.inr.inr.inr.inl => exact ⟨_, fun _ => rfl, qpopBody_sends hto htmr halign⟩
    case inr.inr.inr.inr.inr.inr.inr => exact ⟨_, fun _ => rfl, ctakeBody_sends hto htmr (by rw [Pack.atIssue_g]; exact htab)⟩
    all_goals exact ⟨_, fun _ => rfl, qBody_sends hto rfl⟩
  refine ⟨fun hto hgoes hroom => ?_, fun hto hgoes hroom => ?_, fun hto hop => ?_⟩
  · obtain ⟨body, hc, h⟩ := hsends hto hgoes
    exact h.leaves_full hc hi hroom
  · obtain ⟨body, hc, h⟩ := hsends hto hgoes
    cases w <;> exact h.leaves_sent hc hi hroom
  · obtain ⟨body, hc, hbody⟩ := queueInstr_unmapped hop hto
    exact hc.leaves_of_access hi rfl hbody

end Sys2Proof.Machine
end

section
/-! PROOFS. CONTRIB at issue (R96, R131, R137, R228). -/

namespace Sys2Proof.Machine

/-! ## CONTRIB at issue (R96, R131, R137, R228) -/

theorem Pkg.setCredits_aops (g : Pkg) (site u pos q n : Nat) : (g.setCredits site u pos q n).aops = g.aops := by
  obtain ⟨keys, h⟩ := g.setCredits_eq site u pos q n
  rw [h]
  exact foldl_keeps (P := Pkg.aops) (by intro _ _; rfl) ..

theorem Pkg.setCredits_eops (g : Pkg) (site u pos q n : Nat) : (g.setCredits site u pos q n).eops = g.eops := by
  obtain ⟨keys, h⟩ := g.setCredits_eq site u pos q n
  rw [h]
  exact foldl_keeps (P := Pkg.eops) (by intro _ _; rfl) ..

/-- A mapped queue's operand is the QID of its queue. -/
theorem queueTo_qid {p : Pack} {t : Tid} {v : Word} {pos q pk hs : Nat} (h : p.queueTo t v = some (pos, q, pk, hs)) :
    qidOf v = some (pos, q) := by
  unfold Pack.queueTo at h
  split at h
  · cases h
  · next pos' q' hv =>
    split at h
    · cases h
    · obtain ⟨_, -, he⟩ := Option.map_eq_some_iff.mp h
      cases he
      exact hv

theorem spendCredit_some {p : Pack} {r : OpRec} {t : Tid} {pos q held : Nat} (ht : r.t = t) (hq : qidOf (r.v.getD 0 0) = some (pos, q))
    (hheld : (p.g t.pkg).credits t.site t.unit pos q = held) (hone : 1 ≤ held) :
    p.spendCredit r = some (p.on t.pkg (fun g => (g.setCredits t.site t.unit pos q (held - 1)).book 1 t.site (-1))) := by
  subst ht hheld
  unfold Pack.spendCredit
  simp only [hq]
  exact if_neg (by omega)

section
variable {t : Tid} {f : Fields} {x : Thread} {p : Pack} {pos q pk hs : Nat}

/-- The operation that a CONTRIB of a queue at `hs` hands over (R137). -/
def contribOp (p : Pack) (t : Tid) (f : Fields) (x : Thread) (hs : Nat) : OpRec :=
  let sta : Nat := if f.ib 0 then 0 else if (x.td f.a.toNat).stat = 0 then 0xFFFF0000 else leVal (p.rdN t (x.td f.a.toNat).stat 4)
  mkOp (p.g t.pkg) .contrib t f x
    ([x.s f.b.toNat, x.s f.c.toNat, BitVec.ofNat 64 ((x.s (f.i 6 2)).toNat % 2 ^ 16), BitVec.ofNat 64 sta] ++ [BitVec.ofNat 64 hs])

/-- The checks of a CONTRIB pass (R137, R228). -/
structure ContribReady (p : Pack) (t : Tid) (f : Fields) (x : Thread) (pos q pk hs : Nat) : Prop where
  mapped : p.queueTo t (x.s f.b.toNat) = some (pos, q, pk, hs)
  rsv : (x.td f.d.toNat).rsv = 0
  pipe : (p.g t.pkg).pipeOn = true
  mbid : (x.s (f.i 6 2)).toNat % 2 ^ 16 ≤ 511
  source : f.ib 0 = false → (x.td f.a.toNat).bad = none ∧ (x.td f.a.toNat).fmt = .b16 ∧ (x.td f.a.toNat).blk = false ∧
    viewChk p t (x.td f.a.toNat) 32 32 = none

theorem contribBody_ready (h : ContribReady p t f x pos q pk hs) :
    contribBody t f x p =
      if 1 ≤ (p.g t.pkg).credits t.site t.unit pos q then
        let h := p.hand (contribOp p t f x hs)
        if h.2 = .adv then ((h.1.spendCredit (contribOp p t f x hs)).getD h.1, .adv) else h
      else
        match (p.g pk).qFault hs q with
        | some c => (p, .trap c none)
        | none => (p, .wait (.push (contribOp p t f x hs))) := by
  obtain ⟨hto, hrsv, hpipe, hmbid, hsource⟩ := h
  have hchk := firstBad_none (l := [need ((x.td f.d.toNat).rsv == 0) 3, if f.ib 0 then none else tileChk (x.td f.a.toNat),
        need (f.ib 0 || ((x.td f.a.toNat).fmt == .b16 && !(x.td f.a.toNat).blk)) 6, need (p.g t.pkg).pipeOn 2,
        need (decide ((x.s (f.i 6 2)).toNat % 2 ^ 16 ≤ 511)) 6,
        if f.ib 0 then none else viewChk p t (x.td f.a.toNat) 32 32]) (by
    cases hacc : f.ib 0 with
    | true => simp [-Nat.reducePow, need, hrsv, hpipe, hmbid]
    | false =>
      obtain ⟨hbad, hfmt, hblk, hview⟩ := hsource hacc
      simp [-Nat.reducePow, need, tileChk, hrsv, hpipe, hmbid, hbad, hfmt, hblk, hview])
  simp only [contribBody, hto, hchk]
  rfl

theorem contribOp_toArray : (contribOp p t f x hs).toArray = f.ib 0 := by
  unfold OpRec.toArray OpRec.arrays OpRec.tiles contribOp mkOp
  dsimp only
  cases f.ib 0 <;> rfl
end

/-- Settles O32: with a credit the operation is handed over and the credit spent, or the thread waits for room; without one it waits for one. -/
theorem contribIssue : Obligations.ContribIssue := by
  intro s t f pos q pk hs g x at' acc src mbid sta held r r' hi hto hrsv hpipe hmbid hsource
  have hc : IssuedAs (.contrib t f) .contrib t f (contribBody t f) := fun _ => rfl
  have hg : at'.g t.pkg = g.issued t := Pack.atIssue_g ..
  have hready : ContribReady at' t f x pos q pk hs := ⟨hto, hrsv, by rw [hg]; exact hpipe, hmbid, hsource⟩
  have hr : contribOp at' t f x hs = r' := by
    rw [contribOp, hg]
    rfl
  have hheld : (at'.g t.pkg).credits t.site t.unit pos q = held := by rw [hg]; rfl
  have harr : r'.toArray = acc := by rw [← hr, contribOp_toArray]
  have hbody := contribBody_ready hready
  rw [hr, hheld] at hbody
  refine ⟨fun hone hroom hwait => ?_, fun hone hroom => ?_, fun hnone hstate hqeng => ?_⟩
  · rw [if_pos hone] at hbody
    have hhand := hand_turn (p := at') (r := r') (by rw [show at'.g r'.t.pkg = _ from hg]; exact ⟨hroom, hwait⟩)
    have hover : ((at'.on t.pkg (fun g => g.handOver r')).g t.pkg).credits t.site t.unit pos q = held := by
      rw [Pack.on_g_self, Pkg.handOver]
      split <;> exact hheld
    rw [hhand] at hbody
    dsimp only at hbody
    rw [if_pos rfl, spendCredit_some (show r'.t = t from rfl) (queueTo_qid hto) hover hone] at hbody
    dsimp only [Option.getD_some] at hbody
    refine hc.leaves_of_adv hi hbody ?_
    have hops : (if acc then ((g.issued t).handOver r').aops = g.aops ++ [r'] else ((g.issued t).handOver r').eops = g.eops ++ [r']) := by
      rw [Pkg.handOver, harr]
      cases acc <;> rfl
    simp only [Pack.thread, Pack.on_g_self]
    refine ⟨?_, ?_, ?_, rfl⟩
    · change if acc then (Pkg.setCredits _ _ _ _ _ _).aops = _ else (Pkg.setCredits _ _ _ _ _ _).eops = _
      rw [Pkg.setCredits_aops, Pkg.setCredits_eops, hg]
      exact hops
    · exact Pkg.setCredits_credits ..
    · refine (Pkg.setTh_th_self ..).trans ((Pkg.setCredits_adv ..).trans ?_)
      rw [hg, Pkg.handOver]
      split <;> rfl
  · rw [if_pos hone, hand_wait (by rw [show at'.g r'.t.pkg = _ from hg]; exact fun h => Bool.false_ne_true (hroom.symm.trans h.1))] at hbody
    refine ⟨_, hc.gives_of_wait hi _ hbody, ?_⟩
    simp only [Pack.thread, Pack.on_g_self]
    have hth : ((g.issued t).waitTh t (.room r' 0 none)).th t = _ := Pkg.setTh_th_self ..
    refine ⟨congrArg Thread.st hth, congrArg Thread.wait hth, (congrArg Thread.pc hth).trans rfl, rfl, rfl, rfl, rfl⟩
  · have hfault : (at'.g pk).qFault hs q = none := by
      simp only [Pkg.qFault, hqeng, hstate]
      rfl
    rw [if_neg (by omega), hfault] at hbody
    refine ⟨_, hc.gives_of_wait hi _ hbody, ?_⟩
    simp only [Pack.thread, Pack.on_g_self]
    have hth : ((g.issued t).waitTh t (.push r')).th t = _ := Pkg.setTh_th_self ..
    refine ⟨congrArg Thread.st hth, congrArg Thread.wait hth, (congrArg Thread.pc hth).trans rfl, rfl, rfl, rfl⟩

end Sys2Proof.Machine
end

section
/-! PROOFS. Arrays and accumulation (R59 to R68, R123, R124, R448). -/

namespace Sys2Proof.Machine

/-! ## Arrays and accumulation (R59 to R68, R123, R124, R448) -/

/-- What a thread's wait does not touch is the same once the thread has been looked at. -/
theorem look_keeps {α : Type} {P : Pkg → α} (hP : ∀ (g : Pkg) t x, P (g.setTh t x) = P g) (p : Pack) (t : Tid) (k : Nat) :
    P ((p.look t).g k) = P (p.g k) := by
  have hwake (g : Pkg) : P (g.wake t.pkg t) = P g := by
    unfold Pkg.wake
    dsimp only
    split_ifs
    · rfl
    · split
      · exact hP ..
      · split_ifs
        · exact hP ..
        · rfl
      · rfl
  unfold Pack.look
  dsimp only
  split
  · split_ifs
    · exact Pack.on_keeps _ _ _ (hP ..)
    · rfl
  · exact Pack.on_keeps _ _ _ (hwake _)

theorem look_mem (p : Pack) (t : Tid) : (p.look t).mem = p.mem := by
  unfold Pack.look
  dsimp only
  split
  · split_ifs <;> rfl
  · rfl

/-- An operation leaves its array: with no access to a status word waiting there, packages keep all but how far their accesses have come. -/
theorem tilesDone_keeps {α : Type} {P : Pkg → α} (hreach : ∀ (g : Pkg) l st, P { g with loads := l, stores := st } = P g)
    (hq : ∀ (g : Pkg) q, P { g with accq := q } = P g) {p : Pack} {r : OpRec} (hnone : (p.g r.t.pkg).accq = []) (k : Nat) :
    P ((p.tilesDone r).g k) = P (p.g k) := by
  unfold Pack.tilesDone
  dsimp only
  rw [show (Pack.g { p with pkgs := mmap _ p.pkgs } r.t.pkg).accq = [] from
    (mget_mmap_of_eq (P := Pkg.accq) (by intro _ _; rfl) r.t.pkg p.pkgs).trans hnone]
  refine (Pack.on_keeps _ _ _ (hq ..)).trans ?_
  unfold Pack.g
  dsimp only
  refine mget_mmap_of_eq (P := P) ?_ k p.pkgs
  intro _ g
  exact hreach g _ _

theorem tilesDone_mem {p : Pack} {r : OpRec} (hnone : (p.g r.t.pkg).accq = []) : (p.tilesDone r).mem = p.mem := by
  unfold Pack.tilesDone
  dsimp only
  rw [show (Pack.g { p with pkgs := mmap _ p.pkgs } r.t.pkg).accq = [] from
    (mget_mmap_of_eq (P := Pkg.accq) (by intro _ _; rfl) r.t.pkg p.pkgs).trans hnone]
  rfl

/-- An operation whose read comes out without error runs. -/
theorem runEcc_ok (p : Pack) (r : OpRec) (a : Nat) : p.runEcc r .ok a = p.runOp r := by
  unfold Pack.runEcc
  split
  · next l _ =>
    dsimp only [Pack.eccAt]
    rw [ite_self]
    rfl
  · rfl

/-- Whether a stream slot draws does not depend on the tag of the draw. -/
theorem drawOf_isSome (g : Pkg) (slot a b : Nat) : (g.drawOf slot a).isSome = (g.drawOf slot b).isSome := by
  unfold Pkg.drawOf
  dsimp only
  split <;> rfl

/-- An MMA whose checks pass and whose stream slot is valid runs on its tile. -/
theorem runOp_mma {p : Pack} {r : OpRec} (hop : r.op = .mma) (hbad : p.opBad r = none)
    (hdraw : r.f.ib 10 = true → ((p.g r.t.pkg).drawOf (r.f.i 26 17) ((r.v.getD 0 0).toNat % 2 ^ 16)).isSome = true) : p.runOp r = p.runMma r := by
  have hslot : r.drawSlot.any (fun n => ((p.g r.t.pkg).drawOf n 0).isNone) = false := by
    simp only [OpRec.drawSlot, hop]
    cases h10 : r.f.ib 10 with
    | false => rfl
    | true =>
      have := (drawOf_isSome _ _ 0 _).trans (hdraw h10)
      simp only [if_true, Option.any_some, ← Option.not_isSome, this]
      rfl
  unfold Pack.runOp
  rw [hslot, hbad, show r.tabAddr = none by simp only [OpRec.tabAddr, hop]]
  simp only [hop]
  rfl

theorem ak_inj {site u v a b n m : Nat} (hu : u < 64) (hv : v < 64) (ha : a < 2) (hb : b < 2) (hn : n < 8) (hm : m < 8)
    (h : ak site v b m = ak site u a n) : (v, b, m) = (u, a, n) := by
  simp only [ak, uk] at h
  refine Prod.ext (by dsimp only; omega) (Prod.ext (by dsimp only; omega) (by dsimp only; omega))

theorem mma_tiles {r : OpRec} (hop : r.op = .mma) : r.tiles = [(r.f.d.toNat / 8, r.f.d.toNat % 8)] := by
  simp only [OpRec.tiles, hop]

theorem mma_arrays {r : OpRec} (hop : r.op = .mma) : r.arrays = [r.f.d.toNat / 8] := by
  rw [OpRec.arrays, mma_tiles hop]
  rfl

/-- The one operation at an array, free to run, runs there and leaves. -/
theorem arrayComplete_alone {p : Pack} {k arr : Nat} {r : OpRec} {a : Nat} (hops : (p.g k).aops = [r]) (hop : r.op = .mma)
    (harr : arr = r.f.d.toNat / 8) (hheld : (p.g k).held r = false) (hfree : p.opFree r = true) (hfirst : p.accFirst r = false) :
    p.arrayComplete k r.t.site r.t.unit arr .ok a =
      ((((p.runOp r).on k (fun g => { g with aops := g.aops.erase r })).tilesDone r).look r.t) := by
  have hmine : [r].filter (fun x => x.t.site == r.t.site && x.t.unit == r.t.unit) = [r] := by simp
  have hfind : [r].find? (fun x => x.arrays.contains arr) = some r := by simp [mma_arrays hop, harr]
  have hfronts : r.arrays.any (fun b => ([r].find? (fun x => x.arrays.contains b)) != some r) = false := by
    simp [mma_arrays hop]
  simp only [Pack.arrayComplete, hops, hmine, hfind, hfronts, hheld, hfree, hfirst, runEcc_ok]
  simp only [Pack.opEnd, hop]
  rfl

theorem blocks_succ (onelo : Bool) (as bs : List (List Opnd)) : ∀ (n b : Nat) (x : Acc), Acc.blocks onelo as bs (n + 1) b x =
    let y := Acc.blocks onelo as bs n b x
    let r := tileBlock onelo as bs (b + n) y.els
    { y with els := r.1, sta := staAcc y.sta y.kb r.2, kb := y.kb + 1 }
  | 0, _, _ => rfl
  | n + 1, b, x => by
    rw [Acc.blocks]
    dsimp only
    rw [blocks_succ onelo as bs n (b + 1)]
    dsimp only
    rw [show b + 1 + n = b + (n + 1) by omega]
    rfl

/-- Settles O25: the operation runs on its tile and leaves; its k-blocks are taken one after the other. -/
theorem arraysAndAccumulation : Obligations.ArraysAndAccumulation := by
  constructor
  · intro s k u arr r a g t f n e va vb as bs dr hup hops hop hn hpkg hunit harr hu hheld hfree hdraw hbad hfirst haccq
    subst hpkg hunit
    constructor
    · have hrun := runOp_mma (p := s.pack) hop hbad (fun h => by
        have := hdraw h
        simp only [dr, f, h, if_true] at this
        exact this)
      have hmma : s.pack.runMma r = s.pack.on t.pkg (fun g => g.setTile t.site t.unit (n / 8) (n % 8)
          ((g.tile t.site t.unit (n / 8) (n % 8)).mma (f.ib 7) (f.ib 10) (f.ib 11) r.ta.slot r.tb.slot dr as bs (f.i 6 0 + 1))) := by
        unfold Pack.runMma
        rw [hop]
        rfl
      refine ⟨_, gives_of_atHub rfl hup (arrayComplete_alone (a := a) hops hop harr hheld hfree hfirst), ?_⟩
      rw [hrun, hmma, Pack.on_on]
      have hnone : ((s.pack.on t.pkg (fun g => { (g.setTile t.site t.unit (n / 8) (n % 8)
          ((g.tile t.site t.unit (n / 8) (n % 8)).mma (f.ib 7) (f.ib 10) (f.ib 11) r.ta.slot r.tb.slot dr as bs (f.i 6 0 + 1))) with
          aops := g.aops.erase r })).g r.t.pkg).accq = [] := by
        rw [Pack.on_g_self]
        exact haccq
      have haops := (look_keeps (P := Pkg.aops) (by intro _ _ _; rfl) _ r.t t.pkg).trans
        (tilesDone_keeps (P := Pkg.aops) (by intro _ _ _; rfl) (by intro _ _; rfl) hnone t.pkg)
      have hacc := (look_keeps (P := Pkg.acc) (by intro _ _ _; rfl) _ r.t t.pkg).trans
        (tilesDone_keeps (P := Pkg.acc) (by intro _ _ _; rfl) (by intro _ _; rfl) hnone t.pkg)
      rw [Pack.on_g_self] at haops hacc
      refine ⟨?_, ?_, fun v b m hv hb hm hne => ?_, ?_⟩
      · refine haops.trans ?_
        rw [hops]
        simp
      · rw [Pkg.tile]
        refine (congrArg (fun x => mget _ x _) hacc).trans ?_
        exact mget_mins_self ..
      · rw [Pkg.tile]
        refine (congrArg (fun x => mget _ x _) hacc).trans ?_
        exact mget_mins_ne _ _ _ (fun h => hne (ak_inj hu hv (by omega) hb (by omega) hm h))
      · exact (look_mem ..).trans (tilesDone_mem hnone)
    · intro m l hplace
      refine gives_of_atHub rfl hup ?_
      have hoff : 0x10000 + 0x400 * t.unit + 0x300 + 0x20 * (arr % 2) + 4 * (n % 8 % 8) =
          0x10000 + 0x400 * t.unit + 0x300 + 0x20 * (n / 8) + 4 * (n % 8) := by omega
      have hahead : (s.pack.g t.pkg).tileAhead t.site t.unit (arr % 2) (n % 8 % 8) = 1 := by
        rw [Pkg.tileAhead, hops, show arr % 2 = n / 8 by omega]
        simp [mma_tiles hop, t, n, f]
      simp only [Pack.accstAccess]
      rw [hoff, hplace]
      simp only [Pack.accAsk, hahead]
      rw [if_neg (by omega), show arr % 2 = n / 8 by omega, show n % 8 % 8 = n % 8 by omega]
  · intro x zero onelo sa sb n as bs y r z
    have hsta : z.sta = staZero false onelo := rfl
    refine ⟨?_, rfl, rfl, rfl, rfl, rfl, ?_, ?_, ?_, ?_, fun h => by subst h; rfl⟩
    · refine (blocks_succ onelo as bs n 0 _).trans ?_
      rw [Nat.zero_add]
      rfl
    all_goals
      rw [hsta]
      cases onelo <;> decide

end Sys2Proof.Machine
end

section
/-! PROOFS. Indices and credits of a queue, doorbells (R149, R150, R152, R154). -/

namespace Sys2Proof.Machine

/-! ## Indices and credits of a queue (R149, R150, R152, R154) -/

theorem fld_low_half (a b : Nat) : fld (mk32 (a % 65536 + 65536 * (b % 65536))) 15 0 = a % 65536 := by
  rw [fld_low, mk32, BitVec.toNat_ofNat]
  omega

theorem fld_high_half (a b : Nat) : fld (mk32 (a % 65536 + 65536 * (b % 65536))) 31 16 = b % 65536 := by
  rw [fld_31_16, mk32, BitVec.toNat_ofNat]
  omega

theorem fld_15_lt (w : W32) : fld w 15 0 < 65536 := by
  rw [fld_low]
  exact Nat.mod_lt _ (by decide)

theorem fld_31_lt (w : W32) : fld w 31 16 < 65536 := by
  have := w.isLt
  rw [fld_31_16]
  omega

/-- The indices fit their registers. -/
def Ix.fits (x : Ix) : Prop := x.p < 65536 ∧ x.c < 65536 ∧ x.m < 65536 ∧ x.l < 65536

theorem Pkg.ix_fits (g : Pkg) (site q : Nat) : (g.ix site q).fits := ⟨fld_15_lt _, fld_31_lt _, fld_15_lt _, fld_31_lt _⟩

theorem rQ_ne {site q o o' : Nat} (h : o ≠ o') : rQ site q o ≠ rQ site q o' := by
  simp only [rQ, rk]
  omega

/-- New indices of a queue, both copies, with the entries they hold booked (R150, R316). -/
def Pkg.indexed (g : Pkg) (site q : Nat) (x : Ix) : Pkg :=
  let old := g.ix site q
  let g := g.setIx site q x
  let g := { g with qcopy := mupd (0, 0) g.qcopy (rQ site q 0) (fun c => (c.1 ^^^ mk32 0, c.2 ^^^ mk32 (0 >>> 32))) }
  g.book 2 (site * 4096 + q) ((ringDist x.p x.l : Nat) - (ringDist old.p old.l : Nat))

section
variable (g : Pkg) (site q : Nat) (x : Ix)

theorem Pkg.indexed_rd {b : Nat} (hpc : b ≠ rQ site q 0xC) (hml : b ≠ rQ site q 0x10) : (g.indexed site q x).rd b = g.rd b :=
  (Pkg.wr_rd_ne _ _ hml).trans (Pkg.wr_rd_ne _ _ hpc)

theorem Pkg.indexed_pc : (g.indexed site q x).rd (rQ site q 0xC) = x.pc :=
  (Pkg.wr_rd_ne _ _ (rQ_ne (by decide))).trans (Pkg.wr_rd_self ..)

theorem Pkg.indexed_ml : (g.indexed site q x).rd (rQ site q 0x10) = x.ml := Pkg.wr_rd_self ..

theorem Pkg.indexed_ix (h : x.fits) : (g.indexed site q x).ix site q = x := by
  obtain ⟨hp, hc, hm, hl⟩ := h
  simp only [Pkg.ix, Pkg.indexed_pc, Pkg.indexed_ml, Ix.pc, Ix.ml, fld_low_half, fld_high_half]
  rw [Nat.mod_eq_of_lt hp, Nat.mod_eq_of_lt hc, Nat.mod_eq_of_lt hm, Nat.mod_eq_of_lt hl]

theorem Pkg.indexed_copiesOk : (g.indexed site q x).copiesOk site q = true := by
  rw [Pkg.copiesOk, Pkg.indexed_pc, Pkg.indexed_ml]
  have hcopy : mget (0, 0) (g.indexed site q x).qcopy (rQ site q 0) = (x.pc, x.ml) := by
    change mget (0, 0) (mupd (0, 0) (mins g.qcopy (rQ site q 0) (x.pc, x.ml)) (rQ site q 0) (fun c => (c.1 ^^^ mk32 0, c.2 ^^^ mk32 (0 >>> 32)))) (rQ site q 0) = _
    rw [mupd, mget_mins_self, mget_mins_self]
    exact congrArg₂ Prod.mk (BitVec.xor_zero) (BitVec.xor_zero)
  rw [hcopy]
  simp

theorem Pkg.indexed_rf {o hi lo : Nat} (hpc : o ≠ 0xC) (hml : o ≠ 0x10) :
    (g.indexed site q x).rf (rQ site q o) hi lo = g.rf (rQ site q o) hi lo := by
  rw [Pkg.rf, Pkg.rf, Pkg.indexed_rd _ _ _ _ (rQ_ne hpc) (rQ_ne hml)]

theorem Pkg.indexed_avail : (g.indexed site q x).avail site q = g.avail site q := Pkg.indexed_rf _ _ _ _ (by decide) (by decide)
theorem Pkg.indexed_outc : (g.indexed site q x).outc site q = g.outc site q := Pkg.indexed_rf _ _ _ _ (by decide) (by decide)
theorem Pkg.indexed_qState : (g.indexed site q x).qState site q = g.qState site q := Pkg.indexed_rf _ _ _ _ (by decide) (by decide)
theorem Pkg.indexed_qSize : (g.indexed site q x).qSize site q = g.qSize site q :=
  congrArg (2 ^ ·) (Pkg.indexed_rf _ _ _ _ (by decide) (by decide))
end

/-- New indices in the order of the ring are stored, and nothing else happens. -/
theorem moveIx_ok {p : Pack} {k site q : Nat} {x : Ix} (hok : x.ok ((p.g k).qSize site q) = true) :
    p.moveIx k site q 0 x = p.on k (fun g => g.indexed site q x) := by
  have hon : p.on k (fun g =>
      let g := g.setIx site q x
      let g := { g with qcopy := mupd (0, 0) g.qcopy (rQ site q 0) (fun c => (c.1 ^^^ mk32 0, c.2 ^^^ mk32 (0 >>> 32))) }
      g.book 2 (site * 4096 + q) ((ringDist x.p x.l : Nat) - (ringDist ((p.g k).ix site q).p ((p.g k).ix site q).l : Nat))) =
      p.on k (fun g => g.indexed site q x) := Pack.on_congr rfl
  unfold Pack.moveIx
  dsimp only at hon ⊢
  rw [hon, Pack.on_g_self, Pkg.indexed_copiesOk, Pkg.indexed_qSize, hok]
  rfl

section
variable (g : Pkg) (site q a o : Nat)

theorem Pkg.setCred_avail (ha : a < 65536) : (g.setCred site q a o).avail site q = a := by
  rw [Pkg.avail, Pkg.setCred, Pkg.rf, Pkg.wr_rd_self, fld_low, mk32, BitVec.toNat_ofNat]
  omega

theorem Pkg.setCred_outc (ha : a < 65536) (ho : o < 65536) : (g.setCred site q a o).outc site q = o := by
  rw [Pkg.outc, Pkg.setCred, Pkg.rf, Pkg.wr_rd_self, fld_31_16, mk32, BitVec.toNat_ofNat]
  omega

theorem Pkg.setCred_rf {o' hi lo : Nat} (h : o' ≠ 0x18) : (g.setCred site q a o).rf (rQ site q o') hi lo = g.rf (rQ site q o') hi lo := by
  rw [Pkg.rf, Pkg.setCred, Pkg.wr_rd_ne _ _ (rQ_ne h), ← Pkg.rf]

theorem Pkg.setCred_qState : (g.setCred site q a o).qState site q = g.qState site q := Pkg.setCred_rf _ _ _ _ _ (by decide)
theorem Pkg.setCred_qSize : (g.setCred site q a o).qSize site q = g.qSize site q := congrArg (2 ^ ·) (Pkg.setCred_rf _ _ _ _ _ (by decide))
theorem Pkg.setCred_ix : (g.setCred site q a o).ix site q = g.ix site q := by
  unfold Pkg.ix
  rw [Pkg.setCred, Pkg.wr_rd_ne _ _ (rQ_ne (by decide)), Pkg.wr_rd_ne _ _ (rQ_ne (by decide))]
end

@[simp] theorem Pkg.pushVec_rd (g : Pkg) (q b : Nat) : (g.pushVec q).rd b = g.rd b := by
  unfold Pkg.pushVec
  dsimp only
  split <;> rfl

/-- With no record for the delta stream and no RESUME outstanding, a release lets nothing go on. -/
theorem dqWake_idle {p : Pack} {k : Nat} (hdq : (p.g k).pr.dq = []) (hresume : ∀ j, (p.g j).ld.resume = false) : p.dqWake k = p := by
  have hrun : p.dqRun k = p := by rw [Pack.dqRun, hdq]; rfl
  unfold Pack.dqWake
  dsimp only
  rw [hrun]
  split
  · next l _ =>
    unfold Pack.tryResume
    simp [hresume l]
  · rfl

/-- What a doorbell with a sound N leaves at its queue (R149, R154). -/
theorem door_moves {p : Pack} {k site q op n : Nat} {y : Ix} {left : Nat} (hn : 0 < n) (hmax : n ≤ 32768) (hst : (p.g k).qState site q = 1)
    (hy : y = let i := (p.g k).ix site q
      if op = 1 then { i with p := (i.p + n) % 65536 }
      else if op = 2 then { i with c := (i.c + n) % 65536 }
      else { i with c := (i.c + n) % 65536, m := if ringDist i.m i.l < n then (i.l + n) % 65536 else i.m, l := (i.l + n) % 65536 })
    (hleft : left = if op = 1 then (p.g k).avail site q - n else if op = 2 then (p.g k).avail site q else (p.g k).avail site q + n)
    (hyok : y.ok ((p.g k).qSize site q) = true)
    (hop : (op = 1 ∧ (p.g k).qProd site q = 1 ∧ n ≤ (p.g k).avail site q) ∨
      ((op = 2 ∨ op = 3) ∧ (p.g k).qChost site q = true ∧ n ≤ ringDist ((p.g k).ix site q).p ((p.g k).ix site q).c)) :
    p.door k site q op n 0 =
      if op = 1 then p.on k (fun g => ((g.setCred site q left (g.outc site q)).indexed site q y).pushVec q)
      else if op = 2 then p.on k (fun g => g.indexed site q y)
      else p.on k (fun g => (g.setCred site q left (g.outc site q)).indexed site q y) := by
  have hbad : ¬ (op = 0 ∨ n = 0 ∨ 32768 < n) := by omega
  have hcred (a : Nat) : y.ok (((p.on k (fun g => g.setCred site q a (g.outc site q))).g k).qSize site q) = true := by
    rw [Pack.on_g_self, Pkg.setCred_qSize, hyok]
  unfold Pack.door
  dsimp only at hy ⊢
  rw [if_neg hbad, if_neg (not_not_intro hst)]
  obtain ⟨rfl, hprod, havail⟩ | ⟨hop, hchost, hready⟩ := hop
  · simp only [if_true] at hy hleft
    subst hy hleft
    rw [if_pos rfl, if_pos rfl, if_neg (not_not_intro hprod), if_neg (by omega)]
    have hon : p.on k (fun g => g.setCred site q (g.avail site q - n) (g.outc site q)) =
        p.on k (fun g => g.setCred site q ((p.g k).avail site q - n) (g.outc site q)) := Pack.on_congr rfl
    rw [hon, moveIx_ok (hcred _), Pack.on_on, Pack.on_on]
  · have hmin : min n ((p.g k).ix site q).ready = n := by simp only [Ix.ready]; omega
    simp only [hchost, Bool.not_true, Bool.false_eq_true, if_false, hmin, lt_self_iff_false]
    obtain rfl | rfl := hop
    · subst hy
      exact moveIx_ok hyok
    · simp only [show ¬ (3 = 1) by decide, show ¬ (3 = 2) by decide, if_false] at hy hleft ⊢
      subst hy hleft
      have hon : p.on k (fun g => g.setCred site q (g.avail site q + n) (g.outc site q)) =
          p.on k (fun g => g.setCred site q ((p.g k).avail site q + n) (g.outc site q)) := Pack.on_congr rfl
      rw [hon]
      refine (moveIx_ok (hcred _)).trans ?_
      rw [Pack.on_on]

/-- Settles O34: a doorbell through the register and one through HIF.DOOR come to the same doorbell at the queue's home. -/
theorem doorbells : Obligations.Doorbells := by
  intro s k m site q op n c g i l y left hq hsite hn hmax hst hyok hleft hop hidle hc
  have hop3 : op = 1 ∨ op = 2 ∨ op = 3 := by omega
  have hleft' : left = if op = 1 then g.avail site q - n else if op = 2 then g.avail site q else g.avail site q + n := rfl
  have hfits : y.fits := by
    obtain ⟨hp, hcc, hm, hl⟩ := g.ix_fits site q
    obtain rfl | rfl | rfl := hop3
    · exact ⟨Nat.mod_lt _ (by decide), hcc, hm, hl⟩
    · exact ⟨hp, Nat.mod_lt _ (by decide), hm, hl⟩
    · refine ⟨hp, Nat.mod_lt _ (by decide), ?_, Nat.mod_lt _ (by decide)⟩
      change (if _ then _ else _) < _
      split
      · exact Nat.mod_lt _ (by decide)
      · exact hm
  have hdoor := door_moves (p := s.pack) (k := k) (y := y) (left := left) hn hmax hst rfl rfl hyok hop
  have hrun : ∃ h : Pkg → Pkg, s.pack.doorRun k site q op n 0 = s.pack.on k h ∧ (h g).ix site q = y ∧ (h g).avail site q = left ∧
      (h g).outc site q = g.outc site q ∧ (h g).qState site q = 1 := by
    have hout := fld_31_lt (g.rd (rQ site q 0x18))
    obtain rfl | rfl | rfl := hop3
    · refine ⟨fun g => ((g.setCred site q left (g.outc site q)).indexed site q y).pushVec q, hdoor, ?_, ?_, ?_, ?_⟩
      · simp only [Pkg.ix, Pkg.pushVec_rd]
        exact Pkg.indexed_ix _ _ _ _ hfits
      · simp only [Pkg.avail, Pkg.rf, Pkg.pushVec_rd]
        exact (Pkg.indexed_avail ..).trans (Pkg.setCred_avail _ _ _ _ _ hleft)
      · simp only [Pkg.outc, Pkg.rf, Pkg.pushVec_rd]
        exact (Pkg.indexed_outc ..).trans (Pkg.setCred_outc _ _ _ _ _ hleft hout)
      · simp only [Pkg.qState, Pkg.rf, Pkg.pushVec_rd]
        exact ((Pkg.indexed_qState ..).trans (Pkg.setCred_qState ..)).trans hst
    · exact ⟨fun g => g.indexed site q y, hdoor, Pkg.indexed_ix _ _ _ _ hfits, Pkg.indexed_avail .., Pkg.indexed_outc ..,
        (Pkg.indexed_qState ..).trans hst⟩
    · refine ⟨fun g => (g.setCred site q left (g.outc site q)).indexed site q y, ?_, Pkg.indexed_ix _ _ _ _ hfits,
        (Pkg.indexed_avail ..).trans (Pkg.setCred_avail _ _ _ _ _ hleft),
        (Pkg.indexed_outc ..).trans (Pkg.setCred_outc _ _ _ _ _ hleft hout),
        ((Pkg.indexed_qState ..).trans (Pkg.setCred_qState ..)).trans hst⟩
      unfold Pack.doorRun
      rw [hdoor]
      refine dqWake_idle ?_ fun j => ?_
      · exact (congrArg (·.dq) <| Pack.on_keeps (P := Pkg.pr) (f := fun g => (g.setCred site q left (g.outc site q)).indexed site q y) _ _ _ rfl).trans (hidle rfl k).1
      · exact (congrArg (·.resume) <| Pack.on_keeps (P := Pkg.ld) (f := fun g => (g.setCred site q left (g.outc site q)).indexed site q y) _ _ _ rfl).trans (hidle rfl j).2
  obtain ⟨h, hrun, hix, havail, houtc, hstate⟩ := hrun
  suffices hgives : Gives c s (s.pack.doorRun k site q op n 0) by
    refine ⟨_, hgives, ?_⟩
    rw [hrun]
    dsimp only
    rw [Pack.on_g_self]
    exact ⟨hix, havail, houtc, hstate, rfl⟩
  obtain ⟨hw, rfl⟩ | ⟨hbars, hhome, hqeng, rfl⟩ := hc
  · have hwrite : s.pack.busWrite k m site (oQueue q 0x2C) (mk32 (op * 2 ^ 30 + n % 65536)) { upset := 0 } =
        s.pack.doorRun k site q op n 0 := by
      refine (busWrite_served hw).trans ((regWrite_now rfl rfl rfl).trans ?_)
      have hblk : s.pack.blkWrite k site .queue (0x40 * q + 0x2C) (mk32 (op * 2 ^ 30 + n % 65536)) { upset := 0 } =
          s.pack.queueWrite k site ((0x40 * q + 0x2C) / 0x40) ((0x40 * q + 0x2C) % 0x40) (mk32 (op * 2 ^ 30 + n % 65536)) { upset := 0 } := rfl
      have hword : fld (mk32 (op * 2 ^ 30 + n % 65536)) 31 30 = op ∧ fld (mk32 (op * 2 ^ 30 + n % 65536)) 15 0 = n := by
        rw [fld_eq, fld_low, mk32, BitVec.toNat_ofNat]
        omega
      rw [hblk, show (0x40 * q + 0x2C) / 0x40 = q by omega, show (0x40 * q + 0x2C) % 0x40 = 0x2C by omega]
      simp only [Pack.queueWrite, hword]
    obtain rfl | rfl | rfl := hop3
    · exact gives_of_onPack (h := fun p => p.busWrite k m site (oQueue q 0x2C) (mk32 (1 * 2 ^ 30 + n % 65536)) { upset := 0 }) rfl hwrite
    · exact gives_of_onPack (h := fun p => p.busWrite k m site (oQueue q 0x2C) (mk32 (2 * 2 ^ 30 + n % 65536)) { upset := 0 }) rfl hwrite
    · exact gives_of_onPack (h := fun p => p.busWrite k m site (oQueue q 0x2C) (mk32 (3 * 2 ^ 30 + n % 65536)) { upset := 0 }) rfl hwrite
  · refine gives_of_onPack (h := fun p => if (p.g k).barsUp then p.hifDoor k (q % 4096) (op % 4) (n % 65536) 0 else p) rfl ?_
    rw [if_pos hbars, Nat.mod_eq_of_lt hq, Nat.mod_eq_of_lt (show op < 4 by omega), Nat.mod_eq_of_lt (show n < 65536 by omega)]
    unfold Pack.hifDoor
    dsimp only
    rw [show (s.pack.g k).home q = some site from hhome]
    dsimp only
    rw [show (s.pack.g k).qengOn site = true from hqeng]
    rfl

end Sys2Proof.Machine
end

section
/-! PROOFS. A load whose record names nine bytes. -/

namespace Sys2Proof.Machine

/-! ## A load whose record names nine bytes -/

/-- A load in flight of nine bytes at 0x40 of the cluster buffer, sign-extended; the record of a load holds any size. -/
def nineLoad : Load := { seq := 0, t := thread0, pc := 0, addr := 0x03F1000000000040, size := 9, sx := true, d := 5 }
def nineLoc : Loc := { pk := 0, site := 0, space := 1, off := 0x40 }
def nineState : State :=
  { (alone { sampleOn with loads := [nineLoad] }) with
    pack := { (alone { sampleOn with loads := [nineLoad] }).pack with mem := memWrN [] nineLoc.key [5, 0, 0, 0, 0, 0, 0, 0, 0x80] } }

/-- Refutes O14: the response of a load of nine bytes that hold 2^71 + 5, sign-extended, leaves 0 in sd, where 2^71 + 5 − 2^72 is 5 modulo 2^64. -/
theorem not_memoryResponses : ¬ Obligations.MemoryResponses := by
  intro h
  obtain ⟨hok, -⟩ := h.1 nineState 0 0 nineLoad nineLoc (by decide +kernel) (by decide +kernel) (by decide +kernel) (by decide +kernel)
    (by decide +kernel) (by decide +kernel) (by decide +kernel) (by decide +kernel)
  obtain ⟨-, -, -, hsd, -⟩ := (hok .ok (by decide)).after
  exact absurd hsd (by decide +kernel)

end Sys2Proof.Machine
end

section
/-! PROOFS. Requests that the queue engine serves (R131, R147 to R156). -/

namespace Sys2Proof.Machine

/-! ## Requests that the queue engine serves (R131, R147 to R156) -/

/-! What a completion count leaves alone -/

section
variable {α : Type} {P : Pkg → α} (hthr : ∀ (g : Pkg) l, P { g with thr := l } = P g) (htok : ∀ (g : Pkg) l, P { g with tok := l } = P g)
  (hbook : ∀ (g : Pkg) l, P { g with booked := l } = P g)
include hthr htok hbook

theorem serveTakes_keeps (site u c : Nat) : ∀ (l : List Nat) (g : Pkg), P (Pkg.serveTakes site u c l g) = P g
  | [], _ => rfl
  | i :: l, g => by
    rw [Pkg.serveTakes]
    split
    · dsimp only
      split
      · refine (serveTakes_keeps site u c l _).trans ?_
        exact (hthr _ _).trans ((hbook _ _).trans (htok _ _))
      · rfl
    · exact serveTakes_keeps site u c l g

omit htok hbook in
theorem serveWaits_keeps (site u c : Nat) : ∀ (l : List Nat) (g : Pkg), P (Pkg.serveWaits site u c l g) = P g
  | [], _ => rfl
  | i :: l, g => by
    rw [Pkg.serveWaits]
    split
    · refine (serveWaits_keeps site u c l _).trans ?_
      split
      · exact hthr _ _
      · rfl
    · exact serveWaits_keeps site u c l g

theorem serveTok_keeps (g : Pkg) (site u c : Nat) : P (g.serveTok site u c) = P g :=
  (serveWaits_keeps hthr ..).trans (serveTakes_keeps hthr htok hbook ..)

/-- A delivery changes counters, threads, the ledger, one of its registers and the log. -/
theorem deliver_keeps (hsat : ∀ (g : Pkg) n, P (g.addSat (rRecl 0) n) = P g) (hlog : ∀ (g : Pkg) a b c d e f h, P (g.logAt a b c d e f h) = P g)
    (g : Pkg) (site u c n : Nat) : P (g.deliver site u c n) = P g := by
  unfold Pkg.deliver
  dsimp only
  split
  · rfl
  · refine (serveTok_keeps hthr htok hbook ..).trans ?_
    split
    · exact (hbook _ _).trans (htok _ _)
    · exact (hlog ..).trans ((hsat ..).trans ((hbook _ _).trans (htok _ _)))
end

theorem complete_qops (g : Pkg) (t : Tid) (f : Fields) : (g.complete t f).qops = g.qops :=
  deliver_keeps (P := Pkg.qops) (by intro _ _; rfl) (by intro _ _; rfl) (by intro _ _; rfl) (by intro _ _; rfl) (by intro _ _ _ _ _ _ _ _; simp) ..

theorem complete_pr (g : Pkg) (t : Tid) (f : Fields) : (g.complete t f).pr = g.pr :=
  deliver_keeps (P := Pkg.pr) (by intro _ _; rfl) (by intro _ _; rfl) (by intro _ _; rfl) (by intro _ _; rfl) (by intro _ _ _ _ _ _ _ _; simp) ..

theorem complete_ld (g : Pkg) (t : Tid) (f : Fields) : (g.complete t f).ld = g.ld :=
  deliver_keeps (P := Pkg.ld) (by intro _ _; rfl) (by intro _ _; rfl) (by intro _ _; rfl) (by intro _ _; rfl) (by intro _ _ _ _ _ _ _ _; simp) ..

/-- The registers of a compute die stay as they are. -/
theorem complete_rd (g : Pkg) (t : Tid) (f : Fields) {b : Nat} (hb : b < hubR 0) : (g.complete t f).rd b = g.rd b := by
  have hrecl : b ≠ rRecl 0 := by simp only [rRecl, hubR, rk] at hb ⊢; omega
  have hlog : b ∉ [rErrCtl, rErrHead, rErrLost, rPins] := by
    simp only [List.mem_cons, List.not_mem_nil, or_false, not_or, rErrCtl, rErrHead, rErrLost, rPins, hubR, rk] at hb ⊢
    omega
  exact deliver_keeps (P := fun g => g.rd b) (by intro _ _; rfl) (by intro _ _; rfl) (by intro _ _; rfl)
    (by intro g n; exact Pkg.wr_rd_ne _ _ hrecl) (by intro g _ _ _ _ _ _ _; exact Pkg.logAt_rd _ _ _ _ _ _ _ _ hlog) ..

theorem rQ_lt_hub {site q o : Nat} (hq : q < 4096) (hsite : site < 48) (ho : o < 0x40) : rQ site q o < hubR 0 := by
  simp only [rQ, hubR, rk]
  omega

/-! One request, and nothing else, at a die's engine -/

/-- The queue runs and its engine is enabled. -/
theorem reqFault_none {g : Pkg} {site q : Nat} (hqeng : g.qengOn site = true) (hst : g.qState site q = 1) (op : Op) : g.reqFault site q op = none := by
  simp only [Pkg.reqFault, Pkg.qFault, hqeng, hst]
  split <;> rfl

/-- The pack once the engine of a die has served its one request. -/
def Pack.sliced (p : Pack) (k site q : Nat) (x : QReq) : Pack :=
  ((p.on k (fun g => { g with qops := g.qops.erase x })).look x.r.t).on k (fun g => { g with qlast := mins g.qlast site q })

section
variable {p p' : Pack} {k site q : Nat} {x : QReq}

theorem sliced_keeps {α : Type} {P : Pkg → α} (hq : ∀ (g : Pkg) l, P { g with qops := l } = P g) (hl : ∀ (g : Pkg) l, P { g with qlast := l } = P g)
    (hth : ∀ (g : Pkg) t y, P (g.setTh t y) = P g) (j : Nat) : P ((p.sliced k site q x).g j) = P (p.g j) :=
  (Pack.on_keeps _ _ _ (hl ..)).trans ((look_keeps hth ..).trans (Pack.on_keeps _ _ _ (hq ..)))

theorem sliced_mem : (p.sliced k site q x).mem = p.mem := look_mem ..

theorem sliced_qops (h : (p.g k).qops = [x]) : ((p.sliced k site q x).g k).qops = [] := by
  have hk := (Pack.on_keeps (P := Pkg.qops) (f := fun g => { g with qlast := mins g.qlast site q })
    ((p.on k (fun g => { g with qops := g.qops.erase x })).look x.r.t) k k rfl).trans (look_keeps (P := Pkg.qops) (by intro _ _ _; rfl) ..)
  refine hk.trans ?_
  rw [Pack.on_g_self, h]
  simp

/-- The engine's slice serves the one request of its die, which can be served. -/
theorem engineSlice_one (hops : (p.g k).qops = [x]) (hsite : x.site = site) (hqid : x.qid = q) (hkind : x.r.op ≠ .ctake ∧ x.r.op ≠ .qpop)
    (hturn : x.r.op = .qpush ∨ x.r.op = .cgive → (p.g x.r.t.pkg).writesDone x.r.t x.seq = true)
    (hserve : p.serveReq k site q 0 .ok x = (p', true)) (hops' : (p'.g k).qops = [x]) (hdq : (p'.g k).pr.dq = [])
    (hresume : ∀ j, (p'.g j).ld.resume = false) : p.engineSlice k site 0 .ok = p'.sliced k site q x := by
  obtain ⟨hctake, hqpop⟩ := hkind
  have hmine : [x].filter (fun x => x.site == site && x.qid == q) = [x] := by simp [hsite, hqid]
  have hwork : (p.g k).queueWork site q = true := by
    unfold Pkg.queueWork
    simp [hops, hmine, hctake, hqpop]
  have hnext : (p.g k).nextQueue site = some q := by
    have hlist : (([x].filter (fun x => x.site == site)).map (·.qid)).filter ((p.g k).queueWork site) = [q] := by simp [hsite, hqid, hwork]
    unfold Pkg.nextQueue
    dsimp only
    rw [hops, hlist, show sortBy (fun a b => decide (a ≤ b)) [q] = [q] from rfl, List.find?_cons]
    cases decide (mget 4095 (p.g k).qlast site < q) <;> rfl
  have hgo : ((x.r.op == .qpush || x.r.op == .cgive) && !((p.g x.r.t.pkg).writesDone x.r.t x.seq)) = false := by
    by_cases h : x.r.op = .qpush ∨ x.r.op = .cgive
    · simp [hturn h]
    · rw [not_or] at h
      simp [h]
  have hpass : Pack.servePass k site q 0 .ok [x] p [] false false = (p'.on k (fun g => { g with qops := g.qops.erase x })).look x.r.t := by
    simp only [Pack.servePass, hops, hserve, hgo]
    simp [hctake, hqpop]
  have hempty : (((p'.on k (fun g => { g with qops := g.qops.erase x })).look x.r.t).g k).qops = [] := by
    rw [look_keeps (P := Pkg.qops) (by intro _ _ _; rfl), Pack.on_g_self, hops']
    simp
  unfold Pack.engineSlice
  rw [hnext]
  dsimp only
  have hqueue : p.serveQueue k site q 0 .ok = (p'.on k (fun g => { g with qops := g.qops.erase x })).look x.r.t := by
    unfold Pack.serveQueue
    dsimp only
    rw [hops, hmine, hpass, hempty]
    rfl
  rw [hqueue]
  refine dqWake_idle ?_ fun j => ?_
  · exact (congrArg (·.dq) (sliced_keeps (P := Pkg.pr) (p := p') (site := site) (q := q) (x := x) (by intro _ _; rfl) (by intro _ _; rfl) (by intro _ _ _; rfl) k)).trans hdq
  · exact (congrArg (·.resume) (sliced_keeps (P := Pkg.ld) (p := p') (k := k) (site := site) (q := q) (x := x) (by intro _ _; rfl) (by intro _ _; rfl) (by intro _ _ _; rfl) j)).trans (hresume j)
end

/-! The order of the indices (R149) -/

section
variable {i : Ix} {n size : Nat}

theorem Ix.ok_iff (i : Ix) (size : Nat) :
    i.ok size = true ↔ ringDist i.p i.l ≤ size ∧ ringDist i.m i.l ≤ ringDist i.c i.l ∧ ringDist i.c i.l ≤ ringDist i.p i.l := by
  simp only [Ix.ok, Bool.and_eq_true, decide_eq_true_eq, and_assoc]

theorem Ix.mark_ok (h : i.ok size = true) : ({ i with m := i.c } : Ix).ok size = true := by
  rw [Ix.ok_iff] at h ⊢
  exact ⟨h.1, le_rfl, h.2.2⟩

theorem Ix.rewind_ok (h : i.ok size = true) : ({ i with c := i.m } : Ix).ok size = true := by
  rw [Ix.ok_iff] at h ⊢
  exact ⟨h.1, le_rfl, h.2.1.trans h.2.2⟩

theorem Ix.push_ok (hi : i.fits) (h : i.ok size = true) (hn : ringDist i.p i.l + n ≤ size) (hsize : size < 65536) :
    ({ i with p := (i.p + n) % 65536 } : Ix).ok size = true := by
  obtain ⟨hp, hc, hm, hl⟩ := hi
  rw [Ix.ok_iff] at h ⊢
  simp only [ringDist] at h hn ⊢
  omega

theorem Ix.pop_ok (hi : i.fits) (h : i.ok size = true) (hn : n ≤ ringDist i.p i.c) :
    ({ i with c := (i.c + n) % 65536 } : Ix).ok size = true := by
  obtain ⟨hp, hc, hm, hl⟩ := hi
  rw [Ix.ok_iff] at h ⊢
  simp only [ringDist] at h hn ⊢
  omega

/-- A release drags the mark along where it lay behind. -/
theorem Ix.release_ok (hi : i.fits) (h : i.ok size = true) (hn : n ≤ ringDist i.c i.l) :
    ({ i with l := (i.l + n) % 65536, m := if ringDist i.m i.l < n then (i.l + n) % 65536 else i.m } : Ix).ok size = true := by
  obtain ⟨hp, hc, hm, hl⟩ := hi
  rw [Ix.ok_iff] at h ⊢
  dsimp only
  split_ifs with hlt
  all_goals
    simp only [ringDist] at h hn hlt ⊢
    omega

theorem qSize_lt (g : Pkg) (site q : Nat) : g.qSize site q < 65536 := by
  have hexp : g.rf (rQ site q 0) 19 16 < 16 := by
    rw [Pkg.rf, fld_eq]
    exact Nat.mod_lt _ (by decide)
  exact (Nat.pow_lt_pow_right (by decide) hexp).trans_le (by decide)
end

end Sys2Proof.Machine
end

section
/-! PROOFS. What each request does at its queue (R131, R147, R151, R155). -/

namespace Sys2Proof.Machine

/-! ## What each request does at its queue (R131, R147, R151, R155) -/

theorem ringWrite_pkgs (k site q : Nat) : ∀ (n : Nat) (src : List Byte) (i : Nat) (p : Pack), (p.ringWrite k site q src n i).pkgs = p.pkgs
  | 0, _, _, _ => rfl
  | n + 1, src, i, p => by
    rw [Pack.ringWrite]
    exact ringWrite_pkgs k site q n _ _ _

theorem ringWrite_g (p : Pack) (k site q n i : Nat) (src : List Byte) (j : Nat) : (p.ringWrite k site q src n i).g j = p.g j := by
  rw [Pack.g, ringWrite_pkgs, ← Pack.g]

/-- A request meets its queue running, its engine enabled. -/
structure Pkg.Running (g : Pkg) (site q : Nat) : Prop where
  qeng : g.qengOn site = true
  state : g.qState site q = 1
  input : g.qInput site q = false
  order : (g.ix site q).ok (g.qSize site q) = true

section
variable {p : Pack} {k site q : Nat} {x : QReq}

theorem serveReq_qmark (h : (p.g k).Running site q) (hop : x.r.op = .qmark) : p.serveReq k site q 0 .ok x =
    (p.on k (fun g => g.indexed site q { (p.g k).ix site q with m := ((p.g k).ix site q).c }), true) := by
  obtain ⟨hqeng, hst, hinput, hok⟩ := h
  unfold Pack.serveReq
  simp only [hop, reqFault_none hqeng hst, Pkg.qOperand, hinput]
  exact congrArg (·, true) (moveIx_ok (Ix.mark_ok hok))

theorem serveReq_qrewind (h : (p.g k).Running site q) (hop : x.r.op = .qrewind) : p.serveReq k site q 0 .ok x =
    (p.on k (fun g => g.indexed site q { (p.g k).ix site q with c := ((p.g k).ix site q).m }), true) := by
  obtain ⟨hqeng, hst, hinput, hok⟩ := h
  unfold Pack.serveReq
  simp only [hop, reqFault_none hqeng hst, Pkg.qOperand, hinput]
  exact congrArg (·, true) (moveIx_ok (Ix.rewind_ok hok))

/-- The indices that a release of `n` leaves: the mark is dragged along. -/
def Ix.released (i : Ix) (n : Nat) : Ix :=
  { i with l := (i.l + n) % 65536, m := if ringDist i.m i.l < n then (i.l + n) % 65536 else i.m }

theorem Ix.released_fits {i : Ix} (h : i.fits) (n : Nat) : (i.released n).fits := by
  obtain ⟨hp, hc, hm, hl⟩ := h
  have hl' : (i.l + n) % 65536 < 65536 := Nat.mod_lt _ (by decide)
  refine ⟨hp, hc, ?_, hl'⟩
  change (if _ then _ else _) < _
  split <;> assumption

/-- A release returns its credits, those of an inbound queue's senders too, and moves L. -/
theorem serveReq_qrelease (h : (p.g k).Running site q) (hop : x.r.op = .qrelease) (hn : x.n ≤ ringDist ((p.g k).ix site q).c ((p.g k).ix site q).l) :
    ∃ p1 : Pack, p.serveReq k site q 0 .ok x = (p1.on k (fun g => g.indexed site q (((p.g k).ix site q).released x.n)), true) ∧ p1.mem = p.mem ∧
      ∀ {α : Type} (P : Pkg → α), (∀ (g : Pkg) c, P { g with co := c } = P g) → (∀ (g : Pkg) b, P { g with booked := b } = P g) →
        ∀ j, P (p1.g j) = P ((p.on k (fun g => g.setCred site q (g.avail site q + x.n) (g.outc site q))).g j) := by
  obtain ⟨hqeng, hst, hinput, hok⟩ := h
  have hfits := (p.g k).ix_fits site q
  let p0 := p.on k (fun g => g.setCred site q (g.avail site q + x.n) (g.outc site q))
  let back (s : Pack) : Pack := if qClass q = 2 ∧ (p.g k).qProd site q = 2 then
    (s.ringRead k site q x.n ((p.g k).ix site q).l).foldl (fun s e => s.on k (fun g => g.credBack (qkey site q) (leVal ((e.2.drop 24).take 1) % 64))) s
    else s
  have hkeeps {α : Type} (P : Pkg → α) (hco : ∀ (g : Pkg) c, P { g with co := c } = P g) (hb : ∀ (g : Pkg) b, P { g with booked := b } = P g) (j : Nat) :
      P ((back p0).g j) = P (p0.g j) := by
    have hback (g : Pkg) (a b : Nat) : P (g.credBack a b) = P g := (hb _ _).trans (hco _ _)
    dsimp only [back]
    split
    · exact foldl_keeps (P := fun s : Pack => P (s.g j)) (fun s e => Pack.on_keeps s k j (hback _ _ _)) _ p0
    · rfl
  refine ⟨back p0, ?_, ?_, fun P hco hb j => hkeeps P hco hb j⟩
  · have hmin : min x.n ((p.g k).ix site q).held = x.n := by simp only [Ix.held]; omega
    have hsize : ((back p0).g k).qSize site q = (p.g k).qSize site q := by
      rw [hkeeps (fun g => g.qSize site q) (fun _ _ => rfl) (fun _ _ => rfl), Pack.on_g_self, Pkg.setCred_qSize]
    have hmove := moveIx_ok (p := back p0) (site := site) (q := q) (x := ((p.g k).ix site q).released x.n)
      (by rw [hsize]; exact Ix.release_ok hfits hok hn)
    unfold Pack.serveReq
    simp only [hop, reqFault_none hqeng hst, Pkg.qOperand, hinput, hmin, lt_self_iff_false, if_false, show (Op.qrelease == Op.qpush) = false from rfl,
      Bool.false_eq_true, Bool.not_true, Bool.not_false]
    exact congrArg (·, true) hmove
  · dsimp only [back]
    split
    · exact foldl_keeps (P := Pack.mem) (by intro _ _; rfl) ..
    · rfl

/-- A push writes its entries, spends its credits, moves P and delivers its count. -/
def Pkg.pushed (g : Pkg) (site q : Nat) (x : QReq) (i : Ix) : Pkg :=
  (((g.setCred site q (g.avail site q) (g.outc site q - x.n)).indexed site q { i with p := (i.p + x.n) % 65536 }).pushVec q).complete x.r.t x.r.f

theorem serveReq_qpush {l : Loc} (h : (p.g k).Running site q) (hop : x.r.op = .qpush) (hpkg : x.r.t.pkg = k) (hn : x.n ≤ (p.g k).qSize site q)
    (hspan : p.engSpan k x.r.t.site (x.r.v.getD 0 0).toNat (64 * x.n) = some l)
    (hroom : ringDist ((p.g k).ix site q).p ((p.g k).ix site q).l + x.n ≤ (p.g k).qSize site q) :
    p.serveReq k site q 0 .ok x = ((p.ringWrite k site q (p.bytes l (64 * x.n)) x.n ((p.g k).ix site q).p).on k
      (fun g => g.pushed site q x ((p.g k).ix site q)), true) := by
  obtain ⟨hqeng, hst, hinput, hok⟩ := h
  have hflow : p.inflow k 1 k x.n = p := if_pos rfl
  let p1 := p.ringWrite k site q (p.bytes l (64 * x.n)) x.n ((p.g k).ix site q).p
  let p2 := p1.on k (fun g => g.setCred site q (g.avail site q) (g.outc site q - x.n))
  have hsize : (p2.g k).qSize site q = (p.g k).qSize site q := by
    rw [Pack.on_g_self, Pkg.setCred_qSize, ringWrite_g]
  have hmove := moveIx_ok (p := p2) (site := site) (q := q) (x := { (p.g k).ix site q with p := (((p.g k).ix site q).p + x.n) % 65536 })
    (by rw [hsize]; exact Ix.push_ok ((p.g k).ix_fits site q) hok hroom (qSize_lt ..))
  unfold Pack.serveReq
  simp only [hop, reqFault_none hqeng hst, Pkg.qOperand, hn, hpkg, hflow, hspan, show (Op.qpush == Op.qpush) = true from rfl, if_true,
    decide_true, Bool.not_true, Bool.false_eq_true, if_false]
  refine congrArg (·, true) ?_
  change ((p2.moveIx k site q 0 _).on k (fun g => g.pushVec q)).on k (fun g => g.complete x.r.t x.r.f) = _
  rw [hmove, Pack.on_on, Pack.on_on, Pack.on_on]
  rfl

/-- The thread of a QCOUNT takes the count and goes on. -/
theorem serveReq_qcount (hqeng : (p.g k).qengOn site = true) (hop : x.r.op = .qcount) : p.serveReq k site q 0 .ok x =
    (p.on x.r.t.pkg (fun g => g.onTh x.r.t (fun th =>
      let th' := th.setS x.r.f.d.toNat ((g.qcount site q).setWidth 64)
      match th.st, th.wait with
      | .wait, some (.resp _) => th'.adv
      | _, _ => th')), true) := by
  have hfault : (p.g k).reqFault site q .qcount = none := by simp [Pkg.reqFault, hqeng]
  unfold Pack.serveReq
  simp only [hop, hfault, Pkg.qOperand, show (Op.qcount == Op.qpush) = false from rfl, Bool.false_eq_true, if_false, Bool.not_true] <;>
  rfl
end

/-- A thread that does not wait is not touched when it is looked at. -/
theorem look_going {α : Type} {P : Pkg → α} {p : Pack} {t : Tid} (h : ((p.g t.pkg).th t).st ≠ .wait) (j : Nat) : P ((p.look t).g j) = P (p.g j) := by
  have hwake : (p.g t.pkg).wake t.pkg t = p.g t.pkg := by
    unfold Pkg.wake
    dsimp only
    rw [if_pos (by simpa using h)]
  unfold Pack.look
  dsimp only
  split
  · next hst _ => exact absurd hst h
  · exact Pack.on_keeps _ _ _ (by rw [hwake])

section
variable {s : State} {k site q : Nat} {x : QReq}

/-- A die's engine has one request alone, of a queue that runs; nothing waits for a release (R156, R336). -/
structure OneRequest (s : State) (k site q : Nat) (x : QReq) : Prop where
  up : (s.pack.g k).hubUp = true
  ops : (s.pack.g k).qops = [x]
  atSite : x.site = site
  qid : x.qid = q
  run : (s.pack.g k).Running site q
  dq : ∀ j, (s.pack.g j).pr.dq = []
  resume : ∀ j, (s.pack.g j).ld.resume = false

/-- The slice serves the request. -/
theorem OneRequest.gives (h : OneRequest s k site q x) {p : Pack} (hkind : x.r.op ≠ .ctake ∧ x.r.op ≠ .qpop)
    (hturn : x.r.op = .qpush ∨ x.r.op = .cgive → (s.pack.g x.r.t.pkg).writesDone x.r.t x.seq = true)
    (hserve : s.pack.serveReq k site q 0 .ok x = (p, true)) (hops : (p.g k).qops = (s.pack.g k).qops) (hpr : (p.g k).pr = (s.pack.g k).pr)
    (hld : ∀ j, (p.g j).ld = (s.pack.g j).ld) : Gives (.queueEngineSlice k site (0, .ok)) s (p.sliced k site q x) ∧
      ((p.sliced k site q x).g k).qops = [] :=
  ⟨gives_of_atHub (h := fun p => p.engineSlice k site 0 .ok) rfl h.up (engineSlice_one h.ops h.atSite h.qid hkind hturn hserve (hops.trans h.ops)
    (by rw [hpr]; exact h.dq k) (fun j => by rw [hld]; exact h.resume j)), sliced_qops (hops.trans h.ops)⟩

/-- A queue's registers once the request is served. -/
theorem sliced_queue {α : Type} (P : Pkg → α) (hq : ∀ (g : Pkg) l, P { g with qops := l } = P g) (hl : ∀ (g : Pkg) l, P { g with qlast := l } = P g)
    (hth : ∀ (g : Pkg) t y, P (g.setTh t y) = P g) (p : Pack) : P ((p.sliced k site q x).g k) = P (p.g k) :=
  sliced_keeps hq hl hth k

theorem sliced_ix (p : Pack) : ((p.sliced k site q x).g k).ix site q = (p.g k).ix site q :=
  sliced_queue (fun g => g.ix site q) (fun _ _ => rfl) (fun _ _ => rfl) (fun _ _ _ => rfl) p

theorem sliced_avail (p : Pack) : ((p.sliced k site q x).g k).avail site q = (p.g k).avail site q :=
  sliced_queue (fun g => g.avail site q) (fun _ _ => rfl) (fun _ _ => rfl) (fun _ _ _ => rfl) p

theorem sliced_outc (p : Pack) : ((p.sliced k site q x).g k).outc site q = (p.g k).outc site q :=
  sliced_queue (fun g => g.outc site q) (fun _ _ => rfl) (fun _ _ => rfl) (fun _ _ _ => rfl) p

/-- QMARK and QREWIND: new indices and nothing else. -/
theorem OneRequest.leaves_moved (h : OneRequest s k site q x) {y : Ix} (hy : y.fits) (hkind : x.r.op = .qmark ∨ x.r.op = .qrewind)
    (hserve : s.pack.serveReq k site q 0 .ok x = (s.pack.on k (fun g => g.indexed site q y), true)) :
    Leaves (.queueEngineSlice k site (0, .ok)) s (fun p => (p.g k).ix site q = y ∧ (p.g k).qops = [] ∧ p.mem = s.pack.mem) := by
  obtain ⟨hgives, hops⟩ := h.gives (by rcases hkind with h | h <;> simp [h]) (by rcases hkind with h | h <;> simp [h]) hserve
    (by rw [Pack.on_g_self]; rfl) (by rw [Pack.on_g_self]; rfl) (fun j => Pack.on_keeps (P := Pkg.ld) (f := fun g => g.indexed site q y) _ _ _ rfl)
  refine ⟨_, hgives, ?_, hops, sliced_mem⟩
  rw [sliced_ix, Pack.on_g_self]
  exact Pkg.indexed_ix _ _ _ _ hy

theorem OneRequest.leaves_released (h : OneRequest s k site q x) (hop : x.r.op = .qrelease)
    (hn : x.n ≤ ringDist ((s.pack.g k).ix site q).c ((s.pack.g k).ix site q).l) (havail : (s.pack.g k).avail site q + x.n < 65536) :
    Leaves (.queueEngineSlice k site (0, .ok)) s (fun p => (p.g k).ix site q = ((s.pack.g k).ix site q).released x.n ∧
      (p.g k).avail site q = (s.pack.g k).avail site q + x.n ∧ (p.g k).qops = [] ∧ p.mem = s.pack.mem) := by
  obtain ⟨p1, hserve, hmem, hp1⟩ := serveReq_qrelease h.run hop hn
  have hown {α : Type} (P : Pkg → α) (hco : ∀ (g : Pkg) c, P { g with co := c } = P g) (hb : ∀ (g : Pkg) b, P { g with booked := b } = P g) :
      P (p1.g k) = P ((s.pack.g k).setCred site q ((s.pack.g k).avail site q + x.n) ((s.pack.g k).outc site q)) := by
    rw [hp1 P hco hb, Pack.on_g_self]
  obtain ⟨hgives, hops⟩ := h.gives (by simp [hop]) (by simp [hop]) hserve
    (by rw [Pack.on_g_self]; exact hown Pkg.qops (fun _ _ => rfl) (fun _ _ => rfl))
    (by rw [Pack.on_g_self]; exact hown Pkg.pr (fun _ _ => rfl) (fun _ _ => rfl))
    (fun j => (Pack.on_keeps (P := Pkg.ld) (f := fun g => g.indexed site q (((s.pack.g k).ix site q).released x.n)) _ _ _ rfl).trans
      ((hp1 Pkg.ld (fun _ _ => rfl) (fun _ _ => rfl) j).trans
        (Pack.on_keeps (P := Pkg.ld) (f := fun g => g.setCred site q (g.avail site q + x.n) (g.outc site q)) _ _ _ rfl)))
  refine ⟨_, hgives, ?_, ?_, hops, sliced_mem.trans hmem⟩
  · rw [sliced_ix, Pack.on_g_self]
    exact Pkg.indexed_ix _ _ _ _ (Ix.released_fits (Pkg.ix_fits ..) _)
  · rw [sliced_avail, Pack.on_g_self, Pkg.indexed_avail, hown (fun g => g.avail site q) (fun _ _ => rfl) (fun _ _ => rfl)]
    exact Pkg.setCred_avail _ _ _ _ _ havail

/-- The interrupt of a push leaves the queue's state. -/
theorem pushVec_keeps {α : Type} {P : Pkg → α} (hP : ∀ (g : Pkg) l, P { g with msix := l } = P g) (g : Pkg) (q : Nat) : P (g.pushVec q) = P g := by
  unfold Pkg.pushVec
  dsimp only
  split
  · exact hP ..
  · rfl

theorem OneRequest.leaves_pushed (h : OneRequest s k site q x) (hq : q < 4096) (hdie : site < 48) {l : Loc} (hop : x.r.op = .qpush)
    (hn : x.n ≤ (s.pack.g k).qSize site q) (hwrites : (s.pack.g k).writesDone x.r.t x.seq = true) (hpkg : x.r.t.pkg = k)
    (hspan : s.pack.engSpan k x.r.t.site (x.r.v.getD 0 0).toNat (64 * x.n) = some l)
    (hroom : ringDist ((s.pack.g k).ix site q).p ((s.pack.g k).ix site q).l + x.n ≤ (s.pack.g k).qSize site q) :
    Leaves (.queueEngineSlice k site (0, .ok)) s (fun p =>
      p.mem = (s.pack.ringWrite k site q (s.pack.bytes l (64 * x.n)) x.n ((s.pack.g k).ix site q).p).mem ∧
      (p.g k).ix site q = { (s.pack.g k).ix site q with p := (((s.pack.g k).ix site q).p + x.n) % 65536 } ∧
      (p.g k).outc site q = (s.pack.g k).outc site q - x.n ∧ (p.g k).avail site q = (s.pack.g k).avail site q ∧ (p.g k).qops = []) := by
  obtain ⟨hp, hc, hm, hl⟩ := (s.pack.g k).ix_fits site q
  let i := (s.pack.g k).ix site q
  let p1 := s.pack.ringWrite k site q (s.pack.bytes l (64 * x.n)) x.n i.p
  let p' := p1.on k (fun g => g.pushed site q x i)
  have hg : p'.g k = (s.pack.g k).pushed site q x i := by rw [Pack.on_g_self, ringWrite_g]
  have hrd {o : Nat} (ho : o < 0x40) : ((s.pack.g k).pushed site q x i).rd (rQ site q o) =
      (((s.pack.g k).setCred site q ((s.pack.g k).avail site q) ((s.pack.g k).outc site q - x.n)).indexed site q
        { i with p := (i.p + x.n) % 65536 }).rd (rQ site q o) :=
    (complete_rd _ _ _ (rQ_lt_hub hq hdie ho)).trans (Pkg.pushVec_rd ..)
  have havail : (s.pack.g k).avail site q < 65536 := fld_15_lt _
  have houtc : (s.pack.g k).outc site q - x.n < 65536 := (Nat.sub_le ..).trans_lt (fld_31_lt _)
  obtain ⟨hgives, hops⟩ := h.gives (p := p') (by simp [hop]) (fun _ => by rw [hpkg]; exact hwrites) (serveReq_qpush h.run hop hpkg hn hspan hroom)
    (by rw [hg, Pkg.pushed, complete_qops, pushVec_keeps (P := Pkg.qops) (fun _ _ => rfl)]; rfl)
    (by rw [hg, Pkg.pushed, complete_pr, pushVec_keeps (P := Pkg.pr) (fun _ _ => rfl)]; rfl)
    (fun j => (Pack.on_keeps (P := Pkg.ld) (f := fun g => g.pushed site q x i) _ _ _
      (by rw [Pkg.pushed, complete_ld, pushVec_keeps (P := Pkg.ld) (fun _ _ => rfl)]; rfl)).trans (congrArg Pkg.ld (ringWrite_g ..)))
  refine ⟨_, hgives, sliced_mem, ?_, ?_, ?_, hops⟩
  · rw [sliced_ix, hg, Pkg.ix, hrd (by decide), hrd (by decide)]
    exact Pkg.indexed_ix _ _ _ _ ⟨Nat.mod_lt _ (by decide), hc, hm, hl⟩
  · rw [sliced_outc, hg, Pkg.outc, Pkg.rf, hrd (by decide)]
    exact (Pkg.indexed_outc ..).trans (Pkg.setCred_outc _ _ _ _ _ havail houtc)
  · rw [sliced_avail, hg, Pkg.avail, Pkg.rf, hrd (by decide)]
    exact (Pkg.indexed_avail ..).trans (Pkg.setCred_avail _ _ _ _ _ havail)

theorem OneRequest.leaves_counted (h : OneRequest s k site q x) (hop : x.r.op = .qcount) (hpkg : x.r.t.pkg = k)
    (hst : ((s.pack.g k).th x.r.t).st = .wait) (hwait : ((s.pack.g k).th x.r.t).wait = some (.resp x.r.f.d.toNat)) :
    Leaves (.queueEngineSlice k site (0, .ok)) s (fun p =>
      (p.g k).th x.r.t = (((s.pack.g k).th x.r.t).setS x.r.f.d.toNat (((s.pack.g k).qcount site q).setWidth 64)).past ∧
      (p.g k).ix site q = (s.pack.g k).ix site q ∧ (p.g k).qops = [] ∧ p.mem = s.pack.mem) := by
  have hserve := serveReq_qcount (q := q) (x := x) h.run.qeng hop
  obtain ⟨y, hy⟩ : ∃ y : Pkg → Thread → Thread, s.pack.serveReq k site q 0 .ok x = (s.pack.on k (fun g => g.onTh x.r.t (y g)), true) ∧
      y (s.pack.g k) ((s.pack.g k).th x.r.t) = (((s.pack.g k).th x.r.t).setS x.r.f.d.toNat (((s.pack.g k).qcount site q).setWidth 64)).past := by
    rw [hpkg] at hserve
    exact ⟨_, hserve, by simp only [hst, hwait]; rfl⟩
  obtain ⟨hserve, hpast⟩ := hy
  have hth : ((s.pack.on k (fun g => g.onTh x.r.t (y g))).g k).th x.r.t =
      (((s.pack.g k).th x.r.t).setS x.r.f.d.toNat (((s.pack.g k).qcount site q).setWidth 64)).past := by
    rw [Pack.on_g_self, Pkg.onTh, Pkg.setTh_th_self, hpast]
  obtain ⟨hgives, hops⟩ := h.gives (by simp [hop]) (by simp [hop]) hserve (by rw [Pack.on_g_self]; rfl) (by rw [Pack.on_g_self]; rfl)
    (fun j => Pack.on_keeps (P := Pkg.ld) (f := fun g => g.onTh x.r.t (y g)) _ _ _ rfl)
  refine ⟨_, hgives, ?_, ?_, hops, sliced_mem⟩
  · have herased := (Pack.on_keeps (P := fun g => g.th x.r.t) (f := fun g => { g with qops := g.qops.erase x })
      (s.pack.on k (fun g => g.onTh x.r.t (y g))) k k rfl).trans hth
    refine (Pack.on_keeps (P := fun g => g.th x.r.t) (f := fun g => { g with qlast := mins g.qlast site q }) _ _ _ rfl).trans
      ((look_going (P := fun g => g.th x.r.t) ?_ k).trans herased)
    rw [hpkg, herased]
    exact nofun
  · rw [sliced_ix, Pack.on_g_self]
    rfl
end

end Sys2Proof.Machine
end

section
/-! PROOFS. Grants, and room in an input queue (R92, R131, R148, R153, R175). -/

namespace Sys2Proof.Machine

/-! ## Grants, and room in an input queue (R92, R131, R148, R153, R175) -/

theorem sortBy_eq_nil {α : Type} {le : α → α → Bool} {l : List α} (h : sortBy le l = []) : l = [] := by
  cases l with
  | nil => rfl
  | cons x l =>
    have hne (x : α) (l : List α) : insBy le x l ≠ [] := by
      cases l with
      | nil => exact nofun
      | cons y l =>
        rw [insBy]
        split <;> exact nofun
    exact absurd h (hne x (sortBy le l))

/-- Where nobody waits as a test says, no thread's wait meets the test. -/
theorem of_waiters_nil {g : Pkg} {test : Nat → Wait → Bool} (h : g.waiters test = []) :
    ∀ e ∈ g.thr, ∀ w, e.2.st = .wait → e.2.wait = some w → test e.1 w = false := by
  unfold Pkg.waiters at h
  dsimp only at h
  have hnone := List.filter_eq_nil_iff.mp (sortBy_eq_nil (List.map_eq_nil_iff.mp h))
  intro e he w hst hw
  have := hnone e he
  rw [hst, hw] at this
  simpa using this

theorem mem_mins_entry {α : Type} {i : Nat} {v : α} {e : Nat × α} : ∀ {m : Map α}, e ∈ mins m i v → e = (i, v) ∨ e ∈ m
  | [], h => .inl (List.mem_singleton.mp h)
  | (k, w) :: r, h => by
    rw [mins] at h
    split_ifs at h
    · exact List.mem_cons.mp h
    · rcases List.mem_cons.mp h with h | h
      · exact .inl h
      · exact .inr (List.mem_cons_of_mem _ h)
    · rcases List.mem_cons.mp h with h | h
      · exact .inr (h ▸ List.mem_cons_self)
      · exact (mem_mins_entry h).imp id (List.mem_cons_of_mem _)

theorem Pkg.setCredits_pos (g : Pkg) {site u pos q n : Nat} (hn : n ≠ 0) :
    g.setCredits site u pos q n = { g with ctab := mins g.ctab (uk site u) (g.credTab site u pos q n) } := by
  simp [Pkg.setCredits, Pkg.credTab, hn]

/-- A thread that answers 1 and goes on. -/
theorem answered (x : Thread) {pd : Nat} (hpd : pd < 8) : (x.setPred pd true).adv.pred pd = true ∧ (x.setPred pd true).adv.st = .ready ∧
    (x.setPred pd true).adv.pc = x.pc + 1 := by
  refine ⟨?_, rfl, congrArg (· + 1) (Thread.setPred_pc ..)⟩
  change (x.setPred pd true).pred pd = true
  obtain rfl | h := Nat.eq_zero_or_pos pd
  · rfl
  · rw [Thread.pred_setPred x true h hpd hpd, if_pos rfl]

/-- With no thread waiting to push, credits that arrive at a unit are its own. -/
theorem pushWaiters_none {p : Pack} {k site u : Nat} (h : ∀ e ∈ (p.g k).thr, ∀ r, e.2.st = .wait → e.2.wait ≠ some (.push r)) :
    p.pushWaiters k site u = p := by
  unfold Pack.pushWaiters
  dsimp only
  rw [waiters_nil]
  · rfl
  · intro e he w hst hw
    cases w with
    | push r => exact absurd hw (h e he r hst)
    | _ => exact Bool.and_false _

section
variable {p p' : Pack} {k site q : Nat} {x : QReq}

/-- The first request of a kind at a queue whose engine has no other. -/
theorem serveFirst_one {op : Op} (hops : (p.g k).qops = [x]) (hsite : x.site = site) (hqid : x.qid = q) (hop : x.r.op = op)
    (hserve : p.serveReq k site q 0 .ok x = (p', true)) :
    p.serveFirst k site q 0 .ok op = (p'.on k (fun g => { g with qops := g.qops.erase x })).look x.r.t := by
  have hmine : [x].filter (fun x => x.site == site && x.qid == q) = [x] := by simp [hsite, hqid]
  have hfind : [x].find? (fun x => x.r.op == op) = some x := by simp [hop]
  have hfront : [x].any (fun y => y.r.t == x.r.t && decide (y.seq < x.seq)) = false := by simp
  unfold Pack.serveFirst
  dsimp only
  rw [hops, hmine, hfind]
  dsimp only
  rw [hfront, hserve]
  rfl

/-- The unit's credits of a queue grow by what was granted. -/
def Pkg.granted (g : Pkg) (t : Tid) (pos q n : Nat) : Pkg :=
  (g.setCredits t.site t.unit pos q (g.credits t.site t.unit pos q + n)).book 1 t.site n

/-- What a grant of credits leaves of its package (R153). -/
def Pkg.ctaken (g : Pkg) (site q : Nat) (x : QReq) : Pkg :=
  ((g.setCred site q (g.avail site q - x.n) (g.outc site q + x.n)).release x.r.t.key x.r.f.d.toNat true).granted x.r.t g.pos q x.n

theorem Pkg.ctaken_eq (g : Pkg) (site q : Nat) {x : QReq} (h : 0 < x.n) : ∃ c b, g.ctaken site q x =
    { (g.setCred site q (g.avail site q - x.n) (g.outc site q + x.n)).release x.r.t.key x.r.f.d.toNat true with ctab := c, booked := b } := by
  rw [Pkg.ctaken, Pkg.granted, Pkg.setCredits_pos _ (by omega)]
  exact ⟨_, _, rfl⟩

theorem serveReq_ctake (hqeng : (p.g k).qengOn site = true) (hst : (p.g k).qState site q = 1) (hop : x.r.op = .ctake) (hpkg : x.r.t.pkg = k)
    (hprod : (p.g k).qProd site q = 0) (hn : x.n ≤ (p.g k).qSize site q) (havail : x.n ≤ (p.g k).avail site q)
    (htab : (p.g k).credRoom x.r.t.site x.r.t.unit (p.g k).pos q = true) (hpos : 0 < x.n)
    (hpush : (p.g k).waiters (fun _ w => match w with | .push _ => true | _ => false) = []) :
    p.serveReq k site q 0 .ok x = (p.on k (fun g => g.ctaken site q x), true) := by
  have hno : ¬ ((p.g k).avail site q < x.n ∨ (!(p.g k).credRoom x.r.t.site x.r.t.unit (p.g k).pos q) = true) := by
    rw [htab]
    simp [Nat.not_lt.mpr havail]
  have hnone : ∀ e ∈ ((p.on k (fun g => g.ctaken site q x)).g k).thr, ∀ r, e.2.st = .wait → e.2.wait ≠ some (.push r) := by
    obtain ⟨c, b, htaken⟩ := (p.g k).ctaken_eq site q hpos
    rw [Pack.on_g_self, htaken]
    intro e he r hst hw
    rcases mem_mins_entry he with he | he
    · rw [he] at hst
      cases hst
    · exact Bool.noConfusion (show true = false from of_waiters_nil hpush e he (.push r) hst hw)
  unfold Pack.serveReq
  simp only [hop, reqFault_none hqeng hst, Pkg.qOperand, hn, hprod, hpkg, show (Op.ctake == Op.qpush) = false from rfl, Bool.false_eq_true, if_false,
    decide_true, Bool.true_and, show ((0 : Nat) == 0) = true from rfl, Bool.not_true]
  rw [if_neg hno]
  refine congrArg (·, true) ?_
  rw [if_pos trivial]
  change (((p.on k _).on x.r.t.pkg _).on x.r.t.pkg _).pushWaiters x.r.t.pkg _ _ = _
  rw [hpkg, Pack.on_on, Pack.on_on]
  refine Eq.trans (congrArg (fun s : Pack => s.pushWaiters k x.r.t.site x.r.t.unit) (Pack.on_congr rfl)) (pushWaiters_none hnone)

/-- What a pop leaves of its package (R131, R148). -/
def Pkg.popped (g : Pkg) (site q : Nat) (x : QReq) : Pkg :=
  (g.indexed site q { g.ix site q with c := ((g.ix site q).c + x.n) % 65536 }).release x.r.t.key x.r.f.d.toNat true

theorem serveReq_qpop {l : Loc} (h : (p.g k).Running site q) (hop : x.r.op = .qpop) (hpkg : x.r.t.pkg = k) (hn : x.n ≤ (p.g k).qSize site q)
    (hready : x.n ≤ ringDist ((p.g k).ix site q).p ((p.g k).ix site q).c)
    (hchk : ∀ e ∈ p.ringRead k site q x.n ((p.g k).ix site q).c, chkOk q e.1 e.2 = true)
    (hspan : p.engSpan k x.r.t.site (x.r.v.getD 0 0).toNat (64 * x.n) = some l) (hcnt : x.r.f.i 31 26 = 0) :
    p.serveReq k site q 0 .ok x =
      ((p.store l ((p.ringRead k site q x.n ((p.g k).ix site q).c).flatMap (·.2))).on k (fun g => g.popped site q x), true) := by
  obtain ⟨hqeng, hst, hinput, hok⟩ := h
  let p1 := p.store l ((p.ringRead k site q x.n ((p.g k).ix site q).c).flatMap (·.2))
  have hmove := moveIx_ok (p := p1) (k := k) (Ix.pop_ok ((p.g k).ix_fits site q) hok hready)
  have hfind : (p.ringRead k site q x.n ((p.g k).ix site q).c).find? (fun e => !chkOk q e.1 e.2) = none := by
    rw [List.find?_eq_none]
    intro e he
    rw [hchk e he]
    exact Bool.false_ne_true
  have hnoread : (decide (((p.g k).ix site q).ready < x.n) || ((p.g k).qInput site q && ((p.g k).phase == 1 || (p.g k).pr.commit.isSome))) = false := by
    rw [hinput]
    rw [Ix.ready, decide_eq_false (Nat.not_lt.mpr hready)]
    rfl
  have hstate : ((p1.on k (fun g => g.indexed site q { (p.g k).ix site q with c := (((p.g k).ix site q).c + x.n) % 65536 })).g k).qState site q = 1 := by
    rw [Pack.on_g_self, Pkg.indexed_qState]
    exact hst
  have hcomplete (g : Pkg) : g.complete x.r.t x.r.f = g := by
    rw [Pkg.complete, Fields.tcnt, hcnt]
    rfl
  unfold Pack.serveReq
  simp only [hop, reqFault_none hqeng hst, Pkg.qOperand, hn, hpkg, show (Op.qpop == Op.qpush) = false from rfl, Bool.false_eq_true, if_false,
    decide_true, Bool.not_true, hnoread, Pack.eccAt, hfind, hspan]
  rw [if_neg nofun, show (p.store l _).moveIx k site q 0 _ = _ from hmove, if_neg (not_not_intro hstate)]
  refine congrArg (·, true) ?_
  simp only [hcomplete, Pack.releaseT, hpkg, Pack.on_on]
  exact Pack.on_congr rfl
end

section
variable {s : State} {k site q : Nat} {x : QReq}

/-- The pack once a grant has served the one request of its die, whose thread it lets go on. -/
theorem leaves_granted {op : Op} {c : Instr} {P : Pack → Prop} {p : Pack} {h : Pkg → Pkg} {y : Thread}
    (hc : exec c s = .next (s.onPack (fun p => p.atHub k (fun p => p.serveFirst k site q 0 .ok op)))) (hup : (s.pack.g k).hubUp = true)
    (hops : (s.pack.g k).qops = [x]) (hsite : x.site = site) (hqid : x.qid = q) (hop : x.r.op = op) (hpkg : x.r.t.pkg = k)
    (hserve : s.pack.serveReq k site q 0 .ok x = (p.on k h, true)) (hg : p.g k = s.pack.g k) (hqops : (h (s.pack.g k)).qops = [x])
    (hth : (h (s.pack.g k)).th x.r.t = y) (hready : y.st = .ready)
    (hP : ∀ p' : Pack, (∀ {α : Type} (F : Pkg → α), (∀ (g : Pkg) l, F { g with qops := l } = F g) → F (p'.g k) = F (h (s.pack.g k))) →
      (p'.g k).qops = [] → p'.mem = p.mem → P p') : Leaves c s P := by
  have hon : (p.on k h).g k = h (s.pack.g k) := by rw [Pack.on_g_self, hg]
  have hgo : ((((p.on k h).on k (fun g => { g with qops := g.qops.erase x })).g x.r.t.pkg).th x.r.t).st ≠ .wait := by
    rw [hpkg, Pack.on_keeps (P := fun g => g.th x.r.t) _ k k rfl, hon, hth, hready]
    exact nofun
  refine ⟨_, gives_of_atHub hc hup (serveFirst_one hops hsite hqid hop hserve), hP _ (fun F hF => ?_) ?_ (look_mem ..)⟩
  · rw [look_going (P := F) hgo, Pack.on_g_self, hF, hon]
  · rw [look_going (P := Pkg.qops) hgo, Pack.on_g_self, hon, hqops]
    simp

theorem leaves_ctakeGrant (hup : (s.pack.g k).hubUp = true) (hops : (s.pack.g k).qops = [x]) (hsite : x.site = site) (hqid : x.qid = q)
    (hop : x.r.op = .ctake) (hpkg : x.r.t.pkg = k) (hpd : x.r.f.d.toNat < 8) (hqeng : (s.pack.g k).qengOn site = true)
    (hst : (s.pack.g k).qState site q = 1) (hprod : (s.pack.g k).qProd site q = 0) (hn : x.n ≤ (s.pack.g k).qSize site q)
    (havail : x.n ≤ (s.pack.g k).avail site q) (htab : (s.pack.g k).credRoom x.r.t.site x.r.t.unit (s.pack.g k).pos q = true)
    (hout : (s.pack.g k).outc site q + x.n < 65536) (hpos : 0 < x.n)
    (hpush : (s.pack.g k).waiters (fun _ w => match w with | .push _ => true | _ => false) = []) :
    Leaves (.ctakeGrant k site q) s (fun p =>
      (p.g k).avail site q = (s.pack.g k).avail site q - x.n ∧ (p.g k).outc site q = (s.pack.g k).outc site q + x.n ∧
      (p.g k).credits x.r.t.site x.r.t.unit (s.pack.g k).pos q = (s.pack.g k).credits x.r.t.site x.r.t.unit (s.pack.g k).pos q + x.n ∧
      (p.g k).qops = [] ∧ ((p.g k).th x.r.t).pred x.r.f.d.toNat = true ∧ ((p.g k).th x.r.t).st = .ready ∧
      ((p.g k).th x.r.t).pc = ((s.pack.g k).th x.r.t).pc + 1 ∧ p.mem = s.pack.mem) := by
  have havail' : (s.pack.g k).avail site q - x.n < 65536 := (Nat.sub_le ..).trans_lt (fld_15_lt _)
  obtain ⟨c, b, htaken⟩ := (s.pack.g k).ctaken_eq site q hpos
  have hth : ((s.pack.g k).ctaken site q x).th x.r.t = (((s.pack.g k).th x.r.t).setPred x.r.f.d.toNat true).adv := by
    rw [htaken]
    exact mget_mins_self ..
  obtain ⟨hpred, hready, hpc⟩ := answered ((s.pack.g k).th x.r.t) hpd
  refine leaves_granted (op := .ctake) (p := s.pack) (h := fun g => g.ctaken site q x) rfl hup hops hsite hqid hop hpkg
    (serveReq_ctake hqeng hst hop hpkg hprod hn havail htab hpos hpush) rfl (by rw [htaken]; exact hops) hth hready
    fun p' hkeep hqops hmem => ⟨?_, ?_, ?_, hqops, ?_, ?_, ?_, hmem⟩
  · rw [hkeep (fun g => g.avail site q) (fun _ _ => rfl), htaken]
    exact Pkg.setCred_avail _ _ _ _ _ havail'
  · rw [hkeep (fun g => g.outc site q) (fun _ _ => rfl), htaken]
    exact Pkg.setCred_outc _ _ _ _ _ havail' hout
  · rw [hkeep (fun g => g.credits x.r.t.site x.r.t.unit (s.pack.g k).pos q) (fun _ _ => rfl)]
    exact Pkg.setCredits_credits ..
  all_goals rw [hkeep (fun g => g.th x.r.t) (fun _ _ => rfl), hth]
  · exact hpred
  · exact hready
  · exact hpc

theorem leaves_qpopSatisfied {l : Loc} (hup : (s.pack.g k).hubUp = true) (hops : (s.pack.g k).qops = [x]) (hsite : x.site = site) (hqid : x.qid = q)
    (hop : x.r.op = .qpop) (hpkg : x.r.t.pkg = k) (hpd : x.r.f.d.toNat < 8) (hrun : (s.pack.g k).Running site q)
    (hn : x.n ≤ (s.pack.g k).qSize site q) (hready : x.n ≤ ringDist ((s.pack.g k).ix site q).p ((s.pack.g k).ix site q).c)
    (hchk : ∀ e ∈ s.pack.ringRead k site q x.n ((s.pack.g k).ix site q).c, chkOk q e.1 e.2 = true)
    (hspan : s.pack.engSpan k x.r.t.site (x.r.v.getD 0 0).toNat (64 * x.n) = some l) (hcnt : x.r.f.i 31 26 = 0) :
    Leaves (.qpopSatisfied k site q (0, .ok)) s (fun p =>
      p.mem = memWrN s.pack.mem ((s.pack.g l.pk).ringLoc l).key ((s.pack.ringRead k site q x.n ((s.pack.g k).ix site q).c).flatMap (·.2)) ∧
      (p.g k).ix site q = { (s.pack.g k).ix site q with c := (((s.pack.g k).ix site q).c + x.n) % 65536 } ∧ (p.g k).qops = [] ∧
      ((p.g k).th x.r.t).pred x.r.f.d.toNat = true ∧ ((p.g k).th x.r.t).st = .ready ∧ ((p.g k).th x.r.t).pc = ((s.pack.g k).th x.r.t).pc + 1) := by
  obtain ⟨hp, hc, hm, hl⟩ := (s.pack.g k).ix_fits site q
  have hth : ((s.pack.g k).popped site q x).th x.r.t = (((s.pack.g k).th x.r.t).setPred x.r.f.d.toNat true).adv := mget_mins_self ..
  obtain ⟨hpred, hgo, hpc⟩ := answered ((s.pack.g k).th x.r.t) hpd
  refine leaves_granted (op := .qpop) (h := fun g => g.popped site q x) rfl hup hops hsite hqid hop hpkg
    (serveReq_qpop hrun hop hpkg hn hready hchk hspan hcnt) rfl hops hth hgo fun p' hkeep hqops hmem => ⟨hmem, ?_, hqops, ?_, ?_, ?_⟩
  · rw [hkeep (fun g => g.ix site q) (fun _ _ => rfl)]
    exact Pkg.indexed_ix _ _ _ _ ⟨hp, Nat.mod_lt _ (by decide), hm, hl⟩
  all_goals rw [hkeep (fun g => g.th x.r.t) (fun _ _ => rfl), hth]
  · exact hpred
  · exact hgo
  · exact hpc

/-- The oldest waiting reservation of a stage is made where its conditions hold (R175). -/
theorem gives_kreserveGrant {j key mbid n pd : Nat} {r : List Nat} (hup : (s.pack.g k).hubUp = true) (hj : j < 8) (hpipe : (s.pack.g k).pipeOn = true)
    (hline : (s.pack.g k).kLine j = key :: r) (hwait : (mget ({} : Thread) (s.pack.g k).thr key).wait = some (.kres j mbid n pd))
    (hgrant : (s.pack.g k).kGrantOk j ((n + 4095) / 4096) = true) (hheld : (s.pack.g k).mbHeld mbid = false) :
    Gives (.kreserveGrant k j) s (s.pack.on k (fun g => (g.kGrant j mbid ((n + 4095) / 4096)).release key pd true)) := by
  refine gives_of_atHub (h := fun p => p.on k (fun g => g.kGrantNext j)) rfl hup (Pack.on_congr ?_)
  simp only [Pkg.kGrantNext, hpipe, hj, decide_true, Bool.and_self, if_true, Pkg.kServe, hline, hwait, granules, hgrant, hheld, Bool.not_false]

/-- A thread that waits for room hands its operation over. -/
theorem leaves_engineQueueRoom {t : Tid} {r : OpRec} {pd : Nat} {tm : Option Nat} (hup : (s.pack.g t.pkg).hubUp = true)
    (hst : ((s.pack.g t.pkg).th t).st = .wait) (hwait : ((s.pack.g t.pkg).th t).wait = some (.room r pd tm)) (hfree : (s.pack.g t.pkg).issueHeld = false)
    (hq : queueOp r.op = false) (hop : r.op ≠ .contrib) (hroom : (s.pack.g t.pkg).room r = true)
    (hturn : ∀ y ∈ (s.pack.g t.pkg).roomWaits.takeWhile (fun y => !(y == r)), sameInput r y = false) :
    Gives (.engineQueueRoom t) s (s.pack.on t.pkg (fun g => (g.handOver r).onTh t Thread.adv)) := by
  have hall : ((s.pack.g t.pkg).roomWaits.takeWhile (fun x => !(x == r))).all (fun x => !sameInput r x) = true :=
    List.all_eq_true.mpr fun y hy => by rw [hturn y hy]; rfl
  refine gives_of_atHub (h := fun p => p.queueRoom t) rfl hup ?_
  simp only [Pack.queueRoom, hst, hwait, hfree, hq, hroom, hall, Bool.false_eq_true, if_false, Bool.and_self, if_true]
  exact if_neg (by simpa using hop)

/-- A queue instruction that waits for room issues again. -/
theorem gives_engineQueueRoom_queue {t : Tid} {r : OpRec} {pd pos q pk hs : Nat} {tm : Option Nat} (hup : (s.pack.g t.pkg).hubUp = true)
    (hst : ((s.pack.g t.pkg).th t).st = .wait) (hwait : ((s.pack.g t.pkg).th t).wait = some (.room r pd tm)) (hfree : (s.pack.g t.pkg).issueHeld = false)
    (hq : queueOp r.op = true) (hto : s.pack.queueTo t (((s.pack.g t.pkg).th t).s r.f.b.toNat) = some (pos, q, pk, hs))
    (hroom : (s.pack.g pk).engRoom hs = true) : Gives (.engineQueueRoom t) s (s.pack.on t.pkg (fun g => g.retry t.key)) := by
  refine gives_of_atHub (h := fun p => p.queueRoom t) rfl hup ?_
  simp only [Pack.queueRoom, hst, hwait, hfree, hq, hto, hroom, Bool.false_eq_true, if_false, if_true]
end

/-- Settles O24: one request alone at its die's engine, each kind by what it does at its queue; then each grant. -/
theorem queueService : Obligations.QueueService := by
  refine ⟨?_, ?_, ?_, ?_, ?_⟩
  · intro s k site q x g i t hup hops hsite hqid hq hdie hqeng hst hinput _ hok _ hdq hresume
    have hone : OneRequest s k site q x := ⟨hup, hops, hsite, hqid, ⟨hqeng, hst, hinput, hok⟩, hdq, hresume⟩
    obtain ⟨hp, hc, hm, hl⟩ := g.ix_fits site q
    refine ⟨fun hop => hone.leaves_moved ⟨hp, hc, hc, hl⟩ (.inl hop) (serveReq_qmark hone.run hop),
      fun hop => hone.leaves_moved ⟨hp, hm, hm, hl⟩ (.inr hop) (serveReq_qrewind hone.run hop),
      fun hop hn havail => ?_, fun l hop hn hwrites hpkg hspan hroom hout => ?_, fun hop hpkg hth hwait => hone.leaves_counted hop hpkg hth hwait⟩
    · obtain ⟨p, hgives, hix, hleft, hnone, hmem⟩ := hone.leaves_released hop hn havail
      exact ⟨p, hgives, by rw [hix]; rfl, by rw [hix]; rfl, by rw [hix]; rfl, hleft, hnone, hmem⟩
    · obtain ⟨p, hgives, hmem, hix, houtc, havail, hnone⟩ := hone.leaves_pushed hq hdie hop hn hwrites hpkg hspan hroom
      exact ⟨p, hgives, hmem, by rw [hix], by rw [hix], houtc, havail, hnone⟩
  · intro s k site q x g t held hup hops hsite hqid hop hpkg hpd hqeng hst hprod hn havail htab hout hpos hpush
    have hheld : held = g.credits t.site t.unit g.pos q := by
      change (s.pack.g t.pkg).credits _ _ _ _ = _
      rw [show t.pkg = k from hpkg]
    rw [hheld]
    exact leaves_ctakeGrant hup hops hsite hqid hop hpkg hpd hqeng hst hprod hn havail htab hout hpos hpush
  · intro s k site q x l g t i es hup hops hsite hqid hop hpkg hpd hq hdie hqeng hst hinput hn hready _ hok _ hchk hspan hcnt
    obtain ⟨p, hgives, hmem, hix, hrest⟩ :=
      leaves_qpopSatisfied hup hops hsite hqid hop hpkg hpd ⟨hqeng, hst, hinput, hok⟩ hn hready hchk hspan hcnt
    exact ⟨p, hgives, hmem, by rw [hix], by rw [hix], hrest⟩
  · intro s k j key mbid n pd r g hup hj hpipe hline hwait hgrant hheld
    exact gives_kreserveGrant hup hj hpipe hline hwait hgrant hheld
  · intro s t r pd tm g hup hst hwait hfree
    refine ⟨fun hq hop hroom hturn => ⟨_, leaves_engineQueueRoom hup hst hwait hfree hq hop hroom hturn, ?_, ?_, rfl⟩,
      fun pos q pk hs hq hto hroom => gives_engineQueueRoom_queue hup hst hwait hfree hq hto hroom⟩
    · rw [Pack.on_g_self, Pkg.handOver]
      cases r.toArray <;> rfl
    · rw [Pack.thread, Pack.on_g_self]
      refine (Pkg.setTh_th_self ..).trans ?_
      rw [Pkg.handOver]
      split <;> rfl

end Sys2Proof.Machine
end

section
/-! PROOFS. A COMMIT that names a group beyond the 64. -/

namespace Sys2Proof.Machine

/-! ## A COMMIT with the norm of a group that is none of the 64 -/

/-- COMMIT of step 5 with the norm of group 64, whose NORM would stand where QMAP of QID 15 does; the list of a COMMIT holds any group. -/
def farCommit : CommitMsg := { step := 5, epoch := 1, scales := [], vsum := [], norms := [{ group := 64, norm := 0x40, fclip := 0 }] }

/-- A member in APPLY whose delta stream names queue 15: enabled at die 0, with credits, but without a home in QMAP. -/
def farMember : Pkg :=
  let g := (((sampleOn.wr rPackId 0x40).wr rSealStep 4).setPhase 2).wr (rProt 0x10) 15
  let g := ((g.wr (rQmap 0) 0x20000000).wr (rQ 0 15 0) 0xA0440000).wr (rQ 0 15 8) 0x00020000
  { g.setCred 0 15 4 0 with pr := { commit := some farCommit } }

/-- Refutes O41: the NORM of group 64 gives the queue of the delta stream a home, and the apply then pushes its SEAL record into that queue's ring in memory. -/
theorem not_sealAtAMember : ¬ Obligations.SealAtAMember := by
  intro h
  obtain ⟨-, -, -, -, -, -, happly⟩ := h (alone farMember) 0 farCommit (by decide +kernel)
  obtain ⟨-, -, -, -, -, -, -, hmem⟩ := (happly (by decide +kernel) (by decide +kernel) (by decide +kernel) (by decide +kernel)
    (by decide +kernel) (by decide +kernel) (by decide +kernel) (by decide +kernel) (by decide +kernel) (by decide +kernel) (by decide +kernel)).after
  exact absurd hmem (by decide +kernel)

end Sys2Proof.Machine
end

section
/-! PROOFS. A takeover that discards a QPUSH whose record names a site without queues. -/

namespace Sys2Proof.Machine

/-! ## A QPUSH in flight whose record names a site without queues -/

section
variable {s : Pack} {k j : Nat}

/-- The pack of a takeover by spare entry `e`, whose package is `j`, before the cut is restored: the spare is named, the next epoch applied, routes and configuration set (R349, R350). -/
def Pack.spareJoins (s : Pack) (k p e j : Nat) : Pack :=
  let g := s.g k
  let ep := (g.epoch + 1) % 65536
  let s := s.on k (fun g => ((g.wb (rSpare e 8) 30 true).wf (rProt 4) 25 20 p).setTake 3)
  let s := (s.on j (fun h =>
    let h := h.wr rPackId (setF (setB (h.rd rPackId) 6 true) 5 0 p)
    let h := (h.wr64 rMemLo rMemHi g.mem).wf rPackEpoch 15 0 g.epoch
    h.wf rPackStat 15 10 g.pos)).raisePorts j
  let mm : MemberMsg := { epoch := ep, mem := g.mem, links := s.linkCounts g.mem (some (p, j)) }
  let s := s.onMembers k (fun h => h.takeMember mm)
  let s := s.on j (fun h => if h.epoch = ep then h else h.takeMember mm)
  let s := s.onMembers k (fun h => { h with pr := { h.pr with gone := (g.pr.gone &&& g.mem) ^^^ 2 ^ p } })
  let s := s.on k (fun h => { h with ld := { h.ld with push := h.ld.push.filter (· != p) ++ [p] } })
  let s := s.raisePorts j
  let s := s.routes k
  s.on j (fun h => { (h.copyRegs g.regs sharedReg) with pr := { h.pr with modes := g.pr.modes } })

/-- What follows the restored cut at the spare: rebuilding, verifying, and the leader's record of it (R350). -/
def Pack.spareSettles (s : Pack) (k j : Nat) : Pack :=
  let s := s.on j Pkg.svCurOnly
  let x := s.rebuildAll j
  if x.2.2 then (x.1.on k (fun g => g.wb (rProt 4) 28 true)).haltAll k 8
  else
    let s := x.1.rebuildParity j
    let s := s.on j (fun h => { h with pr := { h.pr with hostBlocks := x.2.1 } })
    if x.2.1.isEmpty && !s.owesHost k then
      (if s.verifyAll j then s.on k (fun g => g.setTake 7) else s.verifyFail k [j])
    else s.on k (fun g => (g.setTake 5).wb (rProt 4) 28 true)

/-- A takeover with a cut of the host's, where no mirror holds one. -/
theorem takeover_hostCut {e p : Nat} {c : Cut} (hleads : (s.g k).leads = true) (hlost : (s.g k).pr.gone &&& (s.g k).mem ≠ 0)
    (htk : (s.g k).autotk = true) (hrev : (s.g k).ld.reverting = []) (hphase : (s.g k).phase = 3) (hp : lowest ((s.g k).pr.gone &&& (s.g k).mem) = p)
    (hmirror : s.mirrorCut k p (s.g k).sealed = none) (hspare : s.chooseSpare k c.floor = some (e, j))
    (hmirror' : (s.spareJoins k p e j).mirrorCut k p (s.g k).sealed = none) (hcut : c.step = (s.g k).sealed ∧ c.pos = p) :
    s.takeover k (some c) = ((s.spareJoins k p e j).restoreCut j c).spareSettles k j := by
  have hgo : ¬ (!(s.g k).leads ∨ (s.g k).pr.gone &&& (s.g k).mem = 0 ∨ !(s.g k).autotk ∨ !(s.g k).ld.reverting.isEmpty ∨ (s.g k).phase ≠ 3) := by
    simp [hleads, hlost, htk, hrev, hphase]
  unfold Pack.takeover
  extract_lets +onlyGivenNames g lost
  rw [if_neg hgo]
  extract_lets +onlyGivenNames p' need
  obtain rfl : p' = p := hp
  have hneed : need = c.floor := by
    show (match s.mirrorCut k p' g.sealed, some c with | some (.inl c), _ => c.floor | some (.inr x), _ => x.1.floor | none, some c => c.floor | none, none => 0) = _
    rw [hmirror]
  rw [hneed, hspare]
  dsimp -zeta only
  extract_lets +onlyGivenNames ep s1 s2 mm s3 s4 s5 s6 s7 s8 s9 r
  have hr : r = some (s9.restoreCut j c) := by
    show (match s9.mirrorCut k p' g.sealed, some c with | some (.inl c), _ => _ | some (.inr x), _ => _ | none, some c => _ | none, none => none) = _
    rw [show s9.mirrorCut k p' g.sealed = none from hmirror']
    exact if_pos hcut
  rw [hr, show s.spareJoins k p' e j = s9 from rfl]
  clear_value r s9
  rfl

/-- A package that takes a cut in, quiesced and with the registers of the cut written back (R352). -/
def Pack.cutWritten (s : Pack) (j : Nat) (c : Cut) : Pack :=
  (s.quiesce j).on j (fun g =>
    let g := g.mbtReset.armsClear
    let g := { g with ctab := [], tr := { passes := g.tr.passes } }
    let g := g.collRevert c.step
    g.copyRegs c.regs cutPlain)

/-- Then its queues between engines are flushed. -/
def Pack.cutFlushed (s : Pack) (j : Nat) : Pack :=
  ((s.g j).liveQueues.filter (fun p => qClass p.2 == 1 || qClass p.2 == 2)).foldl (fun s p => s.qFlush j p.1 p.2) s

/-- What a package takes from a cut after that is its own. -/
theorem restoreCut_g_ne (c : Cut) (hne : k ≠ j) : (s.restoreCut j c).g k = ((s.cutWritten j c).cutFlushed j).g k := by
  unfold Pack.restoreCut
  exact Pack.on_g_ne _ _ hne

@[simp] theorem Pack.digest_g (s : Pack) (k' t n r plane b i : Nat) : (s.digest k' t n r plane b).g i = s.g i := Pack.store_g ..
@[simp] theorem Pack.copyBlock_g (s : Pack) (k1 r1 k2 r2 t n plane b i : Nat) : (s.copyBlock k1 r1 k2 r2 t n plane b).g i = s.g i :=
  (Pack.digest_g ..).trans (Pack.store_g ..)
@[simp] theorem Pack.setSel_g (s : Pack) (k' t j ib v i : Nat) : (s.setSel k' t j ib v).g i = s.g i := Pack.store_g ..

/-! What a package rebuilds is its own: stack memory, and a record of a digest that does not verify (R348, R350) -/

theorem rebuildBlock_g_ne (s : Pack) (t n r i b : Nat) (hne : k ≠ j) : (s.rebuildBlock j t n r i b).1.g k = s.g k := by
  unfold Pack.rebuildBlock
  extract_lets g pl
  split
  case h_1 => exact Pack.copyBlock_g ..
  case h_2 =>
    split
    case isFalse => rfl
    case isTrue =>
      dsimp only
      split
      case h_1 => rfl
      case h_2 =>
        split_ifs
        · rfl
        · exact Pack.on_g_ne _ _ hne
        · exact (Pack.digest_g ..).trans (Pack.store_g ..)

theorem rebuildAll_g_ne (s : Pack) (hne : k ≠ j) : (s.rebuildAll j).1.g k = s.g k := by
  unfold Pack.rebuildAll
  refine foldl_keeps (P := fun a : Pack × List Nat × Bool => a.1.g k) (fun a t => ?_) ..
  refine foldl_keeps (P := fun a : Pack × List Nat × Bool => a.1.g k) (fun a n => ?_) ..
  refine foldl_keeps (P := fun a : Pack × List Nat × Bool => a.1.g k) (fun a i => ?_) ..
  refine foldl_keeps (P := fun a : Pack × List Nat × Bool => a.1.g k) (fun a b => ?_) ..
  dsimp only
  split
  · exact rebuildBlock_g_ne _ _ _ _ _ _ hne
  · split <;> rfl

theorem parityBuild_g_ne (s : Pack) (t i : Nat) (hne : k ≠ j) : (s.parityBuild j t i).g k = s.g k := by
  unfold Pack.parityBuild
  dsimp only
  split
  · rfl
  · rw [Pack.on_g_ne _ _ hne]
    refine foldl_keeps (P := fun a : Pack => a.g k) (fun a i => ?_) ..
    refine foldl_keeps (P := fun a : Pack => a.g k) (fun a b => ?_) ..
    refine (foldl_keeps (P := fun a : Pack => a.g k) (fun a m => ?_) ..).trans ((Pack.setSel_g ..).trans (Pack.store_g ..))
    split
    · rfl
    · exact Pack.store_g ..

theorem rebuildParity_g_ne (s : Pack) (hne : k ≠ j) : (s.rebuildParity j).g k = s.g k := by
  unfold Pack.rebuildParity
  refine foldl_keeps (P := fun a : Pack => a.g k) (fun a t => ?_) ..
  exact foldl_keeps (P := fun a : Pack => a.g k) (fun a i => parityBuild_g_ne a t i hne) ..

/-! A halt -/

/-- What a halt writes beside PHASE and CAUSE: the registers of the error log and the pins. -/
theorem Pkg.halt_rd (g : Pkg) (cause : Nat) {a : Nat} (hstat : a ≠ rSealStat) (hlog : a ∉ [rErrCtl, rErrHead, rErrLost, rPins]) :
    (g.halt cause).rd a = g.rd a := by
  have hphase : (g.setPhase 4).rd a = g.rd a := by
    unfold Pkg.setPhase
    dsimp only
    split <;> exact g.wr_rd_ne _ hstat
  unfold Pkg.halt
  split
  · rfl
  · rw [Pkg.logHub, Pkg.logAt_rd _ _ _ _ _ _ _ _ hlog, Pkg.setCause, Pkg.rd_wf, if_neg hstat, hphase]

theorem haltAll_rd (s : Pack) (cause : Nat) (i : Nat) {a : Nat} (hstat : a ≠ rSealStat) (hlog : a ∉ [rErrCtl, rErrHead, rErrLost, rPins]) :
    ((s.haltAll k cause).g i).rd a = (s.g i).rd a := by
  refine foldl_keeps (P := fun p : Pack => (p.g i).rd a) (fun p m => ?_) ..
  by_cases him : i = m
  · subst him
    rw [Pack.on_g_self, Pkg.halt_rd _ _ hstat hlog]
  · rw [Pack.on_g_ne _ _ him]

theorem verifyFail_rd (s : Pack) {a : Nat} (hne : k ≠ j) (hstat : a ≠ rSealStat) (hlog : a ∉ [rErrCtl, rErrHead, rErrLost, rPins]) :
    ((s.verifyFail k [j]).g k).rd a = (s.g k).rd a := by
  rw [Pack.verifyFail, haltAll_rd _ _ _ hstat hlog, List.foldl_cons, List.foldl_nil]
  exact congrArg (·.rd a) (foldl_keeps (P := fun p : Pack => p.g k) (fun p x => Pack.on_g_ne _ _ hne) ..)

/-- The end of a takeover leaves the leader's registers, but for PROT.STAT and what a halt writes. -/
theorem spareSettles_rd (s : Pack) {a : Nat} (hne : k ≠ j) (hprot : a ≠ rProt 4) (hstat : a ≠ rSealStat)
    (hlog : a ∉ [rErrCtl, rErrHead, rErrLost, rPins]) : ((s.spareSettles k j).g k).rd a = (s.g k).rd a := by
  have hrebuilt : (((s.on j Pkg.svCurOnly).rebuildAll j).1.g k) = s.g k := (rebuildAll_g_ne _ hne).trans (Pack.on_g_ne _ _ hne)
  unfold Pack.spareSettles
  dsimp only
  split
  · rw [haltAll_rd _ _ _ hstat hlog, Pack.on_g_self, Pkg.rd_wb, if_neg hprot, hrebuilt]
  · have hparity (l : List Nat) : (((((s.on j Pkg.svCurOnly).rebuildAll j).1.rebuildParity j).on j
        (fun h => { h with pr := { h.pr with hostBlocks := l } })).g k) = s.g k := by
      rw [Pack.on_g_ne _ _ hne, rebuildParity_g_ne _ hne, hrebuilt]
    split
    · split
      · rw [Pack.on_g_self, hparity, Pkg.setTake, Pkg.rd_wf, if_neg hprot]
      · rw [verifyFail_rd _ hne hstat hlog, hparity]
    · rw [Pack.on_g_self, hparity, Pkg.rd_wb, if_neg hprot, Pkg.setTake, Pkg.rd_wf, if_neg hprot]
end

theorem after_spareTakeover {s : State} {k : Nat} {c : Option Cut} (hup : (s.pack.g k).hubUp = true) :
    after (.spareTakeover k c) s = s.pack.takeover k c :=
  if_pos hup

/-! Writes of hub registers give a package no live queue -/

section
variable {g : Pkg}

/-- No CFG word of a queue reads EN. -/
def Pkg.noQueueOn (g : Pkg) : Prop :=
  ∀ p ∈ g.regs, hubR 0 ≤ p.1 ∨ p.1 % 0x100000 < 0x80000 ∨ 0xC0000 ≤ p.1 % 0x100000 ∨ bit p.2 31 = false

theorem wr_noQueueOn {a : Nat} (w : W32) (h : g.noQueueOn) (ha : hubR 0 ≤ a) : (g.wr a w).noQueueOn := by
  intro p hp
  obtain rfl | hp := mem_mins_entry hp
  · exact .inl ha
  · exact h p hp

theorem hubR_zero_le (off : Nat) : hubR 0 ≤ hubR off := by rw [hubR, hubR, rk, rk]; omega

theorem foldl_noQueueOn {α : Type} {f : Pkg → α → Pkg} (hf : ∀ g x, g.noQueueOn → (f g x).noQueueOn) (l : List α) (h : g.noQueueOn) :
    (l.foldl f g).noQueueOn :=
  List.foldlRecOn l f h fun g hg x _ => hf g x hg

theorem kFree_noQueueOn (n : Nat) (h : g.noQueueOn) : (g.kFree n).noQueueOn := by
  have hheld : ∀ g' : Pkg, g'.noQueueOn → ((g'.wr (rMbt n 0) (setB (setF (g'.rd (rMbt n 0)) 30 29 0) 18 false)).wf (rMbt n 0x10) 26 0 0
      |>.wr (rMbt n 0xC) 0xFFFFFFFF#32).noQueueOn := fun g' hg' =>
    wr_noQueueOn _ (wr_noQueueOn _ (wr_noQueueOn _ hg' (hubR_zero_le _)) (hubR_zero_le _)) (hubR_zero_le _)
  unfold Pkg.kFree
  extract_lets j m g' c
  refine hheld g' ?_
  show (if g.mbHeld n then _ else g : Pkg).noQueueOn
  split
  · exact wr_noQueueOn (g := g.wf (rStage j 0x14) 9 0 (g.stInfl j - 1)) _ (wr_noQueueOn _ h (hubR_zero_le _)) (hubR_zero_le _)
  · exact h

theorem mbtReset_noQueueOn (h : g.noQueueOn) : g.mbtReset.noQueueOn := by
  refine foldl_noQueueOn (fun g n hg => ?_) _ h
  refine foldl_noQueueOn (fun g o hg => wr_noQueueOn _ hg (hubR_zero_le _)) _ ?_
  split
  · exact wr_noQueueOn _ (kFree_noQueueOn n hg) (hubR_zero_le _)
  · exact kFree_noQueueOn n hg

theorem collRevert_noQueueOn (step : Nat) (h : g.noQueueOn) : (g.collRevert step).noQueueOn := by
  unfold Pkg.collRevert
  refine foldl_noQueueOn (fun g j hg => ?_) _ (?_ : Pkg.noQueueOn (List.foldl _ g g.co.inb))
  · split
    · have hstep := wr_noQueueOn (a := rColl j 0x1C) (mk32 step) hg (hubR_zero_le _)
      dsimp only
      split
      · exact wr_noQueueOn _ (wr_noQueueOn _ hstep (hubR_zero_le _)) (hubR_zero_le _)
      · exact hstep
    · exact hg
  · refine foldl_noQueueOn (fun g x hg => ?_) _ h
    split
    · exact wr_noQueueOn _ hg (hubR_zero_le _)
    · exact hg

/-- What the package's own part of a cut without registers leaves. -/
def Pkg.cutCleared (g : Pkg) (step : Nat) : Pkg :=
  let g := g.armsClear
  let g := { g with ctab := [], tr := { passes := g.tr.passes } }
  let g := g.collRevert step
  g.copyRegs [] cutPlain

theorem cutCleared_noQueueOn (step : Nat) (h : g.noQueueOn) : (g.cutCleared step).noQueueOn := by
  have hnil : ∀ g : Pkg, g.copyRegs [] cutPlain = g := fun _ => rfl
  rw [Pkg.cutCleared, hnil]
  exact collRevert_noQueueOn step h

theorem liveQueues_of_noQueueOn (h : g.noQueueOn) : g.liveQueues = [] := by
  refine List.filterMap_eq_nil_iff.2 fun p hp => if_neg fun ⟨hsite, hlo, hhi, _, hon⟩ => ?_
  obtain hhub | hlow | hhigh | hoff := h p hp
  · rw [hubR, rk] at hhub
    omega
  · exact absurd hlo (Nat.not_le.2 hlow)
  · exact absurd hhi (Nat.not_lt.2 hhigh)
  · exact absurd (hoff.symm.trans hon) (by decide)
end

/-- A QPUSH of package 2 whose record names queue 12289 of site 61: the register of its credits would stand where SPCTL1 does. -/
def strayPush : QReq :=
  { seq := 0, site := 61, qid := 12289, n := 0x4000,
    r := { seq := 0, t := { thread0 with pkg := 2 }, pc := 0, op := .qpush, f := { d := 0, a := 0, b := 0, c := 0, gn := false, gp := 0, imm := 0 },
           td := {}, ta := {}, tb := {}, tc := {}, v := [] } }

/-- The leader of positions 0 and 1, held with position 1 lost; spare entry 1 names package 2 behind its own port 0. -/
def takeoverLeader : Pkg :=
  let g := ((((sampleOn.wr rMemLo 3).wr (rProt 0) 0x10000000).setPhase 3).wr (rSpare 1 8) 0x80000000).wr (rPort 0 4) 0x80000000
  { g with pr := { gone := 2 }, links := [(0, { peer := some (2, 0) })], qops := [strayPush] }
def takeoverState : State := { pack := { pkgs := [(0, takeoverLeader), (2, (sampleOn.wr rPackId 0).wr rMemLo 0)] }, pending := [] }
def hostsCut : Cut := { step := 0, epoch := 1, pos := 1, serial := 0, floor := 0, commit := none, regs := [], strm := [] }

def takeoverJoined : Pack := takeoverState.pack.spareJoins 0 1 1 2
def takeoverQuiesced : Pack := takeoverJoined.quiesce 2
def takeoverWritten : Pack :=
  takeoverQuiesced.on 2 (fun g => g.mbtReset.cutCleared 0)

theorem takeoverQuiesced_used : (takeoverQuiesced.g 0).rb (rSpare 1 8) 30 = false := by decide +kernel

theorem takeoverWritten_used : (takeoverWritten.g 0).rb (rSpare 1 8) 30 = false := by
  rw [takeoverWritten, Pack.on_g_ne _ _ (by decide), takeoverQuiesced_used]

theorem takeoverWritten_liveQueues : (takeoverWritten.g 2).liveQueues = [] := by
  have hquiesced : (takeoverQuiesced.g 2).noQueueOn := by unfold Pkg.noQueueOn; decide +kernel
  rw [takeoverWritten, Pack.on_g_self]
  exact liveQueues_of_noQueueOn (cutCleared_noQueueOn 0 (mbtReset_noQueueOn hquiesced))

theorem takeoverWritten_cutFlushed : takeoverWritten.cutFlushed 2 = takeoverWritten := by
  rw [Pack.cutFlushed, takeoverWritten_liveQueues]
  rfl

theorem takeoverState_spare : takeoverState.pack.chooseSpare 0 hostsCut.floor = some (1, 2) := by decide +kernel

/-- The quiesce of the spare gives the stray QPUSH its credits back, and USED of SPCTL1 reads 0. -/
theorem takeover_clears_used : ((takeoverState.pack.takeover 0 (some hostsCut)).g 0).rb (rSpare 1 8) 30 = false := by
  rw [takeover_hostCut (e := 1) (j := 2) (p := 1) (by decide +kernel) (by decide +kernel) (by decide +kernel) (by decide +kernel) (by decide +kernel)
    (by decide +kernel) (by decide +kernel) takeoverState_spare (by decide +kernel) (by decide +kernel)]
  rw [Pkg.rb, spareSettles_rd _ (by decide) (by decide) (by decide) (by decide), restoreCut_g_ne hostsCut (by decide)]
  change ((takeoverWritten.cutFlushed 2).g 0).rb (rSpare 1 8) 30 = false
  rw [takeoverWritten_cutFlushed, takeoverWritten_used]

/-- Refutes O55: a takeover that marks spare entry 1 as used discards a QPUSH whose record names queue 12289 of site 61; its credits go back into that entry's control word, where USED then reads 0. -/
theorem not_protectionAndTakeover : ¬ Obligations.ProtectionAndTakeover := by
  intro h
  obtain ⟨hup, -⟩ := h takeoverState 0 0 0 0 0 0 1 2 { src := 0, dst := 0, dq := 0, qk := 0, idx := 0, body := .eos { step := 0, tensor := 0, root := 0 } }
    { step := 0, tensor := 0, group := 0, member := 0, plane := 0, block := 0, delta := [], digest := 0 } .husk 0 hostsCut { pos := 0, step := 0, cons := [] } none
  obtain ⟨-, -, -, -, -, htake⟩ := hup (by decide +kernel)
  obtain ⟨-, hspare⟩ := htake (by decide +kernel) (by decide +kernel) (by decide +kernel) (by decide +kernel) (by decide +kernel) (by decide +kernel)
    (by decide +kernel)
  obtain ⟨p, hgives, hused, -⟩ := hspare (by decide +kernel) takeoverState_spare
  rw [← hgives.after_eq, after_spareTakeover (by decide +kernel)] at hused
  exact absurd (hused.symm.trans takeover_clears_used) (by decide)

end Sys2Proof.Machine
end

section
/-! PROOFS. A posted OFF that no BUSY bit covers. -/

namespace Sys2Proof.Machine

/-! ## A posted OFF that no BUSY bit covers -/

/-- A package in S1 whose posted write of PWR.CMD, OFF with FORCE, waits while BUSY of the power block reads 0. -/
def strayOff : Pkg :=
  { hk := { state := 1 }, posts := [{ key := rPwr 0, site := 62, off := 0x14008, v := 0x38000000, x := {} }] }
def strayOffState : State := { pack := { pkgs := [(0, strayOff)], mem := [(0, 5)] }, pending := [] }

/-- The MCTP write of PLIM waits until BUSY clears, and the OFF lands with it. -/
theorem strayOff_wipes : (after (.mctpWrite 0 0x14004 2000) strayOffState).mem = [] := by decide +kernel

/-- Refutes O57: an MCTP write of PWR.LIMIT completes every posted write of the power block's key, and an OFF among them wipes the package's memory. -/
theorem not_responders : ¬ Obligations.Responders := by
  intro h
  obtain ⟨-, hmctp⟩ := h strayOffState 0 0 0 0 0x14004 0 0 [] [] 2000 .pwr 0
  obtain ⟨-, -, -, -, -, -, -, -, -, -, -, hplim, -⟩ := hmctp (by decide)
  have hmem := (hplim rfl (.inl (by decide +kernel)) (by decide +kernel) (by decide) (by decide)).after.2.2
  exact absurd (strayOff_wipes.symm.trans hmem) (by decide)

end Sys2Proof.Machine
end

section
/-! PROOFS. The seal at its leader: the phase of the seal, the members of a pack, COMMIT, RESUME and SEAL.CTL; O42 -/

namespace Sys2Proof.Machine

/-! ## Fields of a register after a write of a field -/

section
variable (g : Pkg) {a b hi lo hi' lo' : Nat} (v : Nat)

theorem Pkg.rf_wf_same (hlo : lo ≤ hi) (hhi : hi < 32) : (g.wf a hi lo v).rf a hi lo = v % 2 ^ (hi + 1 - lo) := by
  rw [Pkg.rf, Pkg.rd_wf, if_pos rfl, fld_setF_same _ v hlo hhi]

theorem Pkg.rf_wf_apart (hlo : lo ≤ hi) (hhi : hi < 32) (hapart : hi' < lo ∨ hi < lo') : (g.wf a hi lo v).rf a hi' lo' = g.rf a hi' lo' := by
  rw [Pkg.rf, Pkg.rd_wf, if_pos rfl, fld_setF_apart _ v hlo hhi hapart, Pkg.rf]

theorem Pkg.rf_wf_ne (h : b ≠ a) : (g.wf a hi lo v).rf b hi' lo' = g.rf b hi' lo' := by
  rw [Pkg.rf, Pkg.rd_wf, if_neg h, Pkg.rf]

theorem Pkg.rb_wf_ne {i : Nat} (h : b ≠ a) : (g.wf a hi lo v).rb b i = g.rb b i := by
  rw [Pkg.rb, Pkg.rd_wf, if_neg h, Pkg.rb]

theorem Pkg.rb_wf_apart {i : Nat} (hlo : lo ≤ hi) (hhi : hi < 32) (hapart : i < lo ∨ hi < i) : (g.wf a hi lo v).rb a i = g.rb a i := by
  rw [Pkg.rb, Pkg.rd_wf, if_pos rfl, bit_setF_apart _ v hlo hhi hapart, Pkg.rb]
end

/-! ## The phase of the seal -/

section
variable (g : Pkg) (n : Nat)

theorem Pkg.setPhase_eq : ∃ m : Map Bool, g.setPhase n = { g.wf rSealStat 2 0 n with msix := m } := by
  unfold Pkg.setPhase
  dsimp only
  split
  · exact ⟨_, rfl⟩
  · exact ⟨g.msix, rfl⟩

theorem Pkg.setPhase_rd (a : Nat) : (g.setPhase n).rd a = (g.wf rSealStat 2 0 n).rd a := by
  obtain ⟨m, hm⟩ := g.setPhase_eq n
  rw [hm]
  rfl

theorem Pkg.setPhase_phase (hn : n < 8) : (g.setPhase n).phase = n := by
  rw [Pkg.phase, Pkg.rf, Pkg.setPhase_rd]
  exact (g.rf_wf_same n (by decide) (by decide)).trans (Nat.mod_eq_of_lt hn)

@[simp] theorem Pkg.setPhase_ld : (g.setPhase n).ld = g.ld := by
  obtain ⟨m, hm⟩ := g.setPhase_eq n
  rw [hm]
  rfl

@[simp] theorem Pkg.setPhase_pr : (g.setPhase n).pr = g.pr := by
  obtain ⟨m, hm⟩ := g.setPhase_eq n
  rw [hm]
  rfl

@[simp] theorem Pkg.setPhase_sent : (g.setPhase n).sent = g.sent := by
  obtain ⟨m, hm⟩ := g.setPhase_eq n
  rw [hm]
  rfl

theorem Pkg.setCause_phase : (g.setCause n).phase = g.phase := g.rf_wf_apart n (by decide) (by decide) (.inl (by decide))

theorem Pkg.setCause_cause (hn : n < 256) : (g.setCause n).cause = n :=
  (g.rf_wf_same n (by decide) (by decide)).trans (Nat.mod_eq_of_lt hn)

/-- Threads that wait for a seal issue again: of the package only its threads change. -/
theorem Pkg.unhold_eq : ∃ m : Map Thread, g.unhold = { g with thr := m } := by
  unfold Pkg.unhold
  generalize g.waiters _ = keys
  induction keys generalizing g with
  | nil => exact ⟨g.thr, rfl⟩
  | cons key keys ih =>
    obtain ⟨m, hm⟩ := ih (g.retry key)
    exact ⟨m, hm⟩

@[simp] theorem Pkg.unhold_rd (a : Nat) : g.unhold.rd a = g.rd a := by
  obtain ⟨m, hm⟩ := g.unhold_eq
  rw [hm]
  rfl

@[simp] theorem Pkg.unhold_ld : g.unhold.ld = g.ld := by
  obtain ⟨m, hm⟩ := g.unhold_eq
  rw [hm]

@[simp] theorem Pkg.unhold_sent : g.unhold.sent = g.sent := by
  obtain ⟨m, hm⟩ := g.unhold_eq
  rw [hm]

/-- A package that halts is HALTED with the cause (R218). -/
theorem Pkg.halt_halted (hphase : g.phase ≠ 4) (hn : n < 256) : (g.halt n).phase = 4 ∧ (g.halt n).cause = n ∧ (g.halt n).ld = g.ld := by
  have hstat : (g.halt n).rd rSealStat = ((g.setPhase 4).setCause n).rd rSealStat := by
    rw [Pkg.halt, if_neg hphase, Pkg.logHub, Pkg.logAt_rd _ _ _ _ _ _ _ _ (by decide)]
  refine ⟨?_, ?_, ?_⟩
  · rw [Pkg.phase, Pkg.rf, hstat]
    exact (Pkg.setCause_phase _ _).trans (g.setPhase_phase 4 (by decide))
  · rw [Pkg.cause, Pkg.rf, hstat]
    exact Pkg.setCause_cause _ _ hn
  · rw [Pkg.halt, if_neg hphase, Pkg.logHub, Pkg.logAt_ld]
    exact g.setPhase_ld 4
end

/-! ## The leader's COMMIT -/

section
variable {s : Pack} {k : Nat} {l : List ReadyMsg}

/-- A list of READYs has one of every member. -/
def Pkg.readyAll (g : Pkg) (l : List ReadyMsg) : Prop := ∀ p, p ∈ positions g.mem → ∃ x ∈ l, x.pos = p

theorem readyAll_iff (g : Pkg) : g.readyAll l ↔ ((positions g.mem).all fun p => l.any fun m => m.pos == p) = true := by
  simp [Pkg.readyAll]

/-- What COMMIT says comes from the sealed step, the epoch and the groups' registers. -/
theorem commitMsg_congr {g h : Pkg} (hrd : ∀ a, a = rSealStep ∨ a = rPackEpoch ∨ hubR 0xA000 ≤ a → h.rd a = g.rd a)
    (hpend : h.pr.memPend = g.pr.memPend) (l : List ReadyMsg) : h.commitMsg l = g.commitMsg l := by
  have hsched (j o : Nat) : h.rd (rSched j o) = g.rd (rSched j o) := hrd _ (.inr (.inr (by simp only [rSched, hubR, rk]; omega)))
  have hstep : h.step = g.step := by rw [Pkg.step, Pkg.step, Pkg.sealed, Pkg.sealed, hrd _ (.inl rfl)]
  have hepoch : h.nextEpoch = g.nextEpoch := by
    rw [Pkg.nextEpoch, Pkg.nextEpoch, hpend, Pkg.epoch, Pkg.epoch, Pkg.rf, Pkg.rf, hrd _ (.inr (.inl rfl))]
  have hnative : h.nativeGroups = g.nativeGroups := by simp only [Pkg.nativeGroups, Pkg.sEn, Pkg.sweep, Pkg.rb, hsched]
  have hnorm (j sum : Nat) (ovf : Bool) : h.normRes j sum ovf = g.normRes j sum ovf := by
    simp only [Pkg.normRes, Pkg.sv32, Pkg.nclip, Pkg.rb, hsched] <;> rfl
  simp only [Pkg.commitMsg, hstep, hepoch, hnative, hnorm]

/-- The leader uses up the READYs of a step whose flows balance, and names the step whose flows it has audited. -/
def Pkg.takeReadys (g : Pkg) : Pkg :=
  ({ g with ld := { g.ld with ready := [], req := false } } : Pkg).wr (rLedger 8) (mk32 ((g.step + 2 ^ 32 - 2) % 2 ^ 32))

theorem takeReadys_rd (g : Pkg) {a : Nat} (ha : a ≠ rLedger 8) : g.takeReadys.rd a = g.rd a := Pkg.wr_rd_ne _ _ ha

theorem takeReadys_commitMsg (g : Pkg) (l : List ReadyMsg) : g.takeReadys.commitMsg l = g.commitMsg l := by
  refine commitMsg_congr (fun a ha => takeReadys_rd g ?_) rfl l
  obtain rfl | rfl | ha := ha
  · decide
  · decide
  · exact fun e => absurd (e ▸ ha) (by decide)

/-- What the leader does with every READY in and a seal allowed (R217). -/
def Pkg.sendCommit (g : Pkg) (l : List ReadyMsg) : Pkg :=
  { g.takeReadys with sent := .commit (g.commitMsg l) :: g.sent, ld := { g.takeReadys.ld with record := some (g.commitMsg l), acks := positions g.mem } }

theorem trySeal_waits (h : ¬ (s.g k).readyAll (s.g k).ld.ready ∨ ((s.g k).sealAuto = false ∧ (s.g k).ld.req = false)) : s.trySeal k = s := by
  unfold Pack.trySeal
  refine if_pos ?_
  obtain hall | ⟨hauto, hreq⟩ := h
  · rw [readyAll_iff, Bool.not_eq_true] at hall
    simp [hall]
  · simp [hauto, hreq]

theorem trySeal_inert (h : 2 ≤ (s.g k).phase) : s.trySeal k = s := by
  unfold Pack.trySeal
  exact if_pos (.inr (.inl h))

theorem refusal_none {g : Pkg} (h : g.refusal l = none) : flowsBalance l = true := by
  unfold Pkg.refusal at h
  grind

theorem trySeal_commits (hleads : (s.g k).leads = true) (hphase : (s.g k).phase < 2) (hall : (s.g k).readyAll (s.g k).ld.ready)
    (hallowed : ((s.g k).sealAuto || (s.g k).ld.req) = true) (hok : (s.g k).refusal (s.g k).ld.ready = none) :
    (s.trySeal k) = s.on k (fun g => g.sendCommit g.ld.ready) := by
  rw [readyAll_iff] at hall
  have hgo : ¬ (!(s.g k).leads ∨ 2 ≤ (s.g k).phase ∨ !((positions (s.g k).mem).all fun p => (s.g k).ld.ready.any fun m => m.pos == p) ∨
      !((s.g k).sealAuto || (s.g k).ld.req)) := by simp [hleads, hall, hallowed, hphase]
  unfold Pack.trySeal
  extract_lets g ms bal s1
  rw [if_neg hgo, hok]
  dsimp only
  have hbal : bal = true := refusal_none hok
  have hs1 : s1 = s.on k Pkg.takeReadys := Pack.on_congr (if_pos hbal)
  have hmem : g.takeReadys.mem = g.mem := by
    unfold Pkg.mem Pkg.rd64
    rw [takeReadys_rd g (a := rMemLo) (by decide), takeReadys_rd g (a := rMemHi) (by decide)]
  rw [hs1, Pack.on_on]
  refine Pack.on_congr ?_
  rw [takeReadys_commitMsg, hmem]
  rfl

end

/-! ## The members of a pack -/

section
variable {s : Pack} {k : Nat} {f : Pkg → Pkg}

/-- The registers of the seal, the ledger and the error log: no part of a package's position, membership and ports. -/
def sealWords : List Nat := [rLedger 0, rLedger 8, rSealStat, rSealCtl, rErrCtl, rErrHead, rErrLost, rPins]

theorem rPort_notMem_sealWords (n : Nat) : rPort n 0 ∉ sealWords := fun h =>
  absurd (List.all_eq_true.mp (by decide : sealWords.all (fun a => decide (hubR 0 ≤ a)) = true) _ h)
    (by have := rPort_lt_hubR n 0; simp only [decide_eq_true_eq]; omega)

theorem pmap_notMem_sealWords {p : Nat} (hp : p < 64) (o : Nat) (ho : o < 8) : hubR (0x7100 + 8 * p + o) ∉ sealWords := by
  simp [sealWords, rLedger, rSealStat, rSealCtl, rErrCtl, rErrHead, rErrLost, rPins, hubR, rk]
  omega

theorem rPackId_notMem_sealWords : rPackId ∉ sealWords := by simp [sealWords, rPackId, rLedger, rSealStat, rSealCtl, rErrCtl, rErrHead, rErrLost, rPins, hubR, rk]
theorem rMemLo_notMem_sealWords : rMemLo ∉ sealWords := by simp [sealWords, rMemLo, rLedger, rSealStat, rSealCtl, rErrCtl, rErrHead, rErrLost, rPins, hubR, rk]
theorem rMemHi_notMem_sealWords : rMemHi ∉ sealWords := by simp [sealWords, rMemHi, rLedger, rSealStat, rSealCtl, rErrCtl, rErrHead, rErrLost, rPins, hubR, rk]

/-- Two states of a package that differ in `sealWords` only stand alike in the pack. -/
structure Pkg.Placed (g h : Pkg) : Prop where
  assigned : h.assigned = g.assigned
  pos : h.pos = g.pos
  mem : h.mem = g.mem
  upPorts : h.upPorts = g.upPorts
  effMask : ∀ p, p < 64 → h.effMask p = g.effMask p

theorem Pkg.Placed.of_rd {g h : Pkg} (hrd : ∀ a, a ∉ sealWords → h.rd a = g.rd a) : g.Placed h := by
  have hid := hrd _ rPackId_notMem_sealWords
  have hlo := hrd _ rMemLo_notMem_sealWords
  have hhi := hrd _ rMemHi_notMem_sealWords
  have hup : h.upPorts = g.upPorts := by
    simp only [Pkg.upPorts, Pkg.portState, Pkg.rf, hrd _ (rPort_notMem_sealWords _)]
  refine ⟨?_, ?_, ?_, hup, fun p hp => ?_⟩
  · unfold Pkg.assigned Pkg.rb
    rw [hid]
  · unfold Pkg.pos Pkg.rf
    rw [hid]
  · unfold Pkg.mem Pkg.rd64
    rw [hlo, hhi]
  · have hhops : h.rd (hubR (0x7104 + 8 * p)) = g.rd (hubR (0x7104 + 8 * p)) := by
      have h4 := hrd _ (pmap_notMem_sealWords hp 4 (by decide))
      rwa [show 0x7100 + 8 * p + 4 = 0x7104 + 8 * p by omega] at h4
    have hmask : h.rd (hubR (0x7100 + 8 * p)) = g.rd (hubR (0x7100 + 8 * p)) := hrd _ (pmap_notMem_sealWords hp 0 (by decide))
    unfold Pkg.effMask Pkg.rf Pkg.rb
    rw [hhops, hmask, hup]

theorem find?_mins_ne (q : Nat × Pkg → Bool) (g : Pkg) : ∀ m : Map Pkg,
    (mins m k g).find? (fun x => x.1 != k && q x) = m.find? (fun x => x.1 != k && q x)
  | [] => by simp [mins]
  | (i, h) :: m => by
    unfold mins
    split
    · simp
    · split
      · next hik => subst hik; simp
      · simp only [List.find?_cons, find?_mins_ne q g m]

theorem at_on (hf : (s.g k).Placed (f (s.g k))) {p : Nat} (hp : p < 64) : (s.on k f).at k p = s.at k p := by
  have hfind := find?_mins_ne (k := k) (fun x => x.2.assigned && x.2.pos == p && !x.2.upPorts.isEmpty) (f (s.g k)) s.pkgs
  simp only [Pack.at, Pack.on_g_self, hf.assigned, hf.pos, hf.mem, hf.effMask p hp]
  simp only [Bool.and_assoc] at hfind ⊢
  rw [show (s.on k f).pkgs = mins s.pkgs k (f (s.g k)) from rfl, hfind]

theorem members_on (hf : (s.g k).Placed (f (s.g k))) : (s.on k f).members k = s.members k := by
  simp only [Pack.members, Pack.on_g_self, hf.mem]
  refine List.filterMap_congr fun p hp => at_on hf ?_
  exact List.mem_range.mp (List.mem_of_mem_filter hp)

/-- What every member is changed to, and that no other package changes. -/
theorem onMembers_g {P : Pkg → Prop} (hf : ∀ g, P (f g)) : ∀ (l : List Nat) (s : Pack),
    (∀ j, j ∈ l → P ((l.foldl (fun s j => s.on j f) s).g j)) ∧
    (∀ j, j ∉ l → (l.foldl (fun s j => s.on j f) s).g j = s.g j)
  | [], _ => ⟨fun _ h => absurd h List.not_mem_nil, fun _ _ => rfl⟩
  | i :: l, s => by
    obtain ⟨hin, hout⟩ := onMembers_g hf l (s.on i f)
    refine ⟨fun j hj => ?_, fun j hj => ?_⟩
    · by_cases hjl : j ∈ l
      · exact hin j hjl
      · obtain rfl : j = i := (List.mem_cons.mp hj).resolve_right hjl
        exact (hout j hjl).symm ▸ (Pack.on_g_self s j f).symm ▸ hf _
    · obtain ⟨hji, hjl⟩ := not_or.mp (mt List.mem_cons.mpr hj)
      exact (hout j hjl).trans (Pack.on_g_ne _ _ hji)
end

/-! ## A refused seal -/

section
variable {s : Pack} {k : Nat}

theorem refusal_lt {g : Pkg} {l : List ReadyMsg} {c : Nat} (h : g.refusal l = some c) : c < 256 := by
  unfold Pkg.refusal at h
  grind

/-- The leader uses up the READYs of a step that it refuses; flows that do not balance are logged. -/
def Pkg.refuseReadys (g : Pkg) (l : List ReadyMsg) : Pkg :=
  if flowsBalance l then g.takeReadys
  else ({ g with ld := { g.ld with ready := [], req := false } } : Pkg).mismatch (flowMask l) ((g.step + 2 ^ 32 - 2) % 2 ^ 32)

theorem mismatch_rd (g : Pkg) (mask step : Nat) {a : Nat} (h0 : a ≠ rLedger 0) (hlog : a ∉ [rErrCtl, rErrHead, rErrLost, rPins]) :
    (g.mismatch mask step).rd a = g.rd a := by
  unfold Pkg.mismatch
  split
  · rfl
  · exact (Pkg.logAt_rd _ _ _ _ _ _ _ _ hlog).trans (g.wr_rd_ne _ h0)

theorem mismatch_ld (g : Pkg) (mask step : Nat) : (g.mismatch mask step).ld = g.ld := by
  unfold Pkg.mismatch
  split
  · rfl
  · exact Pkg.logAt_ld ..

theorem refuseReadys_rd (g : Pkg) (l : List ReadyMsg) {a : Nat} (h0 : a ≠ rLedger 0) (h8 : a ≠ rLedger 8)
    (hlog : a ∉ [rErrCtl, rErrHead, rErrLost, rPins]) : (g.refuseReadys l).rd a = g.rd a := by
  unfold Pkg.refuseReadys
  split
  · exact takeReadys_rd g h8
  · exact mismatch_rd _ _ _ h0 hlog

theorem refuseReadys_record (g : Pkg) (l : List ReadyMsg) : (g.refuseReadys l).ld.record = g.ld.record := by
  unfold Pkg.refuseReadys
  split
  · rfl
  · rw [mismatch_ld]

theorem trySeal_refuses {c : Nat} (hleads : (s.g k).leads = true) (hphase : (s.g k).phase < 2) (hall : (s.g k).readyAll (s.g k).ld.ready)
    (hallowed : ((s.g k).sealAuto || (s.g k).ld.req) = true) (hrefused : (s.g k).refusal (s.g k).ld.ready = some c) (halone : s.members k = [k]) :
    s.trySeal k = s.on k (fun g => (g.refuseReadys g.ld.ready).halt c) := by
  rw [readyAll_iff] at hall
  have hgo : ¬ (!(s.g k).leads ∨ 2 ≤ (s.g k).phase ∨ !((positions (s.g k).mem).all fun p => (s.g k).ld.ready.any fun m => m.pos == p) ∨
      !((s.g k).sealAuto || (s.g k).ld.req)) := by simp [hleads, hall, hallowed, hphase]
  unfold Pack.trySeal
  extract_lets g ms bal s1
  rw [if_neg hgo, hrefused]
  dsimp only
  have hs1 : s1 = s.on k (fun g => g.refuseReadys g.ld.ready) := Pack.on_congr rfl
  have hmembers : (s.on k (fun g => g.refuseReadys g.ld.ready)).members k = [k] := by
    refine (members_on (.of_rd fun a ha => refuseReadys_rd _ _ ?_ ?_ ?_)).trans halone <;> (simp only [sealWords, List.mem_cons, not_or] at ha ⊢; simp [ha])
  rw [hs1, Pack.haltAll, Pack.onMembers, hmembers, List.foldl_cons, List.foldl_nil, Pack.on_on]

end

/-! ## RESUME -/

section
variable {s : Pack} {k : Nat} {f : Pkg → Pkg}

theorem rQ_ne_rSealCtl {site q o : Nat} (ho : o < 0x40) (h : o ≠ 0 ∨ q < 4096) : rQ site q o ≠ rSealCtl := by
  simp only [rQ, rSealCtl, hubR, rk]
  omega

section
variable (hrd : ∀ a, a ≠ rSealCtl → (f (s.g k)).rd a = (s.g k).rd a) {q : Nat} (hq : q < 4096)
include hrd

theorem on_rd {a : Nat} (ha : a ≠ rSealCtl) (j : Nat) : ((s.on k f).g j).rd a = (s.g j).rd a :=
  Pack.on_keeps (P := fun g : Pkg => g.rd a) s k j (hrd a ha)

theorem qBase_on (j site q : Nat) : ((s.on k f).g j).qBase site q = (s.g j).qBase site q := by
  unfold Pkg.qBase Pkg.rd64
  rw [on_rd hrd (rQ_ne_rSealCtl (by decide) (.inl (by decide))), on_rd hrd (rQ_ne_rSealCtl (by decide) (.inl (by decide)))]

theorem bytes_on (l : Loc) (n : Nat) : (s.on k f).bytes l n = s.bytes l n := by
  have hring : ((s.on k f).g l.pk).ringLoc l = (s.g l.pk).ringLoc l := by
    unfold Pkg.ringLoc
    dsimp only
    rw [qBase_on hrd]
  rw [Pack.bytes, hring, Pack.on_mem, Pack.bytes]

include hq

theorem ringRead_on (site : Nat) : ∀ n i : Nat, (s.on k f).ringRead k site q n i = s.ringRead k site q n i
  | 0, _ => rfl
  | n + 1, i => by
    have hloc : ((s.on k f).g k).entryLoc k site q i = (s.g k).entryLoc k site q i := by
      unfold Pkg.entryLoc Pkg.qSize Pkg.rf
      rw [qBase_on hrd, on_rd hrd (rQ_ne_rSealCtl (by decide) (.inr hq))]
    unfold Pack.ringRead
    rw [hloc, bytes_on hrd, ringRead_on site n]
end

/-- DQID names a queue by 12 bits. -/
theorem dqid_lt (g : Pkg) : g.rf (rProt 0x10) 11 0 < 4096 := by
  rw [Pkg.rf, fld_low]
  exact Nat.mod_lt _ (by decide)

theorem dqHome_queue {g : Pkg} {site q : Nat} (h : g.dqHome = some (site, q)) : q < 4096 := by
  have hlt := dqid_lt g
  unfold Pkg.dqHome at h
  generalize g.rf (rProt 0x10) 11 0 = r at h hlt
  grind

theorem dqHome_congr {g h : Pkg} (hrd : ∀ a, a ≠ rSealCtl → h.rd a = g.rd a) : h.dqHome = g.dqHome := by
  have hhome (q : Nat) : h.home q = g.home q := by
    unfold Pkg.home Pkg.rb Pkg.rf
    rw [hrd _ (by simp only [rQmap, rSealCtl, hubR, rk]; omega)]
  have hctl (site : Nat) : h.rd (rQ site (g.rf (rProt 0x10) 11 0) 0) = g.rd (rQ site (g.rf (rProt 0x10) 11 0) 0) :=
    hrd _ (rQ_ne_rSealCtl (by decide) (.inr (dqid_lt g)))
  have heng (site : Nat) : h.qengOn site = g.qengOn site := by
    unfold Pkg.qengOn Pkg.rb
    rw [hrd _ (by simp only [rGateB, rSealCtl, hubR, rk]; omega)]
  have hid : h.rf (rProt 0x10) 11 0 = g.rf (rProt 0x10) 11 0 := by
    unfold Pkg.rf
    rw [hrd _ (by decide)]
  unfold Pkg.dqHome
  rw [hid]
  generalize g.rf (rProt 0x10) 11 0 = q at hctl
  have hstate (site : Nat) : h.qState site q = g.qState site q ∧ h.qProd site q = g.qProd site q ∧ h.qChost site q = g.qChost site q := by
    unfold Pkg.qState Pkg.qProd Pkg.qChost Pkg.rf Pkg.rb
    rw [hctl]
    exact ⟨rfl, rfl, rfl⟩
  dsimp only
  rw [hhome]
  cases g.home q with
  | none => rfl
  | some site =>
    obtain ⟨h1, h2, h3⟩ := hstate site
    dsimp only
    rw [h1, h2, h3, heng]

theorem dqWaits_on (hrd : ∀ a, a ≠ rSealCtl → (f (s.g k)).rd a = (s.g k).rd a) (hpr : (f (s.g k)).pr = (s.g k).pr) (kinds : List Nat) :
    (s.on k f).dqWaits k kinds = s.dqWaits k kinds := by
  unfold Pack.dqWaits
  rw [Pack.on_g_self]
  dsimp only
  rw [dqHome_congr hrd, hpr]
  congr 1
  cases hhome : (s.g k).dqHome with
  | none => rfl
  | some home =>
    obtain ⟨site, q⟩ := home
    have hlt := dqHome_queue hhome
    have hix : (f (s.g k)).ix site q = (s.g k).ix site q := by
      unfold Pkg.ix
      rw [hrd _ (rQ_ne_rSealCtl (by decide) (.inl (by decide))), hrd _ (rQ_ne_rSealCtl (by decide) (.inl (by decide)))]
    dsimp only
    rw [hix, ringRead_on hrd hlt]

theorem owes_on (hrd : ∀ a, a ≠ rSealCtl → (f (s.g k)).rd a = (s.g k).rd a) (hpr : (f (s.g k)).pr = (s.g k).pr)
    (halone : s.members k = [k]) (halone' : (s.on k f).members k = [k]) : (s.on k f).owes k = s.owes k := by
  have hen (t : Nat) : (f (s.g k)).tEn t = (s.g k).tEn t := by
    unfold Pkg.tEn Pkg.rb
    rw [hrd _ (by simp only [rTens, rSealCtl, hubR, rk]; omega)]
  have hfun : (f (s.g k)).tEn = (s.g k).tEn := funext hen
  simp only [Pack.owes, halone, halone', List.any_cons, List.any_nil, dqWaits_on hrd hpr, Pack.on_g_self, hpr, hfun]

theorem dqImages_none (himage : (s.g k).pr.image = []) (hdq : (s.g k).pr.dq = []) : s.dqImages k = s.on k id := by
  have hpr : ({ (s.g k).pr with dq := [], image := [] } : Prot) = (s.g k).pr := by
    rw [← hdq, ← himage]
  unfold Pack.dqImages
  extract_lets g rs
  have hrs : rs = [] := by
    show (List.flatMap _ ((s.g k).pr.image.filter _)) = []
    rw [himage]
    rfl
  have hsame : (s.on k fun g => { g with pr := { g.pr with dq := g.pr.dq ++ rs, image := g.pr.image.filter fun t => !g.tEn t } }) = s.on k id := by
    refine Pack.on_congr ?_
    dsimp only [id]
    rw [himage, hdq, hrs, List.filter_nil, List.append_nil, hpr]
  rw [hsame, Pack.dqRun, Pack.on_g_self, id, hdq]
  rfl

/-- A member of a pack that leaves HELD runs, in the modes that are written (R329, R344). -/
def Pkg.resumed (g : Pkg) : Pkg :=
  if g.phase = 3 then ((({ g.modesIn with ld := { g.ld with hostLost := false } }).setPhase 0).setCause 0).unhold else g

/-- The leader sends RESUME. -/
def Pkg.sendResume (g : Pkg) : Pkg := { g.send .resume with ld := { g.ld with resume := false, hostLost := false } }

/-- SEAL.CTL is written at a leader in HELD, with RESUME. -/
def Pkg.askResume (v : W32) (g : Pkg) : Pkg := { g.wf rSealCtl 1 0 (fld v 1 0) with ld := { g.ld with resume := true } }

theorem askResume_rd (v : W32) (g : Pkg) {a : Nat} (ha : a ≠ rSealCtl) : (g.askResume v).rd a = g.rd a := Pkg.wr_rd_ne _ _ ha

theorem askResume_phase (v : W32) (g : Pkg) : (g.askResume v).phase = g.phase := g.rf_wf_ne _ (by decide)

theorem tryResume_goes (hresume : (s.g k).ld.resume = true) (hphase : (s.g k).phase = 3) (howes : s.owes k = false) (halone : s.members k = [k]) :
    s.tryResume k = s.on k (fun g => g.sendResume.resumed) := by
  have halone' : (s.on k Pkg.sendResume).members k = [k] := (members_on (.of_rd fun _ _ => rfl)).trans halone
  unfold Pack.tryResume
  simp only [hresume, hphase, howes, Bool.not_true, Bool.false_eq_true, ne_eq, not_true_eq_false, or_self, if_false]
  show (s.on k Pkg.sendResume).onMembers k Pkg.resumed = _
  rw [Pack.onMembers, halone', List.foldl_cons, List.foldl_nil, Pack.on_on]

theorem sealCtl_resumes {v : W32} (hleads : (s.g k).leads = true) (hphase : (s.g k).phase = 3) (hreq : bit v 2 = false) (hres : bit v 3 = true)
    (halone : s.members k = [k]) (howes : s.owes k = false) (himage : (s.g k).pr.image = []) (hdq : (s.g k).pr.dq = []) :
    s.sealCtl k v = s.on k (fun g => (g.askResume v).sendResume.resumed) := by
  have hphase' : ((s.g k).wf rSealCtl 1 0 (fld v 1 0)).phase = 3 := ((s.g k).rf_wf_ne _ (by decide)).trans hphase
  have hleads' : ((s.g k).wf rSealCtl 1 0 (fld v 1 0)).leads = true := ((s.g k).rb_wf_ne _ (by decide)).trans hleads
  have halone' : (s.on k (Pkg.askResume v)).members k = [k] :=
    (members_on (.of_rd fun a ha => askResume_rd v _ (fun e => ha (e ▸ by decide)))).trans halone
  unfold Pack.sealCtl
  simp only [hreq, hres, Bool.false_eq_true, if_false, if_true]
  rw [trySeal_inert (by rw [Pack.on_g_self, hphase']; decide), Pack.sealResume]
  simp only [Pack.on_g_self, hleads', hphase', Bool.not_true, Bool.false_eq_true, ne_eq, not_true_eq_false, or_self, if_false, Pack.on_on]
  show (List.foldl _ (s.on k (Pkg.askResume v)) ((s.on k (Pkg.askResume v)).members k)).tryResume k = _
  rw [halone', List.foldl_cons, List.foldl_nil, dqImages_none (by rw [Pack.on_g_self]; exact himage) (by rw [Pack.on_g_self]; exact hdq), Pack.on_on]
  have hid : (s.on k fun g => id (g.askResume v)) = s.on k (Pkg.askResume v) := rfl
  rw [hid, tryResume_goes (by rw [Pack.on_g_self]; rfl) (by rw [Pack.on_g_self]; exact hphase')
    ((owes_on (fun a ha => askResume_rd v _ ha) rfl halone halone').trans howes) halone', Pack.on_on]

/-- A package that resumes is in RUN with no cause, its host link no longer lost. -/
theorem resumed_runs {g : Pkg} (hphase : g.phase = 3) :
    g.resumed.phase = 0 ∧ g.resumed.cause = 0 ∧ g.resumed.sent = g.sent ∧ g.resumed.ld = { g.ld with hostLost := false } := by
  rw [Pkg.resumed, if_pos hphase]
  refine ⟨?_, ?_, ?_, ?_⟩
  · rw [Pkg.phase, Pkg.rf, Pkg.unhold_rd]
    exact (Pkg.setCause_phase _ _).trans (Pkg.setPhase_phase _ 0 (by decide))
  · rw [Pkg.cause, Pkg.rf, Pkg.unhold_rd]
    exact Pkg.setCause_cause _ _ (by decide)
  · rw [Pkg.unhold_sent]
    exact Pkg.setPhase_sent _ 0
  · rw [Pkg.unhold_ld]
    exact Pkg.setPhase_ld _ 0

end

/-! ## READY, ACK and SEAL.CTL at the leader -/

section
variable {s : Pack} {k : Nat} {m : Master} {v : W32}

/-- The leader keeps a member's READY in place of an older one. -/
def Pkg.keepReady (r : ReadyMsg) (g : Pkg) : Pkg := { g with ld := { g.ld with ready := r :: g.ld.ready.filter (fun x => x.pos != r.pos) } }

theorem takeReady_stale {r : ReadyMsg} (hleads : (s.g k).leads = true) (hepoch : r.epoch ≠ (s.g k).epoch) : s.takeReady k r = s.on k Pkg.stale := by
  simp [Pack.takeReady, hleads, hepoch]

theorem takeReady_keeps {r : ReadyMsg} (hleads : (s.g k).leads = true) (hepoch : r.epoch = (s.g k).epoch) (hstep : r.step = (s.g k).step)
    (hmember : (s.g k).mem.testBit r.pos = true) (hphase : (s.g k).phase < 2) : s.takeReady k r = (s.on k (Pkg.keepReady r)).trySeal k := by
  have hnot : ¬ 2 ≤ (s.g k).phase := by omega
  simp [Pack.takeReady, hleads, hepoch, hstep, hmember, hnot]
  rfl

/-- SEAL.CTL is written at a leader, with REQ. -/
def Pkg.askSeal (v : W32) (g : Pkg) : Pkg := { g.wf rSealCtl 1 0 (fld v 1 0) with ld := { g.ld with req := true } }

theorem askSeal_rd (g : Pkg) {a : Nat} (ha : a ≠ rSealCtl) : (g.askSeal v).rd a = g.rd a := Pkg.wr_rd_ne _ _ ha

theorem askSeal_placed (g : Pkg) : g.Placed (g.askSeal v) := .of_rd fun _ ha => askSeal_rd g fun e => ha (e ▸ by decide)

theorem askSeal_phase (g : Pkg) : (g.askSeal v).phase = g.phase := g.rf_wf_ne _ (by decide)

theorem askSeal_leads (g : Pkg) : (g.askSeal v).leads = g.leads := g.rb_wf_ne _ (by decide)

theorem askSeal_readyAll (g : Pkg) (l : List ReadyMsg) : (g.askSeal v).readyAll l ↔ g.readyAll l := by
  rw [Pkg.readyAll, (askSeal_placed g).mem, Pkg.readyAll]

theorem askSeal_refusal (g : Pkg) (l : List ReadyMsg) : (g.askSeal v).refusal l = g.refusal l := by
  have hvcur : (g.askSeal v).rf rVcur 1 0 = g.rf rVcur 1 0 := g.rf_wf_ne _ (by decide)
  unfold Pkg.refusal
  rw [hvcur]

theorem askSeal_commitMsg (g : Pkg) (l : List ReadyMsg) : (g.askSeal v).commitMsg l = g.commitMsg l := by
  refine commitMsg_congr (fun a ha => askSeal_rd g ?_) rfl l
  obtain rfl | rfl | ha := ha
  · decide
  · decide
  · exact fun e => absurd (e ▸ ha) (by decide)

theorem sealCtl_asks (hleads : (s.g k).leads = true) (hreq : bit v 2 = true) (hres : bit v 3 = false) :
    s.sealCtl k v = (s.on k (Pkg.askSeal v)).trySeal k := by
  have hleads' : ((s.g k).wf rSealCtl 1 0 (fld v 1 0)).leads = true := ((s.g k).rb_wf_ne _ (by decide)).trans hleads
  unfold Pack.sealCtl
  simp only [hreq, hres, if_true, Bool.false_eq_true, if_false, Pack.sealReq, Pack.on_g_self, hleads', Pack.on_on]
  rfl

theorem sealCtl_written {c : Instr} {s : State} (hw : Writable s.pack k m 62 0x2000 .seal 0)
    (hc : exec c s = .next (s.onPack (fun p => p.busWrite k m 62 0x2000 v))) : Gives c s (s.pack.sealCtl k v) := by
  have hpriv : m.priv = true := hw.priv.resolve_right (by decide)
  refine gives_of_onPack hc ((busWrite_served hw).trans ?_)
  simp [Pack.regWrite, hpriv, forbidden, busyKey, Pack.blkWrite]

theorem leaveApply_hold (g : Pkg) : (g.leaveApply true).phase = 3 ∧ (g.leaveApply true).ld = g.ld :=
  ⟨(Pkg.setCause_phase _ _).trans (Pkg.setPhase_phase _ 3 (by decide)), Pkg.setPhase_ld _ 3⟩

theorem leaveApply_run (g : Pkg) : (g.leaveApply false).phase = 0 ∧ (g.leaveApply false).ld = g.ld := by
  refine ⟨?_, (Pkg.unhold_ld _).trans (Pkg.setPhase_ld _ 0)⟩
  show Pkg.phase (Pkg.unhold _) = 0
  rw [Pkg.phase, Pkg.rf, Pkg.unhold_rd]
  exact (Pkg.setCause_phase _ _).trans (Pkg.setPhase_phase _ 0 (by decide))

theorem leaveApply_leaves (g : Pkg) (hold : Bool) : (g.leaveApply hold).phase = (if hold then 3 else 0) ∧ (g.leaveApply hold).ld = g.ld := by
  cases hold
  · exact leaveApply_run g
  · exact leaveApply_hold g

/-- The leader strikes a member off the ACKs that it waits for. -/
def Pkg.strikeAck (pos : Nat) (g : Pkg) : Pkg := { g with ld := { g.ld with acks := g.ld.acks.filter (· != pos) } }

theorem takeAck_eq {g : Pkg} {pos : Nat} (hleads : g.leads = true) (hphase : g.phase = 2) (hcommit : g.pr.commit = none) :
    g.takeAck pos g.sealed = if (g.ld.acks.filter (· != pos)).isEmpty then (g.strikeAck pos).leaveApply g.pr.parked else g.strikeAck pos := by
  unfold Pkg.takeAck
  rw [if_pos ⟨hleads, hphase, rfl, hcommit⟩]
  rfl
end

/-! ## Settling the obligation -/

section
variable {s : State} {k : Nat} {m : Master} {r : ReadyMsg} {v : W32} (hup : (s.pack.g k).hubUp = true) (hleads : (s.pack.g k).leads = true)
include hup hleads

theorem leaves_ready {P : Pack → Prop} (hstep : r.step = (s.pack.g k).step) (hepoch : r.epoch = (s.pack.g k).epoch)
    (hmember : (s.pack.g k).mem.testBit r.pos = true) (hphase : (s.pack.g k).phase < 2) (hP : P ((s.pack.on k (Pkg.keepReady r)).trySeal k)) :
    Leaves (.ready k r) s P :=
  ⟨_, gives_of_atHub rfl hup (takeReady_keeps hleads hepoch hstep hmember hphase), hP⟩

theorem leaves_sealAck {P : Pack → Prop} {pos : Nat} (hphase : (s.pack.g k).phase = 2) (hcommit : (s.pack.g k).pr.commit = none)
    (hP : ∀ p : Pack, p.g k = (if ((s.pack.g k).ld.acks.filter (· != pos)).isEmpty then ((s.pack.g k).strikeAck pos).leaveApply (s.pack.g k).pr.parked
      else (s.pack.g k).strikeAck pos) → p.mem = s.pack.mem → P p) : Leaves (.sealAck k pos (s.pack.g k).sealed) s P := by
  refine ⟨s.pack.on k fun g => g.takeAck pos (s.pack.g k).sealed, gives_of_atHub rfl hup rfl, hP _ ?_ (Pack.on_mem ..)⟩
  rw [Pack.on_g_self, takeAck_eq hleads hphase hcommit]
end

/-- Settles O42. -/
theorem sealAtTheLeader : Obligations.SealAtTheLeader := by
  unfold Obligations.SealAtTheLeader
  intro s k m r v pos g ms full hup hleads
  have hkept : (s.pack.on k (Pkg.keepReady r)).g k = g.keepReady r := Pack.on_g_self ..
  refine ⟨fun hepoch => gives_of_atHub rfl hup (takeReady_stale hleads hepoch), fun hstep hepoch hmember hphase => ⟨fun hwait => ?_, fun hall hauto hok => ?_,
    fun c hall hauto hno halone => ?_⟩, fun hphase hcommit => ⟨fun hacks => ?_, fun hacks => ?_⟩, fun hw => ⟨fun hphase hres => ⟨fun hall => ?_, fun hall hok => ?_⟩,
    fun hphase hreq halone howes himage hdq => ?_⟩, ?_⟩
  · refine leaves_ready hup hleads hstep hepoch hmember hphase ?_
    rw [trySeal_waits (by rw [hkept]; exact hwait)]
    exact ⟨by rw [hkept]; rfl, by rw [hkept]; rfl, by rw [hkept]; rfl, rfl⟩
  · refine leaves_ready hup hleads hstep hepoch hmember hphase ?_
    rw [trySeal_commits (by rw [hkept]; exact hleads) (by rw [hkept]; exact hphase) (by rw [hkept]; exact hall)
      (by rw [hkept, show (g.keepReady r).sealAuto = true from hauto]; rfl) (by rw [hkept]; exact hok), Pack.on_on, Pack.on_g_self]
    exact ⟨rfl, rfl, rfl, rfl, rfl, rfl⟩
  · refine leaves_ready hup hleads hstep hepoch hmember hphase ?_
    have halone' : (s.pack.on k (Pkg.keepReady r)).members k = [k] := (members_on (.of_rd fun _ _ => rfl)).trans halone
    rw [trySeal_refuses (by rw [hkept]; exact hleads) (by rw [hkept]; exact hphase) (by rw [hkept]; exact hall)
      (by rw [hkept, show (g.keepReady r).sealAuto = true from hauto]; rfl) (by rw [hkept]; exact hno) halone', Pack.on_on, Pack.on_g_self]
    have hphase' : ((g.keepReady r).refuseReadys ms).phase ≠ 4 := by
      rw [Pkg.phase, Pkg.rf, refuseReadys_rd _ _ (by decide) (by decide) (by decide)]
      exact fun e => absurd (e ▸ hphase : 4 < 2) (by decide)
    obtain ⟨h4, hc, hld⟩ := Pkg.halt_halted ((g.keepReady r).refuseReadys ms) c hphase' (refusal_lt hno)
    refine ⟨h4, hc, ?_, by rw [Pack.on_mem]⟩
    exact (congrArg Leader.record hld).trans (refuseReadys_record _ _)
  · refine leaves_sealAck hup hleads hphase hcommit fun p hp hmem => ?_
    rw [if_neg (by simpa using hacks)] at hp
    rw [hp]
    exact ⟨rfl, hphase, hmem⟩
  · refine leaves_sealAck hup hleads hphase hcommit fun p hp hmem => ?_
    rw [if_pos (List.isEmpty_iff.mpr hacks)] at hp
    obtain ⟨hph, hld⟩ := leaveApply_leaves (g.strikeAck pos) g.pr.parked
    rw [hp]
    exact ⟨(congrArg Leader.acks hld).trans hacks, hph, hmem⟩
  · have hasked : (s.pack.on k (Pkg.askSeal (setB v 2 true))).g k = g.askSeal (setB v 2 true) := Pack.on_g_self ..
    refine ⟨_, sealCtl_written hw rfl, ?_⟩
    rw [sealCtl_asks hleads (bit_setB_same _ _ (by decide)) ((bit_setB_apart _ _ (by decide) (by decide)).trans hres),
      trySeal_waits (.inl (by rw [hasked, askSeal_readyAll]; exact hall))]
    beta_reduce
    rw [hasked]
    refine ⟨rfl, ?_, rfl, rfl⟩
    show (g.wf rSealCtl 1 0 (fld (setB v 2 true) 1 0)).rf rSealCtl 1 0 = _
    rw [Pkg.rf_wf_same _ _ (by decide) (by decide), fld_setB_apart _ _ (by decide) (.inl (by decide)), fld_low]
    omega
  · have hasked : (s.pack.on k (Pkg.askSeal (setB v 2 true))).g k = g.askSeal (setB v 2 true) := Pack.on_g_self ..
    refine ⟨_, sealCtl_written hw rfl, ?_⟩
    rw [sealCtl_asks hleads (bit_setB_same _ _ (by decide)) ((bit_setB_apart _ _ (by decide) (by decide)).trans hres),
      trySeal_commits (by rw [hasked, askSeal_leads]; exact hleads) (by rw [hasked, askSeal_phase]; exact hphase)
        (by rw [hasked, askSeal_readyAll]; exact hall) (by rw [hasked]; exact Bool.or_true _) (by rw [hasked, askSeal_refusal]; exact hok), Pack.on_on]
    beta_reduce
    rw [Pack.on_g_self]
    refine ⟨?_, rfl, rfl⟩
    exact congrArg (fun c => Msg.commit c :: g.sent) (askSeal_commitMsg g g.ld.ready)
  · refine ⟨_, sealCtl_written hw rfl, ?_⟩
    rw [sealCtl_resumes hleads hphase ((bit_setB_apart _ _ (by decide) (by decide)).trans hreq) (bit_setB_same _ _ (by decide)) halone howes himage hdq]
    beta_reduce
    rw [Pack.on_g_self]
    obtain ⟨hph, hcause, hsent, hld⟩ := resumed_runs (g := (g.askResume (setB v 3 true)).sendResume) ((askResume_phase _ g).trans hphase)
    refine ⟨hph, hcause, hsent, ?_, ?_, Pack.on_mem ..⟩
    · exact congrArg Leader.resume hld
    · exact congrArg Leader.hostLost hld
  · have hset := onMembers_g (f := fun g => { (g.wb rSealCtl 1 true) with ld := { g.ld with hostLost := true } })
      (P := fun g => g.sealHold = true ∧ g.ld.hostLost = true) (fun g => ⟨?_, rfl⟩) (s.pack.members k) s.pack
    · refine ⟨_, gives_of_atHub rfl hup ((if_pos hleads).trans rfl), hset.1, hset.2, Pack.onMembers_mem ..⟩
    · exact Pkg.rb_wb_same _ _ _ (by decide)

end Sys2Proof.Machine
end

section
/-! PROOFS. The memory stacks: bursts, refresh, scrub, ports and sensors; O47 -/

namespace Sys2Proof.Machine

/-! ## Commands of a hub that runs -/

section
variable {s : State} {c : Instr} {k : Nat} {P : Pack → Prop} (hup : (s.pack.g k).hubUp = true)
include hup

theorem leaves_atHub {h : Pack → Pack} (hc : exec c s = .next (s.onPack (fun s => s.atHub k h))) (hP : P (h s.pack)) : Leaves c s P :=
  ⟨_, gives_of_atHub hc hup rfl, hP⟩

/-- A command that changes its own package only. -/
theorem leaves_hubPkg {f : Pkg → Pkg} (hc : exec c s = .next (s.onPack (fun s => s.atHub k (fun s => s.on k f))))
    (hP : ∀ p : Pack, p.g k = f (s.pack.g k) → p.mem = s.pack.mem → P p) : Leaves c s P :=
  leaves_atHub hup hc (hP _ (Pack.on_g_self ..) (Pack.on_mem ..))
end

/-! ## Bytes of a burst -/

theorem memRdN_getD (m : Mem) : ∀ {n i : Nat} (a : Nat), i < n → (memRdN m a n).getD i 0 = memRd m (a + i)
  | n + 1, 0, a, _ => rfl
  | n + 1, i + 1, a, h => by
    rw [memRdN, List.getD_cons_succ, memRdN_getD m (a + 1) (Nat.lt_of_succ_lt_succ h)]
    congr 1
    omega

theorem burstDecode_nil : burstDecode [] = some [] := by decide +kernel

/-- A burst that the lanes leave alone is delivered as it stands (R253). -/
theorem burstRead_nil (bs : List Byte) : burstRead bs [] = some (bs, false) := by
  unfold burstRead
  rw [burstDecode_nil]
  refine congrArg some (Prod.ext ?_ rfl)
  refine List.ext_getElem (by simp) fun i h1 h2 => ?_
  simp [List.getD_eq_getElem?_getD, List.getElem?_eq_getElem h2]

section
variable {s : Pack} {k j c : Nat}

theorem burst_clean (w : Who) (off : Nat) : s.burst w k j off [] = (some (s.bytes (stackLoc k j (off / 64 * 64)) 64), s) := by
  unfold Pack.burst
  rw [burstRead_nil]
  rfl

theorem burst_corrected {w : Who} {off : Nat} {err : List (Nat × Nat)} {bs : List Byte}
    (h : burstRead (s.bytes (stackLoc k j (off / 64 * 64)) 64) err = some (bs, true)) :
    s.burst w k j off err = (some bs, s.on k (fun g => g.stackCe j (chanOf off) (localOf off / 64))) := by
  unfold Pack.burst
  rw [h]
  rfl

theorem burst_lost {w : Who} {off : Nat} {err : List (Nat × Nat)} (h : burstDecode err = none) :
    s.burst w k j off err = (none, s.on k (fun g => g.burstUe w j off)) := by
  unfold Pack.burst burstRead
  rw [h]
  rfl

theorem store_stackLoc (off : Nat) (bs : List Byte) : (s.store (stackLoc k j off) bs).mem = memWrN s.mem (stackLoc k j off).key bs :=
  rfl

theorem bytes_stackLoc (off n : Nat) : s.bytes (stackLoc k j off) n = memRdN s.mem (stackLoc k j off).key n :=
  rfl

theorem stackCe_logSeq (g : Pkg) (chan burst : Nat) : (g.stackCe j chan burst).logSeq = g.logSeq + 1 := Pkg.logAt_logSeq ..

theorem stackCe_sk (g : Pkg) (chan burst : Nat) : (g.stackCe j chan burst).sk = g.sk := Pkg.logAt_sk ..
end

/-! ## Refresh, scrub and self-refresh -/

section
variable {s : State} {k j c b : Nat} (hup : (s.pack.g k).hubUp = true) (hj : j < 12)
include hup hj

theorem gives_refresh (pending : Bool) (href : (s.pack.g k).selfRef j = false) :
    Gives (.refresh k j c b pending) s (s.pack.on k (fun g =>
      g.setPost j c b (if pending = true ∧ mget 0 (s.pack.g k).sk.post (bankKey j c b) < 8 then mget 0 (s.pack.g k).sk.post (bankKey j c b) + 1 else 0))) := by
  refine gives_of_atHub rfl hup (Pack.on_congr ?_)
  simp only [Pkg.refresh, hj, href, decide_true, Bool.not_true, Bool.or_self, Bool.false_eq_true, if_false, Bool.and_eq_true, decide_eq_true_eq]
  split <;> rfl

/-- The patrol scrub moves on behind the burst that it takes (R253). -/
def Pkg.scrubbed (j c : Nat) (g : Pkg) (b : Nat) : Pkg := { g with sk := { g.sk with scrub := mins g.sk.scrub (chKey j c) ((b + 1) % channelBursts) } }

/-- The patrol scrub runs at a channel: nothing stands before it there. -/
theorem gives_patrolScrub {err : List (Nat × Nat)} (href : (s.pack.g k).selfRef j = false) (hfail : (s.pack.g k).stackFail j = false)
    (hrate : (s.pack.g k).rf (rStack j 0) 23 16 ≠ 0) (hforced : (s.pack.g k).forced j c = none) (hlevel : (s.pack.g k).chLevel j c ≠ 3)
    {p : Pack} {x : Nat} (hx : x = mget 0 (s.pack.g k).sk.scrub (chKey j c))
    (hp : (match s.pack.burst { site := 48 + j } k j (burstAddr c x) err with
      | (none, s) => s
      | (some bs, s) => if err.isEmpty then s else s.store (stackLoc k j (burstAddr c x)) bs) = p) :
    Gives (.patrolScrub k j c err) s (p.on k (fun g => g.scrubbed j c x)) := by
  subst hx
  refine gives_of_atHub rfl hup ?_
  unfold Pack.scrub
  simp only [hj, href, hfail, hforced, decide_true, Bool.not_true, Bool.or_self, Bool.false_eq_true, if_false, Option.isSome_none, beq_iff_eq, hrate, hlevel,
    beq_eq_false_iff_ne.mpr hrate, beq_eq_false_iff_ne.mpr hlevel]
  exact congrArg (fun p : Pack => p.on k fun g => g.scrubbed j c _) hp

theorem leaves_selfRefreshExit : Leaves (.selfRefreshExit k j) s (fun q => (q.g k).selfRef j = false ∧
    (∀ a, a ≠ rStack j 0 → (q.g k).rd a = (s.pack.g k).rd a) ∧ q.mem = s.pack.mem) := by
  refine ⟨_, gives_of_atHub (p := s.pack.on k fun g => g.wb (rStack j 0) 27 false) rfl hup ?_, ?_, fun a ha => ?_, rfl⟩
  · exact Pack.on_congr (if_pos hj)
  · rw [Pack.on_g_self]
    exact Pkg.rb_wb_same _ _ _ (by decide)
  · rw [Pack.on_g_self]
    exact Pkg.wr_rd_ne _ _ ha
end

/-! ## The ports of a stack -/

section
variable {s : Pack} {k j p : Nat}

/-- What is in flight through a lost port is held for good (R252). -/
def Pkg.dropped (s : Pack) (k j p : Nat) (g : Pkg) : Pkg :=
  { g with loads := g.loads.map (fun l => if s.viaLost k j p l.t l.addr.toNat then { l with stuck := true } else l),
           stores := g.stores.map (fun l => if s.viaLost k j p l.t l.addr.toNat then { l with stuck := true } else l) }

theorem mget_mmap_self {α : Type} {d : α} {f : Nat → α → α} (i : Nat) (h : f i d = d) : ∀ m : Map α, mget d (mmap f m) i = f i (mget d m i)
  | [] => h.symm
  | q :: m => by
    rw [mmap, List.map_cons, mget, mget]
    split
    · next hi => rw [hi]
    · exact mget_mmap_self i h m

theorem portDrop_g (i : Nat) : (s.portDrop k j p).g i = (s.g i).dropped s k j p := mget_mmap_self (d := coldPkg i) (f := fun _ g => g.dropped s k j p) i rfl s.pkgs

theorem stackPortDown_up (hj : j < 12) (hp : p < 2) (hport : (s.g k).stackPort j p = true) :
    (s.stackPortDown k j p).g k = ((s.g k).dropped s k j p).stackPortLost j p ∧ (s.stackPortDown k j p).mem = s.mem := by
  have hgo : s.stackPortDown k j p = (s.portDrop k j p).on k (fun g => g.stackPortLost j p) :=
    if_neg (by simp [hj, hp, hport])
  rw [hgo, Pack.on_g_self, portDrop_g]
  exact ⟨rfl, rfl⟩

/-- A port that goes down: its bit; the other port's and FAIL stay. -/
theorem stackPort_cleared (g : Pkg) (hp : p < 2) : (g.wb (rStack j 0) (28 + p) false).stackPort j p = false ∧
    (g.wb (rStack j 0) (28 + p) false).stackPort j (1 - p) = g.stackPort j (1 - p) ∧
    (g.wb (rStack j 0) (28 + p) false).stackFail j = g.stackFail j := by
  refine ⟨Pkg.rb_wb_same _ _ _ (by omega), ?_, ?_⟩
  · rw [Pkg.stackPort, Pkg.rb_wb _ _ _ _ _ (by omega), if_neg (by omega), Pkg.stackPort]
  · rw [Pkg.stackFail, Pkg.rb_wb _ _ _ _ _ (by omega), if_neg (by omega), Pkg.stackFail]

theorem eitherPort (g : Pkg) (hp : p < 2) (hdown : g.stackPort j p = false) : (g.stackPort j 0 || g.stackPort j 1) = g.stackPort j (1 - p) := by
  interval_cases p
  · rw [hdown, Bool.false_or]
  · rw [hdown, Bool.or_false]

theorem stackPortLost_other {g : Pkg} (hj : j < 12) (hp : p < 2) (hport : g.stackPort j p = true) (hother : g.stackPort j (1 - p) = true) :
    g.stackPortLost j p = g.wb (rStack j 0) (28 + p) false := by
  obtain ⟨hcleared, hkept, -⟩ := stackPort_cleared (j := j) g hp
  unfold Pkg.stackPortLost
  rw [if_neg (by simp [hj, hp, hport])]
  refine if_pos ?_
  rw [eitherPort _ hp hcleared, hkept, hother]
  rfl

theorem stackPortLost_last {g : Pkg} (hj : j < 12) (hp : p < 2) (hport : g.stackPort j p = true) (hother : g.stackPort j (1 - p) = false)
    (hfail : g.stackFail j = false) : g.stackPortLost j p = ((g.wb (rStack j 0) (28 + p) false).wb (rStack j 0) 30 true).failPkg := by
  obtain ⟨hcleared, hkept, hstay⟩ := stackPort_cleared (j := j) g hp
  unfold Pkg.stackPortLost
  rw [if_neg (by simp [hj, hp, hport])]
  refine if_neg ?_
  rw [eitherPort _ hp hcleared, hkept, hother, hstay, hfail]
  decide

/-- A package that declares itself failed changes no register but PINS. -/
theorem failPkg_rd (g : Pkg) {a : Nat} (ha : a ≠ rPins) : g.failPkg.rd a = g.rd a := by
  unfold Pkg.failPkg
  split
  · exact Pkg.wr_rd_ne _ _ ha
  · rfl

theorem failPkg_assigned {g : Pkg} (h : g.assigned = true) : g.failPkg.sent = .pkgFail g.pos :: g.sent ∧ g.failPkg.rb rPins 3 = true := by
  rw [Pkg.failPkg, if_pos h]
  exact ⟨rfl, Pkg.rb_wb_same _ _ _ (by decide)⟩
end

/-! ## A sensor's sample -/

/-- Two-bit fields written one after the other, from the lowest. -/
theorem fld_pairs (v : Nat → Nat) (w : W32) : ∀ {n l : Nat}, n ≤ 16 → l < n →
    fld ((List.range n).foldl (fun w l => setF w (2 * l + 1) (2 * l) (v l)) w) (2 * l + 1) (2 * l) = v l % 4
  | n + 1, l, hn, hl => by
    rw [List.range_succ, List.foldl_append, List.foldl_cons, List.foldl_nil]
    by_cases hln : l = n
    · rw [hln, fld_setF_same _ _ (by omega) (by omega), show 2 * n + 1 + 1 - 2 * n = 2 by omega]
      rfl
    · rw [fld_setF_apart _ _ (by omega) (by omega) (by omega)]
      exact fld_pairs v w (by omega) (by omega)

theorem levelOf_lt (t : Nat) {old : Nat} (h : old < 4) : levelOf t old < 4 := by
  unfold levelOf
  grind

section
variable (g : Pkg) {k j z : Nat} (tz rise : Nat)

theorem chLevel_lt (c : Nat) : g.chLevel j c < 4 := by
  rw [Pkg.chLevel, Pkg.rf, fld_eq, show 2 * (c % 16) + 1 + 1 - 2 * (c % 16) = 2 by omega]
  exact Nat.mod_lt _ (by decide)

/-- The levels of a zone's channels after a sample. -/
def levelWord (tz rise : Nat) (old : W32) : W32 :=
  (List.range 16).foldl (fun (w : W32) l => setF w (2 * l + 1) (2 * l) (levelOf (15 * tz + rise * l) (fld old (2 * l + 1) (2 * l)))) 0

theorem fld_levelWord (old : W32) {l : Nat} (hl : l < 16) :
    fld (levelWord tz rise old) (2 * l + 1) (2 * l) = levelOf (15 * tz + rise * l) (fld old (2 * l + 1) (2 * l)) := by
  unfold levelWord
  rw [fld_pairs (fun l => levelOf (15 * tz + rise * l) (fld old (2 * l + 1) (2 * l))) _ (by decide) hl]
  refine Nat.mod_eq_of_lt (levelOf_lt _ ?_)
  rw [fld_eq, show 2 * l + 1 + 1 - 2 * l = 2 by omega]
  exact Nat.mod_lt _ (by decide)

/-- A sample writes its zone's reading, the zone's levels and the stack's summary. -/
theorem stackSample_eq (hj : j < 12) (hz : z < 8) (ht : tz < 1024) : ∃ v, g.stackSample rise j z tz =
    ((g.wf (rStack j (0x10 + 4 * z)) 9 0 tz).wr (rStack j (0x30 + 4 * z)) (levelWord tz rise (g.rd (rStack j (0x30 + 4 * z))))).wr (rStack j 4) v := by
  have hold : (g.wf (rStack j (0x10 + 4 * z)) 9 0 tz).rd (rStack j (0x30 + 4 * z)) = g.rd (rStack j (0x30 + 4 * z)) :=
    Pkg.wr_rd_ne _ _ (by simp only [rStack, rk]; omega)
  unfold Pkg.stackSample
  rw [if_neg (by omega)]
  dsimp only
  rw [hold, Nat.mod_eq_of_lt ht]
  exact ⟨_, rfl⟩

variable {tz rise} (hj : j < 12) (hz : z < 8) (ht : tz < 1024)
include hj hz ht

theorem stackSample_reading : (g.stackSample rise j z tz).rf (rStack j (0x10 + 4 * z)) 9 0 = tz := by
  obtain ⟨v, hv⟩ := stackSample_eq g tz rise hj hz ht
  rw [hv, Pkg.rf, Pkg.wr_rd_ne _ _ (by simp only [rStack, rk]; omega), Pkg.wr_rd_ne _ _ (by simp only [rStack, rk]; omega)]
  exact (g.rf_wf_same tz (by decide) (by decide)).trans (Nat.mod_eq_of_lt ht)

theorem stackSample_level {l : Nat} (hl : l < 16) :
    (g.stackSample rise j z tz).chLevel j (16 * z + l) = levelOf (15 * tz + rise * l) (g.chLevel j (16 * z + l)) := by
  obtain ⟨v, hv⟩ := stackSample_eq g tz rise hj hz ht
  have hdiv : (16 * z + l) / 16 = z := by omega
  have hmod : (16 * z + l) % 16 = l := by omega
  rw [hv, Pkg.chLevel, Pkg.chLevel, hdiv, hmod, Pkg.rf, Pkg.wr_rd_ne _ _ (by simp only [rStack, rk]; omega), Pkg.wr_rd_self, fld_levelWord _ _ _ hl, Pkg.rf]

theorem stackSample_otherLevel {d : Nat} (hd : d < 128) (hne : d / 16 ≠ z) : (g.stackSample rise j z tz).chLevel j d = g.chLevel j d := by
  obtain ⟨v, hv⟩ := stackSample_eq g tz rise hj hz ht
  rw [hv, Pkg.chLevel, Pkg.rf, Pkg.wr_rd_ne _ _ (by simp only [rStack, rk]; omega), Pkg.wr_rd_ne _ _ (by simp only [rStack, rk]; omega),
    Pkg.wf, Pkg.wr_rd_ne _ _ (by simp only [rStack, rk]; omega), Pkg.chLevel, Pkg.rf]

theorem stackSample_trips : (g.stackSample rise j z tz).hk.trips = g.hk.trips := by
  obtain ⟨v, hv⟩ := stackSample_eq g tz rise hj hz ht
  rw [hv]
  rfl
end

theorem thermLook_regs (g : Pkg) (k : Nat) : (g.thermLook k).regs = g.regs ∧ (g.thermLook k).hk.trips = g.hk.trips := by
  unfold Pkg.thermLook
  split <;> exact ⟨rfl, rfl⟩

/-- A sample of a stack's zone: the registers are `stackSample`'s, and the trip wire hears 110 °C (R403). -/
theorem sensorSample_eq (g : Pkg) {k j z tz : Nat} (hj : j < 12) (hz : z < 8) (ht : tz < 1024) :
    (g.sensorSample k j z tz).regs = (g.stackSample (topRise k j) j z tz).regs ∧
    (g.sensorSample k j z tz).hk.trips = if 440 ≤ tz then g.hk.trips ++ [48 + j] else g.hk.trips := by
  unfold Pkg.sensorSample
  rw [if_neg (by omega), Nat.mod_eq_of_lt ht]
  dsimp only
  obtain ⟨hregs, htrips⟩ := thermLook_regs (if 440 ≤ tz then (g.stackSample (topRise k j) j z tz).trip (48 + j) else g.stackSample (topRise k j) j z tz) k
  rw [hregs, htrips]
  split
  · exact ⟨rfl, congrArg (· ++ [48 + j]) (stackSample_trips g hj hz ht)⟩
  · exact ⟨rfl, stackSample_trips g hj hz ht⟩

/-- Settles O47. -/
theorem stackMaintenance : Obligations.StackMaintenance := by
  unfold Obligations.StackMaintenance
  intro s k j c b p z tz pending err g n x hup hj
  refine ⟨gives_refresh hup hj pending, fun href hfail hrate hforced hlevel => ⟨fun herr => ?_, fun fix bs _ _ hne hread => ?_⟩,
    fun hp hport => ⟨fun hother => ?_, fun hother hfail => ?_⟩, fun hz ht => ?_, leaves_selfRefreshExit hup hj⟩
  · subst herr
    refine ⟨_, gives_patrolScrub hup hj href hfail hrate hforced hlevel (x := x) rfl (p := s.pack) ?_, ?_⟩
    · rw [burst_clean]
      rfl
    · beta_reduce
      rw [Pack.on_g_self]
      exact ⟨mget_mins_self .., rfl, rfl⟩
  · refine ⟨_, gives_patrolScrub hup hj href hfail hrate hforced hlevel (x := x) rfl
      (p := (s.pack.on k (fun g => g.stackCe j (chanOf (burstAddr c x)) (localOf (burstAddr c x) / 64))).store (stackLoc k j (burstAddr c x)) bs) ?_, ?_⟩
    · rw [burst_corrected hread]
      exact if_neg (by simpa using hne)
    · beta_reduce
      rw [Pack.on_g_self]
      refine ⟨mget_mins_self .., ?_, store_stackLoc ..⟩
      exact (congrArg Pkg.logSeq (Pack.on_g_self s.pack k fun g => g.stackCe j (chanOf (burstAddr c x)) (localOf (burstAddr c x) / 64))).trans (stackCe_logSeq ..)
  · obtain ⟨hg, hmem⟩ := stackPortDown_up (s := s.pack) hj hp hport
    obtain ⟨hdown, hkept, hfail⟩ := stackPort_cleared (j := j) (g.dropped s.pack k j p) hp
    refine leaves_atHub hup rfl ?_
    beta_reduce
    rw [hg, stackPortLost_other (g := g.dropped s.pack k j p) hj hp hport hother]
    exact ⟨hdown, hkept.trans hother, hfail, rfl, rfl, hmem⟩
  · obtain ⟨hg, hmem⟩ := stackPortDown_up (s := s.pack) hj hp hport
    obtain ⟨hdown, -, -⟩ := stackPort_cleared (j := j) (g.dropped s.pack k j p) hp
    refine leaves_atHub hup rfl ?_
    beta_reduce
    rw [hg, stackPortLost_last (g := g.dropped s.pack k j p) hj hp hport hother hfail]
    have hctl : rStack j 0 ≠ rPins := by simp only [rStack, rPins, hubR, rk]; omega
    have hid : rPackId ≠ rStack j 0 := by simp only [rStack, rPackId, hubR, rk]; omega
    have hassigned : (((g.dropped s.pack k j p).wb (rStack j 0) (28 + p) false).wb (rStack j 0) 30 true).assigned = g.assigned := by
      rw [Pkg.assigned, Pkg.rb_wb_ne _ _ _ _ hid, Pkg.rb_wb_ne _ _ _ _ hid]
      rfl
    have hpos : (((g.dropped s.pack k j p).wb (rStack j 0) (28 + p) false).wb (rStack j 0) 30 true).pos = g.pos := by
      rw [Pkg.pos, Pkg.rf, Pkg.rd_wb, if_neg hid, Pkg.rd_wb, if_neg hid]
      rfl
    refine ⟨?_, ?_, fun ha => ?_, hmem⟩
    · rw [Pkg.stackPort, Pkg.rb, failPkg_rd _ hctl]
      exact (Pkg.rb_wb _ _ _ _ _ (by decide)).trans ((if_neg (by omega)).trans hdown)
    · rw [Pkg.stackFail, Pkg.rb, failPkg_rd _ hctl]
      exact Pkg.rb_wb_same _ _ _ (by decide)
    · obtain ⟨hsent, hpins⟩ := failPkg_assigned (hassigned.trans ha)
      exact ⟨hsent.trans (by rw [hpos]; rfl), hpins⟩
  · obtain ⟨hregs, htrips⟩ := sensorSample_eq (k := k) g hj hz ht
    refine ⟨s.pack.on k fun g => g.sensorSample k j z tz, gives_of_onPack rfl (Pack.on_congr (if_pos hup)), ?_⟩
    beta_reduce
    rw [Pack.on_g_self]
    refine ⟨?_, fun l hl => ?_, fun d hd hne => ?_, htrips, rfl⟩
    · rw [Pkg.rf, Pkg.rd_of_regs hregs]
      exact stackSample_reading g hj hz ht
    · rw [Pkg.chLevel, Pkg.rf, Pkg.rd_of_regs hregs]
      exact stackSample_level g hj hz ht hl
    · rw [Pkg.chLevel, Pkg.rf, Pkg.rd_of_regs hregs]
      exact stackSample_otherLevel g hj hz ht hd hne

end Sys2Proof.Machine
end

section
/-! PROOFS. Requests at a stack's channel; O46 -/

namespace Sys2Proof.Machine

/-! ## The request that a channel grants -/

section
variable {s : Pack} {k j c : Nat} {r : StackReq}

theorem grantReq_bad {g : Pkg} (h : g.reqOk j c r = false) : g.grantReq j c [r] = none := by
  simp [Pkg.grantReq, h]

theorem reqOk_src {g : Pkg} (h : g.reqOk j c r = true) : r.src < 3 := by
  simp only [Pkg.reqOk, Bool.and_eq_true, decide_eq_true_eq] at h
  exact h.1.1.1.1.2

theorem reqOk_span {g : Pkg} (h : g.reqOk j c r = true) : r.off % 64 + (if r.write then r.data.length else r.n) ≤ 64 := by
  simp only [Pkg.reqOk, Bool.and_eq_true, decide_eq_true_eq] at h
  exact h.2.2

/-- The rotation reaches a lone request from wherever it stands (R250). -/
theorem grantReq_lone {g : Pkg} (h : g.reqOk j c r = true) (hrot : mget 0 g.sk.rot (chKey j c) < 3) : g.grantReq j c [r] = some r := by
  have hsrc := reqOk_src h
  unfold Pkg.grantReq
  generalize mget 0 g.sk.rot (chKey j c) = p at hrot
  have hmem : r.src = p ∨ r.src = (p + 1) % 3 ∨ r.src = (p + 2) % 3 := by omega
  simp only [List.findSome?_cons, List.findSome?_nil, List.find?_cons, List.find?_nil, h, Bool.and_true]
  obtain hp | hp | hp := hmem <;> rw [hp] <;> grind

/-- The rotation stands behind the source that was granted. -/
def Pkg.rotated (j c : Nat) (r : StackReq) (g : Pkg) : Pkg := { g with sk := { g.sk with rot := mins g.sk.rot (chKey j c) ((r.src + 1) % 3) } }

theorem stackRequest_forced {rs : List StackReq} (hon : (s.g k).stackServes j = true) {b : Nat} (h : (s.g k).forced j c = some b) :
    s.stackRequest k j c rs = s.on k (fun g => g.setPost j c b 0) := by
  simp [Pack.stackRequest, hon, h]

theorem stackRequest_waits (hon : (s.g k).stackServes j = true) (hforced : (s.g k).forced j c = none)
    (h : (s.g k).chLevel j c = 3 ∨ (r.write = true ∧ r.crc = false)) : s.stackRequest k j c [r] = s := by
  unfold Pack.stackRequest
  simp only [hon, hforced, Bool.not_true, Bool.false_eq_true, if_false]
  by_cases hlevel : (s.g k).chLevel j c = 3
  · rw [if_pos hlevel]
  · obtain ⟨hwrite, hcrc⟩ := h.resolve_left hlevel
    rw [if_neg hlevel, grantReq_bad (by simp [Pkg.reqOk, hwrite, hcrc])]

theorem stackRequest_runs (hon : (s.g k).stackServes j = true) (hforced : (s.g k).forced j c = none) (hlevel : (s.g k).chLevel j c ≠ 3)
    (hok : (s.g k).reqOk j c r = true) (hrot : mget 0 (s.g k).sk.rot (chKey j c) < 3) :
    s.stackRequest k j c [r] = (s.on k (Pkg.rotated j c r)).doReq k j r := by
  unfold Pack.stackRequest
  simp only [hon, hforced, Bool.not_true, Bool.false_eq_true, if_false, hlevel, grantReq_lone hok hrot]
  rfl

theorem stackPartial_elsewhere (h : c ≠ chanOf r.off) : s.stackPartial k j c r [] = s := if_pos (.inr (.inr (Ne.symm h)))

theorem stackPartial_lone (h : r.write = true ∧ r.data.length < 64 ∧ c = chanOf r.off) : s.stackPartial k j c r [] = s.stackRequest k j c [r] := by
  obtain ⟨hwrite, hlen, hc⟩ := h
  exact if_neg (by simp [hwrite, hc]; omega)
end

/-! ## What a granted request does -/

section
variable {s : Pack} {k j : Nat} {r : StackReq}

theorem doReq_write (hw : r.write = true) (hlen : r.data.length = 64) : s.doReq k j r = s.store (stackLoc k j r.off) r.data := by
  simp [Pack.doReq, hw, hlen]

/-- What a channel delivers: the source, the stack, the offset and the bytes. -/
def Pkg.delivered (x : Nat × Nat × Nat × List Byte) (g : Pkg) : Pkg := { g with sk := { g.sk with read := some x } }

theorem doReq_read (hw : r.write = false) (herr : r.err = []) :
    s.doReq k j r = s.on k (Pkg.delivered (r.src, j, r.off, ((s.bytes (stackLoc k j (r.off / 64 * 64)) 64).drop (r.off % 64)).take r.n)) := by
  unfold Pack.doReq
  rw [hw, herr, burst_clean]
  rfl

/-- The burst that a write of less than a burst leaves (R251). -/
def Pack.merged (s : Pack) (k j off : Nat) (data : List Byte) : List Byte :=
  let bs := s.bytes (stackLoc k j (off / 64 * 64)) 64
  bs.take (off % 64) ++ data ++ bs.drop (off % 64 + data.length)

theorem doReq_partial (hw : r.write = true) (hlen : r.data.length < 64) (herr : r.err = []) :
    s.doReq k j r = s.store (stackLoc k j (r.off / 64 * 64)) (s.merged k j r.off r.data) := by
  simp [Pack.doReq, hw, hlen.ne, Pack.partialWrite, herr, burst_clean, Pack.merged]

theorem doReq_lost (hw : r.write = true) (hlen : r.data.length < 64) (herr : burstDecode r.err = none) :
    s.doReq k j r = s.on k (fun g => g.burstUe (reqWho j r) j r.off) := by
  simp [Pack.doReq, hw, hlen.ne, Pack.partialWrite, burst_lost herr]

theorem merged_length {off : Nat} {data : List Byte} (h : off % 64 + data.length ≤ 64) : (s.merged k j off data).length = 64 := by
  simp only [Pack.merged, List.length_append, List.length_take, List.length_drop, bytes_stackLoc, memRdN_length]
  omega

/-- Byte `i` of a merged burst: the data's where the data reach, else the one that stood there. -/
theorem merged_getD {off i : Nat} {data : List Byte} (h : off % 64 + data.length ≤ 64) (hi : i < 64) :
    (s.merged k j off data).getD i 0 = if off % 64 ≤ i ∧ i < off % 64 + data.length then data.getD (i - off % 64) 0
      else memRd s.mem ((stackLoc k j (off / 64 * 64)).key + i) := by
  have hread : ∀ i, i < 64 → (s.bytes (stackLoc k j (off / 64 * 64)) 64).getD i 0 = memRd s.mem ((stackLoc k j (off / 64 * 64)).key + i) :=
    fun i hi => by rw [bytes_stackLoc, memRdN_getD _ _ hi]
  have hlen : (s.bytes (stackLoc k j (off / 64 * 64)) 64).length = 64 := by rw [bytes_stackLoc, memRdN_length]
  rw [Pack.merged, ← hread i hi]
  generalize s.bytes (stackLoc k j (off / 64 * 64)) 64 = bs at hlen
  simp only [List.getD_eq_getElem?_getD, List.append_assoc]
  by_cases hlow : i < off % 64
  · rw [if_neg (by omega), List.getElem?_append_left (by simp; omega), List.getElem?_take_of_lt hlow]
  · rw [List.getElem?_append_right (by simp; omega), List.length_take, hlen, Nat.min_eq_left (by omega)]
    by_cases hin : i < off % 64 + data.length
    · rw [if_pos ⟨by omega, hin⟩, List.getElem?_append_left (by omega)]
    · rw [if_neg (by omega), List.getElem?_append_right (by omega), List.getElem?_drop]
      congr 2
      omega

/-- A write of less than a burst changes exactly its bytes. -/
theorem merged_stored {off : Nat} {data : List Byte} (h : off % 64 + data.length ≤ 64) :
    let m := memWrN s.mem (stackLoc k j (off / 64 * 64)).key (s.merged k j off data)
    let key := (stackLoc k j (off / 64 * 64)).key + off % 64
    (∀ i, i < data.length → memRd m (key + i) = data.getD i 0) ∧ (∀ b, b < key ∨ key + data.length ≤ b → memRd m b = memRd s.mem b) := by
  intro m key
  have hlen := merged_length (s := s) (k := k) (j := j) h
  refine ⟨fun i hi => ?_, fun b hb => ?_⟩
  · rw [show key + i = (stackLoc k j (off / 64 * 64)).key + (off % 64 + i) by omega, memRd_memWrN_in _ _ _ _ (by omega), merged_getD h (by omega),
      if_pos ⟨by omega, by omega⟩, Nat.add_sub_cancel_left]
  · by_cases hout : b < (stackLoc k j (off / 64 * 64)).key ∨ (stackLoc k j (off / 64 * 64)).key + 64 ≤ b
    · exact memRd_memWrN_out _ _ _ _ (by omega)
    · obtain ⟨i, rfl⟩ : ∃ i, b = (stackLoc k j (off / 64 * 64)).key + i := ⟨b - (stackLoc k j (off / 64 * 64)).key, by omega⟩
      rw [memRd_memWrN_in _ _ _ _ (by omega), merged_getD h (by omega), if_neg (by omega)]

/-- An uncorrectable burst is logged, the package will not be ready and asks for a revert (R255, R343). -/
theorem burstUe_says (g : Pkg) (w : Who) (off : Nat) (hj : j < 12) : (g.burstUe w j off).pr.bad = true ∧ (g.burstUe w j off).logSeq = g.logSeq + 1 ∧
    (g.burstUe w j off).sent.head? = some (.revertReq g.pos 0x020A) ∧ (g.burstUe w j off).sk = g.sk := by
  have hpos : ((((g.wf (rk (48 + j) 0xC) 31 16 (min (g.rf (rk (48 + j) 0xC) 31 16 + 1) 0xFFFF)).wr (rk (48 + j) 0x50)
      (mk32 (2 ^ 31 + chanOf off % 128 * 2 ^ 24 + localOf off / 64 % 2 ^ 24))).logAt 0x020A w.site w.unit w.thr j (chanOf off) (localOf off / 64))).pos = g.pos := by
    rw [Pkg.pos, Pkg.rf, Pkg.logAt_rd _ _ _ _ _ _ _ _ (by decide), Pkg.wr_rd_ne _ _ (by simp only [rPackId, hubR, rk]; omega),
      Pkg.wf, Pkg.wr_rd_ne _ _ (by simp only [rPackId, hubR, rk]; omega), Pkg.pos, Pkg.rf]
  unfold Pkg.burstUe Pkg.parityMark Pkg.stackUe
  dsimp only [Pkg.send, List.head?_cons]
  rw [hpos, Pkg.logAt_logSeq, Pkg.logAt_sk]
  exact ⟨rfl, rfl, rfl, rfl⟩
end

/-- Settles O46. -/
theorem stackAccesses : Obligations.StackAccesses := by
  unfold Obligations.StackAccesses
  intro s k j c r g burst key moved part hup hon
  have hj : j < 12 := by
    simp only [Pkg.stackServes, Bool.and_eq_true, decide_eq_true_eq] at hon
    exact hon.1.1
  refine ⟨fun hc => gives_of_atHub rfl hup (stackPartial_elsewhere hc), fun b hb => ⟨gives_of_atHub rfl hup (stackRequest_forced hon hb), fun hpart =>
      gives_of_atHub rfl hup ((stackPartial_lone hpart).trans (stackRequest_forced hon hb))⟩,
    fun hforced hwait => ⟨gives_of_atHub rfl hup (stackRequest_waits hon hforced hwait), fun hpart =>
      gives_of_atHub rfl hup ((stackPartial_lone hpart).trans (stackRequest_waits hon hforced hwait))⟩,
    fun hforced hlevel hok hrot => ?_⟩
  have hruns := stackRequest_runs hon hforced hlevel hok hrot
  have hmoved (q : Pack) (hq : (q.g k).sk = (g.rotated j c r).sk) : moved q := (congrArg (fun t => mget 0 t.rot (chKey j c)) hq).trans (mget_mins_self ..)
  have hself : (s.pack.on k (Pkg.rotated j c r)).g k = g.rotated j c r := Pack.on_g_self ..
  have hmoved' (x) : moved ((s.pack.on k (Pkg.rotated j c r)).on k (Pkg.delivered x)) := by
    show mget 0 (((s.pack.on k (Pkg.rotated j c r)).on k (Pkg.delivered x)).g k).sk.rot (chKey j c) = _
    rw [Pack.on_g_self, hself]
    exact mget_mins_self ..
  refine ⟨fun hw hlen => ?_, fun hw herr => ?_, fun hpart => ⟨fun herr => ?_, fun herr => ?_⟩⟩
  · refine ⟨_, gives_of_atHub rfl hup (hruns.trans (doReq_write hw hlen)), store_stackLoc .., hmoved _ ?_⟩
    exact congrArg Pkg.sk hself
  · refine ⟨_, gives_of_atHub rfl hup (hruns.trans (doReq_read hw herr)), ?_⟩
    rw [bytes_stackLoc, Pack.on_mem, ← bytes_stackLoc]
    exact ⟨congrArg (fun g => g.sk.read) (Pack.on_g_self ..), hmoved' _, rfl⟩
  · obtain ⟨hw, hlen, -⟩ := id hpart
    have hspan : r.off % 64 + r.data.length ≤ 64 := by simpa [hw] using reqOk_span hok
    refine ⟨_, gives_of_atHub rfl hup ((stackPartial_lone hpart).trans (hruns.trans (doReq_partial hw hlen herr))), ?_⟩
    obtain ⟨hin, hout⟩ := merged_stored (s := s.pack.on k (Pkg.rotated j c r)) (k := k) (j := j) hspan
    exact ⟨hin, hout, (congrArg Pkg.regs hself).trans rfl, hmoved _ (congrArg Pkg.sk hself), fun i hi => Pack.on_g_ne _ _ hi⟩
  · obtain ⟨hw, hlen, -⟩ := id hpart
    refine ⟨_, gives_of_atHub rfl hup ((stackPartial_lone hpart).trans (hruns.trans (doReq_lost hw hlen herr))), ?_⟩
    obtain ⟨hbad, hlog, hsent, hsk⟩ := burstUe_says (j := j) (g.rotated j c r) (reqWho j r) r.off hj
    have hg : ((s.pack.on k (Pkg.rotated j c r)).on k fun g => g.burstUe (reqWho j r) j r.off).g k = (g.rotated j c r).burstUe (reqWho j r) j r.off := by
      rw [Pack.on_g_self, hself]
    beta_reduce
    refine ⟨rfl, ?_, ?_, hmoved _ (by rw [hg, hsk]), ?_⟩
    · rw [hg, hbad]
    · rw [hg, hlog]
      rfl
    · rw [hg, hsent]
      rfl

end Sys2Proof.Machine
end

section
/-! PROOFS. A report of PERM_DONE in a pack whose packages do not stand in order; O45 -/

namespace Sys2Proof.Machine

/-! ## A table of packages that is not in order -/

/-- A package alone at position 0 whose permute runs, and which leads its pack of one. -/
def permuting : Pkg :=
  { regs := [(rPerm 0, 0x80000000), (rPackId, 0xC0), (rMemLo, 1)], hk := { state := 2, perst := false, pwrok := true } }

/-- The package's record stands behind that of package 1. -/
def disorderedState : State := { pack := { pkgs := [(1, {}), (0, permuting)] }, pending := [] }

/-- A report that changes nothing of its package writes the package's record anew, in front. -/
theorem permDone_reorders : (after (.permDone 0 0) disorderedState).pkgs.length = 3 := by decide +kernel

/-- Refutes O45: the report of a table that runs again is void, yet PERM_DONE writes the package's record back in its place by number; in a pack whose records do not stand in order this is another pack. -/
theorem not_permutation : ¬ Obligations.Permutation := by
  intro h
  obtain ⟨-, -, hleader⟩ := h disorderedState 0 .host 0 [] ⟨0, 0, 0, 0⟩ ⟨0, 0, 0, 0⟩ ⟨0, 0, 0, 0⟩ ⟨0, 0, 0, 0⟩ 0 0 0 false
  obtain ⟨-, -, -, hvoid, -⟩ := hleader (by decide +kernel) (by decide +kernel) (by decide +kernel)
  have hgives := hvoid ⟨0, by decide +kernel, by decide +kernel⟩
  exact absurd (permDone_reorders.symm.trans (congrArg (fun p : Pack => p.pkgs.length) hgives.after_eq)) (by decide)

end Sys2Proof.Machine
end

section
/-! PROOFS. Reduction groups: enable, disable, deadline and the close of a step; O43 -/

namespace Sys2Proof.Machine

/-! ## The registers of a group -/

section
variable (g : Pkg) {j : Nat} (hj : j < 64)

theorem rColl_ne {o o' : Nat} (h : o ≠ o') : rColl j o ≠ rColl j o' := by simp only [rColl, hubR, rk]; omega

theorem rTmr_ne_rColl {n o p : Nat} (hn : n < 64) (ho : o < 8) : rTmr n o ≠ rColl j p := by simp only [rTmr, rColl, hubR, rk]; omega

theorem cTimer_lt {n : Nat} (h : g.cTimer j = some n) : n < 64 := by
  unfold Pkg.cTimer at h
  split at h
  · obtain rfl := Option.some.inj h
    rw [Pkg.rf, fld_low]
    exact Nat.mod_lt _ (by decide)
  · cases h

theorem freeTimer_lt {n : Nat} (h : g.freeTimer = some n) : n < 64 := List.mem_range.mp (List.mem_of_find?_eq_some h)

theorem iqid_lt : g.iqid j < 4096 := by
  rw [Pkg.iqid, Pkg.rf, fld_low]
  exact Nat.mod_lt _ (by decide)

/-- Queue registers and the QID map are no part of the groups' blocks. -/
theorem rQ_ne_rColl {site q o p : Nat} (hj : j < 64) (hq : q < 4096) (ho : o < 0x40) (hp : p < 0x40) : rQ site q o ≠ rColl j p := by
  simp only [rQ, rColl, hubR, rk]
  omega

theorem rQmap_ne_rColl {q p : Nat} (hj : j < 64) (hp : p < 0x40) : rQmap q ≠ rColl j p := by
  simp only [rQmap, rColl, hubR, rk]
  omega

include hj

/-- The checks of an enable look at the policy, the QID, the members, the deadline and the group's inbound queue. -/
theorem collOk_congr {h : Pkg} (hpolicy : h.policy j = g.policy j) (hiqid : h.iqid j = g.iqid j)
    (hrd : ∀ a, a ≠ rColl j 0 → h.rd a = g.rd a) : h.collOk j = g.collOk j ∧ h.timed j = g.timed j ∧ h.freeTimer = g.freeTimer := by
  have htimed : h.timed j = g.timed j := by rw [Pkg.timed, hpolicy, Pkg.timed]
  have hmem : h.cMem j = g.cMem j := by
    unfold Pkg.cMem Pkg.rd64
    rw [hrd _ (rColl_ne (by decide)), hrd _ (rColl_ne (by decide))]
  have hhome (q : Nat) : h.home q = g.home q := by
    unfold Pkg.home Pkg.rb Pkg.rf
    rw [hrd _ (rQmap_ne_rColl hj (by decide))]
  have hctl (site : Nat) : h.rd (rQ site (g.iqid j) 0) = g.rd (rQ site (g.iqid j) 0) :=
    hrd _ (rQ_ne_rColl hj (iqid_lt g) (by decide) (by decide))
  refine ⟨?_, htimed, ?_⟩
  · unfold Pkg.collOk
    dsimp only
    rw [hiqid, hhome, hpolicy, hmem, htimed, hrd _ (rColl_ne (by decide))]
    generalize g.iqid j = q at hctl
    cases g.home q with
    | none => rfl
    | some site =>
      have hprod : h.qProd site q = g.qProd site q := by rw [Pkg.qProd, Pkg.qProd, Pkg.rf, Pkg.rf, hctl]
      have hen : h.qEn site q = g.qEn site q := by rw [Pkg.qEn, Pkg.qEn, Pkg.rb, Pkg.rb, hctl]
      have hcap : h.credCap j site q = g.credCap j site q := by rw [Pkg.credCap, Pkg.credCap, hmem, Pkg.qSize, Pkg.qSize, Pkg.rf, Pkg.rf, hctl]
      simp only [hprod, hen, hcap]
  · have halloc : ∀ n, n < 64 → h.tmrAlloc n = g.tmrAlloc n := fun n hn => by
      unfold Pkg.tmrAlloc Pkg.rb
      rw [hrd _ (rTmr_ne_rColl hn (by decide))]
    unfold Pkg.freeTimer
    exact List.find?_congr fun n hn => by rw [halloc n (List.mem_range.mp hn)]
end

/-! ## Writes of a group's control word -/

/-- The word of COLL.CTL with the policy and the QID of a write. -/
def collWord (c : W32) (policy qid : Nat) : W32 := setF (setF c 27 26 policy) 11 0 qid

section
variable (c : W32) (policy qid : Nat)

theorem collWord_policy : fld (collWord c policy qid) 27 26 = policy % 4 :=
  (fld_setF_apart _ _ (by decide) (by decide) (.inr (by decide))).trans (fld_setF_same _ _ (by decide) (by decide))

theorem collWord_qid : fld (collWord c policy qid) 11 0 = qid % 4096 := fld_setF_same _ _ (by decide) (by decide)

theorem collWord_bit {i : Nat} (hi : 27 < i) : bit (collWord c policy qid) i = bit c i :=
  (bit_setF_apart _ _ (by decide) (by decide) (.inr (by omega))).trans (bit_setF_apart _ _ (by decide) (by decide) (.inr hi))
end

/-- A write of COLL.CTL clears the error bits that it names. -/
def Pkg.collAck (j : Nat) (v : W32) (g : Pkg) : Pkg := g.wf (rColl j 0) 30 29 (g.rf (rColl j 0) 30 29 &&& (3 - fld v 30 29))

/-- The policy and the QID of a write. -/
def Pkg.collSet (j : Nat) (v : W32) (g : Pkg) : Pkg := g.wr (rColl j 0) (collWord (g.rd (rColl j 0)) (fld v 27 26) (fld v 11 0))

section
variable {g : Pkg} {j : Nat} {v : W32} {a : Nat}

theorem collAck_rd (ha : a ≠ rColl j 0) : (g.collAck j v).rd a = g.rd a := Pkg.wr_rd_ne _ _ ha

theorem collSet_rd (ha : a ≠ rColl j 0) : (g.collSet j v).rd a = g.rd a := Pkg.wr_rd_ne _ _ ha

theorem collAck_cEn : (g.collAck j v).cEn j = g.cEn j := g.rb_wf_apart _ (by decide) (by decide) (.inl (by decide))

theorem collSet_cEn : (g.collSet j v).cEn j = g.cEn j := by
  rw [Pkg.cEn, Pkg.rb, Pkg.collSet, Pkg.wr_rd_self, collWord_bit _ _ _ (by decide), Pkg.cEn, Pkg.rb]

theorem collSet_policy : (g.collSet j v).policy j = v.toNat / 2 ^ 26 % 4 := by
  rw [Pkg.policy, Pkg.rf, Pkg.collSet, Pkg.wr_rd_self, collWord_policy, fld_eq]
  omega

theorem collSet_iqid : (g.collSet j v).iqid j = v.toNat % 4096 := by
  rw [Pkg.iqid, Pkg.rf, Pkg.collSet, Pkg.wr_rd_self, collWord_qid, fld_low]
  omega

theorem collAck_calm (hj : j < 64) : (g.collAck j v).calm = g.calm := by
  have hstat : rSealStat ≠ rColl j 0 := by simp only [rSealStat, rColl, hubR, rk]; omega
  have hmode : rPipeMode ≠ rColl j 0 := by simp only [rPipeMode, rColl, hubR, rk]; omega
  rw [Pkg.calm, Pkg.phase, Pkg.mode, Pkg.rf, Pkg.rf, collAck_rd hstat, collAck_rd hmode, Pkg.calm, Pkg.phase, Pkg.mode, Pkg.rf, Pkg.rf]

theorem collWrite_ctl : g.collWrite j 0 v = if !(g.collAck j v).calm then g.collAck j v
    else if (g.collAck j v).cEn j then (if bit v 28 then g.collAck j v else (g.collAck j v).collOff j)
    else if !bit v 28 then (g.collAck j v).collSet j v
    else if ((g.collAck j v).collSet j v).collOk j then ((g.collAck j v).collSet j v).collArm j
    else ((g.collAck j v).collSet j v).wb (rColl j 0) 29 true := rfl

/-- The group with the policy and the QID of a write, as its control word stood. -/
def Pkg.collAsked (g : Pkg) (j : Nat) (v : W32) : Pkg := g.wr (rColl j 0) (setF (setF (g.rd (rColl j 0)) 27 26 (v.toNat / 2 ^ 26)) 11 0 v.toNat)

/-- What decides on an enable does not depend on the error bits. -/
theorem collOk_asked (hj : j < 64) (v : W32) (key : Nat) :
    let h := ((g.arrived key).collAck j (setB v 28 true)).collSet j (setB v 28 true)
    h.collOk j = (g.collAsked j v).collOk j ∧ h.timed j = (g.collAsked j v).timed j ∧ h.freeTimer = g.freeTimer := by
  intro h
  have hv26 : (setB v 28 true).toNat / 2 ^ 26 % 4 = v.toNat / 2 ^ 26 % 4 := by
    have := fld_setB_apart v (i := 28) (hi := 27) (lo := 26) true (by decide) (.inl (by decide))
    simpa [fld_eq] using this
  have hv0 : (setB v 28 true).toNat % 4096 = v.toNat % 4096 := by
    have := fld_setB_apart v (i := 28) (hi := 11) (lo := 0) true (by decide) (.inl (by decide))
    simpa [fld_low] using this
  have hrd : ∀ a, a ≠ rColl j 0 → h.rd a = g.rd a := fun a ha => (collSet_rd ha).trans (collAck_rd ha)
  have hasked : ∀ a, a ≠ rColl j 0 → (g.collAsked j v).rd a = g.rd a := fun a ha => Pkg.wr_rd_ne _ _ ha
  have hpolicy : (g.collAsked j v).policy j = v.toNat / 2 ^ 26 % 4 := by
    rw [Pkg.policy, Pkg.rf, Pkg.collAsked, Pkg.wr_rd_self]
    exact collWord_policy ..
  have hiqid : (g.collAsked j v).iqid j = v.toNat % 4096 := by
    rw [Pkg.iqid, Pkg.rf, Pkg.collAsked, Pkg.wr_rd_self]
    exact collWord_qid ..
  obtain ⟨hok, htimed, hfree⟩ := collOk_congr (g.collAsked j v) hj (h := h) (collSet_policy.trans (hv26.trans hpolicy.symm))
    (collSet_iqid.trans (hv0.trans hiqid.symm)) (fun a ha => (hrd a ha).trans (hasked a ha).symm)
  refine ⟨hok, htimed, hfree.trans ?_⟩
  unfold Pkg.freeTimer
  exact List.find?_congr fun n hn => by
    rw [Pkg.tmrAlloc, Pkg.tmrAlloc, Pkg.rb, Pkg.rb, hasked _ (rTmr_ne_rColl (List.mem_range.mp hn) (by decide))]
end

/-! ## Enable and disable -/

theorem toNat_mk32 {n : Nat} (h : n < 2 ^ 32) : (mk32 n).toNat = n := (BitVec.toNat_ofNat ..).trans (Nat.mod_eq_of_lt h)

section
variable {h : Pkg} {j n : Nat}

/-- A group that starts: enabled, after the last sealed step. -/
def Pkg.collStart (j : Nat) (h : Pkg) : Pkg := (h.wb (rColl j 0) 28 true).wr (rColl j 0x1C) (mk32 h.sealed)

theorem collArm_untimed (ht : h.timed j = false) : h.collArm j = h.collStart j := by
  simp only [Pkg.collArm, ht, Bool.false_eq_true, if_false]
  rfl

theorem collArm_timed (ht : h.timed j = true) (hn : h.freeTimer = some n) :
    h.collArm j = ((h.wr (rTmr n 0) (collTimer j)).wr (rColl j 0x10) (mk32 (64 + n))).collStart j := by
  simp only [Pkg.collArm, ht, hn, if_true]
  rfl

theorem collArm_noTimer (ht : h.timed j = true) (hn : h.freeTimer = none) : h.collArm j = h.wb (rColl j 0) 30 true := by
  simp only [Pkg.collArm, ht, hn, if_true]

theorem sealed_lt (h : Pkg) : h.sealed < 2 ^ 32 := (h.rd rSealStep).isLt

/-- A group that starts keeps its fields but EN, and counts its steps from the sealed one. -/
theorem collStart_says (h : Pkg) (j : Nat) : (h.collStart j).cEn j = true ∧ (h.collStart j).policy j = h.policy j ∧ (h.collStart j).iqid j = h.iqid j ∧
    (h.collStart j).lstep j = h.sealed ∧ (∀ a, a ≠ rColl j 0 → a ≠ rColl j 0x1C → (h.collStart j).rd a = h.rd a) := by
  have hctl : (h.collStart j).rd (rColl j 0) = setB (h.rd (rColl j 0)) 28 true := by
    rw [Pkg.collStart, Pkg.wr_rd_ne _ _ (rColl_ne (by decide)), Pkg.rd_wb, if_pos rfl]
  refine ⟨?_, ?_, ?_, ?_, fun a h0 h1 => ?_⟩
  · rw [Pkg.cEn, Pkg.rb, hctl, bit_setB_same _ _ (by decide)]
  · rw [Pkg.policy, Pkg.rf, hctl, fld_setB_apart _ _ (by decide) (.inl (by decide)), Pkg.policy, Pkg.rf]
  · rw [Pkg.iqid, Pkg.rf, hctl, fld_setB_apart _ _ (by decide) (.inl (by decide)), Pkg.iqid, Pkg.rf]
  · rw [Pkg.lstep, Pkg.collStart, Pkg.wr_rd_self, toNat_mk32 (sealed_lt h)]
  · exact (Pkg.wr_rd_ne _ _ h1).trans (Pkg.wr_rd_ne _ _ h0)

theorem cTimer_named (hn : n < 64) (hrd : h.rd (rColl j 0x10) = mk32 (64 + n)) : h.cTimer j = some n := by
  have hnat : (mk32 (64 + n)).toNat = 64 + n := toNat_mk32 (by omega)
  have hbit : bit (mk32 (64 + n)) 6 = true := by
    rw [bit, hnat, Nat.testBit_eq_decide_div_mod_eq]
    simp only [decide_eq_true_eq]
    omega
  rw [Pkg.cTimer, Pkg.rb, Pkg.rf, hrd, hbit, if_pos rfl, fld_low, hnat]
  congr 1
  omega

theorem collTimer_alloc (j : Nat) : bit (collTimer j) 31 = true := by
  have hnat : (collTimer j).toNat = 2 ^ 31 + 2 ^ 28 + j % 64 * 2 ^ 21 := toNat_mk32 (by omega)
  rw [bit, hnat, Nat.testBit_eq_decide_div_mod_eq]
  simp only [decide_eq_true_eq]
  omega

/-- A group that starts with a timer: the timer is the group's. -/
theorem collArm_timer (hj : j < 64) (hn : n < 64) (ht : h.timed j = true) (hfree : h.freeTimer = some n) :
    (h.collArm j).cEn j = true ∧ (h.collArm j).cTimer j = some n ∧ (h.collArm j).tmrAlloc n = true ∧ (h.collArm j).lstep j = h.sealed := by
  rw [collArm_timed ht hfree]
  obtain ⟨hen, -, -, hstep, hrd⟩ := collStart_says ((h.wr (rTmr n 0) (collTimer j)).wr (rColl j 0x10) (mk32 (64 + n))) j
  refine ⟨hen, cTimer_named hn ?_, ?_, hstep.trans ?_⟩
  · rw [hrd _ (rColl_ne (by decide)) (rColl_ne (by decide)), Pkg.wr_rd_self]
  · rw [Pkg.tmrAlloc, Pkg.rb, hrd _ (rTmr_ne_rColl hn (by decide)) (rTmr_ne_rColl hn (by decide)), Pkg.wr_rd_ne _ _ (rTmr_ne_rColl hn (by decide)), Pkg.wr_rd_self,
      collTimer_alloc]
  · have hseal : rSealStep ≠ rColl j 0x10 ∧ rSealStep ≠ rTmr n 0 := by simp only [rSealStep, rColl, rTmr, hubR, rk]; omega
    rw [Pkg.sealed, Pkg.wr_rd_ne _ _ hseal.1, Pkg.wr_rd_ne _ _ hseal.2, Pkg.sealed]

/-- A disable: the group is off, its timer free. -/
theorem collOff_says (h : Pkg) : (h.collOff j).cEn j = false ∧ (h.collOff j).cTimer j = none ∧
    (∀ n, n < 64 → h.cTimer j = some n → (h.collOff j).tmrAlloc n = false) := by
  have hbit (g : Pkg) : (g.wb (rColl j 0) 28 false).cEn j = false := Pkg.rb_wb_same _ _ _ (by decide)
  unfold Pkg.collOff
  cases hcase : h.cTimer j with
  | none =>
    refine ⟨hbit h, ?_, fun n _ hn => by cases hn⟩
    have hkeep : (h.wb (rColl j 0) 28 false).rd (rColl j 0x10) = h.rd (rColl j 0x10) := Pkg.wr_rd_ne _ _ (rColl_ne (by decide))
    unfold Pkg.cTimer Pkg.rb Pkg.rf at hcase ⊢
    exact (congrArg (fun w => if bit w 6 then some (fld w 5 0) else none) hkeep).trans hcase
  | some n =>
    have hzero : (((h.tmrFree n).wr (rColl j 0x10) 0).wb (rColl j 0) 28 false).rd (rColl j 0x10) = 0 :=
      (Pkg.wr_rd_ne _ _ (rColl_ne (by decide))).trans (Pkg.wr_rd_self ..)
    refine ⟨hbit _, ?_, fun i hi hin => ?_⟩
    · unfold Pkg.cTimer Pkg.rb
      exact if_neg (by
        show ¬ bit ((((h.tmrFree n).wr (rColl j 0x10) 0).wb (rColl j 0) 28 false).rd (rColl j 0x10)) 6 = true
        rw [hzero]
        decide)
    · obtain rfl := Option.some.inj hin
      show bit ((((h.tmrFree n).wr (rColl j 0x10) 0).wb (rColl j 0) 28 false).rd (rTmr n 0)) 31 = false
      rw [Pkg.rd_wb, if_neg (rTmr_ne_rColl hi (by decide)), Pkg.wr_rd_ne _ _ (rTmr_ne_rColl hi (by decide)), Pkg.tmrFree,
        Pkg.wr_rd_ne _ _ (by simp only [rTmr, hubR, rk]; omega), Pkg.wr_rd_self]
      decide
end

/-! ## Group writes that land -/

theorem blockOf_coll {j : Nat} (hj : j < 64) : blockOf 62 (0x8000 + 0x40 * j) = some (.coll, 0x40 * j) := by
  simp (disch := omega) only [blockOf, if_neg, if_pos, if_true, Nat.add_sub_cancel_left]

section
variable {s : State} {k j : Nat} {v : W32} (hj : j < 64)
include hj

/-- The posted write of COLL.CTL lands as `collWrite`. -/
theorem lands_collCtl {P : Pack → Prop}
    (hP : ∀ p : Pack, p.g k = ((s.pack.g k).arrived (rColl j 0)).collWrite j 0 v → p.mem = s.pack.mem → P p) :
    Lands s k { key := rColl j 0, site := 62, off := 0x8000 + 0x40 * j, v := v, x := {} } P := by
  refine lands_of_on (b := .coll) (o := 0x40 * j) ?_ ?_ (fun g => g.collWrite j 0 v) (fun p _ => ?_) hP
  · exact blockOf_coll hj
  · simp only [rColl, hubR, rk]; omega
  · have hdiv : 0x40 * j / 0x40 = j := by omega
    have hmod : 0x40 * j % 0x40 = 0 := by omega
    show p.on k (fun g => g.collWrite (0x40 * j / 0x40) (0x40 * j % 0x40) v) = _
    rw [hdiv, hmod]
end

section
variable {s : State} {k j : Nat} {m : Master} {v : W32}

theorem busWrite_collCtl (hj : j < 64) (hw : Writable s.pack k m 62 (0x8000 + 0x40 * j) .coll (0x40 * j)) :
    s.pack.busWrite k m 62 (0x8000 + 0x40 * j) v = s.pack.posted k { key := rColl j 0, site := 62, off := 0x8000 + 0x40 * j, v := v, x := {} } := by
  have hkey : busyKey 62 .coll (0x40 * j) = some (rColl j 0) := by
    have hdiv : 0x40 * j / 0x40 = j := by omega
    simp only [busyKey, Nat.mul_mod_right, hdiv]
    rfl
  exact busWrite_posts hw rfl rfl hkey (by decide)

/-- A group's registers but for its control word, once a write of it has landed. -/
theorem collAsk_error {g : Pkg} {i : Nat} (hi : 28 < i) (hi' : i < 32) (hen : g.cEn j = false) (hcalm : g.calm = true) (h : Pkg)
    (hh : h = ((g.arrived (rColl j 0)).collAck j v).collSet j v) : (h.wb (rColl j 0) i true).cEn j = false ∧ (h.wb (rColl j 0) i true).rb (rColl j 0) i = true := by
  refine ⟨?_, Pkg.rb_wb_same _ _ _ hi'⟩
  rw [Pkg.cEn, Pkg.rb_wb _ _ _ _ _ hi', if_neg (by omega)]
  exact (congrArg (fun g => Pkg.cEn g j) hh).trans (collSet_cEn.trans (collAck_cEn.trans hen))

/-- A write of COLL.CTL with EN of a group that is off, at rest. -/
theorem collWrite_enable {g : Pkg} (hj : j < 64) (hcalm : g.calm = true) (hen : g.cEn j = false) :
    let h := ((g.arrived (rColl j 0)).collAck j (setB v 28 true)).collSet j (setB v 28 true)
    (g.arrived (rColl j 0)).collWrite j 0 (setB v 28 true) = if h.collOk j then h.collArm j else h.wb (rColl j 0) 29 true := by
  intro h
  have hcalm' : ((g.arrived (rColl j 0)).collAck j (setB v 28 true)).calm = true := (collAck_calm hj).trans hcalm
  have hen' : ((g.arrived (rColl j 0)).collAck j (setB v 28 true)).cEn j = false := collAck_cEn.trans hen
  rw [collWrite_ctl, hcalm', hen', bit_setB_same _ _ (by decide)]
  rfl
end

/-! ## A deadline that expires -/

theorem mod_two_words (v : Nat) : v % 4294967296 + v / 4294967296 % 4294967296 * 4294967296 = v % 18446744073709551616 := by omega

theorem wr64_rd64 (g : Pkg) {lo hi : Nat} (h : lo ≠ hi) (v : Nat) : (g.wr64 lo hi v).rd64 lo hi = v % 2 ^ 64 := by
  have hhi : (g.wr64 lo hi v).rd hi = mk32 (v >>> 32) := Pkg.wr_rd_self ..
  have hlo : (g.wr64 lo hi v).rd lo = mk32 v := (Pkg.wr_rd_ne _ _ h).trans (Pkg.wr_rd_self ..)
  have hlow : (mk32 v).toNat = v % 4294967296 := BitVec.toNat_ofNat ..
  have hhigh : (mk32 (v >>> 32)).toNat = v / 4294967296 % 4294967296 := by
    rw [Nat.shiftRight_eq_div_pow]
    exact BitVec.toNat_ofNat ..
  unfold Pkg.rd64
  rw [hhi, hlo, hlow, hhigh, Nat.shiftLeft_eq]
  exact mod_two_words v

section
variable {g : Pkg} {j : Nat}

/-- Cancelling a deadline that does not run changes no register and no record. -/
theorem deadlineOff_stopped (h : (mget ({} : CollSt) g.co.st j).run = false) : (g.deadlineOff j).regs = g.regs ∧ (g.deadlineOff j).logSeq = g.logSeq ∧
    (g.deadlineOff j).co.inb = g.co.inb ∧ mget ({} : CollSt) (g.deadlineOff j).co.st j = mget ({} : CollSt) g.co.st j := by
  have hoff : g.deadlineOff j = { g with co := { g.co with st := mupd {} g.co.st j (fun x => { x with run := false }) } } := by
    unfold Pkg.deadlineOff
    cases g.cTimer j with
    | none => rfl
    | some n =>
      dsimp only
      rw [if_neg (by rw [h]; decide)]
  rw [hoff]
  refine ⟨rfl, rfl, rfl, (mget_mins_self ..).trans ?_⟩
  beta_reduce
  generalize mget ({} : CollSt) g.co.st j = st at h
  cases st
  exact congrArg (fun run => CollSt.mk run _ _) h.symm

/-- A closed step with no MARK of the one after it stands as it is. -/
theorem nextMarks_none (hrun : (mget ({} : CollSt) g.co.st j).run = false) (hmarks : g.markedOf j ((g.openStep j + 1) % 2 ^ 32) = []) :
    (g.nextMarks j).regs = g.regs ∧ (g.nextMarks j).logSeq = g.logSeq ∧ mget ({} : CollSt) (g.nextMarks j).co.st j = mget ({} : CollSt) g.co.st j := by
  obtain ⟨hregs, hlog, -, hst⟩ := deadlineOff_stopped hrun
  unfold Pkg.nextMarks
  dsimp only
  rw [hmarks]
  split
  · exact ⟨rfl, rfl, rfl⟩
  · split
    · exact ⟨hregs, hlog, hst⟩
    · exact ⟨rfl, rfl, rfl⟩

/-- The timer of a group runs out. -/
def Pkg.timerOut (g : Pkg) (j : Nat) : Pkg :=
  match g.cTimer j with
  | some n => (g.wr (rTmr n 0) (setF (g.rd (rTmr n 0)) 30 29 2)).wr (rTmr n 4) 0
  | none => g

theorem timerOut_rd (g : Pkg) (j p : Nat) : (g.timerOut j).rd (rColl j p) = g.rd (rColl j p) := by
  unfold Pkg.timerOut
  split
  · next n hn =>
    rw [Pkg.wr_rd_ne _ _ (rTmr_ne_rColl (cTimer_lt g hn) (by decide)).symm, Pkg.wr_rd_ne _ _ (rTmr_ne_rColl (cTimer_lt g hn) (by decide)).symm]
  · rfl

theorem timerOut_keeps (g : Pkg) (j : Nat) : (g.timerOut j).logSeq = g.logSeq ∧ (g.timerOut j).co = g.co := by
  unfold Pkg.timerOut
  split <;> exact ⟨rfl, rfl⟩

/-- What a deadline that expires does at once: the members that are late are counted and logged. -/
def Pkg.expire (g : Pkg) (j step late : Nat) (st : CollSt) : Pkg :=
  let g := ((g.addSat (rColl j 0x28) (popcount late)).logHub 0x010B j step (late % 2 ^ 32)).timerOut j
  { g with co := { g.co with st := mins g.co.st j st } }

theorem expire_says (g : Pkg) {j : Nat} (hj : j < 64) (step late : Nat) (st : CollSt) :
    ((g.expire j step late st).rd (rColl j 0x28)).toNat = min ((g.rd (rColl j 0x28)).toNat + popcount late) 0xFFFFFFFF ∧
    (∀ p, p ≠ 0x28 → p < 0x40 → (g.expire j step late st).rd (rColl j p) = g.rd (rColl j p)) ∧ (g.expire j step late st).logSeq = g.logSeq + 1 ∧
    (g.expire j step late st).co.inb = g.co.inb ∧ mget ({} : CollSt) (g.expire j step late st).co.st j = st := by
  have hlog (p : Nat) (hp : p < 0x40) : rColl j p ∉ [rErrCtl, rErrHead, rErrLost, rPins] := by
    simp only [List.mem_cons, List.not_mem_nil, or_false, rColl, rErrCtl, rErrHead, rErrLost, rPins, hubR, rk]
    omega
  have hrd (p : Nat) (hp : p < 0x40) : (g.expire j step late st).rd (rColl j p) = (g.addSat (rColl j 0x28) (popcount late)).rd (rColl j p) :=
    (timerOut_rd _ j p).trans (Pkg.logAt_rd _ _ _ _ _ _ _ _ (hlog p hp))
  obtain ⟨hseq, hco⟩ := timerOut_keeps ((g.addSat (rColl j 0x28) (popcount late)).logHub 0x010B j step (late % 2 ^ 32)) j
  refine ⟨?_, fun p hp hlt => ?_, hseq.trans (Pkg.logAt_logSeq ..), ?_, mget_mins_self ..⟩
  · rw [hrd _ (by decide), Pkg.addSat, Pkg.wr_rd_self]
    exact toNat_mk32 (by omega)
  · rw [hrd _ hlt, Pkg.addSat, Pkg.wr_rd_ne _ _ (rColl_ne hp)]
  · exact (congrArg Colls.inb hco).trans (congrArg Colls.inb (Pkg.logAt_co ..))
end

section
variable {s : Pack} {k j : Nat}

/-- The members whose MARK of a step is missing, as a map. -/
def Pkg.lateOf (g : Pkg) (j step : Nat) : Nat := ((positions (g.cMem j)).filter (fun p => !(g.markedOf j step).contains p)).foldl (fun n p => n + 2 ^ p) 0

theorem deadline_idle (h : (mget ({} : CollSt) (s.g k).co.st j).run = false) : s.deadline k j = s := by
  simp [Pack.deadline, h]

theorem deadline_closed (hrun : (mget ({} : CollSt) (s.g k).co.st j).run = true) (hclosed : (mget ({} : CollSt) (s.g k).co.st j).closed = true) :
    s.deadline k j = s.on k (fun g => g.expire j (((s.g k).openStep j + 1) % 2 ^ 32) ((s.g k).lateOf j (((s.g k).openStep j + 1) % 2 ^ 32))
      { closed := true, exp := some ((s.g k).lateOf j (((s.g k).openStep j + 1) % 2 ^ 32)) }) := by
  simp only [Pack.deadline, hrun, hclosed, Bool.not_true, Bool.false_eq_true, if_false, if_true]
  rfl

theorem deadline_open (hrun : (mget ({} : CollSt) (s.g k).co.st j).run = true) (hclosed : (mget ({} : CollSt) (s.g k).co.st j).closed = false) :
    s.deadline k j = (s.on k (fun g => g.expire j ((s.g k).openStep j) ((s.g k).lateOf j ((s.g k).openStep j))
      {})).closeStep k j ((s.g k).lateOf j ((s.g k).openStep j)) := by
  simp only [Pack.deadline, hrun, hclosed, Bool.not_true, Bool.false_eq_true, if_false, if_true]
  rfl

/-- A step with nothing open closes: only its members' MARKs count. -/
theorem closeStep_empty (h : (s.g k).openInsts j = []) (late : Nat) : s.closeStep k j late = s.on k (fun g =>
    ({ ((g.deadlineOff j).wr64 (rColl j 0x14) (rColl j 0x18) late) with co := { (g.deadlineOff j).co with st := mins (g.deadlineOff j).co.st j { closed := true } } } : Pkg).nextMarks j) := by
  unfold Pack.closeStep
  dsimp only
  rw [h]
  rfl
end

section
variable {g : Pkg} {j : Nat}

/-- The step closes at a package in which nothing of it is open. -/
def Pkg.closed (g : Pkg) (j late : Nat) : Pkg :=
  ({ ((g.deadlineOff j).wr64 (rColl j 0x14) (rColl j 0x18) late) with co := { (g.deadlineOff j).co with st := mins (g.deadlineOff j).co.st j { closed := true } } } : Pkg).nextMarks j

theorem closed_says (hrun : (mget ({} : CollSt) g.co.st j).run = false) (hmarks : g.markedOf j ((g.openStep j + 1) % 2 ^ 32) = []) (late : Nat) :
    mget ({} : CollSt) (g.closed j late).co.st j = { closed := true } ∧ (g.closed j late).rd64 (rColl j 0x14) (rColl j 0x18) = late % 2 ^ 64 ∧
    (g.closed j late).rd (rColl j 0x28) = g.rd (rColl j 0x28) ∧ (g.closed j late).logSeq = g.logSeq := by
  obtain ⟨hregs, hlog, hinb, -⟩ := deadlineOff_stopped hrun
  have hstep : ((g.deadlineOff j).wr64 (rColl j 0x14) (rColl j 0x18) late).openStep j = g.openStep j := by
    unfold Pkg.openStep Pkg.lstep Pkg.wr64
    rw [Pkg.wr_rd_ne _ _ (rColl_ne (by decide)), Pkg.wr_rd_ne _ _ (rColl_ne (by decide)), Pkg.rd_of_regs hregs]
  have hnone : ({ ((g.deadlineOff j).wr64 (rColl j 0x14) (rColl j 0x18) late) with
      co := { (g.deadlineOff j).co with st := mins (g.deadlineOff j).co.st j { closed := true } } } : Pkg).markedOf j ((g.openStep j + 1) % 2 ^ 32) = [] := by
    rw [← hmarks]
    unfold Pkg.markedOf
    dsimp only
    rw [hinb]
  obtain ⟨hkregs, hklog, hkst⟩ := nextMarks_none (g := { ((g.deadlineOff j).wr64 (rColl j 0x14) (rColl j 0x18) late) with
      co := { (g.deadlineOff j).co with st := mins (g.deadlineOff j).co.st j { closed := true } } }) (j := j)
    (congrArg CollSt.run (mget_mins_self ..)) (hstep.symm ▸ hnone)
  refine ⟨hkst.trans (mget_mins_self ..), ?_, ?_, hklog.trans hlog⟩
  · unfold Pkg.closed Pkg.rd64
    rw [Pkg.rd_of_regs hkregs, Pkg.rd_of_regs hkregs]
    exact wr64_rd64 _ (rColl_ne (by decide)) late
  · unfold Pkg.closed
    rw [Pkg.rd_of_regs hkregs]
    exact (Pkg.wr_rd_ne _ _ (rColl_ne (by decide))).trans ((Pkg.wr_rd_ne _ _ (rColl_ne (by decide))).trans (Pkg.rd_of_regs hregs _))
end

/-! ## A closed step that is delivered -/

section
variable {s : Pack} {k j t : Nat}

/-- No inbound record. -/
def Pkg.noInb (g : Pkg) : Pkg := { g with co := { g.co with inb := [] } }

theorem freeWhere_none (h : (s.g k).co.inb = []) (test : Inb → Bool) : s.freeWhere k test = s.on k Pkg.noInb := by
  unfold Pack.freeWhere
  rw [h]
  exact Pack.on_congr (by rw [h]; rfl)

theorem lookMarks_none (hinb : (s.g k).co.inb = []) (hmem : positions ((s.g k).cMem j) ≠ []) (hclosed : (mget ({} : CollSt) (s.g k).co.st j).closed = false) :
    s.lookMarks k j = s := by
  have hmarked : (s.g k).marked j = [] := by
    unfold Pkg.marked Pkg.markedOf
    rw [hinb]
    rfl
  have hsome : ((positions ((s.g k).cMem j)).all fun p => List.contains [] p) = false := by
    cases hcase : positions ((s.g k).cMem j) with
    | nil => exact absurd hcase hmem
    | cons p l => rfl
  unfold Pack.lookMarks
  dsimp only
  rw [hmarked, hclosed, hsome]
  rfl

theorem closeFull_none (hinb : (s.g k).co.inb = []) : s.closeFull k j = s := by
  unfold Pack.closeFull Pkg.openInsts
  dsimp only
  rw [hinb]
  split <;> rfl

/-- The next step opens: the closed one is the last, and the deadline of the one after it runs on. -/
def Pkg.openNext (g : Pkg) (j c : Nat) : Pkg :=
  { (g.wr (rColl j 0x1C) (mk32 c)) with co := { g.co with
      st := mins g.co.st j { run := (mget ({} : CollSt) g.co.st j).run }, seen := g.co.seen.filter (fun x => !(x.1.1 == j && later c x.1.2.1)) } }

/-- The end-of-step marks of a package's closed step: one for each owner of a shard that has its root here. -/
def Pack.endMarks (s : Pack) (k j : Nat) : List Wire :=
  let g := s.g k
  ((g.updTensors.filter (fun t => g.tGroup t == j)).flatMap (fun t =>
      (((List.range (g.nsh t)).filter (fun n => g.rootOf t n == g.pos)).flatMap (fun n =>
        (List.range (g.repl t)).filterMap (fun r => s.at k (g.ownPos (g.ownerOf t n r))))).eraseDups.map (fun p => (t, p)))).map (fun (m : Nat × Nat) =>
      ({ src := k, dst := m.2, dq := 0, qk := 0, idx := 0, body := Cargo.eos { step := g.openStep j, tensor := m.1, root := g.pos } } : Wire))

theorem endMarks_one (hup : (s.g k).updTensors = [t]) (hgroup : (s.g k).tGroup t = j) (hnsh : (s.g k).nsh t = 1) (hrepl : (s.g k).repl t = 1)
    (hown : (s.g k).ownPos ((s.g k).own0 t) = (s.g k).pos) (hlost : (s.g k).lostPos (s.g k).pos = false) (hat : s.at k (s.g k).pos = some k) :
    s.endMarks k j = [{ src := k, dst := k, dq := 0, qk := 0, idx := 0, body := .eos { step := (s.g k).openStep j, tensor := t, root := (s.g k).pos } }] := by
  have howner : (s.g k).ownerOf t 0 0 = (s.g k).own0 t := by rw [Pkg.ownerOf, Nat.zero_mul]; rfl
  have hfirst : (s.g k).firstRep t 0 = 0 := by
    unfold Pkg.firstRep
    rw [hrepl]
    show (List.find? _ [0]).getD 0 = 0
    rw [List.find?_cons, howner, hown, hlost]
    rfl
  have hroot : (s.g k).rootOf t 0 = (s.g k).pos := by rw [Pkg.rootOf, hfirst, howner, hown]
  unfold Pack.endMarks
  dsimp only
  rw [hup, List.filter_cons, hgroup, beq_self_eq_true, if_pos rfl, List.filter_nil, List.flatMap_cons, List.flatMap_nil, List.append_nil, hnsh, hrepl]
  simp only [List.range_one, List.filter_cons, hroot, beq_self_eq_true, if_true, List.filter_nil, List.flatMap_cons, List.flatMap_nil, List.append_nil,
    List.filterMap_cons, howner, hown, hat, List.filterMap_nil]
  rfl

theorem stepClose_open (h : (mget ({} : CollSt) (s.g k).co.st j).closed = false) : s.stepClose k j = s := by
  simp [Pack.stepClose, h]

theorem stepClose_delivered (hj : j < 64) (hclosed : (mget ({} : CollSt) (s.g k).co.st j).closed = true)
    (hexp : (mget ({} : CollSt) (s.g k).co.st j).exp = none) (hout : (s.g k).co.out = []) (hinb : (s.g k).co.inb = []) (hmem : positions ((s.g k).cMem j) ≠ []) :
    s.stepClose k j = ({ s with wire := s.wire ++ s.endMarks k j } : Pack).on k (fun g => (g.openNext j ((s.g k).openStep j)).noInb.noInb.noInb) := by
  have hopen (s' : Pack) (h : Pkg) (hs' : s'.g k = h) (hh : h.co.inb = []) (hregs : h.regs = ((s.g k).openNext j ((s.g k).openStep j)).regs)
      (hst : (mget ({} : CollSt) h.co.st j).closed = false) : (s'.lookMarks k j).closeFull k j = s' := by
    have hcm : h.cMem j = (s.g k).cMem j := by
      unfold Pkg.cMem Pkg.rd64
      rw [Pkg.rd_of_regs hregs, Pkg.rd_of_regs hregs]
      exact congrArg₂ (fun a b : W32 => a.toNat + b.toNat <<< 32) (Pkg.wr_rd_ne _ _ (rColl_ne (by decide))) (Pkg.wr_rd_ne _ _ (rColl_ne (by decide)))
    subst hs'
    rw [lookMarks_none hh (by rw [hcm]; exact hmem) hst, closeFull_none hh]
  unfold Pack.stepClose
  extract_lets g c marks s1 st s2 s3 s4 s5 s6
  have hgo : ¬ ((!(mget ({} : CollSt) g.co.st j).closed) = true ∨ (g.co.out.any fun x => x.group == j && x.step == c) = true ∨
      (g.co.inb.any fun x => x.bad && x.group == j && x.step == c) = true) := by
    rw [hclosed, hout, hinb]
    simp
  rw [if_neg hgo]
  have h2 : s2 = s1.on k (fun g => g.openNext j c) := rfl
  have hs1 : s1.g k = s.g k := rfl
  have h2g : s2.g k = (s.g k).openNext j c := by rw [h2, Pack.on_g_self, hs1]
  have h3 : s3 = s1.on k (fun g => (g.openNext j c).noInb) := by
    show s2.freeWhere k _ = _
    rw [freeWhere_none (by rw [h2g]; exact hinb), h2, Pack.on_on]
  have h4 : s4 = s1.on k (fun g => (g.openNext j c).noInb.noInb) := by
    show s3.on k _ = _
    rw [h3, Pack.on_on]
    exact Pack.on_congr rfl
  have h4g : s4.g k = ((s.g k).openNext j c).noInb.noInb := by rw [h4, Pack.on_g_self, hs1]
  have h5 : s5 = s1.on k (fun g => (g.openNext j c).noInb.noInb.noInb) := by
    show s4.freeWhere k _ = _
    rw [freeWhere_none (by rw [h4g]; rfl), h4, Pack.on_on]
  have h6 : s6 = s5 := by
    show (match st.exp with
      | some late => s5.closeStep k j late
      | none => s5) = s5
    rw [show st.exp = none from hexp]
  rw [h6, hopen s5 (((s.g k).openNext j c).noInb.noInb.noInb) (by rw [h5, Pack.on_g_self, hs1]) rfl rfl (congrArg CollSt.closed (mget_mins_self ..)), h5]
  rfl
end

/-- Settles O43. -/
theorem reductionGroups : Obligations.ReductionGroups := by
  unfold Obligations.ReductionGroups
  intro s k m j t v g a on' off' g1 st step late hj
  obtain ⟨hok, htimed, hfree⟩ := collOk_asked (g := g) hj v a
  have henable {P : Pack → Prop} (hcalm : g.calm = true) (hen : g.cEn j = false)
      (hP : ∀ p : Pack, p.g k = (let h := ((g.arrived a).collAck j (setB v 28 true)).collSet j (setB v 28 true)
        if h.collOk j then h.collArm j else h.wb a 29 true) → p.mem = s.pack.mem → P p) : Lands s k on' P :=
    lands_collCtl hj fun p hp hmem => hP p (hp.trans (collWrite_enable hj hcalm hen)) hmem
  have hsealed : (((g.arrived a).collAck j (setB v 28 true)).collSet j (setB v 28 true)).sealed = g.sealed := by
    have hne : rSealStep ≠ rColl j 0 := by simp only [rSealStep, rColl, hubR, rk]; omega
    rw [Pkg.sealed, collSet_rd hne, collAck_rd hne]
    rfl
  have hv : fld (setB v 28 true) 27 26 = v.toNat / 2 ^ 26 % 4 ∧ fld (setB v 28 true) 11 0 = v.toNat % 4096 := by
    rw [fld_setB_apart _ _ (by decide) (.inl (by decide)), fld_setB_apart _ _ (by decide) (.inl (by decide)), fld_eq, fld_low]
    exact ⟨rfl, rfl⟩
  refine ⟨fun hw => ⟨gives_of_onPack rfl (busWrite_collCtl hj hw), gives_of_onPack rfl (busWrite_collCtl hj hw)⟩, fun hcalm hen hpass hplain => ?_,
    fun hcalm hen hpass htime n hn => ?_, fun hcalm hen hpass htime hn => ?_, fun hcalm hen hfail => ?_, fun hcalm hen => ?_, fun hcalm => ?_,
    fun hup => ⟨fun hrun => gives_of_atHub rfl hup (deadline_idle hrun), fun hrun hfirst => ?_, fun hopen => gives_of_atHub rfl hup (stepClose_open hopen),
      fun hclosed hexp hout hinb hmem hupd hgroup hnsh hrepl hown hlost hat => ?_⟩⟩
  · refine henable hcalm hen fun p hp hmem => ?_
    dsimp only at hp
    rw [if_pos (hok.trans hpass), collArm_untimed (htimed.trans hplain)] at hp
    obtain ⟨h1, h2, h3, h4, -⟩ := collStart_says (((g.arrived a).collAck j (setB v 28 true)).collSet j (setB v 28 true)) j
    rw [hp]
    refine ⟨h1, h2.trans ?_, h3.trans ?_, h4.trans hsealed, hmem⟩
    · rw [Pkg.policy, Pkg.rf, Pkg.collSet, Pkg.wr_rd_self, collWord_policy, hv.1, Nat.mod_mod]
    · rw [Pkg.iqid, Pkg.rf, Pkg.collSet, Pkg.wr_rd_self, collWord_qid, hv.2, Nat.mod_mod]
  · refine henable hcalm hen fun p hp hmem => ?_
    dsimp only at hp
    rw [if_pos (hok.trans hpass)] at hp
    obtain ⟨h1, h2, h3, h4⟩ := collArm_timer hj (freeTimer_lt g hn) (htimed.trans htime) (hfree.trans hn)
    rw [hp]
    exact ⟨h1, h2, h3, h4.trans hsealed, hmem⟩
  · refine henable hcalm hen fun p hp hmem => ?_
    dsimp only at hp
    rw [if_pos (hok.trans hpass), collArm_noTimer (htimed.trans htime) (hfree.trans hn)] at hp
    obtain ⟨h1, h2⟩ := collAsk_error (i := 30) (v := setB v 28 true) (by decide) (by decide) hen hcalm _ rfl
    rw [hp]
    exact ⟨h1, h2, hmem⟩
  · refine henable hcalm hen fun p hp hmem => ?_
    dsimp only at hp
    rw [if_neg (by rw [hok, show (g.collAsked j v).collOk j = false from hfail]; decide)] at hp
    obtain ⟨h1, h2⟩ := collAsk_error (i := 29) (v := setB v 28 true) (by decide) (by decide) hen hcalm _ rfl
    rw [hp]
    exact ⟨h1, h2, hmem⟩
  · refine lands_collCtl hj fun p hp hmem => ?_
    have hcalm' : ((g.arrived a).collAck j (setB v 28 false)).calm = true := (collAck_calm hj).trans hcalm
    have hen' : ((g.arrived a).collAck j (setB v 28 false)).cEn j = true := collAck_cEn.trans hen
    rw [collWrite_ctl, hcalm', hen', bit_setB_same _ _ (by decide)] at hp
    obtain ⟨h1, h2, h3⟩ := collOff_says (j := j) ((g.arrived a).collAck j (setB v 28 false))
    have htimer : ((g.arrived a).collAck j (setB v 28 false)).cTimer j = g.cTimer j := by
      unfold Pkg.cTimer Pkg.rb Pkg.rf
      rw [collAck_rd (rColl_ne (by decide))]
      rfl
    rw [hp]
    exact ⟨h1, h2, fun n hn hnt => h3 n hn (htimer.trans hnt), hmem⟩
  · refine lands_collCtl hj fun p hp hmem => ?_
    have hcalm' : ((g.arrived a).collAck j (setB v 28 false)).calm = false := (collAck_calm hj).trans hcalm
    rw [collWrite_ctl, hcalm'] at hp
    rw [hp]
    exact ⟨collAck_cEn, fun b hb => collAck_rd hb, hmem⟩
  · by_cases hclosed : st.closed = true
    · refine ⟨_, gives_of_atHub rfl hup (deadline_closed hrun hclosed), ?_⟩
      have hstep : step = (g.openStep j + 1) % 2 ^ 32 := if_pos hclosed
      have hlate : late = g.lateOf j ((g.openStep j + 1) % 2 ^ 32) := by rw [← hstep]; rfl
      beta_reduce
      rw [Pack.on_g_self, ← hlate]
      obtain ⟨hcount, -, hlog, -, hst⟩ := expire_says g hj ((g.openStep j + 1) % 2 ^ 32) late { closed := true, exp := some late }
      exact ⟨hst.trans (by rw [hclosed]; rfl), hcount, fun h => absurd (hclosed.symm.trans h) (by decide), hlog, Pack.on_mem ..⟩
    · rw [Bool.not_eq_true] at hclosed
      obtain ⟨hinsts, hmarks⟩ := hfirst hclosed
      have hstep : step = g.openStep j := if_neg (by rw [hclosed]; decide)
      have hlate : late = g.lateOf j (g.openStep j) := by rw [← hstep]; rfl
      refine ⟨_, gives_of_atHub rfl hup (deadline_open hrun hclosed), ?_⟩
      rw [show (s.pack.g k).lateOf j ((s.pack.g k).openStep j) = late from hlate.symm]
      obtain ⟨hcount, hrd, hlog, hinb, hst⟩ := expire_says g hj ((s.pack.g k).openStep j) late {}
      have hself : (s.pack.on k (fun g => g.expire j ((s.pack.g k).openStep j) late {})).g k = g.expire j ((s.pack.g k).openStep j) late {} := Pack.on_g_self ..
      have hlast : (g.expire j ((s.pack.g k).openStep j) late {}).lstep j = g.lstep j := congrArg BitVec.toNat (hrd 0x1C (by decide) (by decide))
      have hnext : (g.expire j ((s.pack.g k).openStep j) late {}).openStep j = g.openStep j := congrArg (fun n => (n + 1) % 2 ^ 32) hlast
      have hnone : (g.expire j ((s.pack.g k).openStep j) late {}).openInsts j = [] := by
        rw [← hinsts]
        unfold Pkg.openInsts
        rw [hnext, hinb, hlast]
      have hnomark : (g.expire j ((s.pack.g k).openStep j) late {}).markedOf j (((g.expire j ((s.pack.g k).openStep j) late {}).openStep j + 1) % 2 ^ 32) = [] := by
        rw [hnext, ← hmarks]
        unfold Pkg.markedOf
        rw [hinb]
      obtain ⟨hkst, hk64, hkrd, hklog⟩ := closed_says (congrArg CollSt.run hst) hnomark late
      rw [closeStep_empty (by rw [hself]; exact hnone)]
      beta_reduce
      rw [Pack.on_g_self, hself]
      refine ⟨hkst.trans (by rw [hclosed]; rfl), ?_, fun _ => hk64, hklog.trans hlog, Pack.on_mem ..⟩
      exact (congrArg BitVec.toNat hkrd).trans hcount
  · refine ⟨_, gives_of_atHub rfl hup (stepClose_delivered hj hclosed hexp hout hinb hmem), ?_⟩
    beta_reduce
    rw [Pack.on_g_self]
    have hlt : g.openStep j < 2 ^ 32 := Nat.mod_lt _ (by decide)
    refine ⟨?_, mget_mins_self .., ?_, rfl⟩
    · show (((g.openNext j (g.openStep j)).noInb.noInb.noInb).rd (rColl j 0x1C)).toNat = _
      rw [show ((g.openNext j (g.openStep j)).noInb.noInb.noInb).rd (rColl j 0x1C) = mk32 (g.openStep j) from Pkg.wr_rd_self .., toNat_mk32 hlt]
    · show s.pack.wire ++ s.pack.endMarks k j = _
      rw [endMarks_one hupd hgroup hnsh hrepl hown hlost hat]

end Sys2Proof.Machine
end

section
/-! PROOFS. The package limit, heat, and a die that fails; O51 -/

namespace Sys2Proof.Machine

/-! ## Throttle steps -/

section
variable (g : Pkg)

theorem rGov_ne {d e o o' : Nat} (ho : o < 0x10000) (ho' : o' < 0x10000) (h : d ≠ e ∨ o ≠ o') : rGov d o ≠ rGov e o' := by
  simp only [rGov, rk]
  omega

theorem rPwr_ne_rGov {d o o' : Nat} (hd : d < 48) (ho : o' < 0x10000) : rPwr o ≠ rGov d o' := by
  simp only [rGov, rPwr, hubR, rk]
  omega

theorem setStep_rd (d : Nat) {a : Nat} (ha : a ≠ rGov d 0xC) : (g.setStep d).rd a = g.rd a := Pkg.wr_rd_ne _ _ ha

theorem setStep_says (d : Nat) : (g.setStep d).rf (rGov d 0xC) 31 28 =
    max (max (g.gov d).capStep (g.gov d).heat) (if g.rb (rPwr 0xC) 20 = true then 12 else 0) % 16 :=
  g.rf_wf_same _ (by decide) (by decide)

/-- Putting the steps of dies in force writes their GOV.CLK alone. -/
theorem foldl_setStep (l : List Nat) (g : Pkg) : (∀ a, (∀ d ∈ l, a ≠ rGov d 0xC) → (l.foldl Pkg.setStep g).rd a = g.rd a) ∧
    (l.foldl Pkg.setStep g).pw = g.pw := by
  induction l generalizing g with
  | nil => exact ⟨fun _ _ => rfl, rfl⟩
  | cons d l ih =>
    obtain ⟨hrd, hpw⟩ := ih (g.setStep d)
    refine ⟨fun a ha => ?_, hpw⟩
    rw [List.foldl_cons, hrd a fun e he => ha e (List.mem_cons_of_mem _ he), setStep_rd _ _ (ha d List.mem_cons_self)]

theorem foldl_setStep_mem {l : List Nat} (hl : ∀ e ∈ l, e < 48) (g : Pkg) {d : Nat} (hd : d ∈ l) : (l.foldl Pkg.setStep g).rf (rGov d 0xC) 31 28 =
    max (max (g.gov d).capStep (g.gov d).heat) (if g.rb (rPwr 0xC) 20 = true then 12 else 0) % 16 := by
  induction l generalizing g with
  | nil => exact absurd hd List.not_mem_nil
  | cons e l ih =>
    rw [List.foldl_cons]
    by_cases hdl : d ∈ l
    · have hflag : (g.setStep e).rb (rPwr 0xC) 20 = g.rb (rPwr 0xC) 20 := by
        rw [Pkg.rb, setStep_rd _ _ (rPwr_ne_rGov (hl e List.mem_cons_self) (by decide)), Pkg.rb]
      have := ih (fun e he => hl e (List.mem_cons_of_mem _ he)) (g.setStep e) hdl
      rw [hflag] at this
      exact this
    · obtain rfl : d = e := (List.mem_cons.mp hd).resolve_right hdl
      have hkeep : (l.foldl Pkg.setStep (g.setStep d)).rd (rGov d 0xC) = (g.setStep d).rd (rGov d 0xC) :=
        (foldl_setStep l _).1 _ fun e he => rGov_ne (by decide) (by decide) (.inl fun h => hdl (h ▸ he))
      rw [Pkg.rf, hkeep]
      exact setStep_says g d

theorem govDies_lt {d : Nat} (h : d ∈ g.govDies) : d < 48 := List.mem_range.mp (List.mem_of_mem_filter h)

theorem setSteps_rd {a : Nat} (ha : ∀ d, d < 48 → a ≠ rGov d 0xC) : g.setSteps.rd a = g.rd a :=
  (foldl_setStep _ _).1 a fun d hd => ha d (govDies_lt g hd)

theorem setSteps_live {d : Nat} (hd : d < 48) (hlive : g.dieLive d = true) : g.setSteps.rf (rGov d 0xC) 31 28 =
    max (max (g.gov d).capStep (g.gov d).heat) (if g.rb (rPwr 0xC) 20 = true then 12 else 0) % 16 :=
  foldl_setStep_mem (fun _ he => govDies_lt g he) g (List.mem_filter.mpr ⟨List.mem_range.mpr hd, hlive⟩)
end

/-! ## Input samples and the emergency throttle -/

section
variable (g : Pkg) (amps pin : Nat)

/-- An input sample beyond the limits (R402). -/
def Pkg.inputHot : Prop := 541 < amps ∨ 21 * g.emergLimit < 20 * (pin % 65536)

/-- An input sample before the limits are looked at. -/
def Pkg.sampled : Pkg :=
  { (g.wf (rPwr 0x10) 15 0 pin) with
    pw := { g.pw with
      limAge := min 200 (g.pw.limAge + 1)
      calm := if pin % 65536 < g.rf (rPwr 4) 15 0 then g.pw.calm + 1 else 0 } }

theorem inputSample_eq [Decidable (g.inputHot amps pin)] : g.inputSample amps pin =
    if g.inputHot amps pin then ((g.sampled pin).wb (rPwr 0xC) 20 true).setSteps else g.sampled pin := by
  have hlim : (g.wf (rPwr 0x10) 15 0 pin).rf (rPwr 4) 15 0 = g.rf (rPwr 4) 15 0 := g.rf_wf_ne _ (by decide)
  have hemerg : (g.wf (rPwr 0x10) 15 0 pin).emergLimit = g.emergLimit := by
    unfold Pkg.emergLimit
    rw [hlim]
    rfl
  unfold Pkg.inputSample
  dsimp only
  rw [hlim, hemerg]
  have hbool : (decide (541 < amps) || decide (21 * g.emergLimit < 20 * (pin % 65536))) = true ↔ g.inputHot amps pin := by
    rw [Bool.or_eq_true, decide_eq_true_eq, decide_eq_true_eq, Pkg.inputHot]
  by_cases hhot : g.inputHot amps pin
  · rw [if_pos hhot, if_pos (hbool.mpr hhot)]
    rfl
  · rw [if_neg hhot, if_neg (mt hbool.mp hhot)]
    rfl

theorem sampled_pin : (g.sampled pin).rf (rPwr 0x10) 15 0 = pin % 65536 := g.rf_wf_same pin (by decide) (by decide)

theorem inputSample_hot (h : g.inputHot amps pin) : (g.inputSample amps pin).rf (rPwr 0x10) 15 0 = pin % 65536 ∧
    (g.inputSample amps pin).rb (rPwr 0xC) 20 = true ∧
    ∀ d, d < 48 → g.dieLive d = true → 12 ≤ (g.inputSample amps pin).rf (rGov d 0xC) 31 28 ∨ 16 ≤ max (g.gov d).capStep (g.gov d).heat := by
  classical
  rw [inputSample_eq, if_pos h]
  have hflag : ((g.sampled pin).wb (rPwr 0xC) 20 true).rb (rPwr 0xC) 20 = true := Pkg.rb_wb_same _ _ _ (by decide)
  refine ⟨?_, ?_, fun d hd hlive => ?_⟩
  · rw [Pkg.rf, setSteps_rd _ fun d hd => rPwr_ne_rGov hd (by decide), Pkg.rd_wb, if_neg (by decide)]
    exact sampled_pin g pin
  · rw [Pkg.rb, setSteps_rd _ fun d hd => rPwr_ne_rGov hd (by decide)]
    exact hflag
  · have := setSteps_live ((g.sampled pin).wb (rPwr 0xC) 20 true) hd hlive
    rw [hflag, if_pos rfl] at this
    rw [this]
    show 12 ≤ max (max (g.gov d).capStep (g.gov d).heat) 12 % 16 ∨ _
    omega

theorem inputSample_cool (h : ¬ g.inputHot amps pin) : g.inputSample amps pin = g.sampled pin := by
  classical
  rw [inputSample_eq, if_neg h]

theorem emergencyEnd_ends (hflag : g.rb (rPwr 0xC) 20 = true) (hcalm : 20 ≤ g.pw.calm) : g.emergencyEnd.rb (rPwr 0xC) 20 = false := by
  rw [Pkg.emergencyEnd, if_pos ⟨hflag, hcalm⟩, Pkg.rb, setSteps_rd _ fun d hd => rPwr_ne_rGov hd (by decide)]
  exact Pkg.rb_wb_same _ _ _ (by decide)

theorem emergencyEnd_early (hcalm : g.pw.calm < 20) : g.emergencyEnd = g := if_neg fun h => Nat.not_le.mpr hcalm h.2
end

/-! ## Junction samples and throttling for heat -/

section
variable {g : Pkg} {k site tj : Nat}

theorem junction_says (hlive : g.dieLive site = true) : (g.junction k site tj).rf (rGov site 8) 9 0 = tj % 1024 ∧
    (g.junction k site tj).hk.trips = if tripOf k site ≤ tj % 1024 then g.hk.trips ++ [site] else g.hk.trips := by
  have hset : ((g.wf (rGov site 8) 9 0 tj)).rf (rGov site 8) 9 0 = tj % 1024 := g.rf_wf_same tj (by decide) (by decide)
  unfold Pkg.junction
  rw [hlive]
  dsimp only
  obtain ⟨hregs, htrips⟩ := thermLook_regs (if tripOf k site ≤ tj % 1024 then (g.wf (rGov site 8) 9 0 tj).trip site else g.wf (rGov site 8) 9 0 tj) k
  refine ⟨?_, ?_⟩
  · refine (congrArg (fun w => fld w 9 0) (Pkg.rd_of_regs hregs (rGov site 8))).trans ?_
    split <;> exact hset
  · refine htrips.trans ?_
    split <;> rfl

/-- The throttle step for heat after one step (R403). -/
def Pkg.nextHeat (g : Pkg) (site : Nat) : Nat :=
  let x := g.gov site
  let t := g.rf (rGov site 8) 9 0
  let th := g.rf (rGov site 8) 31 22
  if th ≤ t then min 15 (max x.capStep x.heat + 1)
  else if t + 12 < th then (if x.heat ≤ x.capStep + 1 then 0 else x.heat - 1) else x.heat

theorem heatStep_eq (hlive : g.dieLive site = true) :
    ∃ h : Pkg, g.heatStep site = h.setStep site ∧ h.regs = g.regs ∧ (h.gov site).heat = g.nextHeat site ∧ (h.gov site).capStep = (g.gov site).capStep := by
  have hon (f : Gov → Gov) : (g.onGov site f).gov site = f (g.gov site) := mget_mins_self ..
  unfold Pkg.heatStep Pkg.nextHeat
  rw [hlive]
  dsimp only
  by_cases hup : g.rf (rGov site 8) 31 22 ≤ g.rf (rGov site 8) 9 0
  · rw [if_pos hup]
    exact ⟨_, if_neg (by decide), rfl, by rw [hon, if_pos hup], by rw [hon]⟩
  · by_cases hdown : g.rf (rGov site 8) 9 0 + 12 < g.rf (rGov site 8) 31 22
    · rw [if_neg hup, if_pos hdown]
      exact ⟨_, if_neg (by decide), rfl, by rw [hon, if_neg hup, if_pos hdown], by rw [hon]⟩
    · rw [if_neg hup, if_neg hdown]
      exact ⟨_, if_neg (by decide), rfl, by rw [if_neg hup, if_neg hdown], rfl⟩

theorem heatStep_says (hlive : g.dieLive site = true) : ((g.heatStep site).gov site).heat = g.nextHeat site ∧
    ((g.heatStep site).gov site).capStep = (g.gov site).capStep ∧ (g.heatStep site).rf (rGov site 0xC) 31 28 =
      max (max (g.gov site).capStep (g.nextHeat site)) (if g.rb (rPwr 0xC) 20 = true then 12 else 0) % 16 := by
  obtain ⟨h, hstep, hregs, hheat, hcap⟩ := heatStep_eq hlive
  have hflag : h.rb (rPwr 0xC) 20 = g.rb (rPwr 0xC) 20 := by rw [Pkg.rb, Pkg.rd_of_regs hregs, Pkg.rb]
  rw [hstep]
  refine ⟨hheat, hcap, ?_⟩
  rw [setStep_says, hheat, hcap, hflag]
end

/-! ## A package that loses its power -/

/-- Of a table without some of its indices, the ones that stay read as before. -/
theorem mget_filter_of {α : Type} (d : α) {t : Nat × α → Bool} {i : Nat} (h : ∀ v, t (i, v) = true) : ∀ m : Map α, mget d (m.filter t) i = mget d m i
  | [] => rfl
  | (j, v) :: m => by
    by_cases hji : j = i
    · subst hji
      rw [List.filter_cons, if_pos (h v), mget, mget, if_pos rfl, if_pos rfl]
    · rw [mget, if_neg hji, ← mget_filter_of d h m, List.filter_cons]
      split
      · rw [mget, if_neg hji]
      · rfl

/-- An index that a table loses reads as its reset record. -/
theorem mget_filter_gone {α : Type} (d : α) {t : Nat × α → Bool} {i : Nat} (h : ∀ v, t (i, v) = false) : ∀ m : Map α, mget d (m.filter t) i = d
  | [] => rfl
  | (j, v) :: m => by
    rw [List.filter_cons]
    split
    · next hkeep =>
      have hji : j ≠ i := fun e => by rw [e, h v] at hkeep; cases hkeep
      rw [mget, if_neg hji, mget_filter_gone d h m]
    · exact mget_filter_gone d h m

section
variable (g : Pkg) (k : Nat)

/-- A package reset keeps the trips, THERM_N and the supply; its state is set by who resets it. -/
theorem resetPkg_hk : (g.resetPkg k).hk.trips = g.hk.trips ∧ (g.resetPkg k).hk.therm = g.hk.therm ∧ (g.resetPkg k).hk.vaon = g.hk.vaon := by
  unfold Pkg.resetPkg
  dsimp only
  split <;> exact ⟨rfl, rfl, rfl⟩

/-- A package reset keeps the power block's status but for bit 21 (R397). -/
theorem resetPkg_pwrStat : (g.resetPkg k).rd (rPwr 0xC) = g.rd (rPwr 0xC) ∨ (g.resetPkg k).rd (rPwr 0xC) = setB (g.rd (rPwr 0xC)) 21 false := by
  have hkept (g' : Pkg) (hregs : g'.regs = g.regs.filter (fun p => huskReg p.1 && !(decide (hubR 0x17000 < p.1 ∧ p.1 < hubR 0x18000)))) :
      ((g'.setBphase 0).wb rPins 3 false).rd (rPwr 0xC) = g.rd (rPwr 0xC) := by
    rw [Pkg.rd_wb, if_neg (by decide), Pkg.setBphase, Pkg.wf, Pkg.wr_rd_ne _ _ (by decide), Pkg.rd, hregs]
    exact mget_filter_of _ (fun _ => (by decide : (huskReg (rPwr 0xC) && !(decide (hubR 0x17000 < rPwr 0xC ∧ rPwr 0xC < hubR 0x18000))) = true)) g.regs
  unfold Pkg.resetPkg
  dsimp only
  split
  · refine .inr ?_
    rw [Pkg.rd_wb, if_pos rfl, hkept _ rfl]
  · exact .inl (hkept _ rfl)

end

section
variable (s : Pack) (k : Nat)

/-- What a package keeps when package `k` is cut off. -/
def Pkg.isolated (s : Pack) (k j : Nat) (g : Pkg) : Pkg :=
  if j = k ∨ !(s.g k).assigned then { g with qops := g.qops.filter (fun x => x.r.t.pkg != k) }
  else { g with qops := g.qops.filter (fun x => x.r.t.pkg != k) }.forgetPos (s.g k).pos

/-- An abandoned advance and the loss of what a package has in flight leave its registers and its Husk. -/
theorem advAbort_isolate_says : (((s.advAbort k).isolate k).g k).regs = (s.g k).regs ∧ (((s.advAbort k).isolate k).g k).hk = (s.g k).hk := by
  have habort : ((s.advAbort k).g k).regs = (s.g k).regs ∧ ((s.advAbort k).g k).hk = (s.g k).hk := by
    unfold Pack.advAbort
    dsimp only
    split
    · exact ⟨rfl, rfl⟩
    · rw [Pack.on_g_self]
      exact ⟨rfl, rfl⟩
  have hall (t : Pack) : ((t.isolate k).g k).regs = (t.g k).regs ∧ ((t.isolate k).g k).hk = (t.g k).hk := by
    have hself (x : Pkg) : Pkg.isolated t k k x = { x with qops := x.qops.filter (fun y => y.r.t.pkg != k) } := if_pos (.inl rfl)
    exact ⟨mget_mmap_at (d := coldPkg k) (f := Pkg.isolated t k) (P := Pkg.regs) (fun x => by rw [hself]) t.pkgs,
      mget_mmap_at (d := coldPkg k) (f := Pkg.isolated t k) (P := Pkg.hk) (fun x => by rw [hself]) t.pkgs⟩
  exact ⟨(hall _).1.trans habort.1, (hall _).2.trans habort.2⟩

/-- A package without power: as a reset leaves it, with nothing in its stacks. -/
def Pkg.unpowered (k : Nat) (g : Pkg) : Pkg :=
  { g.resetPkg k with
    sk := {}
    hk := { (g.resetPkg k).hk with state := 0, rst := false, failed := g.hk.failed && !g.hk.ref } }

/-- A package that powers down to S3 or OFF. -/
theorem powerDown_says : ((s.powerDown k false).g k).hk.state = 0 ∧ ((s.powerDown k false).g k).hk.trips = (s.g k).hk.trips ∧
    ((s.powerDown k false).g k).hk.therm = (s.g k).hk.therm ∧
    (((s.powerDown k false).g k).rd (rPwr 0xC) = (s.g k).rd (rPwr 0xC) ∨
      ((s.powerDown k false).g k).rd (rPwr 0xC) = setB ((s.g k).rd (rPwr 0xC)) 21 false) := by
  obtain ⟨hregs, hhk⟩ := advAbort_isolate_says s k
  have hg : (s.powerDown k false).g k = (((s.advAbort k).isolate k).g k).unpowered k := by
    show (((s.advAbort k).isolate k).on k (fun g => g.unpowered k)).g k = _
    rw [Pack.on_g_self]
  obtain ⟨htrips, htherm, -⟩ := resetPkg_hk (((s.advAbort k).isolate k).g k) k
  have hstat := resetPkg_pwrStat (((s.advAbort k).isolate k).g k) k
  rw [Pkg.rd_of_regs hregs] at hstat
  rw [hg]
  exact ⟨rfl, htrips.trans (congrArg Husk.trips hhk), htherm.trans (congrArg Husk.therm hhk), hstat⟩

/-- What a package that powers down had stored is gone; no other package's memory changes. -/
theorem powerDown_mem (a : Nat) : memRd (s.powerDown k false).mem a = if a / 2 ^ 58 = k then memInit else memRd s.mem a := by
  have hmem : (s.powerDown k false).mem = s.mem.filter (fun c => keepOther k c.1) := by
    show ((s.advAbort k).isolate k).mem.filter _ = _
    rw [Pack.isolate_mem, Pack.advAbort_mem]
    rfl
  rw [hmem, memRd]
  split
  · next ha => exact mget_filter_gone _ (fun _ => (bne_eq_false_iff_eq.mpr ha : (a / 2 ^ 58 != k) = false)) s.mem
  · next ha => exact mget_filter_of _ (fun _ => (bne_iff_ne.mpr ha : (a / 2 ^ 58 != k) = true)) s.mem

theorem thermalTrip_says {site : Nat} {l : List Nat} (h : (s.g k).hk.trips = site :: l) :
    ((s.thermalTrip k).g k).hk.state = 0 ∧ ((s.thermalTrip k).g k).hk.therm = true ∧ ((s.thermalTrip k).g k).hk.trips = l ∧
    ((s.thermalTrip k).g k).rb (rPwr 0xC) 28 = true ∧ ((s.thermalTrip k).g k).rf (rPwr 0xC) 27 22 = site % 64 ∧
    ∀ a, memRd (s.thermalTrip k).mem a = if a / 2 ^ 58 = k then memInit else memRd s.mem a := by
  have hgo : s.thermalTrip k = (s.on k (fun g => ({ g with hk := { g.hk with trips := l, therm := true } }).wr (rPwr 0xC)
      (setF (setB (g.rd (rPwr 0xC)) 28 true) 27 22 site))).powerDown k false := by
    unfold Pack.thermalTrip
    rw [h]
  rw [hgo]
  obtain ⟨hstate, htrips, htherm, hstat⟩ := powerDown_says (s.on k (fun g => ({ g with hk := { g.hk with trips := l, therm := true } }).wr (rPwr 0xC)
      (setF (setB (g.rd (rPwr 0xC)) 28 true) 27 22 site))) k
  rw [Pack.on_g_self] at htrips htherm hstat
  rw [Pkg.wr_rd_self] at hstat
  have hbit : bit (setF (setB ((s.g k).rd (rPwr 0xC)) 28 true) 27 22 site) 28 = true :=
    (bit_setF_apart _ _ (by decide) (by decide) (.inr (by decide))).trans (bit_setB_same _ _ (by decide))
  have hfld : fld (setF (setB ((s.g k).rd (rPwr 0xC)) 28 true) 27 22 site) 27 22 = site % 64 := fld_setF_same _ _ (by decide) (by decide)
  refine ⟨hstate, htherm, htrips, ?_, ?_, fun a => powerDown_mem _ k a⟩
  · rcases hstat with h | h
    · rw [Pkg.rb, h, hbit]
    · rw [Pkg.rb, h, bit_setB_apart _ _ (by decide) (by decide), hbit]
  · rcases hstat with h | h
    · rw [Pkg.rf, h, hfld]
    · rw [Pkg.rf, h, fld_setB_apart _ _ (by decide) (.inr (by decide)), hfld]
end

/-! ## A die that fails -/

section
variable {s : Pack} {k site : Nat}

/-- Which sites stand, and which dies have started. -/
def Pkg.standing (g : Pkg) : Map SiteSt × Map Bool := (g.sites, g.started)

theorem endOff_standing (g : Pkg) (t f x : Nat) : (g.endOff t f x).standing = g.standing := rfl

theorem failPkg_standing (g : Pkg) : g.failPkg.standing = g.standing := by
  unfold Pkg.failPkg
  split <;> rfl

theorem stackPortLost_standing (g : Pkg) (j p : Nat) : (g.stackPortLost j p).standing = g.standing := by
  unfold Pkg.stackPortLost
  dsimp only
  split
  · rfl
  · split
    · rfl
    · exact failPkg_standing _

theorem stackPortDown_standing (s : Pack) (j p : Nat) : ((s.stackPortDown k j p).g k).standing = (s.g k).standing := by
  unfold Pack.stackPortDown
  split
  · rfl
  · rw [Pack.on_g_self, stackPortLost_standing, portDrop_g]
    rfl

theorem skipFlit_standing (s : Pack) (f : Flit) : ((s.skipFlit f).g k).standing = (s.g k).standing := by
  unfold Pack.skipFlit
  split
  · exact Pack.on_keeps (P := Pkg.standing) _ _ _ rfl
  · rfl

/-- Offers that go back to a governor change capacities alone. -/
theorem offersBack_rd (g : Pkg) (site : Nat) {a : Nat} (ha : ∀ d, a ≠ rk d 0x4000) : (g.offersBack site).rd a = g.rd a := by
  unfold Pkg.offersBack
  dsimp only
  refine (foldl_keeps (P := fun g : Pkg => g.rd a) (fun g p => ?_) ..).trans rfl
  split
  · split
    · exact Pkg.wr_rd_ne _ _ (ha _)
    · rfl
  · rfl

theorem offersBack_standing (g : Pkg) (site : Nat) : (g.offersBack site).standing = g.standing := by
  unfold Pkg.offersBack
  dsimp only
  refine (foldl_keeps (P := Pkg.standing) (fun g p => ?_) ..).trans rfl
  split
  · split <;> rfl
  · rfl

theorem offersBack_portState (g : Pkg) (site n : Nat) : (g.offersBack site).portState n = g.portState n := by
  rw [Pkg.portState, Pkg.rf, offersBack_rd _ _ fun d => ?_, Pkg.portState, Pkg.rf]
  simp only [rPort, rk]
  omega

theorem portDown_down {n : Nat} (h : (s.g k).portState n = 0 ∨ (s.g k).portState n = 4) : s.portDown k n = s := if_pos (by omega)

/-- The ports of a site that are all off or down stay so. -/
theorem portsDown_none (h : ∀ i, i < 32 → portSites.getD (i / 4) 99 = site → (s.g k).portState i = 0 ∨ (s.g k).portState i = 4) :
    (List.range 32).foldl (fun s n => if portSites.getD (n / 4) 99 = site then s.portDown k n else s) s = s := by
  have hall : ∀ l : List Nat, (∀ n ∈ l, n < 32) → l.foldl (fun s n => if portSites.getD (n / 4) 99 = site then s.portDown k n else s) s = s := by
    intro l
    induction l with
    | nil => exact fun _ => rfl
    | cons n l ih =>
      intro hl
      have hstep : (if portSites.getD (n / 4) 99 = site then s.portDown k n else s) = s := by
        split
        · next hsite => exact portDown_down (h n (hl n List.mem_cons_self) hsite)
        · rfl
      rw [List.foldl_cons, hstep]
      exact ih fun i hi => hl i (List.mem_cons_of_mem _ hi)
  exact hall _ fun n hn => List.mem_range.mp hn

/-- A site that is lost while its ports carry nothing: its place is marked. -/
theorem siteLost_standing (x : SiteSt)
    (h : ∀ i, i < 32 → portSites.getD (i / 4) 99 = site → (s.g k).portState i = 0 ∨ (s.g k).portState i = 4) :
    ((s.siteLost k site x).g k).standing = (mins (s.g k).sites site x, (s.g k).started) := by
  unfold Pack.siteLost
  rw [portsDown_none h]
  extract_lets s0 gone s1 s2 s3
  have h1 : (s1.g k).standing = (mins (s.g k).sites site x, (s.g k).started) := by
    show ((s.on k _).g k).standing = _
    rw [Pack.on_g_self]
    refine (foldl_keeps (P := Pkg.standing) (fun g e => ?_) [0, 1, 2, 3, 4] { s.g k with sites := mins (s.g k).sites site x }).trans rfl
    split <;> rfl
  have h2 : (s2.g k).standing = (s1.g k).standing := foldl_keeps (P := fun p : Pack => (p.g k).standing) (fun p f => skipFlit_standing p f) ..
  have h3 : (s3.g k).standing = (s2.g k).standing :=
    foldl_keeps (P := fun p : Pack => (p.g k).standing) (fun p j => by
      beta_reduce
      split
      · exact stackPortDown_standing ..
      · rfl) ..
  rw [← h1, ← h2, ← h3]
  split
  · exact Pack.on_keeps (P := Pkg.standing) _ _ _ (failPkg_standing _)
  · rfl

theorem dieFailed_standing {reason : Nat} (hsite : site < 48) (hst : (s.g k).siteSt site = .active)
    (h : ∀ i, i < 32 → portSites.getD (i / 4) 99 = site → (s.g k).portState i = 0 ∨ (s.g k).portState i = 4) :
    ((s.dieFailed k site reason).g k).standing = (mins (s.g k).sites site .failed, mins (s.g k).started site false) := by
  have hgo : ¬ (48 ≤ site ∨ (s.g k).siteSt site ≠ .active) := by simp [hst, hsite]
  have hself : (s.on k (fun g => (g.dieDrop site).offersBack site)).g k = ((s.g k).dieDrop site).offersBack site := Pack.on_g_self ..
  have hstand := offersBack_standing ((s.g k).dieDrop site) site
  have hlost := siteLost_standing (s := s.on k (fun g => (g.dieDrop site).offersBack site)) (k := k) (site := site) .failed (fun i hi hs => by
    rw [hself, offersBack_portState]
    exact h i hi hs)
  rw [hself] at hlost
  unfold Pack.dieFailed
  rw [if_neg hgo]
  dsimp only
  rw [Pack.on_g_self]
  have hlog (g : Pkg) : ((({ g with pr := { g.pr with bad := true } }).logHub 0x020E site reason 0).send (.revertReq g.pos 0x020E)).standing = g.standing := by
    show (Pkg.sites (Pkg.logAt _ _ _ _ _ _ _ _), Pkg.started (Pkg.logAt _ _ _ _ _ _ _ _)) = _
    rw [Pkg.logAt_sites, Pkg.logAt_started]
    rfl
  rw [hlog, hlost]
  exact congrArg (fun x : Map SiteSt × Map Bool => (mins x.1 site SiteSt.failed, x.2)) hstand
end

/-! ## Settling the obligation -/

section
variable {s : State} {k : Nat} {m : Master} {v : W32}

theorem limit_in {g : Pkg} {w : Nat} (h : 2000 ≤ w ∧ w ≤ 6500) : (g.limitWrite w).rf (rPwr 4) 15 0 = w := by
  rw [Pkg.limitWrite, if_pos h]
  exact (g.rf_wf_same w (by decide) (by decide)).trans (Nat.mod_eq_of_lt (by omega))

theorem limit_out {g : Pkg} {w : Nat} (h : w < 2000 ∨ 6500 < w) : (g.limitWrite w).rb (rPwr 0) 30 = true ∧ (g.limitWrite w).rd (rPwr 4) = g.rd (rPwr 4) := by
  rw [Pkg.limitWrite, if_neg (by omega)]
  exact ⟨Pkg.rb_wb_same _ _ _ (by decide), Pkg.wr_rd_ne _ _ (by decide)⟩

theorem lands_pwrLimit {P : Pack → Prop} (hP : ∀ p : Pack, p.g k = ((s.pack.g k).arrived (rPwr 0)).limitWrite (v.toNat % 65536) → p.mem = s.pack.mem → P p) :
    Lands s k { key := rPwr 0, site := 62, off := 0x14004, v := v, x := {} } P := by
  refine lands_of_on (b := .pwr) (o := 4) (by decide : blockOf 62 0x14004 = some (.pwr, 4)) (by decide : rPwr 0 < hubR 0x30000) (fun g => g.limitWrite (v.toNat % 65536)) (fun p _ => ?_) hP
  show p.on k (fun g => g.limitWrite (fld v 15 0)) = _
  rw [fld_low]
  rfl

theorem gives_pwrLimit (hw : Writable s.pack k m 62 0x14004 .pwr 4) :
    Gives (.pwrLimitWrite k m v) s (s.pack.posted k { key := rPwr 0, site := 62, off := 0x14004, v := v, x := {} }) :=
  gives_of_onPack rfl ((busWrite_served hw).trans (regWrite_posts_priv (hw.priv.resolve_right (by decide)) rfl rfl (hw.idle _ rfl) (by decide)))
end

/-- Settles O51. -/
theorem powerAndHeat : Obligations.PowerAndHeat := by
  unfold Obligations.PowerAndHeat
  intro s k site r amps pin tj m v l g x lim limit hot t th heat
  refine ⟨gives_pwrLimit, fun hlow hhigh => lands_pwrLimit fun p hp hmem => ⟨by rw [hp]; exact limit_in ⟨hlow, hhigh⟩, hmem⟩,
    fun hout => lands_pwrLimit fun p hp hmem => ?_, fun htrips => ?_, fun hdead => ?_, fun hup => ⟨fun hhot => ?_, fun hcool => ?_, fun hflag hcalm => ?_, fun hcalm => ?_,
      fun hlive => ?_, fun hlive => ?_, fun hus hidle => ?_, fun href hsite hst hports => ?_, fun href => ?_⟩⟩
  · obtain ⟨herr, hkeep⟩ := limit_out (g := g.arrived (rPwr 0)) hout
    rw [hp]
    exact ⟨herr, hkeep, hmem⟩
  · obtain ⟨hstate, htherm, hleft, hbit, hfld, hmem⟩ := thermalTrip_says s.pack k htrips
    refine ⟨_, gives_of_onPack rfl rfl, hstate, htherm, hleft, hbit, hfld, ?_, fun a ha => by rw [hmem, if_pos ha], fun a ha => by rw [hmem, if_neg ha]⟩
    unfold Pkg.hubUp Pkg.powered
    rw [hstate]
    simp
  · refine gives_of_onPack rfl (Pack.on_congr ?_)
    have hoff : (g.hubUp && g.dieLive site) = false := by rcases hdead with h | h <;> simp [h]
    exact if_neg (by rw [hoff]; decide)
  · refine leaves_hubPkg hup rfl fun p hp hmem => ?_
    obtain ⟨hpin, hflag, hsteps⟩ := inputSample_hot g amps pin hhot
    rw [hp]
    exact ⟨hpin, hflag, hsteps, hmem⟩
  · refine leaves_hubPkg hup rfl fun p hp hmem => ?_
    rw [inputSample_cool _ amps pin hcool] at hp
    rw [hp]
    exact ⟨sampled_pin g pin, Pkg.wr_rd_ne _ _ (by decide), rfl, hmem⟩
  · refine leaves_hubPkg hup rfl fun p hp hmem => ?_
    rw [hp]
    exact ⟨emergencyEnd_ends g hflag hcalm, hmem⟩
  · refine ⟨s.pack.on k fun g => g.emergencyEnd, gives_of_atHub rfl hup rfl, fun j => ?_, Pack.on_mem ..⟩
    exact Pack.on_keeps (P := fun g => g) _ _ _ (emergencyEnd_early g hcalm)
  · refine ⟨s.pack.on k fun g => g.junction k site tj, gives_of_onPack rfl (Pack.on_congr (if_pos (by rw [hup, hlive]; rfl))), ?_⟩
    beta_reduce
    rw [Pack.on_g_self]
    obtain ⟨htj, htrips⟩ := junction_says (k := k) (tj := tj) hlive
    exact ⟨htj, htrips, Pack.on_mem ..⟩
  · refine leaves_hubPkg hup rfl fun p hp hmem => ?_
    obtain ⟨hheat, hcap, hstep⟩ := heatStep_says hlive
    rw [hp]
    exact ⟨hheat, hcap, hstep, hmem⟩
  · refine gives_of_atHub rfl hup (Pack.on_congr (if_neg ?_))
    rw [show (s.pack.g k).regionActive site r = false from hidle]
    simpa using hus
  · refine leaves_atHub hup rfl ?_
    rw [show s.pack.pllLoss k site = s.pack.dieFailed k site 1 from if_pos href]
    have hstand := dieFailed_standing (reason := 1) hsite hst hports
    refine ⟨?_, ?_, Pack.dieFailed_mem ..⟩
    · exact (congrArg (fun x : Map SiteSt × Map Bool => mget SiteSt.active x.1 site) hstand).trans (mget_mins_self ..)
    · exact (congrArg (fun x : Map SiteSt × Map Bool => mget false x.2 site) hstand).trans (mget_mins_self ..)
  · exact gives_of_atHub rfl hup (if_neg (by rw [href]; decide))

end Sys2Proof.Machine
end

section
/-! PROOFS. Governors and the hub's budget; O50 -/

namespace Sys2Proof.Machine

/-! ## Governors and their messages -/

section
variable (g : Pkg) (d : Nat)

theorem onGov_self (f : Gov → Gov) : (g.onGov d f).gov d = f (g.gov d) := mget_mins_self ..

theorem onGov_ne {e : Nat} (f : Gov → Gov) (h : e ≠ d) : (g.onGov d f).gov e = g.gov e := mget_mins_ne _ _ _ h

/-- The message of a governor, by what it says. -/
def Pkg.govMsg (g : Pkg) (kind site dst amt ref level : Nat) : GovMsg :=
  { kind := kind, src := site, dst := dst, seq := (g.gov site).seq, use := g.gUse site, cap := g.gCap site, amt := amt, ref := ref, level := level }

theorem govSend_msgs (kind dst amt ref level : Nat) : (g.govSend kind d dst amt ref level).pw.msgs = g.pw.msgs ++ [g.govMsg kind d dst amt ref level] := rfl

theorem govSend_regs (kind dst amt ref level : Nat) : (g.govSend kind d dst amt ref level).regs = g.regs := rfl

theorem govSend_gov (kind dst amt ref level : Nat) : (g.govSend kind d dst amt ref level).gov d =
    { g.gov d with seq := ((g.gov d).seq + 1) % 65536, told := if kind = 0x20 then (g.gov d).told else dst :: (g.gov d).told } := mget_mins_self ..

theorem gCap_setCap {v : Nat} (hv : v < 65536) : (g.setCap d v).gCap d = v :=
  (g.rf_wf_same v (by decide) (by decide)).trans (Nat.mod_eq_of_lt hv)

theorem gUse_setCap (v : Nat) : (g.setCap d v).gUse d = g.gUse d := g.rf_wf_apart v (by decide) (by decide) (.inl (by decide))

theorem maxCap_lt : g.maxCap d < 65536 := fld_31_lt _

theorem gCap_lt : g.gCap d < 65536 := fld_31_lt _

theorem gCap_of_regs {g h : Pkg} (hregs : h.regs = g.regs) (d : Nat) : h.gCap d = g.gCap d ∧ h.gUse d = g.gUse d ∧ h.maxCap d = g.maxCap d := by
  unfold Pkg.gCap Pkg.gUse Pkg.maxCap Pkg.rf
  rw [Pkg.rd_of_regs hregs, Pkg.rd_of_regs hregs]
  exact ⟨rfl, rfl, rfl⟩

/-- A message is taken out of the network of governors. -/
def Pkg.tookMsg (r : List GovMsg) (g : Pkg) : Pkg := { g with pw := { g.pw with msgs := r } }

/-- What a message tells of its sender changes the receiver's table of neighbours, or the hub's of the dies, alone. -/
theorem govNote_eq (m : GovMsg) : ∃ known gov, g.govNote m = { g with pw := { g.pw with known := known, gov := gov } } ∧
    ∀ d, (mget ({} : Gov) gov d).offer = (g.gov d).offer := by
  unfold Pkg.govNote
  split
  · exact ⟨_, _, rfl, fun d => rfl⟩
  · split
    · exact ⟨_, _, rfl, fun d => rfl⟩
    · split
      · next e _ =>
        refine ⟨_, _, rfl, fun d => ?_⟩
        by_cases hd : d = m.dst
        · subst hd
          exact (congrArg Gov.offer (mget_mins_self ..)).trans rfl
        · exact congrArg Gov.offer (mget_mins_ne _ _ _ hd)
      · exact ⟨_, _, rfl, fun d => rfl⟩

theorem govNote_keeps (m : GovMsg) : (g.govNote m).regs = g.regs ∧ (g.govNote m).standing = g.standing ∧ (g.govNote m).pw.msgs = g.pw.msgs ∧
    (g.govNote m).pw.pool = g.pw.pool ∧ (g.govNote m).pw.offers = g.pw.offers := by
  obtain ⟨known, gov, heq, -⟩ := govNote_eq g m
  rw [heq]
  exact ⟨rfl, rfl, rfl, rfl, rfl⟩

theorem govNote_offer (m : GovMsg) : ((g.govNote m).gov d).offer = (g.gov d).offer := by
  obtain ⟨known, gov, heq, hgov⟩ := govNote_eq g m
  rw [heq]
  exact hgov d

theorem dieLive_of_standing {g h : Pkg} (hst : h.standing = g.standing) (d : Nat) : h.dieLive d = g.dieLive d := by
  unfold Pkg.dieLive Pkg.hole Pkg.siteSt
  rw [show h.sites = g.sites from congrArg Prod.fst hst, show h.started = g.started from congrArg Prod.snd hst]
end

/-! ## The answer to an OFFER -/

section
variable (g : Pkg) (d src seq amt level : Nat)

/-- A die takes an OFFER: no offer of its own is open, it has little slack, and room below MAXCAP (R400). -/
def Pkg.offerFits (g : Pkg) (d amt : Nat) : Prop := (g.gov d).offer = none ∧ g.gCap d ≤ g.gUse d + 8 ∧ g.gCap d + amt ≤ g.maxCap d

theorem answerOffer_takes (h : g.offerFits d amt) : (g.answerOffer d src seq amt level).gCap d = g.gCap d + amt ∧
    ∃ z ∈ (g.answerOffer d src seq amt level).pw.msgs, z.kind = 0x22 ∧ z.src = d ∧ z.dst = src ∧ z.amt = amt ∧ z.ref = seq := by
  obtain ⟨hnone, hslack, hroom⟩ := h
  rw [Pkg.answerOffer, if_pos ⟨by rw [hnone]; rfl, hslack, hroom⟩]
  have hlt := maxCap_lt g d
  exact ⟨gCap_setCap g d (by omega), _, List.mem_append_right _ List.mem_cons_self, rfl, rfl, rfl, rfl, rfl⟩

theorem answerOffer_refuses (h : ¬ g.offerFits d amt) : (g.answerOffer d src seq amt level).gCap d = g.gCap d ∧
    ∃ z ∈ (g.answerOffer d src seq amt level).pw.msgs, z.kind = 0x23 ∧ z.src = d ∧ z.dst = src ∧ z.amt = amt ∧ z.ref = seq := by
  have hno : ¬ ((g.gov d).offer.isNone = true ∧ g.gCap d ≤ g.gUse d + slack ∧ g.gCap d + amt ≤ g.maxCap d) := fun hc =>
    h ⟨Option.isNone_iff_eq_none.mp hc.1, hc.2⟩
  rw [Pkg.answerOffer, if_neg hno]
  exact ⟨rfl, _, List.mem_append_right _ List.mem_cons_self, rfl, rfl, rfl, rfl, rfl⟩

theorem offerFits_congr {g h : Pkg} (hregs : h.regs = g.regs) (hoffer : (h.gov d).offer = (g.gov d).offer) : h.offerFits d amt ↔ g.offerFits d amt := by
  obtain ⟨hcap, huse, hmax⟩ := gCap_of_regs hregs d
  rw [Pkg.offerFits, hcap, huse, hmax, hoffer, Pkg.offerFits]

theorem answerOffer_standing : (g.answerOffer d src seq amt level).standing = g.standing := by
  unfold Pkg.answerOffer
  split <;> rfl
end

/-! ## The hub's pool -/

theorem foldl_add (l : List Nat) : ∀ n, l.foldl (· + ·) n = n + sumL l := by
  induction l with
  | nil => exact fun n => rfl
  | cons a l ih =>
    intro n
    have hzero : sumL (a :: l) = a + sumL l := by
      rw [sumL, List.foldl_cons, ih, Nat.zero_add]
    rw [List.foldl_cons, ih, hzero, Nat.add_assoc]

theorem sumL_cons (n : Nat) (l : List Nat) : sumL (n :: l) = n + sumL l := by
  rw [sumL, List.foldl_cons, foldl_add, Nat.zero_add]

section
variable (g : Pkg)

/-- The part of the grant that is not in the pool: capacities and open OFFERs. -/
def Pkg.capsOut (g : Pkg) : Nat :=
  sumL (g.govDies.map (fun d => g.gCap d + (match (g.gov d).offer with | some o => o.2.2 | none => 0))) + sumL (g.pw.offers.map (fun o => o.2.2))

theorem grant_eq : g.grant = g.capsOut + g.pw.pool := rfl

theorem capsOut_congr {g h : Pkg} (hregs : ∀ d, d < 48 → h.gCap d = g.gCap d) (hst : h.standing = g.standing) (hgov : ∀ d, (h.gov d).offer = (g.gov d).offer)
    (hoffers : h.pw.offers = g.pw.offers) : h.capsOut = g.capsOut := by
  have hdies : h.govDies = g.govDies := List.filter_congr fun d _ => dieLive_of_standing hst d
  unfold Pkg.capsOut
  rw [hdies, hoffers]
  congr 2
  exact List.map_congr_left fun d hd => by rw [hregs d (govDies_lt g hd), hgov d]

/-- The hub takes budget back that the allowance covers. -/
theorem poolAdd_fits {n dd : Nat} (h : g.grant + n ≤ dd) : (g.poolAdd n dd).pw.pool = g.pw.pool + n ∧ (g.poolAdd n dd).pw.msgs = g.pw.msgs := by
  have hgrant : ({ g with pw := { g.pw with pool := g.pw.pool + n } } : Pkg).grant = g.grant + n := by
    rw [grant_eq, grant_eq, Nat.add_assoc]
    rfl
  have hno : min n (g.grant + n - dd) = 0 := by omega
  unfold Pkg.poolAdd
  dsimp only
  rw [hgrant, hno]
  split <;> exact ⟨rfl, rfl⟩

theorem poolAdd_standing (n dd : Nat) : (g.poolAdd n dd).standing = g.standing := by
  unfold Pkg.poolAdd
  dsimp only
  split <;> rfl
end

/-! ## The hub's period -/

/-- The hub has sent a status message to a die; what it grants in all is as before. -/
structure Pkg.Told (g h : Pkg) (d : Nat) : Prop where
  regs : h.regs = g.regs
  standing : h.standing = g.standing
  grant : h.grant = g.grant
  told : ∃ z ∈ h.pw.msgs, z.kind = 0x20 ∧ z.src = 62 ∧ z.dst = d
  kept : ∀ z ∈ g.pw.msgs, z ∈ h.pw.msgs

theorem told_hubSend (g : Pkg) (d amt ref pool : Nat) : g.Told (g.hubSend 0x20 d amt ref pool) d :=
  ⟨rfl, rfl, rfl, ⟨_, List.mem_append_right _ List.mem_cons_self, rfl, rfl, rfl⟩, fun _ hz => List.mem_append_left _ hz⟩

/-- An OFFER out of the pool: what leaves the pool is in the open OFFERs. -/
theorem told_offer (g : Pkg) {d n amt : Nat} (h : amt ≤ g.pw.pool) :
    g.Told (({ g with pw := { g.pw with pool := g.pw.pool - amt, offers := (d, n, amt) :: g.pw.offers, served := d } } : Pkg).hubSend 0x20 d 0 0 amt) d := by
  refine ⟨rfl, rfl, ?_, ⟨_, List.mem_append_right _ List.mem_cons_self, rfl, rfl, rfl⟩, fun _ hz => List.mem_append_left _ hz⟩
  show sumL (g.govDies.map (fun d => g.gCap d + (match (g.gov d).offer with | some o => o.2.2 | none => 0))) +
    sumL (((d, n, amt) :: g.pw.offers).map (fun o => o.2.2)) + (g.pw.pool - amt) = _
  rw [List.map_cons, sumL_cons, grant_eq, Pkg.capsOut]
  dsimp only
  omega

theorem foldl_told {f : Pkg → Nat → Pkg} (hf : ∀ (g : Pkg) d, g.Told (f g d) d) : ∀ (l : List Nat) (g : Pkg), (l.foldl f g).regs = g.regs ∧
    (l.foldl f g).standing = g.standing ∧ (l.foldl f g).grant = g.grant ∧ (∀ z ∈ g.pw.msgs, z ∈ (l.foldl f g).pw.msgs) ∧
    ∀ d ∈ l, ∃ z ∈ (l.foldl f g).pw.msgs, z.kind = 0x20 ∧ z.src = 62 ∧ z.dst = d
  | [], _ => ⟨rfl, rfl, rfl, fun _ hz => hz, fun _ hd => absurd hd List.not_mem_nil⟩
  | d :: l, g => by
    have hd := hf g d
    obtain ⟨hregs, hst, hgrant, hkept, htold⟩ := foldl_told hf l (f g d)
    refine ⟨hregs.trans hd.regs, hst.trans hd.standing, hgrant.trans hd.grant, fun z hz => hkept z (hd.kept z hz), fun e he => ?_⟩
    rcases List.mem_cons.mp he with rfl | he
    · obtain ⟨z, hz, hsays⟩ := hd.told
      exact ⟨z, hkept z hz, hsays⟩
    · exact htold e he

section
variable (g : Pkg) (nondie : Nat)

/-- The hub's period up to its messages: what the dies may not have is measured, and the pool brings the grant up to the allowance. -/
def Pkg.filled (g : Pkg) (nondie : Nat) : Pkg :=
  { (g.wf (rPwr 0x10) 31 16 nondie) with pw := { g.pw with
    pool := g.pw.pool + ((g.wf (rPwr 0x10) 31 16 nondie).allowance - (g.wf (rPwr 0x10) 31 16 nondie).grant) } }

theorem gCap_wf_pwr (v o hi lo d : Nat) (hd : d < 48) : (g.wf (rPwr o) hi lo v).gCap d = g.gCap d := by
  rw [Pkg.gCap, g.rf_wf_ne v (rPwr_ne_rGov hd (by decide)).symm, Pkg.gCap]

theorem measured_grant : (g.wf (rPwr 0x10) 31 16 nondie).grant = g.grant := by
  have : (g.wf (rPwr 0x10) 31 16 nondie).capsOut = g.capsOut := capsOut_congr (fun d hd => gCap_wf_pwr g _ _ _ _ d hd) rfl (fun _ => rfl) rfl
  rw [grant_eq, grant_eq, this]
  rfl

theorem measured_allowance : (g.wf (rPwr 0x10) 31 16 nondie).allowance =
    4 * (g.rf (rPwr 4) 15 0 * 908 / 1000 - nondie % 65536 - g.rf (rPwr 0x14) 31 16) := by
  unfold Pkg.allowance
  rw [g.rf_wf_same _ (by decide) (by decide), g.rf_wf_ne _ (by decide), g.rf_wf_ne _ (by decide)]
  rfl

theorem filled_grant : (g.filled nondie).grant = max g.grant (4 * (g.rf (rPwr 4) 15 0 * 908 / 1000 - nondie % 65536 - g.rf (rPwr 0x14) 31 16)) := by
  have hpool : (g.filled nondie).grant = (g.wf (rPwr 0x10) 31 16 nondie).grant +
      ((g.wf (rPwr 0x10) 31 16 nondie).allowance - (g.wf (rPwr 0x10) 31 16 nondie).grant) := by
    rw [grant_eq, grant_eq, Nat.add_assoc]
    rfl
  rw [hpool, measured_grant, measured_allowance]
  omega

/-- The hub's period: its messages follow the measurement (R398, R401). -/
theorem budgetPeriod_says : (g.budgetPeriod nondie).rf (rPwr 0x10) 31 16 = nondie % 65536 ∧
    (g.budgetPeriod nondie).grant = max g.grant (4 * (g.rf (rPwr 4) 15 0 * 908 / 1000 - nondie % 65536 - g.rf (rPwr 0x14) 31 16)) ∧
    ∀ d, d < 48 → g.dieLive d = true → (g.budgetPeriod nondie).gCap d = g.gCap d ∧
      ∃ z ∈ (g.budgetPeriod nondie).pw.msgs, z.kind = 0x20 ∧ z.src = 62 ∧ z.dst = d ∧ True := by
  unfold Pkg.budgetPeriod
  extract_lets g1 dd src g2 e dies caps share back g3 order
  have hg2 : g2 = g.filled nondie := rfl
  have hf : ∀ (g : Pkg) (d : Nat), g.Told (if 0 < share d then g.hubSend 0x20 d (share d) 0 0
    else
      let kn := mget (0, 0) g.pw.known d
      let amt := min g.pw.pool (min (g.maxCap d - kn.2) 16)
      if kn.2 ≤ kn.1 + slack ∧ 0 < amt ∧ !(g.pw.offers.any (fun o => o.1 == d)) then
        let n := g.pw.seq
        let g := { g with pw := { g.pw with pool := g.pw.pool - amt, offers := (d, n, amt) :: g.pw.offers, served := d } }
        g.hubSend 0x20 d 0 0 amt
      else g.hubSend 0x20 d 0 0 0) d := by
    intro g d
    split
    · exact told_hubSend ..
    · dsimp only
      split
      · exact told_offer g (Nat.min_le_left ..)
      · exact told_hubSend ..
  obtain ⟨hregs, -, hgrant, -, htold⟩ := foldl_told hf order g3
  have hcaps : g3.capsOut = g2.capsOut := capsOut_congr (fun d hd => gCap_wf_pwr g2 _ _ _ _ d hd) rfl (fun _ => rfl) rfl
  have hg3 : g3.grant = g2.grant := by
    rw [grant_eq, grant_eq, hcaps]
    rfl
  refine ⟨?_, ?_, fun d hd hlive => ⟨?_, ?_⟩⟩
  · rw [Pkg.rf, Pkg.rd_of_regs hregs, Pkg.rd_wb, if_neg (by decide)]
    exact g.rf_wf_same nondie (by decide) (by decide)
  · rw [hgrant, hg3, hg2, filled_grant]
  · rw [(gCap_of_regs hregs d).1]
    exact (gCap_wf_pwr g2 _ _ _ _ d hd).trans (gCap_wf_pwr g _ _ _ _ d hd)
  · have hdie : d ∈ dies := List.mem_filter.mpr ⟨List.mem_range.mpr hd, hlive⟩
    obtain ⟨z, hz, h1, h2, h3⟩ := htold d (by
      by_cases hs : g3.pw.served < d
      · exact List.mem_append_left _ (List.mem_filter.mpr ⟨hdie, decide_eq_true hs⟩)
      · exact List.mem_append_right _ (List.mem_filter.mpr ⟨hdie, decide_eq_true (Nat.le_of_not_lt hs)⟩))
    exact ⟨z, hz, h1, h2, h3, trivial⟩
end

/-! ## A governor's period -/

/-- A status message of a die. -/
def Pkg.reported (g h : Pkg) (site t level : Nat) : Prop :=
  ∃ z ∈ h.pw.msgs, z.kind = 0x20 ∧ z.src = site ∧ z.dst = t ∧ z.use = g.gUse site ∧ z.cap = g.gCap site ∧ z.level = level

section
variable (site level : Nat)

/-- A die's status messages change its message number alone. -/
theorem foldl_status : ∀ (l : List Nat) (g : Pkg), let h := l.foldl (fun g t => g.govSend 0x20 site t 0 0 level) g
    h.regs = g.regs ∧ (∃ n, h.gov site = { g.gov site with seq := n }) ∧ (∀ z ∈ g.pw.msgs, z ∈ h.pw.msgs) ∧ ∀ t ∈ l, g.reported h site t level
  | [], _ => ⟨rfl, ⟨_, rfl⟩, fun _ hz => hz, fun _ ht => absurd ht List.not_mem_nil⟩
  | t :: l, g => by
    obtain ⟨hregs, ⟨n, hgov⟩, hkept, hsaid⟩ := foldl_status l (g.govSend 0x20 site t 0 0 level)
    obtain ⟨hcap, huse, -⟩ := gCap_of_regs (govSend_regs g site 0x20 t 0 0 level) site
    refine ⟨hregs, ⟨n, hgov.trans (by rw [govSend_gov]; rfl)⟩, fun z hz => hkept z (List.mem_append_left _ hz), fun e he => ?_⟩
    rcases List.mem_cons.mp he with rfl | he
    · exact ⟨_, hkept _ (List.mem_append_right _ List.mem_cons_self), rfl, rfl, rfl, rfl, rfl, rfl⟩
    · obtain ⟨z, hz, h1, h2, h3, h4, h5, h6⟩ := hsaid e he
      exact ⟨z, hz, h1, h2, h3, h4.trans huse, h5.trans hcap, h6⟩

/-- The end of a period: those who have had no message get one, and the next period begins with nobody told (R280). -/
theorem govStatus_says (g : Pkg) (ts : List Nat) : (g.govStatus site ts level).regs = g.regs ∧
    (∃ n, (g.govStatus site ts level).gov site = { g.gov site with seq := n, told := [] }) ∧ (∀ z ∈ g.pw.msgs, z ∈ (g.govStatus site ts level).pw.msgs) ∧
    ∀ t ∈ ts, t ∉ (g.gov site).told → g.reported (g.govStatus site ts level) site t level := by
  obtain ⟨hregs, ⟨n, hgov⟩, hkept, hsaid⟩ := foldl_status site level (ts.filter (fun t => !(g.gov site).told.contains t)) g
  refine ⟨hregs, ⟨n, ?_⟩, hkept, fun t ht hnot => hsaid t (List.mem_filter.mpr ⟨ht, by simpa using hnot⟩)⟩
  exact (onGov_self _ site _).trans (by rw [hgov])

/-- USE of a period is measured. -/
def Pkg.used (g : Pkg) (site use : Nat) : Pkg := g.wf (rGov site 0) 15 0 use

/-- A governor's measurement of a period: USE, the steps that follow from it (R399). -/
def Pkg.measured (g : Pkg) (site use draw : Nat) : Pkg :=
  ((g.used site use).onGov site (fun x =>
    { x with
      capStep := if use % 65536 ≤ (g.used site use).gCap site then draw % 16 else 1 + draw % 15
      below := if use % 65536 + 2 * slack < (g.used site use).gCap site then x.below + 1 else 0 })).setStep site

/-- A governor offers part of its budget (R280, R400). -/
def Pkg.offering (g : Pkg) (site dst amt level use cap draw : Nat) : Pkg :=
  (((g.setCap site (cap - amt)).govSend 0x21 site dst amt 0 level).onGov site (fun x =>
    { x with
      offer := some (dst, (g.gov site).seq, amt)
      rcl := 0
      capStep := if use ≤ cap - amt then x.capStep else 1 + draw % 15 })).setStep site

variable (g : Pkg) (use draw : Nat)

theorem setStep_gov (e : Nat) : (g.setStep site).gov e = g.gov e := rfl

theorem used_gCap : (g.used site use).gCap site = g.gCap site := g.rf_wf_apart use (by decide) (by decide) (.inr (by decide))

/-- What a measurement leaves: USE, the step and the count of periods below, and nothing else of the governor. -/
theorem measured_says : (g.measured site use draw).gUse site = use % 65536 ∧ (g.measured site use draw).gCap site = g.gCap site ∧
    (g.measured site use draw).minCap site = g.minCap site ∧
    ∃ step n, (g.measured site use draw).gov site = { g.gov site with capStep := step, below := n } ∧ (g.gCap site < use % 65536 → 1 ≤ step) ∧
      (g.gCap site ≤ use % 65536 + 16 → n = 0) := by
  have hclk : rGov site 0 ≠ rGov site 0xC := rGov_ne (by decide) (by decide) (.inr (by decide))
  have hmin : rGov site 4 ≠ rGov site 0xC ∧ rGov site 4 ≠ rGov site 0 :=
    ⟨rGov_ne (by decide) (by decide) (.inr (by decide)), rGov_ne (by decide) (by decide) (.inr (by decide))⟩
  refine ⟨?_, ?_, ?_, ?_⟩
  · rw [Pkg.gUse, Pkg.rf, Pkg.measured, setStep_rd _ _ hclk]
    exact g.rf_wf_same use (by decide) (by decide)
  · rw [Pkg.gCap, Pkg.rf, Pkg.measured, setStep_rd _ _ hclk]
    exact used_gCap ..
  · rw [Pkg.minCap, Pkg.rf, Pkg.measured, setStep_rd _ _ hmin.1]
    exact g.rf_wf_ne use hmin.2
  · refine ⟨if use % 65536 ≤ g.gCap site then draw % 16 else 1 + draw % 15,
      if use % 65536 + 2 * slack < g.gCap site then (g.gov site).below + 1 else 0, ?_, fun h => ?_, fun h => ?_⟩
    · rw [Pkg.measured, setStep_gov, onGov_self, used_gCap]
      rfl
    · rw [if_neg (by omega)]
      omega
    · exact if_neg (show ¬ use % 65536 + 16 < g.gCap site by omega)

theorem offering_says {dst amt cap : Nat} (hcap : cap < 65536) : let h := g.offering site dst amt level use cap draw
    h.gUse site = g.gUse site ∧ h.gCap site = cap - amt ∧
    (∃ n told step, h.gov site = { g.gov site with seq := n, told := told, offer := some (dst, (g.gov site).seq, amt), rcl := 0, capStep := step } ∧
      (cap < use → 1 ≤ step)) ∧
    ∃ z ∈ h.pw.msgs, z.kind = 0x21 ∧ z.src = site ∧ z.dst = dst ∧ z.amt = amt ∧ z.seq = (g.gov site).seq ∧ z.level = level := by
  have hclk : rGov site 0 ≠ rGov site 0xC := rGov_ne (by decide) (by decide) (.inr (by decide))
  refine ⟨?_, ?_, ?_, _, List.mem_append_right _ List.mem_cons_self, rfl, rfl, rfl, rfl, rfl, rfl⟩
  · rw [Pkg.gUse, Pkg.rf, Pkg.offering, setStep_rd _ _ hclk]
    exact gUse_setCap ..
  · rw [Pkg.gCap, Pkg.rf, Pkg.offering, setStep_rd _ _ hclk]
    exact gCap_setCap g site (by omega)
  · refine ⟨((g.gov site).seq + 1) % 65536, dst :: (g.gov site).told, if use ≤ cap - amt then (g.gov site).capStep else 1 + draw % 15, ?_, fun h => ?_⟩
    · rw [Pkg.offering, setStep_gov, onGov_self, govSend_gov, if_neg (by decide)]
      rfl
    · rw [if_neg (by omega)]
      omega
end

section
variable (s : Pack) (k site use level : Nat)

/-- A period: the measurement, perhaps an offer, the status messages. -/
theorem govPeriod_parts (hlive : (s.g k).dieLive site = true) : ∃ ts draw, ∃ o : Option (Nat × Nat), 62 ∈ ts ∧
    ((s.govPeriod k site use level).g k = (match o with
      | some (dst, amt) => ((s.g k).measured site use draw).offering site dst amt level (use % 65536) ((s.g k).gCap site) draw
      | none => (s.g k).measured site use draw).govStatus site ts level) ∧
    (((s.g k).gov site).offer = none → 0 < ((s.g k).gov site).rcl →
      o = some (62, min ((s.g k).gov site).rcl ((s.g k).gCap site - (s.g k).minCap site))) ∧
    (((s.g k).gov site).offer = none → ((s.g k).gov site).rcl = 0 → (s.g k).gCap site ≤ use % 65536 + 16 → o = none) := by
  obtain ⟨-, -, hmin, step, n, hgov, -, hzero⟩ := measured_says site (s.g k) use s.draw.1
  unfold Pack.govPeriod
  rw [hlive, Bool.not_true, if_neg Bool.false_ne_true]
  extract_lets d u
  have hd : d.2.g k = s.g k := rfl
  rw [Pack.on_g_self, hd]
  extract_lets g1 cap g2 x ends amt qs best offerTo
  have hcap : cap = (s.g k).gCap site := used_gCap ..
  have hx : x = { (s.g k).gov site with capStep := step, below := n } := hgov
  have hm : g2.minCap site = (s.g k).minCap site := hmin
  refine ⟨62 :: ends.map (·.2), d.1, offerTo, List.mem_cons_self, ?_, fun hnone hrcl => ?_, fun hnone hrcl hle => ?_⟩
  · rw [← hcap]
    cases offerTo <;> rfl
  · show (if x.offer.isSome then none else if 0 < x.rcl then _ else _) = _
    rw [hm, hcap, hx, if_neg (by rw [hnone]; exact Bool.false_ne_true), if_pos hrcl]
  · show (if x.offer.isSome then none else if 0 < x.rcl then _ else if x.below < 4 then _ else _) = _
    have hn := hzero hle
    rw [hx, if_neg (by rw [hnone]; exact Bool.false_ne_true), if_neg (by rw [hrcl]; decide), if_pos (show n < 4 by omega)]
end

section
variable {s : Pack} {k site use level : Nat}

/-- USE is measured, the step follows it where USE is above CAP, and nobody has been told anything of the next period (R280, R399). -/
theorem govPeriod_measures (hlive : (s.g k).dieLive site = true) : ((s.govPeriod k site use level).g k).gUse site = use % 65536 ∧
    ((s.g k).gCap site < use % 65536 → 1 ≤ (((s.govPeriod k site use level).g k).gov site).capStep) ∧
    (((s.govPeriod k site use level).g k).gov site).told = [] := by
  obtain ⟨ts, draw, o, -, heq, -, -⟩ := govPeriod_parts s k site use level hlive
  obtain ⟨huse, -, -, step, n, hgov, hstep, -⟩ := measured_says site (s.g k) use draw
  rw [heq]
  cases o with
  | none =>
    obtain ⟨hregs, ⟨q, hst⟩, -, -⟩ := govStatus_says site level ((s.g k).measured site use draw) ts
    dsimp only
    rw [(gCap_of_regs hregs site).2.1, hst, hgov]
    exact ⟨huse, hstep, rfl⟩
  | some o =>
    obtain ⟨dst, amt⟩ := o
    obtain ⟨huse', -, ⟨q, told, step', hgov', hstep'⟩, -⟩ := offering_says site level ((s.g k).measured site use draw) (use % 65536) draw (dst := dst) (amt := amt) (gCap_lt (s.g k) site)
    obtain ⟨hregs, ⟨q', hst⟩, -, -⟩ := govStatus_says site level
      (((s.g k).measured site use draw).offering site dst amt level (use % 65536) ((s.g k).gCap site) draw) ts
    dsimp only
    rw [(gCap_of_regs hregs site).2.1, hst, hgov']
    exact ⟨huse'.trans huse, hstep', rfl⟩

/-- A governor that keeps its budget reports its USE and CAP (R280). -/
theorem govPeriod_reports (hlive : (s.g k).dieLive site = true) (hnone : ((s.g k).gov site).offer = none) (hrcl : ((s.g k).gov site).rcl = 0)
    (hle : (s.g k).gCap site ≤ use % 65536 + 16) : ((s.govPeriod k site use level).g k).gCap site = (s.g k).gCap site ∧
    (((s.govPeriod k site use level).g k).gov site).below = 0 ∧
    (62 ∉ ((s.g k).gov site).told → ∃ z ∈ ((s.govPeriod k site use level).g k).pw.msgs, z.kind = 0x20 ∧ z.src = site ∧ z.dst = 62 ∧
      z.use = use % 65536 ∧ z.cap = (s.g k).gCap site ∧ z.level = level) := by
  obtain ⟨ts, draw, o, hts, heq, -, ho⟩ := govPeriod_parts s k site use level hlive
  obtain ⟨huse, hcap, -, step, n, hgov, -, hn⟩ := measured_says site (s.g k) use draw
  obtain ⟨hregs, ⟨q, hst⟩, -, hsaid⟩ := govStatus_says site level ((s.g k).measured site use draw) ts
  rw [heq, ho hnone hrcl hle]
  dsimp only
  rw [(gCap_of_regs hregs site).1, hst, hgov]
  refine ⟨hcap, hn hle, fun htold => ?_⟩
  obtain ⟨z, hz, h1, h2, h3, h4, h5, h6⟩ := hsaid 62 hts (by rw [hgov]; exact htold)
  exact ⟨z, hz, h1, h2, h3, h4.trans huse, h5.trans hcap, h6⟩

/-- A recalled governor offers the hub what lies above MINCAP (R401). -/
theorem govPeriod_offers (hlive : (s.g k).dieLive site = true) (hnone : ((s.g k).gov site).offer = none) (hrcl : 0 < ((s.g k).gov site).rcl) :
    let back := min ((s.g k).gov site).rcl ((s.g k).gCap site - (s.g k).minCap site)
    ((s.govPeriod k site use level).g k).gCap site = (s.g k).gCap site - back ∧
    (((s.govPeriod k site use level).g k).gov site).offer = some (62, ((s.g k).gov site).seq, back) ∧
    (((s.govPeriod k site use level).g k).gov site).rcl = 0 ∧
    ∃ z ∈ ((s.govPeriod k site use level).g k).pw.msgs, z.kind = 0x21 ∧ z.src = site ∧ z.dst = 62 ∧ z.amt = back ∧ z.seq = ((s.g k).gov site).seq ∧
      z.level = level := by
  intro back
  obtain ⟨ts, draw, o, -, heq, ho, -⟩ := govPeriod_parts s k site use level hlive
  obtain ⟨-, -, -, step, n, hgov, -, -⟩ := measured_says site (s.g k) use draw
  obtain ⟨-, hcap, ⟨q, told, step', hgov', -⟩, z, hz, h1, h2, h3, h4, h5, h6⟩ :=
    offering_says site level ((s.g k).measured site use draw) (use % 65536) draw (dst := 62) (amt := back) (gCap_lt (s.g k) site)
  obtain ⟨hregs, ⟨q', hst⟩, hkept, -⟩ := govStatus_says site level
    (((s.g k).measured site use draw).offering site 62 back level (use % 65536) ((s.g k).gCap site) draw) ts
  have hseq : (((s.g k).measured site use draw).gov site).seq = ((s.g k).gov site).seq := by rw [hgov]
  rw [heq, ho hnone hrcl]
  dsimp only
  rw [(gCap_of_regs hregs site).1, hst, hgov']
  refine ⟨hcap, ?_, rfl, z, hkept z hz, h1, h2, h3, h4, h5.trans hseq, h6⟩
  exact congrArg (fun q => some (62, q, back)) hseq
end

/-! ## Messages that arrive -/

section
variable (g : Pkg)

theorem offerDone_standing (m : GovMsg) (back : Bool) : (g.offerDone m back).standing = g.standing := by
  unfold Pkg.offerDone
  split
  · split
    · rfl
    · dsimp only
      split
      · exact poolAdd_standing ..
      · rfl
  · split
    · rfl
    · split
      · rfl
      · dsimp only
        split <;> rfl

theorem offerDone_accepted {m : GovMsg} {amt : Nat} (hdst : m.dst ≠ 62) (hoffer : (g.gov m.dst).offer = some (m.src, m.ref, amt)) :
    g.offerDone m false = g.onGov m.dst (fun x => { x with offer := none }) := by
  rw [Pkg.offerDone, if_neg hdst, hoffer]
  dsimp only
  rw [if_neg (by simp), if_neg Bool.false_ne_true]

theorem offerDone_refused {m : GovMsg} {amt : Nat} (hdst : m.dst ≠ 62) (hoffer : (g.gov m.dst).offer = some (m.src, m.ref, amt)) :
    g.offerDone m true = (g.onGov m.dst (fun x => { x with offer := none })).setCap m.dst (g.gCap m.dst + amt) := by
  rw [Pkg.offerDone, if_neg hdst, hoffer]
  dsimp only
  rw [if_neg (by simp), if_pos rfl]
  rfl

/-- What an OFFER does at its receiver. -/
def offerAnswer (k : Nat) (m : GovMsg) (g : Pkg) : Pkg :=
  if m.dst = 62 then ((g.govNote m).poolAdd m.amt (g.govNote m).allowance).hubSend 0x22 m.src m.amt m.seq 0
  else if (g.govNote m).dieLive m.dst then (g.govNote m).answerOffer m.dst m.src m.seq m.amt (Config.siteLevel k m.dst % 8) else g.govNote m

theorem offerAnswer_standing (k : Nat) (m : GovMsg) : (offerAnswer k m g).standing = g.standing := by
  obtain ⟨-, hst, -⟩ := govNote_keeps g m
  unfold offerAnswer
  split
  · exact (poolAdd_standing (g.govNote m) _ _).trans hst
  · split
    · exact (answerOffer_standing ..).trans hst
    · exact hst
end

section
variable {s : Pack} {k i : Nat} {m : GovMsg} {r : List GovMsg}

theorem govTake_of {kind : Nat} (g : Pkg) (htake : takeAt g.pw.msgs i = some (m, r)) (hkind : m.kind = kind) :
    g.govTake i kind = some (m, g.tookMsg r) := by
  rw [Pkg.govTake, htake]
  exact if_pos hkind

variable (htake : takeAt (s.g k).pw.msgs i = some (m, r))
include htake

theorem govIn_takes {kind : Nat} {f : GovMsg → Pkg → Pkg} (hkind : m.kind = kind) (hbad : badLevel k m = false) :
    (s.govIn k i kind f).g k = f m ((s.g k).tookMsg r) := by
  rw [Pack.govIn, govTake_of _ htake hkind]
  dsimp only
  rw [hbad, if_neg Bool.false_ne_true]
  exact Pack.on_g_self s k (fun _ => f m ((s.g k).tookMsg r))

/-- A sender that reports another level than its fused one is declared failed (R276, R281). -/
theorem govIn_fails {kind : Nat} {f : GovMsg → Pkg → Pkg} (hkind : m.kind = kind) (hbad : badLevel k m = true) (hsite : m.src < 48)
    (hst : (s.g k).siteSt m.src = .active) (hport : m.src ∉ portSites) (hf : ∀ g : Pkg, (f m g).standing = g.standing) :
    ((s.govIn k i kind f).g k).siteSt m.src = .failed := by
  have hself : (s.put k (f m ((s.g k).tookMsg r))).g k = f m ((s.g k).tookMsg r) := Pack.on_g_self s k (fun _ => f m ((s.g k).tookMsg r))
  have hkeep : (f m ((s.g k).tookMsg r)).sites = (s.g k).sites := congrArg Prod.fst (hf ((s.g k).tookMsg r))
  rw [Pack.govIn, govTake_of _ htake hkind]
  dsimp only
  rw [hbad, if_pos rfl, Pkg.siteSt, show (Pack.g _ k).sites = _ from congrArg Prod.fst (dieFailed_standing hsite (by
    rw [hself, Pkg.siteSt, hkeep]
    exact hst) (fun i hi hs => ?_))]
  · exact mget_mins_self ..
  · have hlen : i / 4 < portSites.length := by
      show i / 4 < 8
      omega
    rw [List.getD_eq_getElem _ _ hlen] at hs
    exact absurd (hs ▸ List.getElem_mem hlen) hport

/-- A die answers an OFFER from what it holds. -/
theorem takeOffer_die (hkind : m.kind = 0x21) (hbad : badLevel k m = false) (hdst : m.dst ≠ 62) (hlive : (s.g k).dieLive m.dst = true) :
    ∃ h : Pkg, (s.takeOffer k i).g k = h.answerOffer m.dst m.src m.seq m.amt (Config.siteLevel k m.dst % 8) ∧ h.gCap m.dst = (s.g k).gCap m.dst ∧
      (h.offerFits m.dst m.amt ↔ (s.g k).offerFits m.dst m.amt) := by
  obtain ⟨hregs, hst, -⟩ := govNote_keeps ((s.g k).tookMsg r) m
  refine ⟨((s.g k).tookMsg r).govNote m, (govIn_takes htake hkind hbad).trans ?_, (gCap_of_regs hregs m.dst).1, offerFits_congr _ _ hregs ?_⟩
  · beta_reduce
    dsimp only
    rw [if_neg hdst, dieLive_of_standing hst, if_pos (show ((s.g k).tookMsg r).dieLive m.dst = true from hlive)]
  · exact govNote_offer ((s.g k).tookMsg r) m.dst m

/-- The hub takes an OFFER's budget into its pool (R401). -/
theorem takeOffer_hub (hkind : m.kind = 0x21) (hbad : badLevel k m = false) (hdst : m.dst = 62) (hfits : (s.g k).grant + m.amt ≤ (s.g k).allowance) :
    ((s.takeOffer k i).g k).pw.pool = (s.g k).pw.pool + m.amt ∧
    ∃ z ∈ ((s.takeOffer k i).g k).pw.msgs, z.kind = 0x22 ∧ z.src = 62 ∧ z.dst = m.src ∧ z.amt = m.amt ∧ z.ref = m.seq := by
  obtain ⟨hregs, hst, -, hpool, hoffers⟩ := govNote_keeps ((s.g k).tookMsg r) m
  have hcaps : (((s.g k).tookMsg r).govNote m).capsOut = (s.g k).capsOut :=
    capsOut_congr (fun d _ => (gCap_of_regs hregs d).1) hst (fun d => govNote_offer ((s.g k).tookMsg r) d m) hoffers
  have hgrant : (((s.g k).tookMsg r).govNote m).grant = (s.g k).grant := by
    rw [grant_eq, grant_eq, hcaps, hpool]
    rfl
  have hallow : (((s.g k).tookMsg r).govNote m).allowance = (s.g k).allowance := by
    unfold Pkg.allowance Pkg.rf
    rw [Pkg.rd_of_regs hregs, Pkg.rd_of_regs hregs, Pkg.rd_of_regs hregs]
    rfl
  obtain ⟨hp, -⟩ := poolAdd_fits (((s.g k).tookMsg r).govNote m) (n := m.amt) (dd := (((s.g k).tookMsg r).govNote m).allowance)
    (by rw [hgrant, hallow]; exact hfits)
  rw [Pack.takeOffer, govIn_takes htake hkind hbad]
  dsimp only
  rw [if_pos hdst]
  exact ⟨hp.trans (congrArg (· + m.amt) hpool), _, List.mem_append_right _ List.mem_cons_self, rfl, rfl, rfl, rfl, rfl⟩

/-- An answer to a die's offer finds that offer. -/
theorem answerFinds {amt : Nat} (hoffer : ((s.g k).gov m.dst).offer = some (m.src, m.ref, amt)) :
    ((((s.g k).tookMsg r).govNote m).gov m.dst).offer = some (m.src, m.ref, amt) ∧ (((s.g k).tookMsg r).govNote m).gCap m.dst = (s.g k).gCap m.dst ∧
    (((s.g k).tookMsg r).govNote m).pw.msgs = r := by
  obtain ⟨hregs, -, hmsgs, -⟩ := govNote_keeps ((s.g k).tookMsg r) m
  exact ⟨(govNote_offer ((s.g k).tookMsg r) m.dst m).trans hoffer, (gCap_of_regs hregs m.dst).1, hmsgs⟩

theorem takeAccept_says {amt : Nat} (hkind : m.kind = 0x22) (hbad : badLevel k m = false) (hdst : m.dst ≠ 62)
    (hoffer : ((s.g k).gov m.dst).offer = some (m.src, m.ref, amt)) : (((s.takeAccept k i).g k).gov m.dst).offer = none ∧
    ((s.takeAccept k i).g k).gCap m.dst = (s.g k).gCap m.dst ∧ ((s.takeAccept k i).g k).pw.msgs = r := by
  obtain ⟨hopen, hcap, hmsgs⟩ := answerFinds htake hoffer
  rw [Pack.takeAccept, govIn_takes htake hkind hbad]
  rw [offerDone_accepted _ hdst hopen, onGov_self]
  exact ⟨rfl, hcap, hmsgs⟩

theorem takeRefuse_says {amt : Nat} (hkind : m.kind = 0x23) (hbad : badLevel k m = false) (hdst : m.dst ≠ 62)
    (hoffer : ((s.g k).gov m.dst).offer = some (m.src, m.ref, amt)) (hlt : (s.g k).gCap m.dst + amt < 65536) :
    (((s.takeRefuse k i).g k).gov m.dst).offer = none ∧
    ((s.takeRefuse k i).g k).gCap m.dst = (s.g k).gCap m.dst + amt ∧ ((s.takeRefuse k i).g k).pw.msgs = r := by
  obtain ⟨hopen, hcap, hmsgs⟩ := answerFinds htake hoffer
  rw [Pack.takeRefuse, govIn_takes htake hkind hbad]
  rw [offerDone_refused _ hdst hopen, hcap]
  refine ⟨?_, gCap_setCap _ _ hlt, hmsgs⟩
  exact congrArg Gov.offer (onGov_self _ m.dst (fun x => { x with offer := none }))

/-- A recall is kept for the die's next period (R401). -/
theorem hubStatus_recalls (hkind : m.kind = 0x20) (hsrc : m.src = 62) (hlive : (s.g k).dieLive m.dst = true) (hamt : 0 < m.amt) :
    (((s.hubStatus k i).g k).gov m.dst).rcl = m.amt ∧ ((s.hubStatus k i).g k).pw.msgs = r := by
  have hlive' : ((s.g k).tookMsg r).dieLive m.dst = true := hlive
  have hself (f : Pkg) (p : Pack) : (p.put k f).g k = f := Pack.on_g_self p k (fun _ => f)
  rw [Pack.hubStatus, govTake_of _ htake hkind]
  dsimp only
  rw [if_neg (fun h => h hsrc), hlive', Bool.not_true, if_neg Bool.false_ne_true, if_pos hamt, hself, setStep_gov, onGov_self]
  exact ⟨rfl, rfl⟩

/-- An OFFER of the pool to a die that may take it (R400, R401). -/
theorem hubStatus_offers (hkind : m.kind = 0x20) (hsrc : m.src = 62) (hlive : (s.g k).dieLive m.dst = true) (hamt : m.amt = 0) (hpool : 0 < m.pool)
    (hfits : (s.g k).offerFits m.dst m.pool) : ((s.hubStatus k i).g k).gCap m.dst = (s.g k).gCap m.dst + m.pool ∧
    ∃ z ∈ ((s.hubStatus k i).g k).pw.msgs, z.kind = 0x22 ∧ z.src = m.dst ∧ z.dst = 62 ∧ z.amt = m.pool ∧ z.ref = m.seq := by
  have hlive' : ((s.g k).tookMsg r).dieLive m.dst = true := hlive
  have hself (f : Pkg) (p : Pack) : (p.put k f).g k = f := Pack.on_g_self p k (fun _ => f)
  have htakes := answerOffer_takes ((s.g k).tookMsg r) m.dst 62 m.seq m.pool (Config.siteLevel k m.dst % 8)
    ((offerFits_congr _ _ rfl rfl).mpr hfits)
  rw [Pack.hubStatus, govTake_of _ htake hkind]
  dsimp only
  rw [if_neg (fun h => h hsrc), hlive', Bool.not_true, if_neg Bool.false_ne_true, if_neg (by omega), if_pos hpool, hself]
  exact htakes

/-- A message that is not for this site stays where it is. -/
theorem govMessage_elsewhere {site : Nat} (hdst : m.dst ≠ site) : s.govMessage k site i = s := by
  unfold Pack.govMessage Pkg.govTake
  rw [htake]
  dsimp only
  split
  · rfl
  · next m' _ heq =>
    split at heq
    · cases heq
      exact if_pos (.inr hdst)
    · cases heq

theorem govMessage_eq (hkind : m.kind = 0x20) (hsrc : m.src < 48) : s.govMessage k m.dst i = s.govIn k i 0x20 (fun m g => g.govNote m) := by
  rw [Pack.govMessage, govTake_of _ htake hkind]
  exact if_neg (by omega)

/-- The hub keeps what a die tells it of its USE and CAP (R280). -/
theorem govMessage_hub (hkind : m.kind = 0x20) (hsrc : m.src < 48) (hdst : m.dst = 62) (hbad : badLevel k m = false) :
    mget (0, 0) ((s.govMessage k m.dst i).g k).pw.known m.src = (m.use, m.cap) ∧ ((s.govMessage k m.dst i).g k).pw.msgs = r ∧
    ((s.govMessage k m.dst i).g k).sites = (s.g k).sites := by
  rw [govMessage_eq htake hkind hsrc, govIn_takes htake hkind hbad, Pkg.govNote, if_neg (by omega), if_pos hdst]
  exact ⟨mget_mins_self .., rfl, rfl⟩
end

/-- Settles O50: what the hub and each governor make of a period and of each message, command by command. -/
theorem governors : Obligations.Governors := by
  unfold Obligations.Governors
  intro s k site use level i nondie m r g x cap u back reports fits dd hup
  refine ⟨fun hlive => ?_, fun htake hdst => ?_, fun htake hbad => ⟨fun hkind hdst hlive => ⟨fun hfits => ?_, fun hfits => ?_⟩, fun hkind hdst hroom => ?_,
    fun amt hdst hoffer hlt => ⟨fun hkind => ?_, fun hkind => ?_⟩, fun hkind hsrc hlive => ⟨fun hamt => ?_, fun hamt hpool hnone hslack hroom => ?_⟩,
    fun hkind hsrc hdst => ?_⟩, fun c htake hbad hst hsrc hport hc => ?_, ?_⟩
  · refine leaves_atHub hup rfl ?_
    obtain ⟨huse, hstep, htold⟩ := govPeriod_measures (use := use) (level := level) hlive
    exact ⟨huse, hstep, htold, Pack.govPeriod_mem .., fun hnone hrcl hle => govPeriod_reports hlive hnone hrcl hle,
      fun hnone hrcl => govPeriod_offers hlive hnone hrcl⟩
  · exact gives_of_atHub rfl hup (govMessage_elsewhere htake hdst)
  · refine leaves_atHub hup rfl ?_
    obtain ⟨h, heq, hcap, hiff⟩ := takeOffer_die htake hkind hbad hdst hlive
    obtain ⟨hnew, hsaid⟩ := answerOffer_takes h m.dst m.src m.seq m.amt (Config.siteLevel k m.dst % 8) (hiff.mpr hfits)
    rw [← heq] at hnew hsaid
    exact ⟨hnew.trans (congrArg (· + m.amt) hcap), hsaid, Pack.takeOffer_mem ..⟩
  · refine leaves_atHub hup rfl ?_
    obtain ⟨h, heq, hcap, hiff⟩ := takeOffer_die htake hkind hbad hdst hlive
    obtain ⟨hnew, hsaid⟩ := answerOffer_refuses h m.dst m.src m.seq m.amt (Config.siteLevel k m.dst % 8) (fun h => hfits (hiff.mp h))
    rw [← heq] at hnew hsaid
    exact ⟨hnew.trans hcap, hsaid, Pack.takeOffer_mem ..⟩
  · refine leaves_atHub hup rfl ?_
    obtain ⟨hpool, hsaid⟩ := takeOffer_hub htake hkind hbad hdst hroom
    exact ⟨hpool, hsaid, Pack.takeOffer_mem ..⟩
  · refine leaves_atHub hup rfl ?_
    obtain ⟨h1, h2, h3⟩ := takeAccept_says htake hkind hbad hdst hoffer
    exact ⟨h1, h2, h3, by simp [Pack.takeAccept]⟩
  · refine leaves_atHub hup rfl ?_
    obtain ⟨h1, h2, h3⟩ := takeRefuse_says htake hkind hbad hdst hoffer hlt
    exact ⟨h1, h2, h3, by simp [Pack.takeRefuse]⟩
  · refine leaves_atHub hup rfl ?_
    obtain ⟨h1, h2⟩ := hubStatus_recalls htake hkind hsrc hlive hamt
    exact ⟨h1, h2, Pack.hubStatus_mem ..⟩
  · refine leaves_atHub hup rfl ?_
    obtain ⟨h1, h2⟩ := hubStatus_offers htake hkind hsrc hlive hamt hpool ⟨hnone, hslack, hroom⟩
    exact ⟨h1, h2, Pack.hubStatus_mem ..⟩
  · refine leaves_atHub hup rfl ?_
    obtain ⟨h1, h2, h3⟩ := govMessage_hub htake hkind hsrc hdst hbad
    exact ⟨h1, h2, h3, by rw [govMessage_eq htake hkind hsrc, Pack.govIn_mem]⟩
  · have hfails {kind : Nat} {f : GovMsg → Pkg → Pkg} (hkind : m.kind = kind) (hf : ∀ g : Pkg, (f m g).standing = g.standing) :
        ((s.pack.govIn k i kind f).g k).siteSt m.src = .failed ∧ (s.pack.govIn k i kind f).mem = s.pack.mem :=
      ⟨govIn_fails htake hkind hbad hsrc hst hport hf, Pack.govIn_mem ..⟩
    simp only [List.mem_cons, Prod.mk.injEq, List.not_mem_nil, or_false] at hc
    rcases hc with ⟨hkind, rfl⟩ | ⟨hkind, rfl⟩ | ⟨hkind, rfl⟩ | ⟨hkind, rfl⟩
    · refine leaves_atHub hup rfl ?_
      rw [govMessage_eq htake hkind hsrc]
      exact hfails hkind fun h => (govNote_keeps h m).2.1
    · exact leaves_atHub hup rfl (hfails hkind fun h => offerAnswer_standing h k m)
    · exact leaves_atHub hup rfl (hfails hkind fun h => (offerDone_standing ..).trans (govNote_keeps h m).2.1)
    · exact leaves_atHub hup rfl (hfails hkind fun h => (offerDone_standing ..).trans (govNote_keeps h m).2.1)
  · refine leaves_hubPkg hup rfl fun p hg hmem => ?_
    rw [hg]
    obtain ⟨h1, h2, h3⟩ := budgetPeriod_says (s.pack.g k) nondie
    refine ⟨h1, h2, fun d hd hlive => ?_, hmem⟩
    obtain ⟨h4, z, hz, h5⟩ := h3 d hd hlive
    exact ⟨h4, z, by rw [hg]; exact hz, h5⟩

end Sys2Proof.Machine
end

section
/-! PROOFS. The comparison of replicas; O40 -/

namespace Sys2Proof.Machine

/-! ## Blocks and their places in two states of the pack -/

/-- Two states whose memory and places of shard areas agree. -/
structure Pack.SameAreas (s q : Pack) : Prop where
  mem : q.mem = s.mem
  plane : ∀ j, (q.g j).planeLoc = (s.g j).planeLoc
  dig : ∀ j, (q.g j).digLoc = (s.g j).digLoc
  ring : ∀ j, (q.g j).ringLoc = (s.g j).ringLoc
  row : ∀ j, (q.g j).rowOff = (s.g j).rowOff

namespace Pack.SameAreas
variable {s q : Pack} (h : s.SameAreas q)
include h

theorem bytes_eq (l : Loc) (n : Nat) : q.bytes l n = s.bytes l n := by
  rw [Pack.bytes, h.ring, h.mem, Pack.bytes]

theorem store (l : Loc) (bs : List Byte) : (s.store l bs).SameAreas (q.store l bs) :=
  ⟨by rw [Pack.store, Pack.store, h.ring, h.mem], h.plane, h.dig, h.ring, h.row⟩

theorem digNow_eq (k t n r plane b : Nat) : q.digNow k t n r plane b = s.digNow k t n r plane b := by
  rw [Pack.digNow, h.bytes_eq, h.plane, Pack.digNow]

theorem digStored_eq (k t n r plane b : Nat) : q.digStored k t n r plane b = s.digStored k t n r plane b := by
  rw [Pack.digStored, h.bytes_eq, h.dig, Pack.digStored]

theorem digest (k t n r plane b : Nat) : (s.digest k t n r plane b).SameAreas (q.digest k t n r plane b) := by
  rw [Pack.digest, Pack.digest, h.digNow_eq, h.dig]
  exact h.store ..

theorem copyBlock (k1 r1 k2 r2 t n plane b : Nat) :
    (s.copyBlock k1 r1 k2 r2 t n plane b).SameAreas (q.copyBlock k1 r1 k2 r2 t n plane b) := by
  rw [Pack.copyBlock, Pack.copyBlock, h.plane, h.plane, h.bytes_eq]
  exact (h.store ..).digest ..
end Pack.SameAreas

section
variable (s : Pack) (k t n : Nat) (x : ShardSt)

/-- What is kept of a shard moves no area. -/
theorem sameAreas_setShard : s.SameAreas (s.on k (fun g => g.setShard t n x)) :=
  ⟨rfl, fun j => Pack.on_keeps (P := Pkg.planeLoc) s k j rfl, fun j => Pack.on_keeps (P := Pkg.digLoc) s k j rfl,
    fun j => Pack.on_keeps (P := Pkg.ringLoc) s k j rfl, fun j => Pack.on_keeps (P := Pkg.rowOff) s k j rfl⟩

theorem newDigests_setShard (r : Nat) : (s.on k (fun g => g.setShard t n x)).newDigests k t n r = s.newDigests k t n r := by
  unfold Pack.newDigests
  rw [Pack.on_g_self]
  exact List.flatMap_congr fun p _ => List.map_congr_left fun b _ => (sameAreas_setShard s k t n x).digStored_eq ..

theorem ownPos_lt (g : Pkg) (e : Nat) : g.ownPos e < 64 := by
  rw [Pkg.ownPos, Pkg.rf, fld_eq]
  exact Nat.mod_lt _ (by decide)

theorem at_setShard (e : Nat) : (s.on k (fun g => g.setShard t n x)).at k ((s.g k).ownPos e) = s.at k ((s.g k).ownPos e) :=
  at_on (f := fun g => g.setShard t n x) ⟨rfl, rfl, rfl, rfl, fun _ _ => rfl⟩ (ownPos_lt (s.g k) e)
end

/-! ## The comparison of two replicas -/

/-- A shard has been compared (R224). -/
def Pkg.compared (t n : Nat) (g : Pkg) : Pkg := g.setShard t n { g.shardSt t n with cmp := true, digs := [] }

/-- Both owners of a shard have compared it. -/
def Pack.bothCompared (s : Pack) (k pk t n : Nat) : Pack := (s.on k (Pkg.compared t n)).on pk (Pkg.compared t n)

section
variable (s : Pack) {k pk : Nat} (t n : Nat) (hne : pk ≠ k)
include hne

theorem bothCompared_leader : (s.bothCompared k pk t n).g k = (s.g k).compared t n :=
  (Pack.on_g_ne _ _ (Ne.symm hne)).trans (Pack.on_g_self ..)

theorem bothCompared_other : (s.bothCompared k pk t n).g pk = (s.g pk).compared t n := by
  rw [Pack.bothCompared, Pack.on_g_self, Pack.on_g_ne _ _ hne]
end

theorem compared_cmp (g : Pkg) (t n : Nat) : ((g.compared t n).shardSt t n).cmp = true := congrArg ShardSt.cmp (mget_mins_self ..)

theorem bothCompared_mem (s : Pack) (k pk t n : Nat) : (s.bothCompared k pk t n).mem = s.mem := rfl

theorem eraseDups_same (a : Nat) : [a, a].eraseDups.length = 1 := by simp [List.eraseDups_cons]

theorem eraseDups_two {a b : Nat} (h : a ≠ b) : [a, b].eraseDups.length = 2 := by simp [List.eraseDups_cons, h.symm]

theorem majority_two {a b : Nat} (h : a ≠ b) : majority [a, b] = none := by simp [majority, h, h.symm]

/-- Two copies that differ: no majority, so the clean one wins where exactly one is clean (R224). -/
theorem winner_two {a b : Nat} (h : a ≠ b) (ca cb : Bool) : winner [(a, ca), (b, cb)] =
    if ca = cb then none else if ca then some a else some b := by
  unfold winner
  rw [show ([(a, ca), (b, cb)] : List (Nat × Bool)).map (·.1) = [a, b] from rfl, majority_two h]
  cases ca <;> cases cb <;> simp [List.eraseDups_cons, h, h.symm]

section
variable (s : Pack) (k pk t n r0 r : Nat) (own digs : List Nat) (events : List (Nat × Nat))

/-- Replicas whose digests agree are compared, and that is all (R223). -/
theorem compare_agree : s.compare k t n [(r0, k, own), (r, pk, own)] events = s.bothCompared k pk t n := by
  unfold Pack.compare
  extract_lets g nb pls idx s1
  have hs1 : s1 = s := List.foldl_fixed' (fun p =>
    if_pos (show [own.getD p.1 0, own.getD p.1 0].eraseDups.length ≤ 1 from (eraseDups_same _).le)) idx
  rw [hs1]
  rfl

variable (hblocks : (s.g k).planeBlocks t = 1) (hmoments : (s.g k).moments t = 0)
include hblocks hmoments

/-- One block in a step: what becomes of it (R224). -/
theorem compare_one : s.compare k t n [(r0, k, own), (r, pk, digs)] events =
    (let pl := (s.g k).plSlot t ((s.g k).wslot t)
     let ds := [(own.getD 0 0, cleanAt events r0 0), (digs.getD 0 0, cleanAt events r 0)]
     if (ds.map (·.1)).eraseDups.length ≤ 1 then s
     else match winner ds with
      | none => s.on k (fun g => g.diverge t)
      | some w =>
        match [(r0, k, own), (r, pk, digs)].find? (fun x => x.2.2.getD 0 0 == w) with
        | none => s
        | some src =>
          let bad := [(r0, k, own), (r, pk, digs)].filter (fun x => x.2.2.getD 0 0 != w)
          let s := bad.foldl (fun s x => s.copyBlock src.2.1 src.1 x.2.1 x.1 t n pl 0) s
          if bad.all (fun x => s.digNow x.2.1 t n x.1 pl 0 == w) then s.on k (fun g => g.logHub 0x0109 t (n * 65536 + pl) 0)
          else s.on k (fun g => g.diverge t)).bothCompared k pk t n := by
  unfold Pack.compare
  dsimp only
  rw [hblocks]
  unfold Pkg.newPlanes
  rw [hmoments]
  rfl

variable (hdiff : own.getD 0 0 ≠ digs.getD 0 0)
include hdiff

/-- A block on which two replicas differ, neither or both clean, marks the tensor DIVERGED (R224). -/
theorem compare_diverges (hsame : cleanAt events r 0 = cleanAt events r0 0) :
    s.compare k t n [(r0, k, own), (r, pk, digs)] events = (s.on k (fun g => g.diverge t)).bothCompared k pk t n := by
  rw [compare_one s k pk t n r0 r own digs events hblocks hmoments]
  dsimp only
  rw [List.map_cons, List.map_cons, List.map_nil, eraseDups_two hdiff, if_neg (by decide), winner_two hdiff, if_pos hsame.symm]

/-- A block of which one copy is clean is copied over the other (R224). -/
theorem compare_copies (hsound : cleanAt events r0 0 = true) (hclean : cleanAt events r 0 = false) :
    let pl := (s.g k).plSlot t ((s.g k).wslot t)
    let q := s.copyBlock k r0 pk r t n pl 0
    s.compare k t n [(r0, k, own), (r, pk, digs)] events =
      (if q.digNow pk t n r pl 0 = own.getD 0 0 then q.on k (fun g => g.logHub 0x0109 t (n * 65536 + pl) 0)
       else q.on k (fun g => g.diverge t)).bothCompared k pk t n := by
  rw [compare_one s k pk t n r0 r own digs events hblocks hmoments]
  dsimp only
  have hfind : [(r0, k, own), (r, pk, digs)].find? (fun x => x.2.2.getD 0 0 == own.getD 0 0) = some (r0, k, own) :=
    List.find?_cons_of_pos (by simp)
  have hbad : [(r0, k, own), (r, pk, digs)].filter (fun x => x.2.2.getD 0 0 != own.getD 0 0) = [(r, pk, digs)] := by
    rw [List.filter_cons_of_neg (by simp), List.filter_cons_of_pos (by simpa using hdiff.symm), List.filter_nil]
  rw [List.map_cons, List.map_cons, List.map_nil, eraseDups_two hdiff, if_neg (by decide), winner_two hdiff, hsound, hclean,
    if_neg (by decide), if_pos rfl]
  dsimp only
  rw [hfind, hbad]
  simp only [List.foldl_cons, List.foldl_nil, List.all_cons, List.all_nil, Bool.and_true, beq_iff_eq]
end

/-! ## Digests that arrive at the owner of replica 0 -/

/-- The digests that an owner has of a shard's other replicas, with those of replica `r`. -/
def Pkg.withDigests (t n r : Nat) (digs : List Nat) (g : Pkg) : Pkg :=
  g.setShard t n { g.shardSt t n with digs := (r, digs) :: (g.shardSt t n).digs.filter (fun d => d.1 != r) }

/-- The replicas whose owners have not been declared failed, but for `r0`. -/
def Pkg.otherReps (g : Pkg) (t n r0 : Nat) : List Nat :=
  (List.range (g.repl t)).filter (fun i => i != r0 && !g.lostPos (g.ownPos (g.ownerOf t n i)))

section
variable {s : Pack} {k t n r r0 pk : Nat} {digs : List Nat} (events : List (Nat × Nat)) (mine : List Nat)
variable (hrep : (s.g k).myRep t n = some r0) (hfirst : (s.g k).firstRep t n = r0) (hne : r ≠ r0) (hlt : r < (s.g k).repl t)
  (hdone : (s.g k).shardDone t n = true) (hat : s.at k ((s.g k).ownPos ((s.g k).ownerOf t n r)) = some pk)
  (hsent : .digests (s.g k).step t n r digs ∈ (s.g pk).sent)
include hrep hfirst hne hlt hdone hat hsent

/-- Digests that come while others are missing are kept (R223). -/
theorem replicaDigests_waits {i : Nat} (hi : i ∈ (s.g k).otherReps t n r0)
    (hmissing : ∀ d ∈ (r, digs) :: ((s.g k).shardSt t n).digs.filter (fun d => d.1 != r), d.1 ≠ i) :
    s.replicaDigests k t n r digs events mine = s.on k (Pkg.withDigests t n r digs) := by
  have hall : ¬ (((s.g k).otherReps t n r0).all
      (fun i => ((r, digs) :: ((s.g k).shardSt t n).digs.filter (fun d => d.1 != r)).any (fun d => d.1 == i)) = true) := fun h => by
    obtain ⟨d, hd, heq⟩ := List.any_eq_true.mp (List.all_eq_true.mp h i hi)
    exact hmissing d hd (eq_of_beq heq)
  unfold Pack.replicaDigests
  dsimp only
  rw [hat, hrep]
  dsimp only
  rw [if_neg (by simp [hfirst, hne, hdone, hsent, hlt]), ← Pkg.otherReps, if_neg hall]
  rfl

/-- The last digests that were missing start the comparison (R224). -/
theorem replicaDigests_compares (hothers : (s.g k).otherReps t n r0 = [r]) : s.replicaDigests k t n r digs events mine =
    (s.on k (Pkg.withDigests t n r digs)).compare k t n [(r0, k, s.newDigests k t n r0), (r, pk, digs)] (events ++ mine.map (fun b => (r0, b))) := by
  have hat' : (s.on k (Pkg.withDigests t n r digs)).at k ((s.g k).ownPos ((s.g k).ownerOf t n r)) = some pk := (at_setShard ..).trans hat
  have hnew : (s.on k (Pkg.withDigests t n r digs)).newDigests k t n r0 = s.newDigests k t n r0 := newDigests_setShard ..
  unfold Pack.replicaDigests
  dsimp only
  rw [hat, hrep]
  dsimp only
  rw [if_neg (by simp [hfirst, hne, hdone, hsent, hlt]), ← Pkg.otherReps, hothers, if_pos (by simp)]
  rw [List.filterMap_cons, List.filterMap_nil, List.find?_cons_of_pos (by simp)]
  rw [show s.on k (fun g => g.setShard t n { (s.g k).shardSt t n with
    digs := (r, digs) :: ((s.g k).shardSt t n).digs.filter (fun d => d.1 != r) }) = s.on k (Pkg.withDigests t n r digs) from rfl, hat', hnew]
end

/-- A tensor whose replicas have diverged. -/
theorem diverge_says (g : Pkg) (t : Nat) : (g.diverge t).tr.diverged = true ∧ (g.diverge t).rb (rTens t 0x18) 2 = true :=
  ⟨rfl, show (g.wb (rTens t 0x18) 2 true).rb (rTens t 0x18) 2 = true from g.rb_wb_same _ _ (by decide)⟩

/-- Settles O40: which of R224's cases a shard of one block meets, by the winner of its two digests. -/
theorem replicaComparison : Obligations.ReplicaComparison := by
  unfold Obligations.ReplicaComparison
  intro s k t n r r0 pk digs events mine g x ds others own pl found clean sound s2 hup hrep hfirst hne hlt hdone hat hsent
  have hsame : s.pack.SameAreas (s.pack.on k (Pkg.withDigests t n r digs)) := sameAreas_setShard ..
  have hself : (s.pack.on k (Pkg.withDigests t n r digs)).g k = g.withDigests t n r digs := Pack.on_g_self ..
  refine ⟨fun i hi hmissing => gives_of_atHub rfl hup (replicaDigests_waits events mine hrep hfirst hne hlt hdone hat hsent hi hmissing),
    fun hothers hpk => ?_⟩
  have hcompares := replicaDigests_compares events mine hrep hfirst hne hlt hdone hat hsent hothers
  refine ⟨fun hdigs => ?_, fun hblocks hmoments hdiff => ?_⟩
  · refine leaves_atHub hup rfl ?_
    rw [hcompares, show s.pack.newDigests k t n r0 = digs from hdigs.symm, compare_agree, bothCompared_leader _ _ _ hpk, bothCompared_other _ _ _ hpk, hself]
    exact ⟨compared_cmp .., compared_cmp .., rfl, rfl⟩
  · have hone : own = [own.getD 0 0] := by
      have hblocks' : (s.pack.g k).planeBlocks t = 1 := hblocks
      have hmoments' : (s.pack.g k).moments t = 0 := hmoments
      have hlist : own = [s.pack.digStored k t n r0 pl 0] := by
        show s.pack.newDigests k t n r0 = _
        unfold Pack.newDigests Pkg.newPlanes
        dsimp only
        rw [hblocks', hmoments']
        rfl
      rw [hlist]
      rfl
    have hdiff' : own.getD 0 0 ≠ digs.getD 0 0 := fun h => hdiff (hone.trans (by rw [h]))
    have hblocks' : ((s.pack.on k (Pkg.withDigests t n r digs)).g k).planeBlocks t = 1 := by rw [hself]; exact hblocks
    have hmoments' : ((s.pack.on k (Pkg.withDigests t n r digs)).g k).moments t = 0 := by rw [hself]; exact hmoments
    have hpl : (g.withDigests t n r digs).plSlot t ((g.withDigests t n r digs).wslot t) = pl := rfl
    refine ⟨fun hboth => ?_, fun hsound hclean hdig => ?_, fun hsound hclean hdig => ?_⟩
    · refine leaves_atHub hup rfl ?_
      rw [hcompares, compare_diverges _ k pk t n r0 r _ _ _ hblocks' hmoments' hdiff' hboth, bothCompared_leader _ _ _ hpk, Pack.on_g_self]
      obtain ⟨h1, h2⟩ := diverge_says ((s.pack.on k (Pkg.withDigests t n r digs)).g k) t
      exact ⟨h1, h2, rfl⟩
    · refine leaves_atHub hup rfl ?_
      have hcopy := hsame.copyBlock k r0 pk r t n pl 0
      rw [hcompares, compare_copies _ k pk t n r0 r _ _ _ hblocks' hmoments' hdiff' hsound hclean, hself, hpl]
      rw [if_pos ((hcopy.digNow_eq ..).trans hdig), bothCompared_leader _ _ _ hpk, Pack.on_g_self, Pack.copyBlock_g, hself]
      exact ⟨hcopy.mem, Pkg.logAt_logSeq ..⟩
    · refine leaves_atHub hup rfl ?_
      have hcopy := hsame.copyBlock k r0 pk r t n pl 0
      rw [hcompares, compare_copies _ k pk t n r0 r _ _ _ hblocks' hmoments' hdiff' hsound hclean, hself, hpl]
      rw [if_neg (fun h => hdig ((hcopy.digNow_eq ..).symm.trans h)), bothCompared_leader _ _ _ hpk, Pack.on_g_self, Pack.copyBlock_g, hself]
      exact ⟨hcopy.mem, rfl⟩

end Sys2Proof.Machine
end

section
/-! PROOFS. The two passes of a sweep; O38 -/

namespace Sys2Proof.Machine

/-! ## What a sweep's NORM and FCLIP leave alone -/

section
variable (g : Pkg) {a : Nat} (v : W32)

theorem filterMap_mins {α β : Type} {f : Nat × α → Option β} {i : Nat} (hf : ∀ v, f (i, v) = none) (v : α) :
    ∀ l : Map α, (mins l i v).filterMap f = l.filterMap f
  | [] => by rw [mins, List.filterMap_cons_none (hf v)]
  | (k, w) :: l => by
    rw [mins]
    split_ifs with h1 h2
    · rw [List.filterMap_cons_none (hf v)]
    · subst h2
      rw [List.filterMap_cons_none (hf v), List.filterMap_cons_none (hf w)]
    · rw [List.filterMap_cons, filterMap_mins hf v l, List.filterMap_cons]

/-- A register outside the tensors' names no tensor. -/
theorem tensors_wr (h : a < hubR 0x80000) : (g.wr a v).tensors = g.tensors :=
  filterMap_mins (fun v => if_neg (fun hc => absurd hc.1 (Nat.not_le.mpr h))) v g.regs

/-- Two states of a package whose state tables (R201 to R204) are the same. -/
structure Pkg.SameTables (g h : Pkg) : Prop where
  tensors : h.tensors = g.tensors
  tables : ∀ a, hubR 0x60000 ≤ a → h.rd a = g.rd a
  pos : h.pos = g.pos
  step : h.step = g.step
  stackOn : ∀ j, h.stackOn j = g.stackOn j

namespace Pkg.SameTables
variable {g} {h : Pkg} (hs : g.SameTables h)
include hs

theorem rf_tens (t o hi lo : Nat) : h.rf (rTens t o) hi lo = g.rf (rTens t o) hi lo := by
  rw [Pkg.rf, hs.tables _ (by simp only [rTens, hubR, rk]; omega), Pkg.rf]

theorem rf_own (e o hi lo : Nat) : h.rf (rOwn e o) hi lo = g.rf (rOwn e o) hi lo := by
  rw [Pkg.rf, hs.tables _ (by simp only [rOwn, hubR, rk]; omega), Pkg.rf]

theorem rb_tens (t o i : Nat) : h.rb (rTens t o) i = g.rb (rTens t o) i := by
  rw [Pkg.rb, hs.tables _ (by simp only [rTens, hubR, rk]; omega), Pkg.rb]

theorem nsh (t : Nat) : h.nsh t = g.nsh t := by
  rw [Pkg.nsh, Pkg.rows32, Pkg.shr32, hs.rf_tens, hs.rf_tens, Pkg.nsh, Pkg.rows32, Pkg.shr32]

theorem ownerOf (t n r : Nat) : h.ownerOf t n r = g.ownerOf t n r := by
  rw [Pkg.ownerOf, Pkg.own0, hs.rf_tens, hs.nsh, Pkg.ownerOf, Pkg.own0]

theorem myRep (t n : Nat) : h.myRep t n = g.myRep t n := by
  unfold Pkg.myRep Pkg.repl Pkg.ownPos
  simp only [hs.rf_tens, hs.rf_own, hs.ownerOf, hs.pos]

theorem myShards (t : Nat) : h.myShards t = g.myShards t := by
  rw [Pkg.myShards, hs.nsh, Pkg.myShards]
  exact List.filter_congr fun n _ => by rw [hs.myRep]

theorem shardTiles (t n : Nat) : h.shardTiles t n = g.shardTiles t n := by
  unfold Pkg.shardTiles Pkg.rows32 Pkg.shr32 Pkg.cols32
  simp only [hs.rf_tens]

theorem groupTensors (j : Nat) : h.groupTensors j = g.groupTensors j := by
  unfold Pkg.groupTensors Pkg.updTensors
  rw [hs.tensors, show h.tUpd = g.tUpd from funext fun t => hs.rb_tens t 0 28]
  refine List.filter_congr fun t _ => ?_
  rw [hs.myShards, Pkg.tGroup, hs.rf_tens, Pkg.tGroup]

theorem wslot (t : Nat) : h.wslot t = g.wslot t := hs.rf_tens t 0x10 27 25

theorem ownStack (t n r : Nat) : h.ownStack (h.ownerOf t n r) = g.ownStack (g.ownerOf t n r) := by
  rw [hs.ownerOf, Pkg.ownStack, hs.rf_own, Pkg.ownStack]
end Pkg.SameTables

/-- NORM and FCLIP of a group are put down (R209). -/
def Pkg.withNorm (m : NormRes) (g : Pkg) : Pkg := (g.wr (rSched m.group 0x3C) (mk32 m.norm)).wr (rSched m.group 0x40) (mk32 m.fclip)

theorem withNorm_rd (m : NormRes) {b : Nat} (h : ∀ o, o ≤ 0x40 → b ≠ rSched m.group o) : (g.withNorm m).rd b = g.rd b := by
  rw [Pkg.withNorm, Pkg.wr_rd_ne _ _ (h _ (by decide)), Pkg.wr_rd_ne _ _ (h _ (by decide))]

theorem sameTables_withNorm {m : NormRes} (hm : m.group < 64) : g.SameTables (g.withNorm m) := by
  have hlow (o : Nat) (ho : o ≤ 0x40) : rSched m.group o < hubR 0x60000 ∧ hubR 0xA000 ≤ rSched m.group o := by
    simp only [rSched, hubR, rk]
    omega
  refine ⟨?_, fun b hb => withNorm_rd g m fun o ho => ?_, ?_, ?_, fun j => ?_⟩
  · rw [Pkg.withNorm, tensors_wr, tensors_wr]
    · exact (hlow _ (by decide)).1.trans (by decide)
    · exact (hlow _ (by decide)).1.trans (by decide)
  · have := (hlow o ho).1
    omega
  · rw [Pkg.pos, Pkg.rf, withNorm_rd g m (fun o ho => (Nat.ne_of_lt (Nat.lt_of_lt_of_le (by decide) (hlow o ho).2)))]
    rfl
  · rw [Pkg.step, Pkg.sealed, withNorm_rd g m (fun o ho => (Nat.ne_of_lt (Nat.lt_of_lt_of_le (by decide) (hlow o ho).2)))]
    rfl
  · have hself : ∀ o, o ≤ 0x40 → rk (48 + j) 0 ≠ rSched m.group o := fun o ho => by
      simp only [rSched, hubR, rk]
      omega
    rw [Pkg.stackOn, Pkg.selfRef, Pkg.rb, Pkg.rb, withNorm_rd g m hself,
      withNorm_rd g m (fun o ho => (Nat.ne_of_lt (Nat.lt_of_lt_of_le (by decide) (hlow o ho).2)))]
    rfl
end

/-! ## Which gathers still read a slot -/

section
variable {α : Type} {d v : α} {i : Nat} {f : Nat → α → Bool}

theorem mAny_of_mget (hd : f i d = false) : ∀ {l : Map α}, f i (mget d l i) = true → mAny l f = true
  | [], h => absurd h (by rw [mget, hd]; exact Bool.false_ne_true)
  | (k, w) :: l, h => by
    rw [mAny, List.any_cons, Bool.or_eq_true]
    rw [mget] at h
    split at h
    · next hk => exact .inl (by rw [hk]; exact h)
    · exact .inr (mAny_of_mget hd h)

/-- A record replaced by one that agrees with it changes no search over the records. -/
theorem mAny_mins (hd : f i d = false) : ∀ {l : Map α}, f i v = f i (mget d l i) → mAny (mins l i v) f = mAny l f
  | [], h => by
    rw [mins, mAny, List.any_cons, h, mget, hd]
    rfl
  | (k, w) :: l, h => by
    rw [mins]
    split_ifs with h1 h2
    · have hall := mAny_of_mget (i := i) hd (l := (k, w) :: l)
      rw [mAny, List.any_cons, h]
      change (f i _ || mAny ((k, w) :: l) f) = _
      cases hf : f i (mget d ((k, w) :: l) i) with
      | false => rw [Bool.false_or]
      | true => rw [hall hf, Bool.or_true]
    · subst h2
      rw [mget, if_pos rfl] at h
      rw [mAny, List.any_cons, h, mAny, List.any_cons]
    · rw [mget, if_neg (fun h => h2 h.symm)] at h
      rw [mAny, List.any_cons, mAny, List.any_cons]
      exact congrArg _ (mAny_mins hd h)
end

theorem gatherReads_on {s : Pack} {k : Nat} {f : Pkg → Pkg} (hf : (f (s.g k)).co = (s.g k).co) (k' t n slot : Nat) :
    (s.on k f).gatherReads k' t n slot = s.gatherReads k' t n slot :=
  mAny_mins (d := coldPkg k) rfl (congrArg (fun c : Colls => c.gath.any (fun x => x.pk == k' && x.tensor == t && x.shard == n && x.slot == slot)) hf)

/-! ## Pass 1 -/

section
variable (s : Pack) (k t n : Nat)

/-- The reads of a shard whose stack is powered record nothing. -/
theorem shardGated_on {g : Pkg} {r : Nat} (h : g.ownerOn t n r) : g.shardGated t n r = g := if_pos h

/-- The gradients of a shard, from the sums in its accumulation slot (R212). -/
def Pack.sweepGrads (s : Pack) (k t n : Nat) : List Val :=
  ((s.g k).shardTiles t n).flatMap (fun c =>
    (s.planeTile k t n (((s.g k).myRep t n).getD 0) ((s.g k).plAcc t) c.1 c.2).map (fun y => gradOf ((s.g k).stepK t) y ((s.g k).tileSt t c.1 c.2).cnt))

/-- The sum of the squares of gradients, in units of 2^(-400) (R209). -/
def squareSum (gs : List Val) : Nat := (gs.map squareUnits).foldl (· + ·) 0

theorem planeTile_eq {s q : Pack} (h : s.SameAreas q) (k t n r plane row col : Nat) : q.planeTile k t n r plane row col = s.planeTile k t n r plane row col := by
  unfold Pack.planeTile
  dsimp only
  refine List.flatMap_congr fun i _ => ?_
  rw [h.bytes_eq, h.plane, h.row]

/-- A package that is put back as it was. -/
theorem sameAreas_on_same {f : Pkg → Pkg} (h : f (s.g k) = s.g k) : s.SameAreas (s.on k f) :=
  ⟨rfl, fun j => Pack.on_keeps (P := Pkg.planeLoc) s k j (by rw [h]), fun j => Pack.on_keeps (P := Pkg.digLoc) s k j (by rw [h]),
    fun j => Pack.on_keeps (P := Pkg.ringLoc) s k j (by rw [h]), fun j => Pack.on_keeps (P := Pkg.rowOff) s k j (by rw [h])⟩

variable {j : Nat}

/-- What pass 1 leaves of a package: the squares in the accumulator, the flags of its gradients, the shard through pass 1. -/
def Pkg.passed1 (t n j : Nat) (gs : List Val) (g : Pkg) : Pkg :=
  let g := if g.normOwner t n then g.addNorm j (squareSum gs) else g
  (g.gNan t (gs.any Val.isNan)).setShard t n { g.shardSt t n with p1 := true }

theorem gNan_keeps (g : Pkg) (t : Nat) (b : Bool) : (g.gNan t b).pos = g.pos ∧ (g.gNan t b).step = g.step ∧ (g.gNan t b).sent = g.sent ∧
    (g.gNan t b).tr.norms = g.tr.norms := by
  have hid : rPackId ≠ rTens t 0x18 ∧ rSealStep ≠ rTens t 0x18 := by
    simp only [rPackId, rSealStep, rTens, hubR, rk]
    omega
  unfold Pkg.gNan
  split
  · refine ⟨?_, ?_, rfl, rfl⟩
    · show (g.wb (rTens t 0x18) 0 true).rf rPackId 5 0 = _
      rw [Pkg.rf, Pkg.wb, Pkg.wr_rd_ne _ _ hid.1]
      rfl
    · show (((g.wb (rTens t 0x18) 0 true).rd rSealStep).toNat + 1) % 2 ^ 32 = _
      rw [Pkg.wb, Pkg.wr_rd_ne _ _ hid.2]
      rfl
  · exact ⟨rfl, rfl, rfl, rfl⟩

theorem passed1_says (g : Pkg) (gs : List Val) (hroot : g.normOwner t n = true) : let acc := mget (0, false) g.tr.norms j
    (g.passed1 t n j gs).shardSt t n = { g.shardSt t n with p1 := true } ∧ (g.passed1 t n j gs).pos = g.pos ∧ (g.passed1 t n j gs).step = g.step ∧
    (g.passed1 t n j gs).sent = g.sent ∧
    mget (0, false) (g.passed1 t n j gs).tr.norms j = ((acc.1 + squareSum gs) % 2 ^ 480, acc.2 || decide (2 ^ 480 ≤ acc.1 + squareSum gs)) := by
  intro acc
  obtain ⟨hpos, hstep, hsent, hnorms⟩ := gNan_keeps (g.addNorm j (squareSum gs)) t (gs.any Val.isNan)
  rw [Pkg.passed1, if_pos hroot]
  refine ⟨mget_mins_self .., hpos, hstep, hsent, ?_⟩
  rw [show (Pkg.setShard _ t n _).tr.norms = _ from hnorms]
  exact mget_mins_self ..

/-- The message that pass 1 ends with (R212). -/
def Pkg.sendsNorm (j : Nat) (g : Pkg) : Pkg :=
  g.send (.sweepAcc g.pos g.step { group := j, sum := (mget (0, false) g.tr.norms j).1, ovf := (mget (0, false) g.tr.norms j).2 })

theorem sendsNorm_says (g : Pkg) {a : Nat} {b : Bool} (h : mget (0, false) g.tr.norms j = (a, b)) :
    (g.sendsNorm j).shardSt = g.shardSt ∧ (g.sendsNorm j).sent = .sweepAcc g.pos g.step { group := j, sum := a, ovf := b } :: g.sent := by
  rw [Pkg.sendsNorm, h]
  exact ⟨rfl, rfl⟩

/-- Pass 1 of a group with one shard here (R212). -/
theorem sweepPass1_one (hen : (s.g k).sEn j = true) (hsweep : (s.g k).sweep j = true) (htens : (s.g k).groupTensors j = [t]) (hshards : (s.g k).myShards t = [n])
    (hmark : ((s.g k).shardSt t n).mark = true) (hstop : ((s.g k).shardSt t n).stop = false) (hp1 : ((s.g k).shardSt t n).p1 = false)
    (hroot : (s.g k).normOwner t n = true)
    (hon : (s.g k).ownerOn t n (((s.g k).myRep t n).getD 0)) :
    ((s.sweepPass1 k j []).g k) = ((s.g k).passed1 t n j (s.sweepGrads k t n)).sendsNorm j := by
  have hself : (s.on k (fun g => g.shardGated t n (((s.g k).myRep t n).getD 0))).g k = s.g k := (Pack.on_g_self ..).trans (shardGated_on t n hon)
  have hsame := sameAreas_on_same s k (f := fun g => g.shardGated t n (((s.g k).myRep t n).getD 0)) (shardGated_on t n hon)
  have hfull : (s.g k).groupComplete j = true := by simp [Pkg.groupComplete, htens, hshards, hmark, hstop]
  unfold Pack.sweepPass1
  extract_lets g shards q
  have hone : shards = [(t, n)] := by
    show ((s.g k).groupTensors j).flatMap _ = _
    rw [htens, List.flatMap_cons, List.flatMap_nil, hshards]
    rfl
  have hq : q = (s.on k (fun g => g.shardGated t n (((s.g k).myRep t n).getD 0))).on k (Pkg.passed1 t n j (s.sweepGrads k t n)) := by
    show List.foldl _ s shards = _
    rw [hone, List.foldl_cons, List.foldl_nil]
    dsimp only
    rw [show s.shardReads k t n (((s.g k).myRep t n).getD 0) [] = s.on k (fun g => g.shardGated t n (((s.g k).myRep t n).getD 0)) from rfl, hself,
      if_neg (by rw [hstop]; exact Bool.false_ne_true)]
    simp only [planeTile_eq hsame]
    rfl
  have hqk : q.g k = (s.g k).passed1 t n j (s.sweepGrads k t n) := by rw [hq, Pack.on_g_self, hself]
  rw [hone, if_neg (by simp [g, hen, hsweep, hfull, hp1]), if_neg (by
    rw [List.any_cons, List.any_nil, Bool.or_false, hqk]
    exact ne_true_of_eq_false ((congrArg ShardSt.stop (passed1_says t n (s.g k) _ hroot).1).trans hstop)), Pack.on_g_self, hqk]
  rfl
end

/-! ## The leader's sum -/

section
variable (g : Pkg) (q : Nat) (a : NormAcc)

/-- The accumulators the leader holds, with those of position `q`. -/
def Pkg.sweepList (g : Pkg) (q : Nat) (a : NormAcc) : List (Nat × NormAcc) :=
  (q, a) :: g.ld.sweep.filter (fun x => !(x.1 == q && x.2.group == a.group))

/-- Every member's accumulator for a group is in (R212). -/
def Pkg.sweepFull (g : Pkg) (q : Nat) (a : NormAcc) : Bool :=
  (positions g.mem).all (fun p => ((g.sweepList q a).filter (fun x => x.2.group == a.group)).any (fun x => x.1 == p))

variable (hleads : g.leads = true) (hmem : g.mem.testBit q = true)
include hleads hmem

theorem takeSweep_waits (h : g.sweepFull q a = false) : g.takeSweep q g.step a = { g with ld := { g.ld with sweep := g.sweepList q a } } := by
  refine (if_neg (by simp [hleads, hmem])).trans (if_neg (fun hc => Bool.false_ne_true (h.symm.trans hc)))

theorem takeSweep_sends (h : g.sweepFull q a = true) : let mine := (g.sweepList q a).filter (fun x => x.2.group == a.group)
    (g.takeSweep q g.step a).sent = .sweepNorm g.step (g.normRes a.group ((mine.map (fun x => x.2.sum)).foldl (· + ·) 0) (mine.any (fun x => x.2.ovf))) :: g.sent ∧
    (g.takeSweep q g.step a).ld.sweep = (g.sweepList q a).filter (fun x => x.2.group != a.group) := by
  intro mine
  unfold Pkg.takeSweep
  rw [if_neg (by simp [hleads, hmem])]
  extract_lets l src g1 mine1 sum g2
  have hall : (positions g1.mem).all (fun p => mine1.any (fun x => x.1 == p)) = true := h
  rw [if_pos hall]
  exact ⟨rfl, rfl⟩
end

/-! ## Pass 2 -/

section
variable {s q : Pack}

theorem foldl_sameAreas {β : Type} {f : Pack → β → Pack} (hf : ∀ (s q : Pack) b, s.SameAreas q → (f s b).SameAreas (f q b)) :
    ∀ (l : List β) {s q : Pack}, s.SameAreas q → (l.foldl f s).SameAreas (l.foldl f q)
  | [], _, _, h => h
  | b :: l, _, _, h => foldl_sameAreas hf l (hf _ _ b h)

theorem wrPlaneTile_sameAreas (h : s.SameAreas q) (k t n r plane row col : Nat) (cs : List Nat) :
    (s.wrPlaneTile k t n r plane row col cs).SameAreas (q.wrPlaneTile k t n r plane row col cs) := by
  unfold Pack.wrPlaneTile
  dsimp only
  rw [h.plane, h.row]
  refine foldl_sameAreas (fun p p' b hp => ?_) _ (foldl_sameAreas (fun p p' i hp => ?_) _ h)
  · exact hp.digest ..
  · exact hp.store ..

theorem ite_sameAreas {c : Prop} [Decidable c] {s' q' : Pack} (h : s.SameAreas q) (h' : s'.SameAreas q') :
    (if c then s' else s).SameAreas (if c then q' else q) := by
  split
  · exact h'
  · exact h

/-- What a tile's update writes does not depend on what the Threshers hold (R208). -/
theorem applyTile_mem_congr {k : Nat} (h : s.SameAreas q) (hk : ∃ tr, q.g k = { s.g k with tr := tr }) (t n r row col : Nat) (g16 : List Nat) (cnt : Nat) :
    (q.applyTile k t n r row col g16 cnt false).mem = (s.applyTile k t n r row col g16 cnt false).mem := by
  obtain ⟨tr, hk⟩ := hk
  have hdraw : (q.g k).drawOf = (s.g k).drawOf := by rw [hk]; rfl
  have hrule : (q.g k).stepK = (s.g k).stepK ∧ (q.g k).step = (s.g k).step ∧ (q.g k).sslot = (s.g k).sslot := by rw [hk]; exact ⟨rfl, rfl, rfl⟩
  have hplanes : (q.g k).moments = (s.g k).moments ∧ (q.g k).cbank = (s.g k).cbank ∧ (q.g k).plMom = (s.g k).plMom ∧ (q.g k).plSlot = (s.g k).plSlot := by
    rw [hk]
    exact ⟨rfl, rfl, rfl, rfl⟩
  have hslots : (q.g k).tCur = (s.g k).tCur ∧ (q.g k).wslot = (s.g k).wslot ∧ (q.g k).tileParams = (s.g k).tileParams := by rw [hk]; exact ⟨rfl, rfl, rfl⟩
  obtain ⟨hstepK, hstep, hsslot⟩ := hrule
  obtain ⟨hmoments, hcbank, hmom, hslot⟩ := hplanes
  obtain ⟨htcur, hwslot, hparams⟩ := hslots
  unfold Pack.applyTile
  dsimp only
  rw [hdraw, hsslot]
  cases (s.g k).drawOf ((s.g k).sslot t) 0 with
  | none => exact h.mem
  | some dr =>
    dsimp only
    simp only [planeTile_eq h, Pack.on_mem, hstepK, hstep, hmoments, hcbank, hmom, hslot, htcur, hwslot, hparams]
    exact (ite_sameAreas (ite_sameAreas (wrPlaneTile_sameAreas h ..) (wrPlaneTile_sameAreas (wrPlaneTile_sameAreas h ..) ..))
      (wrPlaneTile_sameAreas (ite_sameAreas (wrPlaneTile_sameAreas h ..) (wrPlaneTile_sameAreas (wrPlaneTile_sameAreas h ..) ..)) ..)).mem
end

theorem sendDigests_keeps (s : Pack) (k t n : Nat) : ((s.sendDigests k t n).g k).shardSt = (s.g k).shardSt := by
  unfold Pack.sendDigests
  dsimp only
  split
  · rfl
  · split
    · rfl
    · exact (congrArg Pkg.shardSt (Pack.on_g_self s k _)).trans rfl

section
variable {s : Pack} {k j t n : Nat} (htens : (s.g k).groupTensors j = [t]) (hshards : (s.g k).myShards t = [n])
include htens hshards

theorem sweepRun_one : s.sweepRun k j [] =
    (if !((s.g k).shardSt t n).p1 || !((s.g k).shardSt t n).nr || ((s.g k).shardSt t n).p2 || ((s.g k).shardSt t n).stop ||
        s.gatherReads k t n ((s.g k).wslot t) then s
     else
      let q := s.on k (fun g => g.shardGated t n (((s.g k).myRep t n).getD 0))
      if ((q.g k).shardSt t n).stop then q
      else
        let q := ((s.g k).shardTiles t n).foldl (fun q c =>
          q.applyTile k t n (((s.g k).myRep t n).getD 0) c.1 c.2 (q.planeTile k t n (((s.g k).myRep t n).getD 0) ((s.g k).plAcc t) c.1 c.2)
            ((q.g k).tileSt t c.1 c.2).cnt false) q
        (q.on k (fun g => g.setShard t n { g.shardSt t n with p2 := true })).sendDigests k t n) := by
  unfold Pack.sweepRun
  dsimp only
  rw [htens, List.flatMap_cons, List.flatMap_nil, hshards]
  rfl

/-- A shard that has not been through pass 1, or has been through pass 2, waits for nothing (R212). -/
theorem sweepRun_skips (h : ((s.g k).shardSt t n).p1 = false ∨ ((s.g k).shardSt t n).p2 = true) : s.sweepRun k j [] = s := by
  rw [sweepRun_one htens hshards, if_pos]
  rcases h with h | h <;> simp [h]

/-- Pass 2 of a shard of one tile (R212). -/
theorem sweepRun_applies {row col : Nat} (htiles : (s.g k).shardTiles t n = [(row, col)]) (hp1 : ((s.g k).shardSt t n).p1 = true)
    (hnr : ((s.g k).shardSt t n).nr = true) (hp2 : ((s.g k).shardSt t n).p2 = false) (hstop : ((s.g k).shardSt t n).stop = false)
    (hreads : s.gatherReads k t n ((s.g k).wslot t) = false) (hon : (s.g k).ownerOn t n (((s.g k).myRep t n).getD 0)) :
    (((s.sweepRun k j []).g k).shardSt t n).p2 = true ∧ (s.sweepRun k j []).mem = (s.applyTile k t n (((s.g k).myRep t n).getD 0) row col
      (s.planeTile k t n (((s.g k).myRep t n).getD 0) ((s.g k).plAcc t) row col) ((s.g k).tileSt t row col).cnt false).mem := by
  have hself : (s.on k (fun g => g.shardGated t n (((s.g k).myRep t n).getD 0))).g k = s.g k := (Pack.on_g_self ..).trans (shardGated_on t n hon)
  have hsame := sameAreas_on_same s k (f := fun g => g.shardGated t n (((s.g k).myRep t n).getD 0)) (shardGated_on t n hon)
  rw [sweepRun_one htens hshards, if_neg (by simp [hp1, hnr, hp2, hstop, hreads])]
  dsimp only
  rw [hself, hstop, if_neg Bool.false_ne_true, htiles, List.foldl_cons, List.foldl_nil, hself, planeTile_eq hsame, sendDigests_keeps, Pack.on_g_self,
    Pack.sendDigests_mem, Pack.on_mem]
  exact ⟨congrArg ShardSt.p2 (mget_mins_self ..), applyTile_mem_congr hsame ⟨(s.g k).tr, hself⟩ ..⟩
end

/-- A shard that is through pass 1 has its NORM and FCLIP (R212). -/
def Pkg.normTaken (t n : Nat) (g : Pkg) : Pkg := if (g.shardSt t n).p1 then g.setShard t n { g.shardSt t n with nr := true } else g

section
variable {s : Pack} {k t n : Nat} {m : NormRes} (hm : m.group < 64) (htens : (s.g k).groupTensors m.group = [t]) (hshards : (s.g k).myShards t = [n])
include hm htens hshards

theorem sweepPass2_one : s.sweepPass2 k m [] = (s.on k (fun g => (g.withNorm m).normTaken t n)).sweepRun k m.group [] := by
  have hs := sameTables_withNorm (s.g k) hm
  refine congrArg (fun p : Pack => p.sweepRun k m.group []) (Pack.on_congr ?_)
  show (((s.g k).withNorm m).groupTensors m.group).foldl _ ((s.g k).withNorm m) = _
  rw [hs.groupTensors, htens, List.foldl_cons, List.foldl_nil, hs.myShards, hshards]
  rfl

theorem normTaken_g : (s.on k (fun g => (g.withNorm m).normTaken t n)).g k = ((s.g k).withNorm m).normTaken t n := Pack.on_g_self ..

/-- NORM and FCLIP, and what was put down of a shard, leave the tables as they were. -/
theorem normTaken_tables : (s.g k).SameTables ((s.on k (fun g => (g.withNorm m).normTaken t n)).g k) := by
  have hs := sameTables_withNorm (s.g k) hm
  rw [normTaken_g hm htens hshards, Pkg.normTaken]
  split
  · exact ⟨hs.tensors, hs.tables, hs.pos, hs.step, hs.stackOn⟩
  · exact hs

theorem normTaken_lists : ((s.on k (fun g => (g.withNorm m).normTaken t n)).g k).groupTensors m.group = [t] ∧
    ((s.on k (fun g => (g.withNorm m).normTaken t n)).g k).myShards t = [n] :=
  ⟨((normTaken_tables hm htens hshards).groupTensors _).trans htens, ((normTaken_tables hm htens hshards).myShards t).trans hshards⟩
end

/-- A package of which only the Threshers' part changes keeps its areas. -/
theorem sameAreas_tr {s : Pack} {k : Nat} {f : Pkg → Pkg} (h : ∃ tr, f (s.g k) = { s.g k with tr := tr }) : s.SameAreas (s.on k f) := by
  obtain ⟨tr, h⟩ := h
  exact ⟨rfl, fun j => Pack.on_keeps (P := Pkg.planeLoc) s k j (by rw [h]; rfl), fun j => Pack.on_keeps (P := Pkg.digLoc) s k j (by rw [h]; rfl),
    fun j => Pack.on_keeps (P := Pkg.ringLoc) s k j (by rw [h]; rfl), fun j => Pack.on_keeps (P := Pkg.rowOff) s k j (by rw [h]; rfl)⟩

/-- NORM and FCLIP move no plane. -/
theorem withNorm_plAcc (g : Pkg) {m : NormRes} (hm : m.group < 64) (t : Nat) : (g.withNorm m).plAcc t = g.plAcc t := by
  have hs := sameTables_withNorm g hm
  have hrule (j : Nat) : (g.withNorm m).rule j = g.rule j := by
    have hne (o : Nat) (ho : 0 < o) (hlt : o < 0x80) : rSched j 0 ≠ rSched m.group o := by
      simp only [rSched, hubR, rk]
      omega
    rw [Pkg.rule, Pkg.rf, Pkg.withNorm, Pkg.wr_rd_ne _ _ (hne _ (by decide) (by decide)), Pkg.wr_rd_ne _ _ (hne _ (by decide) (by decide))]
    rfl
  unfold Pkg.plAcc Pkg.moments Pkg.nver Pkg.tGroup
  rw [hs.rf_tens, hs.rf_tens, hrule]

/-- Settles O38: the two passes of a group with one shard at each member, and the leader's sum between them. -/
theorem sweeps : Obligations.Sweeps := by
  unfold Obligations.Sweeps
  refine ⟨?_, ?_, ?_⟩
  · intro s k j t n g x acc gs sq hup hen hsweep htens hshards hmark hstop hp1 hroot hon
    refine leaves_atHub hup rfl ?_
    obtain ⟨hst, hpos, hstep, hsent, hnorms⟩ := passed1_says t n (j := j) (s.pack.g k) (s.pack.sweepGrads k t n) hroot
    obtain ⟨hshard, hsends⟩ := sendsNorm_says _ hnorms
    rw [sweepPass1_one s.pack k t n hen hsweep htens hshards hmark hstop hp1 hroot hon, hshard, hsends, hpos, hstep, hsent]
    exact ⟨hst, rfl, Pack.sweepPass1_mem ..⟩
  · intro s k q a g l mine full hup hleads hmem
    refine ⟨fun hfull => gives_of_atHub rfl hup (Pack.on_congr (takeSweep_waits _ q a hleads hmem hfull)), fun hfull => leaves_hubPkg hup rfl fun p hg hpm => ?_⟩
    rw [hg]
    obtain ⟨hsent, hld⟩ := takeSweep_sends (s.pack.g k) q a hleads hmem hfull
    exact ⟨hsent, hld, hpm⟩
  · intro s k t n row col m g x s1 hup hm htens hshards htiles
    obtain ⟨htens', hshards'⟩ := normTaken_lists (s := s.pack) (k := k) hm htens hshards
    have hs := normTaken_tables (s := s.pack) (k := k) hm htens hshards
    have hg := normTaken_g (s := s.pack) (k := k) hm htens hshards
    refine ⟨fun hp1 => ?_, fun hp1 hp2 => ?_, fun hp1 hp2 hstop hon hreads => ?_⟩
    · have hplain : ((s.pack.g k).withNorm m).normTaken t n = (s.pack.g k).withNorm m :=
        if_neg (ne_true_of_eq_false (show (((s.pack.g k).withNorm m).shardSt t n).p1 = false from hp1))
      refine gives_of_atHub rfl hup ?_
      rw [if_pos rfl, sweepPass2_one hm htens hshards, sweepRun_skips htens' hshards' (.inl ?_)]
      · exact Pack.on_congr hplain
      · rw [hg, hplain]
        exact hp1
    all_goals
      have htaken : ((s.pack.g k).withNorm m).normTaken t n = ((s.pack.g k).withNorm m).setShard t n { x with nr := true } := if_pos hp1
      have hshard : ((s.pack.on k (fun g => (g.withNorm m).normTaken t n)).g k).shardSt t n = { x with nr := true } := by
        rw [hg, htaken]
        exact mget_mins_self ..
    · refine leaves_atHub hup rfl ?_
      rw [if_pos rfl, sweepPass2_one hm htens hshards, sweepRun_skips htens' hshards' (.inr (by rw [hshard]; exact hp2)), hshard]
      exact ⟨rfl, Pack.on_mem ..⟩
    · refine leaves_atHub hup rfl ?_
      have htr : ((s.pack.g k).withNorm m).normTaken t n = { (s.pack.g k).withNorm m with
          tr := (((s.pack.g k).withNorm m).setShard t n { x with nr := true }).tr } := htaken
      have hs1 : s1.g k = (s.pack.g k).withNorm m := Pack.on_g_self ..
      have hq : s.pack.on k (fun g => (g.withNorm m).normTaken t n) = s1.on k (fun g => g.normTaken t n) := (Pack.on_on ..).symm
      have hsame : s1.SameAreas (s.pack.on k (fun g => (g.withNorm m).normTaken t n)) := by
        rw [hq]
        exact sameAreas_tr ⟨_, by rw [hs1]; exact htr⟩
      have hreads' : (s.pack.on k (fun g => (g.withNorm m).normTaken t n)).gatherReads k t n
          (((s.pack.on k (fun g => (g.withNorm m).normTaken t n)).g k).wslot t) = false := by
        rw [hs.wslot, gatherReads_on (by rw [htr]; rfl)]
        exact hreads
      obtain ⟨h1, h2⟩ := sweepRun_applies htens' hshards' (row := row) (col := col) ((hs.shardTiles t n).trans htiles) (by rw [hshard]; exact hp1)
        (by rw [hshard]) (by rw [hshard]; exact hp2) (by rw [hshard]; exact hstop) hreads'
        (by rw [Pkg.ownerOn, hs.myRep, hs.ownStack, hs.stackOn]; exact hon)
      rw [if_pos rfl, sweepPass2_one hm htens hshards]
      refine ⟨h1, h2.trans ?_⟩
      have hacc : ((s.pack.on k (fun g => (g.withNorm m).normTaken t n)).g k).plAcc t = g.plAcc t := by
        rw [hg, htr]
        exact withNorm_plAcc _ hm t
      have htile : ((s.pack.on k (fun g => (g.withNorm m).normTaken t n)).g k).tileSt t row col = g.tileSt t row col := by
        rw [hg, htr]
        rfl
      rw [hs.myRep, hacc, htile, planeTile_eq hsame]
      exact applyTile_mem_congr hsame ⟨_, by rw [hg, hs1]; exact htr⟩ ..

end Sys2Proof.Machine
end

section
/-! PROOFS. Lost edges and dies, and the routes; O49 -/

namespace Sys2Proof.Machine

/-! ## Ends of edges -/

section
variable (g : Pkg) {site e s' f : Nat}

theorem ek_inj {a b c d : Nat} (hb : b < 8) (hd : d < 8) (h : ek a b = ek c d) : a = c ∧ b = d := by
  unfold ek at h
  omega

theorem edge_setEdge (site e t f : Nat) (x : Edge) : (g.setEdge site e x).edge t f = if ek t f = ek site e then x else g.edge t f := by
  split
  · next h =>
    show mget _ (mins _ _ _) _ = _
    rw [h, mget_mins_self]
  · next h => exact mget_mins_ne _ _ _ h

theorem edge_setEdge_self (x : Edge) : (g.setEdge site e x).edge site e = x := mget_mins_self ..

theorem edge_setEdge_ne {t f : Nat} (x : Edge) (h : ek t f ≠ ek site e) : (g.setEdge site e x).edge t f = g.edge t f := mget_mins_ne _ _ _ h

/-- The two ends of an edge stand at two sites. -/
theorem facing_apart (h : facing site e = some (s', f)) : s' ≠ site ∧ e < 5 ∧ f < 5 := by
  unfold facing at h
  grind

theorem facing_ne (h : facing site e = some (s', f)) : ek s' f ≠ ek site e := by
  obtain ⟨hne, he, hf⟩ := facing_apart h
  unfold ek
  omega
end

theorem logAt_edge (g : Pkg) (code x1 x2 x3 a0 a1 a2 t i : Nat) : (g.logAt code x1 x2 x3 a0 a1 a2).edge t i = g.edge t i := by
  rw [Pkg.edge, Pkg.logAt_net, Pkg.edge]

/-! ## An edge that goes down -/

section
variable (g : Pkg) {site e s' f state : Nat}

/-- An end that has stopped. -/
def Edge.stopped (x : Edge) (state : Nat) : Edge :=
  { x with state := state, half := false, pend := none, told := false, ann := [], nak := false, retry := [], back := none, todo := [], powed := 0 }

/-- What an end has not had acknowledged, or has still to send. -/
def Edge.unsent (x : Edge) : List Flit := ((x.retry ++ x.todo).filter (fun r => !r.bad)).flatMap (·.flits)

theorem endOff_edge : (g.endOff site e state).edge site e = (g.edge site e).stopped state := edge_setEdge_self ..

theorem endOff_edge_ne {t i : Nat} (h : ek t i ≠ ek site e) : (g.endOff site e state).edge t i = g.edge t i := edge_setEdge_ne _ _ h

theorem endOff_hold : (g.endOff site e state).net.hold = g.net.hold ++ (g.edge site e).unsent.map (fun q => (site, q)) := rfl

theorem endOff_logSeq : (g.endOff site e state).logSeq = g.logSeq := rfl

/-- Both ends of an edge that goes down stop, and the loss is logged (R275). -/
theorem edgeDown_eq (hf : facing site e = some (s', f)) (hup : (g.edge site e).up = true) : ∃ st, g.edgeDown site e =
    ((g.endOff site e 4).endOff s' f 4).logAt 0x020D site 0xFF 0xFF e s' st := by
  have hst : ¬ ((g.edge site e).state = 0 ∨ (g.edge site e).state = 4) := by
    rintro (h | h) <;> simp [Edge.up, h] at hup
  refine ⟨(g.edge site e).state, ?_⟩
  unfold Pkg.edgeDown
  rw [hf]
  exact if_neg hst

theorem edgeDown_says (hf : facing site e = some (s', f)) (hup : (g.edge site e).up = true) :
    (g.edgeDown site e).edge site e = (g.edge site e).stopped 4 ∧ (g.edgeDown site e).edge s' f = (g.edge s' f).stopped 4 ∧
    (g.edgeDown site e).net.hold = g.net.hold ++ (g.edge site e).unsent.map (fun q => (site, q)) ++ (g.edge s' f).unsent.map (fun q => (s', q)) ∧
    (g.edgeDown site e).logSeq = g.logSeq + 1 := by
  obtain ⟨st, heq⟩ := edgeDown_eq g hf hup
  have hne := facing_ne hf
  have hedge (t i : Nat) : (g.edgeDown site e).edge t i = ((g.endOff site e 4).endOff s' f 4).edge t i := by
    rw [heq, logAt_edge]
  refine ⟨?_, ?_, ?_, ?_⟩
  · rw [hedge, endOff_edge_ne _ (Ne.symm hne), endOff_edge]
  · rw [hedge, endOff_edge, endOff_edge_ne _ hne]
  · rw [heq, Pkg.logAt_net, endOff_hold, endOff_hold, endOff_edge_ne _ hne]
  · rw [heq, Pkg.logAt_logSeq, endOff_logSeq, endOff_logSeq]
end

/-! ## Lanes that are declared bad -/

section
variable (g : Pkg) {site e : Nat}

/-- The clocks and the bad lanes of an end. -/
def Edge.lanesBad (x : Edge) : Nat × Nat := (x.ck, x.bad)

theorem onEdge_lanes {t i : Nat} (F : Edge → Edge) (hF : ∀ x, (F x).lanesBad = x.lanesBad) :
    ((g.onEdge t i F).edge site e).lanesBad = (g.edge site e).lanesBad := by
  rw [Pkg.onEdge, edge_setEdge]
  split
  · next h =>
    rw [hF]
    exact congrArg (fun j => (mget ({} : Edge) g.net.edges j).lanesBad) h.symm
  · rfl

theorem endOff_lanes {t i state : Nat} : ((g.endOff t i state).edge site e).lanesBad = (g.edge site e).lanesBad :=
  onEdge_lanes (g.inject t (g.edge t i).unsent) (fun x => x.stopped state) fun _ => rfl

theorem edgeDown_lanes {t i : Nat} : ((g.edgeDown t i).edge site e).lanesBad = (g.edge site e).lanesBad := by
  unfold Pkg.edgeDown
  split
  · rfl
  · dsimp only
    split
    · rfl
    · rw [logAt_edge]
      exact (endOff_lanes _).trans (endOff_lanes g)

theorem announce_lanes {fb : Bool} {lane : Nat} : ((g.announce site e fb lane).edge site e).lanesBad = (g.edge site e).lanesBad := by
  unfold Pkg.announce
  split
  · rfl
  · exact onEdge_lanes g _ fun _ => rfl

/-- What follows from bad lanes marks no lane. -/
theorem laneSettle_lanes (lanes : List Nat) : ((g.laneSettle site e lanes).edge site e).lanesBad = (g.edge site e).lanesBad := by
  unfold Pkg.laneSettle
  dsimp only
  split
  · rfl
  · split
    · exact edgeDown_lanes g
    · split
      · exact foldl_keeps (P := fun g : Pkg => (g.edge site e).lanesBad) (fun g l => announce_lanes g) ..
      · rw [edge_setEdge_self]
        rfl

theorem testBit_foldl_or (l : List Nat) (i : Nat) : ∀ m : Nat, (l.foldl (fun m j => m ||| 2 ^ j) m).testBit i = (m.testBit i || l.contains i) := by
  induction l with
  | nil => intro m; simp
  | cons a l ih =>
    intro m
    rw [List.foldl_cons, ih, Nat.testBit_or, Nat.testBit_two_pow, List.contains_cons, Bool.or_assoc]
    congr 2
    exact Bool.eq_iff_iff.mpr ⟨fun h => beq_iff_eq.mpr (of_decide_eq_true h).symm, fun h => decide_eq_true (beq_iff_eq.mp h).symm⟩

/-- A lost clock makes its group's lanes bad (R268). -/
theorem clockLoss_says {grp : Nat} (hup : (g.edge site e).up = true) (hck : (g.edge site e).ck.testBit grp = true) :
    ((g.clockLoss site e grp).edge site e).ck = (g.edge site e).ck - 2 ^ grp ∧
    ∀ i, i < physLanes (hubEnd site e) → laneGroup (hubEnd site e) i = grp → ((g.clockLoss site e grp).edge site e).bad.testBit i = true := by
  unfold Pkg.clockLoss
  extract_lets h x g1 lanes y last
  rw [if_neg (show ¬ ((!x.up) = true ∨ (!x.ck.testBit grp) = true) by simp [x, hup, hck])]
  have hy : y = { x with ck := x.ck - 2 ^ grp } := edge_setEdge_self ..
  have hmem {i : Nat} (hi : i < physLanes h) (hg : laneGroup h i = grp) : x.bad.testBit i = true ∨ i ∈ lanes := by
    by_cases hb : x.bad.testBit i = true
    · exact .inl hb
    · exact .inr (List.mem_filter.mpr ⟨List.mem_range.mpr hi, by simp [hg, hb]⟩)
  split
  · next hempty =>
    have hl := laneSettle_lanes g1 (site := site) (e := e) []
    obtain ⟨h1, h2⟩ := Prod.mk.inj hl
    rw [h1, h2, show g1.edge site e = y from rfl, hy]
    refine ⟨rfl, fun i hi hg => (hmem hi hg).resolve_right fun hc => ?_⟩
    rw [List.isEmpty_iff.mp hempty] at hc
    exact List.not_mem_nil hc
  · have hl := laneSettle_lanes ((g1.setEdge site e { y with bad := lanes.foldl (fun m l => m ||| 2 ^ l) y.bad, last := mk32 (2 ^ 31 + 3 * 2 ^ 28 + last) }).logAt
      0x0112 site 0xFF 0xFF e last 3) (site := site) (e := e) [last]
    obtain ⟨h1, h2⟩ := Prod.mk.inj hl
    have hedge : ((g1.setEdge site e { y with bad := lanes.foldl (fun m l => m ||| 2 ^ l) y.bad, last := mk32 (2 ^ 31 + 3 * 2 ^ 28 + last) }).logAt
        0x0112 site 0xFF 0xFF e last 3).edge site e =
        { y with bad := lanes.foldl (fun m l => m ||| 2 ^ l) y.bad, last := mk32 (2 ^ 31 + 3 * 2 ^ 28 + last) } :=
      (logAt_edge ..).trans (edge_setEdge_self ..)
    rw [hedge] at h1 h2
    rw [h1, h2, hy]
    refine ⟨rfl, fun i hi hg => ?_⟩
    dsimp only
    rw [testBit_foldl_or, Bool.or_eq_true]
    exact (hmem hi hg).imp_right fun hc => by simpa using hc
theorem logAt_lanes (code x1 x2 x3 a0 a1 a2 : Nat) : ((g.logAt code x1 x2 x3 a0 a1 a2).edge site e).lanesBad = (g.edge site e).lanesBad := by
  rw [logAt_edge]

/-- A lane that is marked is bad, and no other becomes so. -/
theorem markLane_bad {lane cause : Nat} (hlane : lane < physLanes (hubEnd site e)) (i : Nat) :
    ((g.markLane site e lane cause).edge site e).bad.testBit i = ((g.edge site e).bad.testBit i || decide (lane = i)) := by
  unfold Pkg.markLane
  extract_lets x y
  split
  · next h =>
    have hbad : x.bad.testBit lane = true := h.resolve_right (by omega)
    by_cases hi : lane = i
    · subst hi
      rw [show (g.edge site e).bad.testBit lane = true from hbad, Bool.true_or]
    · rw [decide_eq_false hi, Bool.or_false]
  · rw [logAt_edge, edge_setEdge_self, Nat.testBit_or, Nat.testBit_two_pow]

theorem markLanes_bad {cause : Nat} (i : Nat) : ∀ (lanes : List Nat) (g : Pkg), (∀ l ∈ lanes, l < physLanes (hubEnd site e)) →
    ((lanes.foldl (fun g l => g.markLane site e l cause) g).edge site e).bad.testBit i = ((g.edge site e).bad.testBit i || decide (i ∈ lanes))
  | [], _, _ => by rw [List.foldl_nil, decide_eq_false List.not_mem_nil, Bool.or_false]
  | l :: lanes, g, h => by
    rw [List.foldl_cons, markLanes_bad i lanes _ (fun j hj => h j (List.mem_cons_of_mem _ hj)), markLane_bad g (h l List.mem_cons_self), Bool.or_assoc]
    congr 1
    rw [← Bool.decide_or]
    exact decide_eq_decide.mpr (by rw [List.mem_cons, eq_comm])

/-- The lanes that are declared bad together are bad afterwards, and no other lane becomes so. -/
theorem declare_bad {cause : Nat} {lanes : List Nat} (h : ∀ l ∈ lanes, l < physLanes (hubEnd site e)) (i : Nat) :
    ((g.declare' site e cause lanes).edge site e).bad.testBit i = ((g.edge site e).bad.testBit i || decide (i ∈ lanes)) := by
  have hnew : i ∈ lanes.filter (fun l => !(g.edge site e).bad.testBit l) ↔ i ∈ lanes ∧ (g.edge site e).bad.testBit i = false := by
    rw [List.mem_filter, Bool.not_eq_true']
  unfold Pkg.declare'
  extract_lets new
  split
  · next hempty =>
    have hnone : ¬ (i ∈ lanes ∧ (g.edge site e).bad.testBit i = false) := fun hc => by
      have := hnew.mpr hc
      rw [show lanes.filter _ = [] from List.isEmpty_iff.mp hempty] at this
      exact List.not_mem_nil this
    cases hb : (g.edge site e).bad.testBit i with
    | true => rfl
    | false => rw [decide_eq_false fun hi => hnone ⟨hi, hb⟩, Bool.or_false]
  · rw [(Prod.mk.inj (laneSettle_lanes (new.foldl (fun g l => g.markLane site e l cause) g) new)).2,
      markLanes_bad i new g fun l hl => h l (List.mem_of_mem_filter hl), decide_eq_decide.mpr hnew]
    refine Bool.eq_iff_iff.mpr ?_
    rw [Bool.or_eq_true, Bool.or_eq_true, decide_eq_true_iff, decide_eq_true_iff]
    refine ⟨Or.imp_right And.left, fun hi => ?_⟩
    by_cases hb : (g.edge site e).bad.testBit i = true
    · exact .inl hb
    · exact .inr ⟨hi.resolve_left hb, Bool.eq_false_of_not_eq_true hb⟩

/-- A write to an EBAD word declares the lanes of its set bits (R268). -/
theorem ebadWrite_bad {n : Nat} {v : W32} (hwide : physLanes (hubEnd site e) = 272) (i : Nat) :
    ((g.ebadWrite site e n v).edge site e).bad.testBit i = true ↔
      (g.edge site e).bad.testBit i = true ∨ (i / 32 = n ∧ i < 272 ∧ v.toNat.testBit (i % 32) = true) := by
  rw [Pkg.ebadWrite, declare_bad g (fun l hl => ?_), Bool.or_eq_true, decide_eq_true_iff]
  · refine or_congr Iff.rfl ?_
    rw [List.mem_map]
    constructor
    · rintro ⟨j, hj, rfl⟩
      obtain ⟨hlt, hbit⟩ := List.mem_filter.mp hj
      rw [List.mem_range] at hlt
      rw [Bool.and_eq_true, decide_eq_true_iff] at hbit
      obtain ⟨hb, hw⟩ := hbit
      refine ⟨by omega, hw, ?_⟩
      rw [show (32 * n + j) % 32 = j by omega]
      exact hb
    · rintro ⟨rfl, hlt, hbit⟩
      refine ⟨i % 32, List.mem_filter.mpr ⟨List.mem_range.mpr (Nat.mod_lt _ (by decide)), ?_⟩, by omega⟩
      rw [Bool.and_eq_true, decide_eq_true_iff]
      exact ⟨hbit, by omega⟩
  · obtain ⟨j, hj, rfl⟩ := List.mem_map.mp hl
    obtain ⟨-, hbit⟩ := List.mem_filter.mp hj
    rw [Bool.and_eq_true, decide_eq_true_iff] at hbit
    rw [hwide]
    exact hbit.2
end

/-! ## A die that is lost: its threads and its edges -/

/-- A package as its lost die's neighbours see it: the place is marked, the edges are off, flits that stood at the site are lost. -/
def Pkg.cutOff (site : Nat) (x : SiteSt) (g : Pkg) : Pkg :=
  let g := { g with sites := mins g.sites site x }
  let g := [0, 1, 2, 3, 4].foldl (fun g e => match facing site e with
    | some (t, f) => (g.endOff t f 0).onEdge site e (fun x => { x with state := 0, retry := [], pend := none, told := false, ann := [], back := none, todo := [] })
    | none => g) g
  { g with net := { g.net with hold := g.net.hold.filter (fun p => p.1 != site) } }

/-- What the rest of a die's loss does not touch: threads, ends of edges, the position. -/
def Pkg.bystanders (g : Pkg) : Map Thread × Map Edge × Nat := (g.thr, g.net.edges, g.pos)

section
variable {s : Pack} {k site : Nat}

theorem failPkg_bystanders (g : Pkg) : g.failPkg.bystanders = g.bystanders := by
  unfold Pkg.failPkg
  split
  · refine Prod.ext rfl (Prod.ext rfl ?_)
    show ((g.send _).wb rPins 3 true).rf rPackId 5 0 = _
    rw [Pkg.rf, Pkg.wb, Pkg.wr_rd_ne _ _ (by decide)]
    rfl
  · rfl

theorem wbStack_bystanders (g : Pkg) (j i : Nat) (b : Bool) : (g.wb (rStack j 0) i b).bystanders = g.bystanders := by
  have hne : rPackId ≠ rStack j 0 := by
    simp only [rPackId, rStack, hubR, rk]
    omega
  refine Prod.ext rfl (Prod.ext rfl ?_)
  show (g.wb (rStack j 0) i b).rf rPackId 5 0 = _
  rw [Pkg.rf, Pkg.wb, Pkg.wr_rd_ne _ _ hne]
  rfl

theorem stackPortLost_bystanders (g : Pkg) (j p : Nat) : (g.stackPortLost j p).bystanders = g.bystanders := by
  unfold Pkg.stackPortLost
  dsimp only
  split
  · rfl
  · split
    · exact wbStack_bystanders ..
    · rw [failPkg_bystanders, wbStack_bystanders, wbStack_bystanders]

theorem stackPortDown_bystanders (s : Pack) (j p : Nat) : ((s.stackPortDown k j p).g k).bystanders = (s.g k).bystanders := by
  unfold Pack.stackPortDown
  split
  · rfl
  · rw [Pack.on_g_self, stackPortLost_bystanders, portDrop_g]
    rfl

theorem drain_edges : ∀ (n : Nat) (x : Net), (Net.drain n x).edges = x.edges
  | 0, _ => rfl
  | n + 1, x => by
    unfold Net.drain
    split
    · rfl
    · exact drain_edges n _

theorem arrive_edges (x : Net) (f : Flit) : (x.arrive f).edges = x.edges := by
  unfold Net.arrive
  split
  · rfl
  · exact drain_edges ..

theorem skipFlit_bystanders (s : Pack) (f : Flit) : ((s.skipFlit f).g k).bystanders = (s.g k).bystanders := by
  unfold Pack.skipFlit
  split
  · exact Pack.on_keeps (P := Pkg.bystanders) _ _ _ (Prod.ext rfl (Prod.ext (arrive_edges ..) rfl))
  · rfl

/-- A site that is lost while its ports carry nothing. -/
theorem siteLost_bystanders (x : SiteSt)
    (h : ∀ i, i < 32 → portSites.getD (i / 4) 99 = site → (s.g k).portState i = 0 ∨ (s.g k).portState i = 4) :
    ((s.siteLost k site x).g k).bystanders = ((s.g k).cutOff site x).bystanders := by
  unfold Pack.siteLost
  rw [portsDown_none h]
  extract_lets s0 gone s1 s2 s3
  have h1 : s1.g k = (s.g k).cutOff site x := Pack.on_g_self ..
  have h2 : (s2.g k).bystanders = (s1.g k).bystanders := foldl_keeps (P := fun p : Pack => (p.g k).bystanders) (fun p f => skipFlit_bystanders p f) ..
  have h3 : (s3.g k).bystanders = (s2.g k).bystanders :=
    foldl_keeps (P := fun p : Pack => (p.g k).bystanders) (fun p j => by
      beta_reduce
      split
      · exact stackPortDown_bystanders ..
      · rfl) ..
  rw [← h1, ← h2, ← h3]
  split
  · exact Pack.on_keeps (P := Pkg.bystanders) _ _ _ (failPkg_bystanders _)
  · rfl
end

section
variable (g : Pkg) (site : Nat)

theorem setEdge_off {t f i : Nat} (x : Edge) (hx : x.state = 0) (h : (g.edge site i).state = 0) : ((g.setEdge t f x).edge site i).state = 0 := by
  rw [edge_setEdge]
  split
  · exact hx
  · exact h

/-- Every edge of a lost die is off (R276). -/
theorem cutOff_edges (x : SiteSt) {i : Nat} (hi : i < 5) (hf : facing site i ≠ none) : ((g.cutOff site x).edge site i).state = 0 := by
  have hfold : ∀ (l : List Nat) (g : Pkg), (i ∈ l ∨ (g.edge site i).state = 0) → ((l.foldl (fun g e => match facing site e with
      | some (t, f) => (g.endOff t f 0).onEdge site e (fun x =>
          { x with state := 0, retry := [], pend := none, told := false, ann := [], back := none, todo := [] })
      | none => g) g).edge site i).state = 0 := by
    intro l
    induction l with
    | nil => exact fun g h => h.resolve_left List.not_mem_nil
    | cons e l ih =>
      intro g h
      rw [List.foldl_cons]
      refine ih _ ?_
      rcases h with h | h
      · rcases List.mem_cons.mp h with rfl | h
        · refine .inr ?_
          split
          · rw [Pkg.onEdge, edge_setEdge_self]
          · next hnone => exact absurd hnone hf
        · exact .inl h
      · refine .inr ?_
        split
        · exact setEdge_off _ _ _ rfl (setEdge_off _ _ _ rfl h)
        · exact h
  exact hfold [0, 1, 2, 3, 4] { g with sites := mins g.sites site x } (.inl (by
    rw [List.mem_cons, List.mem_cons, List.mem_cons, List.mem_cons, List.mem_singleton]
    omega))

theorem cutOff_keeps (x : SiteSt) : (g.cutOff site x).thr = g.thr ∧ (g.cutOff site x).pos = g.pos := by
  have hfold := foldl_keeps (P := fun g : Pkg => (g.thr, g.pos)) (f := fun (g : Pkg) e => match facing site e with
      | some (t, f) => (g.endOff t f 0).onEdge site e (fun x =>
          { x with state := 0, retry := [], pend := none, told := false, ann := [], back := none, todo := [] })
      | none => g) (fun g e => by
    beta_reduce
    split <;> rfl) [0, 1, 2, 3, 4] { g with sites := mins g.sites site x }
  exact Prod.mk.inj hfold
end

theorem offersBack_thr (g : Pkg) (site : Nat) : (g.offersBack site).thr = g.thr := by
  unfold Pkg.offersBack
  dsimp only
  refine (foldl_keeps (P := Pkg.thr) (fun g p => ?_) ..).trans rfl
  split
  · split <;> rfl
  · rfl

theorem dieDrop_idle (g : Pkg) {site key : Nat} (h : key / 1024 = site) : (mget ({} : Thread) (g.dieDrop site).thr key).st = .idle := by
  show (mget _ (mmap (fun key (th : Thread) => if key / 1024 == site then { th with st := .idle, wait := none } else th) g.thr) key).st = _
  rw [mget_mmap_self key (by split <;> rfl), if_pos (beq_iff_eq.mpr h)]

section
variable {s : Pack} {k site reason : Nat} (hsite : site < 48) (hst : (s.g k).siteSt site = .active)
  (h : ∀ i, i < 32 → portSites.getD (i / 4) 99 = site → (s.g k).portState i = 0 ∨ (s.g k).portState i = 4)
include hsite hst h

/-- A die that the hub declares failed: its threads stop, its edges go off, a revert is asked for (R252, R276). -/
theorem dieFailed_says : ((s.dieFailed k site reason).g k).pr.bad = true ∧ Msg.revertReq (s.g k).pos 0x020E ∈ ((s.dieFailed k site reason).g k).sent ∧
    (∀ key, key / 1024 = site → (mget ({} : Thread) ((s.dieFailed k site reason).g k).thr key).st = .idle) ∧
    ∀ i, i < 5 → facing site i ≠ none → (((s.dieFailed k site reason).g k).edge site i).state = 0 := by
  have hgo : ¬ (48 ≤ site ∨ (s.g k).siteSt site ≠ .active) := by simp [hst, hsite]
  have hself : (s.on k (fun g => (g.dieDrop site).offersBack site)).g k = ((s.g k).dieDrop site).offersBack site := Pack.on_g_self ..
  have hlost := siteLost_bystanders (s := s.on k (fun g => (g.dieDrop site).offersBack site)) (k := k) (site := site) .failed (fun i hi hs => by
    rw [hself, offersBack_portState]
    exact h i hi hs)
  rw [hself] at hlost
  obtain ⟨hthr, hrest⟩ := Prod.mk.inj hlost
  obtain ⟨hedges, hpos⟩ := Prod.mk.inj hrest
  obtain ⟨hcthr, hcpos⟩ := cutOff_keeps (((s.g k).dieDrop site).offersBack site) site .failed
  have hpos' : (((s.g k).dieDrop site).offersBack site).pos = (s.g k).pos := by
    rw [Pkg.pos, Pkg.rf, offersBack_rd _ _ fun d => ?_]
    · rfl
    · simp only [rPackId, hubR, rk]
      omega
  unfold Pack.dieFailed
  rw [if_neg hgo]
  dsimp only
  rw [Pack.on_g_self]
  refine ⟨?_, List.mem_cons.mpr (.inl ?_), fun key hkey => ?_, fun i hi hf => ?_⟩
  · show (Pkg.logAt _ _ _ _ _ _ _ _).pr.bad = true
    rw [Pkg.logAt_pr]
  · rw [hpos, hcpos, hpos']
  · show (mget _ (Pkg.logAt _ _ _ _ _ _ _ _).thr key).st = _
    rw [Pkg.logAt_thr]
    dsimp only
    rw [hthr, hcthr, offersBack_thr]
    exact dieDrop_idle _ hkey
  · show (mget _ (Pkg.logAt _ _ _ _ _ _ _ _).net.edges _).state = _
    rw [Pkg.logAt_net]
    dsimp only
    rw [hedges]
    exact cutOff_edges _ site .failed hi hf
end

/-! ## Routing tables -/

/-- With every die in reach the routes are recomputed, and nothing else changes (R277, R278). -/
theorem routing_reached {s : Pack} {k : Nat} (h : ∀ i, i < 48 → (s.g k).dieLive i = true → (s.g k).reached i = true) :
    (s.routing k).g k = { s.g k with net := { (s.g k).net with
      ver := ((s.g k).net.ver + 1) % 65536
      sent := ((List.range 48).filter (fun i => (s.g k).dieLive i)).map (fun i => (i, ((s.g k).net.ver + 1) % 65536, (List.range 64).map (fun j =>
        (s.g k).rtEntry ((List.range 48).map (s.g k).distFrom) i j))) } } := by
  have hnone : ∀ l : List Nat, (∀ d ∈ l, d < 48) →
      l.foldl (fun p d => if (p.g k).dieLive d ∧ !(s.g k).reached d then p.dieFailed k d 0 else p) s = s := by
    intro l
    induction l with
    | nil => exact fun _ => rfl
    | cons d l ih =>
      intro hl
      rw [List.foldl_cons, if_neg (fun hc => by
        have := h d (hl d List.mem_cons_self) hc.1
        rw [this] at hc
        exact absurd hc.2 (by decide))]
      exact ih fun d hd => hl d (List.mem_cons_of_mem _ hd)
  unfold Pack.routing
  dsimp only
  rw [hnone _ fun d hd => List.mem_range.mp hd, Pack.on_g_self]

/-- Each hop leads one crossing nearer (R277). -/
theorem hop_nearer {g : Pkg} {l : List (Nat × Nat)} {site d q c : Nat} (h : g.hop l site d = some (q, c + 1)) :
    ∃ t, (q, t) ∈ g.nbrs site ∧ distOf l t = some c ∧ distOf l site = some (c + 1) := by
  unfold Pkg.hop at h
  split at h
  · cases h
  · cases h
  · next n _ hdist =>
    obtain ⟨p, hfind, heq⟩ := Option.map_eq_some_iff.mp h
    cases heq
    have hany := List.find?_some hfind
    obtain ⟨⟨p, t⟩, hx, hp⟩ := List.any_eq_true.mp hany
    rw [Bool.and_eq_true, beq_iff_eq, beq_iff_eq] at hp
    obtain ⟨rfl, ht⟩ := hp
    exact ⟨t, hx, ht, hdist⟩

/-- Entries put down from index `a` of a site's table upward. -/
theorem foldl_table {site q : Nat} : ∀ (t : List Nat) (a : Nat) (m : Map Nat), a + t.length ≤ 64 →
    mget 7 (((List.range' a t.length).zip t).foldl (fun (m : Map Nat) p => mins m (site * 64 + p.1) p.2) m) q =
      if q / 64 = site ∧ a ≤ q % 64 ∧ q % 64 < a + t.length then t.getD (q % 64 - a) 0 else mget 7 m q
  | [], a, m, _ => by
    rw [if_neg (by simp only [List.length_nil]; omega)]
    rfl
  | v :: t, a, m, h => by
    rw [List.length_cons] at h
    rw [List.length_cons, List.range'_succ, List.zip_cons_cons, List.foldl_cons, foldl_table t (a + 1) _ (by omega)]
    by_cases hq : q = site * 64 + a
    · subst hq
      rw [if_neg (by omega), if_pos (by omega), mget_mins_self, show (site * 64 + a) % 64 - a = 0 by omega]
      rfl
    · rw [mget_mins_ne _ _ _ hq]
      by_cases hin : q / 64 = site ∧ a ≤ q % 64 ∧ q % 64 < a + (t.length + 1)
      · rw [if_pos hin, if_pos (by omega), show q % 64 - a = (q % 64 - (a + 1)) + 1 by omega]
        rfl
      · rw [if_neg hin, if_neg (by omega)]

section
variable {g : Pkg} {site ver : Nat} {t : List Nat} (hfind : g.net.sent.find? (fun x => x.1 == site) = some (site, ver, t))
include hfind

/-- A die takes a table that is not older than its own (R278). -/
theorem takeTable_takes (hlive : g.dieLive site = true) (hnew : (ver + 65536 - mget 0 g.net.tver site) % 65536 < 32768) (hlen : t.length = 64) :
    mget 0 (g.takeTable site).net.tver site = ver ∧ (∀ i, i < 64 → mget 7 (g.takeTable site).net.tab (site * 64 + i) = t.getD i 0) ∧
    ∀ q, q / 64 ≠ site → mget 7 (g.takeTable site).net.tab q = mget 7 g.net.tab q := by
  have htab (q : Nat) := foldl_table (site := site) (q := q) t 0 g.net.tab (by omega)
  rw [hlen, ← List.range_eq_range'] at htab
  unfold Pkg.takeTable
  rw [hfind]
  dsimp only
  rw [if_neg (fun hc => hc.elim (fun h => absurd hlive ((Bool.not_eq_true _).mpr (Bool.not_eq_true' _ ▸ h))) fun h => by omega)]
  refine ⟨mget_mins_self .., fun i hi => (htab _).trans ?_, fun q hq => (htab q).trans (if_neg fun hc => hq hc.1)⟩
  rw [if_pos (by omega), show (site * 64 + i) % 64 - 0 = i by omega]

/-- A die keeps a table that is newer than the hub's (R278). -/
theorem takeTable_keeps (hold : 32768 ≤ (ver + 65536 - mget 0 g.net.tver site) % 65536) :
    (g.takeTable site).net.tver = g.net.tver ∧ (g.takeTable site).net.tab = g.net.tab := by
  unfold Pkg.takeTable
  rw [hfind]
  dsimp only
  rw [if_pos (.inr hold)]
  exact ⟨rfl, rfl⟩
end

/-- A privileged master's write to a register that takes it at once. -/
theorem regWrite_now_priv {p : Pack} {k site o off : Nat} {m : Master} {b : Blk} {v : W32} {x : WrX} (hm : m.priv = true) (hword : forbidden b o v = none)
    (hkey : busyKey site b o = none) : p.regWrite k m site b o off v x = p.blkWrite k site b o v x := by
  simp only [Pack.regWrite, hm, Bool.not_true, Bool.false_and, if_true, hword, hkey]
  simp

/-- Settles O49: what each loss does at the edges and dies it reaches, and how a route is chosen and taken. -/
theorem lostDiesAndRoutes : Obligations.LostDiesAndRoutes := by
  unfold Obligations.LostDiesAndRoutes
  intro s k site e s' f grp n d m v g x h left hup
  refine ⟨fun hf => ⟨fun hx => ?_, fun hx hck => ?_⟩, fun hsite he hn hw => ?_, fun hsite hst hports => ?_, fun hst => ?_, fun hreach => ?_,
    fun q c hhop => hop_nearer hhop, fun ver t hfind hlive => ⟨fun hnew hlen => ?_, fun hold => ?_⟩⟩
  · refine leaves_hubPkg hup rfl fun p hg hmem => ?_
    rw [hg, show (s.pack.g k).bundleTimeout site e = (s.pack.g k).edgeDown site e from if_pos hx]
    obtain ⟨h1, h2, h3, h4⟩ := edgeDown_says (s.pack.g k) hf hx
    rw [h1, h2]
    exact ⟨rfl, rfl, rfl, rfl, h3, h4, hmem⟩
  · refine leaves_hubPkg hup rfl fun p hg hmem => ?_
    rw [hg]
    obtain ⟨h1, h2⟩ := clockLoss_says (s.pack.g k) hx hck
    exact ⟨h1, h2, hmem⟩
  · have hend : hubEnd site e = false := by
      unfold hubEnd
      rw [beq_false_of_ne (by omega), beq_false_of_ne (by omega)]
      rfl
    have hwrite : s.pack.busWrite k m site (0x1000 + 0x40 * e + 0xC + 4 * n) v = s.pack.on k (fun g => g.ebadWrite site e n v) := by
      have hreg : (0x40 * e + 0xC + 4 * n) / 0x40 = e ∧ (0x40 * e + 0xC + 4 * n) % 0x40 = 0xC + 4 * n := by omega
      have hmask : pvMask .d2d (0x40 * e + 0xC + 4 * n) = all32 := by
        rw [pvMask, hreg.2, if_neg (by omega), if_neg (by omega), if_neg (by omega), if_pos (by omega)]
      have hpriv : m.priv = true := hw.priv.resolve_right (by rw [hmask]; decide)
      rw [busWrite_served hw, regWrite_now_priv hpriv rfl rfl, Pack.blkWrite]
      refine Pack.on_congr ?_
      rw [Pkg.d2dWrite, hreg.1, hreg.2]
      rw [if_neg (by omega), if_neg (by omega), if_neg (by omega), if_neg (by omega), if_pos (by omega), show (0xC + 4 * n - 0xC) / 4 = n by omega]
    refine ⟨_, gives_of_onPack (h := fun p => p.busWrite k m site (0x1000 + 0x40 * e + 0xC + 4 * n) v) rfl hwrite, ?_⟩
    have hbad := ebadWrite_bad (s.pack.g k) (site := site) (e := e) (n := n) (v := v) (by rw [hend]; rfl)
    beta_reduce
    rw [Pack.on_g_self]
    refine ⟨fun i hi hlt hbit => (hbad _).mpr (.inr ⟨by omega, hlt, ?_⟩), fun i _ hi => ((hbad i).mp hi).imp_right fun hc => ⟨hc.1, hc.2.2⟩, rfl⟩
    rw [show (32 * n + i) % 32 = i by omega]
    exact hbit
  · refine leaves_atHub hup rfl ?_
    have hstand := dieFailed_standing (reason := 1) hsite hst hports
    obtain ⟨h1, h2, h3, h4⟩ := dieFailed_says (reason := 1) hsite hst hports
    refine ⟨?_, ?_, h1, h2, h3, h4, Pack.dieFailed_mem ..⟩
    · exact (congrArg (fun x : Map SiteSt × Map Bool => mget SiteSt.active x.1 site) hstand).trans (mget_mins_self ..)
    · exact (congrArg (fun x : Map SiteSt × Map Bool => mget false x.2 site) hstand).trans (mget_mins_self ..)
  · exact gives_of_atHub rfl hup (if_pos (.inr hst))
  · refine leaves_atHub hup rfl ?_
    rw [routing_reached hreach]
    exact ⟨rfl, rfl, rfl, Pack.routing_mem ..⟩
  · refine leaves_hubPkg hup rfl fun p hg hmem => ?_
    rw [hg]
    obtain ⟨h1, h2, h3⟩ := takeTable_takes hfind hlive hnew hlen
    exact ⟨h1, h2, h3, hmem⟩
  · refine leaves_hubPkg hup rfl fun p hg hmem => ?_
    rw [hg]
    obtain ⟨h1, h2⟩ := takeTable_keeps hfind hold
    exact ⟨h1, h2, hmem⟩

end Sys2Proof.Machine
end

section
/-! PROOFS. Host requests, configuration, interrupts; O56 -/

namespace Sys2Proof.Machine

/-! ## Words of the HIF page -/

section
variable (g : Pkg)

@[simp] theorem hrd_hwr_self (o : Nat) (v : W32) : (g.hwr o v).hrd o = v := mget_mins_self ..

theorem hrd_hwr_ne {o p : Nat} (v : W32) (h : p ≠ o) : (g.hwr o v).hrd p = g.hrd p := mget_mins_ne _ _ _ h

/-- What CALOG holds of an abort (R366). -/
theorem calog_says (cause bar addr : Nat) : (g.calog cause (barCode bar) addr).hrd 4 = mk32 (2 ^ 31 + cause * 2 ^ 28 + bar / 2 % 4) ∧
    (g.calog cause (barCode bar) addr).hrd 8 = mk32 (addr % 2 ^ 32) ∧ (g.calog cause (barCode bar) addr).hrd 0xC = mk32 (addr / 2 ^ 32) ∧
    (g.calog cause (barCode bar) addr).regs = g.regs := by
  refine ⟨?_, ?_, hrd_hwr_self .., rfl⟩
  · rw [Pkg.calog, hrd_hwr_ne _ _ (by decide), hrd_hwr_ne _ _ (by decide), hrd_hwr_self, barCode]
  · rw [Pkg.calog, hrd_hwr_ne _ _ (by decide), hrd_hwr_self]

theorem aerSet_mem (e : AerErr) : e ∈ (g.aerSet e).hk.aer := by
  show e ∈ if g.hk.aer.contains e then g.hk.aer else g.hk.aer ++ [e]
  split
  · next h => exact List.contains_iff_mem.mp h
  · exact List.mem_append_right _ List.mem_cons_self
end

/-! ## Errors of the memory that a host's access meets -/

section
variable (g : Pkg)

theorem put_aer (r : LogRec) : (g.put r).hk = g.hk := by
  unfold Pkg.put
  dsimp only
  split
  · rfl
  · split
    · rfl
    · split <;> rfl

theorem errAt_hk (p : Nat) : (g.errAt p).hk = g.hk := by
  unfold Pkg.errAt
  extract_lets o g1
  split <;> rfl

theorem alarm_hk : g.alarm.hk = g.hk := by
  unfold Pkg.alarm
  extract_lets g1
  split
  · exact errAt_hk ..
  · split <;> rfl

/-- What is no fatal occurrence leaves AER as it is (R367). -/
theorem logAt_hk_of_class {code : Nat} (h : codeClass code ≠ 2) (x1 x2 x3 a0 a1 a2 : Nat) : (g.logAt code x1 x2 x3 a0 a1 a2).hk = g.hk := by
  unfold Pkg.logAt
  extract_lets r src g1 g2
  have hg2 : g2 = g1 := if_neg h
  have hput : g1.hk = g.hk := put_aer g r
  rw [hg2]
  split
  · exact hput
  · exact (alarm_hk g1).trans hput

theorem sramUe_hk (site space off : Nat) : (g.sramUe site space off).hk = g.hk := logAt_hk_of_class _ (by decide) ..

theorem burstUe_hk (w : Who) (j off : Nat) : (g.burstUe w j off).hk = g.hk := by
  unfold Pkg.burstUe Pkg.parityMark Pkg.stackUe Pkg.send
  dsimp only
  exact (logAt_hk_of_class _ (by decide) ..).trans rfl

/-- A register of a die's block that no error report writes. -/
theorem sramCe_rd (site space off : Nat) {st o : Nat} (hst : st < 48) (ho : o < 0x100000) : (g.sramCe site space off).rd (rk st o) = g.rd (rk st o) := by
  refine (Pkg.logAt_rd _ _ _ _ _ _ _ _ ?_).trans rfl
  simp only [rErrCtl, rErrHead, rErrLost, rPins, hubR, rk, List.mem_cons, List.not_mem_nil, or_false, not_or]
  omega

theorem stackCe_rd (j chan burst : Nat) {st o : Nat} (hst : st < 48) (ho : o < 0x100000) : (g.stackCe j chan burst).rd (rk st o) = g.rd (rk st o) := by
  have hne (p : Nat) : rk st o ≠ rk (48 + j) p := by
    simp only [rk]
    omega
  refine (Pkg.logAt_rd _ _ _ _ _ _ _ _ ?_).trans ((Pkg.wr_rd_ne _ _ (hne _)).trans (Pkg.wr_rd_ne _ _ (hne _)))
  simp only [rErrCtl, rErrHead, rErrLost, rPins, hubR, rk, List.mem_cons, List.not_mem_nil, or_false, not_or]
  omega
end

section
variable {s : Pack} {k : Nat}

theorem place_says {g : Pkg} {pk site space off : Nat} {l : Loc} (h : g.place pk site space off = .ok l) :
    l = { pk := pk, site := site, space := space, off := off } ∧ (space = 4 → site < 48 ∧ off < 2 ^ 33) := by
  unfold Pkg.place at h
  grind

theorem spanOk_start {own : Option Nat} {a n : Nat} {l : Loc} (h : s.spanOk k own a n = .ok l) : s.where' k own a = .ok l := by
  unfold Pack.spanOk at h
  grind

/-- A place in a queue's view is a die's (R145). -/
theorem where_ring {own : Option Nat} {a : Nat} {l : Loc} (h : s.where' k own a = .ok l) (hring : l.space = 4) : l.site < 48 ∧ l.off < 2 ^ 33 := by
  unfold Pack.where' at h
  dsimp only at h
  split at h
  · cases h
  · split at h
    · cases h
    · obtain ⟨rfl, hlt⟩ := place_says h
      exact hlt hring

/-- A corrected error changes no byte of what is read (R253). -/
theorem eccAt_bytes {w : Who} {l : Loc} (hring : l.space = 4 → l.site < 48 ∧ l.off < 2 ^ 33) (n : Nat) : (s.eccAt w l .ce).bytes l n = s.bytes l n := by
  have hrd (st o : Nat) (hst : st < 48) (ho : o < 0x100000) : ((s.eccAt w l .ce).g l.pk).rd (rk st o) = (s.g l.pk).rd (rk st o) := by
    refine Pack.on_keeps (P := fun g : Pkg => g.rd (rk st o)) _ _ _ ?_
    beta_reduce
    split
    · exact sramCe_rd _ _ _ _ hst ho
    · exact stackCe_rd _ _ _ _ hst ho
  have hloc : ((s.eccAt w l .ce).g l.pk).ringLoc l = (s.g l.pk).ringLoc l := by
    unfold Pkg.ringLoc
    split
    · next h4 =>
      obtain ⟨hsite, hoff⟩ := hring h4
      have hbase : ((s.eccAt w l .ce).g l.pk).qBase l.site (l.off / 2 ^ 21) = (s.g l.pk).qBase l.site (l.off / 2 ^ 21) := by
        unfold Pkg.qBase Pkg.rd64 rQ
        rw [hrd _ _ hsite (by omega), hrd _ _ hsite (by omega)]
      dsimp only
      rw [hbase]
    · rfl
  rw [Pack.bytes, hloc, Pack.eccAt_mem, Pack.bytes]

theorem eccAt_ue_hk (w : Who) (l : Loc) (i : Nat) : ((s.eccAt w l .ue).g i).hk = (s.g i).hk := by
  refine Pack.on_keeps (P := Pkg.hk) _ _ _ ?_
  beta_reduce
  split
  · exact sramUe_hk ..
  · exact burstUe_hk ..
end

/-! ## A host's reads -/

/-- What a read request does at where it leads, once the BARs are served (R358, R361 to R366). -/
def Pack.hostServe (s : Pack) (k bar off n : Nat) (ecc : Ecc) (dest : HostTo) : Pack :=
  let data (w : W32) (s : Pack) : Pack := s.on k (fun g => g.hostEnd (.data (leBytes w.toNat 4)))
  let abort (c a : Nat) (s : Pack) : Pack := s.on k (fun g => g.hostAbort c bar a)
  match dest with
  | .ur => s.on k (fun g => g.hostUr.hostEnd .ur)
  | .bad => abort 1 off s
  | .hif o => if oneDw off n then data (s.hifWord k o).1 (s.hifWord k o).2 else abort 3 off s
  | .ctl o => if oneDw off n then data (if o < 0x3C then (s.g k).hrd (hPwin (o / 4)) else 0) s else abort 3 off s
  | .addr a =>
    if a / 2 ^ 48 % 16 = 3 then
      if !oneDw off n then abort 3 a s
      else match s.where' k none a with
        | .invalid => abort 1 a s
        | .gated => abort 2 a s
        | .ok l =>
          if s.statusTurn l none ≠ 0 then
            match accstOf l.site l.off with
            | some (u, arr, n) => s.accAsk l.pk k l.site u arr n
            | none => s
          else data (s.regRead l.pk (barMaster bar) l.site l.off).1 (s.regRead l.pk (barMaster bar) l.site l.off).2
    else match s.spanOk k none a n with
      | .invalid => abort 1 a s
      | .gated => abort 2 a s
      | .ok l =>
        if s.chWaits l then s
        else if ecc = .ue then abort 5 a (s.eccAt { site := hubSite } l ecc)
        else (s.eccAt { site := hubSite } l ecc).on k (fun g => g.hostEnd (.data ((s.eccAt { site := hubSite } l ecc).bytes l n)))

section
variable {s : Pack} {k bar off n a : Nat} {ecc : Ecc}

theorem hostRead_refused (hup : (s.g k).hubUp = true) (hok : (s.g k).tlpOk bar off n 4096 = true)
    (h : (s.g k).hk.d3 = true ∨ (s.g k).hostTo bar off = .ur) : s.hostRead k bar off n ecc = s.on k (fun g => g.hostUr.hostEnd .ur) := by
  unfold Pack.hostRead
  dsimp only
  rw [if_neg (by simp [hup, hok])]
  rcases h with h | h
  · exact if_pos (by simp [Pkg.barsUp, h])
  · rw [h]
    exact ite_self _

theorem hostRead_up (hup : (s.g k).hubUp = true) (hok : (s.g k).tlpOk bar off n 4096 = true) (hd3 : (s.g k).hk.d3 = false) :
    s.hostRead k bar off n ecc = s.hostServe k bar off n ecc ((s.g k).hostTo bar off) := by
  unfold Pack.hostRead
  dsimp only
  rw [if_neg (by simp [hup, hok]), if_neg (by simp [Pkg.barsUp, hup, hd3])]
  rfl

/-- A read of a register (R364): one DW. -/
theorem hostServe_reg {l : Loc} (hreg : a / 2 ^ 48 % 16 = 3) (hdw : oneDw off n = true) (hto : s.where' k none a = .ok l) (hturn : s.statusTurn l none = 0) :
    s.hostServe k bar off n ecc (.addr a) = (s.regRead l.pk (barMaster bar) l.site l.off).2.on k (fun g =>
      g.hostEnd (.data (leBytes (s.regRead l.pk (barMaster bar) l.site l.off).1.toNat 4))) := by
  unfold Pack.hostServe
  dsimp only
  rw [if_pos hreg, hdw, Bool.not_true, if_neg Bool.false_ne_true, hto]
  exact if_neg fun h => h hturn

/-- A read of a status word whose turn has not come asks the array (R448). -/
theorem hostServe_status {l : Loc} {u r t : Nat} (hreg : a / 2 ^ 48 % 16 = 3) (hdw : oneDw off n = true) (hto : s.where' k none a = .ok l)
    (hword : accstOf l.site l.off = some (u, r, t)) (hturn : s.statusTurn l none ≠ 0) :
    s.hostServe k bar off n ecc (.addr a) = s.accAsk l.pk k l.site u r t := by
  unfold Pack.hostServe
  dsimp only
  rw [if_pos hreg, hdw, Bool.not_true, if_neg Bool.false_ne_true, hto]
  dsimp only
  rw [if_pos hturn, hword]

/-- It stands in line behind the operations on its tile. -/
theorem accAsk_waits {l : Loc} {u r t src : Nat} (hword : accstOf l.site l.off = some (u, r, t)) (hturn : s.statusTurn l none ≠ 0) :
    ((s.accAsk l.pk src l.site u r t).g l.pk).accq = (s.g l.pk).accq ++
      [{ site := l.site, unit := u, arr := r, tile := t, src := src, w := none, ahead := s.statusTurn l none }] ∧
    (s.accAsk l.pk src l.site u r t).mem = s.mem := by
  have hahead : s.statusTurn l none = (s.g l.pk).tileAhead l.site u r t := by
    unfold Pack.statusTurn
    rw [hword]
  rw [hahead] at hturn ⊢
  have hask : s.accAsk l.pk src l.site u r t = s.on l.pk (fun g => { g with accq := g.accq ++
      [{ site := l.site, unit := u, arr := r, tile := t, src := src, w := none, ahead := (s.g l.pk).tileAhead l.site u r t }] }) := if_neg hturn
  rw [hask, Pack.on_g_self]
  exact ⟨rfl, rfl⟩

theorem hostServe_reg_gated (hreg : a / 2 ^ 48 % 16 = 3) (hdw : oneDw off n = true) (hto : s.where' k none a = .gated) :
    s.hostServe k bar off n ecc (.addr a) = s.on k (fun g => g.hostAbort 2 bar a) := by
  unfold Pack.hostServe
  dsimp only
  rw [if_pos hreg, hdw, Bool.not_true, if_neg Bool.false_ne_true, hto]

theorem hostServe_reg_wide (hreg : a / 2 ^ 48 % 16 = 3) (hdw : oneDw off n = false) :
    s.hostServe k bar off n ecc (.addr a) = s.on k (fun g => g.hostAbort 3 bar a) := by
  unfold Pack.hostServe
  dsimp only
  rw [if_pos hreg, hdw, Bool.not_false, if_pos rfl]

/-- An access to memory (R365). -/
theorem hostServe_mem {l : Loc} (hreg : ¬ a / 2 ^ 48 % 16 = 3) (hto : s.spanOk k none a n = .ok l) :
    s.hostServe k bar off n ecc (.addr a) =
      if s.chWaits l then s
      else if ecc = .ue then (s.eccAt { site := hubSite } l ecc).on k (fun g => g.hostAbort 5 bar a)
      else (s.eccAt { site := hubSite } l ecc).on k (fun g => g.hostEnd (.data ((s.eccAt { site := hubSite } l ecc).bytes l n))) := by
  unfold Pack.hostServe
  dsimp only
  rw [if_neg hreg, hto]

theorem hostServe_mem_not (hreg : ¬ a / 2 ^ 48 % 16 = 3) :
    (s.spanOk k none a n = .invalid → s.hostServe k bar off n ecc (.addr a) = s.on k (fun g => g.hostAbort 1 bar a)) ∧
    (s.spanOk k none a n = .gated → s.hostServe k bar off n ecc (.addr a) = s.on k (fun g => g.hostAbort 2 bar a)) := by
  unfold Pack.hostServe
  dsimp only
  rw [if_neg hreg]
  exact ⟨fun h => by rw [h], fun h => by rw [h]⟩

theorem hostServe_hif {o : Nat} : s.hostServe k bar off n ecc (.hif o) = if oneDw off n then (s.hifWord k o).2.on k (fun g =>
    g.hostEnd (.data (leBytes (s.hifWord k o).1.toNat 4))) else s.on k (fun g => g.hostAbort 3 bar off) := rfl

theorem hostTimeout_up (hup : (s.g k).hubUp = true) (hok : (s.g k).tlpOk bar off n 4096 = true) (hd3 : (s.g k).hk.d3 = false)
    (hto : (s.g k).hostTo bar off = .addr a) : s.hostTimeout k bar off n = s.on k (fun g => g.hostAbort 4 bar a) := by
  unfold Pack.hostTimeout
  dsimp only
  rw [if_neg (by simp [Pkg.barsUp, hup, hok, hd3]), hto]
end

/-! ## A host's writes -/

/-- What a write request does at where it leads, once the BARs are served (R358, R361 to R367). -/
def Pack.hostPut (s : Pack) (k bar off : Nat) (bs : List (Option Byte)) (ecc : Ecc) (dest : HostTo) : Pack :=
  let abort (c a : Nat) (s : Pack) : Pack := s.on k (fun g => (g.calog c (barCode bar) a).aerSet .completerAbort)
  let dw := oneDw off bs.length && bs.all (·.isSome)
  let v : W32 := mk32 (leVal (bs.map (fun b => b.getD 0)))
  match dest with
  | .ur => s.on k Pkg.hostUr
  | .bad => abort 1 off s
  | .hif o => if dw then s.hifWrite k o v else abort 3 off s
  | .ctl o =>
    if !dw then abort 3 off s
    else if o < 0x3C then s.on k (fun g => g.hwr (hPwin (o / 4)) (v &&& 0x80003F3F#32)) else s
  | .addr a =>
    if a / 2 ^ 48 % 16 = 3 then
      if !dw then abort 3 a s
      else match s.where' k none a with
        | .invalid => abort 1 a s
        | .gated => abort 2 a s
        | .ok l => s.busWrite l.pk (barMaster bar) l.site l.off v
    else match s.spanOk k none a bs.length with
      | .invalid => abort 1 a s
      | .gated => abort 2 a s
      | .ok l =>
        if s.chWaits l then s
        else if ecc = .ue then (s.eccAt { site := hubSite } l ecc).on k (fun g => g.calog 5 (barCode bar) a)
        else (s.eccAt { site := hubSite } l ecc).store l (mergeBytes ((s.eccAt { site := hubSite } l ecc).bytes l bs.length) bs)

section
variable {s : Pack} {k bar off a : Nat} {bs : List (Option Byte)} {ecc : Ecc}

theorem hostWrite_poisoned (hup : (s.g k).hubUp = true) (hok : (s.g k).tlpOk bar off bs.length 512 = true) :
    s.hostWrite k bar off bs true ecc = s.on k (fun g => g.aerSet .poisoned) := by
  unfold Pack.hostWrite
  dsimp only
  rw [if_neg (by simp [hup, hok]), if_pos rfl]

theorem hostWrite_refused (hup : (s.g k).hubUp = true) (hok : (s.g k).tlpOk bar off bs.length 512 = true)
    (h : (s.g k).hk.d3 = true ∨ (s.g k).hostTo bar off = .ur) : s.hostWrite k bar off bs false ecc = s.on k Pkg.hostUr := by
  unfold Pack.hostWrite
  dsimp only
  rw [if_neg (by simp [hup, hok]), if_neg Bool.false_ne_true]
  rcases h with h | h
  · exact if_pos (by simp [Pkg.barsUp, h])
  · rw [h]
    exact ite_self _

theorem hostWrite_up (hup : (s.g k).hubUp = true) (hok : (s.g k).tlpOk bar off bs.length 512 = true) (hd3 : (s.g k).hk.d3 = false) :
    s.hostWrite k bar off bs false ecc = s.hostPut k bar off bs ecc ((s.g k).hostTo bar off) := by
  unfold Pack.hostWrite
  dsimp only
  rw [if_neg (by simp [hup, hok]), if_neg Bool.false_ne_true, if_neg (by simp [Pkg.barsUp, hup, hd3])]
  rfl

/-- A write to memory (R365). -/
theorem hostPut_mem {l : Loc} (hreg : ¬ a / 2 ^ 48 % 16 = 3) (hto : s.spanOk k none a bs.length = .ok l) :
    s.hostPut k bar off bs ecc (.addr a) =
      if s.chWaits l then s
      else if ecc = .ue then (s.eccAt { site := hubSite } l ecc).on k (fun g => g.calog 5 (barCode bar) a)
      else (s.eccAt { site := hubSite } l ecc).store l (mergeBytes ((s.eccAt { site := hubSite } l ecc).bytes l bs.length) bs) := by
  unfold Pack.hostPut
  dsimp only
  rw [if_neg hreg, hto]

theorem hostPut_gated (hreg : ¬ a / 2 ^ 48 % 16 = 3) (hto : s.spanOk k none a bs.length = .gated) :
    s.hostPut k bar off bs ecc (.addr a) = s.on k (fun g => (g.calog 2 (barCode bar) a).aerSet .completerAbort) := by
  unfold Pack.hostPut
  dsimp only
  rw [if_neg hreg, hto]

/-- A request of one whole DW (R364). -/
theorem wholeDw (hdw : oneDw off bs.length = true) (hall : ∀ x ∈ bs, x.isSome = true) : (oneDw off bs.length && bs.all (·.isSome)) = true := by
  rw [hdw, Bool.true_and]
  exact List.all_eq_true.mpr hall

theorem hostPut_reg (hreg : a / 2 ^ 48 % 16 = 3) (hdw : oneDw off bs.length = true) (hall : ∀ x ∈ bs, x.isSome = true) {l : Loc}
    (hto : s.where' k none a = .ok l) : s.hostPut k bar off bs ecc (.addr a) =
      s.busWrite l.pk (barMaster bar) l.site l.off (mk32 (leVal (bs.map (fun b => b.getD 0)))) := by
  unfold Pack.hostPut
  dsimp only
  rw [if_pos hreg, wholeDw hdw hall, hto]
  rfl

theorem hostPut_hif (hdw : oneDw off bs.length = true) (hall : ∀ x ∈ bs, x.isSome = true) {o : Nat} :
    s.hostPut k bar off bs ecc (.hif o) = s.hifWrite k o (mk32 (leVal (bs.map (fun b => b.getD 0)))) := by
  unfold Pack.hostPut
  dsimp only
  exact if_pos (wholeDw hdw hall)

theorem hostPut_ctl (hdw : oneDw off bs.length = true) (hall : ∀ x ∈ bs, x.isSome = true) {i : Nat} (hi : i < 15) :
    s.hostPut k bar off bs ecc (.ctl (4 * i)) = s.on k (fun g => g.hwr (hPwin i) (mk32 (leVal (bs.map (fun b => b.getD 0))) &&& 0x80003F3F#32)) := by
  unfold Pack.hostPut
  dsimp only
  rw [wholeDw hdw hall, Bool.not_true, if_neg Bool.false_ne_true, if_pos (by omega), show 4 * i / 4 = i by omega]

/-- A write to memory changes the enabled bytes and no others (R364). -/
theorem store_merged (l : Loc) (x : Nat) : let key := ((s.g l.pk).ringLoc l).key
    memRd (s.store l (mergeBytes (s.bytes l bs.length) bs)).mem x =
      if key ≤ x ∧ x < key + bs.length then (bs.getD (x - key) none).getD (memRd s.mem x) else memRd s.mem x := by
  intro key
  have hlen : (mergeBytes (s.bytes l bs.length) bs).length = bs.length := by
    rw [mergeBytes, List.length_map, List.length_zip, Pack.bytes, memRdN_length, Nat.min_self]
  show memRd (memWrN s.mem key (mergeBytes (s.bytes l bs.length) bs)) x = _
  split
  · next h =>
    obtain ⟨i, rfl⟩ : ∃ i, x = key + i := ⟨x - key, by omega⟩
    have hi : i < bs.length := by omega
    rw [memRd_memWrN_in _ _ _ _ (by rw [hlen]; exact hi), Nat.add_sub_cancel_left, List.getD_eq_getElem _ _ (by rw [hlen]; exact hi),
      List.getD_eq_getElem _ _ hi, ← memRdN_getD s.mem key hi, List.getD_eq_getElem _ _ (by rw [memRdN_length]; exact hi)]
    simp only [mergeBytes, List.getElem_map, List.getElem_zip]
    rfl
  · next h =>
    rw [memRd_memWrN_out _ _ _ _ (by rw [hlen]; omega)]
end

/-! ## Interrupts and configuration -/

section
variable (g : Pkg)

/-- A position's bit of HIF.EPOS, and the error vector (R370). -/
theorem errAt_says (p : Nat) : bit ((g.errAt p).hrd (if p < 32 then hEposLo else hEposHi)) (p % 32) = true ∧
    (bit (g.hrd hIvec) 31 = true → mget false (g.errAt p).msix (fld (g.hrd hIvec) 26 16) = true) ∧ (g.errAt p).regs = g.regs := by
  unfold Pkg.errAt
  extract_lets o g1
  have hword : bit (g1.hrd o) (p % 32) = true := by
    rw [show g1.hrd o = _ from hrd_hwr_self ..]
    exact bit_setB_same _ _ (Nat.mod_lt _ (by decide))
  have hivec : g1.hrd hIvec = g.hrd hIvec := hrd_hwr_ne _ _ (by
    show hIvec ≠ if p < 32 then hEposLo else hEposHi
    split <;> decide)
  rw [hivec]
  refine ⟨?_, fun h => ?_, ?_⟩
  · split
    · exact hword
    · exact hword
  · rw [if_pos h]
    exact mget_mins_self ..
  · split <;> rfl

theorem hotReset_says (hup : g.hubUp = true) : g.hotReset.hk.d3 = false ∧ g.hotReset.hk.barB = 36 ∧ g.hotReset.hk.msixOn = false ∧ g.hotReset.hk.cfg = [] ∧
    g.hotReset.hk.aer = [] ∧ (∀ x, g.hotReset.hrd x = 0) ∧ (∀ x, mget false g.hotReset.msix x = false) ∧ g.hotReset.regs = g.regs := by
  rw [Pkg.hotReset, hup, Bool.not_true, if_neg Bool.false_ne_true]
  exact ⟨rfl, rfl, rfl, rfl, rfl, fun _ => rfl, fun _ => rfl, rfl⟩

variable {g} {v : Nat}

theorem msixSend_sends (hup : g.barsUp = true) (hv : v < 2048) (hset : mget false g.msix v = true) (hon : g.hk.msixOn = true) (hmask : g.hk.msixMask = false)
    (hvec : bit (g.hrd (0x4000C + 16 * v)) 0 = true) :
    (g.msixSend v).hk.msi = some ((g.hrd (0x40000 + 16 * v)).toNat + (g.hrd (0x40004 + 16 * v)).toNat * 2 ^ 32, (g.hrd (0x40008 + 16 * v)).toNat) ∧
    mget false (g.msixSend v).msix v = false ∧ (g.msixSend v).regs = g.regs := by
  have hoff (n : Nat) : 0x40000 + 16 * v + n = 0x40000 + n + 16 * v := by omega
  unfold Pkg.msixSend
  extract_lets o
  rw [if_pos (by simp [hup, hv, hset, hon, hmask, o, hoff, hvec])]
  refine ⟨?_, mget_mins_self .., rfl⟩
  show some ((g.hrd o).toNat + (g.hrd (o + 4)).toNat * 2 ^ 32, (g.hrd (o + 8)).toNat) = _
  rw [show o + 4 = 0x40004 + 16 * v from hoff 4, show o + 8 = 0x40008 + 16 * v from hoff 8]

theorem msixSend_holds (h : g.hk.msixOn = false ∨ g.hk.msixMask = true ∨ bit (g.hrd (0x4000C + 16 * v)) 0 = false) : g.msixSend v = g := by
  have hoff : 0x40000 + 16 * v + 12 = 0x4000C + 16 * v := by omega
  unfold Pkg.msixSend
  extract_lets o
  rw [if_neg]
  rcases h with h | h | h <;> simp [h, o, hoff]
end

/-- A function that is ready answers a configuration request at once (R357, R371). -/
theorem hubUp_of_ready {g : Pkg} (h : g.ready = true) : g.hubUp = true := (Bool.and_eq_true_iff.mp h).1

section
variable {s : State} {k bar off n cause addr : Nat} {ecc : Ecc}

/-- CALOG holds an abort; no register and no memory has changed (R366). -/
def Pack.Logged (s : Pack) (k bar cause addr : Nat) (q : Pack) : Prop :=
  (q.g k).hrd 4 = mk32 (2 ^ 31 + cause * 2 ^ 28 + bar / 2 % 4) ∧ (q.g k).hrd 8 = mk32 (addr % 2 ^ 32) ∧ (q.g k).hrd 0xC = mk32 (addr / 2 ^ 32) ∧
    (q.g k).regs = (s.g k).regs ∧ q.mem = s.mem

/-- A command that ends with a change of its own package. -/
theorem leaves_on {c : Instr} {p : Pack} {f : Pkg → Pkg} {P : Pack → Prop} (h : Gives c s (p.on k f))
    (hP : ∀ q : Pack, q.g k = f (p.g k) → q.mem = p.mem → P q) : Leaves c s P :=
  ⟨_, h, hP _ (Pack.on_g_self ..) (Pack.on_mem ..)⟩

theorem hostEnd_says (g : Pkg) (c : Cpl) : (g.hostEnd c).hk.cpl = c ∧ (g.hostEnd c).hrd = g.hrd ∧ (g.hostEnd c).regs = g.regs := ⟨rfl, rfl, rfl⟩

theorem aerSet_says (g : Pkg) (e : AerErr) : (g.aerSet e).hrd = g.hrd ∧ (g.aerSet e).regs = g.regs := ⟨rfl, rfl⟩

theorem leaves_hostAbort {c : Instr} (h : Gives c s (s.pack.on k (fun g => g.hostAbort cause bar addr))) :
    Leaves c s (fun q => (q.g k).hk.cpl = .ca ∧ s.pack.Logged k bar cause addr q) := by
  obtain ⟨h4, h8, hC, hregs⟩ := calog_says (s.pack.g k) cause bar addr
  refine leaves_on h fun q hq hmem => ?_
  obtain ⟨hcpl, hhrd, hrest⟩ := hostEnd_says ((s.pack.g k).calog cause (barCode bar) addr) .ca
  rw [Pack.Logged, hq, Pkg.hostAbort, hcpl, hhrd, hrest]
  exact ⟨rfl, h4, h8, hC, hregs, hmem⟩

theorem leaves_writeAbort {c : Instr} (h : Gives c s (s.pack.on k (fun g => (g.calog cause (barCode bar) addr).aerSet .completerAbort))) :
    Leaves c s (fun q => s.pack.Logged k bar cause addr q ∧ .completerAbort ∈ (q.g k).hk.aer) := by
  obtain ⟨h4, h8, hC, hregs⟩ := calog_says (s.pack.g k) cause bar addr
  refine leaves_on h fun q hq hmem => ?_
  obtain ⟨hhrd, hrest⟩ := aerSet_says ((s.pack.g k).calog cause (barCode bar) addr) .completerAbort
  rw [Pack.Logged, hq, hhrd, hrest]
  exact ⟨⟨h4, h8, hC, hregs, hmem⟩, aerSet_mem ..⟩

section
variable (hup : (s.pack.g k).hubUp = true) (hok : (s.pack.g k).tlpOk bar off n 4096 = true) (hd3 : (s.pack.g k).hk.d3 = false)
include hup hok hd3

theorem gives_hostRead {p : Pack} {dest : HostTo} (hto : (s.pack.g k).hostTo bar off = dest) (hp : s.pack.hostServe k bar off n ecc dest = p) :
    Gives (.hostMemoryRead k bar off n ecc) s p :=
  gives_of_onPack (h := fun p => p.hostRead k bar off n ecc) rfl ((hostRead_up hup hok hd3).trans (by rw [hto]; exact hp))

/-- A read that leads to a place (R361 to R365). -/
theorem hostRead_place {a : Nat} {l : Loc} (hto : (s.pack.g k).hostTo bar off = .addr a) (hreg : ¬ a / 2 ^ 48 % 16 = 3)
    (hspan : s.pack.spanOk k none a n = .ok l) :
    (s.pack.chWaits l = true → Gives (.hostMemoryRead k bar off n ecc) s s.pack) ∧
    (s.pack.chWaits l = false →
      Gives (.hostMemoryRead k bar off n .ok) s (s.pack.on k (fun g => g.hostEnd (.data (s.pack.bytes l n)))) ∧
      Leaves (.hostMemoryRead k bar off n .ce) s (fun q => (q.g k).hk.cpl = .data (s.pack.bytes l n) ∧ q.mem = s.pack.mem) ∧
      Leaves (.hostMemoryRead k bar off n .ue) s (fun q => (q.g k).hk.cpl = .ca ∧
        (q.g k).hrd 4 = mk32 (2 ^ 31 + 5 * 2 ^ 28 + bar / 2 % 4) ∧ q.mem = s.pack.mem)) := by
  refine ⟨fun hw => gives_hostRead hup hok hd3 hto ?_, fun hw => ⟨gives_hostRead hup hok hd3 hto ?_, ?_, ?_⟩⟩
  · rw [hostServe_mem hreg hspan, if_pos hw]
  · rw [hostServe_mem hreg hspan, hw, if_neg Bool.false_ne_true, if_neg (by decide)]
    rfl
  · refine leaves_on (gives_hostRead hup hok hd3 hto (by
      rw [hostServe_mem hreg hspan, hw, if_neg Bool.false_ne_true, if_neg (by decide), eccAt_bytes fun h4 => where_ring (spanOk_start hspan) h4]))
      fun q hq hmem => ?_
    rw [hq, hmem]
    exact ⟨rfl, Pack.eccAt_mem ..⟩
  · refine leaves_on (gives_hostRead hup hok hd3 hto (by rw [hostServe_mem hreg hspan, hw, if_neg Bool.false_ne_true, if_pos rfl])) fun q hq hmem => ?_
    rw [hq, hmem]
    exact ⟨rfl, (calog_says _ 5 bar a).1, Pack.eccAt_mem ..⟩
end

section
variable {bs : List (Option Byte)}
variable (hup : (s.pack.g k).hubUp = true) (hok : (s.pack.g k).tlpOk bar off bs.length 512 = true) (hd3 : (s.pack.g k).hk.d3 = false)
include hup hok hd3

theorem gives_hostWrite {p : Pack} {dest : HostTo} (hto : (s.pack.g k).hostTo bar off = dest) (hp : s.pack.hostPut k bar off bs ecc dest = p) :
    Gives (.hostMemoryWrite k bar off (bs, false) ecc) s p :=
  gives_of_onPack (h := fun p => p.hostWrite k bar off bs false ecc) rfl ((hostWrite_up hup hok hd3).trans (by rw [hto]; exact hp))

/-- A write that leads to a place (R361 to R366). -/
theorem hostWrite_place {a : Nat} {l : Loc} (hto : (s.pack.g k).hostTo bar off = .addr a) (hreg : ¬ a / 2 ^ 48 % 16 = 3)
    (hspan : s.pack.spanOk k none a bs.length = .ok l) : let key := ((s.pack.g l.pk).ringLoc l).key
    (s.pack.chWaits l = true → Gives (.hostMemoryWrite k bar off (bs, false) ecc) s s.pack) ∧
    (s.pack.chWaits l = false → Leaves (.hostMemoryWrite k bar off (bs, false) .ok) s (fun q => (∀ j, q.g j = s.pack.g j) ∧
      ∀ x, memRd q.mem x = if key ≤ x ∧ x < key + bs.length then (bs.getD (x - key) none).getD (memRd s.pack.mem x) else memRd s.pack.mem x)) ∧
    (s.pack.chWaits l = false → Leaves (.hostMemoryWrite k bar off (bs, false) .ue) s (fun q =>
      (q.g k).hrd 4 = mk32 (2 ^ 31 + 5 * 2 ^ 28 + bar / 2 % 4) ∧ (q.g k).hk.aer = (s.pack.g k).hk.aer ∧ q.mem = s.pack.mem)) := by
  intro key
  refine ⟨fun hw => gives_hostWrite hup hok hd3 hto ?_, fun hw => ⟨_, gives_hostWrite hup hok hd3 hto rfl, ?_⟩,
    fun hw => leaves_on (gives_hostWrite hup hok hd3 hto (by rw [hostPut_mem hreg hspan, hw, if_neg Bool.false_ne_true, if_pos rfl])) fun q hq hmem => ?_⟩
  · rw [hostPut_mem hreg hspan, if_pos hw]
  · rw [hostPut_mem hreg hspan, hw, if_neg Bool.false_ne_true, if_neg (by decide)]
    exact ⟨fun j => rfl, fun x => store_merged l x⟩
  · rw [hq, hmem]
    exact ⟨(calog_says _ 5 bar a).1, congrArg Husk.aer (eccAt_ue_hk ..), Pack.eccAt_mem ..⟩
end
end

theorem hifWrite_ivec (s : Pack) (k : Nat) (v : W32) : s.hifWrite k hIvec v = s.on k (fun g => g.hwr hIvec (v &&& 0x87FF87FF#32)) := rfl

theorem hifWrite_epos (s : Pack) (k : Nat) (v : W32) : s.hifWrite k hEposLo v = s.on k (fun g => g.hwr hEposLo (g.hrd hEposLo &&& ~~~ v)) := rfl

/-- Settles O56: where each host request leads and how it ends, the configuration space, resets and interrupts. -/
theorem hostRequests : Obligations.HostRequests := by
  unfold Obligations.HostRequests
  intro s k bar off n a o b w p i bs ecc l v hi on mask g key dw reg ends logged aborts word
  refine ⟨fun hup hok => ⟨fun h => ?_, fun hd3 => ⟨fun hto => ?_, fun hto hdw ho => ?_, fun hto hdw => ?_, fun hto hdw => ?_, fun hto =>
    ⟨fun hreg hdw => ?_, fun hreg hdw hw => ?_, fun hreg hdw hw hturn => ?_, fun u r t hreg hdw hw hword hturn => ?_, fun hreg hw => ?_, fun hreg hw => ?_,
      fun hreg hspan => ?_, ?_⟩⟩⟩, fun hup hn hok => ⟨?_, fun h => ?_⟩, fun hup hd3 hn hok => ?_, fun hup hready r => ?_, fun hready => ?_, fun hup => ⟨?_, fun hleads => ?_,
      fun hd3 hlt hset => ⟨fun hon hmask hvec => ?_, fun hheld => ?_⟩⟩⟩
  · exact gives_of_onPack (h := fun p => p.hostRead k bar off n .ok) rfl (hostRead_refused hup hok h)
  · exact leaves_hostAbort (gives_hostRead hup hok hd3 hto rfl)
  · refine gives_hostRead hup hok hd3 hto ?_
    rw [hostServe_hif, if_pos hdw, Pack.hifWord, if_neg ho]
    rfl
  · refine leaves_on (gives_hostRead hup hok hd3 hto (hostServe_hif.trans (if_pos hdw))) fun q hq hmem => ?_
    rw [hq, hmem, Pack.hifWord, if_pos rfl]
    exact ⟨⟨s.pack.draw.1, rfl⟩, rfl, rfl⟩
  · refine leaves_hostAbort (gives_hostRead hup hok hd3 hto ?_)
    rw [hostServe_hif, if_neg (ne_true_of_eq_false hdw)]
  · exact leaves_hostAbort (gives_hostRead hup hok hd3 hto (hostServe_reg_wide hreg hdw))
  · exact leaves_hostAbort (gives_hostRead hup hok hd3 hto (hostServe_reg_gated hreg hdw hw))
  · refine leaves_on (gives_hostRead hup hok hd3 hto (hostServe_reg hreg hdw hw hturn)) fun q hq hmem => ?_
    rw [hq, hmem]
    exact ⟨rfl, Pack.regRead_mem ..⟩
  · obtain ⟨hline, hmem⟩ := accAsk_waits (s := s.pack) (src := k) hword hturn
    exact ⟨_, gives_hostRead hup hok hd3 hto (hostServe_status hreg hdw hw hword hturn), hmem, hline⟩
  · exact leaves_hostAbort (gives_hostRead hup hok hd3 hto ((hostServe_mem_not hreg).1 hw))
  · exact leaves_hostAbort (gives_hostRead hup hok hd3 hto ((hostServe_mem_not hreg).2 hw))
  · exact hostRead_place hup hok hd3 hto hreg hspan
  · exact leaves_hostAbort (gives_of_onPack (h := fun p => p.hostTimeout k bar off n) rfl (hostTimeout_up hup hok hd3 hto))
  · subst hn
    exact gives_of_onPack (h := fun p => p.hostWrite k bar off bs true .ok) rfl (hostWrite_poisoned hup hok)
  · subst hn
    exact gives_of_onPack (h := fun p => p.hostWrite k bar off bs false .ok) rfl (hostWrite_refused hup hok h)
  · subst hn
    refine ⟨fun hto => ?_, fun hto => ⟨fun hreg hspan hw => ?_, fun hreg hspan hw => ?_, fun hreg hspan hw => ?_, fun hreg hw => ?_,
      fun hreg hdw hall hw => ?_⟩, fun hdw hall hv => ⟨fun hto => ?_, fun hto => ?_, fun hto hlt => ?_⟩⟩
    · exact leaves_writeAbort (gives_hostWrite hup hok hd3 hto rfl)
    · exact (hostWrite_place hup hok hd3 hto hreg hspan).1 hw
    · exact (hostWrite_place (ecc := .ok) hup hok hd3 hto hreg hspan).2.1 hw
    · exact (hostWrite_place (ecc := .ok) hup hok hd3 hto hreg hspan).2.2 hw
    · obtain ⟨q, hq, hlog, -⟩ := leaves_writeAbort (gives_hostWrite hup hok hd3 hto (hostPut_gated (ecc := .ok) hreg hw))
      exact ⟨q, hq, hlog⟩
    · exact gives_hostWrite hup hok hd3 hto (hostPut_reg hreg hdw hall hw)
    · subst hv
      refine leaves_on (gives_hostWrite (ecc := .ok) hup hok hd3 hto ((hostPut_hif hdw hall).trans (hifWrite_ivec ..))) fun q hq hmem => ?_
      rw [hq, hmem]
      exact ⟨hrd_hwr_self .., rfl, rfl⟩
    · subst hv
      refine leaves_on (gives_hostWrite (ecc := .ok) hup hok hd3 hto ((hostPut_hif hdw hall).trans (hifWrite_epos ..))) fun q hq hmem => ?_
      rw [hq, hmem]
      exact ⟨hrd_hwr_self .., rfl, rfl⟩
    · subst hv
      refine leaves_on (gives_hostWrite (ecc := .ok) hup hok hd3 hto (hostPut_ctl hdw hall hlt)) fun q hq hmem => ?_
      rw [hq, hmem]
      exact ⟨hrd_hwr_self .., rfl, rfl⟩
  · refine gives_of_onPack (h := fun p => p.on k (fun g => g.config k r)) rfl (Pack.on_congr ?_)
    unfold Pkg.config
    dsimp only
    rw [hup, Bool.not_true, if_neg Bool.false_ne_true, show (s.pack.g k).ready = false from hready]
    rfl
  · have hconfig (r : CfgReq) {f : Pkg → Pkg} (hf : (s.pack.g k).config k r = f (s.pack.g k)) : Gives (.configRequest k r) s (s.pack.on k f) :=
      gives_of_onPack (h := fun p => p.on k (fun g => g.config k r)) rfl (Pack.on_congr hf)
    have hserved : ¬ (!(s.pack.g k).hubUp) = true ∧ ¬ (!(s.pack.g k).ready) = true := by
      rw [hubUp_of_ready hready, show (s.pack.g k).ready = true from hready]
      decide
    have hanswers (r : CfgReq) {x : Pkg} (hx : (if !(s.pack.g k).hubUp then s.pack.g k
        else if !(s.pack.g k).ready then (s.pack.g k).hostEnd .rrs else x) = (s.pack.g k).config k r) : (s.pack.g k).config k r = x := by
      rw [← hx, if_neg hserved.1, if_neg hserved.2]
    refine ⟨hconfig .ids (hanswers .ids rfl), hconfig .classRev (hanswers .classRev rfl), hconfig .subsys (hanswers .subsys rfl),
      hconfig (.serial hi) (hanswers (.serial hi) rfl), fun hlo hhi => hconfig (.setB b) ((hanswers (.setB b) rfl).trans (if_pos ⟨hlo, hhi⟩)),
      hconfig (.setMsix on mask) (hanswers _ rfl), hconfig .aer (hanswers .aer rfl), hconfig (.clearAer v) (hanswers _ rfl), hconfig .setD0 (hanswers _ rfl),
      hconfig (.write w v) (hanswers _ rfl), gives_of_onPack (h := fun p => p.on k (fun g => g.d3hot)) rfl (Pack.on_congr (if_pos hready))⟩
  · refine leaves_on (gives_of_onPack (h := fun p => p.on k (fun g => g.hotReset)) rfl rfl) fun q hq hmem => ?_
    rw [hq, hmem]
    obtain ⟨h1, h2, h3, h4, h5, h6, h7, h8⟩ := hotReset_says _ hup
    exact ⟨h1, h2, h3, h4, h5, h6, h7, h8, rfl⟩
  · refine leaves_hubPkg hup rfl fun q hq hmem => ?_
    rw [hq, hmem, if_pos (show (s.pack.g k).leads = true from hleads)]
    obtain ⟨h1, h2, h3⟩ := errAt_says (s.pack.g k) p
    exact ⟨h1, h2, h3, rfl⟩
  · refine leaves_on (gives_of_onPack (h := fun p => p.on k (fun g => g.msixSend w)) rfl rfl) fun q hq hmem => ?_
    rw [hq, hmem]
    have hbars : (s.pack.g k).barsUp = true := by
      rw [Pkg.barsUp, hup, show (s.pack.g k).hk.d3 = false from hd3]
      rfl
    obtain ⟨h1, h2, h3⟩ := msixSend_sends hbars hlt hset hon hmask hvec
    exact ⟨h1, h2, h3, rfl⟩
  · refine leaves_on (gives_of_onPack (h := fun p => p.on k (fun g => g.msixSend w)) rfl rfl) fun q hq hmem => ?_
    rw [hq, hmem, msixSend_holds hheld]
    exact ⟨hset, rfl, rfl⟩

end Sys2Proof.Machine
end

section
/-! PROOFS. A pass of a tensor's enable in a pack that lists a package twice; O36 -/

namespace Sys2Proof.Machine

/-! ## A table of packages that lists one package twice -/

/-- A package at position 1 or 2, reached through its port 0, with the gates of its stacks. -/
def ownerPkg (pos gates : Nat) : Pkg :=
  { regs := [(rPort 0 0, 0x20000000), (rGates, mk32 gates), (rPackId, mk32 (0x40 + pos))] }

/-- A package at position 0 that enables a tensor of one shard with two replicas, the first at position 1 on stack 0, the second at position 2 on stack 1. -/
def passingPkg : Pkg :=
  { regs := [(rPort 0 0, 0x20000000), (rPackId, 0x40), (rMemLo, 7), (hubR 0x7108, 1), (hubR 0x710C, 1), (hubR 0x7110, 1), (hubR 0x7114, 1),
      (rOwn 0 4, 0x400), (rOwn 1 4, 0x840), (rTens 0 0, 0x400), (rTens 0 4, 1), (rTens 0 8, 1)]
    hk := { state := 2, perst := false, pwrok := true }
    tr := { passes := [0] } }

/-- Package 1 stands twice in the table, at position 2 with its stack 1 gated, and at position 1; package 2 is in front of it. -/
def doubledState : State := { pack := { pkgs := [(0, passingPkg), (2, ownerPkg 2 3), (1, ownerPkg 2 1), (1, ownerPkg 1 1)] }, pending := [] }

theorem doubled_owners : doubledState.pack.at 0 1 = some 1 ∧ doubledState.pack.at 0 2 = some 2 := by decide +kernel

theorem doubled_shape : (doubledState.pack.g 0).nsh 0 = 1 ∧ (doubledState.pack.g 0).repl 0 = 2 := by decide +kernel

theorem doubled_powered : ∀ r, r < 2 → ∀ pk, doubledState.pack.at 0 ((doubledState.pack.g 0).ownPos ((doubledState.pack.g 0).ownerOf 0 0 r)) = some pk →
    (doubledState.pack.g pk).stackOn ((doubledState.pack.g pk).ownStack ((doubledState.pack.g pk).ownerOf 0 0 r)) = true ∧
    (doubledState.pack.g pk).stackOn ((doubledState.pack.g 0).ownStack ((doubledState.pack.g 0).ownerOf 0 0 r)) = true := by
  intro r hr pk hat
  have hcases : r = 0 ∨ r = 1 := by omega
  rcases hcases with rfl | rfl
  · have hpk : pk = 1 := Option.some.inj (hat.symm.trans doubled_owners.1)
    subst hpk
    decide +kernel
  · have hpk : pk = 2 := Option.some.inj (hat.symm.trans doubled_owners.2)
    subst hpk
    decide +kernel

/-- The pass of the first replica writes package 1's record anew, in front of package 2's; the second replica's owner is then looked up there, where its stack is gated. -/
theorem doubled_passDone : ((after (.tensEnablePassDone 0 (0, [])) doubledState).g 0).tEn 0 = false := by decide +kernel

/-- Refutes O36: where a package stands twice in the table of packages, the owner that a position names can change while the owners do the first pass, so the pass does not end although every owner named before it is powered. -/
theorem not_stateTablesWrites : ¬ Obligations.StateTablesWrites := by
  intro h
  obtain ⟨-, -, hpass, -⟩ := h doubledState 0 .host 0 0 0 false 0 .ok
  obtain ⟨hdone, -⟩ := hpass (by decide +kernel) (by decide +kernel)
  obtain ⟨hnsh, hrepl⟩ := doubled_shape
  obtain ⟨hen, -⟩ := (hdone fun n r pk hn hr hat => by
    rw [hnsh] at hn
    rw [hrepl] at hr
    obtain rfl : n = 0 := by omega
    exact doubled_powered r hr pk hat).after
  exact Bool.false_ne_true (doubled_passDone.symm.trans hen)

end Sys2Proof.Machine
end

section
/-! PROOFS. Fenced ports, MEMBER, lost positions and LEAD_CLAIM; O53 -/

namespace Sys2Proof.Machine

/-! ## Fencing a port -/

section
variable (g : Pkg) (n : Nat)

theorem linkClear_rd {a : Nat} (h : a ≠ rRecl 3) : (g.linkClear n).rd a = g.rd a := Pkg.wr_rd_ne _ _ h

@[simp] theorem fencePort_pr : (g.fencePort n).pr = g.pr := by
  unfold Pkg.fencePort
  split <;> rfl

@[simp] theorem fencePort_ld : (g.fencePort n).ld = g.ld := by
  unfold Pkg.fencePort
  split <;> rfl

@[simp] theorem fencePort_sent : (g.fencePort n).sent = g.sent := by
  unfold Pkg.fencePort
  split <;> rfl

theorem fencePort_rd {a : Nat} (h : a ≠ rRecl 3) (hport : a ≠ rPort n 0) : (g.fencePort n).rd a = g.rd a := by
  unfold Pkg.fencePort
  split
  · rw [Pkg.rd_wf, if_neg hport, linkClear_rd _ _ h]
  · rfl

/-- The registers of the hub that a fenced port leaves. -/
theorem fencePort_hub {o : Nat} (h : o ≠ 0x402C) : (g.fencePort n).rd (hubR o) = g.rd (hubR o) :=
  fencePort_rd g n (by simp only [rRecl, hubR, rk]; omega) (Nat.ne_of_gt (rPort_lt_hubR n o))

theorem fencePort_portState (h : g.portState n = 2) : (g.fencePort n).portState n = 3 := by
  rw [Pkg.fencePort, if_pos h]
  exact Pkg.rf_wf_same _ _ (by decide) (by decide)

theorem rPort_ne {i : Nat} (hi : i < 32) (hn : n < 32) (h : i ≠ n) : rPort i 0 ≠ rPort n 0 ∧ rPort i 4 ≠ rPort n 0 := by
  have hall : ∀ i, i < 32 → ∀ n, n < 32 → i ≠ n → rPort i 0 ≠ rPort n 0 ∧ rPort i 4 ≠ rPort n 0 := by decide +kernel
  exact hall i hi n hn h

theorem rPort_beat_ne : rPort n 4 ≠ rPort n 0 ∧ ∀ o, rPort n o < rPort n 0 + 0x100 → rPort n o ≠ rRecl 3 := by
  constructor
  · simp only [rPort, rk]
    omega
  · intro o ho
    have := rPort_lt_hubR n 0
    simp only [rRecl, hubR, rk] at this ⊢
    omega
end

/-- The ports of a list that are fenced by a condition on what their last beat said. -/
def Pkg.fenceBy (c : W32 → Bool) (l : List Nat) (g : Pkg) : Pkg := l.foldl (fun g n => if c (g.rd (rPort n 4)) then g.fencePort n else g) g

section
variable (c : W32 → Bool) (l : List Nat) (g : Pkg)

@[simp] theorem fenceBy_pr : (g.fenceBy c l).pr = g.pr := foldl_keeps (fun g n => by split <;> simp) l g
@[simp] theorem fenceBy_ld : (g.fenceBy c l).ld = g.ld := foldl_keeps (fun g n => by split <;> simp) l g
@[simp] theorem fenceBy_sent : (g.fenceBy c l).sent = g.sent := foldl_keeps (fun g n => by split <;> simp) l g

theorem fenceBy_hub {o : Nat} (h : o ≠ 0x402C) : (g.fenceBy c l).rd (hubR o) = g.rd (hubR o) :=
  foldl_keeps (P := fun g : Pkg => g.rd (hubR o)) (fun g n => by
    beta_reduce
    split
    · exact fencePort_hub g n h
    · rfl) l g

/-- A port that is not fenced itself keeps its state and its last beat. -/
theorem fenceBy_apart {n : Nat} (hn : n < 32) (hl : ∀ i ∈ l, i < 32) (hout : n ∉ l) :
    (g.fenceBy c l).rd (rPort n 0) = g.rd (rPort n 0) ∧ (g.fenceBy c l).rd (rPort n 4) = g.rd (rPort n 4) := by
  induction l generalizing g with
  | nil => exact ⟨rfl, rfl⟩
  | cons i l ih =>
    simp only [List.mem_cons, not_or] at hout
    obtain ⟨hi, hout⟩ := hout
    obtain ⟨h0, h4⟩ := ih (if c (g.rd (rPort i 4)) then g.fencePort i else g) (fun j hj => hl j (List.mem_cons_of_mem _ hj)) hout
    obtain ⟨hne0, hne4⟩ := rPort_ne i hn (hl i List.mem_cons_self) hi
    have hrecl := (rPort_beat_ne n).2
    rw [Pkg.fenceBy, List.foldl_cons]
    refine ⟨h0.trans ?_, h4.trans ?_⟩
    · split
      · exact fencePort_rd _ _ (hrecl 0 (by omega)) hne0
      · rfl
    · split
      · exact fencePort_rd _ _ (hrecl 4 (by simp only [rPort, rk]; omega)) hne4
      · rfl

/-- A port that was UP is fenced where its last beat asks it, and is UP still where it does not. -/
theorem fenceBy_portState {n : Nat} (hn : n < 32) (hl : ∀ i ∈ l, i < 32) (hin : n ∈ l) (hnd : l.Nodup) (hup : g.portState n = 2) :
    (g.fenceBy c l).portState n = if c (g.rd (rPort n 4)) then 3 else 2 := by
  induction l generalizing g with
  | nil => exact absurd hin List.not_mem_nil
  | cons i l ih =>
    obtain ⟨hil, hnd⟩ := List.nodup_cons.mp hnd
    have hl' : ∀ j ∈ l, j < 32 := fun j hj => hl j (List.mem_cons_of_mem _ hj)
    rw [Pkg.fenceBy, List.foldl_cons]
    by_cases hi : n = i
    · subst hi
      have hkept := (fenceBy_apart c l (if c (g.rd (rPort n 4)) then g.fencePort n else g) hn hl' hil).1
      rw [Pkg.fenceBy] at hkept
      rw [Pkg.portState, Pkg.rf, hkept]
      split
      · exact fencePort_portState g n hup
      · exact hup
    · have hne := rPort_ne i hn (hl i List.mem_cons_self) hi
      have hkept := fenceBy_apart c [i] g hn (by simpa using hl i List.mem_cons_self) (by simpa using hi)
      rw [Pkg.fenceBy, List.foldl_cons, List.foldl_nil] at hkept
      obtain ⟨h0, h4⟩ := hkept
      have hih := ih (if c (g.rd (rPort i 4)) then g.fencePort i else g) hl' (by simpa [hi] using hin) hnd
        (by rw [Pkg.portState, Pkg.rf, h0]; exact hup)
      rw [h4] at hih
      exact hih
end

theorem fenceAll_hub (g : Pkg) {o : Nat} (h : o ≠ 0x402C) : g.fenceAll.rd (hubR o) = g.rd (hubR o) :=
  foldl_keeps (P := fun g : Pkg => g.rd (hubR o)) (fun g n => fencePort_hub g n h) _ g

@[simp] theorem fenceAll_pr (g : Pkg) : g.fenceAll.pr = g.pr := foldl_keeps (fun g n => fencePort_pr g n) _ g

/-! ## Registers of the pack and the seal -/

/-- A register of the hub that neither the error log nor the fencing of ports writes. -/
def quietReg (o : Nat) : Bool := !([0x402C, 0x20000, 0x20004, 0x2000C, 0x15018].contains o)

theorem logAt_hub (g : Pkg) {o : Nat} (h : quietReg o = true) (code x1 x2 x3 a0 a1 a2 : Nat) :
    (g.logAt code x1 x2 x3 a0 a1 a2).rd (hubR o) = g.rd (hubR o) :=
  g.logAt_rd code x1 x2 x3 a0 a1 a2 (by
    simp [quietReg] at h
    simp [rErrCtl, rErrHead, rErrLost, rPins, hubR, rk]
    omega)

theorem fenceAll_quiet (g : Pkg) {o : Nat} (h : quietReg o = true) : g.fenceAll.rd (hubR o) = g.rd (hubR o) :=
  fenceAll_hub g (by simp [quietReg] at h; omega)

theorem failPkg_quiet (g : Pkg) {o : Nat} (h : quietReg o = true) : g.failPkg.rd (hubR o) = g.rd (hubR o) := by
  unfold Pkg.failPkg
  split
  · exact Pkg.wr_rd_ne _ _ (by simp [quietReg] at h; simp [rPins, hubR, rk]; omega)
  · rfl

/-- A member that halts without a sufficient part: cause 0xA, and bit 4 of PACK.STAT. -/
theorem partition_says (g : Pkg) (h : ¬ (g.phase = 4 ∧ g.cause = 0xA)) :
    g.partition.phase = 4 ∧ g.partition.cause = 0xA ∧ g.partition.rb rPackStat 4 = true := by
  have hrd : ∀ o, quietReg o = true → g.partition.rd (hubR o) = (((g.setPhase 4).setCause 0xA).wb rPackStat 4 true).rd (hubR o) := fun o ho => by
    rw [Pkg.partition, if_neg h]
    extract_lets g1
    refine (fenceAll_quiet _ ho).trans ?_
    exact (failPkg_quiet g1 ho).trans (logAt_hub _ ho ..)
  have hstat : g.partition.rd rSealStat = ((g.setPhase 4).setCause 0xA).rd rSealStat := (hrd 0x2004 (by decide)).trans (by rw [Pkg.rd_wb]; rfl)
  refine ⟨?_, ?_, ?_⟩
  · rw [Pkg.phase, Pkg.rf, hstat]
    exact (Pkg.setCause_phase ..).trans (Pkg.setPhase_phase _ _ (by decide))
  · rw [Pkg.cause, Pkg.rf, hstat]
    exact Pkg.setCause_cause _ _ (by decide)
  · rw [Pkg.rb, show g.partition.rd rPackStat = _ from hrd 0x7018 (by decide)]
    exact Pkg.rb_wb_same _ rPackStat true (by decide)

/-! ## ASSIGN and LEAD_CLAIM -/

theorem posConflict_id (g : Pkg) (p serial : Nat) : (g.posConflict p serial).rd rPackId = g.rd rPackId := by
  refine (logAt_hub _ (o := 0x7000) (by decide) ..).trans ?_
  rw [show hubR 0x7000 = rPackId from rfl, Pkg.rd_wb, if_neg (by decide)]
  exact fenceAll_quiet (o := 0x7000) g (by decide)

/-- What a package holds in PACK.ID once it has taken a position. -/
theorem takeAssign_id (g : Pkg) (k p : Nat) : (g.takeAssign k p).rd rPackId = setF (setB (g.rd rPackId) 6 true) 5 0 p := by
  unfold Pkg.takeAssign
  extract_lets g1
  have hset : g1.rd rPackId = setF (setB (g.rd rPackId) 6 true) 5 0 p := Pkg.wr_rd_self ..
  split
  · exact (posConflict_id ..).trans hset
  · exact hset

theorem takeAssign_says (g : Pkg) (k : Nat) {p : Nat} (hp : p < 64) :
    (g.takeAssign k p).assigned = true ∧ (g.takeAssign k p).pos = p ∧ (g.takeAssign k p).leads = g.leads := by
  unfold Pkg.assigned Pkg.pos Pkg.leads Pkg.rb Pkg.rf
  rw [takeAssign_id]
  refine ⟨?_, ?_, ?_⟩
  · rw [bit_setF_apart _ _ (by decide) (by decide) (.inr (by decide)), bit_setB_same _ _ (by decide)]
  · rw [fld_setF_same _ _ (by decide) (by decide)]
    exact Nat.mod_eq_of_lt hp
  · rw [bit_setF_apart _ _ (by decide) (by decide) (.inr (by decide)), bit_setB_apart _ _ (by decide) (by decide)]

/-- The ports whose last beat named the other leader. -/
theorem fencedAt_stat (g : Pkg) (serial : Nat) (l : List Nat) :
    (l.foldl (fun g i => if g.rd64 (rPort i 8) (rPort i 0xC) = serial then g.fencePort i else g) g).rd rPackStat = g.rd rPackStat :=
  foldl_keeps (P := fun g : Pkg => g.rd rPackStat) (fun g i => by
    beta_reduce
    split
    · exact fencePort_hub (o := 0x7018) g i (by decide)
    · rfl) l g

/-- A leader conflict sets bit 3 of PACK.STAT, and the leader's position that the package holds stays. -/
theorem leadConflict_stat (g : Pkg) (n serial : Nat) : (g.leadConflict n serial).rd rPackStat = setB (g.rd rPackStat) 3 true := by
  rw [← fencedAt_stat g serial (List.range 32), Pkg.leadConflict]
  generalize (List.range 32).foldl _ g = h
  refine (logAt_hub _ (o := 0x7018) (by decide) ..).trans ?_
  rw [show hubR 0x7018 = rPackStat from rfl, Pkg.rd_wb, if_pos rfl]

theorem leadClaim_conflict (g : Pkg) {p : Nat} (hleads : g.leads = true) (hp : p ≠ g.pos) (hrun : ¬ (g.phase = 4 ∧ g.cause = 0xA)) :
    (g.leadClaim p g.epoch).rb rPackStat 3 = true ∧ (g.leadClaim p g.epoch).lpos = g.lpos := by
  have hstat : (g.leadClaim p g.epoch).rd rPackStat = setB (g.rd rPackStat) 3 true := by
    unfold Pkg.leadClaim
    rw [if_neg (by simp), if_pos ⟨hleads, hp, by simpa [Classical.or_iff_not_imp_left] using hrun⟩]
    split
    · exact leadConflict_stat ..
    · refine (logAt_hub _ (o := 0x7018) (by decide) ..).trans ?_
      rw [show hubR 0x7018 = rPackStat from rfl, Pkg.rd_wb, if_pos rfl]
  rw [Pkg.rb, Pkg.lpos, Pkg.rf, hstat, bit_setB_same _ _ (by decide), fld_setB_apart _ _ (by decide) (.inr (by decide))]
  exact ⟨rfl, rfl⟩

/-! ## MEMBER -/

theorem raiseAllOff_running {p : Pack} {k : Nat} (h : (p.g k).mode ≠ 0) : p.raiseAllOff k = p :=
  List.foldl_fixed' (fun n => by
    unfold Pack.raiseOff
    split
    · rw [if_neg (fun hmodes => h hmodes.1)]
    · rfl) _

/-- The next epoch, or the first that a package takes, to a package that no partition has stopped. -/
structure Pkg.Takes (g : Pkg) (m : MemberMsg) : Prop where
  assigned : g.assigned = true
  next : m.epoch = (g.epoch + 1) % 65536 ∨ (g.epoch = 0 ∧ g.mem = 0)
  running : ¬ (g.phase = 4 ∧ g.cause = 0xA)

section
variable {g : Pkg} {m : MemberMsg}

theorem takeMember_of_takes (h : g.Takes m) : ¬ (!g.assigned ∨ (g.phase = 4 ∧ g.cause = 0xA)) ∧
    ¬ (m.epoch ≠ (g.epoch + 1) % 65536 ∧ !(g.epoch == 0 && g.mem == 0)) := by
  refine ⟨?_, fun ⟨hne, hold⟩ => ?_⟩
  · rw [h.assigned]
    simpa using h.running
  · rcases h.next with hnext | ⟨he, hm⟩
    · exact hne hnext
    · simp [he, hm] at hold

theorem rd64_of_rd {g h : Pkg} {lo hi : Nat} (hlo : h.rd lo = g.rd lo) (hhi : h.rd hi = g.rd hi) : h.rd64 lo hi = g.rd64 lo hi := by
  unfold Pkg.rd64
  rw [hlo, hhi]

theorem rd64_eq {g : Pkg} {lo hi : Nat} {a b : W32} (hlo : g.rd lo = a) (hhi : g.rd hi = b) : g.rd64 lo hi = a.toNat + b.toNat * 2 ^ 32 := by
  exact (congrArg₂ (fun x y : W32 => x.toNat + y.toNat <<< 32) hlo hhi).trans (congrArg (a.toNat + ·) (Nat.shiftLeft_eq ..))

/-- The membership is what two registers hold. -/
theorem mem_of_rd {g h : Pkg} (hlo : h.rd rMemLo = g.rd rMemLo) (hhi : h.rd rMemHi = g.rd rMemHi) : h.mem = g.mem := rd64_of_rd hlo hhi

/-- A member with the new membership and its epoch, before it fences ports (R299, R301, R323). -/
def Pkg.joined (g : Pkg) (m : MemberMsg) : Pkg :=
  let new := (positions m.mem).filter (fun p => !g.mem.testBit p && p != g.pos)
  let g := if g.leads then { g with ld := { g.ld with push := g.ld.push.filter (fun p => m.mem.testBit p && !new.contains p) ++ new } } else g
  let g := (g.wr64 rMemLo rMemHi (m.mem % 2 ^ 64)).wf rPackEpoch 15 0 m.epoch
  let gone := (positions g.pr.gone).filter (fun p => m.mem.testBit p && m.links.getD p 0 == 0)
  { g with flows := [], pr := { g.pr with gone := gone.foldl (fun a p => a ||| 2 ^ p) 0, downs := [], links := (List.range 64).map (fun p => (p, m.links.getD p 0)) } }

/-- What a port's last beat says of its far end: it is there, and no member. -/
def outside (m : MemberMsg) (w : W32) : Bool := bit w 31 && (!bit w 30 || !m.mem.testBit (fld w 18 13))

theorem takeMember_eq (h : g.Takes m) (hin : m.mem.testBit g.pos = true) :
    g.takeMember m = ((g.joined m).fenceBy (outside m) (List.range 32)).send (.memberAck ((g.joined m).fenceBy (outside m) (List.range 32)).pos m.epoch) := by
  obtain ⟨hrun, hnext⟩ := takeMember_of_takes h
  rw [Pkg.takeMember, if_neg hrun, if_neg hnext, if_neg (by simp [hin])]
  rfl

theorem joined_regs : (g.joined m).regs = ((g.wr64 rMemLo rMemHi (m.mem % 2 ^ 64)).wf rPackEpoch 15 0 m.epoch).regs := by
  unfold Pkg.joined
  cases g.leads <;> rfl

theorem joined_sent : (g.joined m).sent = g.sent := by
  unfold Pkg.joined
  cases g.leads <;> rfl

theorem joined_gone (h : g.pr.gone = 0) : (g.joined m).pr.gone = 0 := by
  have hnone : positions 0 = [] := by decide
  unfold Pkg.joined
  cases g.leads
  · show (List.filter _ (positions g.pr.gone)).foldl _ 0 = 0
    rw [h, hnone]
    rfl
  · show (List.filter _ (positions g.pr.gone)).foldl _ 0 = 0
    rw [h, hnone]
    rfl

theorem joined_rd {a : Nat} (hlo : a ≠ rMemLo) (hhi : a ≠ rMemHi) (he : a ≠ rPackEpoch) : (g.joined m).rd a = g.rd a := by
  rw [Pkg.rd_of_regs joined_regs, Pkg.rd_wf, if_neg he, Pkg.wr64, Pkg.wr_rd_ne _ _ hhi, Pkg.wr_rd_ne _ _ hlo]

theorem joined_ports {n : Nat} (hn : n < 32) : (g.joined m).rd (rPort n 0) = g.rd (rPort n 0) ∧ (g.joined m).rd (rPort n 4) = g.rd (rPort n 4) := by
  have hall : ∀ n, n < 32 → (rPort n 0 ≠ rMemLo ∧ rPort n 0 ≠ rMemHi ∧ rPort n 0 ≠ rPackEpoch) ∧
    (rPort n 4 ≠ rMemLo ∧ rPort n 4 ≠ rMemHi ∧ rPort n 4 ≠ rPackEpoch) := by decide +kernel
  obtain ⟨⟨h1, h2, h3⟩, h4, h5, h6⟩ := hall n hn
  exact ⟨joined_rd h1 h2 h3, joined_rd h4 h5 h6⟩

theorem joined_mem : (g.joined m).mem = m.mem % 2 ^ 64 := by
  have hread : ∀ a, a ≠ rPackEpoch → (g.joined m).rd a = (g.wr64 rMemLo rMemHi (m.mem % 2 ^ 64)).rd a := fun a he => by
    rw [Pkg.rd_of_regs joined_regs, Pkg.rd_wf, if_neg he]
  exact (congrArg₂ (fun lo hi : W32 => lo.toNat + hi.toNat <<< 32) (hread rMemLo (by decide)) (hread rMemHi (by decide))).trans
    ((wr64_rd64 _ (by decide) _).trans (Nat.mod_mod _ _))

/-- A member of the new membership takes it with its epoch, acknowledges it, and fences the ports whose far end is no member. -/
theorem takeMember_member (h : g.Takes m) (hin : m.mem.testBit g.pos = true) :
    (g.takeMember m).mem = m.mem % 2 ^ 64 ∧ (g.takeMember m).epoch = m.epoch % 65536 ∧ (g.pr.gone = 0 → (g.takeMember m).pr.gone = 0) ∧
    (g.takeMember m).sent = .memberAck g.pos m.epoch :: g.sent ∧
    ∀ n, n < 32 → g.portState n = 2 → g.rb (rPort n 4) 31 = true →
      (g.takeMember m).portState n = if g.rb (rPort n 4) 30 = true ∧ m.mem.testBit (g.rf (rPort n 4) 18 13) = true then 2 else 3 := by
  have hpos : ((g.joined m).fenceBy (outside m) (List.range 32)).pos = g.pos := by
    rw [Pkg.pos, Pkg.rf, rPackId, fenceBy_hub _ _ _ (by decide), joined_rd (by decide) (by decide) (by decide)]
    rfl
  have hhub : ∀ o, o ≠ 0x402C → (g.takeMember m).rd (hubR o) = (g.joined m).rd (hubR o) := fun o ho => by
    rw [takeMember_eq h hin]
    exact fenceBy_hub _ _ _ ho
  refine ⟨?_, ?_, fun hgone => ?_, ?_, fun n hn hup hbeat => ?_⟩
  · exact (congrArg₂ (fun lo hi : W32 => lo.toNat + hi.toNat <<< 32) (hhub 0x7008 (by decide)) (hhub 0x700C (by decide))).trans joined_mem
  · have hepoch : (g.joined m).epoch = m.epoch % 65536 :=
      (congrArg (fld · 15 0) (Pkg.rd_of_regs joined_regs rPackEpoch)).trans (Pkg.rf_wf_same _ _ (by decide) (by decide))
    exact (congrArg (fld · 15 0) (hhub 0x7004 (by decide))).trans hepoch
  · rw [takeMember_eq h hin]
    exact (congrArg Prot.gone (fenceBy_pr ..)).trans (joined_gone hgone)
  · rw [takeMember_eq h hin, hpos]
    exact congrArg (_ :: ·) ((fenceBy_sent ..).trans joined_sent)
  · obtain ⟨h0, h4⟩ := joined_ports (g := g) (m := m) hn
    have hfenced := fenceBy_portState (outside m) (List.range 32) (g.joined m) hn (fun i hi => List.mem_range.mp hi) (List.mem_range.mpr hn) List.nodup_range
      (by rw [Pkg.portState, Pkg.rf, h0]; exact hup)
    have hport : (g.takeMember m).portState n = ((g.joined m).fenceBy (outside m) (List.range 32)).portState n := by
      rw [takeMember_eq h hin]
      rfl
    have hbeat' : bit (g.rd (rPort n 4)) 31 = true := hbeat
    rw [hport, hfenced, h4, outside, hbeat', Bool.true_and, Pkg.rb, Pkg.rf]
    cases bit (g.rd (rPort n 4)) 30 <;> cases m.mem.testBit (fld (g.rd (rPort n 4)) 18 13) <;> rfl

/-- The mode in which the pipeline runs stays, whatever a package takes. -/
theorem takeMember_mode (h : g.Takes m) (hin : m.mem.testBit g.pos = true) : (g.takeMember m).mode = g.mode := by
  rw [takeMember_eq h hin, Pkg.mode, Pkg.rf]
  refine congrArg (fld · 1 0) ((fenceBy_hub _ _ _ (o := 0x5000) (by decide)).trans ?_)
  exact joined_rd (by decide) (by decide) (by decide)

theorem packOfOne_says (g : Pkg) : g.packOfOne.mem = 1 ∧ g.packOfOne.epoch = 1 ∧ g.packOfOne.pos = 0 ∧ g.packOfOne.leads = true ∧
    g.packOfOne.sent = g.sent ∧ g.packOfOne.mode = g.mode := by
  have hrd : ∀ a, a ≠ rPackStat → g.packOfOne.rd a = ((((g.wr rPackId (setF (g.rd rPackId) 7 0 0xC0)).wr rMemLo 1).wr rMemHi 0).wf rPackEpoch 15 0 1).rd a :=
    fun a ha => Pkg.wr_rd_ne _ _ ha
  have hid : g.packOfOne.rd rPackId = setF (g.rd rPackId) 7 0 0xC0 := by
    rw [hrd _ (by decide), Pkg.rd_wf, if_neg (by decide), Pkg.wr_rd_ne _ _ (by decide), Pkg.wr_rd_ne _ _ (by decide), Pkg.wr_rd_self]
  refine ⟨?_, ?_, ?_, ?_, rfl, ?_⟩
  · have hlo : g.packOfOne.rd rMemLo = 1 := by
      rw [hrd _ (by decide), Pkg.rd_wf, if_neg (by decide), Pkg.wr_rd_ne _ _ (by decide), Pkg.wr_rd_self]
    have hhi : g.packOfOne.rd rMemHi = 0 := by
      rw [hrd _ (by decide), Pkg.rd_wf, if_neg (by decide), Pkg.wr_rd_self]
    have hmem : g.packOfOne.mem = (g.packOfOne.rd rMemLo).toNat + (g.packOfOne.rd rMemHi).toNat <<< 32 := rfl
    rw [hmem, hlo, hhi]
    decide
  · rw [Pkg.epoch, Pkg.rf, hrd _ (by decide)]
    exact Pkg.rf_wf_same _ _ (by decide) (by decide)
  · have hbyte : fld (setF (g.rd rPackId) 7 0 0xC0) 7 0 = 0xC0 := fld_setF_same _ _ (by decide) (by decide)
    rw [Pkg.pos, Pkg.rf, hid]
    simp only [fld] at hbyte ⊢
    omega
  · rw [Pkg.leads, Pkg.rb, hid, bit_setF _ _ _ (by decide) (by decide), if_pos (by decide)]
    decide
  · rw [Pkg.mode, Pkg.rf, hrd _ (by decide), Pkg.rd_wf, if_neg (by decide), Pkg.wr_rd_ne _ _ (by decide), Pkg.wr_rd_ne _ _ (by decide), Pkg.wr_rd_ne _ _ (by decide)]
    rfl

theorem takeMember_left (h : g.Takes m) (hout : m.mem.testBit g.pos = false) (hmem : g.mem ≠ 0) :
    g.takeMember m = (g.send (.memberAck g.pos m.epoch)).packOfOne := by
  obtain ⟨hrun, hnext⟩ := takeMember_of_takes h
  rw [Pkg.takeMember, if_neg hrun, if_neg hnext, if_pos (by simp [hout]), if_neg hmem]

theorem takeMember_stale (hassigned : g.assigned = true) (hnext : ¬ (m.epoch = (g.epoch + 1) % 65536 ∨ (g.epoch = 0 ∧ g.mem = 0)))
    (hrun : ¬ (g.phase = 4 ∧ g.cause = 0xA)) : g.takeMember m = g.stale := by
  rw [Pkg.takeMember, if_neg (by rw [hassigned]; simpa using hrun), if_pos]
  simp only [not_or] at hnext
  exact ⟨hnext.1, by simpa [Classical.or_iff_not_imp_left] using hnext.2⟩

theorem takeMember_none (h : g.assigned = false ∨ (g.phase = 4 ∧ g.cause = 0xA)) : g.takeMember m = g := by
  rw [Pkg.takeMember, if_pos (h.imp_left (by simp [·]))]

theorem stale_says (g : Pkg) : g.stale.rf rPackStat 31 16 = min 65535 (g.rf rPackStat 31 16 + 1) ∧ g.stale.mem = g.mem ∧ g.stale.epoch = g.epoch ∧
    g.stale.sent = g.sent ∧ g.stale.mode = g.mode := by
  refine ⟨?_, ?_, Pkg.rf_wf_ne _ _ (by decide), rfl, Pkg.rf_wf_ne _ _ (by decide)⟩
  · rw [Pkg.stale, Pkg.rf_wf_same _ _ (by decide) (by decide)]
    omega
  · have hkept : ∀ a, a ≠ rPackStat → g.stale.rd a = g.rd a := fun a ha => Pkg.wr_rd_ne _ _ ha
    exact mem_of_rd (hkept _ (by decide)) (hkept _ (by decide))
end

/-! ## PORT_DOWN and a lost position -/

/-- A pair of ports that a member has not seen go down: one link less at both its ends. -/
def Pkg.seesDown (g : Pkg) (a b c d : Nat) : Pkg :=
  ({ g with pr := { g.pr with downs := ((a, b), (c, d)) :: g.pr.downs,
                              links := mins (mins g.pr.links a (mget 0 g.pr.links a - 1)) c (mget 0 g.pr.links c - 1) } }).send (.portDown a b c d)

section
variable {s : Pack} {k a b c d : Nat}

theorem takePortDown_seen (h : ∃ z ∈ (s.g k).pr.downs, z = ((a, b), (c, d)) ∨ z = ((c, d), (a, b))) : s.takePortDown k a b c d = s := by
  obtain ⟨z, hz, heq⟩ := h
  rw [Pack.takePortDown]
  refine if_pos (.inl (List.any_eq_true.mpr ⟨z, hz, ?_⟩))
  rcases heq with rfl | rfl <;> simp

theorem takePortDown_new (hassigned : (s.g k).assigned = true) (hnew : ∀ z ∈ (s.g k).pr.downs, z ≠ ((a, b), (c, d)) ∧ z ≠ ((c, d), (a, b)))
    (hac : a ≠ c) (ha : 1 < mget 0 (s.g k).pr.links a) (hc : 1 < mget 0 (s.g k).pr.links c) :
    s.takePortDown k a b c d = s.on k (fun g => g.seesDown a b c d) := by
  have hseen : ¬ (((s.g k).pr.downs.any (fun z => (z.1 == (a, b) && z.2 == (c, d)) || (z.1 == (c, d) && z.2 == (a, b)))) = true ∨ !(s.g k).assigned) := by
    simp only [hassigned, Bool.not_true, Bool.false_eq_true, or_false, List.any_eq_true, not_exists, not_and]
    rintro ⟨z1, z2⟩ hz heq
    obtain ⟨h1, h2⟩ := hnew _ hz
    simp only [Bool.or_eq_true, Bool.and_eq_true, beq_iff_eq] at heq
    rcases heq with ⟨rfl, rfl⟩ | ⟨rfl, rfl⟩
    · exact h1 rfl
    · exact h2 rfl
  rw [Pack.takePortDown, if_neg hseen]
  extract_lets links s1 s2
  have hlinks : links = mins (mins (s.g k).pr.links a (mget 0 (s.g k).pr.links a - 1)) c (mget 0 (s.g k).pr.links c - 1) := by
    show mins _ c (if c = a then _ else _) = _
    rw [if_neg (Ne.symm hac)]
  have hla : mget 0 links a = mget 0 (s.g k).pr.links a - 1 := by
    rw [hlinks, mget_mins_ne _ _ _ hac, mget_mins_self]
  have hlc : mget 0 links c = mget 0 (s.g k).pr.links c - 1 := by
    rw [hlinks, mget_mins_self]
  have hs2 : s2 = s1 := if_neg (by rw [hla]; omega)
  rw [if_neg (by rw [hlc]; omega), hs2]
  exact Pack.on_congr (by rw [Pkg.seesDown, hlinks])

theorem seesDown_says (g : Pkg) (hac : a ≠ c) : mget 0 (g.seesDown a b c d).pr.links a = mget 0 g.pr.links a - 1 ∧
    mget 0 (g.seesDown a b c d).pr.links c = mget 0 g.pr.links c - 1 := by
  constructor
  · exact (mget_mins_ne _ _ _ hac).trans (mget_mins_self ..)
  · exact mget_mins_self ..
end

/-- A member that holds a position lost. -/
def Pkg.holdsLost (g : Pkg) (p : Nat) : Pkg := { g with pr := { g.pr with gone := g.pr.gone ||| 2 ^ p } }

/-- A position of the pack, not the package's own, whose loss is new to a member that still takes part. -/
structure Pkg.Loses (g : Pkg) (p : Nat) : Prop where
  assigned : g.assigned = true
  member : g.mem.testBit p = true
  other : p ≠ g.pos
  new : g.pr.gone.testBit p = false
  running : ¬ (g.phase = 4 ∧ g.cause = 0xA)

theorem holdsLost_mem (g : Pkg) (p : Nat) : (g.holdsLost p).mem = g.mem := mem_of_rd rfl rfl

section
variable {s : Pack} {k p : Nat} (h : (s.g k).Loses p)
include h

theorem declareLost_new : s.declareLost k p =
    (if (s.g k).leads then
      (if !((s.g k).holdsLost p).sufficient then (s.on k (fun g => g.holdsLost p)).on k Pkg.partition
       else if (s.g k).ld.reverting.isEmpty then (s.on k (fun g => g.holdsLost p)).revertRequest k false
       else (s.on k (fun g => g.holdsLost p)).restartRevert k)
    else if ((s.g k).holdsLost p).pr.gone.testBit (s.g k).lpos then (s.on k (fun g => g.holdsLost p)).succeed k
    else s.on k (fun g => g.holdsLost p)) := by
  have hself : (s.on k (fun g => g.holdsLost p)).g k = (s.g k).holdsLost p := Pack.on_g_self ..
  rw [Pack.declareLost, if_neg]
  · show (if ((s.on k (fun g => g.holdsLost p)).g k).leads then _ else _) = _
    simp only [Pack.on_g_self]
    rfl
  · simp only [h.assigned, h.member, h.new, Bool.not_true, Bool.false_eq_true, false_or, not_or]
    exact ⟨h.other, h.running⟩

/-- A member that does not lead, and whose leader is not lost, holds the position lost and does nothing else. -/
theorem declareLost_held (hleads : (s.g k).leads = false) (hlead : p ≠ (s.g k).lpos) (hlpos : (s.g k).pr.gone.testBit (s.g k).lpos = false) :
    s.declareLost k p = s.on k (fun g => g.holdsLost p) := by
  rw [declareLost_new h, if_neg (by simp [hleads]), if_neg]
  simp [Pkg.holdsLost, Nat.testBit_or, Nat.testBit_two_pow, hlpos, hlead]

/-- A leader with a sufficient part that neither commits nor reverts starts a revert to the sealed step. -/
theorem declareLost_reverts (hleads : (s.g k).leads = true) (hpart : ((s.g k).holdsLost p).sufficient = true) (hcommit : (s.g k).committing = false)
    (hrev : (s.g k).ld.reverting = []) (hrlim : (s.g k).rlim = 0) (hauto : (s.g k).autorev = true) (hhalt : ¬ ((s.g k).phase = 4 ∧ (s.g k).cause = 5)) :
    s.declareLost k p = (s.on k (fun g => g.holdsLost p)).startRevert k (s.g k).sealed := by
  have hself : (s.on k (fun g => g.holdsLost p)).g k = (s.g k).holdsLost p := Pack.on_g_self ..
  rw [declareLost_new h, if_pos hleads, if_neg (by simp [hpart]), if_pos (by simp [hrev]), Pack.revertRequest, hself, Pack.revertTo, hself]
  rw [if_neg, if_neg, if_neg, if_neg, if_pos]
  · rfl
  · exact Bool.or_eq_true_iff.mpr (.inr hauto)
  · exact fun hlim => hlim.1 hrlim
  · show ¬ (!(s.g k).ld.reverting.isEmpty) = true
    simp [hrev]
  · show ¬ (s.g k).committing = true
    simp [hcommit]
  · show ¬ (!(s.g k).leads ∨ ((s.g k).phase = 4 ∧ ((s.g k).cause = 5 ∨ (s.g k).cause = 0xA)))
    rw [hleads]
    rintro (hfalse | ⟨hphase, hcause | hcause⟩)
    · exact absurd hfalse (by decide)
    · exact hhalt ⟨hphase, hcause⟩
    · exact h.running ⟨hphase, hcause⟩

theorem declareLost_restarts (hleads : (s.g k).leads = true) (hpart : ((s.g k).holdsLost p).sufficient = true) (hrev : (s.g k).ld.reverting ≠ []) :
    s.declareLost k p = (s.on k (fun g => g.holdsLost p)).restartRevert k := by
  rw [declareLost_new h, if_pos hleads, if_neg (by simp [hpart]), if_neg (by simpa using hrev)]

theorem declareLost_halts (hleads : (s.g k).leads = true) (hpart : ((s.g k).holdsLost p).sufficient = false) :
    s.declareLost k p = s.on k (fun g => (g.holdsLost p).partition) := by
  rw [declareLost_new h, if_pos hleads, if_pos (by simp [hpart]), Pack.on_on]
end

/-! ## Writes of the PACK block -/

section
variable {s : State} {k o : Nat} {m : Master} {v : W32}

/-- A write to the PACK block that its master may do takes effect at once, as `packWrite` says. -/
theorem gives_packWrite {c : Instr} (hw : Writable s.pack k m 62 (0x7000 + o) .pack o) (hpv : pvMask .pack o ≠ 0)
    (hc : exec c s = .next (s.onPack (fun p => p.busWrite k m 62 (0x7000 + o) v))) {p : Pack} (hp : s.pack.packWrite k o v = p) : Gives c s p :=
  gives_of_onPack hc ((busWrite_served hw).trans ((regWrite_now_priv (hw.priv.resolve_right hpv) rfl rfl).trans hp))

theorem packWrite_pmap (p : Pack) {n : Nat} (hn : n < 64) (hops : Bool) : p.packWrite k (0x100 + 8 * n + 4 * b2n hops) v =
    p.on k (fun g => g.wr (hubR (0x7100 + 8 * n + 4 * b2n hops)) (if hops then mk32 (fld v 3 0) else v)) := by
  have hb : b2n hops ≤ 1 := by cases hops <;> decide
  unfold Pack.packWrite
  split
  case h_7 =>
    rw [if_pos (by omega), show 0x7000 + (0x100 + 8 * n + 4 * b2n hops) = 0x7100 + 8 * n + 4 * b2n hops by omega]
    refine Pack.on_congr (congrArg _ ?_)
    cases hops
    · exact if_pos (by rw [show b2n false = 0 from rfl]; omega)
    · exact if_neg (by rw [show b2n true = 1 from rfl]; omega)
  all_goals omega

/-- MEMNEXT written at a leader: MEMBER is to go out. -/
def Pkg.namesNext (g : Pkg) (hi : Bool) (v : W32) : Pkg :=
  { g.wr (if hi then hubR 0x7014 else hubR 0x7010) v with pr := { g.pr with memPend := true } }

theorem namesNext_rd (g : Pkg) (hi : Bool) {a : Nat} (h10 : a ≠ hubR 0x7010) (h14 : a ≠ hubR 0x7014) : (g.namesNext hi v).rd a = g.rd a := by
  cases hi
  · exact Pkg.wr_rd_ne _ _ h10
  · exact Pkg.wr_rd_ne _ _ h14

theorem namesNext_placed (g : Pkg) (hi : Bool) : g.Placed (g.namesNext hi v) := by
  have hid := namesNext_rd g hi (v := v) (a := rPackId) (by decide) (by decide)
  have hup : (g.namesNext hi v).upPorts = g.upPorts := by
    simp only [Pkg.upPorts, Pkg.portState, Pkg.rf]
    simp only [namesNext_rd g hi (Nat.ne_of_lt (rPort_lt_hubR _ _)) (Nat.ne_of_lt (rPort_lt_hubR _ _))]
  refine ⟨?_, ?_, mem_of_rd (namesNext_rd g hi (by decide) (by decide)) (namesNext_rd g hi (by decide) (by decide)), hup, fun p hp => ?_⟩
  · rw [Pkg.assigned, Pkg.rb, hid]
    rfl
  · rw [Pkg.pos, Pkg.rf, hid]
    rfl
  · have hne : ∀ o o', o ≠ o' → hubR o ≠ hubR o' := fun o o' h => by simp only [hubR, rk]; omega
    unfold Pkg.effMask Pkg.rf Pkg.rb
    rw [namesNext_rd g hi (hne _ _ (by omega)) (hne _ _ (by omega)), namesNext_rd g hi (hne _ _ (by omega)) (hne _ _ (by omega)), hup]

theorem namesNext_mode {p : Pack} (hi : Bool) (j : Nat) : ((p.on k (fun g => g.namesNext hi v)).g j).mode = (p.g j).mode := by
  by_cases hj : j = k
  · subst hj
    rw [Pack.on_g_self, Pkg.mode, Pkg.rf, namesNext_rd _ _ (by decide) (by decide)]
    rfl
  · rw [Pack.on_g_ne _ _ hj]

/-- The members are all OFF, or the pack is HELD. -/
def Pack.idleMembers (p : Pack) (k : Nat) : Bool := (p.g k).phase == 3 || (p.members k).all (fun j => (p.g j).mode == 0)

/-- At a leader, MEMBER goes out at once with the second word where nothing runs, and otherwise waits. -/
theorem memNext_leads {p : Pack} (hi : Bool) (hleads : (p.g k).leads = true) : p.memNext k hi v =
    if hi && p.idleMembers k then (p.on k (fun g => g.namesNext hi v)).sendMember k else p.on k (fun g => g.namesNext hi v) := by
  have hstill : ((p.on k (fun g => g.wr (if hi then hubR 0x7014 else hubR 0x7010) v)).g k).leads = true := by
    have hid : ((p.g k).wr (if hi then hubR 0x7014 else hubR 0x7010) v).rd rPackId = (p.g k).rd rPackId :=
      namesNext_rd (p.g k) hi (by decide) (by decide)
    rw [Pack.on_g_self, Pkg.leads, Pkg.rb, hid]
    exact hleads
  have hphase : ((p.g k).namesNext hi v).phase = (p.g k).phase := by
    rw [Pkg.phase, Pkg.rf, namesNext_rd _ _ (by decide) (by decide)]
    rfl
  unfold Pack.memNext
  dsimp only
  rw [hstill, Pack.on_on]
  show (if (hi && (((p.on k (fun g => g.namesNext hi v)).g k).phase == 3 || ((p.on k (fun g => g.namesNext hi v)).members k).all
    (fun j => ((p.on k (fun g => g.namesNext hi v)).g j).mode == 0))) = true then _ else _) = _
  simp only [namesNext_mode, members_on (f := fun g => g.namesNext hi v) (namesNext_placed (p.g k) hi), Pack.on_g_self, hphase, Pack.idleMembers]
  rfl

theorem memNext_follows {p : Pack} (hi : Bool) (hleads : (p.g k).leads = false) :
    p.memNext k hi v = p.on k (fun g => g.wr (if hi then hubR 0x7014 else hubR 0x7010) v) := by
  have hid : ((p.g k).wr (if hi then hubR 0x7014 else hubR 0x7010) v).rd rPackId = (p.g k).rd rPackId :=
    namesNext_rd (p.g k) hi (by decide) (by decide)
  unfold Pack.memNext
  refine if_pos ?_
  rw [Pack.on_g_self, Pkg.leads, Pkg.rb, hid]
  exact congrArg (!·) hleads
end

theorem takeMember_running {p : Pack} {k : Nat} {m : MemberMsg} (h : ((p.g k).takeMember m).mode ≠ 0) : p.takeMember k m = p.on k (fun g => g.takeMember m) :=
  raiseAllOff_running (by rwa [Pack.on_g_self])

section
variable {s : Pack} {k n j m p serial : Nat}

theorem takeAssign_taken (hpeer : ((s.g k).link n).peer = some (j, m)) (hassigned : (s.g j).assigned = true)
    (hasked : ∃ l ∈ s.pkgs, l.2.leads = true ∧ l.2.mem = (s.g j).mem ∧ .assign p serial (s.g j).pos m ∈ l.2.sent)
    (hstate : (s.g k).portState n = 2 ∨ (s.g k).portState n = 3) (hfar : (s.g j).portState m = 2 ∨ (s.g j).portState m = 3) (hfree : (s.g k).assigned = false)
    (hserial : serial = serialOf k) (hopen : (s.g j).mem.testBit p = false) : s.takeAssign k n p serial = s.on k (fun g => g.takeAssign k p) := by
  have hany : s.pkgs.any (fun x => x.2.leads && x.2.mem == (s.g j).mem && x.2.sent.contains (.assign p serial (s.g j).pos m)) = true := by
    obtain ⟨l, hl, hlead, hmem, hsent⟩ := hasked
    refine List.any_eq_true.mpr ⟨l, hl, ?_⟩
    simp [hlead, hmem, hsent]
  unfold Pack.takeAssign
  simp only [hpeer]
  rw [if_neg]
  rw [hassigned, hany, hfree, hopen]
  simp [hserial]
  omega

theorem takeAssign_refused (h : (s.g k).assigned = true ∨ serial ≠ serialOf k ∨ ((s.g k).link n).peer = none) : s.takeAssign k n p serial = s := by
  unfold Pack.takeAssign
  dsimp only
  split
  · rfl
  · next hpeer =>
    refine if_pos ?_
    rcases h with hassigned | hserial | hnone
    · exact .inr (.inr (.inr (.inl hassigned)))
    · exact .inr (.inr (.inr (.inr (.inl hserial))))
    · exact absurd (hpeer.symm.trans hnone) (by simp)
end

section
variable {g : Pkg} {p : Nat} (hfollows : g.leads = false ∨ p = g.pos)
include hfollows

theorem leadClaim_own : ¬ (g.epoch ≠ g.epoch) ∧ ¬ (g.leads ∧ p ≠ g.pos ∧ !(g.phase = 4 ∧ g.cause = 0xA)) := by
  refine ⟨fun h => h rfl, fun ⟨hleads, hp, _⟩ => ?_⟩
  rcases hfollows with hno | hpos
  · exact Bool.false_ne_true (hno.symm.trans hleads)
  · exact hp hpos

/-- A claim of the lowest position that is left. -/
theorem leadClaim_taken (hassigned : g.assigned = true) (hmember : g.mem.testBit p = true) (hrun : ¬ (g.phase = 4 ∧ g.cause = 0xA))
    (hlower : ∀ q, q ∈ positions g.mem → q < p → g.pr.gone.testBit q = true) : g.leadClaim p g.epoch = g.wf rPackStat 15 10 p := by
  have hnone : (positions g.mem).any (fun q => decide (q < p) && !g.pr.gone.testBit q) = false := by
    refine List.any_eq_false.mpr fun q hq => ?_
    by_cases hqp : q < p
    · simp [hlower q hq hqp]
    · simp [hqp]
  rw [Pkg.leadClaim, if_neg (leadClaim_own hfollows).1, if_neg (leadClaim_own hfollows).2, if_neg]
  rw [hassigned, hmember, hnone]
  simpa using hrun

/-- A claim while a lower position is left changes nothing. -/
theorem leadClaim_early (hlower : ∃ q, q ∈ positions g.mem ∧ q < p ∧ g.pr.gone.testBit q = false) : g.leadClaim p g.epoch = g := by
  obtain ⟨q, hq, hqp, hgone⟩ := hlower
  rw [Pkg.leadClaim, if_neg (leadClaim_own hfollows).1, if_neg (leadClaim_own hfollows).2, if_pos]
  exact .inr (.inr (.inr (List.any_eq_true.mpr ⟨q, hq, by simp [hqp, hgone]⟩)))
end

/-- What the leader's request sends: ASSIGN, to the package that PACK.ASSIGN names; another package sends nothing. -/
theorem assignReq_sent {g h : Pkg} (hrd : ∀ a, a ≠ rPackStat → h.rd a = g.rd a) (hsent : h.sent = g.sent) : h.assignReq.sent =
    (if g.leads then [.assign (g.rf (hubR 0x7020) 5 0) (g.rd64 (hubR 0x7024) (hubR 0x7028)) (g.rf (hubR 0x7020) 24 19) (g.rf (hubR 0x7020) 18 14)] else []) ++ g.sent := by
  have hleads : h.leads = g.leads := congrArg (bit · 7) (hrd rPackId (by decide))
  have hfields : ∀ hi lo, h.rf (hubR 0x7020) hi lo = g.rf (hubR 0x7020) hi lo := fun hi lo => congrArg (fld · hi lo) (hrd _ (by decide))
  have hserial : h.rd64 (hubR 0x7024) (hubR 0x7028) = g.rd64 (hubR 0x7024) (hubR 0x7028) :=
    rd64_of_rd (hrd _ (by decide)) (hrd _ (by decide))
  rw [Pkg.assignReq, hleads]
  cases g.leads
  · exact hsent
  · simp only [if_true, Pkg.send, hfields, hserial, hsent, List.cons_append, List.nil_append]

theorem gives_memnext {s : State} {k : Nat} {m : Master} {v : W32} {hi : Bool} {p : Pack} (hw : Writable s.pack k m 62 (0x7010 + 4 * b2n hi) .pack (0x10 + 4 * b2n hi))
    (hp : s.pack.memNext k hi v = p) : Gives (.packMemnextWrite k m hi v) s p := by
  cases hi
  · exact gives_packWrite (o := 0x10) hw (by decide) rfl hp
  · exact gives_packWrite (o := 0x14) hw (by decide) rfl hp

section
variable {s : State} {k p : Nat} {m : Master} {v : W32} {hi : Bool}

theorem memnextWrite_waits (hw : Writable s.pack k m 62 (0x7010 + 4 * b2n hi) .pack (0x10 + 4 * b2n hi))
    (hwait : hi = false ∨ ((s.pack.g k).phase ≠ 3 ∧ ∃ j ∈ s.pack.members k, (s.pack.g j).mode ≠ 0)) : Leaves (.packMemnextWrite k m hi v) s (fun q =>
      (q.g k).rd (hubR (0x7010 + 4 * b2n hi)) = v ∧ (q.g k).pr.memPend = ((s.pack.g k).leads || (s.pack.g k).pr.memPend) ∧
      (q.g k).sent = (s.pack.g k).sent ∧ q.mem = s.pack.mem) := by
  refine leaves_on (k := k) (f := fun g => if (s.pack.g k).leads then g.namesNext hi v else g.wr (if hi then hubR 0x7014 else hubR 0x7010) v)
    (gives_memnext hw ?_)
    fun q hq hmem => ⟨?_, ?_, ?_, hmem⟩
  · cases hleads : (s.pack.g k).leads
    · exact memNext_follows hi hleads
    · rw [memNext_leads hi hleads, if_neg]
      · rfl
      · have hbusy : hi = true → ¬ s.pack.idleMembers k = true := fun hi' => by
          obtain ⟨hphase, j, hj, hmode⟩ := hwait.resolve_left (by simp [hi'])
          have hall : (s.pack.members k).all (fun j => (s.pack.g j).mode == 0) = false := List.all_eq_false.mpr ⟨j, hj, by simpa using hmode⟩
          rw [Pack.idleMembers, hall, Bool.or_false, beq_iff_eq]
          exact hphase
        intro hboth
        exact hbusy (Bool.and_eq_true_iff.mp hboth).1 (Bool.and_eq_true_iff.mp hboth).2
  · rw [hq]
    split <;> cases hi <;> exact Pkg.wr_rd_self ..
  · rw [hq]
    cases hleads : (s.pack.g k).leads
    · exact (Bool.false_or _).symm
    · rfl
  · rw [hq]
    split <;> rfl

theorem memnextWrite_goes (hw : Writable s.pack k m 62 (0x7010 + 4 * b2n hi) .pack (0x10 + 4 * b2n hi)) (hhi : hi = true)
    (hleads : (s.pack.g k).leads = true) (hidle : (s.pack.g k).phase = 3 ∨ (∀ j ∈ s.pack.members k, (s.pack.g j).mode = 0)) :
    Leaves (.packMemnextWrite k m hi v) s (fun q => (q.g k).pr.memPend = false ∧ q.mem = s.pack.mem ∧
      ∃ z : MemberMsg, (q.g k).sent = .member z :: (s.pack.g k).sent ∧ z.epoch = ((s.pack.g k).epoch + 1) % 65536 ∧
        z.mem = ((s.pack.g k).rd (hubR 0x7010)).toNat + v.toNat * 2 ^ 32) := by
  have hgoes : s.pack.memNext k hi v = (s.pack.on k (fun g => g.namesNext hi v)).sendMember k := by
    rw [memNext_leads hi hleads, if_pos]
    rw [hhi, Bool.true_and, Pack.idleMembers]
    rcases hidle with hphase | hall
    · exact Bool.or_eq_true_iff.mpr (.inl (beq_iff_eq.mpr hphase))
    · exact Bool.or_eq_true_iff.mpr (.inr (List.all_eq_true.mpr fun j hj => beq_iff_eq.mpr (hall j hj)))
  have hkept : ((s.pack.g k).namesNext hi v).leads = true := by
    rw [Pkg.leads, Pkg.rb, namesNext_rd _ _ (by decide) (by decide)]
    exact hleads
  refine leaves_on (p := s.pack.on k (fun g => g.namesNext hi v))
    (gives_memnext hw (hgoes.trans (if_pos ?_))) fun q hq hmem => ⟨?_, hmem, ?_⟩
  · rw [Pack.on_g_self, hkept]
    rfl
  · rw [hq]
  · rw [hq]
    refine ⟨_, congrArg (_ :: ·) ?_, ?_, ?_⟩
    · rw [Pack.on_g_self]
      rfl
    · rw [Pack.on_g_self, Pkg.epoch, Pkg.rf, namesNext_rd _ _ (by decide) (by decide)]
      rfl
    · have hlo : ((s.pack.g k).namesNext hi v).rd (hubR 0x7010) = (s.pack.g k).rd (hubR 0x7010) := by
        subst hhi
        exact Pkg.wr_rd_ne _ _ (by decide)
      have hword : ((s.pack.g k).namesNext hi v).rd (hubR 0x7014) = v := by
        subst hhi
        exact Pkg.wr_rd_self ..
      rw [Pack.on_g_self]
      exact rd64_eq hlo hword

/-- The field of PROT that counts reverts, and the one that says a takeover is under way. -/
theorem takeCounted_says (g : Pkg) (n : Nat) : ((g.setTake 1).wf (rProt 4) 15 8 n).takeSt = 1 ∧ ((g.setTake 1).wf (rProt 4) 15 8 n).epoch = g.epoch ∧
    ((g.setTake 1).wf (rProt 4) 15 8 n).mem = g.mem := by
  have hrd : ∀ a, a ≠ rProt 4 → ((g.setTake 1).wf (rProt 4) 15 8 n).rd a = g.rd a := fun a ha => (Pkg.wr_rd_ne _ _ ha).trans (Pkg.wr_rd_ne _ _ ha)
  refine ⟨?_, congrArg (fld · 15 0) (hrd _ (by decide)), mem_of_rd (hrd _ (by decide)) (hrd _ (by decide))⟩
  exact (Pkg.rf_wf_apart _ _ (by decide) (by decide) (.inr (by decide))).trans (Pkg.rf_wf_same _ _ (by decide) (by decide))

/-- The leader begins a revert to a step, with the members it has left (R343). -/
def Pkg.reverts (g : Pkg) (upto : Nat) : Pkg :=
  let g := { g with ld := { g.ld with reverting := positions (g.mem &&& (2 ^ 64 - 1 - g.pr.gone % 2 ^ 64)), revPend := false,
                                       reclaiming := [], ready := [], acks := [], sweep := [], req := false, resume := false } }
  g.send (.revert upto g.epoch)

theorem startRevert_eq (p : Pack) (upto : Nat) :
    p.startRevert k upto = p.on k (fun g => ((g.setTake 1).wf (rProt 4) 15 8 (min 255 (g.revcnt + 1))).reverts upto) := rfl

theorem reverts_says (g : Pkg) (upto : Nat) : (g.reverts upto).pr = g.pr ∧ (g.reverts upto).sent = .revert upto g.epoch :: g.sent ∧
    (g.reverts upto).takeSt = g.takeSt ∧ (g.reverts upto).ld.reverting = positions (g.mem &&& (2 ^ 64 - 1 - g.pr.gone % 2 ^ 64)) := ⟨rfl, rfl, rfl, rfl⟩

/-- The leader begins its revert anew, to a step, with the members it has left. -/
def Pkg.restarts (g : Pkg) (upto : Nat) : Pkg :=
  ({ g with ld := { g.ld with reverting := positions (g.mem &&& (2 ^ 64 - 1 - g.pr.gone % 2 ^ 64)), reclaiming := [] } }).send (.revert upto g.epoch)

theorem restartRevert_eq (p : Pack) : p.restartRevert k = p.on k (fun g => g.restarts (p.sealTop k)) := rfl

variable (hup : (s.pack.g k).hubUp = true) (h : (s.pack.g k).Loses p) (hleads : (s.pack.g k).leads = true)
include hup h hleads

theorem leaves_reverting (hpart : ((s.pack.g k).holdsLost p).sufficient = true) (hcommit : (s.pack.g k).committing = false)
    (hrev : (s.pack.g k).ld.reverting = []) (hrlim : (s.pack.g k).rlim = 0) (hauto : (s.pack.g k).autorev = true)
    (hhalt : ¬ ((s.pack.g k).phase = 4 ∧ (s.pack.g k).cause = 5)) : Leaves (.pkgFail k p) s (fun q =>
      (q.g k).pr.gone = (s.pack.g k).pr.gone ||| 2 ^ p ∧ (q.g k).sent = .revert (s.pack.g k).sealed (s.pack.g k).epoch :: (s.pack.g k).sent ∧ (q.g k).takeSt = 1 ∧
      (q.g k).ld.reverting = positions ((s.pack.g k).mem &&& (2 ^ 64 - 1 - ((s.pack.g k).pr.gone ||| 2 ^ p) % 2 ^ 64)) ∧ q.mem = s.pack.mem) := by
  refine leaves_on (p := s.pack.on k (fun g => g.holdsLost p))
    (gives_of_atHub rfl hup ((declareLost_reverts h hleads hpart hcommit hrev hrlim hauto hhalt).trans (startRevert_eq ..))) fun q hq hqmem => ?_
  rw [hq, Pack.on_g_self]
  obtain ⟨htake, hepoch, hmem⟩ := takeCounted_says ((s.pack.g k).holdsLost p) (min 255 (((s.pack.g k).holdsLost p).revcnt + 1))
  obtain ⟨hpr, hsent, htake', hrevs⟩ := reverts_says ((((s.pack.g k).holdsLost p).setTake 1).wf (rProt 4) 15 8
    (min 255 (((s.pack.g k).holdsLost p).revcnt + 1))) (s.pack.g k).sealed
  rw [hpr, hsent, htake', hrevs, htake, hepoch, hmem, holdsLost_mem]
  exact ⟨rfl, rfl, rfl, rfl, hqmem⟩

theorem leaves_restarted (hpart : ((s.pack.g k).holdsLost p).sufficient = true) (hrev : (s.pack.g k).ld.reverting ≠ []) : Leaves (.pkgFail k p) s (fun q =>
      (q.g k).pr.gone = (s.pack.g k).pr.gone ||| 2 ^ p ∧ (∃ upto, (q.g k).sent = .revert upto (s.pack.g k).epoch :: (s.pack.g k).sent) ∧ (q.g k).ld.reclaiming = [] ∧
      (q.g k).ld.reverting = positions ((s.pack.g k).mem &&& (2 ^ 64 - 1 - ((s.pack.g k).pr.gone ||| 2 ^ p) % 2 ^ 64)) ∧ q.mem = s.pack.mem) := by
  refine leaves_on (p := s.pack.on k (fun g => g.holdsLost p)) (gives_of_atHub rfl hup ((declareLost_restarts h hleads hpart hrev).trans (restartRevert_eq _))) fun q hq hqmem => ?_
  rw [hq, Pack.on_g_self]
  exact ⟨rfl, ⟨_, rfl⟩, rfl, rfl, hqmem⟩

theorem leaves_halted (hpart : ((s.pack.g k).holdsLost p).sufficient = false) : Leaves (.pkgFail k p) s (fun q =>
    (q.g k).phase = 4 ∧ (q.g k).cause = 0xA ∧ (q.g k).rb rPackStat 4 = true ∧ q.mem = s.pack.mem) := by
  refine leaves_on (gives_of_atHub rfl hup (declareLost_halts h hleads hpart)) fun q hq hqmem => ?_
  obtain ⟨h1, h2, h3⟩ := partition_says ((s.pack.g k).holdsLost p) h.running
  rw [← hq] at h1 h2 h3
  exact ⟨h1, h2, h3, hqmem⟩
end

/-- Settles O53: what each message of the pack, each write of its registers and each loss does to positions, membership, leader and ports. -/
theorem packMembership : Obligations.PackMembership := by
  unfold Obligations.PackMembership
  intro s k p serial n j m' a b c d hops hi m v msg g h next stopped g1 halted
  refine ⟨fun hp hw => ?_, fun hw => ?_, fun hw => ⟨fun hwait => ?_, fun hhi hleads hidle => ?_⟩, fun hup => ⟨?_, ?_, ?_, ?_, ?_, ?_, ?_, ?_, ?_, ?_, ?_, ?_, ?_⟩⟩
  case refine_1 =>
    rw [show 0x7100 + 8 * p + 4 * b2n hops = 0x7000 + (0x100 + 8 * p + 4 * b2n hops) by omega] at hw ⊢
    have hpv : pvMask .pack (0x100 + 8 * p + 4 * b2n hops) ≠ 0 := by
      have hb : b2n hops ≤ 1 := by cases hops <;> decide
      rw [pvMask, if_pos (by omega)]
      decide
    refine leaves_on (gives_packWrite hw hpv (by rw [← show 0x7100 + 8 * p + 4 * b2n hops = 0x7000 + (0x100 + 8 * p + 4 * b2n hops) by omega]; rfl) (packWrite_pmap s.pack hp hops)) fun q hq hmem => ⟨?_, hmem⟩
    rw [hq, show 0x7000 + (0x100 + 8 * p + 4 * b2n hops) = 0x7100 + 8 * p + 4 * b2n hops by omega, Pkg.wr_rd_self]
    cases hops
    · rfl
    · show (mk32 (fld v 3 0)).toNat = v.toNat % 16
      simp only [fld, mk32, BitVec.toNat_ofNat]
      omega
  case refine_2 =>
    refine leaves_on (k := k) (p := s.pack) (f := fun g => (g.packStat (setB v 0 true)).assignReq) (gives_packWrite (o := 0x18) hw (by decide) rfl ?_)
      fun q hq hmem => ⟨?_, hmem⟩
    · show s.pack.on k (fun g => let g := g.packStat (setB v 0 true); if bit (setB v 0 true) 0 then g.assignReq else g) = _
      exact Pack.on_congr (if_pos (bit_setB_same _ _ (by decide)))
    · rw [hq]
      exact assignReq_sent (fun a ha => Pkg.wr_rd_ne _ _ ha) rfl
  case refine_3 => exact memnextWrite_waits hw hwait
  case refine_4 => exact memnextWrite_goes hw hhi hleads hidle
  case refine_5 =>
    intro hpeer hassigned hasked hstate hfar hfree hserial hopen hp
    have htaken : s.pack.takeAssign k n p serial = s.pack.on k (fun g => g.takeAssign k p) := takeAssign_taken hpeer hassigned hasked hstate hfar hfree hserial hopen
    refine leaves_on (gives_of_atHub rfl hup htaken) fun q hq hmem => ?_
    rw [hq]
    obtain ⟨h1, h2, h3⟩ := takeAssign_says (s.pack.g k) k hp
    exact ⟨h1, h2, h3, hmem⟩
  case refine_6 =>
    intro hno
    exact ⟨_, gives_of_atHub rfl hup (takeAssign_refused hno), fun _ => rfl, rfl⟩
  case refine_7 =>
    intro hassigned hnext hrun hmode
    have htakes : g.Takes msg := ⟨hassigned, hnext, hrun⟩
    refine ⟨fun hin => ?_, fun hout hmem => ?_⟩
    · refine leaves_on (gives_of_atHub rfl hup (takeMember_running (by rw [takeMember_mode htakes hin]; exact hmode))) fun q hq hqmem => ?_
      rw [hq]
      obtain ⟨h1, h2, h3, h4, h5⟩ := takeMember_member htakes hin
      exact ⟨h1, h2, h3, h4, h5, hqmem⟩
    · have hleft := takeMember_left htakes hout hmem
      obtain ⟨h1, h2, h3, h4, h5, h6⟩ := packOfOne_says (g.send (.memberAck g.pos msg.epoch))
      refine leaves_on (gives_of_atHub rfl hup (takeMember_running (by rw [hleft, h6]; exact hmode))) fun q hq hqmem => ?_
      rw [hq, hleft]
      exact ⟨h1, h2, h3, h4, h5, hqmem⟩
  case refine_8 =>
    intro hassigned hnext hrun hmode
    have hstale := takeMember_stale hassigned hnext hrun
    obtain ⟨h1, h2, h3, h4, h5⟩ := stale_says g
    refine leaves_on (gives_of_atHub rfl hup (takeMember_running (by rw [hstale, h5]; exact hmode))) fun q hq hqmem => ?_
    rw [hq, hstale]
    exact ⟨h1, h2, h3, h4, hqmem⟩
  case refine_9 =>
    intro hno hmode
    have hnone : (s.pack.g k).takeMember msg = s.pack.g k := takeMember_none hno
    refine ⟨_, gives_of_atHub rfl hup (takeMember_running (by rw [hnone]; exact hmode)), fun j => ?_, rfl⟩
    by_cases hj : j = k
    · rw [hj, Pack.on_g_self, hnone]
    · exact Pack.on_g_ne _ _ hj
  case refine_10 => exact fun hseen => gives_of_atHub rfl hup (takePortDown_seen hseen)
  case refine_11 =>
    intro hassigned hnew hac ha hc
    refine leaves_on (gives_of_atHub rfl hup (takePortDown_new hassigned hnew hac ha hc)) fun q hq hmem => ?_
    rw [hq]
    obtain ⟨h1, h2⟩ := seesDown_says (b := b) (d := d) (s.pack.g k) hac
    exact ⟨h1, h2, rfl, rfl, rfl, hmem⟩
  case refine_12 =>
    intro hassigned hmember hother hnew hrun
    have hloses : (s.pack.g k).Loses p := ⟨hassigned, hmember, hother, hnew, hrun⟩
    exact ⟨fun hleads hlead hlpos => gives_of_atHub rfl hup (declareLost_held hloses hleads hlead hlpos),
      fun hleads hpart hcommit hrev hrlim hauto hhalt => leaves_reverting hup hloses hleads hpart hcommit hrev hrlim hauto hhalt,
      fun hleads hpart hrev => leaves_restarted hup hloses hleads hpart hrev, fun hleads hpart => leaves_halted hup hloses hleads hpart⟩
  case refine_13 =>
    intro hne
    exact gives_of_atHub rfl hup (Pack.on_congr (if_pos hne))
  case refine_14 =>
    intro hleads hp hrun
    refine leaves_hubPkg hup rfl fun q hq hmem => ?_
    rw [hq]
    obtain ⟨h1, h2⟩ := leadClaim_conflict (s.pack.g k) hleads hp hrun
    exact ⟨h1, h2, hmem⟩
  case refine_15 =>
    intro hfollows hassigned hmember hrun hp
    refine ⟨fun hlower => ?_, fun hlower => ?_⟩
    · refine leaves_hubPkg hup rfl fun q hq hmem => ?_
      rw [hq, leadClaim_taken hfollows hassigned hmember hrun hlower]
      exact ⟨(Pkg.rf_wf_same _ _ (by decide) (by decide)).trans (Nat.mod_eq_of_lt hp), fun r hr => Pkg.wr_rd_ne _ _ hr, hmem⟩
    · refine ⟨_, gives_of_atHub rfl hup rfl, fun j => ?_, rfl⟩
      by_cases hj : j = k
      · rw [hj, Pack.on_g_self]
        exact leadClaim_early hfollows hlower
      · exact Pack.on_g_ne _ _ hj
  case refine_16 =>
    intro hassigned hlost hrun
    refine leaves_hubPkg hup rfl fun q hq hmem => ?_
    obtain ⟨h1, h2, h3⟩ := partition_says (s.pack.g k) hrun
    have htimeout : (s.pack.g k).partitionTimeout = (s.pack.g k).partition := if_pos ⟨hassigned, hlost⟩
    rw [← htimeout, ← hq] at h1 h2 h3
    exact ⟨h1, h2, h3, hmem⟩
  case refine_17 =>
    intro hkept
    refine ⟨_, gives_of_atHub rfl hup rfl, fun j => ?_, rfl⟩
    by_cases hj : j = k
    · rw [hj, Pack.on_g_self]
      exact if_neg (fun hlost => Bool.false_ne_true (hkept.symm.trans hlost.2))
    · exact Pack.on_g_ne _ _ hj

end Sys2Proof.Machine
end

section
/-! PROOFS. Records and marks at a quiet Thresher; O37 -/

namespace Sys2Proof.Machine

/-! ## A Thresher with nothing to look at again -/

section
variable {s : Pack} {k : Nat}

/-- What a Thresher's second look leaves where it takes nothing: the package itself, the memory and what is on the wires. -/
structure Pack.Still (p q : Pack) (k : Nat) : Prop where
  self : q.g k = p.g k
  others : ∀ j, j ≠ k → q.g j = p.g j
  mem : q.mem = p.mem
  wire : q.wire = p.wire

theorem still_on {f : Pkg → Pkg} (h : f (s.g k) = s.g k) : s.Still (s.on k f) k :=
  ⟨(Pack.on_g_self ..).trans h, fun _ hj => Pack.on_g_ne _ _ hj, rfl, rfl⟩

theorem Pack.Still.trans {p q r : Pack} (h : p.Still q k) (h' : q.Still r k) : p.Still r k :=
  ⟨h'.self.trans h.self, fun j hj => (h'.others j hj).trans (h.others j hj), h'.mem.trans h.mem, h'.wire.trans h.wire⟩

/-- Of a Thresher that holds no record behind its turn, no mark and no sweep, only the staged records are looked at again (R211). -/
theorem thRetry_staged (htiles : ∀ p ∈ (s.g k).tr.tiles, p.2.held = []) {q : Pack} (hstaged : s.lateRounds k ((s.g k).tr.late.length + 1) = q)
    (hmarks : (q.g k).tr.lateMarks = []) (hsweeps : ∀ j, j < 64 → (q.g k).sEn j = true → (q.g k).sweep j = false) :
    s.thRetry k = q.on k (fun g => { g with tr := { g.tr with lateMarks := [] } }) := by
  have hheld : (s.g k).tr.tiles.filter (fun p => !p.2.held.isEmpty) = [] := List.filter_eq_nil_iff.mpr fun p hp => by rw [htiles p hp]; decide
  have hnone : (List.range 64).filter (fun j => ((q.on k (fun g => { g with tr := { g.tr with lateMarks := [] } })).g k).sEn j &&
      ((q.on k (fun g => { g with tr := { g.tr with lateMarks := [] } })).g k).sweep j) = [] :=
    List.filter_eq_nil_iff.mpr fun j hj hboth => by
      rw [Pack.on_g_self] at hboth
      obtain ⟨hen, hsw⟩ := Bool.and_eq_true_iff.mp hboth
      exact Bool.false_ne_true ((hsweeps j (List.mem_range.mp hj) hen).symm.trans hsw)
  unfold Pack.thRetry
  rw [hheld, List.foldl_nil]
  show List.foldl _ ((((s.lateRounds k ((s.g k).tr.late.length + 1)).g k).tr.lateMarks).foldl _ _) _ = _
  rw [hstaged, hmarks, List.foldl_nil, hnone]
  rfl

theorem lateMarks_same {g : Pkg} (h : g.tr.lateMarks = []) : ({ g with tr := { g.tr with lateMarks := [] } } : Pkg) = g := by
  rw [show ({ g.tr with lateMarks := [] } : Thresher) = g.tr by rw [← h]]

theorem late_same {g : Pkg} (h : g.tr.late = []) : ({ g with tr := { g.tr with late := [] } } : Pkg) = g := by
  rw [show ({ g.tr with late := [] } : Thresher) = g.tr by rw [← h]]

/-- A Thresher that holds nothing takes nothing at its second look. -/
theorem thRetry_quiet (h : (s.g k).thQuiet) : s.Still (s.thRetry k) k := by
  have hlate := h.late
  have hround : s.lateRounds k ((s.g k).tr.late.length + 1) = s.on k (fun g => { g with tr := { g.tr with late := [] } }) := by
    rw [hlate, List.length_nil, Nat.zero_add, Pack.lateRounds]
    dsimp only
    rw [hlate, Pack.lateRecs, Pack.on_g_self]
    exact if_pos rfl
  have hself : (s.on k (fun g => { g with tr := { g.tr with late := [] } })).g k = s.g k := (Pack.on_g_self ..).trans (late_same hlate)
  rw [thRetry_staged h.tiles hround (by rw [hself]; exact h.marks) (by rw [hself]; exact h.sweeps)]
  exact (still_on (late_same hlate)).trans (still_on (by rw [hself]; exact lateMarks_same h.marks))

/-- A record of a later step stays staged. -/
theorem thRetry_later {x : RedRec} (hlate : (s.g k).tr.late = [x]) (htiles : ∀ p ∈ (s.g k).tr.tiles, p.2.held = []) (hmarks : (s.g k).tr.lateMarks = [])
    (hsweeps : ∀ j, j < 64 → (s.g k).sEn j = true → (s.g k).sweep j = false) (hstep : x.step ≠ (s.g k).step) (hlater : later (s.g k).step x.step = false) :
    s.Still (s.thRetry k) k := by
  have hrec : (s.on k (fun g => { g with tr := { g.tr with late := [] } })).redArrive k x [] =
      some ((s.on k (fun g => { g with tr := { g.tr with late := [] } })).on k (fun g => { g with tr := { g.tr with late := g.tr.late ++ [x] } })) := by
    unfold Pack.redArrive
    rw [Pack.on_g_self]
    exact (if_neg hstep).trans ((if_neg (by rw [show (Pkg.step { s.g k with tr := { (s.g k).tr with late := [] } }) = (s.g k).step from rfl, hlater]; decide)).trans
      (if_pos (show 0 < 4 by decide)))
  have hback : ({ s.g k with tr := { (s.g k).tr with late := [] ++ [x] } } : Pkg) = s.g k := by
    rw [List.nil_append, ← hlate]
  have hround : s.lateRounds k ((s.g k).tr.late.length + 1) = s.on k (fun g => { g with tr := { g.tr with late := [] ++ [x] } }) := by
    rw [hlate, Pack.lateRounds]
    dsimp only
    rw [hlate, Pack.lateRecs, hrec, Pack.lateRecs, Pack.on_on, Pack.on_g_self]
    exact if_pos rfl
  have hself : (s.on k (fun g => { g with tr := { g.tr with late := [] ++ [x] } })).g k = s.g k := (Pack.on_g_self ..).trans hback
  rw [thRetry_staged htiles hround (by rw [hself]; exact hmarks) (by rw [hself]; exact hsweeps)]
  exact (still_on hback).trans (still_on (by rw [hself]; exact lateMarks_same hmarks))
end

/-! ## A reduced record at its owner -/

section
variable {s : State} {k i : Nat} {w : Wire} (hup : (s.pack.g k).hubUp = true) (hw : s.pack.wire[i]? = some w) (hdst : w.dst = k)
include hup hw hdst

/-- A record that the Thresher takes leaves the wire; a collective engine whose deliveries are all done has none to count. -/
theorem leaves_reduced {x : RedRec} {p : Pack} {P : Pack → Prop} (hbody : w.body = .red x) (hout : (s.pack.g w.src).co.out = [])
    (harr : s.pack.redArrive k x [] = some p) (hstill : p.Still (p.thRetry k) k) (hco : ∀ j, (p.g j).co = (s.pack.g j).co)
    (hP : ∀ z : Pack, (z.g k).tr = (p.g k).tr → (z.g k).logSeq = (p.g k).logSeq → (z.g k).sent = (p.g k).sent → z.mem = p.mem → z.wire = p.wire.erase w → P z) :
    Leaves (.reducedRecord k i []) s P := by
  have hnone : ((p.thRetry k).g w.src).co.out = [] := by
    have hkept : ((p.thRetry k).g w.src).co = (p.g w.src).co := by
      by_cases hs : w.src = k
      · rw [hs, hstill.self]
      · rw [hstill.others _ hs]
    rw [hkept, hco, hout]
  have hgone : s.pack.reducedRecord k i [] = ({ p.thRetry k with wire := (p.thRetry k).wire.erase w } : Pack).on w.src (fun g => { g with co := { g.co with out := [] } }) := by
    unfold Pack.reducedRecord
    simp only [hw, hbody, hdst, harr]
    rw [if_neg (fun h => h rfl)]
    have hsame : ∀ f : Deliver → Deliver, ({ p.thRetry k with wire := (p.thRetry k).wire.erase w } : Pack).on w.src (fun g => { g with co := { g.co with out := g.co.out.map f } }) =
        ({ p.thRetry k with wire := (p.thRetry k).wire.erase w } : Pack).on w.src (fun g => { g with co := { g.co with out := [] } }) := fun f =>
      Pack.on_congr (by
        show ({ (p.thRetry k).g w.src with co := { ((p.thRetry k).g w.src).co with out := List.map f ((p.thRetry k).g w.src).co.out } } : Pkg) = _
        rw [hnone]
        rfl)
    rw [hsame, Pack.on_g_self]
    rfl
  refine ⟨_, gives_of_atHub rfl hup hgone, hP _ ?_ ?_ ?_ hstill.mem ?_⟩
  · exact (Pack.on_keeps (P := Pkg.tr) _ _ _ rfl).trans (congrArg Pkg.tr hstill.self)
  · exact (Pack.on_keeps (P := Pkg.logSeq) _ _ _ rfl).trans (congrArg Pkg.logSeq hstill.self)
  · exact (Pack.on_keeps (P := Pkg.sent) _ _ _ rfl).trans (congrArg Pkg.sent hstill.self)
  · exact congrArg (List.erase · w) hstill.wire
end

section
variable {g h : Pkg}

theorem rSched_quiet (j : Nat) : rSched j 0 ∉ [rErrCtl, rErrHead, rErrLost, rPins] ∨ 64 ≤ j := by
  by_cases hj : j < 64
  · refine .inl ?_
    simp [rErrCtl, rErrHead, rErrLost, rPins, rSched, hubR, rk]
    omega
  · exact .inr (by omega)

/-- A Thresher stays quiet while its records, its marks and the groups' modes stay. -/
theorem Pkg.thQuiet.of_kept (hq : g.thQuiet) (htiles : ∀ p ∈ h.tr.tiles, p.2.held = []) (hlate : h.tr.late = g.tr.late) (hmarks : h.tr.lateMarks = g.tr.lateMarks)
    (hrd : ∀ j, j < 64 → h.rd (rSched j 0) = g.rd (rSched j 0)) : h.thQuiet :=
  ⟨htiles, hlate.trans hq.late, hmarks.trans hq.marks, fun j hj hen => by
    have hkept : ∀ b, h.rb (rSched j 0) b = g.rb (rSched j 0) b := fun b => congrArg (bit · b) (hrd j hj)
    exact (hkept 28).trans (hq.sweeps j hj ((hkept 29).symm.trans hen))⟩

theorem Pkg.thQuiet.logAt (hq : g.thQuiet) (code x1 x2 x3 a0 a1 a2 : Nat) : (g.logAt code x1 x2 x3 a0 a1 a2).thQuiet := by
  have htr := Pkg.logAt_tr g code x1 x2 x3 a0 a1 a2
  exact hq.of_kept (by rw [htr]; exact hq.tiles) (by rw [htr]) (by rw [htr]) fun j hj =>
    Pkg.logAt_rd g code x1 x2 x3 a0 a1 a2 ((rSched_quiet j).resolve_right (by omega))
end

/-! ## The flags of a record -/

/-- A tensor's flags after a record (R211). -/
def Pkg.flagged (g : Pkg) (t : Nat) (sta : W32) : Pkg := (g.gSat t (bit sta 0)).gNan t (bit sta 1)

section
variable (g : Pkg) (t : Nat) (sta : W32)

theorem gSat_rd (b : Bool) {a : Nat} (h : a ≠ rTens t 0x18) : (g.gSat t b).rd a = g.rd a := by
  cases b
  · rfl
  · exact Pkg.wr_rd_ne _ _ h

theorem gNan_rd (b : Bool) {a : Nat} (h : a ≠ rTens t 0x18) : (g.gNan t b).rd a = g.rd a := by
  cases b
  · rfl
  · exact Pkg.wr_rd_ne _ _ h

theorem flagged_rd {a : Nat} (h : a ≠ rTens t 0x18) : (g.flagged t sta).rd a = g.rd a := (gNan_rd _ t _ h).trans (gSat_rd g t _ h)

/-- Only two low bits of a tensor's status word change. -/
theorem flagged_high (a : Nat) {hi lo : Nat} (h : 2 ≤ lo) : (g.flagged t sta).rf a hi lo = g.rf a hi lo := by
  by_cases ha : a = rTens t 0x18
  · subst ha
    have hsat : (g.gSat t (bit sta 0)).rf (rTens t 0x18) hi lo = g.rf (rTens t 0x18) hi lo := by
      cases bit sta 0
      · rfl
      · show fld ((g.wb (rTens t 0x18) 1 true).rd _) hi lo = _
        rw [Pkg.rd_wb, if_pos rfl, fld_setB_apart _ _ (by decide) (.inr (by omega))]
        rfl
    refine Eq.trans ?_ hsat
    unfold Pkg.flagged
    cases bit sta 1
    · rfl
    · show fld (((g.gSat t (bit sta 0)).wb (rTens t 0x18) 0 true).rd _) hi lo = _
      rw [Pkg.rd_wb, if_pos rfl, fld_setB_apart _ _ (by decide) (.inr (by omega))]
      rfl
  · rw [Pkg.rf, flagged_rd g t sta ha, Pkg.rf]

theorem flagged_tr : (g.flagged t sta).tr.tiles = g.tr.tiles ∧ (g.flagged t sta).tr.shards = g.tr.shards ∧ (g.flagged t sta).tr.late = g.tr.late ∧
    (g.flagged t sta).tr.lateMarks = g.tr.lateMarks ∧ (g.flagged t sta).co = g.co := by
  unfold Pkg.flagged Pkg.gSat Pkg.gNan
  cases bit sta 0 <;> cases bit sta 1 <;> exact ⟨rfl, rfl, rfl, rfl, rfl⟩

theorem flagged_tens (t' : Nat) {o : Nat} (ho : o % 0x20 ≠ 0x18) : (g.flagged t sta).rd (rTens t' o) = g.rd (rTens t' o) :=
  flagged_rd g t sta (by simp only [rTens, hubR, rk]; omega)

theorem flagged_sched {j o : Nat} (h : 0x80 * j + o < 0x76000) : (g.flagged t sta).rd (rSched j o) = g.rd (rSched j o) :=
  flagged_rd g t sta (by simp only [rTens, rSched, hubR, rk]; omega)

theorem flagged_fields (t' : Nat) {o : Nat} (ho : o % 0x20 ≠ 0x18) (hi lo : Nat) : (g.flagged t sta).rf (rTens t' o) hi lo = g.rf (rTens t' o) hi lo :=
  congrArg (fld · hi lo) (flagged_tens g t sta t' ho)

theorem flagged_own (e hi lo : Nat) : (g.flagged t sta).rf (rOwn e 4) hi lo = g.rf (rOwn e 4) hi lo :=
  congrArg (fld · hi lo) (flagged_rd g t sta (by simp only [rTens, rOwn, hubR, rk]; omega))

theorem tGroup_lt (t' : Nat) : g.tGroup t' < 64 := by
  rw [Pkg.tGroup, Pkg.rf, fld_eq]
  exact Nat.mod_lt _ (by decide)

/-- The flags are no part of where a tensor's planes lie. -/
theorem flagged_areas : (g.flagged t sta).planeLoc = g.planeLoc ∧ (g.flagged t sta).digLoc = g.digLoc ∧ (g.flagged t sta).ringLoc = g.ringLoc ∧
    (g.flagged t sta).rowOff = g.rowOff ∧ (g.flagged t sta).plAcc = g.plAcc := by
  have hf := flagged_fields g t sta
  have hgroup : ∀ t', (g.flagged t sta).tGroup t' = g.tGroup t' := fun t' => hf t' (by decide) _ _
  have hcols : ∀ t', (g.flagged t sta).cols32 t' = g.cols32 t' := fun t' => hf t' (by decide) _ _
  have hshr : ∀ t', (g.flagged t sta).shr32 t' = g.shr32 t' := fun t' => hf t' (by decide) _ _
  have hrows : ∀ t', (g.flagged t sta).rows32 t' = g.rows32 t' := fun t' => hf t' (by decide) _ _
  have hown0 : ∀ t', (g.flagged t sta).own0 t' = g.own0 t' := fun t' => hf t' (by decide) _ _
  have hnver : ∀ t', (g.flagged t sta).nver t' = g.nver t' := fun t' => congrArg (· + 1) (hf t' (by decide) _ _)
  have hkacc : ∀ t', (g.flagged t sta).kacc t' = g.kacc t' := fun t' => congrArg (· + 1) (hf t' (by decide) _ _)
  have hgrp : ∀ t', (g.flagged t sta).rd (rSched (g.tGroup t') 0) = g.rd (rSched (g.tGroup t') 0) := fun t' =>
    flagged_sched g t sta (by have := tGroup_lt g t'; omega)
  have hmoments : ∀ t', (g.flagged t sta).moments t' = g.moments t' := fun t' => by
    unfold Pkg.moments Pkg.rule Pkg.rf
    rw [hgroup, hgrp]
  have hacc : ∀ t', (g.flagged t sta).hasAcc t' = g.hasAcc t' := fun t' => by
    unfold Pkg.hasAcc Pkg.sweep Pkg.rb
    rw [hkacc, hgroup, hgrp]
  have hplAcc : ∀ t', (g.flagged t sta).plAcc t' = g.plAcc t' := fun t' => by rw [Pkg.plAcc, hnver, hmoments, Pkg.plAcc]
  have hplanes : ∀ t', (g.flagged t sta).planes t' = g.planes t' := fun t' => by rw [Pkg.planes, hplAcc, hacc, Pkg.planes]
  have hbytes : ∀ t', (g.flagged t sta).planeBytes t' = g.planeBytes t' := fun t' => by
    rw [Pkg.planeBytes, Pkg.shardLen, hshr, hcols, Pkg.planeBytes, Pkg.shardLen]
  have howner : ∀ t' n r, (g.flagged t sta).ownerOf t' n r = g.ownerOf t' n r := fun t' n r => by
    rw [Pkg.ownerOf, Pkg.nsh, hown0, hrows, hshr, Pkg.ownerOf, Pkg.nsh]
  have hbase : ∀ e, (g.flagged t sta).ownBase e = g.ownBase e := fun e => by
    rw [Pkg.ownBase, flagged_own, flagged_high _ _ _ _ (by decide), Pkg.ownBase]
  have hplane : (g.flagged t sta).planeLoc = g.planeLoc := by
    funext k t' n r plane o
    rw [Pkg.planeLoc, howner, hbytes, hbase, Pkg.ownStack, flagged_own, Pkg.planeLoc, Pkg.ownStack]
  refine ⟨hplane, ?_, ?_, ?_, funext hplAcc⟩
  · funext k t' n r plane b
    rw [Pkg.digLoc, hplane, hplanes, Pkg.planeBlocks, hbytes, Pkg.digLoc, Pkg.planeBlocks]
  · funext l
    have hbase' : (g.flagged t sta).qBase l.site (l.off / 2 ^ 21) = g.qBase l.site (l.off / 2 ^ 21) := by
      rw [Pkg.qBase, Pkg.qBase]
      exact rd64_of_rd (flagged_rd g t sta (by simp only [rTens, rQ, hubR, rk]; omega)) (flagged_rd g t sta (by simp only [rTens, rQ, hubR, rk]; omega))
    unfold Pkg.ringLoc
    dsimp only
    rw [hbase']
  · funext t' n row col i
    rw [Pkg.rowOff, hshr, hcols, Pkg.rowOff]

theorem sameAreas_flagged {s : Pack} {k : Nat} : s.SameAreas (s.on k (fun g => g.flagged t sta)) := by
  obtain ⟨hplane, hdig, hring, hrow, -⟩ := flagged_areas (s.g k) t sta
  exact ⟨rfl, fun j => Pack.on_keeps (P := Pkg.planeLoc) s k j hplane, fun j => Pack.on_keeps (P := Pkg.digLoc) s k j hdig,
    fun j => Pack.on_keeps (P := Pkg.ringLoc) s k j hring, fun j => Pack.on_keeps (P := Pkg.rowOff) s k j hrow⟩
end

/-! ## The first record of a tile -/

theorem store_frame (s : Pack) (l : Loc) (bs : List Byte) : ((s.store l bs).pkgs, (s.store l bs).wire) = (s.pkgs, s.wire) := rfl

theorem wrPlaneTile_frame (s : Pack) (k t n r plane row col : Nat) (cs : List Nat) :
    (s.wrPlaneTile k t n r plane row col cs).pkgs = s.pkgs ∧ (s.wrPlaneTile k t n r plane row col cs).wire = s.wire := by
  have h : ((s.wrPlaneTile k t n r plane row col cs).pkgs, (s.wrPlaneTile k t n r plane row col cs).wire) = (s.pkgs, s.wire) := by
    unfold Pack.wrPlaneTile
    dsimp only
    refine (foldl_keeps (P := fun s : Pack => (s.pkgs, s.wire)) (fun s b => ?_) _ _).trans (foldl_keeps (P := fun s : Pack => (s.pkgs, s.wire)) (fun s b => ?_) _ _)
    · exact store_frame ..
    · exact store_frame ..
  exact Prod.mk.inj h

theorem wrPlaneTile_g (s : Pack) (k t n r plane row col : Nat) (cs : List Nat) (j : Nat) : (s.wrPlaneTile k t n r plane row col cs).g j = s.g j := by
  rw [Pack.g, (wrPlaneTile_frame ..).1, Pack.g]

/-- No held record's turn comes at a tile that holds none. -/
theorem takeHeld_none {s : Pack} {k t n r row col : Nat} (h : ((s.g k).tileSt t row col).held = []) (f : Nat) : Pack.takeHeld k t n r row col f s = s := by
  cases f with
  | zero => rfl
  | succ f =>
    unfold Pack.takeHeld
    dsimp only
    rw [h]
    split <;> rfl

/-- A tile that counts one record more (R197). -/
def Pkg.tileCounts (g : Pkg) (t row col ord n : Nat) : Pkg :=
  g.setTileSt t row col { g.tileSt t row col with next := ord + 1, cnt := (g.tileSt t row col).cnt + n }

section
variable {s : Pack} {k n r : Nat} {x : RedRec} (hn : (s.g k).shardOf x.tensor x.row = n) (hmy : (s.g k).myRep x.tensor n = some r)
  (hen : (s.g k).tEn x.tensor = true) (hupd : (s.g k).tUpd x.tensor = true) (hstop : ((s.g k).shardSt x.tensor n).stop = false)
  (hkacc : 2 ≤ (s.g k).kacc x.tensor)
include hn hmy hen hupd hstop hkacc

/-- A record whose ordinal the tile has already taken stops the shard (R211). -/
theorem takeRed_again (hord : x.ord < ((s.g k).tileSt x.tensor x.row x.col).next) : s.takeRed k x [] =
    some (s.on k (fun g => (g.logAt 0x0214 (48 + g.ownStack (g.ownerOf x.tensor n r)) 0xFF 0xFF x.tensor (x.row * 65536 + x.col) x.ord).stopShard x.tensor n 0x0214)) := by
  have hone : ¬ (s.g k).kacc x.tensor = 1 := by omega
  unfold Pack.takeRed
  simp only [hn, hmy, hen, hupd, hstop, Bool.and_self, Bool.not_true, Bool.false_eq_true, if_false, if_neg hone]
  rw [if_pos (by simp [hord])]

/-- The first record of a tile is copied into the accumulation slot and counted (R197). -/
theorem takeRed_first (hdone : ((s.g k).tileSt x.tensor x.row x.col).done = false) (hord : x.ord = 0) (hnext : ((s.g k).tileSt x.tensor x.row x.col).next = 0)
    (hheld : ((s.g k).tileSt x.tensor x.row x.col).held = []) (hchk : crc32c (redBytes x) = x.chk) (hon : (s.g k).ownerOn x.tensor n r) : s.takeRed k x [] =
    some (((s.on k (fun g => g.flagged x.tensor x.sta)).wrPlaneTile k x.tensor n r ((s.g k).plAcc x.tensor) x.row x.col x.data).on k
      (fun g => g.tileCounts x.tensor x.row x.col 0 x.n)) := by
  have hone : ¬ (s.g k).kacc x.tensor = 1 := by omega
  have hfree : s.mustWait k x.tensor n 0 = false := by
    unfold Pack.mustWait
    dsimp only
    rw [decide_eq_false (by omega : ¬ (s.g k).kacc x.tensor ≤ 0 + 1), Bool.and_false, Bool.false_and]
  have hreads : (s.shardReads k x.tensor n r []).on k (fun g => (g.gSat x.tensor (bit x.sta 0)).gNan x.tensor (bit x.sta 1)) = s.on k (fun g => g.flagged x.tensor x.sta) := by
    show (s.on k (fun g => g.shardGated x.tensor n r)).on k _ = _
    rw [Pack.on_on]
    exact Pack.on_congr (congrArg (fun g : Pkg => g.flagged x.tensor x.sta) (if_pos hon : (s.g k).shardGated x.tensor n r = s.g k))
  obtain ⟨htiles, hshards, -, -, -⟩ := flagged_tr (s.g k) x.tensor x.sta
  have hstill : (((s.g k).flagged x.tensor x.sta).shardSt x.tensor n).stop = false := by
    rw [Pkg.shardSt, hshards]
    exact hstop
  have hkacc' : ((s.g k).flagged x.tensor x.sta).kacc x.tensor = (s.g k).kacc x.tensor := congrArg (· + 1) (flagged_fields (s.g k) x.tensor x.sta x.tensor (by decide) _ _)
  obtain ⟨-, -, -, -, hplAcc⟩ := flagged_areas (s.g k) x.tensor x.sta
  have htaken : (s.on k (fun g => g.flagged x.tensor x.sta)).takeRec k x.tensor n r x.row x.col 0 x.data x.n =
      ((s.on k (fun g => g.flagged x.tensor x.sta)).wrPlaneTile k x.tensor n r ((s.g k).plAcc x.tensor) x.row x.col x.data).on k
        (fun g => g.tileCounts x.tensor x.row x.col 0 x.n) := by
    unfold Pack.takeRec Pack.slotAdd
    dsimp only
    rw [Pack.on_g_self, hkacc', hplAcc, decide_eq_false hone, Bool.false_and, if_neg Bool.false_ne_true, if_pos rfl, if_neg (by omega)]
    rfl
  unfold Pack.takeRed
  simp only [hn, hmy, hen, hupd, hstop, Bool.and_self, Bool.not_true, Bool.false_eq_true, if_false, if_neg hone, hord, hdone, hnext, hheld, hchk, hfree,
    List.any_nil, Nat.lt_irrefl, decide_false, decide_true, Bool.or_self, Bool.not_false, Bool.true_and, Bool.false_and, if_true, ne_eq, not_true_eq_false, hreads,
    Pack.on_g_self, hstill, htaken]
  refine congrArg some (takeHeld_none ?_ 64)
  rw [Pack.on_g_self, wrPlaneTile_g, Pack.on_g_self]
  refine (congrArg TileSt.held (mget_mins_self ..)).trans ?_
  rw [Pkg.tileSt, htiles]
  exact hheld
end

/-! ## An end-of-step mark -/

theorem finishTile_done {s : Pack} {k t n r row col : Nat} (h : ((s.g k).tileSt t row col).done = true) (f : Nat) : Pack.finishTile k t n r row col f s = s := by
  cases f with
  | zero => rfl
  | succ f =>
    unfold Pack.finishTile
    dsimp only
    rw [h]
    rfl

theorem finishTiles_done {s : Pack} {k t n r : Nat} {l : List (Nat × Nat)} (h : ∀ c ∈ l, ((s.g k).tileSt t c.1 c.2).done = true) :
    l.foldl (fun s p => Pack.finishTile k t n r p.1 p.2 64 s) s = s := by
  induction l with
  | nil => rfl
  | cons c l ih =>
    rw [List.foldl_cons, finishTile_done (h c List.mem_cons_self)]
    exact ih fun c hc => h c (List.mem_cons_of_mem _ hc)

theorem sendDigests_wire (s : Pack) (k t n : Nat) : (s.sendDigests k t n).wire = s.wire := by
  unfold Pack.sendDigests
  dsimp only
  split
  · rfl
  · split <;> rfl

/-- A shard has its mark (R208). -/
def Pkg.eosMarked (g : Pkg) (t n : Nat) : Pkg := g.setShard t n { g.shardSt t n with mark := true }

section
variable {s : Pack} {k n r : Nat} {e : EosMark}

/-- The mark completes the shard of its root whose tiles are done, and the digests of a further replica go out. -/
theorem takeEos_completes (hen : (s.g k).tEn e.tensor = true) (hshards : (s.g k).myShards e.tensor = [n]) (hmy : (s.g k).myRep e.tensor n = some r)
    (hroot : (s.g k).rootOf e.tensor n = e.root) (hmark : ((s.g k).shardSt e.tensor n).mark = false) (hon : (s.g k).ownerOn e.tensor n r)
    (hdone : ∀ c ∈ (s.g k).shardTiles e.tensor n, ((s.g k).tileSt e.tensor c.1 c.2).done = true) : s.takeEos k e [] =
      (s.on k (fun g => (g.shardGated e.tensor n r).eosMarked e.tensor n)).sendDigests k e.tensor n := by
  have hall : (((s.g k).shardTiles e.tensor n).any fun p => !((s.g k).tileSt e.tensor p.1 p.2).done) = false :=
    List.any_eq_false.mpr fun c hc => by rw [hdone c hc]; decide
  have hsame : (s.g k).shardGated e.tensor n r = s.g k := if_pos hon
  have htiles : ((s.g k).shardTiles e.tensor n).foldl (fun s p => Pack.finishTile k e.tensor n r p.1 p.2 64 s) (s.on k (fun g => g.shardGated e.tensor n r)) =
      s.on k (fun g => g.shardGated e.tensor n r) :=
    finishTiles_done fun c hc => by
      rw [Pack.on_g_self, hsame]
      exact hdone c hc
  unfold Pack.takeEos
  simp only [hen, hshards, hmy, hroot, hmark, hall, Bool.not_true, Bool.false_eq_true, if_false, List.foldl_cons, List.foldl_nil, Bool.and_false, ne_eq,
    not_true_eq_false, or_self]
  show ((((s.g k).shardTiles e.tensor n).foldl (fun s p => Pack.finishTile k e.tensor n r p.1 p.2 64 s) (s.on k (fun g => g.shardGated e.tensor n r))).on k
    (fun g => g.eosMarked e.tensor n)).sendDigests k e.tensor n = _
  rw [htiles, Pack.on_on]
end

theorem eosMark_arrives {s : Pack} {k i : Nat} {w : Wire} {e : EosMark} (hw : s.wire[i]? = some w) (hdst : w.dst = k) (hbody : w.body = .eos e) :
    s.eosMark k i [] = ({ s with wire := s.wire.erase w } : Pack).eosArrive k e [] := by
  unfold Pack.eosMark
  simp only [hw, hbody]
  exact if_pos hdst

/-- What the first record leaves of a package: its tile counts it, the Thresher is quiet still. -/
theorem first_says {s : Pack} {k n r plane : Nat} {x : RedRec} (hquiet : (s.g k).thQuiet) (hheld : ((s.g k).tileSt x.tensor x.row x.col).held = []) :
    let p := ((s.on k (fun g => g.flagged x.tensor x.sta)).wrPlaneTile k x.tensor n r plane x.row x.col x.data).on k (fun g => g.tileCounts x.tensor x.row x.col 0 x.n)
    (p.g k).tileSt x.tensor x.row x.col = { (s.g k).tileSt x.tensor x.row x.col with next := 1, cnt := ((s.g k).tileSt x.tensor x.row x.col).cnt + x.n } ∧
    (p.g k).thQuiet ∧ ∀ j, (p.g j).co = (s.g j).co := by
  intro p
  obtain ⟨htiles, -, hlate, hmarks, hco⟩ := flagged_tr (s.g k) x.tensor x.sta
  have hself : p.g k = ((s.g k).flagged x.tensor x.sta).tileCounts x.tensor x.row x.col 0 x.n := by
    rw [Pack.on_g_self, wrPlaneTile_g, Pack.on_g_self]
  have htile : ((s.g k).flagged x.tensor x.sta).tileSt x.tensor x.row x.col = (s.g k).tileSt x.tensor x.row x.col := by
    rw [Pkg.tileSt, htiles, Pkg.tileSt]
  refine ⟨?_, ?_, fun j => ?_⟩
  · rw [hself]
    refine (mget_mins_self ..).trans ?_
    rw [htile]
  · rw [hself]
    refine hquiet.of_kept (fun q hq => ?_) hlate hmarks fun j hj => flagged_sched (s.g k) x.tensor x.sta (by omega)
    rcases mem_mins_entry hq with rfl | hold
    · show (((s.g k).flagged x.tensor x.sta).tileSt x.tensor x.row x.col).held = []
      rw [htile, hheld]
    · rw [htiles] at hold
      exact hquiet.tiles q hold
  · refine (Pack.on_keeps (P := Pkg.co) _ k j rfl).trans ?_
    rw [wrPlaneTile_g]
    exact Pack.on_keeps (P := Pkg.co) s k j hco

/-- What a record whose ordinal has been taken leaves: the shard stopped, a log entry and the request of a revert. -/
theorem again_says {g : Pkg} {t n : Nat} (hquiet : g.thQuiet) (code site a0 a1 a2 : Nat) :
    let h := (g.logAt code site 0xFF 0xFF a0 a1 a2).stopShard t n 0x0214
    (h.shardSt t n).stop = true ∧ h.logSeq = g.logSeq + 1 ∧ h.sent.head? = some (.revertReq g.pos 0x0214) ∧ h.tr.tiles = g.tr.tiles ∧ h.thQuiet := by
  intro h
  have htr := Pkg.logAt_tr g code site 0xFF 0xFF a0 a1 a2
  have hpos : (g.logAt code site 0xFF 0xFF a0 a1 a2).pos = g.pos :=
    congrArg (fld · 5 0) (g.logAt_rd code site 0xFF 0xFF a0 a1 a2 (by decide))
  have hlogged := hquiet.logAt code site 0xFF 0xFF a0 a1 a2
  refine ⟨congrArg ShardSt.stop (mget_mins_self ..), Pkg.logAt_logSeq .., ?_, (congrArg Thresher.tiles htr :), hlogged.of_kept hlogged.tiles rfl rfl fun _ _ => rfl⟩
  show some (Msg.revertReq (g.logAt code site 0xFF 0xFF a0 a1 a2).pos 0x0214) = _
  rw [hpos]

/-- Settles O37: a record or a mark of an earlier step, of a later one, and of the running step, at a Thresher that holds nothing else. -/
theorem thresherArrivals : Obligations.ThresherArrivals := by
  unfold Obligations.ThresherArrivals
  intro s k i n r w g hup hw hdst hquiet
  refine ⟨fun x hbody hout => ⟨fun hstep hlater => ?_, fun hstep hlater => ?_, fun hstep hn hmy hen hupd hstop hkacc hdone => ⟨?_, ?_⟩⟩,
    fun e hbody => ⟨fun hstep hlater => ?_, fun hstep hlater => ?_, fun hstep hen hshards hmy hroot hmark hon hdone => ?_⟩⟩
  · have harr : s.pack.redArrive k x [] = some (s.pack.on k (fun g => g.logHub 0x010D (g.tGroup x.tensor) x.step x.root)) :=
      (if_neg hstep).trans (if_pos hlater)
    refine leaves_reduced hup hw hdst hbody hout harr (thRetry_quiet (by rw [Pack.on_g_self]; exact hquiet.logAt ..))
      (fun j => Pack.on_keeps (P := Pkg.co) s.pack k j (Pkg.logAt_co ..)) fun z htr hseq _ hmem hwire => ⟨hwire, htr.trans ?_, hseq.trans ?_, hmem⟩
    · rw [Pack.on_g_self]
      exact Pkg.logAt_tr ..
    · rw [Pack.on_g_self]
      exact Pkg.logAt_logSeq ..
  · have hlate : g.tr.late = [] := hquiet.late
    have harr : s.pack.redArrive k x [] = some (s.pack.on k (fun g => { g with tr := { g.tr with late := g.tr.late ++ [x] } })) :=
      (if_neg hstep).trans ((if_neg (by rw [hlater]; decide)).trans (if_pos (by rw [hlate]; exact (by decide : 0 < 4))))
    have hself : (s.pack.on k (fun g => { g with tr := { g.tr with late := g.tr.late ++ [x] } })).g k = { g with tr := { g.tr with late := [x] } } := by
      rw [Pack.on_g_self, hlate]
      rfl
    refine leaves_reduced hup hw hdst hbody hout harr (thRetry_later (x := x) (by rw [hself]) (by rw [hself]; exact hquiet.tiles) (by rw [hself]; exact hquiet.marks)
      (by rw [hself]; exact hquiet.sweeps) (by rw [hself]; exact hstep) (by rw [hself]; exact hlater))
      (fun j => Pack.on_keeps (P := Pkg.co) s.pack k j rfl) fun z htr _ _ hmem hwire => ⟨hwire, htr.trans (by rw [hself]), hmem⟩
  · intro hord hnext hheld hchk hon
    have harr : s.pack.redArrive k x [] = some _ := (if_pos hstep).trans (takeRed_first hn hmy hen hupd hstop hkacc hdone hord hnext hheld hchk hon)
    obtain ⟨htile, hquiet', hco⟩ := first_says (s := s.pack) (n := n) (r := r) (plane := g.plAcc x.tensor) hquiet hheld
    refine leaves_reduced hup hw hdst hbody hout harr (thRetry_quiet hquiet') hco fun z htr _ _ hmem hwire => ⟨?_, hmem.trans ?_, hwire.trans ?_⟩
    · refine (congrArg (fun tr : Thresher => mget ({} : TileSt) tr.tiles (tileKey x.tensor x.row x.col)) htr).trans htile
    · exact (wrPlaneTile_sameAreas (sameAreas_flagged x.tensor x.sta) ..).mem
    · exact congrArg (List.erase · w) (wrPlaneTile_frame ..).2
  · intro hord
    have harr : s.pack.redArrive k x [] = some _ := (if_pos hstep).trans (takeRed_again hn hmy hen hupd hstop hkacc hord)
    have hself := Pack.on_g_self s.pack k (fun g => (g.logAt 0x0214 (48 + g.ownStack (g.ownerOf x.tensor n r)) 0xFF 0xFF x.tensor (x.row * 65536 + x.col) x.ord).stopShard x.tensor n 0x0214)
    obtain ⟨hshard, hseq', hsent', htiles', hquiet'⟩ := again_says (t := x.tensor) (n := n) hquiet 0x0214 (48 + g.ownStack (g.ownerOf x.tensor n r)) x.tensor (x.row * 65536 + x.col) x.ord
    refine leaves_reduced hup hw hdst hbody hout harr (thRetry_quiet (by rw [hself]; exact hquiet'))
      (fun j => Pack.on_keeps (P := Pkg.co) s.pack k j (Pkg.logAt_co ..)) fun z htr hseq hsent hmem _ => ⟨?_, ?_, ?_, ?_, hmem⟩
    · refine (congrArg (fun tr : Thresher => (mget ({} : ShardSt) tr.shards (shardKey x.tensor n)).stop) htr).trans ?_
      rw [hself]
      exact hshard
    · rw [hseq, hself, hseq']
    · rw [hsent, hself, hsent']
    · rw [htr, hself, htiles']
  · refine ⟨_, gives_of_atHub rfl hup ((eosMark_arrives hw hdst hbody).trans ((if_neg hstep).trans (if_pos hlater))), rfl, ?_, ?_, rfl⟩
    · rw [Pack.on_g_self]
      exact Pkg.logAt_tr ..
    · rw [Pack.on_g_self]
      exact Pkg.logAt_logSeq ..
  · refine ⟨_, gives_of_atHub rfl hup ((eosMark_arrives hw hdst hbody).trans ((if_neg hstep).trans (if_neg (by
      show ¬ later (s.pack.g k).step e.step = true
      rw [hlater]; decide)))), rfl, ?_, rfl⟩
    rw [Pack.on_g_self]
    rfl
  · refine ⟨_, gives_of_atHub rfl hup ((eosMark_arrives hw hdst hbody).trans ((if_pos hstep).trans (takeEos_completes hen hshards hmy hroot hmark hon hdone))), ?_, ?_, ?_⟩
    · rw [sendDigests_keeps, Pack.on_g_self]
      refine (mget_mins_self ..).trans ?_
      rw [show (Pack.g { s.pack with wire := s.pack.wire.erase w } k).shardGated e.tensor n r = s.pack.g k from if_pos hon]
    · rw [sendDigests_wire]
      rfl
    · rw [Pack.sendDigests_mem]
      rfl

end Sys2Proof.Machine
end

section
/-! PROOFS. The requests, tiles and ends of a gather; O39 -/

namespace Sys2Proof.Machine

/-! ## What decides whether a Thresher has anything to look at again -/

/-- The Thresher's records and the modes of the optimiser groups. -/
def Pkg.thCore (g : Pkg) : Thresher × (Fin 64 → W32) := (g.tr, fun j => g.rd (rSched j.val 0))

theorem quiet_of_thCore {g h : Pkg} (hcore : h.thCore = g.thCore) (hq : g.thQuiet) : h.thQuiet := by
  obtain ⟨htr, hrd⟩ := Prod.mk.inj hcore
  exact hq.of_kept (by rw [htr]; exact hq.tiles) (by rw [htr]) (by rw [htr]) fun j hj => congrFun hrd ⟨j, hj⟩

theorem thCore_logAt (g : Pkg) (code x1 x2 x3 a0 a1 a2 : Nat) : (g.logAt code x1 x2 x3 a0 a1 a2).thCore = g.thCore :=
  Prod.ext (Pkg.logAt_tr ..) (funext fun j => Pkg.logAt_rd g code x1 x2 x3 a0 a1 a2 ((rSched_quiet j.val).resolve_right (Nat.not_le.mpr j.isLt)))

theorem thCore_wr (g : Pkg) {a : Nat} (v : W32) (h : ∀ j, j < 64 → rSched j 0 ≠ a) : (g.wr a v).thCore = g.thCore :=
  Prod.ext rfl (funext fun j => Pkg.wr_rd_ne _ _ (h j.val j.isLt))

theorem slot_lt (d : Tile) : d.slot < 2048 := by
  rw [Tile.slot, fld64]
  exact Nat.mod_lt _ (by decide)

theorem thCore_recordAmax (g : Pkg) (site : Nat) (d : Tile) (vs : List Val) : (g.recordAmax site d.slot false vs).thCore = g.thCore := by
  have hne : ∀ j, j < 64 → rSched j 0 ≠ rScale site d.slot 8 := fun j hj => by
    have := slot_lt d
    simp only [rSched, rScale, hubR, rk]
    omega
  unfold Pkg.recordAmax
  split
  · rfl
  · exact (thCore_wr _ _ hne).trans (thCore_wr _ _ hne)

/-- What a gather's own steps leave of a package: the Thresher, its operations, its collectives. -/
def Pkg.gatherPart (g : Pkg) : (Thresher × (Fin 64 → W32)) × List OpRec × Colls := (g.thCore, g.eops, g.co)

theorem gatherPart_engErr (g : Pkg) (site unit kind addr : Nat) : (g.engErr site unit kind addr).gatherPart = g.gatherPart :=
  Prod.ext (thCore_logAt ..) (Prod.ext (Pkg.logAt_eops ..) (Pkg.logAt_co ..))

theorem gatherPart_recordAmax (g : Pkg) (site : Nat) (d : Tile) (vs : List Val) : (g.recordAmax site d.slot false vs).gatherPart = g.gatherPart := by
  refine Prod.ext (thCore_recordAmax ..) ?_
  unfold Pkg.recordAmax
  split <;> rfl

/-- The parts of all packages. -/
def Pack.gatherParts (s : Pack) (j : Nat) : (Thresher × (Fin 64 → W32)) × List OpRec × Colls := (s.g j).gatherPart

theorem gatherParts_on {s : Pack} {k : Nat} {f : Pkg → Pkg} (h : (f (s.g k)).gatherPart = (s.g k).gatherPart) : (s.on k f).gatherParts = s.gatherParts :=
  funext fun j => Pack.on_keeps (P := Pkg.gatherPart) s k j h

theorem gatherParts_wrOut (s : Pack) (t : Tid) (a : Nat) (bs : List Byte) : (s.wrOut t a bs).gatherParts = s.gatherParts := by
  unfold Pack.wrOut
  split
  · split
    · exact gatherParts_on (gatherPart_engErr ..)
    · rfl
  · exact gatherParts_on (gatherPart_engErr ..)

theorem gatherParts_wrView (s : Pack) (t : Tid) (d : Tile) (codes exps : List (List Nat)) : (s.wrView t d codes exps).gatherParts = s.gatherParts := by
  unfold Pack.wrView
  split
  · exact gatherParts_on (gatherPart_engErr ..)
  · refine (foldl_keeps (P := Pack.gatherParts) (fun s p => ?_) _ _).trans (foldl_keeps (P := Pack.gatherParts) (fun s p => ?_) _ _)
    · exact gatherParts_wrOut ..
    · exact gatherParts_wrOut ..

theorem gatherParts_convOut (s : Pack) (t : Tid) (d : Tile) (vs : List (List Val)) (sr : Bool) (dr : Option Draw) :
    (s.convOut t d vs false sr dr).1.gatherParts = s.gatherParts := by
  refine (gatherParts_wrView ..).trans ?_
  exact gatherParts_on (gatherPart_recordAmax ..)

theorem gatherParts_orFlags (s : Pack) (t : Tid) (a : Nat) (f : Flg) : (s.orFlags t a f).gatherParts = s.gatherParts := by
  unfold Pack.orFlags
  split
  · exact gatherParts_on rfl
  · exact gatherParts_wrOut ..

/-! ## The end of a gather -/

/-- The owners that a gather read look again and take nothing. -/
theorem retries_still : ∀ (l : List Nat) (p : Pack), (∀ pk ∈ l, (p.g pk).thQuiet) →
    (∀ j, (l.foldl (fun s pk => s.thRetry pk) p).g j = p.g j) ∧ (l.foldl (fun s pk => s.thRetry pk) p).mem = p.mem
  | [], _, _ => ⟨fun _ => rfl, rfl⟩
  | pk :: l, p, h => by
    have hstill := thRetry_quiet (h pk List.mem_cons_self)
    have hg : ∀ j, (p.thRetry pk).g j = p.g j := fun j => by
      by_cases hj : j = pk
      · rw [hj, hstill.self]
      · exact hstill.others j hj
    obtain ⟨hrest, hmem⟩ := retries_still l (p.thRetry pk) fun x hx => by
      rw [hg]
      exact h x (List.mem_cons_of_mem _ hx)
    exact ⟨fun j => (hrest j).trans (hg j), hmem.trans hstill.mem⟩

/-- A gather leaves its engine, its requests are dropped, and its completion is delivered. -/
def Pkg.gathered (g : Pkg) (r : OpRec) : Pkg :=
  { g with eops := g.eops.erase r,
           co := { g.co with gath := g.co.gath.filter (fun x => x.seq != r.seq), tilesIn := g.co.tilesIn.filter (fun x => x.1 != r.seq) } }.complete r.t r.f

theorem complete_thCore (g : Pkg) (t : Tid) (f : Fields) : (g.complete t f).thCore = g.thCore :=
  deliver_keeps (P := Pkg.thCore) (by intro _ _; rfl) (by intro _ _; rfl) (by intro _ _; rfl)
    (by intro g n; exact thCore_wr _ _ fun j hj => by simp only [rSched, rRecl, hubR, rk]; omega) (by intro _ _ _ _ _ _ _ _; exact thCore_logAt ..) ..

theorem complete_eops (g : Pkg) (t : Tid) (f : Fields) : (g.complete t f).eops = g.eops :=
  deliver_keeps (P := Pkg.eops) (by intro _ _; rfl) (by intro _ _; rfl) (by intro _ _; rfl) (by intro _ _; rfl) (by intro _ _ _ _ _ _ _ _; simp) ..

/-- The state tables stay as they are. -/
theorem complete_tables (g : Pkg) (t : Tid) (f : Fields) {b : Nat} (hb : hubR 0x60000 ≤ b) : (g.complete t f).rd b = g.rd b := by
  have hrecl : b ≠ rRecl 0 := by simp only [rRecl, hubR, rk] at hb ⊢; omega
  have hlog : b ∉ [rErrCtl, rErrHead, rErrLost, rPins] := by
    simp only [List.mem_cons, List.not_mem_nil, or_false, not_or, rErrCtl, rErrHead, rErrLost, rPins, hubR, rk] at hb ⊢
    omega
  exact deliver_keeps (P := fun g => g.rd b) (by intro _ _; rfl) (by intro _ _; rfl) (by intro _ _; rfl)
    (by intro g n; exact Pkg.wr_rd_ne _ _ hrecl) (by intro g _ _ _ _ _ _ _; exact Pkg.logAt_rd _ _ _ _ _ _ _ _ hlog) ..

section
variable {s : Pack} {k : Nat} {r : OpRec} (hq : ∀ x ∈ (s.g k).co.gath.filter (fun x => x.seq == r.seq), (s.g x.pk).thQuiet)
include hq

/-- Where the owners' Threshers are quiet, the end of a gather is the gather gone and its thread looked at. -/
theorem gatherEnd_says : (∀ j, (s.gatherEnd k r).g j = ((s.on k (fun g => g.gathered r)).look r.t).g j) ∧ (s.gatherEnd k r).mem = s.mem := by
  have hcore : ∀ j, (((s.on k (fun g => g.gathered r)).look r.t).g j).thCore = (s.g j).thCore := fun j =>
    (look_keeps (P := Pkg.thCore) (by intro _ _ _; rfl) ..).trans (Pack.on_keeps (P := Pkg.thCore) s k j (complete_thCore ..))
  obtain ⟨hg, hmem⟩ := retries_still ((((s.g k).co.gath.filter (fun x => x.seq == r.seq)).map (·.pk)).eraseDups) ((s.on k (fun g => g.gathered r)).look r.t)
    fun pk hpk => by
      obtain ⟨x, hx, rfl⟩ := List.mem_map.mp (List.mem_eraseDups.mp hpk)
      exact quiet_of_thCore (hcore x.pk) (hq x hx)
  exact ⟨hg, hmem.trans (look_mem ..)⟩

theorem gatherEnd_eops : ((s.gatherEnd k r).g k).eops = (s.g k).eops.erase r := by
  rw [(gatherEnd_says hq).1, look_keeps (P := Pkg.eops) (by intro _ _ _; rfl), Pack.on_g_self]
  exact complete_eops ..

theorem gatherEnd_tables (j : Nat) {b : Nat} (hb : hubR 0x60000 ≤ b) : ((s.gatherEnd k r).g j).rd b = (s.g j).rd b := by
  rw [(gatherEnd_says hq).1, look_keeps (P := fun g => g.rd b) (by intro _ _ _; rfl)]
  exact Pack.on_keeps (P := fun g => g.rd b) s k j (complete_tables _ _ _ hb)

/-- A gather without a completion count sends and logs nothing as it ends. -/
theorem gatherEnd_silent (hcnt : r.f.i 31 26 = 0) : ((s.gatherEnd k r).g k).sent = (s.g k).sent ∧ ((s.gatherEnd k r).g k).logSeq = (s.g k).logSeq := by
  have hnone : (s.g k).gathered r = { s.g k with eops := (s.g k).eops.erase r, co := ((s.g k).gathered r).co } := by
    have hdone : ∀ g : Pkg, g.complete r.t r.f = g := fun g => if_pos hcnt
    unfold Pkg.gathered
    rw [hdone]
  rw [(gatherEnd_says hq).1]
  refine ⟨?_, ?_⟩
  · rw [look_keeps (P := Pkg.sent) (by intro _ _ _; rfl), Pack.on_g_self, hnone]
  · rw [look_keeps (P := Pkg.logSeq) (by intro _ _ _; rfl), Pack.on_g_self, hnone]
end

theorem gatherAt_of {s : Pack} {k i : Nat} {r : OpRec} (hr : (s.g k).eops[i]? = some r) (hop : r.op = .gather) : s.gatherAt k i = some r := by
  rw [Pack.gatherAt, hr]
  simp [hop]

section
variable {s : Pack} {k : Nat} {r : OpRec} (hq : ∀ x ∈ (s.g k).co.gath.filter (fun x => x.seq == r.seq), (s.g x.pk).thQuiet)
include hq

/-- Threshers that were quiet are quiet where the packages' Threshers and requests are as before. -/
theorem quiet_kept {q : Pack} (hparts : q.gatherParts = s.gatherParts) :
    ∀ x ∈ (q.g k).co.gath.filter (fun x => x.seq == r.seq), (q.g x.pk).thQuiet := fun x hx => by
  have hpart : ∀ j, (q.g j).gatherPart = (s.g j).gatherPart := fun j => congrFun hparts j
  have hco : (q.g k).co = (s.g k).co := congrArg (·.2.2) (hpart k)
  rw [hco] at hx
  exact quiet_of_thCore (congrArg (·.1) (hpart x.pk)) (hq x hx)

/-- A gather that its engine ends with a report. -/
theorem ended_says {f : Pkg → Pkg} (j : Nat) (hf : (f (s.g j)).gatherPart = (s.g j).gatherPart) :
    (((s.on j f).gatherEnd k r).g k).eops = (s.g k).eops.erase r ∧ ((s.on j f).gatherEnd k r).mem = s.mem := by
  have hparts := gatherParts_on (s := s) (k := j) (f := f) hf
  have hq' := quiet_kept hq hparts
  have heops : ((s.on j f).g k).eops = (s.g k).eops := congrArg (·.2.1) (congrFun hparts k)
  exact ⟨(gatherEnd_eops hq').trans (congrArg (List.erase · r) heops), (gatherEnd_says hq').2⟩
end

/-! ## Requests and tiles -/

/-- A gather's request of a shard may be made: the tensor holds what the view takes (R136). -/
structure Pkg.MayGather (g : Pkg) (r : OpRec) (t n : Nat) : Prop where
  plain : isO8 r.td.fmt = false
  coded : r.td.fmt ≠ .a32
  index : t < 16384
  enabled : g.tEn t = true
  rows : r.td.orgi + (gatherExt r).1 ≤ 32 * g.rows32 t
  cols : r.td.orgj + (gatherExt r).2 ≤ 32 * g.cols32 t
  touched : (g.gatherShards r t).contains n = true
  new : ∀ x ∈ g.co.gath.filter (fun x => x.seq == r.seq), x.shard ≠ n

section
variable {s : Pack} {k i n pk : Nat} {r : OpRec} (hr : (s.g k).eops[i]? = some r) (hop : r.op = .gather)
include hr hop

theorem gatherRequest_refused (h : isO8 r.td.fmt = true ∨ r.td.fmt = .a32) :
    s.gatherRequest k i n = (s.on k (fun g => g.engErr r.t.site r.t.unit 4 r.td.base)).gatherEnd k r := by
  unfold Pack.gatherRequest
  rw [gatherAt_of hr hop]
  exact if_pos (h.imp_right .inl)

theorem gatherRequest_served {t : Nat} (ht : (r.v.getD 0 0).toNat % 2 ^ 32 = t) (h : (s.g k).MayGather r t n) (hat : s.at k ((s.g k).rootOf t n) = some pk) :
    s.gatherRequest k i n = (match (s.g pk).resolve t (r.f.i 1 0) with
      | none => (s.on pk (fun h => (h.wb (rTens t 0x18) 3 true).engErr (48 + h.ownStack (h.ownerOf t n ((s.g k).firstRep t n))) 0xFF 5 t)).gatherEnd k r
      | some slot => s.on k (fun g => { g with co := { g.co with gath := g.co.gath ++
          [{ seq := r.seq, tensor := t, shard := n, pk := pk, rep := (s.g k).firstRep t n, slot := slot }] } })) := by
  have hnew : (s.g k).co.gath.any (fun x => x.seq == r.seq && x.shard == n) = false :=
    List.any_eq_false.mpr fun x hx hboth => by
      obtain ⟨hseq, hshard⟩ := Bool.and_eq_true_iff.mp hboth
      exact h.new x (List.mem_filter.mpr ⟨hx, hseq⟩) (beq_iff_eq.mp hshard)
  have hfits : ¬ (isO8 r.td.fmt ∨ r.td.fmt = .a32 ∨ 16384 ≤ t ∨ !(s.g k).tEn t ∨ 32 * (s.g k).rows32 t < r.td.orgi + (gatherExt r).1 ∨
      32 * (s.g k).cols32 t < r.td.orgj + (gatherExt r).2) := by
    have h1 := h.index
    have h2 := h.rows
    have h3 := h.cols
    rw [h.plain, h.enabled]
    simp only [Bool.false_eq_true, Bool.not_true, false_or, not_or]
    exact ⟨h.coded, by omega, by omega, by omega⟩
  unfold Pack.gatherRequest
  rw [gatherAt_of hr hop]
  dsimp only
  rw [ht, if_neg hfits, if_neg (by rw [h.touched, hnew]; decide), hat] <;> rfl
end

/-- The requests of a gather that have been bound. -/
def Pkg.bound (g : Pkg) (r : OpRec) : List GReq := g.co.gath.filter (fun x => x.seq == r.seq)

/-- The row and the column of the tensor at which tile `j` of a gather begins. -/
def gatherRow (r : OpRec) (j : Nat) : Nat := r.td.orgi + (if r.f.ib 2 then 32 * j else 0)
def gatherCol (r : OpRec) (j : Nat) : Nat := r.td.orgj + (if r.f.ib 2 then 0 else 32 * j)

/-- The values of a tile of a gather, as its view takes them. -/
def Pack.gatherValues (s : Pack) (k : Nat) (r : OpRec) (j : Nat) : List (List Val) :=
  let m := (List.range 32).map (fun a => (List.range 32).map (fun b =>
    match ((s.g k).bound r).find? (fun x => x.shard == (s.g k).shardOf ((r.v.getD 0 0).toNat % 2 ^ 32) ((gatherRow r j + a) / 32)) with
    | some x => ofB (s.stateElem (s.g k) x (gatherRow r j + a) (gatherCol r j + b))
    | none => valZero))
  if r.f.ib 2 then transpose m else m

/-- A tile of a gather written through its view, with its flags. -/
def Pack.gatherWritten (s : Pack) (k : Nat) (r : OpRec) (j : Nat) : Pack :=
  let o := s.convOut r.t (gatherView r.td j) (s.gatherValues k r j) false false none
  o.1.orFlags r.t r.td.stat o.2

theorem gatherParts_written (s : Pack) (k : Nat) (r : OpRec) (j : Nat) : (s.gatherWritten k r j).gatherParts = s.gatherParts :=
  (gatherParts_orFlags ..).trans (gatherParts_convOut ..)

/-- A tile that has come. -/
def Pkg.tileIn (g : Pkg) (r : OpRec) (j : Nat) : Pkg := { g with co := { g.co with tilesIn := (r.seq, j) :: g.co.tilesIn } }

/-- A tile of a gather may come: every shard is bound, the tile has not come, its conversion is not held, and its owners' stacks run. -/
structure Pack.MayTake (s : Pack) (k : Nat) (r : OpRec) (j : Nat) : Prop where
  within : j ≤ r.f.i 10 3
  ready : ∀ n ∈ (s.g k).gatherShards r ((r.v.getD 0 0).toNat % 2 ^ 32), ∃ x ∈ (s.g k).bound r, x.shard = n
  new : (r.seq, j) ∉ (s.g k).co.tilesIn
  free : (s.g k).held r = false
  powered : ∀ x ∈ (s.g k).bound r, s.ownerGated x = false

/-- A tile of a gather once it may come: its digests are compared, and it is written through its view (R214, R241). -/
def Pack.gatherChecked (s : Pack) (k : Nat) (r : OpRec) (j : Nat) : Pack :=
  match s.badDigest (s.g k) ((s.g k).bound r) (gatherRow r j) (gatherCol r j) with
  | some (x, b) =>
    let l := (s.g k).planeLoc x.pk x.tensor x.shard x.rep x.slot (4096 * b)
    let a := gaddr (s.g x.pk).pos l.site 8 l.off
    (s.on x.pk (fun h => (h.logAt 0x0207 l.site 0xFF 0xFF ((r.v.getD 0 0).toNat % 2 ^ 32) (a % 2 ^ 32) (a / 2 ^ 32)).send (.revertReq h.pos 0x0207))).gatherEnd k r
  | none =>
    match s.viewBad r.t (gatherView r.td j) 32 32 with
    | some p => (s.on k (fun g => g.engErr r.t.site r.t.unit 4 p.2)).gatherEnd k r
    | none =>
      let s := (s.gatherWritten k r j).on k (fun g => g.tileIn r j)
      if (List.range (r.f.i 10 3 + 1)).all (fun j => (s.g k).co.tilesIn.contains (r.seq, j)) then s.gatherEnd k r else s

section
variable {s : Pack} {k i j : Nat} {r : OpRec} (hr : (s.g k).eops[i]? = some r) (hop : r.op = .gather) (h : s.MayTake k r j)
include hr hop h

theorem mayTake_goes : ¬ (r.f.i 10 3 < j ∨ !((s.g k).gatherShards r ((r.v.getD 0 0).toNat % 2 ^ 32)).all (fun n => ((s.g k).bound r).any (fun x => x.shard == n)) ∨
    (s.g k).co.tilesIn.contains (r.seq, j) ∨ (s.g k).held r) ∧ ((s.g k).bound r).any (fun x => s.ownerGated x) = false := by
  have hready : ((s.g k).gatherShards r ((r.v.getD 0 0).toNat % 2 ^ 32)).all (fun n => ((s.g k).bound r).any (fun x => x.shard == n)) = true :=
    List.all_eq_true.mpr fun n hn => by
      obtain ⟨x, hx, hxn⟩ := h.ready n hn
      exact List.any_eq_true.mpr ⟨x, hx, beq_iff_eq.mpr hxn⟩
  have hnew : (s.g k).co.tilesIn.contains (r.seq, j) = false := by simpa using h.new
  refine ⟨?_, List.any_eq_false.mpr fun x hx => by rw [h.powered x hx]; decide⟩
  rw [hready, hnew, h.free]
  have := h.within
  simp
  omega

theorem gatherTile_checked : s.gatherTile k i j [] true = s.gatherChecked k r j := by
  obtain ⟨hgo, hon⟩ := mayTake_goes hr hop h
  unfold Pack.gatherTile
  rw [gatherAt_of hr hop]
  exact (if_neg hgo).trans ((if_neg (ne_true_of_eq_false hon)).trans rfl)
end

section
variable {s : Pack} {k j : Nat} {r : OpRec} (hq : ∀ x ∈ (s.g k).bound r, (s.g x.pk).thQuiet)
include hq

/-- A tile that is written counts as come; the last one ends the gather. -/
theorem gatherChecked_good (hgood : s.badDigest (s.g k) ((s.g k).bound r) (gatherRow r j) (gatherCol r j) = none)
    (hview : s.viewBad r.t (gatherView r.td j) 32 32 = none) (hj : j ≤ r.f.i 10 3) : (s.gatherChecked k r j).mem = (s.gatherWritten k r j).mem ∧
    ((∀ c, c ≤ r.f.i 10 3 → c ≠ j → (r.seq, c) ∈ (s.g k).co.tilesIn) → ((s.gatherChecked k r j).g k).eops = (s.g k).eops.erase r) ∧
    ((∃ c, c ≤ r.f.i 10 3 ∧ c ≠ j ∧ (r.seq, c) ∉ (s.g k).co.tilesIn) → ((s.gatherChecked k r j).g k).eops = (s.g k).eops ∧
      (r.seq, j) ∈ ((s.gatherChecked k r j).g k).co.tilesIn) := by
  have hparts := gatherParts_written s k r j
  have hpart : ∀ i, ((s.gatherWritten k r j).g i).gatherPart = (s.g i).gatherPart := fun i => congrFun hparts i
  have hco : ((s.gatherWritten k r j).g k).co = (s.g k).co := congrArg (·.2.2) (hpart k)
  have heops : ((s.gatherWritten k r j).g k).eops = (s.g k).eops := congrArg (·.2.1) (hpart k)
  have hself : ((s.gatherWritten k r j).on k (fun g => g.tileIn r j)).g k = ((s.gatherWritten k r j).g k).tileIn r j := Pack.on_g_self ..
  have htiles : (((s.gatherWritten k r j).g k).tileIn r j).co.tilesIn = (r.seq, j) :: (s.g k).co.tilesIn := by
    rw [← hco]
    rfl
  have hchecked : s.gatherChecked k r j =
      if (List.range (r.f.i 10 3 + 1)).all (fun c => ((r.seq, j) :: (s.g k).co.tilesIn).contains (r.seq, c)) then
        ((s.gatherWritten k r j).on k (fun g => g.tileIn r j)).gatherEnd k r
      else (s.gatherWritten k r j).on k (fun g => g.tileIn r j) := by
    unfold Pack.gatherChecked
    rw [hgood]
    dsimp only
    rw [hview]
    dsimp only
    rw [hself, htiles]
  have hquiet : ∀ x ∈ (((s.gatherWritten k r j).on k (fun g => g.tileIn r j)).g k).co.gath.filter (fun x => x.seq == r.seq),
      (((s.gatherWritten k r j).on k (fun g => g.tileIn r j)).g x.pk).thQuiet := fun x hx => by
    rw [hself] at hx
    have hx' : x ∈ (s.g k).bound r := by
      rw [Pkg.bound, ← hco]
      exact hx
    exact quiet_of_thCore ((Pack.on_keeps (P := Pkg.thCore) _ k x.pk rfl).trans (congrArg (·.1) (hpart x.pk))) (hq x hx')
  refine ⟨?_, fun hall => ?_, fun ⟨c, hc, hcj, hcnew⟩ => ?_⟩
  · rw [hchecked]
    split
    · exact (gatherEnd_says hquiet).2
    · rfl
  · rw [hchecked, if_pos (List.all_eq_true.mpr fun c hc => ?_), gatherEnd_eops hquiet, hself]
    · exact congrArg (List.erase · r) heops
    · by_cases hcj : c = j
      · simp [hcj]
      · have hin := hall c (Nat.le_of_lt_succ (List.mem_range.mp hc)) hcj
        simp [hin]
  · have hnot : ¬ (List.range (r.f.i 10 3 + 1)).all (fun c => ((r.seq, j) :: (s.g k).co.tilesIn).contains (r.seq, c)) = true := fun hall => by
      have hin := List.all_eq_true.mp hall c (List.mem_range.mpr (Nat.lt_succ_of_le hc))
      simp [hcj, hcnew] at hin
    rw [hchecked, if_neg hnot, hself, htiles]
    exact ⟨heops, List.mem_cons_self⟩

/-- A digest that does not match at the gather's own package, without a completion count. -/
theorem gatherChecked_bad {x : GReq} {b : Nat} (hbad : s.badDigest (s.g k) ((s.g k).bound r) (gatherRow r j) (gatherCol r j) = some (x, b)) (hx : x.pk = k)
    (hcnt : r.f.i 31 26 = 0) : ((s.gatherChecked k r j).g k).sent.head? = some (.revertReq (s.g k).pos 0x0207) ∧
    ((s.gatherChecked k r j).g k).logSeq = (s.g k).logSeq + 1 ∧ ((s.gatherChecked k r j).g k).eops = (s.g k).eops.erase r ∧ (s.gatherChecked k r j).mem = s.mem := by
  unfold Pack.gatherChecked
  rw [hbad]
  dsimp only
  rw [hx]
  generalize hsite : ((s.g k).planeLoc k x.tensor x.shard x.rep x.slot (4096 * b)).site = site
  generalize (BitVec.toNat (r.v.getD 0 0)) % 2 ^ 32 = a0
  generalize gaddr _ _ _ _ % 2 ^ 32 = a1
  generalize gaddr _ _ _ _ / 2 ^ 32 = a2
  have hf : (((s.g k).logAt 0x0207 site 0xFF 0xFF a0 a1 a2).send (.revertReq (s.g k).pos 0x0207)).gatherPart = (s.g k).gatherPart :=
    Prod.ext (thCore_logAt ..) (Prod.ext (Pkg.logAt_eops ..) (Pkg.logAt_co ..))
  have hquiet := quiet_kept hq (gatherParts_on (f := fun h => (h.logAt 0x0207 site 0xFF 0xFF a0 a1 a2).send (.revertReq h.pos 0x0207)) hf)
  obtain ⟨heops, hmem⟩ := ended_says (f := fun h => (h.logAt 0x0207 site 0xFF 0xFF a0 a1 a2).send (.revertReq h.pos 0x0207)) hq k hf
  obtain ⟨hsent, hseq⟩ := gatherEnd_silent hquiet hcnt
  refine ⟨?_, ?_, heops, hmem⟩
  · rw [hsent, Pack.on_g_self]
    rfl
  · rw [hseq, Pack.on_g_self]
    exact Pkg.logAt_logSeq ..
end

/-- Settles O39: a gather's requests, its tiles and its ends. -/
theorem gathers : Obligations.Gathers := by
  unfold Obligations.Gathers
  intro s k i n j pk r g t e xs tr i0 j0 m o hup hr hop hq
  have hq' : ∀ x ∈ (s.pack.g k).bound r, (s.pack.g x.pk).thQuiet := hq
  refine ⟨fun hfmt => ?_, fun h1 h2 h3 h4 h5 h6 h7 h8 hat => ⟨fun slot hslot => ?_, fun hnone => ?_⟩, fun hj hready hnew hheld hpow => ⟨fun hgood hview => ?_, fun x b hbad hx hcnt => ?_⟩⟩
  · exact ⟨_, gives_of_atHub rfl hup (gatherRequest_refused hr hop hfmt), ended_says hq k (gatherPart_engErr ..)⟩
  · have hserved := gatherRequest_served hr hop rfl ⟨h1, h2, h3, h4, h5, h6, h7, h8⟩ hat
    rw [hslot] at hserved
    exact gives_of_atHub rfl hup hserved
  · have hserved := gatherRequest_served hr hop rfl ⟨h1, h2, h3, h4, h5, h6, h7, h8⟩ hat
    rw [hnone] at hserved
    have hf : ∀ h : Pkg, ((h.wb (rTens t 0x18) 3 true).engErr (48 + h.ownStack (h.ownerOf t n (g.firstRep t n))) 0xFF 5 t).gatherPart = h.gatherPart := fun h =>
      (gatherPart_engErr ..).trans (Prod.ext (thCore_wr _ _ fun j hj => by simp only [rSched, rTens, hubR, rk]; omega) rfl)
    have hq2 := quiet_kept hq (gatherParts_on (s := s.pack) (k := pk)
      (f := fun h => (h.wb (rTens t 0x18) 3 true).engErr (48 + h.ownStack (h.ownerOf t n (g.firstRep t n))) 0xFF 5 t) (hf _))
    refine ⟨_, gives_of_atHub rfl hup hserved, ?_, ended_says hq pk (hf _)⟩
    have hstat : rTens t 0x18 ∉ [rErrCtl, rErrHead, rErrLost, rPins] := by
      simp [rErrCtl, rErrHead, rErrLost, rPins, rTens, hubR, rk]
      omega
    rw [Pkg.rb, gatherEnd_tables hq2 pk (by simp only [rTens, hubR, rk]; omega), Pack.on_g_self]
    refine (congrArg (bit · 3) (Pkg.logAt_rd _ _ _ _ _ _ _ _ hstat)).trans ?_
    exact Pkg.rb_wb_same _ _ true (by decide)
  · have htake : s.pack.MayTake k r j := ⟨hj, hready, hnew, hheld, hpow⟩
    exact ⟨_, gives_of_atHub rfl hup (gatherTile_checked hr hop htake), gatherChecked_good hq' hgood hview hj⟩
  · have htake : s.pack.MayTake k r j := ⟨hj, hready, hnew, hheld, hpow⟩
    exact ⟨_, gives_of_atHub rfl hup (gatherTile_checked hr hop htake), gatherChecked_bad hq' hbad hx hcnt⟩

end Sys2Proof.Machine
end

section
/-! PROOFS. A contribution whose sender's record stands out of order; O44 -/

namespace Sys2Proof.Machine

/-! ## A contribution whose sender's record stands out of order -/

/-- A package at position 1, reached through its port 0. -/
def replicaOwner : Pkg := { regs := [(rPort 0 0, 0x20000000), (rPackId, 0x41)] }

/-- The root: position 0, the only member of group 0, whose inbound queue 0 runs at site 0, with a tensor whose one owner is at position 1. -/
def rootPkg : Pkg :=
  { regs := [(rQ 0 0 0, 0x20000000), (rPort 0 0, 0x20000000), (rPackId, 0x40), (rMemLo, 3), (hubR 0x7108, 1), (hubR 0x710C, 1),
      (rQmap 0, 0x40), (rColl 0 0, 0x10000000), (rColl 0 4, 1), (rOwn 0 4, 0x400), (rTens 0 0, 0x20000000), (rTens 0 8, 1)]
    hk := { state := 2, perst := false, pwrok := true } }

/-- The entry of a contribution to step 1 of group 0 without data, up to its TCHK. -/
def contribHead : List Byte := [0x10, 0, 0, 0, 1, 0, 0, 0, 0, 0, 0, 0, 0, 0, 0, 0, 0, 0, 0, 0]

/-- The entry with its TCHK, from position 0. -/
def contribEntry : List Byte := contribHead ++ leBytes (crc32c contribHead) 4 ++ [0, 0]

/-- The packet that carries it, sent by package 1. -/
def contribWire : Wire := { src := 1, dst := 0, dq := 0, qk := 0, idx := 0, body := .coll contribEntry [] }

/-- Packages 2 and 1 both stand at position 1, 2 in front. -/
def sharedPosition : State :=
  { pack := { pkgs := [(0, rootPkg), (2, replicaOwner), (1, replicaOwner)], wire := [contribWire] }, pending := [] }

theorem shared_named : sharedPosition.pack.collWire 0 0 0x10 = some (contribWire, contribEntry, []) := by decide +kernel

theorem shared_owner : sharedPosition.pack.at 0 1 = some 2 := by decide +kernel

/-- The acknowledgement writes package 1's record anew in front of package 2's, and the reduced record goes to package 1. -/
theorem shared_sent : ((after (.inboundRecord 0 0 0) sharedPosition).wire.map (·.dst)) = [1] := by decide +kernel

/-- Refutes O44: the acknowledgement of an entry writes the sender's record in its place by number; where the table of packages does not stand in order, the position of a replica's owner then names another package than before. -/
theorem not_collectiveRecords : ¬ Obligations.CollectiveRecords := by
  intro h
  obtain ⟨hcontrib, -, -⟩ := h.2 sharedPosition 0 0 0 contribWire contribEntry [] (by decide +kernel) rfl (by decide +kernel)
    (by decide) (by decide) (by decide +kernel) (by decide +kernel) rfl rfl rfl
  obtain ⟨-, hchecked⟩ := hcontrib shared_named (by decide +kernel) (by decide +kernel) (by decide +kernel)
  obtain ⟨-, hclosed⟩ := hchecked (by decide +kernel) (by decide +kernel) (by decide +kernel)
  obtain ⟨p, hp, -, x, r, -, -, hwire, -⟩ := hclosed 2 (by decide +kernel) (by decide +kernel) (by decide +kernel) (by decide +kernel) (by decide +kernel)
  have hdst : p.wire.map (·.dst) = [2] := by
    rw [hwire, List.map_append]
    have hnone : sharedPosition.pack.wire.erase contribWire = [] := by decide +kernel
    rw [hnone]
    rfl
  rw [← hp.after_eq, shared_sent] at hdst
  exact absurd hdst (by decide)

end Sys2Proof.Machine
end

section
/-! PROOFS. Dies that start, with their edges; for O48 -/

namespace Sys2Proof.Machine

/-! ## The start of a die: its edges train -/

section
variable (h : Bool) (fused sealed : Nat) (live : Bool) (old : Edge)

/-- Every lane's clock is locked where both clock groups are. -/
theorem lanes_clocked {i : Nat} (hi : i < physLanes h) : Nat.testBit 3 (laneGroup h i) = true := by
  cases h with
  | true => exact (by decide : Nat.testBit 3 0 = true)
  | false =>
    rw [physLanes, if_neg (by decide)] at hi
    rw [laneGroup, if_neg (by decide)]
    have hgrp : i / 136 = 0 ∨ i / 136 = 1 := by omega
    rcases hgrp with hgrp | hgrp <;> rw [hgrp] <;> rfl

theorem foldl_id {α β : Type} {f : α → β → α} : ∀ (l : List β) (a : α), (∀ b ∈ l, f a b = a) → l.foldl f a = a
  | [], _, _ => rfl
  | b :: l, a, h => by
    rw [List.foldl_cons, h b List.mem_cons_self]
    exact foldl_id l a fun c hc => h c (List.mem_cons_of_mem _ hc)

/-- An end whose self-test finds nothing has its fused lanes bad, and the mode that they allow (R262, R263). -/
theorem startEdge_clean : (startEdge h fused 0 3 live old sealed).bad = fused % 2 ^ physLanes h ∧
    (startEdge h fused 0 3 live old sealed).state = if live then (bundleMode h (fused % 2 ^ physLanes h) 3).1 else 1 := by
  have hck : (List.range (physLanes h)).foldl (fun m i => if Nat.testBit 3 (laneGroup h i) then m else m ||| 2 ^ i) 0 = 0 :=
    foldl_id _ _ fun i hi => if_pos (lanes_clocked h (List.mem_range.mp hi))
  unfold startEdge
  rw [hck]
  simp only [Nat.or_zero, and_self]
end

/-- The edges of one site lead to different ends. -/
theorem facing_inj {site e s' f i t j : Nat} (h : facing site e = some (s', f)) (h2 : facing site i = some (t, j)) (hne : i ≠ e) :
    ek site i ≠ ek site e ∧ ek t j ≠ ek s' f ∧ ek t j ≠ ek site e ∧ ek site i ≠ ek s' f := by
  obtain ⟨hs, he, hf⟩ := facing_apart h
  obtain ⟨ht, hi, hj⟩ := facing_apart h2
  have hends : ¬ (t = s' ∧ j = f) := by
    unfold facing at h h2
    grind
  unfold ek
  omega

section
variable (k site : Nat) (tests : List EdgeTest)

/-- One edge of a die trains at its start. -/
def Pkg.trainStep (g : Pkg) (e : Nat) : Pkg :=
  match facing site e with
  | none => g
  | some (s, f) =>
    if s ≠ 62 ∧ g.hole s then g.onEdge site e (fun x => { x with state := 0 })
    else
      let live := g.netLive s
      let p := g.testEdge k site e s f tests live
      let g := g.setEdge site e p.1
      if !live then g
      else
        let g := g.setEdge s f p.2
        if p.1.state = 4 ∨ p.2.state = 4 then
          ((g.onEdge site e (fun x => { x with state := 4 })).onEdge s f (fun x => { x with state := 4 })).logAt 0x020D site 0xFF 0xFF e s 1
        else g

theorem trainEdges_eq (g : Pkg) : g.trainEdges k site tests = [0, 1, 2, 3, 4].foldl (Pkg.trainStep k site tests) g := rfl

/-- What the training of a die's edges leaves alone: the places, the straps. -/
def Pkg.places (g : Pkg) : Map SiteSt × Map Bool × Map (Nat × Nat) := (g.sites, g.started, g.straps)

theorem logAt_places (g : Pkg) (code x1 x2 x3 a0 a1 a2 : Nat) : (g.logAt code x1 x2 x3 a0 a1 a2).places = g.places := by
  rw [Pkg.places, Pkg.logAt_sites, Pkg.logAt_started, Pkg.logAt_straps, Pkg.places]

theorem setEdge_places (g : Pkg) (t f : Nat) (x : Edge) : (g.setEdge t f x).places = g.places := rfl

theorem trainStep_places (g : Pkg) (e : Nat) : (g.trainStep k site tests e).places = g.places := by
  unfold Pkg.trainStep
  split
  · rfl
  · dsimp only
    split
    · exact setEdge_places ..
    · split
      · exact setEdge_places ..
      · split
        · rw [logAt_places]
          simp only [Pkg.onEdge, setEdge_places]
        · simp only [setEdge_places]

variable {k site tests} {e s' f : Nat} (hf : facing site e = some (s', f))
include hf

/-- The training of another edge leaves both ends of this one alone. -/
theorem trainStep_other (g : Pkg) {i : Nat} (hi : i ≠ e) :
    (g.trainStep k site tests i).edge site e = g.edge site e ∧ (g.trainStep k site tests i).edge s' f = g.edge s' f := by
  unfold Pkg.trainStep
  split
  · exact ⟨rfl, rfl⟩
  · next t j hij =>
    obtain ⟨h1, h2, h3, h4⟩ := facing_inj hf hij hi
    have hown (g : Pkg) (x : Edge) : (g.setEdge site i x).edge site e = g.edge site e ∧ (g.setEdge site i x).edge s' f = g.edge s' f :=
      ⟨edge_setEdge_ne _ _ h1.symm, edge_setEdge_ne _ _ h4.symm⟩
    have hfar (g : Pkg) (x : Edge) : (g.setEdge t j x).edge site e = g.edge site e ∧ (g.setEdge t j x).edge s' f = g.edge s' f :=
      ⟨edge_setEdge_ne _ _ h3.symm, edge_setEdge_ne _ _ h2.symm⟩
    dsimp only
    split
    · exact hown ..
    · split
      · exact hown ..
      · have hboth (g : Pkg) (x y : Edge) : ((g.setEdge site i x).setEdge t j y).edge site e = g.edge site e ∧
            ((g.setEdge site i x).setEdge t j y).edge s' f = g.edge s' f :=
          ⟨(hfar _ y).1.trans (hown g x).1, (hfar _ y).2.trans (hown g x).2⟩
        split
        · rw [logAt_edge, logAt_edge]
          exact ⟨(hboth _ _ _).1.trans (hboth _ _ _).1, (hboth _ _ _).2.trans (hboth _ _ _).2⟩
        · exact hboth ..

theorem trainSteps_other : ∀ (l : List Nat) (g : Pkg), e ∉ l →
    (l.foldl (Pkg.trainStep k site tests) g).edge site e = g.edge site e ∧ (l.foldl (Pkg.trainStep k site tests) g).edge s' f = g.edge s' f
  | [], _, _ => ⟨rfl, rfl⟩
  | i :: l, g, h => by
    obtain ⟨hi, hl⟩ := List.ne_and_not_mem_of_not_mem_cons h
    obtain ⟨h1, h2⟩ := trainSteps_other l (g.trainStep k site tests i) hl
    obtain ⟨h3, h4⟩ := trainStep_other hf g (tests := tests) (k := k) (Ne.symm hi)
    exact ⟨h1.trans h3, h2.trans h4⟩

/-- The mode that both ends of a clean edge enter: DOWN together where one of them can run in no mode. -/
def trained (h : Bool) (a b c : Nat) : Nat := if (bundleMode h a 3).1 = 4 ∨ (bundleMode h b 3).1 = 4 then 4 else (bundleMode h c 3).1

omit hf in
theorem hubEnd_sym (h : facing site e = some (s', f)) : hubEnd s' f = hubEnd site e := by
  unfold facing at h
  unfold hubEnd
  grind

/-- A clean edge to a die that runs trains (R262, R263). -/
theorem trainStep_clean (g : Pkg) (hhole : g.hole s' = false) (hlive : g.netLive s' = true) :
    let h := hubEnd site e
    let here := fusedMask k site e % 2 ^ physLanes h
    let there := fusedMask k s' f % 2 ^ physLanes h
    ((g.trainStep k site [] e).edge site e).bad = here ∧ ((g.trainStep k site [] e).edge s' f).bad = there ∧
    ((g.trainStep k site [] e).edge site e).state = trained h here there here ∧ ((g.trainStep k site [] e).edge s' f).state = trained h here there there := by
  intro h here there
  have hne := facing_ne hf
  obtain ⟨hb1, hs1⟩ := startEdge_clean h (fusedMask k site e) g.sealed true (g.edge site e)
  obtain ⟨hb2, hs2⟩ := startEdge_clean h (fusedMask k s' f) g.sealed true (g.edge s' f)
  rw [if_pos rfl] at hs1 hs2
  unfold Pkg.trainStep
  rw [hf]
  dsimp only
  rw [if_neg (by simp [hhole]), hlive]
  rw [show (!true) = false from rfl, if_neg (by decide)]
  have hp : g.testEdge k site e s' f [] true =
      (startEdge h (fusedMask k site e) 0 3 true (g.edge site e) g.sealed, startEdge h (fusedMask k s' f) 0 3 true (g.edge s' f) g.sealed) := rfl
  rw [hp]
  dsimp only
  have hcond : ((startEdge h (fusedMask k site e) 0 3 true (g.edge site e) g.sealed).state = 4 ∨ (startEdge h (fusedMask k s' f) 0 3 true (g.edge s' f) g.sealed).state = 4) ↔
      ((bundleMode h here 3).1 = 4 ∨ (bundleMode h there 3).1 = 4) := by rw [hs1, hs2]
  unfold trained
  split
  · next hdown =>
    rw [if_pos (hcond.mp hdown), if_pos (hcond.mp hdown)]
    simp only [logAt_edge, Pkg.onEdge, edge_setEdge_self, edge_setEdge_ne _ _ hne, edge_setEdge_ne _ _ hne.symm]
    exact ⟨hb1, hb2, trivial, trivial⟩
  · next hup =>
    rw [if_neg (fun hc => hup (hcond.mpr hc)), if_neg (fun hc => hup (hcond.mpr hc))]
    simp only [edge_setEdge_self, edge_setEdge_ne _ _ hne.symm]
    exact ⟨hb1, hb2, hs1, hs2⟩
end

theorem foldl_regs {β : Type} {f : Pkg → β → Pkg} (h : ∀ g b, ∃ rs, f g b = { g with regs := rs }) :
    ∀ (l : List β) (g : Pkg), ∃ rs, l.foldl f g = { g with regs := rs }
  | [], g => ⟨g.regs, rfl⟩
  | b :: l, g => by
    obtain ⟨rs, hrs⟩ := h g b
    obtain ⟨rs2, hrs2⟩ := foldl_regs h l (f g b)
    exact ⟨rs2, by rw [List.foldl_cons, hrs2, hrs]⟩

theorem live_of_places {g g0 : Pkg} (h : g.places = g0.places) (d : Nat) : g.hole d = g0.hole d ∧ g.netLive d = g0.netLive d := by
  obtain ⟨hs, hrest⟩ := Prod.mk.inj h
  obtain ⟨hst, -⟩ := Prod.mk.inj hrest
  have hsite (x : Nat) : g.siteSt x = g0.siteSt x := congrArg (fun m => mget _ m x) hs
  have hhole : g.hole d = g0.hole d := by rw [Pkg.hole, hsite, Pkg.hole]
  refine ⟨hhole, ?_⟩
  unfold Pkg.netLive Pkg.dieLive
  rw [hhole, hst]

section
variable {s : Pack} {k site e s' f : Nat} (hf : facing site e = some (s', f)) (hsite : site < 48) (hst : (s.g k).siteSt site = .active)
  (hcold : mget false (s.g k).started site = false)
include hf hsite hst hcold

omit hf in
theorem dieStart_goes : ¬ (48 ≤ site ∨ (s.g k).siteSt site = SiteSt.off ∨ (s.g k).siteSt site = SiteSt.failed ∨
    ((s.g k).siteSt site = SiteSt.active ∧ mget false (s.g k).started site = true)) := by
  rw [hst, hcold]
  simp [hsite]

/-- A die with straps of a site starts, and its edge trains (R17, R19, R262). -/
theorem dieStart_clean {a : Nat} (ha : a < 48) (hhole : (s.g k).hole s' = false) (hlive : (s.g k).netLive s' = true) :
    let h := hubEnd site e
    let here := fusedMask k site e % 2 ^ physLanes h
    let there := fusedMask k s' f % 2 ^ physLanes h
    let g' := (s.dieStart k site a (orientOf a) []).g k
    g'.places = ((s.g k).sites, mins (s.g k).started site true, mins (s.g k).straps site (a, orientOf a)) ∧
    (g'.edge site e).bad = here ∧ (g'.edge s' f).bad = there ∧
    (g'.edge site e).state = trained h here there here ∧ (g'.edge s' f).state = trained h here there there := by
  intro h here there g'
  have hori : orientOf a % 8 = orientOf a := by
    unfold orientOf
    split <;> split <;> rfl
  have hports (g : Pkg) : ∃ rs, (List.range 32).foldl (fun g n =>
      if portSites.getD (n / 4) 99 = site ∧ g.portState n = 0 then g.wf (rPort n 0) 30 28 1 else g) g = { g with regs := rs } := by
    refine foldl_regs (fun g n => ?_) _ _
    beta_reduce
    split
    · exact ⟨_, rfl⟩
    · exact ⟨g.regs, rfl⟩
  have hg : ∃ rs, g' = ({ s.g k with straps := mins (s.g k).straps site (a, orientOf a), regs := rs, started := mins (s.g k).started site true } : Pkg).trainEdges
      k site [] := by
    obtain ⟨rs, hrs⟩ := hports { s.g k with straps := mins (s.g k).straps site (a % 64, orientOf a % 8) }
    refine ⟨rs, ?_⟩
    show (s.dieStart k site a (orientOf a) []).g k = _
    unfold Pack.dieStart
    dsimp only
    rw [if_neg (dieStart_goes hsite hst hcold), if_neg (by rw [hst]; simp), if_neg (by omega), Pack.on_g_self, Pack.on_g_self,
      if_neg (by rw [hst]; decide), hrs, hori, Nat.mod_eq_of_lt (by omega : a < 64)]
  obtain ⟨rs, hg⟩ := hg
  rw [trainEdges_eq] at hg
  obtain ⟨hfar, he, -⟩ := facing_apart hf
  obtain ⟨pre, post, hl⟩ := List.append_of_mem (show e ∈ [0, 1, 2, 3, 4] by
    rw [List.mem_cons, List.mem_cons, List.mem_cons, List.mem_cons, List.mem_singleton]
    omega)
  have hnodup : (pre ++ e :: post).Nodup := hl ▸ (by decide : [0, 1, 2, 3, 4].Nodup)
  obtain ⟨hpre, hpost⟩ : e ∉ pre ∧ e ∉ post := by
    rw [List.nodup_middle, List.nodup_cons, List.mem_append, not_or] at hnodup
    exact hnodup.1
  set g0 : Pkg := { s.g k with straps := mins (s.g k).straps site (a, orientOf a), regs := rs, started := mins (s.g k).started site true } with hg0
  have hplaces (l : List Nat) (g : Pkg) : (l.foldl (Pkg.trainStep k site []) g).places = g.places :=
    foldl_keeps (P := Pkg.places) (fun g i => trainStep_places k site [] g i) l g
  obtain ⟨hh, hn⟩ := live_of_places (hplaces pre g0) s'
  have hlive0 : g0.netLive s' = true := by
    rw [← hlive]
    unfold Pkg.netLive Pkg.dieLive
    rw [show g0.hole s' = (s.g k).hole s' from rfl, show mget false g0.started s' = mget false (s.g k).started s' from mget_mins_ne _ _ _ hfar]
  rw [hl, List.foldl_append, List.foldl_cons] at hg
  obtain ⟨h1, h2⟩ := trainSteps_other hf (tests := []) (k := k) post ((pre.foldl (Pkg.trainStep k site []) g0).trainStep k site [] e) hpost
  obtain ⟨h3, h4, h5, h6⟩ := trainStep_clean hf (k := k) (pre.foldl (Pkg.trainStep k site []) g0) (hh.trans hhole) (hn.trans hlive0)
  rw [hg, h1, h2]
  refine ⟨?_, h3, h4, h5, h6⟩
  rw [hplaces, trainStep_places, hplaces]
  rfl
end

/-! ### Wrong straps -/

section
variable {s : Pack} {k : Nat}

theorem failPkg_logSeq (g : Pkg) : g.failPkg.logSeq = g.logSeq := by
  unfold Pkg.failPkg
  split <;> rfl

theorem stackPortLost_logSeq (g : Pkg) (j p : Nat) : (g.stackPortLost j p).logSeq = g.logSeq := by
  unfold Pkg.stackPortLost
  dsimp only
  split
  · rfl
  · split
    · rfl
    · exact failPkg_logSeq _

theorem stackPortDown_logSeq (s : Pack) (j p : Nat) : ((s.stackPortDown k j p).g k).logSeq = (s.g k).logSeq := by
  unfold Pack.stackPortDown
  split
  · rfl
  · rw [Pack.on_g_self, stackPortLost_logSeq, portDrop_g]
    rfl

theorem skipFlit_logSeq (s : Pack) (f : Flit) : ((s.skipFlit f).g k).logSeq = (s.g k).logSeq := by
  unfold Pack.skipFlit
  split
  · exact Pack.on_keeps (P := Pkg.logSeq) _ _ _ rfl
  · rfl

/-- A site that is lost while its ports carry nothing leaves no record of its own. -/
theorem siteLost_logSeq {site : Nat} (x : SiteSt)
    (h : ∀ i, i < 32 → portSites.getD (i / 4) 99 = site → (s.g k).portState i = 0 ∨ (s.g k).portState i = 4) :
    ((s.siteLost k site x).g k).logSeq = (s.g k).logSeq := by
  unfold Pack.siteLost
  rw [portsDown_none h]
  extract_lets s0 gone s1 s2 s3
  have h1 : (s1.g k).logSeq = (s.g k).logSeq := by
    show ((s.on k _).g k).logSeq = _
    rw [Pack.on_g_self]
    refine (foldl_keeps (P := Pkg.logSeq) (fun g e => ?_) [0, 1, 2, 3, 4] { s.g k with sites := mins (s.g k).sites site x }).trans rfl
    split <;> rfl
  have h2 : (s2.g k).logSeq = (s1.g k).logSeq := foldl_keeps (P := fun p : Pack => (p.g k).logSeq) (fun p f => skipFlit_logSeq p f) ..
  have h3 : (s3.g k).logSeq = (s2.g k).logSeq :=
    foldl_keeps (P := fun p : Pack => (p.g k).logSeq) (fun p j => by
      beta_reduce
      split
      · exact stackPortDown_logSeq ..
      · rfl) ..
  rw [← h1, ← h2, ← h3]
  split
  · exact Pack.on_keeps (P := Pkg.logSeq) _ _ _ (failPkg_logSeq _)
  · rfl

/-- An end that a lost die's edge leads to is off too (R276). -/
theorem cutOff_far (g : Pkg) (x : SiteSt) {site e s' f : Nat} (hf : facing site e = some (s', f)) : ((g.cutOff site x).edge s' f).state = 0 := by
  obtain ⟨-, he, -⟩ := facing_apart hf
  have hfold : ∀ (l : List Nat) (g : Pkg), (e ∈ l ∨ (g.edge s' f).state = 0) → ((l.foldl (fun g e => match facing site e with
      | some (t, f) => (g.endOff t f 0).onEdge site e (fun x =>
          { x with state := 0, retry := [], pend := none, told := false, ann := [], back := none, todo := [] })
      | none => g) g).edge s' f).state = 0 := by
    intro l
    induction l with
    | nil => exact fun g h => h.resolve_left List.not_mem_nil
    | cons i l ih =>
      intro g h
      rw [List.foldl_cons]
      refine ih _ ?_
      rcases h with h | h
      · rcases List.mem_cons.mp h with rfl | h
        · refine .inr ?_
          rw [hf]
          dsimp only
          rw [Pkg.onEdge, edge_setEdge_ne _ _ (facing_ne hf), endOff_edge]
          rfl
        · exact .inl h
      · refine .inr ?_
        split
        · exact setEdge_off _ _ _ rfl (setEdge_off _ _ _ rfl h)
        · exact h
  exact hfold [0, 1, 2, 3, 4] { g with sites := mins g.sites site x } (.inl (by
    rw [List.mem_cons, List.mem_cons, List.mem_cons, List.mem_cons, List.mem_singleton]
    omega))

/-- A die whose straps name no site, or not with its own orientation, fails; its edges go off and the fault is logged (R17, R19). -/
theorem dieStart_strapFault {site e s' f a b : Nat} {tests : List EdgeTest} (hf : facing site e = some (s', f)) (hsite : site < 48)
    (hst : (s.g k).siteSt site = .active) (hcold : mget false (s.g k).started site = false) (hbad : 47 < a ∨ b ≠ orientOf a)
    (h : ∀ i, i < 32 → portSites.getD (i / 4) 99 = site → (s.g k).portState i = 0 ∨ (s.g k).portState i = 4) :
    let g' := (s.dieStart k site a b tests).g k
    g'.siteSt site = .failed ∧ g'.started = (s.g k).started ∧ (g'.edge site e).state = 0 ∧ (g'.edge s' f).state = 0 ∧ g'.logSeq = (s.g k).logSeq + 1 := by
  intro g'
  obtain ⟨-, he, -⟩ := facing_apart hf
  have hself := Pack.on_g_self s k (fun g => { g with straps := mins g.straps site (a % 64, b % 8) })
  have hports : ∀ i, i < 32 → portSites.getD (i / 4) 99 = site →
      ((s.on k (fun g => { g with straps := mins g.straps site (a % 64, b % 8) })).g k).portState i = 0 ∨
      ((s.on k (fun g => { g with straps := mins g.straps site (a % 64, b % 8) })).g k).portState i = 4 := by
    rw [hself]
    exact h
  have hstand := siteLost_standing (site := site) .failed hports
  have hbystand := siteLost_bystanders (site := site) .failed hports
  have hlog := siteLost_logSeq (site := site) .failed hports
  rw [hself] at hstand hbystand hlog
  obtain ⟨hsites, hstarted⟩ := Prod.mk.inj hstand
  obtain ⟨-, hrest⟩ := Prod.mk.inj hbystand
  obtain ⟨hedges, -⟩ := Prod.mk.inj hrest
  have hg : g' = (((s.on k (fun g => { g with straps := mins g.straps site (a % 64, b % 8) })).siteLost k site .failed).g k).logAt
      0x020F site 0xFF 0xFF a b 0 := by
    show (s.dieStart k site a b tests).g k = _
    unfold Pack.dieStart
    dsimp only
    rw [if_neg (dieStart_goes hsite hst hcold), if_neg (by rw [hst]; simp), if_pos hbad, Pack.on_g_self]
  have hstate {t i : Nat} : (g'.edge t i).state = (({ s.g k with straps := mins (s.g k).straps site (a % 64, b % 8) } : Pkg).cutOff site .failed |>.edge t i).state := by
    rw [hg, logAt_edge]
    exact congrArg (fun m : Map Edge => (mget {} m (ek t i)).state) hedges
  refine ⟨?_, ?_, ?_, ?_, ?_⟩
  · rw [hg, Pkg.siteSt, Pkg.logAt_sites, hsites, mget_mins_self]
  · rw [hg, Pkg.logAt_started, hstarted]
  · rw [hstate]
    exact cutOff_edges _ _ _ he (by rw [hf]; simp)
  · rw [hstate]
    exact cutOff_far _ _ hf
  · rw [hg, Pkg.logAt_logSeq, hlog]
end

end Sys2Proof.Machine
end

section
/-! PROOFS. What frames hold, and what an end of an edge sends; for O48 -/

namespace Sys2Proof.Machine

/-! ## What frames hold -/

theorem upsetWords_nil (ws : List Nat) : upsetWords ws [] = ws := by
  unfold upsetWords
  refine List.ext_getElem (by simp) fun i h1 h2 => ?_
  simp [List.getD_eq_getElem?_getD, List.getElem?_eq_getElem h2]

theorem crc32c_lt (bs : List Byte) : crc32c bs < 2 ^ 32 := BitVec.isLt _

section
variable (r : SentFrm) (ack : Nat) (nak : Bool)

/-- The 32 flit words of a frame. -/
def flitWords : List Nat := (List.range 32).map (fun i => ((r.flits[i]?).map (·.body % 2 ^ 256)).getD 0)

/-- The control word of a frame, but for its CRC. -/
def ctlWord : Nat := r.n % 4096 * 2 ^ 32 + ack % 4096 * 2 ^ 44 + b2n nak * 2 ^ 56 + b2n r.mapu.isSome * 2 ^ 57 +
    Config.creditWord r.ret % 2 ^ 64 * 2 ^ 64 + r.mapu.getD 0 % 2 ^ 23 * 2 ^ 128

theorem frameWords_eq : frameWords r ack nak = (flitWords r ++ [laneParity (flitWords r)]) ++
    [ctlWord r ack nak + frameCrc ((flitWords r ++ [laneParity (flitWords r)]) ++ [ctlWord r ack nak])] := rfl

theorem flitWords_length : (flitWords r).length = 32 := by simp [flitWords]

/-- The lane parity of a frame that the lanes leave alone holds (R264). -/
theorem frame_parity : laneParity (frameWords r ack nak) ^^^ (frameWords r ack nak).getD 32 0 = 0 := by
  have hlen := flitWords_length r
  have htake : (frameWords r ack nak).take 32 = flitWords r := by
    rw [frameWords_eq, List.append_assoc, List.take_append_of_le_length (by omega), List.take_of_length_le (by omega)]
  have hpar : laneParity (frameWords r ack nak) = laneParity (flitWords r) := by
    unfold laneParity
    rw [htake, List.take_of_length_le (by omega)]
  have hget : (frameWords r ack nak).getD 32 0 = laneParity (flitWords r) := by
    rw [frameWords_eq, List.append_assoc, List.getD_append_right _ _ _ _ (by omega), hlen]
    rfl
  rw [hpar, hget, Nat.xor_self]

theorem frame_ctl : ∃ c, c < 2 ^ 32 ∧ (frameWords r ack nak).getD 33 0 = ctlWord r ack nak + c := by
  have hlen := flitWords_length r
  refine ⟨frameCrc ((flitWords r ++ [laneParity (flitWords r)]) ++ [ctlWord r ack nak]), crc32c_lt _, ?_⟩
  have h33 : (flitWords r ++ [laneParity (flitWords r)]).length = 33 := by rw [List.length_append, hlen, List.length_singleton]
  rw [frameWords_eq, List.getD_append_right _ _ _ _ (by omega), h33, Nat.sub_self, List.getD_cons_zero]

/-- FSEQ, ACK and NAK of a frame that the lanes leave alone (R264). -/
theorem frame_fields : ctlF (frameWords r ack nak) 43 32 = r.n % 4096 ∧ ctlF (frameWords r ack nak) 55 44 = ack % 4096 ∧
    ctlF (frameWords r ack nak) 56 56 = b2n nak := by
  obtain ⟨c, hc, hctl⟩ := frame_ctl r ack nak
  have hnak : b2n nak ≤ 1 := by cases nak <;> decide
  unfold ctlF
  rw [hctl]
  unfold ctlWord
  generalize Config.creditWord r.ret % 2 ^ 64 = e
  generalize r.mapu.getD 0 % 2 ^ 23 = m
  generalize b2n r.mapu.isSome = d
  omega

theorem frame_body {i : Nat} (hi : i < 32) (h : i < r.flits.length) : (frameWords r ack nak).getD i 0 = r.flits[i].body % 2 ^ 256 := by
  have hlen := flitWords_length r
  rw [frameWords_eq, List.append_assoc, List.getD_append _ _ _ _ (by omega)]
  simp [flitWords, hi, h]
end

/-- The flits of a frame with bodies of 32 bytes. -/
def cutFlits (fs : List Flit) : List Flit := fs.map (fun q => { q with body := q.body % 2 ^ 256 })

theorem bodies_eq {fs : List Flit} {b : Nat → Nat} (h : ∀ i (hi : i < fs.length), b i = fs[i].body % 2 ^ 256) : bodies fs b = cutFlits fs := by
  unfold bodies cutFlits
  refine List.ext_getElem (by simp) fun i h1 h2 => ?_
  have hi : i < fs.length := by simpa using h2
  simp [h i hi]

/-! ## Flits go on, whatever the edges are -/

/-- A package with other edges. -/
def Pkg.edged (g : Pkg) (m : Map Edge) : Pkg := { g with net := { g.net with edges := m } }

theorem drain_edged : ∀ (n : Nat) (x : Net) (m : Map Edge), Net.drain n { x with edges := m } = { Net.drain n x with edges := m }
  | 0, _, _ => rfl
  | n + 1, x, m => by
    unfold Net.drain
    dsimp only
    split
    · rfl
    · next f hf => exact drain_edged n { x with reord := x.reord.filter (· != f), rx := mupd 0 x.rx (flitKey f) (· + 1), got := x.got ++ [f] } m

theorem arrive_edged (x : Net) (f : Flit) (m : Map Edge) : ({ x with edges := m } : Net).arrive f = { x.arrive f with edges := m } := by
  unfold Net.arrive
  dsimp only
  split
  · rfl
  · exact drain_edged (x.reord.length + 1) { x with reord := x.reord ++ [f] } m

theorem way_edged (g : Pkg) (site : Nat) (f : Flit) (m : Map Edge) : (g.edged m).way site f = g.way site f := rfl

theorem flitsIn_edged (g : Pkg) (site : Nat) (fs : List Flit) (m : Map Edge) : (g.edged m).flitsIn site fs = (g.flitsIn site fs).edged m := by
  have hstep : ∀ (l : List Flit) (g : Pkg), l.foldl (fun g f => if g.way site f = .here then { g with net := g.net.arrive f } else g.inject site [f]) (g.edged m) =
      (l.foldl (fun g f => if g.way site f = .here then { g with net := g.net.arrive f } else g.inject site [f]) g).edged m := by
    intro l
    induction l with
    | nil => exact fun _ => rfl
    | cons f l ih =>
      intro g
      rw [List.foldl_cons, List.foldl_cons, way_edged, ← ih]
      congr 1
      split
      · exact congrArg (fun x : Net => { g with net := x }) (arrive_edged g.net f m)
      · rfl
  exact hstep fs { g with net := { g.net with got := [] } }

theorem flitsIn_edge (g : Pkg) (site : Nat) (fs : List Flit) (t i : Nat) : (g.flitsIn site fs).edge t i = g.edge t i := by
  show ((g.edged g.net.edges).flitsIn site fs).edge t i = _
  rw [flitsIn_edged]
  rfl

/-- A package that another one is but for its edges. -/
def Pkg.SameButEdges (g g0 : Pkg) : Prop := ∃ m, g = g0.edged m

namespace Pkg.SameButEdges
variable {g g0 : Pkg} (h : g.SameButEdges g0)
include h

theorem setEdge (site e : Nat) (x : Edge) : (g.setEdge site e x).SameButEdges g0 := by
  obtain ⟨m, rfl⟩ := h
  exact ⟨_, rfl⟩

theorem onEdge (site e : Nat) (f : Edge → Edge) : (g.onEdge site e f).SameButEdges g0 := h.setEdge ..

/-- Its flits go the same ways. -/
theorem flits (site : Nat) (fs : List Flit) : (g.flitsIn site fs).net.got = (g0.flitsIn site fs).net.got ∧
    (g.flitsIn site fs).net.hold = (g0.flitsIn site fs).net.hold := by
  obtain ⟨m, rfl⟩ := h
  rw [flitsIn_edged]
  exact ⟨rfl, rfl⟩

theorem rx : g.net.rx = g0.net.rx := by
  obtain ⟨m, rfl⟩ := h
  rfl
end Pkg.SameButEdges

theorem Pkg.sameButEdges_self (g : Pkg) : g.SameButEdges g := ⟨g.net.edges, rfl⟩

/-! ## What an end sends -/

/-- What the sending of a frame leaves of its end: the receiver's part. -/
def Edge.receiver (x : Edge) : Nat × Nat × Bool × Nat := (x.state, x.next, x.nak, x.powed)

theorem ackNo_of_receiver {x y : Edge} (h : x.receiver = y.receiver) : x.ackNo = y.ackNo := by
  obtain ⟨hst, hrest⟩ := Prod.mk.inj h
  obtain ⟨hnext, -⟩ := Prod.mk.inj hrest
  rw [Edge.ackNo, hst, hnext, Edge.ackNo]

theorem powed_of_receiver {x y : Edge} (h : x.receiver = y.receiver) : x.state = y.state ∧ x.nak = y.nak ∧ x.powed = y.powed := by
  obtain ⟨hst, hrest⟩ := Prod.mk.inj h
  obtain ⟨-, hrest⟩ := Prod.mk.inj hrest
  exact ⟨hst, Prod.mk.inj hrest⟩

/-- A package whose end at `t`, `f` has sent: no other end and no other receiver has changed. -/
structure Pkg.Sent (g g2 : Pkg) (t f : Nat) : Prop where
  others : ∀ a b, ek a b ≠ ek t f → g2.edge a b = g.edge a b
  receiver : (g2.edge t f).receiver = (g.edge t f).receiver
  rx : g2.net.rx = g.net.rx

section
variable {g : Pkg} {t f : Nat}

theorem sent_setEdge {x : Edge} (h : x.receiver = (g.edge t f).receiver) : g.Sent (g.setEdge t f x) t f where
  others _ _ hne := edge_setEdge_ne _ _ hne
  receiver := by rw [edge_setEdge_self, h]
  rx := rfl

theorem Pkg.Sent.setEdge {g2 : Pkg} (h : g.Sent g2 t f) {x : Edge} (hx : x.receiver = (g2.edge t f).receiver) : g.Sent (g2.setEdge t f x) t f where
  others _ _ hne := (edge_setEdge_ne _ _ hne).trans (h.others _ _ hne)
  receiver := by rw [edge_setEdge_self, hx, h.receiver]
  rx := h.rx

theorem Pkg.Sent.of_net {q g2 : Pkg} (h : q.Sent g2 t f) (hedges : q.net.edges = g.net.edges) (hrx : q.net.rx = g.net.rx) : g.Sent g2 t f := by
  have hedge (a b : Nat) : q.edge a b = g.edge a b := congrArg (fun m => mget _ m _) hedges
  exact ⟨fun a b hne => (h.others a b hne).trans (hedge a b), h.receiver.trans (congrArg _ (hedge t f)), h.rx.trans hrx⟩

/-- What waits to be sent, or flits that leave by an edge, for a new frame or packet. -/
def Pkg.newFrame (g : Pkg) (t f n : Nat) : SentFrm × Pkg :=
  match (g.edge t f).todo with
  | r :: rest => (r, g.setEdge t f { g.edge t f with todo := rest })
  | [] => ({ flits := (g.pick t (.edge f) n (fun _ _ => true)).1 }, (g.pick t (.edge f) n (fun _ _ => true)).2.setEdge t f
      { g.edge t f with tot := (g.edge t f).tot.send ((g.pick t (.edge f) n (fun _ _ => true)).1.map (·.ch)) })

theorem newFrame_sent {n : Nat} : g.Sent (g.newFrame t f n).2 t f := by
  unfold Pkg.newFrame
  split
  · exact sent_setEdge rfl
  · refine (sent_setEdge ?_).of_net rfl rfl
    rfl

/-- The frame that a NAK asks for again. -/
def Pkg.asked (g : Pkg) (t f : Nat) : Option SentFrm := (g.edge t f).back.bind (fun b => (g.edge t f).retry.find? (fun r => r.n == b))

theorem sendFrame_again {r : SentFrm} (h : g.asked t f = some r) : g.sendFrame t f =
    some (r, g.setEdge t f { g.edge t f with back := if (r.n + 1) % 4096 = (g.edge t f).sn then none else some ((r.n + 1) % 4096) }) := by
  unfold Pkg.sendFrame
  extract_lets y
  rw [show y.back.bind (fun b => y.retry.find? (fun r => r.n == b)) = some r from h]

theorem sendPacket_again {r : SentFrm} (h : g.asked t f = some r) : g.sendPacket t f =
    some (r, g.setEdge t f { g.edge t f with back := if (r.n + 1) % 65536 = (g.edge t f).sn then none else some ((r.n + 1) % 65536) }) := by
  unfold Pkg.sendPacket
  extract_lets y
  rw [show y.back.bind (fun b => y.retry.find? (fun r => r.n == b)) = some r from h]

/-- A new frame as it leaves. -/
def Pkg.numbered (g : Pkg) (t f : Nat) : SentFrm × Pkg :=
  let p := g.newFrame t f 32
  let r := { p.1 with n := (g.edge t f).sn, ret := p.1.ret ++ (g.edge t f).tot.due (2 ^ 32), mapu := (g.edge t f).ann.head? }
  (r, p.2.onEdge t f (fun y =>
    { y with retry := y.retry ++ [r], sn := (y.sn + 1) % 4096, back := none, ann := y.ann.tail, tot := y.tot.give ((g.edge t f).tot.due (2 ^ 32)) }))

theorem sendFrame_new (h : g.asked t f = none) : g.sendFrame t f = if 256 ≤ (g.edge t f).retry.length then none else some (g.numbered t f) := by
  unfold Pkg.sendFrame
  extract_lets y
  rw [show y.back.bind (fun b => y.retry.find? (fun r => r.n == b)) = none from h]
  rfl

/-- A new packet as it leaves. -/
def Pkg.packed (g : Pkg) (t f : Nat) : SentFrm × Pkg :=
  let p := g.newFrame t f 2
  let r := { p.1 with n := (g.edge t f).sn, ret := p.1.ret ++ (g.edge t f).tot.due (2 ^ 32) }
  (r, p.2.onEdge t f (fun y =>
    { y with retry := y.retry ++ [r], sn := (y.sn + 1) % 65536, back := none, credits := y.credits - 1, tot := y.tot.give ((g.edge t f).tot.due (2 ^ 32)) }))

theorem sendPacket_new (h : g.asked t f = none) : g.sendPacket t f =
    if (g.edge t f).credits = 0 ∨ 1024 ≤ (g.edge t f).retry.length then none
    else if (g.packed t f).1.flits.isEmpty && (g.packed t f).1.ret.isEmpty then none else some (g.packed t f) := by
  unfold Pkg.sendPacket
  extract_lets y
  rw [show y.back.bind (fun b => y.retry.find? (fun r => r.n == b)) = none from h]
  rfl

theorem sendFrame_sent {r : SentFrm} {g2 : Pkg} (h : g.sendFrame t f = some (r, g2)) : g.Sent g2 t f := by
  cases hask : g.asked t f with
  | some q =>
    rw [sendFrame_again hask] at h
    obtain ⟨-, rfl⟩ := Prod.mk.inj (Option.some.inj h)
    exact sent_setEdge rfl
  | none =>
    rw [sendFrame_new hask] at h
    split at h
    · cases h
    · obtain ⟨-, rfl⟩ := Prod.mk.inj (Option.some.inj h)
      exact newFrame_sent.setEdge rfl

theorem sendPacket_sent {r : SentFrm} {g2 : Pkg} (h : g.sendPacket t f = some (r, g2)) : g.Sent g2 t f := by
  cases hask : g.asked t f with
  | some q =>
    rw [sendPacket_again hask] at h
    obtain ⟨-, rfl⟩ := Prod.mk.inj (Option.some.inj h)
    exact sent_setEdge rfl
  | none =>
    rw [sendPacket_new hask] at h
    split at h
    · cases h
    · split at h
      · cases h
      · obtain ⟨-, rfl⟩ := Prod.mk.inj (Option.some.inj h)
        exact newFrame_sent.setEdge rfl

/-- A new frame of an end with nothing waiting: the flits that leave by the edge, kept until it is acknowledged (R265). -/
theorem numbered_says (h : (g.edge t f).todo = []) : (g.numbered t f).1.n = (g.edge t f).sn ∧
    (g.numbered t f).1.flits = (g.pick t (.edge f) 32 (fun _ _ => true)).1 ∧
    ((g.numbered t f).2.edge t f).retry = (g.edge t f).retry ++ [(g.numbered t f).1] ∧ ((g.numbered t f).2.edge t f).sn = ((g.edge t f).sn + 1) % 4096 := by
  unfold Pkg.numbered Pkg.newFrame
  rw [h]
  dsimp only
  rw [Pkg.onEdge, edge_setEdge_self, edge_setEdge_self]
  exact ⟨rfl, rfl, rfl, rfl⟩
end

end Sys2Proof.Machine
end

section
/-! PROOFS. Frames received, windows, switches, retraining; for O48 -/

namespace Sys2Proof.Machine

/-! ## Parity failures of one frame -/

theorem nodup_eraseDups : ∀ (n : Nat) (l : List Nat), l.length ≤ n → l.eraseDups.Nodup
  | _, [], _ => List.nodup_nil
  | n + 1, a :: l, h => by
    rw [List.eraseDups_cons, List.nodup_cons]
    refine ⟨fun hc => ?_, nodup_eraseDups n _ ((List.length_filter_le ..).trans (Nat.le_of_succ_le_succ h))⟩
    simp at hc

/-- Each lane takes one failure of a frame at most. -/
theorem failures_length {now w : Nat} : ∀ (l : List Nat) (m : Map (List Nat)) (i : Nat), l.Nodup →
    (mget [] (l.foldl (fun (m : Map (List Nat)) l => mupd [] m l (fun ts => ((now :: ts).filter (fun t => decide (now ≤ t + w))).take 8)) m) i).length ≤
      (mget [] m i).length + if i ∈ l then 1 else 0
  | [], m, i, _ => by simp
  | a :: l, m, i, h => by
    obtain ⟨ha, hl⟩ := List.nodup_cons.mp h
    rw [List.foldl_cons]
    refine (failures_length l _ i hl).trans ?_
    unfold mupd
    by_cases hi : i = a
    · subst hi
      rw [mget_mins_self, if_neg ha, if_pos List.mem_cons_self, List.length_take]
      exact (Nat.min_le_right ..).trans (List.length_filter_le ..)
    · rw [mget_mins_ne _ _ _ hi]
      refine Nat.add_le_add_left ?_ _
      split
      · next hmem => rw [if_pos (List.mem_cons_of_mem _ hmem)]
      · exact Nat.zero_le _

section
variable (g : Pkg) {site e gap : Nat} {ws : List Nat}

theorem declare_none {cause : Nat} : g.declare' site e cause [] = g := rfl

/-- The checks of a frame whose lane parity holds pass (R268). -/
theorem parityCheck_clean (h : laneParity ws ^^^ ws.getD 32 0 = 0) : g.parityCheck site e gap ws =
    g.setEdge site e { g.edge site e with now := (g.edge site e).now + 1 + gap } := by
  unfold Pkg.parityCheck
  rw [h]
  rfl

/-- The failures of one frame, the first that a window sees, declare no lane. -/
theorem parityCheck_first (h : (g.edge site e).lanes = []) : ∃ lanes now, g.parityCheck site e gap ws =
    g.setEdge site e { g.edge site e with lanes := lanes, now := now } := by
  unfold Pkg.parityCheck
  extract_lets x hb now d bits lanes g1
  refine ⟨lanes, now, ?_⟩
  have hnone : bits.eraseDups.filter (fun l => decide (8 ≤ (mget [] lanes l).length)) = [] := by
    refine List.filter_eq_nil_iff.mpr fun l hl => ?_
    have hlen := failures_length (now := now) (w := frameTimes hb) bits.eraseDups x.lanes l (nodup_eraseDups _ _ le_rfl)
    rw [if_pos hl, h] at hlen
    have hshort : (mget [] lanes l).length ≤ 1 := by
      unfold lanes
      rw [h]
      exact hlen
    exact fun hc => absurd (of_decide_eq_true hc) (by omega)
  rw [hnone]
  rfl
end

/-! ## A frame is received -/

section
variable (g : Pkg) (site e t f gap : Nat) (r : SentFrm) (bits : List Nat)

/-- A frame's words, at the sending end. -/
def Pkg.wordsOf : List Nat := upsetWords (frameWords r (g.edge t f).ackNo (g.edge t f).nak) bits

/-- A good frame that is next in turn is taken. -/
def Pkg.frameTaken (ws : List Nat) : Pkg :=
  ((g.onEdge site e (fun x => { x with next := (x.next + 1) % 4096, nak := false, tot := (x.tot.take (r.flits.map (·.ch))).credit r.ret })).toldBy t f).flitsIn
    site (bodies r.flits (fun i => ws.getD i 0))

/-- What a frame does at its receiver. -/
def Pkg.frameIn : Pkg :=
  let ws := g.wordsOf t f r bits
  let x := g.edge site e
  let g := g.parityCheck site e gap ws
  if (g.edge site e).state ≠ 2 then g
  else if !bits.isEmpty && frameCrc ws != ctlF ws 31 0 then g.crcFail site e
  else
    let g := g.ctlIn site e t f (ctlF ws 55 44) (ctlF ws 56 56 == 1)
    if ctlF ws 43 32 ≠ x.next then g else g.frameTaken site e t f r ws
end

section
variable {s : Pack} {k site e s' f gap : Nat} {errs : List (Nat × Nat)} {r : SentFrm} {g2 : Pkg} (hf : facing site e = some (s', f))
  (hst : ((s.g k).edge site e).state = 2) (hpend : ((s.g k).edge site e).pend = none) (hsend : (s.g k).sendFrame s' f = some (r, g2))
  (hbad : r.bad = false)
include hf hst hpend hsend hbad

/-- A frame whose buffers come out well is received. -/
theorem d2dFrame_g : (s.d2dFrame k site e gap [] errs .ok .ok).g k =
    g2.frameIn site e s' f gap r (((s.g k).edge site e).wireBits (hubEnd site e) errs) := by
  have hx := (sendFrame_sent hsend).others site e (facing_ne hf).symm
  have hswitch : ((s.g k).offer s' []).switchStep site e = s.g k := by
    show (s.g k).switchStep site e = s.g k
    unfold Pkg.switchStep
    rw [hf, hpend]
  unfold Pack.d2dFrame
  rw [hf]
  dsimp only
  rw [if_neg (by rw [hst]; decide)]
  have hg : (s.on k (fun g => (g.offer s' []).switchStep site e)).g k = s.g k := by rw [Pack.on_g_self, hswitch]
  rw [hg, if_neg (by rw [hst]; decide), hsend]
  dsimp only
  simp only [reduceCtorEq, if_false, Pack.linkEcc]
  have hput : ((s.on k (fun g => (g.offer s' []).switchStep site e)).put k g2).g k = g2 := mget_mins_self ..
  generalize (s.on k (fun g => (g.offer s' []).switchStep site e)).put k g2 = p at hput ⊢
  rw [hput, hx]
  unfold Pkg.frameIn
  rw [hx]
  have hue : (Ecc.ok == Ecc.ue) = false := rfl
  simp only [apply_ite (fun q : Pack => q.g k), Pack.on_g_self, hput, Pack.flitsTaken, hbad, hue, Bool.false_or, Bool.false_eq_true, if_false]
  rfl
end

theorem seqLe_mod (a b : Nat) : seqLe 4096 a (b % 4096) = seqLe 4096 a b := by
  unfold seqLe
  congr 1
  exact propext (by omega)

/-- A receiver that has taken a frame or packet in turn. -/
def takenEdge (m : Nat) (r : SentFrm) (x : Edge) : Edge :=
  { x with next := (x.next + 1) % m, nak := false, tot := (x.tot.take (r.flits.map (·.ch))).credit r.ret }

/-- What a good frame or packet from the facing end tells the sender at this end, and what it costs the facing end. -/
theorem ctlIn_edges (g : Pkg) {site e s' f : Nat} (hf : facing site e = some (s', f)) (ack : Nat) (nak : Bool) :
    (g.ctlIn site e s' f ack nak).edge site e = { (g.edge site e).acked ack nak with
      credits := min 1024 ((g.edge site e).credits + if (g.edge s' f).state = 3 then (g.edge s' f).powed else 0) } ∧
    (g.ctlIn site e s' f ack nak).edge s' f = { g.edge s' f with
      powed := (g.edge s' f).powed - if (g.edge s' f).state = 3 then (g.edge s' f).powed else 0 } := by
  have hne := facing_ne hf
  unfold Pkg.ctlIn
  rw [Pkg.onEdge, Pkg.onEdge, edge_setEdge_self, edge_setEdge_ne _ _ hne.symm, edge_setEdge_self, edge_setEdge_ne _ _ hne]
  exact ⟨rfl, rfl⟩

theorem ctlIn_same {g g0 : Pkg} (h : g.SameButEdges g0) (site e t f ack : Nat) (nak : Bool) : (g.ctlIn site e t f ack nak).SameButEdges g0 := by
  unfold Pkg.ctlIn
  exact (h.onEdge _ _ _).onEdge _ _ _

section
variable (g : Pkg) {site e s' f gap : Nat} {r : SentFrm} (hf : facing site e = some (s', f)) (hst : (g.edge site e).state = 2)
include hf hst

/-- A frame that the lanes leave alone and that is next in turn is taken (R264, R265). -/
theorem frameIn_good (hlen : r.flits.length ≤ 32) (hnext : r.n % 4096 = (g.edge site e).next) :
    let q := g.frameIn site e s' f gap r []
    (q.edge site e).next = ((g.edge site e).next + 1) % 4096 ∧ (q.edge site e).nak = false ∧
    (q.edge site e).retry = (g.edge site e).retry.filter (fun q => !seqLe 4096 q.n (g.edge s' f).ackNo) ∧
    (q.edge s' f).retry = (g.edge s' f).retry ∧ (q.edge s' f).sn = (g.edge s' f).sn ∧
    q.net.got = (g.flitsIn site (cutFlits r.flits)).net.got ∧ q.net.hold = (g.flitsIn site (cutFlits r.flits)).net.hold := by
  have hne := facing_ne hf
  obtain ⟨hseq, hack, -⟩ := frame_fields r (g.edge s' f).ackNo (g.edge s' f).nak
  have hws : g.wordsOf s' f r [] = frameWords r (g.edge s' f).ackNo (g.edge s' f).nak := upsetWords_nil _
  intro q
  have hq : q = ((g.setEdge site e { g.edge site e with now := (g.edge site e).now + 1 + gap }).ctlIn site e s' f ((g.edge s' f).ackNo % 4096)
      (ctlF (frameWords r (g.edge s' f).ackNo (g.edge s' f).nak) 56 56 == 1)).frameTaken site e s' f r
        (frameWords r (g.edge s' f).ackNo (g.edge s' f).nak) := by
    show g.frameIn site e s' f gap r [] = _
    unfold Pkg.frameIn
    extract_lets ws x g1 g2
    have hg1 : g1 = g.setEdge site e { g.edge site e with now := (g.edge site e).now + 1 + gap } := by
      refine parityCheck_clean g ?_
      rw [show ws = _ from hws]
      exact frame_parity ..
    rw [if_neg (by rw [hg1, edge_setEdge_self, hst]; decide), List.isEmpty_nil, Bool.not_true, Bool.false_and, if_neg Bool.false_ne_true, if_neg (by rw [show ws = _ from hws, hseq, hnext]; simp [x])]
    unfold g2
    rw [hg1, show ws = _ from hws, hack]
  rw [hq]
  obtain ⟨hnear, hfar⟩ := ctlIn_edges (g.setEdge site e { g.edge site e with now := (g.edge site e).now + 1 + gap }) hf ((g.edge s' f).ackNo % 4096)
    (ctlF (frameWords r (g.edge s' f).ackNo (g.edge s' f).nak) 56 56 == 1)
  rw [edge_setEdge_self] at hnear
  rw [edge_setEdge_ne _ _ hne] at hfar
  have hsame := ctlIn_same (g.sameButEdges_self.setEdge site e { g.edge site e with now := (g.edge site e).now + 1 + gap }) site e s' f
    ((g.edge s' f).ackNo % 4096) (ctlF (frameWords r (g.edge s' f).ackNo (g.edge s' f).nak) 56 56 == 1)
  generalize (g.setEdge site e { g.edge site e with now := (g.edge site e).now + 1 + gap }).ctlIn site e s' f ((g.edge s' f).ackNo % 4096)
      (ctlF (frameWords r (g.edge s' f).ackNo (g.edge s' f).nak) 56 56 == 1) = g1 at hnear hfar hsame ⊢
  obtain ⟨hgot, hhold⟩ := ((hsame.onEdge site e (takenEdge 4096 r)).onEdge s' f (fun y => { y with told := y.pend.isSome && y.ann.isEmpty })).flits site
    (bodies r.flits (fun i => (frameWords r (g.edge s' f).ackNo (g.edge s' f).nak).getD i 0))
  rw [bodies_eq (fun i hi => frame_body r _ _ (by omega) hi)] at hgot hhold
  have hback : (g1.frameTaken site e s' f r (frameWords r (g.edge s' f).ackNo (g.edge s' f).nak)).edge site e = takenEdge 4096 r (g1.edge site e) := by
    unfold Pkg.frameTaken
    rw [flitsIn_edge, Pkg.toldBy, Pkg.onEdge, edge_setEdge_ne _ _ hne.symm, Pkg.onEdge, edge_setEdge_self]
    rfl
  have hthere : (g1.frameTaken site e s' f r (frameWords r (g.edge s' f).ackNo (g.edge s' f).nak)).edge s' f =
      { g1.edge s' f with told := (g1.edge s' f).pend.isSome && (g1.edge s' f).ann.isEmpty } := by
    unfold Pkg.frameTaken
    rw [flitsIn_edge, Pkg.toldBy, Pkg.onEdge, edge_setEdge_self, Pkg.onEdge, edge_setEdge_ne _ _ hne]
  rw [hback, hthere, hnear, hfar]
  refine ⟨rfl, rfl, ?_, rfl, rfl, ?_, ?_⟩
  · refine List.filter_congr fun p _ => ?_
    rw [seqLe_mod]
  · rw [← hgot, ← bodies_eq (b := fun i => (frameWords r (g.edge s' f).ackNo (g.edge s' f).nak).getD i 0) (fun i hi => frame_body r _ _ (by omega) hi)]
    rfl
  · rw [← hhold, ← bodies_eq (b := fun i => (frameWords r (g.edge s' f).ackNo (g.edge s' f).nak).getD i 0) (fun i hi => frame_body r _ _ (by omega) hi)]
    rfl

omit hst in
/-- An announcement changes what its end has to announce alone (R267). -/
theorem announce_eq (fb : Bool) (lane : Nat) : ∃ pend ann, g.announce site e fb lane =
    g.setEdge site e { g.edge site e with pend := pend, told := false, ann := ann } := by
  unfold Pkg.announce
  rw [hf]
  exact ⟨_, _, rfl⟩

omit hst in
/-- A CRC failure is counted and the frame asked for again (R267). -/
theorem crcFail_says : ((g.crcFail site e).edge site e).next = (g.edge site e).next ∧ ((g.crcFail site e).edge site e).nak = true ∧
    ((g.crcFail site e).edge site e).fails = (g.edge site e).fails + 1 ∧ (g.crcFail site e).edge s' f = g.edge s' f ∧ (g.crcFail site e).net.rx = g.net.rx := by
  have hne := facing_ne hf
  unfold Pkg.crcFail
  extract_lets x g1
  have h1 : g1.edge site e = { x with fails := x.fails + 1, nak := true, resend := if x.nak then x.resend else min 65535 (x.resend + 1) } := edge_setEdge_self ..
  split
  · obtain ⟨pend, ann, heq⟩ := announce_eq g1 hf true 0
    rw [heq, edge_setEdge_self, edge_setEdge_ne _ _ hne, h1]
    exact ⟨rfl, rfl, rfl, edge_setEdge_ne _ _ hne, rfl⟩
  · rw [h1]
    exact ⟨rfl, rfl, rfl, edge_setEdge_ne _ _ hne, rfl⟩

/-- A frame whose CRC fails is dropped, counted and answered with a NAK (R264, R265, R267). -/
theorem frameIn_bad {bits : List Nat} (hlanes : (g.edge site e).lanes = []) (hbits : bits ≠ [])
    (hcrc : frameCrc (g.wordsOf s' f r bits) ≠ ctlF (g.wordsOf s' f r bits) 31 0) :
    let q := g.frameIn site e s' f gap r bits
    (q.edge site e).next = (g.edge site e).next ∧ (q.edge site e).nak = true ∧ (q.edge site e).fails = (g.edge site e).fails + 1 ∧
    (q.edge s' f).retry = (g.edge s' f).retry ∧ q.net.rx = g.net.rx := by
  obtain ⟨lanes, now, hpar⟩ := parityCheck_first g (gap := gap) (ws := g.wordsOf s' f r bits) hlanes
  have hcond : (!bits.isEmpty && frameCrc (g.wordsOf s' f r bits) != ctlF (g.wordsOf s' f r bits) 31 0) = true := by
    rw [Bool.and_eq_true, bne_iff_ne, Bool.not_eq_true', List.isEmpty_eq_false_iff]
    exact ⟨hbits, hcrc⟩
  intro q
  have hq : q = (g.setEdge site e { g.edge site e with lanes := lanes, now := now }).crcFail site e := by
    show g.frameIn site e s' f gap r bits = _
    unfold Pkg.frameIn
    extract_lets ws x g1 g2
    rw [show g1 = _ from hpar, if_neg (by rw [edge_setEdge_self, hst]; decide), if_pos hcond]
  obtain ⟨h1, h2, h3, h4, h5⟩ := crcFail_says (g.setEdge site e { g.edge site e with lanes := lanes, now := now }) hf
  rw [edge_setEdge_self] at h1 h3
  rw [hq, h1, h2, h3, h4, h5, edge_setEdge_ne _ _ (facing_ne hf)]
  exact ⟨rfl, rfl, rfl, rfl, rfl⟩
end

/-! ## Windows, switches, retraining -/

section
variable (g : Pkg) {site e s' f : Nat}

/-- The end of a window moves the count of failures to FERCNT (R267, R273). -/
theorem d2dWindow_says (hup : (g.edge site e).up = true) : ((g.d2dWindow site e).edge site e).fercnt = min 65535 (g.edge site e).fails ∧
    ((g.d2dWindow site e).edge site e).fails = 0 := by
  unfold Pkg.d2dWindow
  extract_lets x g1
  rw [if_neg (by simp [x, hup]), Pkg.onEdge, edge_setEdge_self]
  exact ⟨rfl, rfl⟩

theorem d2dWindow_down (hup : (g.edge site e).up = false) : g.d2dWindow site e = g := by
  unfold Pkg.d2dWindow
  extract_lets x g1
  rw [if_pos (by simp [x, hup])]

theorem mapSwitch_untold (h : (g.edge site e).told = false) : g.mapSwitch site e = g := by
  unfold Pkg.mapSwitch
  rw [h, if_neg Bool.false_ne_true]

section
variable (hf : facing site e = some (s', f))
include hf

section
variable (hst : (g.edge site e).state = 2) (htold : (g.edge site e).told = true)
include hst htold

theorem mapSwitch_applies {fb : Bool} (hpend : (g.edge site e).pend = some ((g.edge s' f).nextNo, fb)) : g.mapSwitch site e = g.applySwitch site e := by
  unfold Pkg.mapSwitch Pkg.switchStep
  rw [htold, if_pos rfl, hf, hpend]
  dsimp only
  rw [if_neg (by rw [hst]; simp), htold, if_pos rfl]

/-- A switch that the sender knows of takes the new map at its frame (R267, R268). -/
theorem mapSwitch_map (hpend : (g.edge site e).pend = some ((g.edge s' f).nextNo, false)) :
    g.mapSwitch site e = g.setEdge site e { g.edge site e with pend := none, told := false, map := (g.edge site e).bad } := by
  rw [mapSwitch_applies g hf hst htold hpend]
  unfold Pkg.applySwitch
  rw [hf, hpend]
  rfl

/-- A switch into the fallback: what the receiver has not taken is sent again as packets (R272). -/
theorem mapSwitch_fallback (hpend : (g.edge site e).pend = some ((g.edge s' f).nextNo, true)) :
    let x := g.edge site e
    let y := g.edge s' f
    let q := g.mapSwitch site e
    (q.edge site e).state = 3 ∧ (q.edge site e).next = 0 ∧ (q.edge site e).map = x.bad ∧
    (q.edge site e).half = decide ((goodLanes (hubEnd site e) x.bad).length < logLanes (hubEnd site e)) ∧ (q.edge site e).fbk = min 65535 (x.fbk + 1) ∧
    (q.edge s' f).retry = [] ∧ (q.edge s' f).sn = 0 ∧ (q.edge s' f).credits = 1024 ∧
    (q.edge s' f).todo = regroup 2 (untaken x.next y.retry ++ y.todo) ∧ q.logSeq = g.logSeq + 1 := by
  have hne := facing_ne hf
  intro x y q
  have hq : q = g.applySwitch site e := mapSwitch_applies g hf hst htold hpend
  rw [hq]
  unfold Pkg.applySwitch
  rw [hf, hpend]
  dsimp only
  rw [if_neg (by decide), logAt_edge, logAt_edge, Pkg.logAt_logSeq, Pkg.onEdge, edge_setEdge_ne _ _ hne.symm, edge_setEdge_self, edge_setEdge_self,
    edge_setEdge_ne _ _ hne]
  exact ⟨rfl, rfl, rfl, rfl, rfl, rfl, rfl, rfl, rfl, rfl⟩
end

/-- An edge in the fallback that a seal lets retrain (R274). -/
def Pkg.mayRetrain (g : Pkg) (site e : Nat) : Prop :=
  (g.edge site e).state = 3 ∧ (g.edge site e).autoret = true ∧ (g.edge site e).tried ≠ g.sealed + 1 ∧
    logLanes (hubEnd site e) ≤ (goodLanes (hubEnd site e) (g.edge site e).bad).length ∧
    (g.edge site e).ck &&& allClocks (hubEnd site e) = allClocks (hubEnd site e)

omit hf in
theorem mayRetrain_iff : g.mayRetrain site e ↔ ¬ ((g.edge site e).state ≠ 3 ∨ !(g.edge site e).autoret ∨ (g.edge site e).tried = g.sealed + 1 ∨
    (goodLanes (hubEnd site e) (g.edge site e).bad).length < logLanes (hubEnd site e) ∨
    (g.edge site e).ck &&& allClocks (hubEnd site e) ≠ allClocks (hubEnd site e)) := by
  unfold Pkg.mayRetrain
  simp [not_or]

omit hf in
theorem retrain_not {k failed : Nat} {ok : Bool} (h : ¬ g.mayRetrain site e) : g.retrain k site e failed ok = g := by
  rw [mayRetrain_iff, not_not] at h
  unfold Pkg.retrain
  dsimp only
  rw [if_pos h]

/-- An edge whose lanes pass again returns to MAIN, one that does not goes on in the fallback (R274). -/
theorem retrain_says {k failed : Nat} {ok : Bool} (h : g.mayRetrain site e) :
    let x := g.edge site e
    let y := g.edge s' f
    let bad := fusedMask k site e ||| (x.bad &&& failed)
    let q := g.retrain k site e failed ok
    (q.edge site e).tried = g.sealed + 1 ∧
    if ok = true ∧ logLanes (hubEnd site e) ≤ (goodLanes (hubEnd site e) bad).length then
      (q.edge site e).state = 2 ∧ (q.edge site e).half = false ∧ (q.edge site e).bad = bad ∧ (q.edge site e).next = 0 ∧
      (q.edge s' f).retry = [] ∧ (q.edge s' f).sn = 0 ∧ (q.edge s' f).todo = regroup 32 (untaken x.next y.retry ++ y.todo)
    else (q.edge site e).state = 3 ∧ (q.edge site e).bad = x.bad ∧ q.edge s' f = y := by
  have hne := facing_ne hf
  have hst := h.1
  rw [mayRetrain_iff] at h
  intro x y bad q
  have hq : q = if !ok ∨ (goodLanes (hubEnd site e) bad).length < logLanes (hubEnd site e) then g.setEdge site e { x with tried := g.sealed + 1 }
      else ((g.setEdge site e { x with tried := g.sealed + 1 }).onEdge site e (fun x =>
        { x with state := 2, half := false, bad := bad, map := bad, next := 0, nak := false, fails := 0, lanes := [], powed := 0 })).onEdge s' f (fun y =>
          { y with retry := [], sn := 0, back := none, todo := regroup 32 (untaken x.next y.retry ++ y.todo), credits := 1024 }) := by
    show g.retrain k site e failed ok = _
    unfold Pkg.retrain
    dsimp only
    rw [if_neg h, hf]
  rw [hq]
  split
  · next hno =>
    rw [if_neg (by rintro ⟨rfl, hlen⟩; simp only [Bool.not_true, Bool.false_eq_true, false_or] at hno; omega), edge_setEdge_self, edge_setEdge_ne _ _ hne]
    exact ⟨rfl, hst, rfl, rfl⟩
  · next hgo =>
    rw [not_or, Bool.not_eq_true', Bool.not_eq_false, not_lt] at hgo
    rw [if_pos hgo]
    simp only [Pkg.onEdge, edge_setEdge_self, edge_setEdge_ne _ _ hne.symm, edge_setEdge_ne _ _ hne]
    exact ⟨trivial, trivial, trivial, trivial, trivial, trivial, trivial, rfl⟩
end
end

end Sys2Proof.Machine
end

section
/-! PROOFS. Packets received; O48 -/

namespace Sys2Proof.Machine

/-! ## What packets hold -/

theorem upsetBytes_nil (bs : List Byte) : upsetBytes bs [] = bs := by
  unfold upsetBytes
  refine List.ext_getElem (by simp) fun i h1 h2 => ?_
  simp [List.getD_eq_getElem?_getD, List.getElem?_eq_getElem h2]

/-- A number that stands among bytes. -/
theorem leVal_mid {a b : List Byte} {lo : Nat} (v n : Nat) (h : a.length = lo) :
    leVal (((a ++ (leBytes v n ++ b)).drop lo).take n) = v % 256 ^ n := by
  rw [← h, List.drop_left, List.take_append_of_le_length (by rw [leBytes_length]), List.take_of_length_le (by rw [leBytes_length]), leVal_leBytes]

section
variable (r : SentFrm) (ty ack pcred : Nat)

/-- The body of a flit of a packet, zero where there is none. -/
def packetBody (i : Nat) : Nat := ((r.flits[i]?).map (·.body % 2 ^ 256)).getD 0

theorem packetBytes_eq : packetBytes r ty ack pcred = ((List.range 2).flatMap (fun i => leBytes (packetBody r i) 32) ++
    leBytes r.n 2 ++ leBytes ack 2 ++ leBytes pcred 2 ++ leBytes ty 1 ++ [0]) ++
    leBytes (crc32c ((List.range 2).flatMap (fun i => leBytes (packetBody r i) 32) ++
      leBytes r.n 2 ++ leBytes ack 2 ++ leBytes pcred 2 ++ leBytes ty 1 ++ [0])) 4 := rfl

theorem packetBytes_bodies : (List.range 2).flatMap (fun i => leBytes (packetBody r i) 32) = leBytes (packetBody r 0) 32 ++ leBytes (packetBody r 1) 32 := by
  rw [show List.range 2 = [0, 1] from rfl, List.flatMap_cons, List.flatMap_cons, List.flatMap_nil, List.append_nil]

/-- PSEQ, ACK and TYPE of a packet that the lanes leave alone (R270). -/
theorem packet_fields : leVal (((packetBytes r ty ack pcred).drop 64).take 2) = r.n % 65536 ∧
    leVal (((packetBytes r ty ack pcred).drop 66).take 2) = ack % 65536 ∧
    leVal (((packetBytes r ty ack pcred).drop 70).take 1) = ty % 256 := by
  rw [packetBytes_eq, packetBytes_bodies]
  generalize leBytes (crc32c _) 4 = c
  refine ⟨?_, ?_, ?_⟩
  · rw [show (65536 : Nat) = 256 ^ 2 from rfl, ← leVal_mid (a := leBytes (packetBody r 0) 32 ++ leBytes (packetBody r 1) 32) (lo := 64)
      (b := leBytes ack 2 ++ leBytes pcred 2 ++ leBytes ty 1 ++ [0] ++ c) r.n 2 (by simp)]
    simp only [List.append_assoc]
  · rw [show (65536 : Nat) = 256 ^ 2 from rfl, ← leVal_mid (a := leBytes (packetBody r 0) 32 ++ leBytes (packetBody r 1) 32 ++ leBytes r.n 2) (lo := 66)
      (b := leBytes pcred 2 ++ leBytes ty 1 ++ [0] ++ c) ack 2 (by simp)]
    simp only [List.append_assoc]
  · rw [show (256 : Nat) = 256 ^ 1 from rfl, ← leVal_mid (a := leBytes (packetBody r 0) 32 ++ leBytes (packetBody r 1) 32 ++ leBytes r.n 2 ++ leBytes ack 2 ++
      leBytes pcred 2) (lo := 70) (b := [0] ++ c) ty 1 (by simp)]
    simp only [List.append_assoc]

theorem packet_body {i : Nat} (hi : i < 2) (h : i < r.flits.length) :
    leVal (((packetBytes r ty ack pcred).drop (32 * i)).take 32) = r.flits[i].body % 2 ^ 256 := by
  have hbody : packetBody r i = r.flits[i].body % 2 ^ 256 := by simp [packetBody, h]
  have hmod : packetBody r i % 256 ^ 32 = r.flits[i].body % 2 ^ 256 := by
    rw [hbody, show (256 : Nat) ^ 32 = 2 ^ 256 from rfl, Nat.mod_mod]
  rw [← hmod, packetBytes_eq, packetBytes_bodies]
  generalize leBytes (crc32c _) 4 = c
  have hcases : i = 0 ∨ i = 1 := by omega
  rcases hcases with rfl | rfl
  · rw [← leVal_mid (a := []) (lo := 32 * 0) (b := leBytes (packetBody r 1) 32 ++ leBytes r.n 2 ++ leBytes ack 2 ++ leBytes pcred 2 ++ leBytes ty 1 ++ [0] ++ c) _ 32 rfl]
    simp only [List.append_assoc, List.nil_append]
  · rw [← leVal_mid (a := leBytes (packetBody r 0) 32) (lo := 32 * 1) (b := leBytes r.n 2 ++ leBytes ack 2 ++ leBytes pcred 2 ++ leBytes ty 1 ++ [0] ++ c) _ 32 (by simp)]
    simp only [List.append_assoc]
end

/-! ## A packet is received -/

/-- A receiver that has taken a packet owes a credit for it. -/
def takenPacket (r : SentFrm) (x : Edge) : Edge := { takenEdge 65536 r x with powed := x.powed + 1 }

/-- A packet that is next in turn is taken. -/
def Pkg.packetIn (g : Pkg) (site e t f : Nat) (r : SentFrm) : Pkg :=
  ((((g.ctlIn site e t f ((g.edge t f).ackNo % 65536) false).onEdge t f (fun y => { y with ann := [] })).toldBy t f).onEdge site e (takenPacket r)).flitsIn site
    (cutFlits r.flits)

section
variable {s : Pack} {k site e s' f : Nat} {errs : List (Nat × Nat)} {r : SentFrm} {g2 : Pkg} (hf : facing site e = some (s', f))
  (hst : ((s.g k).edge site e).state = 3) (hsend : (s.g k).sendPacket s' f = some (r, g2)) (hbad : r.bad = false)
  (hlen : r.flits.length ≤ 2) (hbits : ((s.g k).edge site e).wireBits (hubEnd site e) errs = []) (hnext : r.n % 65536 = ((s.g k).edge site e).next)
include hf hst hsend hbad hlen hbits hnext

theorem d2dPacket_g : (s.d2dPacket k site e 1 [] errs .ok .ok).g k = g2.packetIn site e s' f r := by
  have hsent := sendPacket_sent hsend
  have hx := hsent.others site e (facing_ne hf).symm
  have hack := ackNo_of_receiver hsent.receiver
  have hoff : (s.on k (fun g => g.offer s' [])).g k = s.g k := Pack.on_g_self ..
  unfold Pack.d2dPacket
  rw [hf]
  dsimp only
  rw [if_neg (by rw [hst]; decide), hoff, hsend]
  simp only [reduceCtorEq, if_false, Pack.linkEcc]
  have hsel : (if 1 = 3 ∧ ((s.g k).edge s' f).nak = true then (3, { flits := [] }, s.g k)
      else if 1 ≠ 1 then (2, { flits := [] }, s.g k) else (1, r, g2) : Nat × SentFrm × Pkg) = (1, r, g2) := rfl
  have hput : ((s.on k (fun g => g.offer s' [])).put k g2).g k = g2 := mget_mins_self ..
  rw [hsel]
  dsimp only
  generalize (s.on k (fun g => g.offer s' [])).put k g2 = p at hput ⊢
  rw [hput, hx, hbits, ← hack, List.filter_nil, upsetBytes_nil, List.isEmpty_nil, Bool.not_true, Bool.false_and, if_neg Bool.false_ne_true]
  generalize (if ((s.g k).edge s' f).state = 3 then ((s.g k).edge s' f).powed else 0) % 65536 = pc
  obtain ⟨hseq, hacked, hty⟩ := packet_fields r 1 (g2.edge s' f).ackNo pc
  have hbodies := bodies_eq (fs := r.flits) (b := fun i => leVal (((packetBytes r 1 (g2.edge s' f).ackNo pc).drop (32 * i)).take 32))
    (fun i hi => packet_body r 1 _ _ (by omega) hi)
  rw [hty, hseq, hacked, hbodies, if_neg (by simp [hnext]), hbad, show (Ecc.ok == Ecc.ue) = false from rfl, Bool.or_false]
  unfold Pack.flitsTaken
  rw [if_neg Bool.false_ne_true, Pack.on_g_self, Pack.on_g_self, Pack.on_g_self, hput]
  rfl

/-- A packet that the lanes leave alone and that is next in turn is taken; the packet credits that it carries return (R270, R271). -/
theorem d2dPacket_says :
    let x := (s.g k).edge site e
    let y := (s.g k).edge s' f
    let q := (s.d2dPacket k site e 1 [] errs .ok .ok).g k
    (q.edge site e).next = (x.next + 1) % 65536 ∧ (q.edge site e).nak = false ∧ (q.edge site e).powed = x.powed + 1 ∧
    (q.edge site e).credits = min 1024 (x.credits + (if y.state = 3 then y.powed else 0)) ∧
    (q.edge site e).retry = x.retry.filter (fun q => !seqLe 4096 q.n y.ackNo) ∧ (q.edge s' f).retry = (g2.edge s' f).retry ∧
    q.net.got = (g2.flitsIn site (cutFlits r.flits)).net.got ∧ q.net.hold = (g2.flitsIn site (cutFlits r.flits)).net.hold := by
  have hne := facing_ne hf
  have hsent := sendPacket_sent hsend
  have hx := hsent.others site e hne.symm
  have hack := ackNo_of_receiver hsent.receiver
  obtain ⟨hstate, -, hpowed⟩ := powed_of_receiver hsent.receiver
  obtain ⟨hnear, hfar⟩ := ctlIn_edges g2 hf ((g2.edge s' f).ackNo % 65536) false
  have hsame := ctlIn_same g2.sameButEdges_self site e s' f ((g2.edge s' f).ackNo % 65536) false
  intro x y q
  have hq : q = g2.packetIn site e s' f r := d2dPacket_g hf hst hsend hbad hlen hbits hnext
  unfold Pkg.packetIn at hq
  generalize g2.ctlIn site e s' f ((g2.edge s' f).ackNo % 65536) false = g1 at hnear hfar hsame hq
  obtain ⟨hgot, hhold⟩ := (((hsame.onEdge s' f (fun y => { y with ann := [] })).onEdge s' f
    (fun y => { y with told := y.pend.isSome && y.ann.isEmpty })).onEdge site e (takenPacket r)).flits site (cutFlits r.flits)
  have hback : q.edge site e = takenPacket r (g1.edge site e) := by
    rw [hq, flitsIn_edge, Pkg.onEdge, edge_setEdge_self, Pkg.toldBy, Pkg.onEdge, edge_setEdge_ne _ _ hne.symm, Pkg.onEdge, edge_setEdge_ne _ _ hne.symm]
  have hthere : (q.edge s' f).retry = (g1.edge s' f).retry := by
    rw [hq, flitsIn_edge, Pkg.onEdge, edge_setEdge_ne _ _ hne, Pkg.toldBy, Pkg.onEdge, edge_setEdge_self, Pkg.onEdge, edge_setEdge_self]
  rw [hback, hthere, hnear, hfar, hx, hstate, hpowed, hack, hq]
  refine ⟨rfl, rfl, rfl, rfl, ?_, rfl, hgot, hhold⟩
  refine List.filter_congr fun p _ => ?_
  have hmod (a b : Nat) : seqLe 4096 a (b % 65536) = seqLe 4096 a b := by
    rw [← seqLe_mod a (b % 65536), ← seqLe_mod a b]
    congr 1
    omega
  rw [hmod]
end

/-! ## A flit in turn, one that has come before, one ahead -/

section
variable (g : Pkg) (site : Nat) (fl : Flit)

theorem flitsIn_one : g.flitsIn site [fl] = if g.way site fl = .here then { g with net := ({ g.net with got := [] } : Net).arrive fl }
    else ({ g with net := { g.net with got := [] } } : Pkg).inject site [fl] := rfl

variable {site fl}

theorem flitsIn_away (h : g.way site fl ≠ .here) : (g.flitsIn site [fl]).net.hold = g.net.hold ++ [(site, fl)] ∧ (g.flitsIn site [fl]).net.got = [] := by
  rw [flitsIn_one, if_neg h]
  exact ⟨rfl, rfl⟩

/-- What a site does with a flit that reaches it, nothing waiting there (R279, R295). -/
theorem flitsIn_here (h : g.way site fl = .here) (hre : g.net.reord = []) :
    let n := mget 0 g.net.rx (flitKey fl)
    (fl.num = n → (g.flitsIn site [fl]).net.got = [fl] ∧ mget 0 (g.flitsIn site [fl]).net.rx (flitKey fl) = n + 1) ∧
    (fl.num < n → (g.flitsIn site [fl]).net.got = [] ∧ (g.flitsIn site [fl]).net.rx = g.net.rx) ∧
    (n < fl.num → (g.flitsIn site [fl]).net.got = [] ∧ (g.flitsIn site [fl]).net.reord = [fl]) := by
  intro n
  have hin : ¬ fl.num < n → ({ g.net with got := [] } : Net).arrive fl = Net.drain 1 { g.net with got := [], reord := [fl] } := fun hnum => by
    unfold Net.arrive
    dsimp only
    rw [hre, if_neg (by simpa using hnum)]
    rfl
  have hdrain : Net.drain 1 { g.net with got := [], reord := [fl] } =
      if fl.num == n then { g.net with got := [fl], reord := [], rx := mupd 0 g.net.rx (flitKey fl) (· + 1) } else { g.net with got := [], reord := [fl] } := by
    unfold Net.drain
    rw [List.find?_singleton]
    by_cases hn : (fl.num == n) = true
    · rw [if_pos hn, if_pos hn]
      simp [Net.drain]
    · rw [if_neg hn, if_neg hn]
  rw [flitsIn_one, if_pos h]
  refine ⟨fun hnum => ?_, fun hnum => ?_, fun hnum => ?_⟩
  · rw [hin (by omega), hdrain, if_pos (beq_iff_eq.mpr hnum)]
    exact ⟨rfl, mget_mins_self ..⟩
  · have hold : ({ g.net with got := [] } : Net).arrive fl = { g.net with got := [] } := if_pos (.inl hnum)
    rw [hold]
    exact ⟨rfl, rfl⟩
  · rw [hin (by omega), hdrain, if_neg (by simp; omega)]
    exact ⟨rfl, rfl⟩
end

/-! ## Settling the obligation -/

section
variable {s : State} {k site e s' f : Nat} (hup : (s.pack.g k).hubUp = true)
include hup

/-- A command that leaves its hub's package as it is. -/
theorem leaves_still {c : Instr} {F : Pkg → Pkg} (hc : exec c s = .next (s.onPack (fun s => s.atHub k (fun s => s.on k F))))
    (hF : F (s.pack.g k) = s.pack.g k) : Leaves c s (fun p => (∀ j, p.g j = s.pack.g j) ∧ p.mem = s.pack.mem) := by
  refine leaves_atHub hup hc ⟨fun j => ?_, Pack.on_mem ..⟩
  by_cases hj : j = k
  · subst hj
    rw [Pack.on_g_self, hF]
  · exact Pack.on_g_ne _ _ hj

variable (hf : facing site e = some (s', f))
include hf

theorem leaves_dieStart (hsite : site < 48) (hst : (s.pack.g k).siteSt site = .active) (hcold : mget false (s.pack.g k).started site = false) {a : Nat}
    (ha : a < 48) (hhole : (s.pack.g k).hole s' = false) (hlive : (s.pack.g k).netLive s' = true) :
    let h := hubEnd site e
    let here := fusedMask k site e % 2 ^ physLanes h
    let there := fusedMask k s' f % 2 ^ physLanes h
    Leaves (.dieStart k site a (orientOf a) []) s (fun p =>
      mget false (p.g k).started site = true ∧ (p.g k).sites = (s.pack.g k).sites ∧ ((p.g k).edge site e).bad = here ∧ ((p.g k).edge s' f).bad = there ∧
      ((p.g k).edge site e).state = (if (bundleMode h here 3).1 = 4 ∨ (bundleMode h there 3).1 = 4 then 4 else (bundleMode h here 3).1) ∧
      ((p.g k).edge s' f).state = (if (bundleMode h here 3).1 = 4 ∨ (bundleMode h there 3).1 = 4 then 4 else (bundleMode h there 3).1) ∧
      mget (0, 0) (p.g k).straps site = (a, orientOf a) ∧ p.mem = s.pack.mem) := by
  intro h here there
  obtain ⟨hplaces, h1, h2, h3, h4⟩ := dieStart_clean hf hsite hst hcold ha hhole hlive
  obtain ⟨hsites, hrest⟩ := Prod.mk.inj hplaces
  obtain ⟨hstarted, hstraps⟩ := Prod.mk.inj hrest
  refine leaves_atHub hup rfl ⟨?_, hsites, h1, h2, h3, h4, ?_, Pack.dieStart_mem ..⟩
  · rw [hstarted, mget_mins_self]
  · rw [hstraps, mget_mins_self]

theorem leaves_frame {r : SentFrm} {g2 : Pkg} {errs : List (Nat × Nat)} {gap : Nat} (hst : ((s.pack.g k).edge site e).state = 2)
    (hpend : ((s.pack.g k).edge site e).pend = none) (hsend : (s.pack.g k).sendFrame s' f = some (r, g2)) (hbad : r.bad = false) {P : Pack → Prop}
    (hP : ∀ p : Pack, p.g k = g2.frameIn site e s' f gap r (((s.pack.g k).edge site e).wireBits (hubEnd site e) errs) → p.mem = s.pack.mem → P p) :
    Leaves (.d2dFrame k site e gap [] errs (.ok, .ok)) s P :=
  leaves_atHub hup rfl (hP _ (d2dFrame_g hf hst hpend hsend hbad) (Pack.d2dFrame_mem ..))
end

/-- Settles O48: a frame or packet is followed from what its end sends, over the words that the lanes carry, to what the receiver takes. -/
theorem dieLinks : Obligations.DieLinks := by
  unfold Obligations.DieLinks
  refine ⟨?_, fun g t f r => ⟨fun b hb hr => ?_, fun hb htodo hlen => ?_, fun hb hlen => ?_, fun hb hno => ?_⟩,
    fun g site fl => ⟨flitsIn_away g, flitsIn_here g⟩⟩
  · intro s k site e s' f failed gap ok errs g x y h here there taken x' y' hup hf
    refine ⟨fun hsite hst hcold => ⟨fun a ha hhole hlive => leaves_dieStart hup hf hsite hst hcold ha hhole hlive, fun a b tests hbad hports => ?_⟩,
      fun r g2 hst hpend hlanes hsend hbad hlen => ⟨fun hbits hnext => ?_, ?_⟩, fun hxup => ?_, fun hdown => ?_, fun htold => ?_,
      fun hst htold => ⟨fun hpend => ?_, fun hpend => ?_⟩, fun r g2 hst hsend hbad hlen hbits hnext => ?_, fun hno => ?_, fun hmay => ?_⟩
    · obtain ⟨h1, h2, h3, h4, h5⟩ := dieStart_strapFault (tests := tests) hf hsite hst hcold hbad hports
      exact leaves_atHub hup rfl ⟨h1, h2, h3, h4, h5, Pack.dieStart_mem ..⟩
    · have hsent := sendFrame_sent hsend
      have hx := hsent.others site e (facing_ne hf).symm
      refine leaves_frame hup hf hst hpend hsend hbad fun p hp hmem => ?_
      obtain ⟨h1, h2, h3, h4, h5, h6, h7⟩ := frameIn_good g2 (gap := gap) (r := r) hf (by rw [hx]; exact hst) hlen (by rw [hx]; exact hnext)
      rw [show Edge.wireBits _ _ errs = [] from hbits] at hp
      rw [← hp, hx, ackNo_of_receiver hsent.receiver] at h3
      rw [← hp, hx] at h1
      rw [← hp] at h2 h4 h5 h6 h7
      exact ⟨h1, h2, h3, h4, h5, h6, h7, hmem⟩
    · intro ws hbits hcrc
      have hsent := sendFrame_sent hsend
      have hx := hsent.others site e (facing_ne hf).symm
      obtain ⟨-, hnak, -⟩ := powed_of_receiver hsent.receiver
      have hws : g2.wordsOf s' f r (x.wireBits h errs) = ws := by
        unfold Pkg.wordsOf
        rw [ackNo_of_receiver hsent.receiver, hnak]
      refine leaves_frame hup hf hst hpend hsend hbad fun p hp hmem => ?_
      obtain ⟨h1, h2, h3, h4, h5⟩ := frameIn_bad g2 (gap := gap) (r := r) (bits := x.wireBits h errs) hf (by rw [hx]; exact hst) (by rw [hx]; exact hlanes) hbits
        (by rw [hws]; exact hcrc)
      rw [show g2.frameIn site e s' f gap r (x.wireBits h errs) = p.g k from hp.symm] at h1 h2 h3 h4 h5
      rw [hx] at h1 h3
      exact ⟨h1, h2, h3, h4, h5.trans hsent.rx, hmem⟩
    · obtain ⟨h1, h2⟩ := d2dWindow_says g hxup
      refine leaves_hubPkg hup rfl fun p hp hmem => ?_
      rw [← show p.g k = g.d2dWindow site e from hp] at h1 h2
      exact ⟨h1, h2, hmem⟩
    · exact leaves_still hup rfl (d2dWindow_down g hdown)
    · exact leaves_still hup rfl (mapSwitch_untold g htold)
    · exact gives_of_atHub (h := fun s => s.on k (fun g => g.mapSwitch site e)) rfl hup (Pack.on_congr (mapSwitch_map g hf hst htold hpend))
    · obtain ⟨h1, h2, h3, h4, h5, h6, h7, h8, h9, h10⟩ := mapSwitch_fallback g hf hst htold hpend
      refine leaves_hubPkg hup rfl fun p hp hmem => ?_
      rw [← show p.g k = g.mapSwitch site e from hp] at h1 h2 h3 h4 h5 h6 h7 h8 h9 h10
      exact ⟨h1, h2, h3, h4, h5, h6, h7, h8, h9, h10, hmem⟩
    · obtain ⟨h1, h2, h3, h4, h5, h6, h7, h8⟩ := d2dPacket_says hf hst hsend hbad hlen hbits hnext
      exact leaves_atHub hup rfl ⟨h1, h2, h3, h4, h5, h6, h7, h8, Pack.d2dPacket_mem ..⟩
    · exact leaves_still hup rfl (retrain_not g hno)
    · obtain ⟨h1, h2⟩ := retrain_says g hf (k := k) (failed := failed) (ok := ok) hmay
      refine leaves_hubPkg hup rfl fun p hp hmem => ?_
      rw [← show p.g k = g.retrain k site e failed ok from hp] at h1 h2
      exact ⟨h1, h2, hmem⟩
  · have hask : g.asked t f = some r := by rw [Pkg.asked, hb]; exact hr
    rw [sendFrame_again hask, sendPacket_again hask]
    exact ⟨rfl, rfl⟩
  · have hask : g.asked t f = none := by rw [Pkg.asked, hb]; rfl
    obtain ⟨h1, h2, h3, h4⟩ := numbered_says htodo
    exact ⟨_, _, (sendFrame_new hask).trans (if_neg (by omega)), h1, h2, h3, h4⟩
  · have hask : g.asked t f = none := by rw [Pkg.asked, hb]; rfl
    exact (sendFrame_new hask).trans (if_pos hlen)
  · have hask : g.asked t f = none := by rw [Pkg.asked, hb]; rfl
    exact (sendPacket_new hask).trans (if_pos hno)

end Sys2Proof.Machine
end

section
/-! PROOFS. Slots of a superframe; for O52 -/

namespace Sys2Proof.Machine

/-! ## Slots of a superframe -/

theorem packDecode_nil : gfPack.decode 700 20 [] = some [] := by decide +kernel

/-- A slot that the lanes leave alone is read as it was sent (R284). -/
theorem slotRead_nil (sent : List Byte) : slotRead sent [] = some (sent, 0) := by
  unfold slotRead
  rw [List.map_nil, packDecode_nil]
  rfl

theorem symErrs_nil (rev : Bool) : symErrs rev [] = [] := rfl

theorem slotOf_length {bs : List Byte} (h : bs.length ≤ 821) : (slotOf bs).length = 825 := by
  unfold slotOf
  simp
  omega

theorem slotOf_body {bs : List Byte} (h : bs.length ≤ 821) : (slotOf bs).take 821 = bs ++ List.replicate (821 - bs.length) 0 := by
  have hlen : (bs ++ List.replicate (821 - bs.length) (0 : Byte)).length = 821 := by
    simp
    omega
  unfold slotOf
  dsimp only
  rw [List.take_append_of_le_length (by omega), List.take_of_length_le (by omega)]

/-- A slot carries its own CRC. -/
theorem slotOf_ok {bs : List Byte} (h : bs.length ≤ 821) : slotOk (slotOf bs) = true := by
  have hlen : (bs ++ List.replicate (821 - bs.length) (0 : Byte)).length = 821 := by
    simp
    omega
  have hcrc : leVal (((slotOf bs).drop 821).take 4) = crc32c (bs ++ List.replicate (821 - bs.length) 0) := by
    have hmid := leVal_mid (a := bs ++ List.replicate (821 - bs.length) 0) (b := []) (lo := 821) (crc32c (bs ++ List.replicate (821 - bs.length) 0)) 4 hlen
    rw [List.append_nil] at hmid
    exact hmid.trans (Nat.mod_eq_of_lt (crc32c_lt _))
  unfold slotOk
  rw [slotOf_length h, hcrc, slotOf_body h]
  simp

/-- A field of a slot is the field of its bytes. -/
theorem slotF_slotOf {bs : List Byte} {lo n : Nat} (h : lo + n ≤ bs.length) : slotF (slotOf bs) lo n = leVal ((bs.drop lo).take n) := by
  unfold slotF slotOf
  dsimp only
  rw [List.append_assoc, List.drop_append_of_le_length (by omega), List.take_append_of_le_length (by simp; omega)]

/-- A number among the bytes of a slot. -/
theorem slotF_mid {a b : List Byte} {lo : Nat} (v n : Nat) (h : a.length = lo) :
    slotF (slotOf (a ++ (leBytes v n ++ b))) lo n = v % 256 ^ n := by
  rw [slotF_slotOf (by simp; omega), leVal_mid v n h]

/-- Numbers of given widths, one after the other. -/
def fieldBytes (fs : List (Nat × Nat)) : List Byte := fs.flatMap (fun p => leBytes p.1 p.2)

theorem fieldBytes_length (fs : List (Nat × Nat)) : (fieldBytes fs).length = (fs.map (·.2)).sum := by
  unfold fieldBytes
  rw [List.length_flatMap]
  simp

/-- A field of a slot that holds numbers. -/
theorem slotF_field {fs : List (Nat × Nat)} {i lo : Nat} (hi : i < fs.length) (hlo : ((fs.map (·.2)).take i).sum = lo) :
    slotF (slotOf (fieldBytes fs)) lo fs[i].2 = fs[i].1 % 256 ^ fs[i].2 := by
  have hsplit : fieldBytes fs = fieldBytes (fs.take i) ++ (leBytes fs[i].1 fs[i].2 ++ fieldBytes (fs.drop (i + 1))) := by
    conv_lhs => rw [← List.take_append_drop i fs, List.drop_eq_getElem_cons hi]
    unfold fieldBytes
    rw [List.flatMap_append, List.flatMap_cons]
  rw [hsplit, slotF_mid]
  rw [fieldBytes_length, List.map_take, hlo]

/-! ### Beats and control words -/

theorem b2n_le (b : Bool) : b2n b ≤ 1 := by cases b <;> decide

section
variable (g : Pkg) (k m : Nat)

/-- The flags of a beat: DOWN, ASSIGNED, LEADER, HOLD, NOSEAL, FENCE. -/
def Pkg.beatFlags (g : Pkg) (m : Nat) : Nat := b2n (g.portState m == 4) + 2 * b2n g.assigned + 4 * b2n g.leads + 8 * b2n (g.phase == 3 || g.phase == 4) +
    16 * b2n (g.rb rPackStat 1) + 32 * b2n (g.portState m == 3)

/-- The fields of a beat (R290). -/
def Pkg.beatFields (g : Pkg) (k m : Nat) : List (Nat × Nat) := [(0xB3A7, 2), (g.beatFlags m, 1), (m % 32, 1), (g.pos, 1), (g.lpos, 1), (g.epoch, 2), (g.sealed, 4),
  ((g.link m).bseq, 4), (serialOf k, 8), ((g.link m).rxseq, 4)]

theorem beatSlot_eq : g.beatSlot k m = slotOf (fieldBytes (g.beatFields k m)) := by
  unfold Pkg.beatSlot fieldBytes Pkg.beatFields Pkg.beatFlags
  simp only [List.flatMap_cons, List.flatMap_nil, List.append_nil, List.append_assoc]

theorem beatFlags_lt : g.beatFlags m < 64 := by
  have h1 := b2n_le (g.portState m == 4)
  have h2 := b2n_le g.assigned
  have h3 := b2n_le g.leads
  have h4 := b2n_le (g.phase == 3 || g.phase == 4)
  have h5 := b2n_le (g.rb rPackStat 1)
  have h6 := b2n_le (g.portState m == 3)
  unfold Pkg.beatFlags
  omega

theorem fld_lt (w : W32) (hi lo : Nat) : fld w hi lo < 2 ^ (hi + 1 - lo) := by
  unfold fld
  exact Nat.mod_lt _ (Nat.two_pow_pos _)

/-- What a beat says (R290). -/
theorem beat_fields : slotOk (g.beatSlot k m) = true ∧ slotF (g.beatSlot k m) 0 2 = 0xB3A7 ∧ slotF (g.beatSlot k m) 2 1 = g.beatFlags m ∧
    slotF (g.beatSlot k m) 3 1 = m % 32 ∧ slotF (g.beatSlot k m) 4 1 = g.pos ∧ slotF (g.beatSlot k m) 6 2 = g.epoch ∧
    slotF (g.beatSlot k m) 12 4 = (g.link m).bseq % 2 ^ 32 ∧ slotF (g.beatSlot k m) 16 8 = serialOf k := by
  have hfl := beatFlags_lt g m
  have hpos : g.pos < 64 := fld_lt ..
  have hepoch : g.epoch < 65536 := fld_lt ..
  have hserial : serialOf k < 2 ^ 64 := Nat.mod_lt _ (by decide)
  have hlen : (fieldBytes (g.beatFields k m)).length = 28 := fieldBytes_length _
  have hfield (i : Nat) (hi : i < 10) := slotF_field (fs := g.beatFields k m) (i := i) hi rfl
  rw [beatSlot_eq]
  refine ⟨slotOf_ok (by omega), hfield 0 (by decide), ?_, ?_, ?_, ?_, hfield 7 (by decide), ?_⟩
  · exact (hfield 1 (by decide)).trans (Nat.mod_eq_of_lt (show g.beatFlags m < 256 ^ 1 by omega))
  · exact (hfield 2 (by decide)).trans (Nat.mod_eq_of_lt (show m % 32 < 256 ^ 1 by omega))
  · exact (hfield 3 (by decide)).trans (Nat.mod_eq_of_lt (show g.pos < 256 ^ 1 by omega))
  · exact (hfield 5 (by decide)).trans (Nat.mod_eq_of_lt hepoch)
  · exact (hfield 8 (by decide)).trans (Nat.mod_eq_of_lt hserial)
end

section
variable (ack epoch : Nat) (nak ackv : Bool) (cr : List (Nat × Nat))

/-- The fields of a control word (R286). -/
def ctlFields (ack epoch : Nat) (nak ackv : Bool) (cr : List (Nat × Nat)) : List (Nat × Nat) :=
  [(ack, 2), (b2n nak + 2 * b2n ackv, 1), (0, 1), (epoch, 2)] ++ (List.range 32).map (fun c => (mget 0 cr c, 2))

theorem ctlSlot_eq : ctlSlot ack nak ackv epoch cr = slotOf (fieldBytes (ctlFields ack epoch nak ackv cr)) := by
  unfold ctlSlot fieldBytes ctlFields
  rw [List.flatMap_append]
  simp only [List.flatMap_cons, List.flatMap_nil, List.append_nil, List.append_assoc, List.flatMap_map]
  rfl

theorem ctlFields_widths : (ctlFields ack epoch nak ackv cr).map (·.2) = [2, 1, 1, 2] ++ List.replicate 32 2 := by
  unfold ctlFields
  rw [List.map_append, List.map_map]
  rfl

/-- What a control word says (R286). -/
theorem ctl_fields : slotOk (ctlSlot ack nak ackv epoch cr) = true ∧ slotF (ctlSlot ack nak ackv epoch cr) 0 2 = ack % 65536 ∧
    slotF (ctlSlot ack nak ackv epoch cr) 2 1 = b2n nak + 2 * b2n ackv ∧ slotF (ctlSlot ack nak ackv epoch cr) 4 2 = epoch % 65536 ∧
    ∀ c, c < 32 → slotF (ctlSlot ack nak ackv epoch cr) (6 + 2 * c) 2 = mget 0 cr c % 65536 := by
  have hn := b2n_le nak
  have ha := b2n_le ackv
  have hlen : (fieldBytes (ctlFields ack epoch nak ackv cr)).length = 70 := by
    rw [fieldBytes_length, ctlFields_widths]
    rfl
  have hfield (i : Nat) (hi : i < 36) := slotF_field (fs := ctlFields ack epoch nak ackv cr) (i := i) hi rfl
  rw [ctlSlot_eq]
  refine ⟨slotOf_ok (by omega), hfield 0 (by decide), ?_, hfield 3 (by decide), fun c hc => ?_⟩
  · exact (hfield 1 (by decide)).trans (Nat.mod_eq_of_lt (show b2n nak + 2 * b2n ackv < 256 ^ 1 by omega))
  · have hlo : ∀ c, c < 32 → (([2, 1, 1, 2] ++ List.replicate 32 2).take (4 + c)).sum = 6 + 2 * c := by decide
    have hget : (ctlFields ack epoch nak ackv cr)[4 + c]'(by simp [ctlFields]; omega) = (mget 0 cr c, 2) := by
      unfold ctlFields
      rw [List.getElem_append_right (by simp)]
      simp
    have h := slotF_field (fs := ctlFields ack epoch nak ackv cr) (i := 4 + c) (lo := 6 + 2 * c) (by simp [ctlFields]; omega)
      (by rw [ctlFields_widths, hlo c hc])
    rw [hget] at h
    exact h
end

/-! ### Data frames -/

theorem leBytes_zero : ∀ n, leBytes 0 n = List.replicate n 0
  | 0 => rfl
  | n + 1 => by
    rw [leBytes, List.replicate_succ, Nat.zero_div, leBytes_zero n]
    rfl

/-- Bytes up to the CRC that are zero anyway. -/
theorem slotOf_pad {bs : List Byte} (h : bs.length ≤ 821) : slotOf (bs ++ List.replicate (821 - bs.length) 0) = slotOf bs := by
  have hlen : (bs ++ List.replicate (821 - bs.length) (0 : Byte)).length = 821 := by
    simp
    omega
  unfold slotOf
  dsimp only
  rw [hlen, Nat.sub_self, List.replicate_zero, List.append_nil]

section
variable (r : SentFrm) (epoch : Nat)

/-- The fields of a data frame: its flits, zeros up to byte 800, the number, the count, the type, the epoch, zeros (R285). -/
def dataFields (r : SentFrm) (epoch : Nat) : List (Nat × Nat) := r.flits.map (fun f => (f.body % 2 ^ 256, 32)) ++
  [(0, 800 - 32 * r.flits.length), (r.n, 2), (r.flits.length, 1), (1, 1), (epoch, 2), (0, 15)]

theorem dataFields_widths : (dataFields r epoch).map (·.2) = List.replicate r.flits.length 32 ++ [800 - 32 * r.flits.length, 2, 1, 1, 2, 15] := by
  unfold dataFields
  rw [List.map_append, List.map_map]
  congr 1
  exact List.map_const' ..

variable {r} (hlen : r.flits.length ≤ 25)
include hlen

theorem dataSlot_eq : dataSlot r epoch = slotOf (fieldBytes (dataFields r epoch)) := by
  have hbody : (r.flits.flatMap (fun f : Flit => leBytes (f.body % 2 ^ 256) 32)).length = 32 * r.flits.length := by
    rw [List.length_flatMap]
    simp [List.sum_replicate, Nat.mul_comm]
  have hbytes : fieldBytes (dataFields r epoch) = r.flits.flatMap (fun f : Flit => leBytes (f.body % 2 ^ 256) 32) ++ List.replicate (800 - 32 * r.flits.length) 0 ++
      leBytes r.n 2 ++ leBytes r.flits.length 1 ++ [1] ++ leBytes epoch 2 ++ List.replicate 15 0 := by
    unfold fieldBytes dataFields
    rw [List.flatMap_append, List.flatMap_map]
    simp only [List.flatMap_cons, List.flatMap_nil, List.append_nil, List.append_assoc, leBytes_zero]
    rfl
  have hpad := slotOf_pad (bs := r.flits.flatMap (fun f : Flit => leBytes (f.body % 2 ^ 256) 32) ++ List.replicate (800 - 32 * r.flits.length) 0 ++
      leBytes r.n 2 ++ leBytes r.flits.length 1 ++ [1] ++ leBytes epoch 2) (by simp only [List.length_append, hbody, List.length_replicate, leBytes_length, List.length_singleton]; omega)
  have h806 : (r.flits.flatMap (fun f : Flit => leBytes (f.body % 2 ^ 256) 32) ++ List.replicate (800 - 32 * r.flits.length) (0 : Byte) ++
      leBytes r.n 2 ++ leBytes r.flits.length 1 ++ [1] ++ leBytes epoch 2).length = 806 := by
    simp only [List.length_append, hbody, List.length_replicate, leBytes_length, List.length_singleton]
    omega
  rw [h806] at hpad
  rw [hbytes, hpad]
  unfold dataSlot
  dsimp only
  rw [hbody]

/-- What a data frame says (R285). -/
theorem data_fields : slotOk (dataSlot r epoch) = true ∧ slotF (dataSlot r epoch) 800 2 = r.n % 65536 ∧ slotF (dataSlot r epoch) 803 1 = 1 ∧
    slotF (dataSlot r epoch) 804 2 = epoch % 65536 ∧ slotF (dataSlot r epoch) 806 15 = 0 ∧
    ∀ i (hi : i < r.flits.length), slotF (dataSlot r epoch) (32 * i) 32 = r.flits[i].body % 2 ^ 256 := by
  have hcount : (dataFields r epoch).length = r.flits.length + 6 := by simp [dataFields]
  have hbytes : (fieldBytes (dataFields r epoch)).length = 821 := by
    rw [fieldBytes_length, dataFields_widths, List.sum_append, List.sum_replicate]
    simp
    omega
  have htail (j : Nat) (hj : j < 6) : (dataFields r epoch)[r.flits.length + j]'(by omega) =
      [(0, 800 - 32 * r.flits.length), (r.n, 2), (r.flits.length, 1), (1, 1), (epoch, 2), (0, 15)][j] := by
    unfold dataFields
    rw [List.getElem_append_right (by simp)]
    simp
  have hsum (j : Nat) : (((dataFields r epoch).map (·.2)).take (r.flits.length + j)).sum =
      32 * r.flits.length + (([800 - 32 * r.flits.length, 2, 1, 1, 2, 15] : List Nat).take j).sum := by
    rw [dataFields_widths, List.take_append, List.take_of_length_le (by simp), List.sum_append, List.sum_replicate]
    simp [Nat.mul_comm]
  have hfield (j lo : Nat) (hj : j < 6) (hlo : 32 * r.flits.length + (([800 - 32 * r.flits.length, 2, 1, 1, 2, 15] : List Nat).take j).sum = lo) :
      slotF (slotOf (fieldBytes (dataFields r epoch))) lo ([(0, 800 - 32 * r.flits.length), (r.n, 2), (r.flits.length, 1), (1, 1), (epoch, 2), (0, 15)][j]).2 =
      ([(0, 800 - 32 * r.flits.length), (r.n, 2), (r.flits.length, 1), (1, 1), (epoch, 2), (0, 15)][j]).1 %
        256 ^ ([(0, 800 - 32 * r.flits.length), (r.n, 2), (r.flits.length, 1), (1, 1), (epoch, 2), (0, 15)][j]).2 := by
    have h := slotF_field (fs := dataFields r epoch) (i := r.flits.length + j) (by omega) ((hsum j).trans hlo)
    rw [htail j hj] at h
    exact h
  rw [dataSlot_eq epoch hlen]
  refine ⟨slotOf_ok (by omega), hfield 1 800 (by decide) ?_, hfield 3 803 (by decide) ?_, hfield 4 804 (by decide) ?_, hfield 5 806 (by decide) ?_,
    fun i hi => ?_⟩
  · simp
    omega
  · simp
    omega
  · simp
    omega
  · simp
    omega
  · have hget : (dataFields r epoch)[i]'(by omega) = (r.flits[i].body % 2 ^ 256, 32) := by
      unfold dataFields
      rw [List.getElem_append_left (by simpa using hi)]
      simp
    have h := slotF_field (fs := dataFields r epoch) (i := i) (lo := 32 * i) (by omega) (by
      rw [dataFields_widths, List.take_append_of_le_length (by simpa using Nat.le_of_lt hi), List.take_replicate, List.sum_replicate,
        Nat.min_eq_left (Nat.le_of_lt hi)]
      simp [Nat.mul_comm])
    rw [hget] at h
    exact h.trans (Nat.mod_mod ..)
end

end Sys2Proof.Machine
end

section
/-! PROOFS. What a slot and a port that goes DOWN leave alone; for O52 -/

namespace Sys2Proof.Machine

/-! ## A port's registers and the ends of links -/

theorem rPort_off (n : Nat) {a b : Nat} (h : a ≠ b) : rPort n a ≠ rPort n b := by
  unfold rPort rk
  omega

section
variable (g : Pkg) (n : Nat) (f : Link → Link)

theorem link_onLink : (g.onLink n f).link n = f (g.link n) := mget_mins_self ..

theorem link_onLink_ne {m : Nat} (h : m ≠ n) : (g.onLink n f).link m = g.link m := mget_mins_ne _ _ _ h

@[simp] theorem onLink_rd (a : Nat) : (g.onLink n f).rd a = g.rd a := rfl
end

/-- A field of a number that fits in a register. -/
theorem fld_mk32 {x hi lo : Nat} (h : x < 2 ^ 32) : fld (mk32 x) hi lo = x / 2 ^ lo % 2 ^ (hi + 1 - lo) := by
  rw [fld, toNat_mk32 h, Nat.shiftRight_eq_div_pow]

theorem bit_mk32 {x i : Nat} (h : x < 2 ^ 32) : bit (mk32 x) i = x.testBit i := by rw [bit, toNat_mk32 h]

theorem rPort_ne_hubR (n : Nat) {a : Nat} (ha : a < 0x1000) (o : Nat) : rPort n a ≠ hubR o := by
  have := rPort_lt_hubR n 0
  unfold rPort hubR rk at *
  omega

/-! ## A slot at its port -/

/-- A link whose port has received a slot that the lanes left alone: symbols that it corrected before may make a unit of PORT.FEC. -/
def Link.heard (x : Link) : Link := { x with corr := (x.corr + 0) % 256 }

/-- A port that has received one. -/
def Pkg.heard (g : Pkg) (n : Nat) : Pkg :=
  (g.onLink n Link.heard).wf (rPort n 0x10) 15 0 (min 65535 (g.rf (rPort n 0x10) 15 0 + ((g.link n).corr + 0) / 256))

section
variable (g : Pkg) (n : Nat)

theorem slot_clean {sent : List Byte} (h : slotOk sent = true) : g.slot n sent [] = (some sent, g.heard n) := by
  unfold Pkg.slot
  rw [slotRead_nil]
  dsimp only
  rw [if_pos h]
  rfl

theorem heard_rd {a : Nat} (h : a ≠ rPort n 0x10) : (g.heard n).rd a = g.rd a := by
  rw [Pkg.heard, Pkg.rd_wf, if_neg h, onLink_rd]

theorem heard_link : (g.heard n).link n = (g.link n).heard := link_onLink ..

theorem heard_portState : (g.heard n).portState n = g.portState n := by
  rw [Pkg.portState, Pkg.rf, heard_rd g n (rPort_off n (by decide)), Pkg.portState, Pkg.rf]

/-- What a slot leaves of a package's registers. -/
theorem heard_hub (o : Nat) : (g.heard n).rd (hubR o) = g.rd (hubR o) := heard_rd g n (rPort_ne_hubR n (by decide) o).symm
end

/-! ## What a port that goes DOWN leaves alone: ISOLATE of every port, and the links of the other packages -/

/-- ISOLATE reads the same at every port. -/
def Pkg.SameIso (g h : Pkg) : Prop := ∀ n, h.rb (rPort n 0) 27 = g.rb (rPort n 0) 27

theorem Pkg.SameIso.of_rd {g h : Pkg} (hrd : ∀ n, h.rd (rPort n 0) = g.rd (rPort n 0)) : g.SameIso h := fun n => by rw [Pkg.rb, hrd, Pkg.rb]

theorem Pkg.SameIso.of_regs {g h : Pkg} (hregs : h.regs = g.regs) : g.SameIso h := .of_rd fun _ => Pkg.rd_of_regs hregs _

theorem Pkg.SameIso.trans {g h i : Pkg} (h1 : g.SameIso h) (h2 : h.SameIso i) : g.SameIso i := fun n => (h2 n).trans (h1 n)

theorem Pkg.sameIso_self (g : Pkg) : g.SameIso g := fun _ => rfl

section
variable (g : Pkg)

theorem Pkg.sameIso_hub (o : Nat) (w : W32) : g.SameIso (g.wr (hubR o) w) := .of_rd fun n => Pkg.wr_rd_ne _ _ (rPort_ne_hubR n (by decide) o)

theorem Pkg.sameIso_state (m st : Nat) : g.SameIso (g.wf (rPort m 0) 30 28 st) := fun n => by
  rw [Pkg.rb, Pkg.rd_wf]
  split
  · next h => rw [bit_setF_apart _ _ (by decide) (by decide) (.inl (by decide)), Pkg.rb, h]
  · rfl

theorem Pkg.sameIso_logAt (code x1 x2 x3 a0 a1 a2 : Nat) : g.SameIso (g.logAt code x1 x2 x3 a0 a1 a2) := .of_rd fun n => by
  refine g.logAt_rd code x1 x2 x3 a0 a1 a2 ?_
  have hne (o : Nat) : rPort n 0 ≠ hubR o := rPort_ne_hubR n (by decide) o
  simp [rErrCtl, rErrHead, rErrLost, rPins, hne]

theorem Pkg.sameIso_setPhase (p : Nat) : g.SameIso (g.setPhase p) := by
  unfold Pkg.setPhase
  dsimp only
  split
  · exact (g.sameIso_hub 0x2004 _).trans (.of_regs rfl)
  · exact g.sameIso_hub 0x2004 _

theorem Pkg.halt_links (cause : Nat) : (g.halt cause).links = g.links := by
  unfold Pkg.halt
  split
  · rfl
  · show (Pkg.logAt _ _ _ _ _ _ _ _).links = _
    rw [Pkg.logAt_links]
    show (g.setPhase 4).links = _
    unfold Pkg.setPhase
    dsimp only
    split <;> rfl

theorem Pkg.sameIso_halt (cause : Nat) : g.SameIso (g.halt cause) := by
  unfold Pkg.halt
  split
  · exact g.sameIso_self
  · exact ((g.sameIso_setPhase 4).trans (Pkg.sameIso_hub _ 0x2004 _)).trans (Pkg.sameIso_logAt _ _ _ _ _ _ _ _)

theorem Pkg.sameIso_linkClear (n : Nat) : g.SameIso (g.linkClear n) := (Pkg.SameIso.of_regs rfl).trans (Pkg.sameIso_hub _ 0x402C _)

theorem Pkg.sameIso_fencePort (n : Nat) : g.SameIso (g.fencePort n) := by
  unfold Pkg.fencePort
  split
  · exact (g.sameIso_linkClear n).trans (Pkg.sameIso_state _ _ _)
  · exact g.sameIso_self

theorem Pkg.sameIso_portFell (n : Nat) (beats : Bool) (far : Nat × Nat) : g.SameIso (g.portFell n beats far) := by
  unfold Pkg.portFell
  refine Pkg.SameIso.trans ?_ (Pkg.sameIso_logAt _ _ _ _ _ _ _ _)
  refine Pkg.SameIso.trans ?_ (Pkg.sameIso_state _ n 4)
  exact (g.sameIso_linkClear n).trans (.of_regs rfl)

theorem Pkg.sameIso_fenceAll : g.SameIso g.fenceAll := List.foldlRecOn _ _ g.sameIso_self fun h hg n _ => hg.trans (h.sameIso_fencePort n)

theorem Pkg.sameIso_failPkg : g.SameIso g.failPkg := by
  unfold Pkg.failPkg
  split
  · exact (Pkg.SameIso.of_regs rfl).trans (Pkg.sameIso_hub _ 0x15018 _)
  · exact g.sameIso_self

theorem Pkg.sameIso_partition : g.SameIso g.partition := by
  unfold Pkg.partition
  split
  · exact g.sameIso_self
  · refine Pkg.SameIso.trans ?_ (Pkg.sameIso_fenceAll _)
    refine Pkg.SameIso.trans ?_ (.of_regs rfl)
    refine Pkg.SameIso.trans ?_ (Pkg.sameIso_failPkg _)
    exact (((g.sameIso_setPhase 4).trans (Pkg.sameIso_hub _ 0x2004 _)).trans (Pkg.sameIso_hub _ 0x7018 _)).trans (Pkg.sameIso_logAt _ _ _ _ _ _ _ _)
end

/-- A pack in which ISOLATE reads the same at every port and, but for package `k`, the links are the same. -/
def Pack.Spares (k : Nat) (s p : Pack) : Prop := ∀ j, (s.g j).SameIso (p.g j) ∧ (j ≠ k → (p.g j).links = (s.g j).links)

namespace Pack.Spares
variable {s p q : Pack} {k : Nat}

theorem refl (s : Pack) : Spares k s s := fun j => ⟨(s.g j).sameIso_self, fun _ => rfl⟩

theorem trans (h1 : Spares k s p) (h2 : Spares k p q) : Spares k s q := fun j =>
  ⟨(h1 j).1.trans (h2 j).1, fun hj => ((h2 j).2 hj).trans ((h1 j).2 hj)⟩

theorem on {i : Nat} {f : Pkg → Pkg} (hiso : (s.g i).SameIso (f (s.g i))) (hlinks : i ≠ k → (f (s.g i)).links = (s.g i).links) : Spares k s (s.on i f) :=
  fun j => by
    by_cases hj : j = i
    · subst hj
      rw [Pack.on_g_self]
      exact ⟨hiso, hlinks⟩
    · rw [Pack.on_g_ne _ _ hj]
      exact refl s j

theorem on_self {f : Pkg → Pkg} (hiso : (s.g k).SameIso (f (s.g k))) : Spares k s (s.on k f) := on hiso fun h => absurd rfl h

theorem haltAll (s : Pack) (k cause : Nat) : Spares k s (s.haltAll k cause) :=
  List.foldlRecOn _ _ (refl s) fun _ hp _ _ => hp.trans (on (Pkg.sameIso_halt _ _) fun _ => Pkg.halt_links ..)

theorem startRevert (s : Pack) (k upto : Nat) : Spares k s (s.startRevert k upto) :=
  on_self (((s.g k).sameIso_hub _ _).trans ((Pkg.sameIso_hub _ _ _).trans (.of_regs rfl)))

theorem restartRevert (s : Pack) (k : Nat) : Spares k s (s.restartRevert k) := on_self (.of_regs rfl)

theorem revertTo (s : Pack) (k : Nat) (host : Bool) (upto : Nat) : Spares k s (s.revertTo k host upto) := by
  unfold Pack.revertTo
  dsimp only
  split_ifs
  · exact refl s
  · exact on_self (.of_regs rfl)
  · exact restartRevert s k
  · exact refl s
  · exact haltAll s k 7
  · exact startRevert s k upto
  · exact haltAll s k 6

theorem succeed (s : Pack) (k : Nat) : Spares k s (s.succeed k) := by
  unfold Pack.succeed
  dsimp only
  split_ifs
  · exact on_self (Pkg.sameIso_partition _)
  · exact (on_self (((Pkg.sameIso_hub _ 0x7000 _).trans (Pkg.sameIso_hub _ 0x7018 _)).trans (.of_regs rfl))).trans (revertTo _ k _ _)
  · exact refl s

theorem declareLost (s : Pack) (k p : Nat) : Spares k s (s.declareLost k p) := by
  unfold Pack.declareLost
  extract_lets g t h
  have hgone : Spares k s t := on_self (.of_regs rfl)
  split_ifs
  · exact refl s
  · exact hgone.trans (on_self (Pkg.sameIso_partition _))
  · exact hgone.trans (revertTo t k _ _)
  · exact hgone.trans (restartRevert t k)
  · exact hgone.trans (succeed t k)
  · exact hgone

theorem takePortDown (s : Pack) (k pos port farPos farPort : Nat) : Spares k s (s.takePortDown k pos port farPos farPort) := by
  unfold Pack.takePortDown
  extract_lets a b g links t u
  have hlinks : Spares k s t := on_self (.of_regs rfl)
  have hnear : Spares k s u := by
    refine hlinks.trans ?_
    show Spares k t (if mget 0 links pos = 0 then t.declareLost k pos else t)
    split
    · exact declareLost t k pos
    · exact refl t
  split_ifs
  · exact refl s
  · exact hnear.trans (declareLost u k farPos)
  · exact hnear

theorem portDown (s : Pack) (k n : Nat) (beats : Bool) : Spares k s (s.portDown k n beats) := by
  by_cases huse : PortInUse ((s.g k).portState n)
  · have hfell : Spares k s (s.on k (fun g => g.portFell n beats ((s.g k).farEnd n))) :=
      on_self (Pkg.sameIso_portFell _ n beats _)
    rw [s.portDown_inUse k beats huse]
    dsimp only
    split
    · exact hfell.trans (takePortDown _ _ _ _ _ _)
    · exact hfell
  · rw [s.portDown_unused k beats huse]
    exact refl s
end Pack.Spares

end Sys2Proof.Machine
end

section
/-! PROOFS. Pack ports: a beat at its port -/

namespace Sys2Proof.Machine

/-! ## A beat at its port -/

/-- What a port holds of the beat it has received last. -/
def Pkg.beatRegs (g : Pkg) (n : Nat) (bs : List Byte) : Pkg :=
  let g := g.wr (rPort n 4) (mk32 (2 ^ 31 + at' (b2n ((slotF bs 2 1).testBit 1)) 30 + slotF bs 3 1 % 32 * 2 ^ 19 + slotF bs 4 1 % 64 * 2 ^ 13))
  let g := g.wr64 (rPort n 8) (rPort n 0xC) (slotF bs 16 8)
  let g := g.wr (rPort n 0x18) (mk32 (slotF bs 12 4 % 2 ^ 28 * 16))
  g.onLink n (fun x => { x with beat := bs.take 28, rxseq := slotF bs 12 4 })

section
variable (g : Pkg) (n : Nat) (bs : List Byte)

theorem beatRegs_rd {a : Nat} (h4 : a ≠ rPort n 4) (h8 : a ≠ rPort n 8) (hC : a ≠ rPort n 0xC) (h18 : a ≠ rPort n 0x18) : (g.beatRegs n bs).rd a = g.rd a := by
  unfold Pkg.beatRegs Pkg.wr64
  dsimp only
  rw [onLink_rd, Pkg.wr_rd_ne _ _ h18, Pkg.wr_rd_ne _ _ hC, Pkg.wr_rd_ne _ _ h8, Pkg.wr_rd_ne _ _ h4]

theorem beatRegs_hub (o : Nat) : (g.beatRegs n bs).rd (hubR o) = g.rd (hubR o) :=
  beatRegs_rd g n bs (rPort_ne_hubR n (by decide) o).symm (rPort_ne_hubR n (by decide) o).symm (rPort_ne_hubR n (by decide) o).symm
    (rPort_ne_hubR n (by decide) o).symm

theorem beatRegs_portState : (g.beatRegs n bs).portState n = g.portState n := by
  rw [Pkg.portState, Pkg.rf, beatRegs_rd g n bs (rPort_off n (by decide)) (rPort_off n (by decide)) (rPort_off n (by decide)) (rPort_off n (by decide)),
    Pkg.portState, Pkg.rf]

/-- The word of PORT.BEAT. -/
theorem beatWord {b a p : Nat} (hb : b ≤ 1) (ha : a < 32) (hp : p < 64) :
    bit (mk32 (2 ^ 31 + at' b 30 + a * 2 ^ 19 + p * 2 ^ 13)) 31 = true ∧ bit (mk32 (2 ^ 31 + at' b 30 + a * 2 ^ 19 + p * 2 ^ 13)) 30 = decide (b = 1) ∧
    fld (mk32 (2 ^ 31 + at' b 30 + a * 2 ^ 19 + p * 2 ^ 13)) 23 19 = a ∧ fld (mk32 (2 ^ 31 + at' b 30 + a * 2 ^ 19 + p * 2 ^ 13)) 18 13 = p := by
  have hat : at' b 30 = b * 2 ^ 30 := Nat.shiftLeft_eq ..
  have hlt : 2 ^ 31 + b * 2 ^ 30 + a * 2 ^ 19 + p * 2 ^ 13 < 2 ^ 32 := by omega
  rw [hat, bit_mk32 hlt, bit_mk32 hlt, fld_mk32 hlt, fld_mk32 hlt, Nat.testBit_eq_decide_div_mod_eq, Nat.testBit_eq_decide_div_mod_eq]
  refine ⟨decide_eq_true (by omega), decide_eq_decide.mpr (by omega), by omega, by omega⟩

theorem beatRegs_says : (g.beatRegs n bs).rb (rPort n 4) 31 = true ∧ (g.beatRegs n bs).rb (rPort n 4) 30 = (slotF bs 2 1).testBit 1 ∧
    (g.beatRegs n bs).rf (rPort n 4) 23 19 = slotF bs 3 1 % 32 ∧ (g.beatRegs n bs).rf (rPort n 4) 18 13 = slotF bs 4 1 % 64 ∧
    (slotF bs 16 8 < 2 ^ 64 → (g.beatRegs n bs).rd64 (rPort n 8) (rPort n 0xC) = slotF bs 16 8) ∧ (g.beatRegs n bs).rf (rPort n 0x18) 3 0 = 0 ∧
    ((g.beatRegs n bs).link n).beat = bs.take 28 := by
  have hoff {a b : Nat} (h : a ≠ b) := rPort_off n h
  obtain ⟨h31, h30, hport, hpos⟩ := beatWord (b2n_le ((slotF bs 2 1).testBit 1)) (Nat.mod_lt (slotF bs 3 1) (by decide : 0 < 32)) (Nat.mod_lt (slotF bs 4 1) (by decide : 0 < 64))
  have hword : (g.beatRegs n bs).rd (rPort n 4) =
      mk32 (2 ^ 31 + at' (b2n ((slotF bs 2 1).testBit 1)) 30 + slotF bs 3 1 % 32 * 2 ^ 19 + slotF bs 4 1 % 64 * 2 ^ 13) := by
    unfold Pkg.beatRegs Pkg.wr64
    dsimp only
    rw [onLink_rd, Pkg.wr_rd_ne _ _ (hoff (by decide)), Pkg.wr_rd_ne _ _ (hoff (by decide)), Pkg.wr_rd_ne _ _ (hoff (by decide)), Pkg.wr_rd_self]
  refine ⟨?_, ?_, ?_, ?_, fun hserial => ?_, ?_, ?_⟩
  · rw [Pkg.rb, hword, h31]
  · rw [Pkg.rb, hword, h30]
    cases (slotF bs 2 1).testBit 1 <;> rfl
  · rw [Pkg.rf, hword, hport]
  · rw [Pkg.rf, hword, hpos]
  · have hsame : (g.beatRegs n bs).rd64 (rPort n 8) (rPort n 0xC) = ((g.wr (rPort n 4) (mk32 (2 ^ 31 + at' (b2n ((slotF bs 2 1).testBit 1)) 30 + slotF bs 3 1 % 32 * 2 ^ 19 +
        slotF bs 4 1 % 64 * 2 ^ 13))).wr64 (rPort n 8) (rPort n 0xC) (slotF bs 16 8)).rd64 (rPort n 8) (rPort n 0xC) := by
      refine rd64_of_rd ?_ ?_ <;>
      · unfold Pkg.beatRegs
        dsimp only
        rw [onLink_rd, Pkg.wr_rd_ne _ _ (hoff (by decide))]
    rw [hsame, wr64_rd64 _ (hoff (by decide))]
    exact Nat.mod_eq_of_lt hserial
  · have h18 : (g.beatRegs n bs).rd (rPort n 0x18) = mk32 (slotF bs 12 4 % 2 ^ 28 * 16) := by
      unfold Pkg.beatRegs
      dsimp only
      rw [onLink_rd, Pkg.wr_rd_self]
    rw [Pkg.rf, h18, fld_mk32 (by omega)]
    omega
  · unfold Pkg.beatRegs
    dsimp only
    rw [link_onLink]
end

theorem sixFlags : ∀ a b c d e f : Bool, (b2n a + 2 * b2n b + 4 * b2n c + 8 * b2n d + 16 * b2n e + 32 * b2n f).testBit 0 = a ∧
    (b2n a + 2 * b2n b + 4 * b2n c + 8 * b2n d + 16 * b2n e + 32 * b2n f).testBit 1 = b ∧
    (b2n a + 2 * b2n b + 4 * b2n c + 8 * b2n d + 16 * b2n e + 32 * b2n f).testBit 2 = c ∧
    (b2n a + 2 * b2n b + 4 * b2n c + 8 * b2n d + 16 * b2n e + 32 * b2n f).testBit 5 = f := by decide

/-- The flags of a beat, bit by bit. -/
theorem beatFlags_bits (g : Pkg) (m : Nat) : (g.beatFlags m).testBit 0 = (g.portState m == 4) ∧ (g.beatFlags m).testBit 1 = g.assigned ∧
    (g.beatFlags m).testBit 2 = g.leads ∧ (g.beatFlags m).testBit 5 = (g.portState m == 3) := by
  unfold Pkg.beatFlags
  exact sixFlags ..

/-- An end that has sent a beat. -/
def beatSent (y : Link) : Link := { y with bseq := (y.bseq + 1) % 2 ^ 32, dwn := y.dwn - 1 }

/-- A pack in which a beat has been received, before it is acted on. -/
def Pack.beatHeard (s : Pack) (k n j m : Nat) : Pack :=
  ((s.on j (fun h => h.onLink m beatSent)).put k ((s.g k).heard n)).on k (fun g => g.beatRegs n ((s.g j).beatSlot j m))

section
variable {s : Pack} {k n j m : Nat} (hj : j ≠ k)

theorem put_g_self (s : Pack) (k : Nat) (g : Pkg) : (s.put k g).g k = g := mget_mins_self ..

theorem put_g_ne (s : Pack) {j k : Nat} (g : Pkg) (h : j ≠ k) : (s.put k g).g j = s.g j := by
  unfold Pack.g Pack.put
  exact mget_mins_ne _ _ _ h

theorem beatHeard_near : (s.beatHeard k n j m).g k = ((s.g k).heard n).beatRegs n ((s.g j).beatSlot j m) := by
  rw [Pack.beatHeard, Pack.on_g_self, put_g_self]

include hj

theorem beatHeard_far : (s.beatHeard k n j m).g j = (s.g j).onLink m beatSent := by
  rw [Pack.beatHeard, Pack.on_g_ne _ _ hj, put_g_ne _ _ hj, Pack.on_g_self]

/-- A beat that the lanes leave alone is valid (R290). -/
theorem beat_valid (hpeer : ((s.g k).link n).peer = some (j, m)) (hst : (s.g k).portState n ≠ 0 ∧ (s.g k).portState n ≠ 4) (hlive : (s.g k).portLive n = true)
    (hbeats : (s.g j).beats m = true) : s.beat k n j m [] = (s.beatHeard k n j m).beatTaken k n j ((s.g j).beatSlot j m) := by
  obtain ⟨hok, hmagic, -⟩ := beat_fields (s.g j) j m
  unfold Pack.beat
  extract_lets g sent t r u
  rw [if_neg (by simp [g, hpeer]), if_neg (by simp [g, hst.1, hst.2, hlive, hbeats])]
  have hr : r = (some sent, (s.g k).heard n) := by
    simp only [r, t, symErrs_nil]
    rw [Pack.on_g_ne _ _ (Ne.symm hj), slot_clean _ _ hok]
  have hu : u = t.put k ((s.g k).heard n) := by rw [show u = t.put k r.2 from rfl, hr]
  rw [hr, hu]
  show (if slotF sent 0 2 ≠ 0xB3A7 then _ else _) = _
  rw [if_neg (not_not.mpr hmagic)]
  rfl

omit hj in
/-- What a beat at an UP port leaves of it and tells of its partner. -/
theorem beatHeard_says :
    let q := (s.beatHeard k n j m).g k
    q.portState n = (s.g k).portState n ∧ q.rb (rPort n 4) 31 = true ∧ q.rb (rPort n 4) 30 = (s.g j).assigned ∧
    q.rf (rPort n 4) 23 19 = m % 32 ∧ q.rf (rPort n 4) 18 13 = (s.g j).pos ∧ q.rd64 (rPort n 8) (rPort n 0xC) = serialOf j ∧
    q.rf (rPort n 0x18) 3 0 = 0 ∧ (q.link n).beat = ((s.g j).beatSlot j m).take 28 := by
  obtain ⟨-, -, hfl, hport, hpos, -, -, hserial⟩ := beat_fields (s.g j) j m
  obtain ⟨-, hassigned, -, -⟩ := beatFlags_bits (s.g j) m
  obtain ⟨h1, h2, h3, h4, h5, h6, h7⟩ := beatRegs_says ((s.g k).heard n) n ((s.g j).beatSlot j m)
  have hpos64 : (s.g j).pos < 64 := fld_lt ..
  have hserial64 : serialOf j < 2 ^ 64 := Nat.mod_lt _ (by decide)
  intro q
  rw [show q = _ from beatHeard_near]
  refine ⟨?_, h1, ?_, ?_, ?_, ?_, h6, h7⟩
  · rw [beatRegs_portState, heard_portState]
  · rw [h2, hfl, hassigned]
  · rw [h3, hport, Nat.mod_mod]
  · rw [h4, hpos, Nat.mod_eq_of_lt hpos64]
  · rw [h5 (by rw [hserial]; exact hserial64), hserial]

/-- Who a package is: PACK.ID, PACK.EPOCH. -/
def Pkg.identity (g : Pkg) : Bool × Nat × Bool × Nat := (g.assigned, g.pos, g.leads, g.epoch)

omit hj in
theorem beatHeard_identity : ((s.beatHeard k n j m).g k).identity = (s.g k).identity := by
  have hrd (o : Nat) : ((s.beatHeard k n j m).g k).rd (hubR o) = (s.g k).rd (hubR o) := by rw [beatHeard_near, beatRegs_hub, heard_hub]
  unfold Pkg.identity Pkg.assigned Pkg.pos Pkg.leads Pkg.epoch Pkg.rb Pkg.rf rPackId rPackEpoch
  rw [hrd, hrd]

/-- A beat of a package that conflicts with nothing: one of another epoch, or from a FENCED port, fences an UP port (R290, R293). -/
theorem beat_up (hpeer : ((s.g k).link n).peer = some (j, m)) (hup : (s.g k).portState n = 2) (hlive : (s.g k).portLive n = true)
    (hbeats : (s.g j).beats m = true) (hdown : (s.g j).portState m ≠ 4) (htwin : ¬ ((s.g k).assigned = true ∧ (s.g j).assigned = true ∧ (s.g j).pos = (s.g k).pos))
    (hlead : ¬ ((s.g k).leads = true ∧ (s.g j).leads = true)) : s.beat k n j m [] =
      if (s.g j).epoch ≠ (s.g k).epoch ∨ (s.g j).portState m = 3 then (s.beatHeard k n j m).on k (fun g => g.fencePort n) else s.beatHeard k n j m := by
  obtain ⟨-, -, hfl, -, hpos, hepoch, -, -⟩ := beat_fields (s.g j) j m
  obtain ⟨h0, h1, h2, h5⟩ := beatFlags_bits (s.g j) m
  obtain ⟨hassigned, hrest⟩ := Prod.mk.inj (beatHeard_identity (s := s) (k := k) (n := n) (j := j) (m := m))
  obtain ⟨hmypos, hrest⟩ := Prod.mk.inj hrest
  obtain ⟨hleads, hmyepoch⟩ := Prod.mk.inj hrest
  obtain ⟨hstate, -⟩ := beatHeard_says (s := s) (k := k) (n := n) (j := j) (m := m)
  have hpos64 : (s.g j).pos < 64 := fld_lt ..
  rw [beat_valid hj hpeer (by omega) hlive hbeats]
  unfold Pack.beatTaken
  extract_lets fl serial g pos lead s1 s2
  have hposF : pos = false := Bool.eq_false_iff.mpr fun h => by
    obtain ⟨h, -⟩ := (Bool.and_eq_true_iff ..).mp h
    obtain ⟨h, hsame⟩ := (Bool.and_eq_true_iff ..).mp h
    obtain ⟨hmine, htheirs⟩ := (Bool.and_eq_true_iff ..).mp h
    refine htwin ⟨hassigned.symm.trans hmine, ?_, ?_⟩
    · rw [← h1, ← hfl]; exact htheirs
    · rw [← hmypos, ← beq_iff_eq.mp hsame, hpos, Nat.mod_eq_of_lt hpos64]
  have hleadF : lead = false := Bool.eq_false_iff.mpr fun h => by
    obtain ⟨h, -⟩ := (Bool.and_eq_true_iff ..).mp h
    obtain ⟨hmine, htheirs⟩ := (Bool.and_eq_true_iff ..).mp h
    refine hlead ⟨hleads.symm.trans hmine, ?_⟩
    rw [← h2, ← hfl]; exact htheirs
  have hs1 : s1 = s.beatHeard k n j m := if_neg (by simp [hposF])
  have hs2 : s2 = s.beatHeard k n j m := (if_neg (by simp [hleadF])).trans hs1
  have hflag : fl.testBit 5 = true ↔ (s.g j).portState m = 3 := by
    rw [show fl = _ from hfl, h5, beq_iff_eq]
  rw [if_neg (by rw [show fl = _ from hfl, h0]; simpa using hdown), if_neg (by simp [hposF, hleadF]), hs2]
  by_cases hc : (s.g j).epoch ≠ (s.g k).epoch ∨ (s.g j).portState m = 3
  · rw [if_pos hc, if_pos ⟨hstate.trans hup, by rw [hepoch, show g.epoch = _ from hmyepoch, hflag]; exact hc⟩]
  · rw [if_neg hc, if_neg (fun h => hc (by rw [hepoch, show g.epoch = _ from hmyepoch, hflag] at h; exact h.2)), if_neg (by
      rw [show g.portState n = _ from hstate, hup]
      decide)]

/-- A DOWN beat takes the port DOWN (R292). -/
theorem beat_down (hpeer : ((s.g k).link n).peer = some (j, m)) (hst : 1 ≤ (s.g k).portState n ∧ (s.g k).portState n ≤ 3) (hlive : (s.g k).portLive n = true)
    (hbeats : (s.g j).beats m = true) (hdown : (s.g j).portState m = 4) : s.beat k n j m [] = (s.beatHeard k n j m).portDown k n := by
  obtain ⟨-, -, hfl, -⟩ := beat_fields (s.g j) j m
  obtain ⟨h0, -⟩ := beatFlags_bits (s.g j) m
  rw [beat_valid hj hpeer (by omega) hlive hbeats]
  unfold Pack.beatTaken
  dsimp only
  rw [if_pos (by rw [hfl, h0, hdown]; rfl)]
end

/-- A fenced port: its transfers have stopped (R293). -/
theorem fencePort_link (g : Pkg) (n : Nat) (h : g.portState n = 2) : ((g.fencePort n).link n).retry = [] ∧ ((g.fencePort n).link n).credits = [] := by
  unfold Pkg.fencePort
  rw [if_pos h]
  have hlink : ((g.linkClear n).wf (rPort n 0) 30 28 3).link n = ({ g.link n with retry := [], back := none, credits := [], tot := {}, nak := false, seen := false } : Link) :=
    link_onLink (g.inject (portSites.getD (n / 4) 0) (((g.link n).retry.filter (fun r => !r.bad)).flatMap (·.flits))) n
      (fun x => { x with retry := [], back := none, credits := [], tot := {}, nak := false, seen := false })
  rw [hlink]
  exact ⟨rfl, rfl⟩

end Sys2Proof.Machine
end

section
/-! PROOFS. Pack ports: beats and windows -/

namespace Sys2Proof.Machine

/-! ## Beats and windows -/

section
variable {s : State} {c : Instr} {k : Nat} {P : Pack → Prop} (hup : (s.pack.g k).hubUp = true)
include hup

omit P in
theorem gives_of_atPort {h : Pack → Pack} {p : Pack} (hc : exec c s = .next (s.onPack (fun s => s.atPort k h))) (hp : h s.pack = p) : Gives c s p :=
  gives_of_onPack hc ((if_pos ((Bool.and_eq_true_iff ..).mp hup).1).trans hp)

theorem leaves_atPort {h : Pack → Pack} (hc : exec c s = .next (s.onPack (fun s => s.atPort k h))) (hP : P (h s.pack)) : Leaves c s P :=
  ⟨_, gives_of_atPort hup hc rfl, hP⟩
end

/-- A port in use that is taken DOWN. -/
theorem portDown_takes {s : Pack} {k n : Nat} (h : 1 ≤ (s.g k).portState n ∧ (s.g k).portState n ≤ 3) : ((s.portDown k n).g k).portState n = 4 :=
  ((s.portDown_lapses k n true k n).down (s.portDown_portState k n true)).trans (if_pos h)

section
variable (s : Pack) (k n j m : Nat) (errs : List (Nat × Nat × Nat))

/-- What arrives at a port from where its cable does not lead is none of its beats. -/
theorem beat_unplugged (h : ((s.g k).link n).peer ≠ some (j, m)) : s.beat k n j m errs = s := if_pos h

theorem beat_silent (h : (s.g j).beats m = false) : s.beat k n j m errs = s := by
  unfold Pack.beat
  extract_lets g sent t r u
  by_cases hp : (g.link n).peer ≠ some (j, m)
  · rw [if_pos hp]
  · rw [if_neg hp, if_pos (.inr (.inr (.inr (by rw [h]; rfl))))]

/-- A window without a valid beat, counted (R291). -/
def Pkg.missed (g : Pkg) (n : Nat) : Pkg := g.wf (rPort n 0x18) 3 0 (min (g.rf (rPort n 0x18) 3 0 + 1) 8)

variable {s k n} (hst : (s.g k).portState n = 2 ∨ (s.g k).portState n = 3)
include hst

theorem beatMiss_eq : s.beatMiss k n = if 8 ≤ (s.g k).rf (rPort n 0x18) 3 0 + 1 then (s.on k (fun _ => (s.g k).missed n)).portDown k n
    else s.on k (fun _ => (s.g k).missed n) := by
  unfold Pack.beatMiss
  extract_lets g m t
  rw [if_neg (by rcases hst with h | h <;> simp [g, h])]
  rfl

omit hst in
theorem missed_portState (g : Pkg) : (g.missed n).portState n = g.portState n := by
  rw [Pkg.portState, Pkg.rf, Pkg.missed, Pkg.rd_wf, if_neg (rPort_off n (by decide)), Pkg.portState, Pkg.rf]

theorem beatMiss_early (h : (s.g k).rf (rPort n 0x18) 3 0 + 1 < 8) : ((s.beatMiss k n).g k).rf (rPort n 0x18) 3 0 = (s.g k).rf (rPort n 0x18) 3 0 + 1 ∧
    ((s.beatMiss k n).g k).portState n = (s.g k).portState n ∧ (s.beatMiss k n).mem = s.mem := by
  rw [beatMiss_eq hst, if_neg (by omega), Pack.on_g_self]
  refine ⟨?_, missed_portState _, rfl⟩
  rw [Pkg.missed, Pkg.rf_wf_same _ _ (by decide) (by decide)]
  omega

theorem beatMiss_eighth (h : 8 ≤ (s.g k).rf (rPort n 0x18) 3 0 + 1) : ((s.beatMiss k n).g k).portState n = 4 := by
  have hstate : ((s.on k (fun _ => (s.g k).missed n)).g k).portState n = (s.g k).portState n := by rw [Pack.on_g_self, missed_portState]
  rw [beatMiss_eq hst, if_pos h]
  exact portDown_takes (by rw [hstate]; omega)
end

section
variable {s : Pack} {k n j m : Nat} (hj : j ≠ k) (hpeer : ((s.g k).link n).peer = some (j, m)) (hlive : (s.g k).portLive n = true)
  (hbeats : (s.g j).beats m = true)
include hj hpeer hlive hbeats

section
variable (hup : (s.g k).portState n = 2) (hdown : (s.g j).portState m ≠ 4)
  (htwin : ¬ ((s.g k).assigned = true ∧ (s.g j).assigned = true ∧ (s.g j).pos = (s.g k).pos)) (hlead : ¬ ((s.g k).leads = true ∧ (s.g j).leads = true))
include hup hdown htwin hlead

/-- A valid beat renews what an UP port knows of its partner (R290). -/
theorem beat_renews (hm : m < 32) (hepoch : (s.g j).epoch = (s.g k).epoch) (hfence : (s.g j).portState m ≠ 3) :
    let p := s.beat k n j m []
    (p.g k).portState n = 2 ∧ (p.g k).rb (rPort n 4) 31 = true ∧ (p.g k).rb (rPort n 4) 30 = (s.g j).assigned ∧
    (p.g k).rf (rPort n 4) 23 19 = m ∧ (p.g k).rf (rPort n 4) 18 13 = (s.g j).pos ∧ (p.g k).rd64 (rPort n 8) (rPort n 0xC) = serialOf j ∧
    (p.g k).rf (rPort n 0x18) 3 0 = 0 ∧ ((p.g k).link n).beat = ((s.g j).beatSlot j m).take 28 ∧
    ((p.g j).link m).bseq = (((s.g j).link m).bseq + 1) % 2 ^ 32 ∧ p.mem = s.mem := by
  obtain ⟨h1, h2, h3, h4, h5, h6, h7, h8⟩ := beatHeard_says (s := s) (k := k) (n := n) (j := j) (m := m)
  intro p
  have hp : p = s.beatHeard k n j m := (beat_up hj hpeer hup hlive hbeats hdown htwin hlead).trans (if_neg (by simp [hepoch, hfence]))
  rw [hp]
  refine ⟨h1.trans hup, h2, h3, by rw [h4, Nat.mod_eq_of_lt hm], h5, h6, h7, h8, ?_, rfl⟩
  rw [beatHeard_far hj, link_onLink]
  rfl

/-- A beat of another epoch, or from a FENCED port, fences the port (R293). -/
theorem beat_fences (h : (s.g j).epoch ≠ (s.g k).epoch ∨ (s.g j).portState m = 3) :
    let p := s.beat k n j m []
    (p.g k).portState n = 3 ∧ ((p.g k).link n).retry = [] ∧ ((p.g k).link n).credits = [] ∧ p.mem = s.mem := by
  obtain ⟨h1, -⟩ := beatHeard_says (s := s) (k := k) (n := n) (j := j) (m := m)
  have hst := h1.trans hup
  obtain ⟨hretry, hcredits⟩ := fencePort_link _ n hst
  intro p
  have hp : p = (s.beatHeard k n j m).on k (fun g => g.fencePort n) := (beat_up hj hpeer hup hlive hbeats hdown htwin hlead).trans (if_pos h)
  rw [hp, Pack.on_g_self]
  refine ⟨?_, hretry, hcredits, rfl⟩
  rw [Pkg.fencePort, if_pos hst, Pkg.setState_portState _ _ _ (by decide), if_pos rfl]
end

/-- A DOWN beat takes the port DOWN, and is one less to be sent (R292). -/
theorem beat_downs (hst : 1 ≤ (s.g k).portState n ∧ (s.g k).portState n ≤ 3) (hdown : (s.g j).portState m = 4) :
    let p := s.beat k n j m []
    (p.g k).portState n = 4 ∧ ((p.g j).link m).dwn = ((s.g j).link m).dwn - 1 := by
  obtain ⟨h1, -⟩ := beatHeard_says (s := s) (k := k) (n := n) (j := j) (m := m)
  intro p
  rw [show p = _ from beat_down hj hpeer hst hlive hbeats hdown]
  refine ⟨?_, ?_⟩
  · exact portDown_takes (by rw [h1]; exact hst)
  · have hlinks := (Pack.Spares.portDown (s.beatHeard k n j m) k n true j).2 hj
    rw [Pkg.link, hlinks, ← Pkg.link, beatHeard_far hj, link_onLink]
    rfl
end

end Sys2Proof.Machine
end

section
/-! PROOFS. Pack ports: training, ISOLATE, a silent hub, audit markers -/

namespace Sys2Proof.Machine

/-! ## A port trains -/

/-- A port that has trained with its partner: FENCED, nothing sent yet (R293). -/
def Pkg.trained (g : Pkg) (n : Nat) (peer : Nat × Nat) (rev : Bool) (pol : Nat) : Pkg :=
  (((g.wf (rPort n 0) 30 28 3).wr (rPort n 4) 0).wf (rPort n 0x18) 3 0 0).onLink n
    (fun x => { peer := some peer, rev := rev, pol := pol % 16, bseq := x.bseq })

/-- A port that comes UP with its partner (R288, R293). -/
def Pkg.raised (g h : Pkg) (n m : Nat) : Pkg :=
  ((g.wf (rPort n 0) 30 28 2).wr (rPort n 4) (mk32 (3 * 2 ^ 30 + m * 2 ^ 19 + h.pos * 2 ^ 13))).onLink n Link.fresh

section
variable (g h : Pkg) (n m : Nat) (peer : Nat × Nat) (rev : Bool) (pol : Nat)

theorem trained_rd {a : Nat} (h0 : a ≠ rPort n 0) (h4 : a ≠ rPort n 4) (h18 : a ≠ rPort n 0x18) : (g.trained n peer rev pol).rd a = g.rd a := by
  rw [Pkg.trained, onLink_rd, Pkg.rd_wf, if_neg h18, Pkg.wr_rd_ne _ _ h4, Pkg.rd_wf, if_neg h0]

theorem trained_hub (o : Nat) : (g.trained n peer rev pol).rd (hubR o) = g.rd (hubR o) :=
  trained_rd g n peer rev pol (rPort_ne_hubR n (by decide) o).symm (rPort_ne_hubR n (by decide) o).symm (rPort_ne_hubR n (by decide) o).symm

theorem trained_portState : (g.trained n peer rev pol).portState n = 3 := by
  rw [Pkg.trained, Pkg.portState, Pkg.rf, onLink_rd, Pkg.rd_wf, if_neg (rPort_off n (by decide)), Pkg.wr_rd_ne _ _ (rPort_off n (by decide))]
  exact (g.setState_portState n n (st := 3) (by decide)).trans (if_pos rfl)

theorem trained_link : (g.trained n peer rev pol).link n = { peer := some peer, rev := rev, pol := pol % 16, bseq := (g.link n).bseq } := link_onLink ..

theorem raised_portState : (g.raised h n m).portState n = 2 := by
  rw [Pkg.raised, Pkg.portState, Pkg.rf, onLink_rd, Pkg.wr_rd_ne _ _ (rPort_off n (by decide))]
  exact (g.setState_portState n n (st := 2) (by decide)).trans (if_pos rfl)

theorem raised_link : (g.raised h n m).link n = (g.link n).fresh := link_onLink ..

theorem fresh_credits (x : Link) : ∀ c, c < 32 → mget 0 x.fresh.credits c = 2048 := by
  show ∀ c, c < 32 → mget 0 ((List.range 32).map (fun c => (c, 2048))) c = 2048
  decide
end

section
variable {s : Pack} {k n j m pol : Nat} {rev : Bool} (hj : j ≠ k)

/-- A partner that is not driven, or still sends DOWN beats, lets no training complete (R304). -/
theorem portTrain_undriven (h : (s.g j).portLive m = false ∨ 0 < ((s.g j).link m).dwn) : s.portTrain k n (j, m) rev pol = s := by
  unfold Pack.portTrain
  extract_lets g h' t
  refine if_pos ?_
  rcases h with h | h
  · exact .inr (.inr (.inr (.inr (.inr (.inl (by simp [h', h]))))))
  · exact .inr (.inr (.inr (.inr (.inr (.inr (.inr (.inr h)))))))

variable (hlive : (s.g k).portLive n = true) (hst : (s.g k).portState n = 1 ∨ (s.g k).portState n = 4) (hiso : (s.g k).rb (rPort n 0) 27 = false)
  (hquiet : ((s.g k).link n).dwn = 0) (hlive' : (s.g j).portLive m = true) (hst' : (s.g j).portState m ≠ 0) (hiso' : (s.g j).rb (rPort m 0) 27 = false)
  (hquiet' : ((s.g j).link m).dwn = 0)
include hj hlive hst hiso hquiet hlive' hst' hiso' hquiet'

theorem portTrain_trains : s.portTrain k n (j, m) rev pol = (s.on k (fun g => g.trained n (j, m) rev pol)).raiseOff k n := by
  unfold Pack.portTrain
  extract_lets g h' t
  rw [if_neg]
  · rfl
  · simp only [g, h', hlive, hiso, hquiet, hlive', hst', hiso', hquiet']
    simp [hj]
    omega

omit hj hlive hst hiso hquiet hlive' hst' hiso' hquiet' in
/-- What a package's port asks of its membership stays as the port trains. -/
theorem trained_member (g : Pkg) : (g.trained n (j, m) rev pol).mode = g.mode ∧ (g.trained n (j, m) rev pol).linkable = g.linkable ∧
    (g.trained n (j, m) rev pol).epoch = g.epoch ∧ (g.trained n (j, m) rev pol).mem = g.mem ∧ (g.trained n (j, m) rev pol).pos = g.pos := by
  have hrd (o : Nat) := trained_hub g n (j, m) rev pol o
  refine ⟨congrArg (fld · 1 0) (hrd 0x5000), ?_, congrArg (fld · 15 0) (hrd 0x7004), rd64_of_rd (hrd 0x7008) (hrd 0x700C), congrArg (fld · 5 0) (hrd 0x7000)⟩
  unfold Pkg.linkable Pkg.assigned Pkg.rb rPackId rPackStat
  rw [hrd, hrd]

/-- A port trains, and stays FENCED while either package pipelines (R293). -/
theorem portTrain_fenced (hmode : (s.g k).mode ≠ 0 ∨ (s.g j).mode ≠ 0) :
    s.portTrain k n (j, m) rev pol = s.on k (fun g => g.trained n (j, m) rev pol) := by
  obtain ⟨hsame, -⟩ := trained_member (n := n) (j := j) (m := m) (rev := rev) (pol := pol) (s.g k)
  rw [portTrain_trains hj hlive hst hiso hquiet hlive' hst' hiso' hquiet']
  unfold Pack.raiseOff
  rw [Pack.on_g_self, trained_link]
  dsimp only
  rw [Pack.on_g_ne _ _ hj, hsame, if_neg (by omega)]

/-- A port trains, and comes UP with a partner in the same membership (R293). -/
theorem portTrain_up (hmode : (s.g k).mode = 0) (hmode' : (s.g j).mode = 0) (hfenced : (s.g j).portState m = 3) (hlink : (s.g k).linkable = true)
    (hlink' : (s.g j).linkable = true) (hepoch : (s.g k).epoch = (s.g j).epoch) (hmem : (s.g k).mem.testBit (s.g j).pos = true)
    (hmem' : (s.g j).mem.testBit (s.g k).pos = true) :
    s.portTrain k n (j, m) rev pol = ((s.on k (fun g => g.trained n (j, m) rev pol)).on k (fun g => g.raised (s.g j) n m)).on j
      (fun h => h.raised ((s.g k).trained n (j, m) rev pol) m n) := by
  obtain ⟨hsmode, hslink, hsepoch, hsmem, hspos⟩ := trained_member (n := n) (j := j) (m := m) (rev := rev) (pol := pol) (s.g k)
  have hnear : (s.on k (fun g => g.trained n (j, m) rev pol)).g k = (s.g k).trained n (j, m) rev pol := Pack.on_g_self ..
  have hfar : (s.on k (fun g => g.trained n (j, m) rev pol)).g j = s.g j := Pack.on_g_ne _ _ hj
  rw [portTrain_trains hj hlive hst hiso hquiet hlive' hst' hiso' hquiet']
  generalize s.on k (fun g => g.trained n (j, m) rev pol) = t at hnear hfar ⊢
  unfold Pack.raiseOff
  rw [hnear, trained_link]
  dsimp only
  rw [hfar, if_pos ⟨hsmode.trans hmode, hmode'⟩]
  unfold Pack.raisePort
  rw [hnear]
  dsimp only
  rw [show mget ({} : Link) ((s.g k).trained n (j, m) rev pol).links n = _ from trained_link ..]
  dsimp only
  rw [hfar, if_neg]
  · rfl
  · rw [trained_portState, hsepoch, hsmem, hspos, hslink]
    simp [hlink, hlink', hepoch, hmem, hmem', hfenced]

/-- A port trains: what it is left as (R293). -/
theorem portTrain_fenced_says (hmode : (s.g k).mode ≠ 0 ∨ (s.g j).mode ≠ 0) :
    let p := s.portTrain k n (j, m) rev pol
    (p.g k).portState n = 3 ∧ ((p.g k).link n).peer = some (j, m) ∧ ((p.g k).link n).rev = rev ∧ ((p.g k).link n).pol = pol % 16 ∧ p.mem = s.mem := by
  intro p
  rw [show p = _ from portTrain_fenced hj hlive hst hiso hquiet hlive' hst' hiso' hquiet' hmode, Pack.on_g_self, trained_link]
  exact ⟨trained_portState .., rfl, rfl, rfl, rfl⟩

/-- A port comes UP: numbers from 0, 2,048 credits of every class, at both ends (R288, R293). -/
theorem portTrain_up_says (hmode : (s.g k).mode = 0) (hmode' : (s.g j).mode = 0) (hfenced : (s.g j).portState m = 3) (hlink : (s.g k).linkable = true)
    (hlink' : (s.g j).linkable = true) (hepoch : (s.g k).epoch = (s.g j).epoch) (hmem : (s.g k).mem.testBit (s.g j).pos = true)
    (hmem' : (s.g j).mem.testBit (s.g k).pos = true) :
    let p := s.portTrain k n (j, m) rev pol
    (p.g k).portState n = 2 ∧ (p.g j).portState m = 2 ∧ ((p.g k).link n).next = 0 ∧ (∀ c, c < 32 → mget 0 ((p.g k).link n).credits c = 2048) ∧ p.mem = s.mem := by
  intro p
  have hp : p = _ := portTrain_up hj hlive hst hiso hquiet hlive' hst' hiso' hquiet' hmode hmode' hfenced hlink hlink' hepoch hmem hmem'
  have hnear : p.g k = ((s.g k).trained n (j, m) rev pol).raised (s.g j) n m := by
    rw [hp, Pack.on_g_ne _ _ (Ne.symm hj), Pack.on_g_self, Pack.on_g_self]
  have hfar : p.g j = (s.g j).raised ((s.g k).trained n (j, m) rev pol) m n := by
    rw [hp, Pack.on_g_self, Pack.on_g_ne _ _ hj, Pack.on_g_ne _ _ hj]
  rw [hnear, hfar, raised_link]
  exact ⟨raised_portState .., raised_portState .., rfl, fresh_credits _, by rw [hp]; rfl⟩
end

/-! ## ISOLATE, a silent hub, the audit marker -/

theorem portSites_findIdx : ∀ i, i < 8 → portSites.findIdx? (· == portSites.getD i 0) = some i := by decide

/-- The register block of a port. -/
theorem port_block : ∀ n, n < 32 → blockOf (portSites.getD (n / 4) 0) (0x3000 + 0x40 * (n % 4)) = some (.port, 0x40 * (n % 4)) := by decide

/-- The port that a write to its control word names. -/
theorem blkWrite_port {n : Nat} (hn : n < 32) (s : Pack) (k : Nat) (v : W32) (x : WrX) :
    s.blkWrite k (portSites.getD (n / 4) 0) .port (0x40 * (n % 4)) v x = s.portWrite k n 0 true v := by
  unfold Pack.blkWrite
  dsimp only
  rw [portSites_findIdx _ (by omega)]
  dsimp only
  rw [if_pos (by omega), show 4 * (n / 4) + 0x40 * (n % 4) / 0x40 = n by omega, show 0x40 * (n % 4) % 0x40 = 0 by omega]

section
variable {s : Pack} {k n : Nat}

/-- A port that is isolated (R292). -/
theorem portWrite_isolates {v : W32} (hv : bit v 27 = true) : ((s.portWrite k n 0 true v).g k).rb (rPort n 0) 27 = true ∧
    ((s.portWrite k n 0 true v).g k).portState n = if 1 ≤ (s.g k).portState n ∧ (s.g k).portState n ≤ 3 then 4 else (s.g k).portState n := by
  have hw : s.portWrite k n 0 true v = (s.on k (fun g => g.wb (rPort n 0) 27 true)).portDown k n := by
    unfold Pack.portWrite
    simp only [hv]
    rfl
  have hbit : ((s.on k (fun g => g.wb (rPort n 0) 27 true)).g k).rb (rPort n 0) 27 = true := by
    rw [Pack.on_g_self]
    exact Pkg.rb_wb_same _ _ _ (by decide)
  have hstate : ((s.on k (fun g => g.wb (rPort n 0) 27 true)).g k).portState n = (s.g k).portState n := by
    rw [Pack.on_g_self, Pkg.portState, Pkg.rf, Pkg.wb, Pkg.wr_rd_self, fld_setB_apart _ _ (by decide) (.inr (by decide)), Pkg.portState, Pkg.rf]
  rw [hw]
  refine ⟨((Pack.Spares.portDown _ k n true k).1 n).trans hbit, ?_⟩
  rw [(Pack.portDown_lapses _ k n true k n).down (Pack.portDown_portState _ k n true), hstate]
end

/-- A port whose die hears nothing from its hub: DOWN, with DOWN beats to send (R301). -/
def Pkg.silencePort (g : Pkg) (n : Nat) : Pkg :=
  if g.portState n = 2 ∨ g.portState n = 3 then ((g.linkClear n).onLink n (fun x => { x with dwn := 16 })).wf (rPort n 0) 30 28 4 else g

theorem hubSilence_eq {n : Nat} (hn : n < 32) {g : Pkg} (hhole : g.hole (portSites.getD (n / 4) 0) = false) :
    g.hubSilence (portSites.getD (n / 4) 0) = (List.range 4).foldl (fun g j => g.silencePort (4 * (n / 4) + j)) g := by
  unfold Pkg.hubSilence
  rw [portSites_findIdx _ (by omega)]
  dsimp only
  rw [if_neg (Bool.eq_false_iff.mp hhole)]
  rfl

theorem linkClear_link_ne (g : Pkg) (n : Nat) {i : Nat} (h : i ≠ n) : (g.linkClear n).link i = g.link i := by
  unfold Pkg.linkClear
  dsimp only
  rw [Pkg.link, Pkg.addSat, Pkg.wr_links, ← Pkg.link, link_onLink_ne _ _ _ h]
  rfl

theorem setState_link (g : Pkg) (n st i : Nat) : (g.wf (rPort n 0) 30 28 st).link i = g.link i := by rw [Pkg.link, Pkg.wf, Pkg.wr_links, Pkg.link]

section
variable (g : Pkg) {n i : Nat} (hn : n < 32) (hi : i < 32)
include hn hi

theorem silencePort_portState : (g.silencePort n).portState i = if i = n ∧ (g.portState i = 2 ∨ g.portState i = 3) then 4 else g.portState i := by
  unfold Pkg.silencePort
  by_cases hst : g.portState n = 2 ∨ g.portState n = 3
  · rw [if_pos hst, Pkg.setState_portState _ _ _ (by decide)]
    by_cases h : i = n
    · subst h
      rw [if_pos rfl, if_pos ⟨rfl, hst⟩]
    · rw [if_neg (rPort_ne _ hi hn h).1, if_neg (fun hc => h hc.1)]
      exact (Pkg.portState_of_regs rfl i).trans (g.linkClear_portState n i)
  · rw [if_neg hst, if_neg]
    rintro ⟨rfl, h⟩
    exact hst h

theorem silencePort_dwn : ((g.silencePort n).link i).dwn = if i = n ∧ (g.portState i = 2 ∨ g.portState i = 3) then 16 else (g.link i).dwn := by
  unfold Pkg.silencePort
  by_cases hst : g.portState n = 2 ∨ g.portState n = 3
  · rw [if_pos hst, setState_link]
    by_cases h : i = n
    · subst h
      rw [if_pos ⟨rfl, hst⟩, link_onLink]
    · rw [if_neg (fun hc => h hc.1), link_onLink_ne _ _ _ h]
      exact congrArg Link.dwn (linkClear_link_ne g n h)
  · rw [if_neg hst, if_neg]
    rintro ⟨rfl, h⟩
    exact hst h
end

/-- A silent hub takes the UP and FENCED ports of the site DOWN (R301). -/
theorem silencePorts_says (g : Pkg) {b : Nat} (hb : b < 8) {i : Nat} (hi : i < 32) : ∀ c, c ≤ 4 →
    let q := (List.range c).foldl (fun g j => g.silencePort (4 * b + j)) g
    q.portState i = (if i / 4 = b ∧ i % 4 < c ∧ (g.portState i = 2 ∨ g.portState i = 3) then 4 else g.portState i) ∧
    (q.link i).dwn = if i / 4 = b ∧ i % 4 < c ∧ (g.portState i = 2 ∨ g.portState i = 3) then 16 else (g.link i).dwn
  | 0, _ => by simp
  | c + 1, hc => by
    obtain ⟨hst, hdwn⟩ := silencePorts_says g hb hi c (by omega)
    intro q
    have hq : q = ((List.range c).foldl (fun g j => g.silencePort (4 * b + j)) g).silencePort (4 * b + c) := by
      simp only [q, List.range_succ, List.foldl_append, List.foldl_cons, List.foldl_nil]
    rw [hq, silencePort_portState _ (by omega) hi, silencePort_dwn _ (by omega) hi, hst, hdwn]
    by_cases hlive : g.portState i = 2 ∨ g.portState i = 3
    · by_cases hsite : i / 4 = b ∧ i % 4 < c
      · have hne : i ≠ 4 * b + c := by omega
        simp [hsite, hlive, hne, Nat.lt_succ_of_lt hsite.2]
      · have hsplit : (i / 4 = b ∧ i % 4 < c + 1) ↔ i = 4 * b + c := by omega
        simp only [← and_assoc, hsite, hlive, hsplit, false_and, and_true, if_false]
    · simp [hlive]

theorem hubSilence_says {n : Nat} (hn : n < 32) {g : Pkg} (hhole : g.hole (portSites.getD (n / 4) 0) = false) :
    let q := g.hubSilence (portSites.getD (n / 4) 0)
    (∀ i, i < 32 → q.portState i = if i / 4 = n / 4 ∧ (g.portState i = 2 ∨ g.portState i = 3) then 4 else g.portState i) ∧
    (g.portState n = 2 ∨ g.portState n = 3 → (q.link n).dwn = 16) := by
  have hsays (i : Nat) (hi : i < 32) := silencePorts_says g (b := n / 4) (by omega) hi 4 le_rfl
  intro q
  rw [show q = _ from hubSilence_eq hn hhole]
  refine ⟨fun i hi => ?_, fun hlive => ?_⟩
  · rw [(hsays i hi).1]
    simp only [show i % 4 < 4 by omega, true_and]
  · rw [(hsays n hn).2, if_pos ⟨rfl, by omega, hlive⟩]

section
variable {s : Pack} {k n j m : Nat}

/-- The audit marker, behind what was sent before it (R320). -/
theorem auditMarker_port (hpeer : ((s.g k).link n).peer = some (j, m)) : s.auditMarker k (.port n) j (.port m) =
    if (s.g k).portState n = 2 ∧ ((s.g j).link m).tot.mark = true ∧ allTaken 65536 ((s.g k).link n).next ((s.g j).link m).retry = true then
      (s.on j (fun h => h.onLink m (fun y => { y with tot := { y.tot with mark := false } }))).on k (fun g =>
        if (g.link n).tot.audit ((s.g j).link m).tot then g else g.mismatch 0x80 g.sealed)
    else s := if_neg (not_not.mpr hpeer)

theorem auditMarker_unplugged (h : ((s.g k).link n).peer ≠ some (j, m)) : s.auditMarker k (.port n) j (.port m) = s := if_pos h

theorem mismatch_port (g : Pkg) (step : Nat) : (g.mismatch 0x80 step).rb (rLedger 0) 31 = true ∧ (g.mismatch 0x80 step).rb (rLedger 0) 7 = true ∧
    (g.mismatch 0x80 step).logSeq = g.logSeq + 1 := by
  have hword : (g.mismatch 0x80 step).rd (rLedger 0) = mk32 ((g.rd (rLedger 0)).toNat ||| (2 ^ 31 + 0x80)) := by
    unfold Pkg.mismatch
    rw [if_neg (by decide)]
    exact (Pkg.logAt_rd _ _ _ _ _ _ _ _ (by decide)).trans (Pkg.wr_rd_self ..)
  have hlt : (g.rd (rLedger 0)).toNat ||| (2 ^ 31 + 0x80) < 2 ^ 32 := Nat.or_lt_two_pow (g.rd (rLedger 0)).isLt (by decide)
  refine ⟨?_, ?_, ?_⟩
  · rw [Pkg.rb, hword, bit_mk32 hlt, Nat.testBit_or, show Nat.testBit (2 ^ 31 + 0x80) 31 = true by decide, Bool.or_true]
  · rw [Pkg.rb, hword, bit_mk32 hlt, Nat.testBit_or, show Nat.testBit (2 ^ 31 + 0x80) 7 = true by decide, Bool.or_true]
  · unfold Pkg.mismatch
    rw [if_neg (by decide)]
    exact Pkg.logAt_logSeq ..
end

end Sys2Proof.Machine
end

section
/-! PROOFS. Pack ports: what a port sends -/

namespace Sys2Proof.Machine

/-! ## What a port sends -/

/-- How many flits of a class stand in a list. -/
def ofClass (fs : List Flit) (c : Nat) : Nat := (fs.filter (fun f => flitCls f == c)).length

theorem ofClass_snoc (fs : List Flit) (f : Flit) (c : Nat) : ofClass (fs ++ [f]) c = ofClass fs c + if flitCls f = c then 1 else 0 := by
  unfold ofClass
  rw [List.filter_append, List.length_append]
  by_cases h : flitCls f = c
  · rw [if_pos h, List.filter_singleton, show (flitCls f == c) = true by simp [h]]
    rfl
  · rw [if_neg h, List.filter_singleton, show (flitCls f == c) = false by simp [h]]
    rfl

/-- Each flit that goes has a credit. -/
theorem takeFlits_within (l : List (Nat × Flit)) (want : Nat → Flit → Bool) (n : Nat) (credits : Map Nat) :
    let fs := (takeFlits l want n (fun before f => decide ((before.filter (fun x => flitCls x == flitCls f)).length < mget 0 credits (flitCls f)))).1
    fs.length ≤ n ∧ ∀ c, ofClass fs c ≤ mget 0 credits c := by
  unfold takeFlits
  refine List.foldlRecOn l _ (motive := fun r : List Flit × List (Nat × Flit) => r.1.length ≤ n ∧ ∀ c, ofClass r.1 c ≤ mget 0 credits c) ⟨Nat.zero_le _, fun c => Nat.zero_le _⟩ ?_
  rintro ⟨fs, rest⟩ ⟨hlen, hcls⟩ p -
  dsimp only at hlen hcls ⊢
  split
  · next h =>
    simp only [Bool.and_eq_true, decide_eq_true_eq] at h
    obtain ⟨⟨hroom, -⟩, hcredit⟩ := h
    refine ⟨by simp; omega, fun c => ?_⟩
    rw [ofClass_snoc]
    split
    · next hc => rw [← hc]; exact hcredit
    · exact hcls c
  · exact ⟨hlen, hcls⟩

/-- The credits that a frame takes. -/
theorem credits_taken (fs : List Flit) (c : Nat) : ∀ credits : Map Nat,
    mget 0 (fs.foldl (fun (q : Map Nat) f => mupd 0 q (flitCls f) (· - 1)) credits) c = mget 0 credits c - ofClass fs c := by
  induction fs with
  | nil => exact fun _ => rfl
  | cons f fs ih =>
    intro credits
    rw [List.foldl_cons, ih]
    unfold mupd ofClass
    by_cases h : flitCls f = c
    · rw [← h, mget_mins_self, List.filter_cons_of_pos (by simp), List.length_cons]
      dsimp only
      omega
    · rw [mget_mins_ne _ _ _ (Ne.symm h), List.filter_cons_of_neg (by simpa using h)]

section
variable {h h2 : Pkg} {m : Nat} {r : SentFrm}

/-- A frame that is sent again is counted (R287). -/
theorem sendData_again {b : Nat} (hback : (h.link m).back = some b) (hfind : (h.link m).retry.find? (fun q => q.n == b) = some r) :
    h.sendData m = (some r, (h.wf (rPort m 0x14) 31 16 (min 65535 (h.rf (rPort m 0x14) 31 16 + 1))).onLink m (fun y =>
      { y with back := if (r.n + 1) % 65536 = y.sn then none else some ((r.n + 1) % 65536) })) := by
  unfold Pkg.sendData
  extract_lets y q
  rw [show y.back.bind _ = some r from by rw [show y.back = some b from hback]; exact hfind]

theorem sendData_full (hback : (h.link m).back = none) (hfull : 512 ≤ (h.link m).retry.length) : h.sendData m = (none, h) := by
  unfold Pkg.sendData
  extract_lets y q
  rw [show y.back = none from hback]
  exact if_pos hfull

/-- The flits that a port may send now, and the package without them. -/
def Pkg.portPick (h : Pkg) (m : Nat) : List Flit × Pkg := h.pick (portSites.getD (m / 4) 0) (.port m) 25 (fun before f =>
  decide ((before.filter (fun x => flitCls x == flitCls f)).length < mget 0 (h.link m).credits (flitCls f)))

/-- The end of a link once a new frame is on its way. -/
def sentNew (fs : List Flit) (y : Link) : Link :=
  { y with retry := y.retry ++ [{ n := y.sn, flits := fs }], sn := (y.sn + 1) % 65536, back := none, tot := y.tot.send (fs.map flitCls),
           credits := fs.foldl (fun (c : Map Nat) f => mupd 0 c (flitCls f) (· - 1)) y.credits }

theorem sendData_new (hback : (h.link m).back.bind (fun b => (h.link m).retry.find? (fun q => q.n == b)) = none) (hs : h.sendData m = (some r, h2)) :
    (h.portPick m).1 ≠ [] ∧ r = { n := (h.link m).sn, flits := (h.portPick m).1 } ∧ h2 = (h.portPick m).2.onLink m (sentNew (h.portPick m).1) := by
  unfold Pkg.sendData at hs
  extract_lets y q at hs
  rw [hback] at hs
  dsimp only at hs
  split at hs
  · cases hs
  · split at hs
    · cases hs
    · next he =>
      obtain ⟨hr, hh⟩ := Prod.mk.inj hs
      exact ⟨fun h0 => he (List.isEmpty_iff.mpr h0), (Option.some.inj hr).symm, hh.symm⟩

theorem portPick_link (h : Pkg) (m n : Nat) : (h.portPick m).2.link n = h.link n := rfl

/-- A new frame takes the next number, and its flits their credits (R287, R288). -/
theorem sendData_says (hback : (h.link m).back = none) (hs : h.sendData m = (some r, h2)) :
    r.n = (h.link m).sn ∧ 0 < r.flits.length ∧ r.flits.length ≤ 25 ∧ (h2.link m).retry = (h.link m).retry ++ [r] ∧
    (h2.link m).sn = ((h.link m).sn + 1) % 65536 ∧
    ∀ c, ofClass r.flits c ≤ mget 0 (h.link m).credits c ∧ mget 0 (h2.link m).credits c = mget 0 (h.link m).credits c - ofClass r.flits c := by
  obtain ⟨hne, hr, hh⟩ := sendData_new (by rw [hback]; rfl) hs
  obtain ⟨hlen, hcls⟩ := takeFlits_within h.net.hold (fun x f => x == portSites.getD (m / 4) 0 && decide (h.way (portSites.getD (m / 4) 0) f = .port m)) 25
    (h.link m).credits
  have hlink : h2.link m = sentNew (h.portPick m).1 (h.link m) := by rw [hh, link_onLink, portPick_link]
  rw [hlink, hr]
  exact ⟨rfl, List.length_pos_iff.mpr hne, hlen, rfl, rfl, fun c => ⟨hcls c, credits_taken ..⟩⟩

/-- A frame that is sent changes no register of its hub. -/
theorem sendData_hub (hs : h.sendData m = (some r, h2)) (o : Nat) : h2.rd (hubR o) = h.rd (hubR o) := by
  cases hb : (h.link m).back.bind (fun b => (h.link m).retry.find? (fun q => q.n == b)) with
  | none =>
    obtain ⟨-, -, hh⟩ := sendData_new hb hs
    rw [hh]
    rfl
  | some q =>
    obtain ⟨b, hback, hfind⟩ := Option.bind_eq_some_iff.mp hb
    rw [sendData_again hback hfind] at hs
    obtain ⟨-, rfl⟩ := Prod.mk.inj hs
    rw [onLink_rd, Pkg.rd_wf, if_neg (rPort_ne_hubR m (by decide) o).symm]
end

end Sys2Proof.Machine
end

section
/-! PROOFS. Pack ports: the ways of flits -/

namespace Sys2Proof.Machine

/-! ## The ways of flits -/

theorem rPort_apart (n m : Nat) {a b : Nat} (h : a % 0x40 ≠ b % 0x40) : rPort n a ≠ rPort m b := by
  unfold rPort rk
  omega

/-- Two packages whose flits go the same ways: the same network, sites, hub registers and port states. -/
structure Pkg.SameWays (g h : Pkg) : Prop where
  net : h.net = g.net
  sites : h.sites = g.sites
  hub : ∀ o, h.rd (hubR o) = g.rd (hubR o)
  state : ∀ n, h.portState n = g.portState n

section
variable {g h : Pkg} (hs : g.SameWays h)
include hs

theorem Pkg.SameWays.onNet (f : Net → Net) : ({ g with net := f g.net } : Pkg).SameWays { h with net := f h.net } :=
  ⟨congrArg f hs.net, hs.sites, hs.hub, hs.state⟩

theorem Pkg.SameWays.way (site : Nat) (f : Flit) : h.way site f = g.way site f := by
  obtain ⟨hnet, hsites, hhub, hstate⟩ := hs
  have hpos : h.pos = g.pos := congrArg (fld · 5 0) (hhub 0x7000)
  have hports : h.upPorts = g.upPorts := by
    unfold Pkg.upPorts
    simp only [hstate]
  have hto (d : Nat) : h.wayTo site d = g.wayTo site d := by
    have hway : h.hubWay d = g.hubWay d := by
      unfold Pkg.hubWay Pkg.hole Pkg.siteSt
      rw [hnet, hsites]
    unfold Pkg.wayTo
    rw [hway, hnet]
  have hmask (p : Nat) : h.effMask p = g.effMask p := by
    unfold Pkg.effMask Pkg.rf Pkg.rb
    rw [hports, hhub, hhub]
  unfold Pkg.way Pkg.routePort
  rw [hpos, hmask]
  simp only [hto]

theorem Pkg.SameWays.flitsIn (site : Nat) (fs : List Flit) : (h.flitsIn site fs).net = (g.flitsIn site fs).net := by
  have hstep : ∀ (l : List Flit) (g h : Pkg), g.SameWays h →
      (l.foldl (fun g f => if g.way site f = .here then { g with net := g.net.arrive f } else g.inject site [f]) h).net =
      (l.foldl (fun g f => if g.way site f = .here then { g with net := g.net.arrive f } else g.inject site [f]) g).net := by
    intro l
    induction l with
    | nil => exact fun g h hs => hs.net
    | cons f l ih =>
      intro g h hs
      rw [List.foldl_cons, List.foldl_cons, hs.way]
      refine ih _ _ ?_
      split
      · exact hs.onNet (fun x => x.arrive f)
      · exact hs.onNet (fun x => { x with hold := x.hold ++ [f].map (fun f => (site, f)) })
  exact hstep fs _ _ (hs.onNet (fun x => { x with got := [] }))
end

/-- What the network leaves of a package. -/
theorem flitsIn_keeps (g : Pkg) (site : Nat) (fs : List Flit) : (g.flitsIn site fs).regs = g.regs ∧ (g.flitsIn site fs).links = g.links := by
  unfold Pkg.flitsIn
  refine List.foldlRecOn fs _ (motive := fun h : Pkg => h.regs = g.regs ∧ h.links = g.links) ⟨rfl, rfl⟩ fun h ⟨hr, hl⟩ f _ => ?_
  split
  · exact ⟨hr, hl⟩
  · exact ⟨hr, hl⟩

/-- Two packs whose ports stand alike. -/
def Pack.SamePorts (s p : Pack) : Prop := (∀ j, (p.g j).links = (s.g j).links ∧ ∀ n, (p.g j).portState n = (s.g j).portState n) ∧ p.mem = s.mem

section
variable {s p q : Pack}

theorem Pack.SamePorts.refl (s : Pack) : s.SamePorts s := ⟨fun _ => ⟨rfl, fun _ => rfl⟩, rfl⟩

theorem Pack.SamePorts.trans (h1 : s.SamePorts p) (h2 : p.SamePorts q) : s.SamePorts q :=
  ⟨fun j => ⟨(h2.1 j).1.trans (h1.1 j).1, fun n => ((h2.1 j).2 n).trans ((h1.1 j).2 n)⟩, h2.2.trans h1.2⟩

theorem Pack.SamePorts.on (s : Pack) (k : Nat) {f : Pkg → Pkg} (h : (f (s.g k)).links = (s.g k).links ∧ ∀ n, (f (s.g k)).portState n = (s.g k).portState n) :
    s.SamePorts (s.on k f) := by
  refine ⟨fun j => ?_, rfl⟩
  by_cases hj : j = k
  · subst hj
    rw [Pack.on_g_self]
    exact h
  · rw [Pack.on_g_ne _ _ hj]
    exact ⟨rfl, fun _ => rfl⟩

theorem skipFlit_ports (s : Pack) (f : Flit) : s.SamePorts (s.skipFlit f) := by
  unfold Pack.skipFlit
  split
  · exact .on s _ ⟨rfl, fun _ => rfl⟩
  · exact .refl s

/-- Flits that a port has brought leave every port as it stands. -/
theorem flitsPort_ports (s : Pack) (k n : Nat) (fs : List Flit) : s.SamePorts (s.flitsPort k n fs) := by
  unfold Pack.flitsPort
  extract_lets d far t
  have hin : s.SamePorts t := .on s k ⟨(flitsIn_keeps ..).2, fun m => Pkg.portState_of_regs (flitsIn_keeps ..).1 m⟩
  refine List.foldlRecOn far _ hin fun p hp f _ => hp.trans ((Pack.SamePorts.on p k ?_).trans (skipFlit_ports _ f))
  exact ⟨Pkg.logAt_links .., fun m => Pkg.logAt_portState ..⟩

/-- Flits none of which would need a ninth class all go on (R294, R295). -/
theorem flitsPort_near {k n : Nat} {fs : List Flit} (h : ∀ f ∈ fs, f.dp = (s.g k).pos ∨ f.hop < 7) :
    (s.flitsPort k n fs).g k = (s.g k).flitsIn (portSites.getD (n / 4) 0) (fs.map (fun f => { f with hop := f.hop + 1 })) := by
  have hnear : ∀ f ∈ fs, (f.dp != (s.g k).pos && decide (7 ≤ f.hop)) = false := fun f hf => by
    rcases h f hf with hd | hh
    · simp [hd]
    · simp [hh]
  have hfar : fs.filter (fun f => f.dp != (s.g k).pos && decide (7 ≤ f.hop)) = [] := List.filter_eq_nil_iff.mpr fun f hf => by rw [hnear f hf]; decide
  have hall : fs.filter (fun f => !(f.dp != (s.g k).pos && decide (7 ≤ f.hop))) = fs := List.filter_eq_self.mpr fun f hf => by rw [hnear f hf]; rfl
  unfold Pack.flitsPort
  extract_lets d far t
  rw [show far = [] from hfar, List.foldl_nil, show t = _ from rfl, Pack.on_g_self, hall]
end

end Sys2Proof.Machine
end

section
/-! PROOFS. Pack ports: a data frame at its port -/

namespace Sys2Proof.Machine

/-! ## A data frame at its port -/

/-- A receiver that has taken a data frame. -/
def takenFrame (r : SentFrm) (x : Link) : Link :=
  { x with next := (x.next + 1) % 65536, seen := true, nak := false, tot := x.tot.take (r.flits.map flitCls) }

/-- A frame of another epoch is counted, and fences an UP port (R299). -/
theorem stale_fences (g : Pkg) {n : Nat} (h : g.portState n = 2) :
    (g.stale.fencePort n).portState n = 3 ∧ (g.stale.fencePort n).rf rPackStat 31 16 = min 65535 (g.rf rPackStat 31 16 + 1) := by
  have hst : g.stale.portState n = 2 := (Pkg.wr_hubR_portState ..).trans h
  refine ⟨?_, ?_⟩
  · rw [Pkg.fencePort, if_pos hst, Pkg.setState_portState _ _ _ (by decide), if_pos rfl]
  · rw [Pkg.rf, show (g.stale.fencePort n).rd rPackStat = _ from fencePort_hub g.stale n (by decide), Pkg.stale]
    exact (Pkg.rf_wf_same _ _ (by decide) (by decide)).trans (Nat.mod_eq_of_lt (by omega))

/-- A slot that cannot be read is counted (R284). -/
theorem slot_lost (g : Pkg) (n : Nat) {sent : List Byte} {errs : List (Nat × Nat)} (h : slotRead sent errs = none) :
    g.slot n sent errs = (none, g.wf (rPort n 0x10) 31 16 (min 65535 (g.rf (rPort n 0x10) 31 16 + 1))) := by
  unfold Pkg.slot
  rw [h]

section
variable {s : Pack} {k n j m slot : Nat} {r : SentFrm} {h2 : Pkg} {errs : List (Nat × Nat × Nat)}

/-- The pack once the sender has sent. -/
def Pack.sentBy (s : Pack) (j m : Nat) (h2 : Pkg) : Pack := (s.on j (fun h => h.offer (portSites.getD (m / 4) 0) [])).put j h2

theorem sentBy_far (s : Pack) (j m : Nat) (h2 : Pkg) : (s.sentBy j m h2).g j = h2 := put_g_self ..

theorem sentBy_near (hj : j ≠ k) : (s.sentBy j m h2).g k = s.g k := by rw [Pack.sentBy, put_g_ne _ _ (Ne.symm hj), Pack.on_g_ne _ _ (Ne.symm hj)]

variable (hj : j ≠ k) (hpeer : ((s.g k).link n).peer = some (j, m)) (hlive : (s.g k).portLive n = true) (hup : (s.g k).portState n = 2)
  (hup' : (s.g j).portState m = 2) (hlive' : (s.g j).portLive m = true) (hrun : (s.g j).hk.failed = false)
  (hslot : slot ≠ 0 ∧ slot ≠ 1 ∧ slot ≠ 65 ∧ slot < 128) (hsend : (s.g j).sendData m = (some r, h2))
include hj hpeer hlive hup hup' hlive' hrun hslot hsend

theorem dataFrame_eq : s.dataFrame k n slot [] errs .ok .ok =
    let c := (s.g k).slot n (dataSlot r (s.g j).epoch) (symErrs ((s.g k).link n).rev errs)
    match c.1 with
    | none => ((s.sentBy j m h2).put k c.2).on k (fun g => g.frameBad n)
    | some bs => ((s.sentBy j m h2).put k c.2).dataTaken k n r bs .ok := by
  have hepoch : h2.epoch = (s.g j).epoch := congrArg (fld · 15 0) (sendData_hub hsend 0x7004)
  have hoff : (s.on j (fun h => h.offer (portSites.getD (m / 4) 0) [])).g j = s.g j := Pack.on_g_self ..
  unfold Pack.dataFrame
  extract_lets g c
  rw [show (g.link n).peer = some (j, m) from hpeer]
  show (if _ then s else _) = _
  rw [if_neg (by simp only [show g = s.g k from rfl, hup, hlive, hlive', hrun, hup']; simp; omega)]
  extract_lets d t p t1 r1 t2 sent c1 t3
  have hp : p = (some r, h2) := by rw [show p = (t.g j).sendData m from rfl, show t.g j = s.g j from hoff, hsend]
  have hr1 : r1 = r := by
    simp only [r1, hp]
    rfl
  have ht1 : t1 = s.sentBy j m h2 := by
    simp only [t1, hp]
    rfl
  have ht2 : t2 = s.sentBy j m h2 := by
    rw [← ht1]
    rfl
  have hsent : sent = dataSlot r (s.g j).epoch := by
    simp only [sent, hp, hr1, ht2, sentBy_far, hepoch]
    rfl
  have hc1 : c1 = (s.g k).slot n (dataSlot r (s.g j).epoch) (symErrs ((s.g k).link n).rev errs) := by
    simp only [c1, hsent, ht2, sentBy_near hj, g]
  have ht3 : t3 = (s.sentBy j m h2).put k c1.2 := by rw [← ht2]
  rw [ht3, hr1, hc1] <;> rfl

/-- A data frame that cannot be read is asked for again (R287). -/
theorem dataFrame_lost (hread : slotRead (dataSlot r (s.g j).epoch) (symErrs ((s.g k).link n).rev errs) = none) :
    let p := s.dataFrame k n slot [] errs .ok .ok
    ((p.g k).link n).nak = true ∧ ((p.g k).link n).next = ((s.g k).link n).next ∧
    (p.g k).rf (rPort n 0x10) 31 16 = min 65535 ((s.g k).rf (rPort n 0x10) 31 16 + 1) ∧ p.mem = s.mem := by
  intro p
  have hp : p = _ := dataFrame_eq (errs := errs) hj hpeer hlive hup hup' hlive' hrun hslot hsend
  rw [slot_lost _ _ hread] at hp
  dsimp only at hp
  rw [hp, Pack.on_g_self, put_g_self, Pkg.frameBad, link_onLink]
  refine ⟨rfl, rfl, ?_, rfl⟩
  rw [Pkg.rf, onLink_rd]
  exact (Pkg.rf_wf_same _ _ (by decide) (by decide)).trans (Nat.mod_eq_of_lt (by omega))

variable (hlen : r.flits.length ≤ 25)
include hlen

/-- A data frame of another epoch (R299). -/
theorem dataFrame_stale (hepoch : (s.g j).epoch ≠ (s.g k).epoch) : s.dataFrame k n slot [] [] .ok .ok =
    ((s.sentBy j m h2).put k ((s.g k).heard n)).on k (fun g => g.stale.fencePort n) := by
  obtain ⟨hok, -, hty, hsep, hzero, -⟩ := data_fields (s.g j).epoch hlen
  have h16 : (s.g j).epoch < 65536 := fld_lt ..
  have hmine : ((s.g k).heard n).epoch = (s.g k).epoch := congrArg (fld · 15 0) (heard_hub _ _ 0x7004)
  rw [dataFrame_eq hj hpeer hlive hup hup' hlive' hrun hslot hsend, symErrs_nil, slot_clean _ _ hok]
  dsimp only
  unfold Pack.dataTaken
  extract_lets ty
  rw [if_neg (by rw [hzero, show ty = 1 from hty]; simp), if_pos (by rw [hsep, put_g_self, hmine, Nat.mod_eq_of_lt h16]; exact hepoch)]

/-- A data frame that is next in turn is taken (R287). -/
theorem dataFrame_taken (hbad : r.bad = false) (hepoch : (s.g j).epoch = (s.g k).epoch) (hnext : r.n % 65536 = ((s.g k).link n).next) :
    s.dataFrame k n slot [] [] .ok .ok =
    (((s.sentBy j m h2).put k ((s.g k).heard n)).on k (fun g => g.onLink n (takenFrame r))).flitsPort k n (cutFlits r.flits) := by
  obtain ⟨hok, hseq, hty, hsep, hzero, hbody⟩ := data_fields (s.g j).epoch hlen
  have h16 : (s.g j).epoch < 65536 := fld_lt ..
  have hmine : ((s.g k).heard n).epoch = (s.g k).epoch := congrArg (fld · 15 0) (heard_hub _ _ 0x7004)
  have hbodies := bodies_eq (fs := r.flits) (b := fun i => slotF (dataSlot r (s.g j).epoch) (32 * i) 32) hbody
  rw [dataFrame_eq hj hpeer hlive hup hup' hlive' hrun hslot hsend, symErrs_nil, slot_clean _ _ hok]
  dsimp only
  unfold Pack.dataTaken
  extract_lets ty t1 t2 fs
  rw [if_neg (by rw [hzero, show ty = 1 from hty]; simp), if_neg (by rw [hsep, put_g_self, hmine, Nat.mod_eq_of_lt h16]; exact not_not.mpr hepoch),
    if_neg (by rw [show ty = 1 from hty, hseq, put_g_self, heard_link]; exact fun h => h.elim (by decide) (fun h => h hnext)),
    if_neg (by rw [hbad]; decide), show fs = cutFlits r.flits from hbodies]
  rfl

theorem dataFrame_stale_says (hepoch : (s.g j).epoch ≠ (s.g k).epoch) :
    let p := s.dataFrame k n slot [] [] .ok .ok
    (p.g k).portState n = 3 ∧ (p.g k).rf rPackStat 31 16 = min 65535 ((s.g k).rf rPackStat 31 16 + 1) ∧ p.mem = s.mem := by
  obtain ⟨hst, hcount⟩ := stale_fences ((s.g k).heard n) ((heard_portState ..).trans hup)
  intro p
  rw [show p = _ from dataFrame_stale hj hpeer hlive hup hup' hlive' hrun hslot hsend hlen hepoch, Pack.on_g_self, put_g_self]
  refine ⟨hst, ?_, rfl⟩
  rw [hcount]
  exact congrArg (fun w => min 65535 (fld w 31 16 + 1)) (heard_hub (s.g k) n 0x7018)

/-- What a data frame that is taken leaves of its port, of the sender's end, and of the network (R287, R294). -/
theorem dataFrame_taken_says (hbad : r.bad = false) (hepoch : (s.g j).epoch = (s.g k).epoch) (hnext : r.n % 65536 = ((s.g k).link n).next) :
    let p := s.dataFrame k n slot [] [] .ok .ok
    ((p.g k).link n).next = (((s.g k).link n).next + 1) % 65536 ∧ ((p.g k).link n).seen = true ∧ ((p.g k).link n).nak = false ∧ (p.g k).portState n = 2 ∧
    ((p.g j).link m).retry = (h2.link m).retry ∧ ((p.g j).link m).sn = (h2.link m).sn ∧
    ((∀ f ∈ r.flits, f.dp = (s.g k).pos ∨ f.hop < 7) →
      let fs := r.flits.map (fun f => { f with body := f.body % 2 ^ 256, hop := f.hop + 1 })
      (p.g k).net.got = ((s.g k).flitsIn (portSites.getD (n / 4) 0) fs).net.got ∧ (p.g k).net.hold = ((s.g k).flitsIn (portSites.getD (n / 4) 0) fs).net.hold) ∧
    p.mem = s.mem := by
  intro p
  have hp : p = _ := dataFrame_taken hj hpeer hlive hup hup' hlive' hrun hslot hsend hlen hbad hepoch hnext
  have hnear : (((s.sentBy j m h2).put k ((s.g k).heard n)).on k (fun g => g.onLink n (takenFrame r))).g k = ((s.g k).heard n).onLink n (takenFrame r) := by
    rw [Pack.on_g_self, put_g_self]
  have hfar : (((s.sentBy j m h2).put k ((s.g k).heard n)).on k (fun g => g.onLink n (takenFrame r))).g j = h2 := by
    rw [Pack.on_g_ne _ _ hj, put_g_ne _ _ hj, sentBy_far]
  have hmem : (((s.sentBy j m h2).put k ((s.g k).heard n)).on k (fun g => g.onLink n (takenFrame r))).mem = s.mem := rfl
  generalize ((s.sentBy j m h2).put k ((s.g k).heard n)).on k (fun g => g.onLink n (takenFrame r)) = t at hp hnear hfar hmem
  obtain ⟨hports, hmemp⟩ := flitsPort_ports t k n (cutFlits r.flits)
  have hlink : (p.g k).link n = takenFrame r ((s.g k).link n).heard := by
    rw [Pkg.link, hp, (hports k).1, hnear, ← Pkg.link, link_onLink, heard_link]
  have hlink' : (p.g j).link m = h2.link m := by rw [Pkg.link, hp, (hports j).1, hfar, ← Pkg.link]
  rw [hlink, hlink']
  refine ⟨rfl, rfl, rfl, ?_, rfl, rfl, fun hhops => ?_, by rw [hp, hmemp, hmem]⟩
  · rw [hp, (hports k).2, hnear]
    exact (heard_portState ..).trans hup
  · have hsame : (s.g k).SameWays (t.g k) := by
      rw [hnear]
      refine ⟨rfl, rfl, fun o => heard_hub _ n o, fun i => ?_⟩
      rw [Pkg.portState, Pkg.rf, onLink_rd, heard_rd _ _ (rPort_apart i n (by decide)), Pkg.portState, Pkg.rf]
    have hpos : (t.g k).pos = (s.g k).pos := congrArg (fld · 5 0) (hsame.hub 0x7000)
    intro fs
    have hcut : ∀ f ∈ cutFlits r.flits, f.dp = (t.g k).pos ∨ f.hop < 7 := by
      rw [hpos]
      intro f hf
      obtain ⟨q, hq, rfl⟩ := List.mem_map.mp hf
      exact hhops q hq
    have hmap : (cutFlits r.flits).map (fun f => { f with hop := f.hop + 1 }) = fs := List.map_map ..
    rw [hp, flitsPort_near hcut, hsame.flitsIn, hmap]
    exact ⟨rfl, rfl⟩
end

end Sys2Proof.Machine
end

section
/-! PROOFS. Pack ports: a control word at its port -/

namespace Sys2Proof.Machine

/-! ## A control word at its port -/

/-- Credits that come back, at most 2,048 of a class (R288). -/
def creditBack (q : Map Nat) (p : Nat × Nat) : Map Nat := mins q p.1 (min 2048 (mget 0 q p.1 + p.2))

theorem credits_back (v : Nat → Nat) (c : Nat) (q : Map Nat) : ∀ N, mget 0 (((((List.range N).map (fun c => (c, v c))).filter (fun p => decide (0 < p.2)))).foldl creditBack q) c =
    if c < N ∧ 0 < v c then min 2048 (mget 0 q c + v c) else mget 0 q c
  | 0 => by simp
  | N + 1 => by
    have ih := credits_back v c q N
    rw [List.range_succ, List.map_append, List.filter_append, List.foldl_append]
    generalize ((((List.range N).map (fun c => (c, v c))).filter (fun p => decide (0 < p.2)))).foldl creditBack q = q1 at ih ⊢
    by_cases hv : 0 < v N
    · rw [List.map_singleton, List.filter_singleton, show decide (0 < (N, v N).2) = true by simpa using hv]
      show mget 0 (creditBack q1 (N, v N)) c = _
      unfold creditBack
      by_cases hc : c = N
      · subst hc
        rw [mget_mins_self, ih, if_neg (by omega), if_pos ⟨by omega, hv⟩]
      · rw [mget_mins_ne _ _ _ hc, ih]
        simp only [show c < N + 1 ↔ c < N by omega]
    · rw [List.map_singleton, List.filter_singleton, show decide (0 < (N, v N).2) = false by simpa using hv]
      show mget 0 q1 c = _
      rw [ih]
      by_cases hc : c = N
      · subst hc
        simp [hv]
      · simp only [show c < N + 1 ↔ c < N by omega]

theorem mget_le {l : Map Nat} {b : Nat} (h : ∀ p ∈ l, p.2 ≤ b) (i : Nat) : mget 0 l i ≤ b := by
  induction l with
  | nil => exact Nat.zero_le _
  | cons p l ih =>
    unfold mget
    split
    · exact h p List.mem_cons_self
    · exact ih fun q hq => h q (List.mem_cons_of_mem _ hq)

theorem due_le (t : Tot) (c : Nat) : mget 0 (t.due 65535) c ≤ 65535 := by
  have hall : ∀ p ∈ t.due 65535, p.2 ≤ 65535 := fun p hp => by
    obtain ⟨q, -, rfl⟩ := List.mem_map.mp hp
    exact Nat.min_le_left ..
  exact mget_le hall c

/-- An end that the other has acknowledged, asked to send again, and returned credits to. -/
def ctlHeard (ack : Nat) (nak ackv : Bool) (got : List (Nat × Nat)) (x : Link) : Link :=
  let left := if ackv then x.retry.filter (fun r => !seqLe 65536 r.n ack) else x.retry
  { x with retry := left, tot := x.tot.credit got,
           back := if nak then (left.head?).map (·.n) else x.back.bind (fun b => if left.any (fun r => r.n == b) then some b else none),
           credits := got.foldl creditBack x.credits }

theorem twoFlags : ∀ a b : Bool, (b2n a + 2 * b2n b).testBit 0 = a ∧ (b2n a + 2 * b2n b).testBit 1 = b := by decide

/-- The last frame that an end has taken in turn. -/
def Link.lastTaken (y : Link) : Nat := (y.next + 65535) % 65536

/-- The credits that a control word returns. -/
def Link.returns (y : Link) : List (Nat × Nat) := ((List.range 32).map (fun c => (c, mget 0 (y.tot.due 65535) c))).filter (fun p => decide (0 < p.2))

section
variable {s : Pack} {k n j m slot : Nat}

/-- A port whose cable leads nowhere receives no control word. -/
theorem controlWord_unplugged (errs : List (Nat × Nat × Nat)) (h : ((s.g k).link n).peer = none) : s.controlWord k n slot errs = s := by
  unfold Pack.controlWord
  extract_lets g
  rw [show (g.link n).peer = none from h]

/-- The pack in which the sender has counted a NAK that it sends. -/
def Pack.nakCounted (s : Pack) (j m : Nat) : Pack :=
  if ((s.g j).link m).nak then s.on j (fun h => h.wf (rPort m 0x14) 15 0 (min 65535 (h.rf (rPort m 0x14) 15 0 + 1))) else s

theorem nakCounted_ne (s : Pack) (m : Nat) {i : Nat} (h : i ≠ j) : (s.nakCounted j m).g i = s.g i := by
  unfold Pack.nakCounted
  split
  · exact Pack.on_g_ne _ _ h
  · rfl

theorem nakCounted_mem (s : Pack) (j m : Nat) : (s.nakCounted j m).mem = s.mem := by
  unfold Pack.nakCounted
  split <;> rfl

variable (hj : j ≠ k) (hpeer : ((s.g k).link n).peer = some (j, m)) (hlive : (s.g k).portLive n = true) (hup : (s.g k).portState n = 2)
  (hup' : (s.g j).portState m = 2) (hlive' : (s.g j).portLive m = true) (hrun : (s.g j).hk.failed = false) (hslot : slot = 1 ∨ slot = 65)
include hj hpeer hlive hup hup' hlive' hrun hslot

/-- A control word that the lanes leave alone (R286 to R288). -/
theorem controlWord_eq :
    s.controlWord k n slot [] =
    if (s.g j).epoch ≠ (s.g k).epoch then ((s.nakCounted j m).put k ((s.g k).heard n)).on k (fun g => g.stale.fencePort n)
    else (((s.nakCounted j m).put k ((s.g k).heard n)).on j (fun h => h.onLink m (fun y => { y with tot := y.tot.give (((s.g j).link m).tot.due 65535) }))).on k
      (fun g => g.onLink n (ctlHeard ((s.g j).link m).lastTaken ((s.g j).link m).nak ((s.g j).link m).seen ((s.g j).link m).returns)) := by
  have h16 : (s.g j).epoch < 65536 := fld_lt ..
  have hmine : ((s.g k).heard n).epoch = (s.g k).epoch := congrArg (fld · 15 0) (heard_hub _ _ 0x7004)
  unfold Pack.controlWord
  extract_lets g
  rw [show (g.link n).peer = some (j, m) from hpeer]
  show (if _ then s else _) = _
  rw [if_neg (by simp only [show g = s.g k from rfl, hup, hlive, hlive', hrun, hup']; simp; omega)]
  extract_lets +onlyGivenNames y cr sent s1 c t
  obtain ⟨hok, hack, hfl, hsep, hcr⟩ : _ ∧ _ ∧ _ ∧ _ ∧ _ := ctl_fields (ack := (y.next + 65535) % 65536) (nak := y.nak) (ackv := y.seen) (epoch := (s.g j).epoch) (cr := cr)
  have hs1 : s1 = s.nakCounted j m := rfl
  have hc : c = (some sent, (s.g k).heard n) := by
    rw [show c = (s1.g k).slot n sent (symErrs (g.link n).rev []) from rfl, hs1, nakCounted_ne _ _ (Ne.symm hj), symErrs_nil, slot_clean _ _ hok]
  have ht : t = (s.nakCounted j m).put k ((s.g k).heard n) := by
    rw [show t = s1.put k c.2 from rfl, hc, hs1]
  rw [hc, ht]
  show (if slotF sent 4 2 ≠ _ then _ else _) = _
  rw [show slotF sent 4 2 = _ from hsep, Nat.mod_eq_of_lt h16, put_g_self, hmine]
  refine if_congr Iff.rfl rfl ?_
  have hgot : ((List.range 32).map (fun c => (c, slotF sent (6 + 2 * c) 2))).filter (fun p => decide (0 < p.2)) = y.returns := by
    refine congrArg (List.filter _) (List.map_congr_left fun c hc => ?_)
    rw [hcr c (List.mem_range.mp hc), Nat.mod_eq_of_lt (Nat.lt_succ_of_le (due_le ..))]
  extract_lets +onlyGivenNames ack fl got
  have hack' : ack = y.lastTaken := hack.trans (Nat.mod_mod ..)
  have hfl' : fl.testBit 0 = y.nak ∧ fl.testBit 1 = y.seen := by
    rw [show fl = _ from hfl]
    exact twoFlags ..
  rw [show got = _ from hgot, hack', hfl'.1, hfl'.2]
  rfl

/-- A control word of another epoch (R299). -/
theorem controlWord_stale (hepoch : (s.g j).epoch ≠ (s.g k).epoch) :
    let p := s.controlWord k n slot []
    (p.g k).portState n = 3 ∧ (p.g k).rf rPackStat 31 16 = min 65535 ((s.g k).rf rPackStat 31 16 + 1) ∧ p.mem = s.mem := by
  obtain ⟨hst, hcount⟩ := stale_fences ((s.g k).heard n) ((heard_portState ..).trans hup)
  intro p
  rw [show p = _ from (controlWord_eq hj hpeer hlive hup hup' hlive' hrun hslot).trans (if_pos hepoch), Pack.on_g_self, put_g_self]
  refine ⟨hst, ?_, nakCounted_mem s j m⟩
  rw [hcount]
  exact congrArg (fun w => min 65535 (fld w 31 16 + 1)) (heard_hub (s.g k) n 0x7018)

/-- What is acknowledged leaves the retry buffer, a NAK goes back to its head, and the credits return (R287, R288). -/
theorem controlWord_says (hepoch : (s.g j).epoch = (s.g k).epoch) :
    let x := (s.g k).link n
    let y := (s.g j).link m
    let p := s.controlWord k n slot []
    let left := if y.seen then x.retry.filter (fun q => !seqLe 65536 q.n ((y.next + 65535) % 65536)) else x.retry
    let due (c : Nat) := mget 0 (y.tot.due 65535) c
    ((p.g k).link n).retry = left ∧ (y.nak = true → ((p.g k).link n).back = (left.head?).map (·.n)) ∧
    (∀ c, c < 32 → mget 0 ((p.g k).link n).credits c = if 0 < due c then min 2048 (mget 0 x.credits c + due c) else mget 0 x.credits c) ∧
    (p.g k).portState n = 2 ∧ p.mem = s.mem := by
  intro x y p left due
  have hp : p = _ := (controlWord_eq hj hpeer hlive hup hup' hlive' hrun hslot).trans (if_neg (not_not.mpr hepoch))
  have hnear : p.g k = ((s.g k).heard n).onLink n (ctlHeard y.lastTaken y.nak y.seen y.returns) := by
    rw [hp, Pack.on_g_self, Pack.on_g_ne _ _ (Ne.symm hj), put_g_self]
  rw [hnear, link_onLink, heard_link]
  refine ⟨rfl, fun hnak => if_pos hnak, fun c hc => ?_, (heard_portState ..).trans hup, ?_⟩
  · refine (credits_back due c x.credits 32).trans ?_
    simp only [hc, true_and]
  · rw [hp]
    exact nakCounted_mem s j m
end

end Sys2Proof.Machine
end

section
/-! PROOFS. Pack ports: the obligation -/

namespace Sys2Proof.Machine

/-! ## Settling the obligation -/

/-- The posted write of ISOLATE (R292). -/
def isolation (n : Nat) (v : W32) : Post :=
  let site := portSites.getD (n / 4) 0
  { key := rk site (0x3000 + 0x40 * (n % 4)), site := site, off := 0x3000 + 0x40 * (n % 4), v := setB v 27 true, x := {} }

section
variable {s : State} {k n : Nat} {m : Master} {v : W32} (hn : n < 32)
include hn

theorem port_busyKey : busyKey (portSites.getD (n / 4) 0) .port (0x40 * (n % 4)) = some (rk (portSites.getD (n / 4) 0) (0x3000 + 0x40 * (n % 4))) := by
  unfold busyKey
  dsimp only
  rw [if_pos (by omega)]
  congr 2
  omega

theorem port_pvMask : pvMask .port (0x40 * (n % 4)) = 2 ^ 27 := if_pos (by omega)

theorem gives_portIsolate (hw : Writable s.pack k m (portSites.getD (n / 4) 0) (0x3000 + 0x40 * (n % 4)) .port (0x40 * (n % 4))) :
    Gives (.portIsolate k m n v) s (s.pack.posted k (isolation n v)) :=
  gives_of_onPack rfl ((busWrite_served hw).trans (regWrite_posts_priv (hw.priv.resolve_right (by rw [port_pvMask hn]; decide)) rfl (port_busyKey hn)
    (hw.idle _ (port_busyKey hn)) (by decide)))

theorem port_site_le : portSites.getD (n / 4) 0 ≤ 47 := (by decide : ∀ n, n < 32 → portSites.getD (n / 4) 0 ≤ 47) n hn

theorem lands_portIsolate :
    Lands s k (isolation n v) (fun p => (p.g k).rb (rPort n 0) 27 = true ∧
      (p.g k).portState n = (if 1 ≤ (s.pack.g k).portState n ∧ (s.pack.g k).portState n ≤ 3 then 4 else (s.pack.g k).portState n)) := by
  intro site off hkey hdue
  refine ⟨s.pack.postedDone k site off, rfl, ?_⟩
  have hsite := port_site_le hn
  have hkeylt : (isolation n v).key < hubR 0x30000 := by
    show rk (portSites.getD (n / 4) 0) (0x3000 + 0x40 * (n % 4)) < hubR 0x30000
    unfold hubR rk
    omega
  rw [postedDone_due hkey hdue (port_block n hn) hkeylt, show (isolation n v).site = portSites.getD (n / 4) 0 from rfl, blkWrite_port hn]
  have hstate : ((s.pack.on k (fun g => g.arrived (isolation n v).key)).g k).portState n = (s.pack.g k).portState n := by
    rw [Pack.on_g_self]
    rfl
  obtain ⟨hbit, hst⟩ := portWrite_isolates (s := s.pack.on k (fun g => g.arrived (isolation n v).key)) (k := k) (n := n)
    (v := (isolation n v).v) (bit_setB_same _ _ (by decide))
  exact ⟨hbit, by rw [hst, hstate]⟩
end

/-- Settles O52. -/
theorem packPorts : Obligations.PackPorts := by
  unfold Obligations.PackPorts
  refine ⟨?_, ?_⟩
  · intro s k n j m slot pol mst v rev errs g h x y site miss twin meets both data stale hup hn
    refine ⟨fun hpeer => ⟨gives_of_atPort hup rfl (beat_unplugged _ _ _ _ _ _ hpeer), gives_of_atHub rfl hup (auditMarker_unplugged hpeer)⟩,
      fun hpeer => gives_of_atHub rfl hup (controlWord_unplugged _ hpeer), fun _ hsilent => gives_of_atPort hup rfl (beat_silent _ _ _ _ _ _ hsilent), ?_, ?_, ?_, ?_, ?_, ?_, ?_, ?_, ?_⟩
    · rintro ⟨hpeer, hj, hm, hlive⟩ hbeats hdown hst htwin hlead
      exact ⟨fun hepoch hfence => leaves_atPort hup rfl (beat_renews hj hpeer hlive hbeats hst hdown htwin hlead hm hepoch hfence),
        fun hne => leaves_atPort hup rfl (beat_fences hj hpeer hlive hbeats hst hdown htwin hlead hne)⟩
    · rintro ⟨hpeer, hj, hm, hlive⟩ hbeats hdown hst
      exact leaves_atPort hup rfl (beat_downs hj hpeer hlive hbeats hst hdown)
    · intro hst
      exact ⟨fun hmiss => leaves_atPort hup rfl (beatMiss_early hst hmiss), fun hmiss => leaves_atPort hup rfl (beatMiss_eighth hst hmiss)⟩
    · rintro r h2 ⟨⟨hpeer, hj, hm, hlive⟩, hst, hst', hlive', hrun⟩ hdata hsend hbad hlen
      exact ⟨fun hepoch hnext => leaves_atHub hup rfl (dataFrame_taken_says hj hpeer hlive hst hst' hlive' hrun hdata hsend hlen hbad hepoch hnext),
        fun hepoch => leaves_atHub hup rfl (dataFrame_stale_says hj hpeer hlive hst hst' hlive' hrun hdata hsend hlen hepoch),
        fun hread => leaves_atHub hup rfl (dataFrame_lost hj hpeer hlive hst hst' hlive' hrun hdata hsend hread)⟩
    · rintro ⟨⟨hpeer, hj, hm, hlive⟩, hst, hst', hlive', hrun⟩ hslot
      exact ⟨fun hepoch => leaves_atHub hup rfl (controlWord_says hj hpeer hlive hst hst' hlive' hrun hslot hepoch),
        fun hepoch => leaves_atHub hup rfl (controlWord_stale hj hpeer hlive hst hst' hlive' hrun hslot hepoch)⟩
    · intro hj hm hlive hst hiso hquiet
      refine ⟨fun hlive' hst' hiso' hquiet' => ⟨fun hmode => ?_, fun hmode hmode' hfenced hlink hlink' hepoch hmem hmem' => ?_⟩, fun hdead => ?_⟩
      · exact leaves_atHub hup rfl (portTrain_fenced_says hj hlive hst hiso hquiet hlive' hst' hiso' hquiet' hmode)
      · exact leaves_atHub hup rfl (portTrain_up_says hj hlive hst hiso hquiet hlive' hst' hiso' hquiet' hmode hmode' hfenced hlink hlink' hepoch hmem hmem')
      · exact gives_of_atHub rfl hup (portTrain_undriven hdead)
    · exact ⟨gives_portIsolate hn, lands_portIsolate hn⟩
    · intro hhole
      obtain ⟨hstates, hdwn⟩ := hubSilence_says hn hhole
      refine leaves_hubPkg hup rfl fun p hp hmem => ?_
      rw [hp]
      exact ⟨hstates, hdwn, hmem⟩
    · rintro ⟨hpeer, hj, hm, hlive⟩ hst
      refine ⟨fun hmark htaken => ⟨fun hbad => ?_, fun hgood => ?_⟩, fun hnone => ?_⟩
      · obtain ⟨h31, h7, hlog⟩ := mismatch_port g g.sealed
        refine leaves_atHub hup rfl ?_
        rw [auditMarker_port hpeer, if_pos ⟨hst, hmark, htaken⟩, Pack.on_g_self, Pack.on_g_ne _ _ (Ne.symm hj), Pack.on_g_ne _ _ hj, Pack.on_g_self,
          show (g.link n).tot.audit y.tot = false from hbad, if_neg Bool.false_ne_true, link_onLink]
        exact ⟨h31, h7, hlog, rfl, rfl⟩
      · refine leaves_atHub hup rfl ?_
        rw [auditMarker_port hpeer, if_pos ⟨hst, hmark, htaken⟩, Pack.on_g_self, Pack.on_g_ne _ _ (Ne.symm hj), Pack.on_g_ne _ _ hj, Pack.on_g_self,
          show (g.link n).tot.audit y.tot = true from hgood, if_pos rfl, link_onLink]
        exact ⟨rfl, rfl, rfl, rfl⟩
      · refine gives_of_atHub rfl hup ((auditMarker_port hpeer).trans (if_neg ?_))
        rintro ⟨-, hmark, htaken⟩
        rcases hnone with h | h
        · exact Bool.false_ne_true (h.symm.trans hmark)
        · exact Bool.false_ne_true (h.symm.trans htaken)
  · intro h n r h2 y
    refine ⟨fun b hback hfind => ?_, sendData_full, sendData_says⟩
    have hs := sendData_again hback hfind
    refine ⟨congrArg Prod.fst hs, ?_⟩
    rw [hs, Pkg.rf, onLink_rd]
    exact (Pkg.rf_wf_same _ _ (by decide) (by decide)).trans (Nat.mod_eq_of_lt (by omega))

end Sys2Proof.Machine
end

section
/-! PROOFS. Reverts: what a revert leaves alone -/

namespace Sys2Proof.Machine

/-! ## What a revert leaves alone -/

/-- A register that no revert touches before its last step: not PACK.ID, SEAL.STAT or SEAL.STEP. -/
def Aside (a : Nat) : Prop := a ≠ rPackId ∧ a ≠ rSealStat ∧ a ≠ rSealStep

theorem aside_hub {o : Nat} (h : o ≠ 0x7000 ∧ o ≠ 0x2004 ∧ o ≠ 0x2008) : Aside (hubR o) := by
  unfold Aside rPackId rSealStat rSealStep hubR rk
  omega

theorem aside_die {a : Nat} (h : a < hubR 0) : Aside a := by
  unfold Aside rPackId rSealStat rSealStep hubR rk at *
  omega

/-- The registers of a queue, at whatever site. -/
theorem aside_queue (site : Nat) {q o : Nat} (hq : q < 4096) (ho : o < 0x40) : Aside (rQ site q o) := by
  unfold Aside rPackId rSealStat rSealStep rQ hubR rk
  omega

/-- The credits of a queue, at whatever place. -/
theorem aside_cred (site q : Nat) : Aside (rQ site q 0x18) := by
  unfold Aside rPackId rSealStat rSealStep rQ hubR rk
  omega

/-- What a revert keeps until its last step: the package's position, its seal, what it holds as a leader, its repairs, and what its units and engines run. -/
def Pkg.rests (g : Pkg) : (W32 × W32 × W32) × Leader × List (Nat × Nat × Nat × Nat) × List Load × List OpRec :=
  ((g.rd rPackId, g.rd rSealStat, g.rd rSealStep), g.ld, g.pr.repair, g.loads, g.eops)

section
variable (g : Pkg)

theorem rests_wr {a : Nat} (w : W32) (h : Aside a) : (g.wr a w).rests = g.rests := by
  obtain ⟨hid, hstat, hstep⟩ := h
  unfold Pkg.rests
  rw [Pkg.wr_rd_ne _ _ hid.symm, Pkg.wr_rd_ne _ _ hstat.symm, Pkg.wr_rd_ne _ _ hstep.symm]
  rfl

theorem rests_logAt (code x1 x2 x3 a0 a1 a2 : Nat) : (g.logAt code x1 x2 x3 a0 a1 a2).rests = g.rests := by
  unfold Pkg.rests
  rw [Pkg.logAt_rd _ _ _ _ _ _ _ _ (by decide), Pkg.logAt_rd _ _ _ _ _ _ _ _ (by decide), Pkg.logAt_rd _ _ _ _ _ _ _ _ (by decide), Pkg.logAt_ld, Pkg.logAt_pr,
    Pkg.logAt_loads, Pkg.logAt_eops]

theorem rests_send (m : Msg) : (g.send m).rests = g.rests := rfl

theorem rests_books (b : Map Nat) (c : Colls) : ({ g with booked := b, co := c } : Pkg).rests = g.rests := rfl

theorem rests_addSat {a : Nat} (n : Nat) (h : Aside a) : (g.addSat a n).rests = g.rests := rests_wr g _ h

theorem rests_setCred (site q a o : Nat) : (g.setCred site q a o).rests = g.rests := rests_wr g _ (aside_cred site q)

theorem rests_setIx (site : Nat) {q : Nat} (x : Ix) (hq : q < 4096) : (g.setIx site q x).rests = g.rests :=
  (rests_wr (g.wr (rQ site q 0xC) x.pc) x.ml (aside_queue site hq (by decide))).trans (rests_wr g x.pc (aside_queue site hq (by decide)))

theorem rests_complete (t : Tid) (f : Fields) : (g.complete t f).rests = g.rests :=
  deliver_keeps (P := Pkg.rests) (by intro _ _; rfl) (by intro _ _; rfl) (by intro _ _; rfl)
    (fun g n => rests_addSat g n (aside_hub (by decide))) (fun g => rests_logAt g) ..

theorem rests_except (t : Tid) (pc : BitVec 16) (cause : Nat) (addr : Word) : (g.except t pc cause addr).rests = g.rests := by
  unfold Pkg.except
  dsimp only
  split_ifs
  · rfl
  · rfl
  · exact rests_logAt ..
  · rfl

theorem rests_lateFault (t : Tid) (pc : BitVec 16) (cause : Nat) (addr : Word) : (g.lateFault t pc cause addr).rests = g.rests := by
  unfold Pkg.lateFault
  split
  · exact rests_logAt ..
  · exact rests_except ..

theorem rests_lineLeft (key : Nat) (w : Option Wait) : (g.lineLeft key w).rests = g.rests := by
  unfold Pkg.lineLeft
  split
  · exact serveTok_keeps (P := Pkg.rests) (by intro _ _; rfl) (by intro _ _; rfl) (by intro _ _; rfl) ..
  · rfl

theorem rests_setCredits (site u pos q n : Nat) : (g.setCredits site u pos q n).rests = g.rests := by
  unfold Pkg.setCredits
  dsimp only
  split
  · exact (foldl_keeps (P := Pkg.rests) (by intro _ _; rfl) ..).trans rfl
  · rfl
end

section
variable (s : Pack) (k : Nat)

theorem rests_all {f : Nat → Pkg → Pkg} (h : ∀ j x, (f j x).rests = x.rests) : ((s.all f).g k).rests = (s.g k).rests :=
  mget_mmap_of_eq (P := Pkg.rests) h k s.pkgs

theorem rests_clearCredits (j q : Nat) : ((s.clearCredits j q).g k).rests = (s.g k).rests := by
  refine rests_all s k fun i x => ?_
  split
  · refine foldl_keeps (P := Pkg.rests) (fun x u => ?_) _ _
    dsimp only
    split
    · rfl
    · exact rests_setCredits ..
  · rfl

theorem rests_faultAt (t : Tid) (pc : BitVec 16) (cause : Nat) (addr : Option Word) : ((s.faultAt t pc cause addr).g k).rests = (s.g k).rests := by
  have hline : ((if ((s.g t.pkg).th t).st = .wait then s.leaveLines t else s).g k).rests = (s.g k).rests := by
    split
    · exact rests_all s k (f := fun _ g => { g with qops := g.qops.filter (fun q => !(q.r.t == t && (q.r.op == .ctake || q.r.op == .qpop))) }) fun _ _ => rfl
    · rfl
  have hfin (p : Pack) (a : Word) (w : Option Wait) : ((p.on t.pkg (fun g => (g.lateFault t pc cause a).lineLeft t.key w)).g k).rests = (p.g k).rests :=
    Pack.on_keeps (P := Pkg.rests) _ _ _ ((rests_lineLeft ..).trans (rests_lateFault ..))
  unfold Pack.faultAt
  dsimp only
  split
  · exact (hfin _ _ _).trans hline
  · split
    · exact (hfin _ _ _).trans hline
    · exact (hfin _ _ _).trans hline

theorem rests_endQueueWaits (j q cause : Nat) : ((s.endQueueWaits j q cause).g k).rests = (s.g k).rests := by
  unfold Pack.endQueueWaits
  extract_lets ws reqs t u
  have ht : (t.g k).rests = (s.g k).rests := Pack.on_keeps (P := Pkg.rests) _ _ _ rfl
  have hu : (u.g k).rests = (t.g k).rests := foldl_keeps (P := fun p : Pack => (p.g k).rests) (fun p w => by
    split
    · exact rests_faultAt ..
    · exact Pack.on_keeps (P := Pkg.rests) _ _ _ rfl) _ _
  refine (foldl_keeps (P := fun p : Pack => (p.g k).rests) (fun p r => ?_) _ _).trans (hu.trans ht)
  split
  · exact Pack.on_keeps (P := Pkg.rests) _ _ _ (rests_complete ..)
  · rfl

variable {q : Nat} (hq : q < 4096)
include hq

theorem rests_integrity (site : Nat) (idx : Bool) (at' : Nat) : ((s.integrity k site q idx at').g k).rests = (s.g k).rests := by
  unfold Pack.integrity
  extract_lets g x lost t
  have ht : (t.g k).rests = (s.g k).rests := by
    refine Pack.on_keeps (P := Pkg.rests) _ _ _ ?_
    extract_lets h1 h2 h3 c h4 h5
    have e1 : h1.rests = (s.g k).rests := rests_wr _ _ (aside_queue site hq (by decide))
    have e2 : h2.rests = h1.rests := (rests_setCred ..).trans (rests_setIx _ _ _ hq)
    have e3 : h3.rests = h2.rests := (rests_addSat _ _ (aside_hub (by decide))).trans (rests_wr _ _ (aside_queue site hq (by decide)))
    have e5 : h5.rests = h4.rests := rests_logAt ..
    have e4 : h4.rests = h3.rests := rests_books h3 _ _
    have hall : h5.rests = (s.g k).rests := e5.trans (e4.trans (e3.trans (e2.trans e1)))
    split
    · exact (rests_send ..).trans hall
    · exact hall
  exact (rests_endQueueWaits _ k _ _ _).trans ((rests_clearCredits _ k _ _).trans ht)

theorem rests_moveIx (site upset : Nat) (x : Ix) : ((s.moveIx k site q upset x).g k).rests = (s.g k).rests := by
  unfold Pack.moveIx
  extract_lets old t g
  have ht : (t.g k).rests = (s.g k).rests := Pack.on_keeps (P := Pkg.rests) _ _ _ (rests_setIx (s.g k) site x hq)
  split
  · exact ht
  · exact (rests_integrity t k hq ..).trans ht

theorem rests_qFlush (site : Nat) : ((s.qFlush k site q).g k).rests = (s.g k).rests := by
  unfold Pack.qFlush
  extract_lets g i n t
  have ht : (t.g k).rests = (s.g k).rests :=
    Pack.on_keeps (P := Pkg.rests) _ _ _ ((rests_addSat _ _ (aside_hub (by decide))).trans (rests_setCred ..))
  exact (rests_clearCredits _ k _ _).trans ((rests_moveIx t k hq ..).trans ht)

theorem rests_qRevert (site : Nat) : ((s.qRevert k site q).g k).rests = (s.g k).rests := by
  unfold Pack.qRevert
  dsimp only
  split
  · exact rests_moveIx s k hq ..
  · exact rests_qFlush s k hq ..
  · rfl
end

end Sys2Proof.Machine
end

section
/-! PROOFS. Reverts: operations in flight are discarded -/

namespace Sys2Proof.Machine

/-! ## Operations in flight are discarded -/

/-- What a package keeps while its operations in flight are discarded. -/
def Pkg.stays (g : Pkg) : (W32 × W32 × W32) × Leader × List (Nat × Nat × Nat × Nat) := (g.rests.1, g.rests.2.1, g.rests.2.2.1)

theorem stays_of_rests {g h : Pkg} (heq : h.rests = g.rests) : h.stays = g.stays := by
  unfold Pkg.stays
  rw [heq]

theorem stays_endKres (g : Pkg) : g.endKres.stays = g.stays := by
  unfold Pkg.endKres
  refine foldl_keeps (P := Pkg.stays) (fun _ _ => ?_) _ _
  rfl

section
variable (s : Pack) (k : Nat)

theorem rests_contribBack (r : OpRec) : ((s.contribBack r).g k).rests = (s.g k).rests := by
  unfold Pack.contribBack
  split
  · rfl
  · split
    · rfl
    · exact Pack.on_keeps (P := Pkg.rests) _ _ _ (rests_setCred ..)

theorem rests_pushBack (g : Pkg) (x : QReq) : (g.pushBack x).rests = g.rests := by
  unfold Pkg.pushBack
  split
  · exact rests_setCred ..
  · rfl

/-- The package that is quiesced, once its operations are discarded. -/
def Pkg.quiet (g : Pkg) : Pkg := { g.stopAll with loads := [], stores := [], aops := [], eops := [], qops := [], strmPost := [] }

theorem stays_quiet (g : Pkg) : g.quiet.stays = g.stays := stays_endKres g

/-- What `quiesce` does to the package itself. -/
theorem quiesce_g : ∃ h : Pkg, h.stays = (s.g k).stays ∧ (s.quiesce k).g k = h.quiet := by
  unfold Pack.quiesce
  extract_lets cs t u v w
  have ht : (t.g k).rests = (s.g k).rests := foldl_keeps (P := fun p : Pack => (p.g k).rests) (fun p r => rests_contribBack p k r) _ _
  have hu : (u.g k).rests = (t.g k).rests := rests_all t k fun j x => foldl_keeps (P := Pkg.rests) (fun x q => rests_pushBack x q) _ _
  refine ⟨u.g k, stays_of_rests (hu.trans ht), ?_⟩
  show w.g k = _
  have hv : v.g k = (u.g k).quiet := Pack.on_g_self ..
  have hw : w.g k = { v.g k with qops := (v.g k).qops.filter (fun x => x.r.t.pkg != k) } :=
    mget_mmap_self (d := coldPkg k) (f := fun _ g => { g with qops := g.qops.filter (fun x => x.r.t.pkg != k) }) k rfl v.pkgs
  rw [hw, hv]
  rfl

theorem quiesce_stays : ((s.quiesce k).g k).stays = (s.g k).stays := by
  obtain ⟨h, hh, hq⟩ := quiesce_g s k
  rw [hq, stays_quiet, hh]

/-- Nothing travels to or from a package that has quiesced. -/
theorem quiesce_wire : ∀ w ∈ (s.quiesce k).wire, w.src ≠ k ∧ w.dst ≠ k := fun w hw => by
  unfold Pack.quiesce at hw
  obtain ⟨-, hkeep⟩ := List.mem_filter.mp hw
  simpa using hkeep

/-- A thread that stops. -/
def Thread.idled (x : Thread) : Thread := { x with st := .idle, wait := none }

theorem idled_idle (i : Nat) : ∀ m : Map Thread, (mget ({} : Thread) (mmap (fun _ x => x.idled) m) i).st = .idle
  | [] => rfl
  | (j, x) :: m => by
    show (if j = i then x.idled else mget {} (mmap (fun _ x => x.idled) m) i).st = _
    split
    · rfl
    · exact idled_idle i m

theorem quiet_idle (g : Pkg) (i : Nat) : (mget ({} : Thread) g.quiet.thr i).st = .idle := idled_idle i g.endKres.thr
end

end Sys2Proof.Machine
end

section
/-! PROOFS. Reverts: the actions of a package -/

namespace Sys2Proof.Machine

/-! ## The actions of a revert -/

section
variable (g : Pkg)

theorem rests_book (kind place : Nat) (d : Int) : (g.book kind place d).rests = g.rests := rfl

theorem rests_wf {a : Nat} (hi lo v : Nat) (h : Aside a) : (g.wf a hi lo v).rests = g.rests := rests_wr g _ h

theorem rests_wb {a : Nat} (i : Nat) (b : Bool) (h : Aside a) : (g.wb a i b).rests = g.rests := rests_wr g _ h

theorem aside_mbt (n o : Nat) : Aside (rMbt n o) := aside_hub (by omega)

theorem rests_kFree (n : Nat) : (g.kFree n).rests = g.rests := by
  have hj : g.mbStage n < 8 := fld_lt ..
  have hst (o : Nat) (ho : o < 0x20) : Aside (rStage (g.mbStage n) o) := aside_hub (by omega)
  unfold Pkg.kFree
  extract_lets j m h c h1 h2
  have eh : h.rests = g.rests := by
    show (if g.mbHeld n then _ else g).rests = _
    split
    · exact (rests_book ..).trans ((rests_wf _ _ _ _ (hst 0x18 (by decide))).trans (rests_wf _ _ _ _ (hst 0x14 (by decide))))
    · rfl
  have e1 : h1.rests = h.rests := rests_wr _ _ (aside_mbt n 0)
  have e2 : h2.rests = h1.rests := (rests_wr _ _ (aside_mbt n 0xC)).trans (rests_wf _ _ _ _ (aside_mbt n 0x10))
  exact (show _ = h2.rests from rfl).trans (e2.trans (e1.trans eh))

theorem rests_vref (t : Nat) (up : Bool) (ht : t < 4) : (g.vref t up).rests = g.rests :=
  (rests_book ..).trans (rests_wf _ _ _ _ (aside_hub (by omega)))

theorem mbTag_lt (n : Nat) : g.mbTag n < 4 := fld_lt ..

theorem rests_pipeRevert (step : Nat) : (g.pipeRevert step).rests = g.rests := by
  unfold Pkg.pipeRevert
  refine foldl_keeps (P := Pkg.rests) (fun g n => ?_) _ _
  dsimp only
  split
  · have e1 : (if g.mbHeld n then (g.kFree n).addSat (rRecl 2) (g.mbGran n) else g.kFree n).rests = g.rests := by
      split
      · exact (rests_addSat _ _ (aside_hub (by decide))).trans (rests_kFree g n)
      · exact rests_kFree g n
    generalize (if g.mbHeld n then (g.kFree n).addSat (rRecl 2) (g.mbGran n) else g.kFree n) = h at e1 ⊢
    refine (rests_wr _ _ (aside_mbt n 0)).trans (Eq.trans ?_ e1)
    split
    · exact (rests_addSat _ _ (aside_hub (by decide))).trans (rests_vref h _ _ (mbTag_lt h n))
    · rfl
  · rfl

theorem aside_coll (j o : Nat) : Aside (rColl j o) := aside_hub (by omega)

theorem aside_timer (n o : Nat) (hn : n < 64) (ho : o < 8) : Aside (rTmr n o) := aside_hub (by omega)

theorem rests_co (c : Colls) : ({ g with co := c } : Pkg).rests = g.rests := rfl

theorem rests_collRevert (step : Nat) : (g.collRevert step).rests = g.rests := by
  unfold Pkg.collRevert
  extract_lets h c h1
  have eh : h.rests = g.rests := foldl_keeps (P := Pkg.rests) (fun g x => by
    split
    · exact rests_addSat _ _ (aside_coll ..)
    · rfl) _ _
  have e1 : h1.rests = h.rests := rests_co h _
  refine (foldl_keeps (P := Pkg.rests) (fun g j => ?_) _ _).trans (e1.trans eh)
  split
  · have e0 : (g.wr (rColl j 0x1C) (mk32 step)).rests = g.rests := rests_wr _ _ (aside_coll ..)
    generalize g.wr (rColl j 0x1C) (mk32 step) = h at e0 ⊢
    dsimp only
    split
    · next n hn =>
      have hlt := cTimer_lt h hn
      exact (rests_wr _ _ (aside_timer n 4 hlt (by decide))).trans ((rests_wr _ _ (aside_timer n 0 hlt (by decide))).trans e0)
    · exact e0
  · rfl

theorem rests_tmrFree {n : Nat} (hn : n < 64) : (g.tmrFree n).rests = g.rests :=
  (rests_wr _ _ (aside_timer n 4 hn (by decide))).trans (rests_wr _ _ (aside_timer n 0 hn (by decide)))

theorem foldl_keeps_mem {α β γ : Type} {f : α → β → α} {P : α → γ} : ∀ (l : List β) (a : α), (∀ a, ∀ b ∈ l, P (f a b) = P a) → P (l.foldl f a) = P a
  | [], _, _ => rfl
  | b :: l, a, h => (foldl_keeps_mem l (f a b) fun a c hc => h a c (List.mem_cons_of_mem _ hc)).trans (h a b List.mem_cons_self)

/-- The timers of the package's own waits are freed. -/
def Pkg.timersFreed (g : Pkg) : Pkg := (List.range 64).foldl (fun g n => if g.rf (rTmr n 0) 28 27 = 1 then g.tmrFree n else g) g

theorem rests_timersFreed : g.timersFreed.rests = g.rests := foldl_keeps_mem _ _ fun g n hn => by
  split
  · exact rests_tmrFree g (List.mem_range.mp hn)
  · rfl

/-! Scale slots and stream slots -/

theorem scaleSlots_mem {m : Map W32} {p : Nat × Nat} (h : p ∈ scaleSlots m) : p.1 < 48 ∧ p.2 < 0x800 := by
  obtain ⟨q, -, hq⟩ := List.mem_filterMap.mp (List.mem_eraseDups.mp h)
  dsimp only at hq
  split at hq
  · next hc =>
    rw [← Option.some.inj hq]
    dsimp only
    omega
  · cases hq

theorem aside_scale {site n o : Nat} (hsite : site < 48) (hn : n < 0x800) (ho : o < 0x80) : Aside (rScale site n o) :=
  aside_die (by unfold rScale hubR rk; omega)

theorem rests_scaleRestore (c : Cut) : (g.scaleRestore c).rests = g.rests := by
  unfold Pkg.scaleRestore
  extract_lets kept h h1
  have eh : h.rests = g.rests := foldl_keeps_mem _ _ fun g p hp => by
    obtain ⟨hs, hn⟩ := scaleSlots_mem hp
    split
    · rfl
    · exact (rests_wf _ _ _ _ (aside_scale hs hn (by decide))).trans ((rests_wr _ _ (aside_scale hs hn (by decide))).trans (rests_wr _ _ (aside_scale hs hn (by decide))))
  have e1 : h1.rests = h.rests := foldl_keeps_mem _ _ fun g p hp => by
    obtain ⟨hs, hn⟩ := scaleSlots_mem hp
    refine foldl_keeps_mem _ _ fun g i hi => rests_wr _ _ (aside_scale hs hn ?_)
    have := List.mem_range.mp hi
    omega
  refine (foldl_keeps_mem _ _ fun g p hp => ?_).trans (e1.trans eh)
  obtain ⟨hs, hn⟩ := scaleSlots_mem hp
  unfold Pkg.warmTest
  dsimp only
  split
  · exact rests_wf _ _ _ _ (aside_scale hs hn (by decide))
  · rfl

theorem aside_strm (n o : Nat) : Aside (rStrm n o) := aside_hub (by omega)

theorem rests_strmWords (n : Nat) (e : Strm) : (g.strmWords n e).rests = g.rests := by
  unfold Pkg.strmWords
  exact (rests_wr _ _ (aside_strm n 0x10)).trans ((rests_wr _ _ (aside_strm n 0xC)).trans ((rests_wr _ _ (aside_strm n 8)).trans
    ((rests_wr _ _ (aside_strm n 4)).trans (rests_wr _ _ (aside_strm n 0)))))

theorem rests_strm (m : Map Strm) : ({ g with strm := m, strmPost := [] } : Pkg).rests = g.rests := rfl

theorem rests_strmRestore (c : Cut) (next : Nat) : (g.strmRestore c next).rests = g.rests := by
  unfold Pkg.strmRestore
  extract_lets h h1
  have eh : h.rests = g.rests := rests_strm g _
  have e1 : h1.rests = h.rests := foldl_keeps (P := Pkg.rests) (fun g n => by
    split
    · exact rests_strmWords ..
    · rfl) _ _
  refine (foldl_keeps (P := Pkg.rests) (fun g p => ?_) _ _).trans (e1.trans eh)
  extract_lets n old cur h2
  have e2 : h2.rests = g.rests := (rests_wr _ _ (aside_strm n 0x1C)).trans ((rests_wr _ _ (aside_strm n 0x18)).trans
    ((rests_wr _ _ (aside_strm n 0x14)).trans (rests_strmWords ..)))
  split
  · exact e2
  · exact (rests_logAt ..).trans ((rests_wb _ _ _ (aside_strm n 0)).trans e2)

theorem rests_flows (b : Map Nat) (f : Map Flow) : ({ g with booked := b, flows := f } : Pkg).rests = g.rests := rfl

theorem rests_rebase (cause : Nat) : (g.rebase cause).rests = g.rests := by
  unfold Pkg.rebase
  extract_lets m old h h1
  have eh : h.rests = g.rests := rests_flows g _ _
  have e1 : h1.rests = h.rests := rests_wb _ _ _ (aside_hub (by decide))
  refine (foldl_keeps (P := Pkg.rests) (fun g k => ?_) _ _).trans (e1.trans eh)
  dsimp only
  split
  · rfl
  · exact rests_logAt ..
end

end Sys2Proof.Machine
end

section
/-! PROOFS. Reverts: the revert of a member -/

namespace Sys2Proof.Machine

/-! ## The revert of a member -/

theorem liveQueues_mem {g : Pkg} {p : Nat × Nat} (h : p ∈ g.liveQueues) : p.1 < 48 ∧ p.2 < 4096 := by
  obtain ⟨q, -, hq⟩ := List.mem_filterMap.mp h
  dsimp only at hq
  split at hq
  · next hc =>
    obtain ⟨hsite, hlo, hhi, -, -⟩ := hc
    split at hq
    · rw [← Option.some.inj hq]
      dsimp only
      omega
    · cases hq
  · cases hq

section
variable (s : Pack) (k : Nat)

/-- A pack in which memory alone may differ. -/
theorem mapSel_g (f : Nat → Nat) (j : Nat) : (s.mapSel k f).g j = s.g j := by
  unfold Pack.mapSel
  dsimp only
  refine foldl_keeps (P := fun p : Pack => p.g j) (fun p t => ?_) _ _
  refine foldl_keeps (P := fun p : Pack => p.g j) (fun p i => ?_) _ _
  split
  · rfl
  · exact foldl_keeps (P := fun p : Pack => p.g j) (by intro _ _; rfl) _ _

theorem rests_thresherRevert (g : Pkg) : g.thresherRevert.rests = g.rests := rfl

theorem rests_dqAdd (g : Pkg) (r : List Byte) : (g.dqAdd r).rests = g.rests := rfl

theorem rests_armsClear (g : Pkg) : g.armsClear.rests = g.rests := rfl

theorem rests_pushVec (g : Pkg) (q : Nat) : (g.pushVec q).rests = g.rests := by
  unfold Pkg.pushVec
  dsimp only
  split <;> rfl

theorem rests_dqPump : ∀ (n : Nat) (s : Pack), ((Pack.dqPump k n s).g k).rests = (s.g k).rests
  | 0, _ => rfl
  | n + 1, s => by
    unfold Pack.dqPump
    extract_lets g
    split
    · next site q r rest hhome hdq =>
      split
      · rfl
      · have hq := dqHome_queue hhome
        extract_lets i t u
        have ht : (t.g k).rests = (s.g k).rests := congrArg Pkg.rests (ringWrite_g ..)
        have hu : (u.g k).rests = (t.g k).rests := Pack.on_keeps (P := Pkg.rests) _ _ _ (rests_setCred (t.g k) site q _ _)
        refine (rests_dqPump n _).trans ((Pack.on_keeps (P := Pkg.rests) _ _ _ (rests_pushVec ..)).trans ?_)
        exact (rests_moveIx u k hq ..).trans (hu.trans ht)
    · rfl

theorem rests_parityBuild (t j : Nat) : ((s.parityBuild k t j).g k).rests = (s.g k).rests := by
  unfold Pack.parityBuild
  extract_lets g u
  split
  · rfl
  · have hu : u.g k = s.g k := foldl_keeps (P := fun p : Pack => p.g k) (fun p i => foldl_keeps (P := fun p : Pack => p.g k) (fun p b => by
      dsimp only
      refine (foldl_keeps (P := fun p : Pack => p.g k) (fun p x => ?_) _ _).trans rfl
      split <;> rfl) _ _) _ _
    refine (Pack.on_keeps (P := Pkg.rests) _ _ _ ?_).trans (congrArg Pkg.rests hu)
    rfl

/-- Without a marked block, the repairs build parity alone. -/
theorem rests_repairs (h : (s.g k).pr.repair = []) : ((s.repairs k).g k).rests = (s.g k).rests := by
  unfold Pack.repairs
  extract_lets rs t par
  have hrs : rs = [] := h
  have ht : (t.g k).rests = (s.g k).rests := by
    rw [show t.g k = { s.g k with pr := { (s.g k).pr with repair := [] } } from Pack.on_g_self ..]
    unfold Pkg.rests
    rw [h]
    rfl
  rw [hrs, List.foldl_nil]
  exact (foldl_keeps (P := fun p : Pack => (p.g k).rests) (fun p x => rests_parityBuild p k _ _) _ _).trans ht

/-- The last step of a revert: the rebase, and the member is HELD (R344). -/
def Pkg.reverted (g : Pkg) (cause step : Nat) : Pkg :=
  let g := g.rebase cause
  let g := { g with pr := { g.pr with bad := false, prep := 0, suppAck := 0, commit := none, parked := false, rev := 0, revWait := false, reps := [] } }
  let g := if g.phase = 4 ∧ g.cause = 8 then g else (g.setPhase 3).setCause 0
  g.send (.revertDone g.pos step)

/-- A member's revert: what stands before its last step is as it was. -/
theorem revertActions_g (cause : Nat) (hrepair : (s.g k).pr.repair = []) :
    ∃ h : Pkg, h.rests = (s.g k).rests ∧ (s.revertActions k cause).g k = h.reverted cause (s.g k).sealed := by
  unfold Pack.revertActions
  extract_lets step next s1 s2 s3 s4 s5 s6 s7
  have e1 : (s1.g k).rests = (s.g k).rests := foldl_keeps_mem (P := fun p : Pack => (p.g k).rests) _ _ fun p x hx =>
    rests_qRevert p k (liveQueues_mem hx).2 x.1
  have e2 : (s2.g k).rests = (s1.g k).rests := Pack.on_keeps (P := Pkg.rests) _ _ _ ((rests_collRevert ..).trans ((rests_thresherRevert _).trans (rests_pipeRevert (s1.g k) step)))
  have e3 : (s3.g k).rests = (s2.g k).rests := Pack.on_keeps (P := Pkg.rests) _ _ _ (rests_timersFreed (s2.g k))
  have e4 : (s4.g k).rests = (s3.g k).rests := congrArg Pkg.rests (mapSel_g s3 k _ k)
  have e5 : (s5.g k).rests = (s4.g k).rests := (rests_dqPump k _ _).trans (Pack.on_keeps (P := Pkg.rests) _ _ _ (rests_dqAdd (s4.g k) _))
  have hrep : (s5.g k).pr.repair = [] := by
    rw [← hrepair]
    exact congrArg (fun r => r.2.2.1) (e5.trans (e4.trans (e3.trans (e2.trans e1))))
  have e6 : (s6.g k).rests = (s5.g k).rests := rests_repairs s5 k hrep
  have e7 : (s7.g k).rests = (s6.g k).rests := Pack.on_keeps (P := Pkg.rests) _ _ _ (by
    dsimp only
    exact (rests_armsClear _).trans ((rests_strmRestore ..).trans (rests_scaleRestore ..)))
  refine ⟨s7.g k, e7.trans (e6.trans (e5.trans (e4.trans (e3.trans (e2.trans e1))))), ?_⟩
  rw [Pack.on_g_self]
  rfl
end

end Sys2Proof.Machine
end

section
/-! PROOFS. Reverts: REVERT at a member -/

namespace Sys2Proof.Machine

/-! ## REVERT at a member -/

/-- The words that stay are those of the position, the phase and the seal. -/
theorem stays_words {g h : Pkg} (heq : h.stays = g.stays) : h.rd rPackId = g.rd rPackId ∧ h.rd rSealStat = g.rd rSealStat ∧ h.rd rSealStep = g.rd rSealStep ∧
    h.ld = g.ld ∧ h.pr.repair = g.pr.repair := by
  obtain ⟨hwords, hrest⟩ := Prod.mk.inj heq
  obtain ⟨hid, hseal⟩ := Prod.mk.inj hwords
  obtain ⟨hstat, hstep⟩ := Prod.mk.inj hseal
  obtain ⟨hld, hrep⟩ := Prod.mk.inj hrest
  exact ⟨hid, hstat, hstep, hld, hrep⟩

/-- A member that has reverted is HELD, and answers (R344, step 8). -/
theorem reverted_says {h : Pkg} {cause step : Nat} (hne : ¬ (h.phase = 4 ∧ h.cause = 8)) :
    (h.reverted cause step).phase = 3 ∧ (h.reverted cause step).cause = 0 ∧ (h.reverted cause step).pr.rev = 0 ∧ (h.reverted cause step).pr.commit = none ∧
    (h.reverted cause step).sealed = h.sealed ∧ (h.reverted cause step).sent.head? = some (.revertDone h.pos step) ∧ (h.reverted cause step).ld = h.ld := by
  obtain ⟨hid, hstat, hstep, hld, -⟩ := stays_words (stays_of_rests (rests_rebase h cause))
  unfold Pkg.reverted
  extract_lets g1 p g2 g3
  have hrd (a : Nat) : g2.rd a = g1.rd a := rfl
  have hg3 : g3 = (g2.setPhase 3).setCause 0 := if_neg (by
    rintro ⟨hp, hc⟩
    refine hne ⟨?_, ?_⟩
    · rw [← hp, Pkg.phase, Pkg.phase, Pkg.rf, Pkg.rf, hrd, hstat]
    · rw [← hc, Pkg.cause, Pkg.cause, Pkg.rf, Pkg.rf, hrd, hstat])
  have hother (a : Nat) (ha : a ≠ rSealStat) : g3.rd a = g2.rd a := by
    rw [hg3, Pkg.setCause, Pkg.rd_wf, if_neg ha, Pkg.setPhase_rd, Pkg.rd_wf, if_neg ha]
  have hpr : g3.pr = g2.pr := by
    rw [hg3]
    exact Pkg.setPhase_pr ..
  refine ⟨?_, ?_, ?_, ?_, ?_, ?_, ?_⟩
  · show g3.phase = 3
    rw [hg3]
    exact (Pkg.setCause_phase ..).trans (Pkg.setPhase_phase _ _ (by decide))
  · show g3.cause = 0
    rw [hg3]
    exact Pkg.setCause_cause _ _ (by decide)
  · show g3.pr.rev = 0
    rw [hpr]
  · show g3.pr.commit = none
    rw [hpr]
  · show g3.sealed = _
    rw [Pkg.sealed, hother _ (by decide), hrd, hstep, Pkg.sealed]
  · show some (Msg.revertDone g3.pos step) = _
    rw [Pkg.pos, Pkg.rf, hother _ (by decide), hrd, hid, Pkg.pos, Pkg.rf]
  · show g3.ld = _
    rw [hg3]
    exact (Pkg.setPhase_ld ..).trans hld

section
variable {s : Pack} {k step epoch : Nat}

/-- A revert that stands before its actions: the member HELD, and its answer sent. -/
theorem revertActions_says (cause : Nat) (hrepair : (s.g k).pr.repair = []) (hne : ¬ ((s.g k).phase = 4 ∧ (s.g k).cause = 8)) :
    let q := (s.revertActions k cause).g k
    q.phase = 3 ∧ q.cause = 0 ∧ q.pr.rev = 0 ∧ q.pr.commit = none ∧ q.sealed = (s.g k).sealed ∧
    q.sent.head? = some (.revertDone (s.g k).pos (s.g k).sealed) ∧ q.ld = (s.g k).ld := by
  obtain ⟨h, hrests, hq⟩ := revertActions_g s k cause hrepair
  obtain ⟨hid, hstat, hstep, hld, -⟩ := stays_words (stays_of_rests hrests)
  have hne' : ¬ (h.phase = 4 ∧ h.cause = 8) := by
    unfold Pkg.phase Pkg.cause Pkg.rf at hne ⊢
    rw [hstat]
    exact hne
  obtain ⟨h1, h2, h3, h4, h5, h6, h7⟩ := reverted_says (cause := cause) (step := (s.g k).sealed) hne'
  have hpos : h.pos = (s.g k).pos := by rw [Pkg.pos, Pkg.rf, hid, Pkg.pos, Pkg.rf]
  intro q
  rw [show q = _ from hq]
  refine ⟨h1, h2, h3, h4, ?_, by rw [h6, hpos], h7.trans hld⟩
  rw [h5, Pkg.sealed, hstep, Pkg.sealed]

variable (hassigned : (s.g k).assigned = true) (hparted : (s.g k).parted = false)

theorem takeRevert_out (h : (s.g k).assigned = false ∨ (s.g k).parted = true) : s.takeRevert k step epoch = s := by
  unfold Pack.takeRevert
  dsimp only
  exact if_pos (by simpa using h)

include hassigned hparted

theorem takeRevert_stale (h : epoch ≠ (s.g k).epoch) : s.takeRevert k step epoch = s.on k Pkg.stale := by
  unfold Pack.takeRevert
  dsimp only
  rw [if_neg (by simp [hassigned, hparted]), if_pos h]

theorem takeRevert_waits (hepoch : epoch = (s.g k).epoch) (h : (s.g k).pr.commit.isSome = true ∨ step = (s.g k).step) :
    s.takeRevert k step epoch = s.on k (fun g => { g with pr := { g.pr with revWait := true } }) := by
  unfold Pack.takeRevert
  dsimp only
  rw [if_neg (by simp [hassigned, hparted]), if_neg (not_not.mpr hepoch), if_pos h]

theorem takeRevert_other (hepoch : epoch = (s.g k).epoch) (hcommit : (s.g k).pr.commit = none) (hstep : step ≠ (s.g k).step) (hseal : step ≠ (s.g k).sealed) :
    s.takeRevert k step epoch = s := by
  unfold Pack.takeRevert
  dsimp only
  rw [if_neg (by simp [hassigned, hparted]), if_neg (not_not.mpr hepoch), if_neg (by simp [hcommit, hstep]), if_pos hseal]

variable (hepoch : epoch = (s.g k).epoch) (hcommit : (s.g k).pr.commit = none) (hstep : step ≠ (s.g k).step) (hseal : step = (s.g k).sealed)
include hepoch hcommit hstep hseal

theorem takeRevert_eq : s.takeRevert k step epoch =
    if (s.g k).pr.gone &&& (s.g k).mem ≠ 0 ∨ (s.g k).rb (rLedger 0) 30 = true ∨ s.owesReclaim k = true then
      (s.quiesce k).on k (fun g => { g with pr := { g.pr with rev := 1, reps := [] } })
    else (s.quiesce k).revertActions k 2 := by
  unfold Pack.takeRevert
  dsimp only
  rw [if_neg (by simp [hassigned, hparted]), if_neg (not_not.mpr hepoch), if_neg (by simp [hcommit, hstep]), if_neg (not_not.mpr hseal)]

/-- A member that waits for the reclaim has discarded what was in flight (R344, steps 3 and 4). -/
theorem takeRevert_reclaims (h : (s.g k).pr.gone &&& (s.g k).mem ≠ 0 ∨ (s.g k).rb (rLedger 0) 30 = true ∨ s.owesReclaim k = true) :
    let q := s.takeRevert k step epoch
    (q.g k).pr.rev = 1 ∧ (q.g k).loads = [] ∧ (q.g k).stores = [] ∧ (q.g k).aops = [] ∧ (q.g k).eops = [] ∧ (q.g k).qops = [] ∧
    (∀ i, (mget ({} : Thread) (q.g k).thr i).st = .idle) ∧ (∀ w ∈ q.wire, w.src ≠ k ∧ w.dst ≠ k) ∧ q.mem = s.mem := by
  obtain ⟨g, -, hg⟩ := quiesce_g s k
  intro q
  have hq : q = _ := (takeRevert_eq hassigned hparted hepoch hcommit hstep hseal).trans (if_pos h)
  have hk : q.g k = { g.quiet with pr := { g.quiet.pr with rev := 1, reps := [] } } := by rw [hq, Pack.on_g_self, hg]
  rw [hk]
  refine ⟨rfl, rfl, rfl, rfl, rfl, rfl, quiet_idle g, ?_, ?_⟩
  · rw [hq]
    exact quiesce_wire s k
  · rw [hq]
    exact Pack.quiesce_mem s k

/-- A member that owes nothing reverts at once (R344). -/
theorem takeRevert_reverts (hgone : (s.g k).pr.gone &&& (s.g k).mem = 0) (hled : (s.g k).rb (rLedger 0) 30 = false) (howes : s.owesReclaim k = false)
    (hrepair : (s.g k).pr.repair = []) (hne : ¬ ((s.g k).phase = 4 ∧ (s.g k).cause = 8)) :
    let q := s.takeRevert k step epoch
    (q.g k).phase = 3 ∧ (q.g k).cause = 0 ∧ (q.g k).pr.rev = 0 ∧ (q.g k).pr.commit = none ∧ (q.g k).sealed = step ∧
    (q.g k).sent.head? = some (.revertDone (s.g k).pos step) := by
  obtain ⟨hid, hstat, hsealed, hld, hrep⟩ := stays_words (quiesce_stays s k)
  have hpos : ((s.quiesce k).g k).pos = (s.g k).pos := by rw [Pkg.pos, Pkg.rf, hid, Pkg.pos, Pkg.rf]
  have hsame : ((s.quiesce k).g k).sealed = step := by rw [Pkg.sealed, hsealed, hseal, Pkg.sealed]
  obtain ⟨h1, h2, h3, h4, h5, h6, -⟩ := revertActions_says (s := s.quiesce k) (k := k) 2 (hrep.trans hrepair) (by
    unfold Pkg.phase Pkg.cause Pkg.rf at hne ⊢
    rw [hstat]
    exact hne)
  intro q
  rw [show q = _ from (takeRevert_eq hassigned hparted hepoch hcommit hstep hseal).trans (if_neg (by simp [hgone, hled, howes]))]
  exact ⟨h1, h2, h3, h4, h5.trans hsame, by rw [h6, hpos, hsame]⟩
end

end Sys2Proof.Machine
end

section
/-! PROOFS. Reverts: the leader's part -/

namespace Sys2Proof.Machine

/-! ## The leader's part of a revert -/

section
variable {s : Pack} {k : Nat}

/-- A halt halts a running member. -/
theorem haltAll_self {cause : Nat} (hcause : cause < 256) : ∀ (l : List Nat) (s : Pack), (k ∈ l ∧ (s.g k).phase ≠ 4) ∨ ((s.g k).phase = 4 ∧ (s.g k).cause = cause) →
    ((l.foldl (fun s j => s.on j (fun g => g.halt cause)) s).g k).phase = 4 ∧ ((l.foldl (fun s j => s.on j (fun g => g.halt cause)) s).g k).cause = cause
  | [], s, h => h.resolve_left fun h => List.not_mem_nil h.1
  | i :: l, s, h => by
    refine haltAll_self hcause l (s.on i (fun g => g.halt cause)) ?_
    by_cases hi : i = k
    · subst hi
      rw [Pack.on_g_self]
      rcases h with ⟨-, hne⟩ | ⟨hp, hc⟩
      · obtain ⟨h1, h2, -⟩ := (s.g i).halt_halted cause hne hcause
        exact .inr ⟨h1, h2⟩
      · right
        rw [Pkg.halt, if_pos hp]
        exact ⟨hp, hc⟩
    · rw [Pack.on_g_ne _ _ (Ne.symm hi)]
      rcases h with ⟨hmem, hne⟩ | hdone
      · exact .inl ⟨(List.mem_cons.mp hmem).resolve_left (Ne.symm hi), hne⟩
      · exact .inr hdone

/-- A package with a position in its own membership is among its members. -/
theorem mem_members (hassigned : (s.g k).assigned = true) (hmem : (s.g k).mem.testBit (s.g k).pos = true) : k ∈ s.members k := by
  have hpos : (s.g k).pos < 64 := fld_lt ..
  refine List.mem_filterMap.mpr ⟨(s.g k).pos, List.mem_filter.mpr ⟨List.mem_range.mpr hpos, hmem⟩, ?_⟩
  unfold Pack.at
  exact if_pos (by simp [hassigned])

theorem haltAll_says {cause : Nat} (hcause : cause < 256) (hassigned : (s.g k).assigned = true) (hmem : (s.g k).mem.testBit (s.g k).pos = true)
    (hphase : (s.g k).phase ≠ 4) : ((s.haltAll k cause).g k).phase = 4 ∧ ((s.haltAll k cause).g k).cause = cause :=
  haltAll_self hcause _ _ (.inl ⟨mem_members hassigned hmem, hphase⟩)

variable {host : Bool} {upto : Nat} (hleads : (s.g k).leads = true) (hrun : ¬ ((s.g k).phase = 4 ∧ (s.g k).cause = 0xA)) (hok : ¬ ((s.g k).phase = 4 ∧ (s.g k).cause = 5))
include hleads hrun hok

theorem revertTo_open : s.revertTo k host upto =
    if (s.g k).committing then s.on k (fun g => { g with ld := { g.ld with revPend := true } })
    else if !(s.g k).ld.reverting.isEmpty then (if (s.g k).ld.reclaiming.isEmpty && s.owesReclaim k then s.restartRevert k else s)
    else if (s.g k).rlim ≠ 0 ∧ (s.g k).rlim ≤ (s.g k).revcnt then s.haltAll k 7
    else if host || (s.g k).autorev then s.startRevert k upto
    else s.haltAll k 6 := by
  unfold Pack.revertTo
  dsimp only
  exact if_neg (by
    rintro (h | ⟨hp, h | h⟩)
    · simp [hleads] at h
    · exact hok ⟨hp, h⟩
    · exact hrun ⟨hp, h⟩)

theorem revertTo_pending (hcommit : (s.g k).committing = true) : s.revertTo k host upto = s.on k (fun g => { g with ld := { g.ld with revPend := true } }) :=
  (revertTo_open hleads hrun hok).trans (if_pos hcommit)

variable (hcommit : (s.g k).committing = false)
include hcommit

theorem revertTo_running (hrev : (s.g k).ld.reverting ≠ []) :
    s.revertTo k host upto = if (s.g k).ld.reclaiming.isEmpty && s.owesReclaim k then s.restartRevert k else s := by
  rw [revertTo_open hleads hrun hok, if_neg (by simp [hcommit]), if_pos (by simpa using hrev)]

variable (hrev : (s.g k).ld.reverting = [])
include hrev

theorem revertTo_idle : s.revertTo k host upto =
    if (s.g k).rlim ≠ 0 ∧ (s.g k).rlim ≤ (s.g k).revcnt then s.haltAll k 7
    else if host || (s.g k).autorev then s.startRevert k upto
    else s.haltAll k 6 := by
  rw [revertTo_open hleads hrun hok, if_neg (by simp [hcommit]), if_neg (by simp [hrev])]

theorem revertTo_starts (hlim : (s.g k).rlim = 0 ∨ (s.g k).revcnt < (s.g k).rlim) (hgo : (host || (s.g k).autorev) = true) :
    s.revertTo k host upto = s.startRevert k upto := by
  rw [revertTo_idle hleads hrun hok hcommit hrev, if_neg (by omega), if_pos hgo]

theorem revertTo_limit (hlim : 0 < (s.g k).rlim ∧ (s.g k).rlim ≤ (s.g k).revcnt) : s.revertTo k host upto = s.haltAll k 7 := by
  rw [revertTo_idle hleads hrun hok hcommit hrev, if_pos (by omega)]

theorem revertTo_manual (hlim : (s.g k).rlim = 0 ∨ (s.g k).revcnt < (s.g k).rlim) (hgo : (host || (s.g k).autorev) = false) :
    s.revertTo k host upto = s.haltAll k 6 := by
  rw [revertTo_idle hleads hrun hok hcommit hrev, if_neg (by omega), if_neg (by rw [hgo]; decide)]
end

/-- A revert that starts: counted, with the survivors to answer, and REVERT sent (R344). -/
theorem startRevert_says (s : Pack) (k upto : Nat) :
    let g := s.g k
    let q := s.startRevert k upto
    (q.g k).takeSt = 1 ∧ (q.g k).revcnt = min 255 (g.revcnt + 1) ∧ (q.g k).ld.reverting = positions (g.mem &&& (2 ^ 64 - 1 - g.pr.gone % 2 ^ 64)) ∧
    (q.g k).sent = .revert upto g.epoch :: g.sent ∧ q.mem = s.mem := by
  intro g q
  obtain ⟨htake, hepoch, hmem⟩ := takeCounted_says g (min 255 (g.revcnt + 1))
  have hq : q.g k = ((g.setTake 1).wf (rProt 4) 15 8 (min 255 (g.revcnt + 1))).reverts upto := by
    rw [show q = _ from startRevert_eq s upto, Pack.on_g_self]
  obtain ⟨-, hsent, htake', hrevs⟩ := reverts_says ((g.setTake 1).wf (rProt 4) 15 8 (min 255 (g.revcnt + 1))) upto
  rw [hq]
  refine ⟨htake'.trans htake, ?_, ?_, ?_, rfl⟩
  · show ((g.setTake 1).wf (rProt 4) 15 8 (min 255 (g.revcnt + 1))).revcnt = _
    exact (Pkg.rf_wf_same _ _ (by decide) (by decide)).trans (Nat.mod_eq_of_lt (by omega))
  · rw [hrevs, hmem]
    rfl
  · rw [hsent, hepoch]
    rfl

/-- A revert that starts anew (R346). -/
theorem restartRevert_says (s : Pack) (k : Nat) :
    let g := s.g k
    let q := s.restartRevert k
    (q.g k).ld.reverting = positions (g.mem &&& (2 ^ 64 - 1 - g.pr.gone % 2 ^ 64)) ∧ (q.g k).revcnt = g.revcnt ∧
    (q.g k).sent = .revert (s.sealTop k) g.epoch :: g.sent ∧ q.mem = s.mem := by
  intro g q
  rw [show q = _ from restartRevert_eq s, Pack.on_g_self]
  exact ⟨rfl, rfl, rfl, rfl⟩

/-! REVERT_DONE, RECLAIM, holder reports -/

section
variable {s : Pack} {k p step : Nat}

/-- What a REVERT_DONE leaves of the leader. -/
def Pkg.doneBy (g : Pkg) (p : Nat) (wait : Bool) : Pkg :=
  let l := g.ld.reverting.filter (· != p)
  let was := g.ld.reverting
  let g := { g with ld := { g.ld with reverting := l } }
  if l.isEmpty && !was.isEmpty then g.setTake (if g.pr.gone &&& g.mem ≠ 0 then 2 else if wait then 5 else 0) else g

theorem revertDone_eq (hleads : (s.g k).leads = true) (hstep : step = (s.g k).sealed) :
    s.revertDone k p step = s.on k (fun _ => (s.g k).doneBy p (s.owesHost k)) := by
  unfold Pack.revertDone
  dsimp only
  rw [if_neg (by simp [hleads, hstep])]
  rfl

theorem revertDone_other (h : (s.g k).leads = false ∨ step ≠ (s.g k).sealed) : s.revertDone k p step = s := by
  unfold Pack.revertDone
  dsimp only
  exact if_pos (by simpa using h)

theorem takeSt_setTake {g : Pkg} {n : Nat} (h : n < 8) : (g.setTake n).takeSt = n :=
  (Pkg.rf_wf_same _ _ (by decide) (by decide)).trans (Nat.mod_eq_of_lt h)

theorem doneBy_says (g : Pkg) (p : Nat) (wait : Bool) : (g.doneBy p wait).ld.reverting = g.ld.reverting.filter (· != p) ∧
    (g.doneBy p wait).takeSt = (if g.ld.reverting.filter (· != p) = [] ∧ g.ld.reverting ≠ [] then
      (if g.pr.gone &&& g.mem ≠ 0 then 2 else if wait = true then 5 else 0) else g.takeSt) ∧ (g.doneBy p wait).sent = g.sent := by
  unfold Pkg.doneBy
  extract_lets l was h
  by_cases hc : l = [] ∧ was ≠ []
  · rw [if_pos (by simpa using hc), if_pos hc]
    refine ⟨rfl, ?_, rfl⟩
    rw [takeSt_setTake]
    · rfl
    · split
      · decide
      · split <;> decide
  · rw [if_neg (by simpa using hc), if_neg hc]
    exact ⟨rfl, rfl, rfl⟩

/-- Holder reports go out to the homes of the survivors (R322, step 2). -/
theorem reports_sent (l : List Nat) : ∀ g : Pkg,
    let q := l.foldl (fun g p => (g.holderReport p).foldl (fun g x => g.send (.holderReport { pos := g.pos, qid := x.1, n := x.2 })) g) g
    (∃ sent, q = { g with sent := sent }) ∧ (∀ m ∈ g.sent, m ∈ q.sent) ∧
    ∀ h ∈ l, ∀ x ∈ g.holderReport h, Msg.holderReport { pos := g.pos, qid := x.1, n := x.2 } ∈ q.sent := by
  have hone : ∀ (xs : List (Nat × Nat)) (g : Pkg),
      let q := xs.foldl (fun g x => g.send (.holderReport { pos := g.pos, qid := x.1, n := x.2 })) g
      (∃ sent, q = { g with sent := sent }) ∧ (∀ m ∈ g.sent, m ∈ q.sent) ∧ ∀ x ∈ xs, Msg.holderReport { pos := g.pos, qid := x.1, n := x.2 } ∈ q.sent := by
    intro xs
    induction xs with
    | nil => exact fun g => ⟨⟨g.sent, rfl⟩, fun m hm => hm, fun x hx => absurd hx List.not_mem_nil⟩
    | cons x xs ih =>
      intro g
      obtain ⟨⟨sent, hq⟩, hkept, hall⟩ := ih (g.send (.holderReport { pos := g.pos, qid := x.1, n := x.2 }))
      refine ⟨⟨sent, hq⟩, fun m hm => hkept m (List.mem_cons_of_mem _ hm), fun y hy => ?_⟩
      rcases List.mem_cons.mp hy with rfl | hy
      · exact hkept _ List.mem_cons_self
      · exact hall y hy
  induction l with
  | nil => exact fun g => ⟨⟨g.sent, rfl⟩, fun m hm => hm, fun x hx => absurd hx List.not_mem_nil⟩
  | cons p l ih =>
    intro g
    obtain ⟨⟨sent1, hq1⟩, hkept1, hall1⟩ := hone (g.holderReport p) g
    obtain ⟨⟨sent, hq⟩, hkept, hall⟩ := ih ((g.holderReport p).foldl (fun g x => g.send (.holderReport { pos := g.pos, qid := x.1, n := x.2 })) g)
    refine ⟨⟨sent, ?_⟩, fun m hm => hkept m (hkept1 m hm), fun h hh x hx => ?_⟩
    · rw [List.foldl_cons, hq, hq1]
    · rcases List.mem_cons.mp hh with rfl | hh
      · exact hkept _ (hall1 x hx)
      · have hpos : ((g.holderReport p).foldl (fun g x => g.send (.holderReport { pos := g.pos, qid := x.1, n := x.2 })) g).pos = g.pos := by
          rw [hq1]
          rfl
        rw [← hpos]
        refine hall h hh x ?_
        rw [hq1]
        exact hx

/-- A member that has taken RECLAIM: its shares of every survivor's queues are reported. -/
theorem takeReclaim_says {g : Pkg} (hstep : step = g.sealed) (hassigned : g.assigned = true) (hparted : g.parted = false) :
    let survivors := positions (g.mem &&& (2 ^ 64 - 1 - g.pr.gone % 2 ^ 64))
    let q := g.takeReclaim step
    q.rb (rLedger 0) 30 = true ∧ q.ld = g.ld ∧ (∀ m ∈ g.sent, m ∈ q.sent) ∧
    ∀ h ∈ survivors, ∀ x ∈ g.holderReport h, Msg.holderReport { pos := g.pos, qid := x.1, n := x.2 } ∈ q.sent := by
  intro survivors q
  have hrd (a : Nat) (ha : a ≠ rLedger 0) : (g.wb (rLedger 0) 30 true).rd a = g.rd a := Pkg.wr_rd_ne _ _ ha
  have hmem : (g.wb (rLedger 0) 30 true).mem = g.mem := mem_of_rd (hrd _ (by decide)) (hrd _ (by decide))
  have hpos : (g.wb (rLedger 0) 30 true).pos = g.pos := congrArg (fld · 5 0) (hrd _ (by decide))
  have hq : q = survivors.foldl (fun g p => (g.holderReport p).foldl (fun g x => g.send (.holderReport { pos := g.pos, qid := x.1, n := x.2 })) g)
      (g.wb (rLedger 0) 30 true) := by
    show g.takeReclaim step = _
    unfold Pkg.takeReclaim
    dsimp only
    rw [if_neg (by simp [hstep, hassigned, hparted]), hmem]
    rfl
  obtain ⟨⟨sent, hall⟩, hkept, hsent⟩ := reports_sent survivors (g.wb (rLedger 0) 30 true)
  rw [← hq] at hall hkept hsent
  rw [hpos] at hsent
  refine ⟨?_, ?_, hkept, hsent⟩
  · rw [hall]
    exact Pkg.rb_wb_same _ _ _ (by decide)
  · rw [hall]
    rfl
end

end Sys2Proof.Machine
end

section
/-! PROOFS. Reverts: RECLAIM and holder reports -/

namespace Sys2Proof.Machine

/-! ## RECLAIM, and what failed dies held -/

section
variable {s : Pack} {k p step : Nat}

/-- The leader counts a reclaim where none runs. -/
def Pkg.countsReclaim (g : Pkg) : Pkg := if g.leads && !g.parted && g.ld.reclaiming.isEmpty then g.startReclaim else g

theorem countsReclaim_rd (g : Pkg) {a : Nat} (ha : a ≠ rLedger 0) : g.countsReclaim.rd a = g.rd a := by
  unfold Pkg.countsReclaim
  split
  · exact Pkg.wr_rd_ne _ _ ha
  · rfl

theorem countsReclaim_keeps (g : Pkg) : g.countsReclaim.pr = g.pr ∧ ∀ h, g.countsReclaim.holderReport h = g.holderReport h := by
  unfold Pkg.countsReclaim
  split
  · exact ⟨rfl, fun _ => rfl⟩
  · exact ⟨rfl, fun _ => rfl⟩

/-- RECLAIM at a member (R322, steps 1 and 2). -/
theorem reclaim_says (hstep : step = (s.g k).sealed) (hassigned : (s.g k).assigned = true) (hparted : (s.g k).parted = false) :
    let g := s.g k
    let survivors := positions (g.mem &&& (2 ^ 64 - 1 - g.pr.gone % 2 ^ 64))
    let q := s.reclaim k step
    (q.g k).rb (rLedger 0) 30 = true ∧ q.mem = s.mem ∧
    (∀ h ∈ survivors, ∀ x ∈ g.holderReport h, Msg.holderReport { pos := g.pos, qid := x.1, n := x.2 } ∈ (q.g k).sent) ∧
    (g.leads = true → g.ld.reclaiming = [] → (q.g k).ld.reclaiming = survivors ∧ Msg.reclaim step ∈ (q.g k).sent) := by
  intro g survivors q
  have hq : q.g k = g.countsReclaim.takeReclaim step := by
    show ((s.on k Pkg.countsReclaim).on k (fun g => g.takeReclaim step)).g k = _
    rw [Pack.on_g_self, Pack.on_g_self]
  have hrd (a : Nat) (ha : a ≠ rLedger 0) := countsReclaim_rd g ha
  obtain ⟨hpr, hreport⟩ := countsReclaim_keeps g
  have hstat := hrd rSealStat (by decide)
  have hmem : g.countsReclaim.mem = g.mem := mem_of_rd (hrd _ (by decide)) (hrd _ (by decide))
  have hpos : g.countsReclaim.pos = g.pos := congrArg (fld · 5 0) (hrd _ (by decide))
  obtain ⟨hled, hld, hkept, hsent⟩ := takeReclaim_says (g := g.countsReclaim) (step := step)
    (by rw [hstep, Pkg.sealed, Pkg.sealed, hrd _ (by decide)])
    ((congrArg (bit · 6) (hrd rPackId (by decide))).trans hassigned)
    (by
      rw [← hparted]
      unfold Pkg.parted Pkg.phase Pkg.rf
      rw [hstat])
  rw [hpr, hmem, hpos] at hsent
  rw [hq]
  refine ⟨hled, rfl, fun h hh x hx => hsent h hh x (by rw [hreport]; exact hx), fun hleads hnone => ?_⟩
  have hstart : g.countsReclaim = g.startReclaim := if_pos (by simp [hleads, hparted, hnone, g])
  refine ⟨?_, hkept _ ?_⟩
  · rw [hld, hstart]
    rfl
  · rw [hstart, hstep]
    exact List.mem_cons_self
end

/-! What is written off -/

section
variable (g : Pkg)

/-- One failed die's holdings are written off. -/
def Pkg.writeOffDie (g : Pkg) (x : Nat) : Pkg :=
  if g.siteSt x = .active then g
  else
    let n := ((g.tok.filter (fun p => p.1 / 4096 == x)).map (fun p => p.2.count)).foldl (· + ·) 0
    let h := ((g.ctab.filter (fun p => p.1 / 64 == x)).flatMap (fun p => p.2.map (·.n))).foldl (· + ·) 0
    let qs := g.liveQueues.filter (fun p => p.1 == x)
    let e := (qs.map (fun p => let i := g.ix p.1 p.2; ringDist i.p i.l + g.outc p.1 p.2)).foldl (· + ·) 0
    let g := qs.foldl (fun g p => (g.wr (rQ p.1 p.2 0) (setF (setB (g.rd (rQ p.1 p.2 0)) 31 false) 30 29 0)).setCred p.1 p.2 0 0) g
    { (g.addSat (rRecl 4) (n + h + e)) with
      tok := g.tok.filter (fun p => p.1 / 4096 != x), ctab := g.ctab.filter (fun p => p.1 / 64 != x) }

theorem writeOffDies_eq : g.writeOffDies = (List.range 48).foldl (fun g x => g.writeOffDie x) g := rfl

theorem writeOffDie_sites (x : Nat) : (g.writeOffDie x).sites = g.sites := by
  unfold Pkg.writeOffDie
  split
  · rfl
  · exact foldl_keeps (P := Pkg.sites) (by intro _ _; rfl) _ _

theorem writeOffDie_tok (x : Nat) : (g.writeOffDie x).tok = if g.siteSt x = .active then g.tok else g.tok.filter (fun p => p.1 / 4096 != x) := by
  unfold Pkg.writeOffDie
  split
  · rfl
  · exact congrArg (List.filter _) (foldl_keeps (P := Pkg.tok) (by intro _ _; rfl) _ _)

theorem writeOffDie_sent (x : Nat) : (g.writeOffDie x).sent = g.sent := by
  unfold Pkg.writeOffDie
  split
  · rfl
  · exact foldl_keeps (P := Pkg.sent) (by intro _ _; rfl) _ _

/-- No counter of a failed die stands any longer. -/
theorem writeOffDies_tok : ∀ (l : List Nat) (g : Pkg), (l.foldl (fun g x => g.writeOffDie x) g).sites = g.sites ∧
    ∀ e ∈ (l.foldl (fun g x => g.writeOffDie x) g).tok, e ∈ g.tok ∧ ∀ x ∈ l, g.siteSt x ≠ .active → e.1 / 4096 ≠ x
  | [], g => ⟨rfl, fun e he => ⟨he, fun x hx => absurd hx List.not_mem_nil⟩⟩
  | y :: l, g => by
    obtain ⟨hsites, htok⟩ := writeOffDies_tok l (g.writeOffDie y)
    refine ⟨hsites.trans (writeOffDie_sites g y), fun e he => ?_⟩
    obtain ⟨hin, hout⟩ := htok e he
    rw [writeOffDie_tok] at hin
    have hsame (x : Nat) : (g.writeOffDie y).siteSt x = g.siteSt x := by rw [Pkg.siteSt, writeOffDie_sites, Pkg.siteSt]
    by_cases hy : g.siteSt y = .active
    · rw [if_pos hy] at hin
      refine ⟨hin, fun x hx hdead => ?_⟩
      rcases List.mem_cons.mp hx with rfl | hx
      · exact absurd hy hdead
      · exact hout x hx (by rw [hsame]; exact hdead)
    · rw [if_neg hy] at hin
      obtain ⟨hin, hne⟩ := List.mem_filter.mp hin
      refine ⟨hin, fun x hx hdead => ?_⟩
      rcases List.mem_cons.mp hx with rfl | hx
      · simpa using hne
      · exact hout x hx (by rw [hsame]; exact hdead)

theorem mget_notMem {α : Type} (d : α) {i : Nat} : ∀ {m : Map α}, (∀ e ∈ m, e.1 ≠ i) → mget d m i = d
  | [], _ => rfl
  | (j, x) :: m, h => by
    show (if j = i then x else mget d m i) = d
    rw [if_neg (h (j, x) List.mem_cons_self)]
    exact mget_notMem d fun e he => h e (List.mem_cons_of_mem _ he)

theorem writeOff_keeps : g.writeOff.tok = g.writeOffDies.tok ∧ g.writeOff.sent = g.sent := by
  unfold Pkg.writeOff
  have hdies : g.writeOffDies.sent = g.sent := by
    rw [writeOffDies_eq]
    exact foldl_keeps (P := Pkg.sent) writeOffDie_sent _ _
  refine ⟨foldl_keeps (P := Pkg.tok) (fun g p => ?_) _ _, (foldl_keeps (P := Pkg.sent) (fun g p => ?_) _ _).trans hdies⟩
  · dsimp only
    split <;> rfl
  · dsimp only
    split <;> rfl

/-- What a die that is out held is gone. -/
theorem writeOff_tk {x u c : Nat} (hx : x < 48) (hdead : g.siteSt x ≠ .active) (hu : u < 64) (hc : c < 64) : g.writeOff.tk x u c = {} := by
  obtain ⟨-, htok⟩ := writeOffDies_tok (List.range 48) g
  unfold Pkg.tk
  rw [(writeOff_keeps g).1, writeOffDies_eq]
  refine mget_notMem _ fun e he => ?_
  have hne := (htok e he).2 x (List.mem_range.mpr hx) hdead
  unfold ck uk
  omega
end

section
variable {g : Pkg} {p : Nat} {rs : List (Nat × Nat)}

/-- The home with one more report. -/
def Pkg.reportedBy (g : Pkg) (p : Nat) (rs : List (Nat × Nat)) : Pkg := { g with pr := { g.pr with reps := (p, rs) :: g.pr.reps.filter (fun x => x.1 != p) } }

theorem takeReport_none (h : g.rb (rLedger 0) 30 = false) : g.takeReport p rs = g := if_pos (by simp [h])

theorem takeReport_eq (h : g.rb (rLedger 0) 30 = true) : g.takeReport p rs =
    if (positions (g.mem &&& (2 ^ 64 - 1 - g.pr.gone % 2 ^ 64))).all (fun q => ((p, rs) :: g.pr.reps.filter (fun x => x.1 != p)).any (fun x => x.1 == q)) then
      { (g.reportedBy p rs).writeOff with pr := { (g.reportedBy p rs).writeOff.pr with reps := [] } }.send (.reclaimDone g.pos)
    else g.reportedBy p rs := by
  have hmem : (g.reportedBy p rs).mem = g.mem := rfl
  have hgone : (g.reportedBy p rs).pr.gone = g.pr.gone := rfl
  have hpos : (g.reportedBy p rs).pos = g.pos := rfl
  unfold Pkg.takeReport
  extract_lets +onlyGivenNames l pr h1
  rw [if_neg (by simp [h]), show h1 = g.reportedBy p rs from rfl, hmem, hgone, hpos, show l = (p, rs) :: g.pr.reps.filter (fun x => x.1 != p) from rfl]

theorem reported_any (g : Pkg) (q : Nat) : ((p, rs) :: g.pr.reps.filter (fun x => x.1 != p)).any (fun x => x.1 == q) = true ↔ q = p ∨ ∃ x ∈ g.pr.reps, x.1 = q := by
  rw [List.any_eq_true]
  constructor
  · rintro ⟨x, hx, hq⟩
    rcases List.mem_cons.mp hx with rfl | hx
    · exact .inl (beq_iff_eq.mp hq).symm
    · exact .inr ⟨x, (List.mem_filter.mp hx).1, beq_iff_eq.mp hq⟩
  · rintro (rfl | ⟨x, hx, rfl⟩)
    · exact ⟨_, List.mem_cons_self, by simp⟩
    · by_cases hp : x.1 = p
      · exact ⟨_, List.mem_cons_self, by simp [hp]⟩
      · exact ⟨x, List.mem_cons_of_mem _ (List.mem_filter.mpr ⟨hx, by simpa using hp⟩), by simp⟩

theorem takeReport_partial (h : g.rb (rLedger 0) 30 = true)
    (hone : ∃ h ∈ positions (g.mem &&& (2 ^ 64 - 1 - g.pr.gone % 2 ^ 64)), h ≠ p ∧ ∀ x ∈ g.pr.reps, x.1 ≠ h) : g.takeReport p rs = g.reportedBy p rs := by
  obtain ⟨q, hq, hne, hnone⟩ := hone
  rw [takeReport_eq h, if_neg]
  intro hall
  rcases (reported_any g q).mp (List.all_eq_true.mp hall q hq) with heq | ⟨x, hx, heq⟩
  · exact hne heq
  · exact hnone x hx heq

theorem takeReport_full (h : g.rb (rLedger 0) 30 = true)
    (hall : ∀ h ∈ positions (g.mem &&& (2 ^ 64 - 1 - g.pr.gone % 2 ^ 64)), h = p ∨ ∃ x ∈ g.pr.reps, x.1 = h) : g.takeReport p rs =
      { (g.reportedBy p rs).writeOff with pr := { (g.reportedBy p rs).writeOff.pr with reps := [] } }.send (.reclaimDone g.pos) := by
  rw [takeReport_eq h, if_pos]
  exact List.all_eq_true.mpr fun q hq => (reported_any g q).mpr (hall q hq)
end

end Sys2Proof.Machine
end

section
/-! PROOFS. Reverts: RECLAIM_DONE -/

namespace Sys2Proof.Machine

/-! ## RECLAIM_DONE at the leader -/

section
variable {s : Pack} {k p : Nat}

/-- The leader strikes a home that has answered. -/
def Pkg.struck (g : Pkg) (p : Nat) : Pkg := { g with ld := { g.ld with reclaiming := g.ld.reclaiming.filter (· != p) } }

theorem reclaimDone_other (h : (s.g k).leads = false ∨ (s.g k).parted = true ∨ p ∉ (s.g k).ld.reclaiming) : s.reclaimDone k p = s := by
  unfold Pack.reclaimDone
  dsimp only
  refine if_pos ?_
  rcases h with h | h | h
  · exact .inl (by simp [h])
  · exact .inr (.inl h)
  · exact .inr (.inr (by simpa using h))

theorem struck_placed (g : Pkg) (p : Nat) : g.Placed (g.struck p) := .of_rd fun _ _ => rfl

variable (hleads : (s.g k).leads = true) (hparted : (s.g k).parted = false) (hin : p ∈ (s.g k).ld.reclaiming)
include hleads hparted hin

theorem reclaimDone_eq : s.reclaimDone k p =
    if ((s.g k).ld.reclaiming.filter (· != p)) ≠ [] then s.on k (fun g => g.struck p)
    else (s.members k).foldl (fun s j => if (s.g j).pr.rev = 1 ∧ !(s.g j).parted then s.revertActions j 4 else s) (s.on k (fun g => g.struck p)) := by
  have hmembers : (s.on k (fun g => g.struck p)).members k = s.members k := members_on (struck_placed ..)
  unfold Pack.reclaimDone
  extract_lets g l t
  rw [if_neg (by simp [g, hleads, hparted, hin])]
  have ht : t = s.on k (fun g => g.struck p) := by
    unfold Pack.on
    rfl
  rw [ht, hmembers]
  by_cases hl : l = []
  · rw [if_neg (by simp [hl]), if_neg (not_not.mpr hl)]
  · rw [if_pos (by simpa using hl), if_pos hl]

/-- One answer of several, or none that waits for the reclaim: the home is struck. -/
theorem reclaimDone_strikes (h : (∃ h ∈ (s.g k).ld.reclaiming, h ≠ p) ∨ ∀ j ∈ s.members k, (s.g j).pr.rev ≠ 1) :
    s.reclaimDone k p = s.on k (fun g => g.struck p) := by
  rw [reclaimDone_eq hleads hparted hin]
  split
  · rfl
  · next hl =>
    have hnone : ∀ j ∈ s.members k, (s.g j).pr.rev ≠ 1 := h.resolve_left fun ⟨q, hq, hne⟩ =>
      absurd (List.mem_filter.mpr ⟨hq, by simpa using hne⟩) (not_not.mp hl ▸ List.not_mem_nil)
    have hkeep : ∀ j ∈ s.members k, ((s.on k (fun g => g.struck p)).g j).pr.rev ≠ 1 := fun j hj => by
      rw [Pack.on_keeps (P := fun g : Pkg => g.pr.rev) s k j rfl]
      exact hnone j hj
    generalize s.on k (fun g => g.struck p) = t at hkeep ⊢
    generalize s.members k = ms at hkeep ⊢
    induction ms with
    | nil => rfl
    | cons j ms ih =>
      rw [List.foldl_cons, if_neg fun hc => hkeep j List.mem_cons_self hc.1]
      exact ih fun i hi => hkeep i (List.mem_cons_of_mem _ hi)

/-- The last answer of a pack of one, whose member waits for the reclaim: it reverts (R344). -/
theorem reclaimDone_reverts (hall : ∀ h ∈ (s.g k).ld.reclaiming, h = p) (halone : s.members k = [k]) (hrev : (s.g k).pr.rev = 1)
    (hrepair : (s.g k).pr.repair = []) (hne : ¬ ((s.g k).phase = 4 ∧ (s.g k).cause = 8)) :
    let q := s.reclaimDone k p
    (q.g k).phase = 3 ∧ (q.g k).pr.rev = 0 ∧ (q.g k).ld.reclaiming = [] ∧ (q.g k).sent.head? = some (.revertDone (s.g k).pos (s.g k).sealed) := by
  have hl : (s.g k).ld.reclaiming.filter (· != p) = [] := List.filter_eq_nil_iff.mpr fun q hq => by simp [hall q hq]
  have hself : (s.on k (fun g => g.struck p)).g k = (s.g k).struck p := Pack.on_g_self ..
  obtain ⟨hphase, -, hrev0, -, -, hsent, hld⟩ := revertActions_says (s := s.on k (fun g => g.struck p)) (k := k) 4 (by rw [hself]; exact hrepair) (by rw [hself]; exact hne)
  intro q
  have hq : q = (s.on k (fun g => g.struck p)).revertActions k 4 := by
    show s.reclaimDone k p = _
    rw [reclaimDone_eq hleads hparted hin, if_neg (not_not.mpr hl), halone, List.foldl_cons, List.foldl_nil, hself]
    exact if_pos ⟨hrev, by rw [show ((s.g k).struck p).parted = false from hparted]; rfl⟩
  rw [hq]
  refine ⟨hphase, hrev0, ?_, ?_⟩
  · rw [hld, hself]
    exact hl
  · rw [hsent, hself]
    rfl
end

end Sys2Proof.Machine
end

section
/-! PROOFS. Reverts: what a write of PROT.CTL commands -/

namespace Sys2Proof.Machine

/-! ## PROT.CTL -/

/-- PROT.CTL's plain fields are written (R340, R343). -/
def Pkg.controlled (g : Pkg) (v : W32) : Pkg :=
  let g := g.wb (rProt 0) 30 (g.rb (rProt 0) 30 && !bit v 30)
  let g := (g.wf (rProt 0) 29 24 (fld v 29 24)).wf (rProt 0) 19 17 (fld v 19 17)
  g.wf (rProt 0) 15 2 (fld v 15 2)

section
variable (g : Pkg) (v : W32)

theorem controlled_rd {a : Nat} (h : a ≠ rProt 0) : (g.controlled v).rd a = g.rd a := by
  unfold Pkg.controlled
  dsimp only
  rw [Pkg.rd_wf, if_neg h, Pkg.rd_wf, if_neg h, Pkg.rd_wf, if_neg h, Pkg.rd_wb, if_neg h]

theorem controlled_word : (g.controlled v).rd (rProt 0) =
    setF (setF (setF (setB (g.rd (rProt 0)) 30 (g.rb (rProt 0) 30 && !bit v 30)) 29 24 (fld v 29 24)) 19 17 (fld v 19 17)) 15 2 (fld v 15 2) := by
  unfold Pkg.controlled
  dsimp only
  rw [Pkg.rd_wf, if_pos rfl, Pkg.rd_wf, if_pos rfl, Pkg.rd_wf, if_pos rfl, Pkg.rd_wb, if_pos rfl]

theorem controlled_high {i : Nat} (h : 24 ≤ i ∧ i ≤ 29) : (g.controlled v).rb (rProt 0) i = bit v i := by
  rw [Pkg.rb, controlled_word, bit_setF_apart _ _ (by decide) (by decide) (.inr (by omega)), bit_setF_apart _ _ (by decide) (by decide) (.inr (by omega)),
    bit_setF_fld _ _ (by decide) h]

/-- AUTOREV, AUTOTK, RLIM and MIRV as they are written. -/
theorem controlled_says : (g.controlled v).autorev = bit v 29 ∧ (g.controlled v).autotk = bit v 28 ∧ (g.controlled v).rlim = fld v 27 24 ∧
    (g.controlled v).mirv = bit v 17 := by
  refine ⟨controlled_high g v (by decide), controlled_high g v (by decide), ?_, ?_⟩
  · refine Nat.eq_of_testBit_eq fun i => ?_
    rw [Pkg.rlim, Pkg.rf, testBit_fld, testBit_fld]
    by_cases hi : i < 4
    · rw [show bit ((g.controlled v).rd (rProt 0)) (24 + i) = bit v (24 + i) from controlled_high g v (by omega)]
    · simp [show ¬ i < 27 + 1 - 24 by omega]
  · rw [Pkg.mirv, Pkg.rb, controlled_word, bit_setF_apart _ _ (by decide) (by decide) (.inr (by decide)), bit_setF_fld _ _ (by decide) (by decide)]
end

/-- Two states of a package that differ in PROT.CTL only stand alike in the pack. -/
theorem placed_of_prot {g h : Pkg} (hrd : ∀ a, a ≠ rProt 0 → h.rd a = g.rd a) : g.Placed h := by
  have hport (n : Nat) : h.portState n = g.portState n := congrArg (fld · 30 28) (hrd _ (rPort_ne_hubR n (by decide : 0 < 0x1000) 0x40000))
  have hup : h.upPorts = g.upPorts := by
    unfold Pkg.upPorts
    simp only [hport]
  have hub (o : Nat) (ho : o < 0x40000) : h.rd (hubR o) = g.rd (hubR o) := hrd _ (by unfold rProt hubR rk; omega)
  refine ⟨congrArg (bit · 6) (hub 0x7000 (by decide)), congrArg (fld · 5 0) (hub 0x7000 (by decide)), mem_of_rd (hub 0x7008 (by decide)) (hub 0x700C (by decide)), hup, fun p hp => ?_⟩
  unfold Pkg.effMask Pkg.rf Pkg.rb
  rw [hub _ (by omega), hub _ (by omega), hup]

section
variable {s : State} {k : Nat} {w : W32} {x : WrX} {P : Pack → Prop}

/-- The pack in which a write of PROT.CTL has landed, before its commands. -/
def Pack.landed (s : Pack) (k : Nat) (w : W32) : Pack := (s.on k (fun g => g.arrived (rProt 0))).on k (fun g => g.controlled w)

theorem landed_g (s : Pack) (k : Nat) (w : W32) : (s.landed k w).g k = ((s.g k).arrived (rProt 0)).controlled w := by
  rw [Pack.landed, Pack.on_g_self, Pack.on_g_self]

theorem landed_rd (s : Pack) (k : Nat) (w : W32) {a : Nat} (h : a ≠ rProt 0) : ((s.landed k w).g k).rd a = (s.g k).rd a := by
  rw [landed_g, controlled_rd _ _ h, Pkg.arrived_rd]

/-- What a package that has taken a write of PROT.CTL still is. -/
theorem landed_keeps (s : Pack) (k : Nat) (w : W32) : ((s.landed k w).g k).pr = (s.g k).pr ∧ ((s.landed k w).g k).ld = (s.g k).ld ∧
    ((s.landed k w).g k).sent = (s.g k).sent := by
  rw [landed_g]
  exact ⟨rfl, rfl, rfl⟩

theorem landed_members (s : Pack) (k : Nat) (w : W32) : (s.landed k w).members k = s.members k :=
  (members_on (placed_of_prot fun a ha => by rw [controlled_rd _ _ ha])).trans (members_on (placed_of_prot fun a _ => Pkg.arrived_rd ..))

/-- The registers by which a package stands in its pack. -/
theorem landed_stands (s : Pack) (k : Nat) (w : W32) :
    let g := s.g k
    let h := (s.landed k w).g k
    h.leads = g.leads ∧ h.assigned = g.assigned ∧ h.pos = g.pos ∧ h.mem = g.mem ∧ h.epoch = g.epoch ∧ h.phase = g.phase ∧ h.cause = g.cause ∧ h.sealed = g.sealed ∧
    h.step = g.step ∧ h.takeSt = g.takeSt ∧ h.revcnt = g.revcnt ∧ h.mode = g.mode ∧ h.lready = g.lready := by
  intro g h
  have hrd (a : Nat) (ha : a ≠ rProt 0) : h.rd a = g.rd a := landed_rd s k w ha
  have hmem : h.mem = g.mem := mem_of_rd (hrd _ (by decide)) (hrd _ (by decide))
  have hseal : h.sealed = g.sealed := congrArg BitVec.toNat (hrd _ (by decide))
  have hid := hrd rPackId (by decide)
  have hmode : h.mode = g.mode := congrArg (fld · 1 0) (hrd _ (by decide))
  refine ⟨congrArg (bit · 7) hid, congrArg (bit · 6) hid, congrArg (fld · 5 0) hid, hmem, congrArg (fld · 15 0) (hrd _ (by decide)), congrArg (fld · 2 0) (hrd _ (by decide)),
    congrArg (fld · 15 8) (hrd _ (by decide)), hseal, by rw [Pkg.step, hseal, Pkg.step], congrArg (fld · 31 29) (hrd _ (by decide)),
    congrArg (fld · 15 8) (hrd _ (by decide)), hmode, ?_⟩
  have hmbt (n : Nat) (hn : n < 512) : h.mbValid n = g.mbValid n := congrArg (bit · 28) (hrd (rMbt n 0) (by unfold rMbt rProt hubR rk; omega))
  have hany : (List.range 512).any (fun n => h.mbValid n) = (List.range 512).any (fun n => g.mbValid n) := by
    rw [Bool.eq_iff_iff]
    simp only [List.any_eq_true, List.mem_range]
    exact ⟨fun ⟨n, hn, hv⟩ => ⟨n, hn, hmbt n hn ▸ hv⟩, fun ⟨n, hn, hv⟩ => ⟨n, hn, (hmbt n hn).symm ▸ hv⟩⟩
  unfold Pkg.lready
  rw [hmem, hmode, hany, show h.assigned = g.assigned from congrArg (bit · 6) hid, show h.pos = g.pos from congrArg (fld · 5 0) hid]

theorem lands_protCtl (h : P ((s.pack.on k (fun g => g.arrived (rProt 0))).protCtl k w x.cuts x.crc)) :
    Lands s k { key := rProt 0, site := 62, off := 0x40000, v := w, x := x } P := fun site off hkey hdue =>
  ⟨_, gives_postedWriteComplete (b := .prot) (o := 0) hkey (by decide : ¬ (hubR 0x30000 ≤ rProt 0 ∧ rProt 0 < hubR 0x40000)) hdue (by decide : blockOf 62 0x40000 = some (.prot, 0)), h⟩

section
variable (s : Pack) (k : Nat) (w : W32) (cs : List Cut) (crc : Bool) (h20 : bit w 20 = false)
include h20

theorem protCtl_revert (h23 : bit w 23 = true) (h22 : bit w 22 = false) (h21 : bit w 21 = false) :
    (s.on k (fun g => g.arrived (rProt 0))).protCtl k w cs crc = (s.landed k w).revertRequest k true := by
  unfold Pack.protCtl
  simp only [h23, h22, h21, h20, ite_true, ite_false, Bool.false_eq_true]
  rfl

theorem protCtl_restore (h23 : bit w 23 = false) (h22 : bit w 22 = true) (h21 : bit w 21 = false) :
    (s.on k (fun g => g.arrived (rProt 0))).protCtl k w cs crc = (s.landed k w).restore k cs crc := by
  unfold Pack.protCtl
  simp only [h23, h22, h21, h20, ite_true, ite_false, Bool.false_eq_true]
  rfl

theorem protCtl_unassign (h23 : bit w 23 = false) (h22 : bit w 22 = false) (h21 : bit w 21 = true) :
    (s.on k (fun g => g.arrived (rProt 0))).protCtl k w cs crc = (s.landed k w).on k Pkg.unassign := by
  unfold Pack.protCtl
  simp only [h23, h22, h21, h20, ite_true, ite_false, Bool.false_eq_true]
  rfl
end

/-- A privileged master's write of PROT.CTL is posted (R379). -/
theorem gives_protCtl {m : Master} {v : W32} {c : Instr} (hw : Writable s.pack k m 62 0x40000 .prot 0) (hm : m.priv = true)
    (hc : exec c s = .next (s.onPack (fun s => s.busWrite k m 62 0x40000 v x))) :
    Gives c s (s.pack.posted k { key := rProt 0, site := 62, off := 0x40000, v := v, x := x }) :=
  gives_of_onPack hc ((busWrite_served hw).trans (regWrite_posts_priv hm rfl rfl (hw.idle _ rfl) (by decide)))

/-- REVERT at a package that does not lead has no effect but on the plain fields (R343). -/
theorem revert_idle (hleads : (s.pack.g k).leads = false) : (s.pack.landed k w).revertRequest k true = s.pack.landed k w := by
  have h := (landed_stands s.pack k w).1
  unfold Pack.revertRequest Pack.revertTo
  dsimp only
  exact if_pos (.inl (by rw [h, hleads]; rfl))

/-- REVERT at the leader starts a revert, by RLIM as it is written (R343, R344). -/
theorem revert_lands (hleads : (s.pack.g k).leads = true) (hrun : ¬ ((s.pack.g k).phase = 4 ∧ (s.pack.g k).cause = 0xA))
    (hok : ¬ ((s.pack.g k).phase = 4 ∧ (s.pack.g k).cause = 5)) (hcommit : (s.pack.g k).committing = false) (hrev : (s.pack.g k).ld.reverting = [])
    (hlim : fld w 27 24 = 0 ∨ (s.pack.g k).revcnt < fld w 27 24) :
    let g := s.pack.g k
    let q := (s.pack.landed k w).revertRequest k true
    (q.g k).takeSt = 1 ∧ (q.g k).revcnt = min 255 (g.revcnt + 1) ∧ (q.g k).ld.reverting = positions (g.mem &&& (2 ^ 64 - 1 - g.pr.gone % 2 ^ 64)) ∧
    (q.g k).sent = .revert g.sealed g.epoch :: g.sent ∧ q.mem = s.pack.mem := by
  intro g q
  obtain ⟨lleads, -, -, lmem, lepoch, lphase, lcause, lsealed, lstep, -, lrevcnt, -, -⟩ := landed_stands s.pack k w
  obtain ⟨lpr, lld, lsent⟩ := landed_keeps s.pack k w
  have lrlim : ((s.pack.landed k w).g k).rlim = fld w 27 24 := by rw [landed_g, (controlled_says _ w).2.2.1]
  have hq : q = (s.pack.landed k w).startRevert k ((s.pack.landed k w).g k).sealed :=
    revertTo_starts (by rw [lleads, hleads]) (by rwa [lphase, lcause]) (by rwa [lphase, lcause])
      (by rw [Pkg.committing, lpr, lld, lstep]; exact hcommit) (by rw [lld, hrev]) (by rwa [lrlim, lrevcnt]) rfl
  obtain ⟨h1, h2, h3, h4, h5⟩ := startRevert_says (s.pack.landed k w) k ((s.pack.landed k w).g k).sealed
  rw [hq]
  exact ⟨h1, by rw [h2, lrevcnt], by rw [h3, lmem, lpr], by rw [h4, lsealed, lepoch, lsent], h5⟩

/-- UNASSIGN at a ready pack of one (R354). -/
theorem unassign_says (g : Pkg) (h : g.lready = true) : g.unassign.assigned = false ∧ g.unassign.leads = false ∧ g.unassign.epoch = 0 ∧ g.unassign.mem = 0 ∧
    g.unassign.pos = g.pos := by
  unfold Pkg.unassign
  rw [if_neg (by simp [h])]
  have hid : ((((g.wr rPackId (setF (g.rd rPackId) 7 6 0)).wf rPackEpoch 15 0 0).wr rMemLo 0).wr rMemHi 0).rd rPackId = setF (g.rd rPackId) 7 6 0 := by
    rw [Pkg.wr_rd_ne _ _ (by decide), Pkg.wr_rd_ne _ _ (by decide), Pkg.rd_wf, if_neg (by decide), Pkg.wr_rd_self]
  refine ⟨?_, ?_, ?_, ?_, ?_⟩
  · rw [Pkg.assigned, Pkg.rb, hid, bit_setF _ _ _ (by decide) (by decide), if_pos (by decide)]
    rfl
  · rw [Pkg.leads, Pkg.rb, hid, bit_setF _ _ _ (by decide) (by decide), if_pos (by decide)]
    rfl
  · rw [Pkg.epoch, Pkg.rf, Pkg.wr_rd_ne _ _ (by decide), Pkg.wr_rd_ne _ _ (by decide)]
    exact (Pkg.rf_wf_same _ _ (by decide) (by decide)).trans rfl
  · exact rd64_eq (a := 0) (b := 0) (by rw [Pkg.wr_rd_ne _ _ (by decide), Pkg.wr_rd_self]) (Pkg.wr_rd_self ..)
  · rw [Pkg.pos, Pkg.rf, hid, fld_setF_apart _ _ (by decide) (by decide) (.inl (by decide))]
    rfl
end

end Sys2Proof.Machine
end

section
/-! PROOFS. Reverts: restore from an image -/

namespace Sys2Proof.Machine

/-! ## Restore from an image -/

/-- What a package's units and engines run. -/
def Pkg.runs (g : Pkg) : List Load × List OpRec := (g.loads, g.eops)

theorem runs_of_rests {g h : Pkg} (heq : h.rests = g.rests) : h.runs = g.runs := congrArg (fun r => r.2.2.2) heq

theorem rests_mbtReset (g : Pkg) : g.mbtReset.rests = g.rests := by
  unfold Pkg.mbtReset
  refine foldl_keeps (P := Pkg.rests) (fun g n => ?_) _ _
  refine (foldl_keeps (P := Pkg.rests) (fun g o => rests_wr g _ (aside_mbt n o)) _ _).trans ?_
  split
  · exact (rests_vref _ _ _ (mbTag_lt ..)).trans (rests_kFree g n)
  · exact rests_kFree g n

theorem runs_copyRegs (g : Pkg) (m : Map W32) (t : Nat → Bool) : (g.copyRegs m t).runs = g.runs := by
  unfold Pkg.copyRegs
  refine foldl_keeps (P := Pkg.runs) (fun g p => ?_) _ _
  rfl

section
variable (g : Pkg) (p n : Nat)

theorem held_runs : ((g.setPhase p).setCause n).runs = g.runs := by
  show (g.setPhase p).runs = g.runs
  obtain ⟨m, hm⟩ := g.setPhase_eq p
  rw [hm]
  rfl

theorem held_rd {a : Nat} (h : a ≠ rSealStat) : ((g.setPhase p).setCause n).rd a = g.rd a := by
  rw [Pkg.setCause, Pkg.rd_wf, if_neg h, Pkg.setPhase_rd, Pkg.rd_wf, if_neg h]

theorem runs_forgets (g : Pkg) (t : Map (List Cred)) (r : Thresher) : ({ g with ctab := t, tr := r } : Pkg).rests = g.rests := rfl

theorem rd_flows (a : Nat) (b : Map Nat) (f : Map Flow) : ({ g with booked := b, flows := f } : Pkg).rd a = g.rd a := rfl

theorem rd_pr (a : Nat) (x : Prot) (l : Leader) : ({ g with pr := x, ld := l } : Pkg).rd a = g.rd a := rfl

theorem runs_flows (b : Map Nat) (f : Map Flow) : ({ g with booked := b, flows := f } : Pkg).runs = g.runs := rfl

theorem runs_pr (x : Prot) (l : Leader) : ({ g with pr := x, ld := l } : Pkg).runs = g.runs := rfl
end

/-- The Ledger's counts of a restored package begin at zero (R352). -/
def Pkg.ledgerCleared (g : Pkg) : Pkg := (List.range 16).foldl (fun g i => if i < 3 ∨ (8 ≤ i ∧ i < 15) then g.wr (rLedger (4 * i)) 0 else g) g

/-- The last step of a restore: the seal is the cut's, and the member is HELD (R352). -/
def Pkg.sealedBy (g : Pkg) (c : Cut) : Pkg :=
  let g := (g.wr rSealStep (mk32 c.step)).wf rSealEpoch 15 0 c.epoch
  let g := g.ledgerCleared
  let g := { g with booked := g.holdings, flows := [] }
  let g := { g with pr := { g.pr with bad := false, prep := 0, suppAck := 0, commit := none, parked := false, rev := 0, revWait := false,
                                       cuts := mins g.pr.cuts (c.step % 2) c },
                    ld := { g.ld with record := none, revPend := false } }
  (g.setPhase 3).setCause 0

theorem ledgerCleared_rd (g : Pkg) {a : Nat} (h : ∀ i < 16, a ≠ rLedger (4 * i)) : g.ledgerCleared.rd a = g.rd a := by
  unfold Pkg.ledgerCleared
  refine foldl_keeps_mem (P := fun g : Pkg => g.rd a) _ _ fun g i hi => ?_
  split
  · exact Pkg.wr_rd_ne _ _ (h i (List.mem_range.mp hi))
  · rfl

theorem ledgerCleared_runs (g : Pkg) : g.ledgerCleared.runs = g.runs := by
  unfold Pkg.ledgerCleared
  refine foldl_keeps (P := Pkg.runs) (fun g i => ?_) _ _
  split <;> rfl

/-- A member restored from a cut: it is sealed by it, and runs nothing. -/
structure Pkg.Restored (g : Pkg) (c : Cut) : Prop where
  sealed : g.sealed = c.step
  epoch : g.rf rSealEpoch 15 0 = c.epoch % 65536
  phase : g.phase = 3 ∨ g.phase = 4
  runs : g.runs = ([], [])

section
variable {g : Pkg} {c : Cut}

theorem sealedBy_restored (hstep : c.step < 2 ^ 32) (hruns : g.runs = ([], [])) : (g.sealedBy c).Restored c := by
  have hseal : rSealStep ≠ rSealStat ∧ ∀ i < 16, rSealStep ≠ rLedger (4 * i) := ⟨by decide, by decide⟩
  have hepoch : rSealEpoch ≠ rSealStat ∧ ∀ i < 16, rSealEpoch ≠ rLedger (4 * i) := ⟨by decide, by decide⟩
  unfold Pkg.sealedBy
  extract_lets g1 g2 g3 pr ld g4
  have hrd {a : Nat} (h : a ≠ rSealStat ∧ ∀ i < 16, a ≠ rLedger (4 * i)) : ((g4.setPhase 3).setCause 0).rd a = g1.rd a := by
    rw [held_rd _ _ _ h.1]
    exact (rd_pr g3 a _ _).trans ((rd_flows g2 a _ _).trans (ledgerCleared_rd g1 h.2))
  refine ⟨?_, ?_, ?_, ?_⟩
  · rw [Pkg.sealed, hrd hseal]
    show (((g.wr rSealStep (mk32 c.step)).wf rSealEpoch 15 0 c.epoch).rd rSealStep).toNat = _
    rw [Pkg.rd_wf, if_neg (by decide), Pkg.wr_rd_self]
    exact toNat_mk32 hstep
  · rw [Pkg.rf, hrd hepoch]
    exact Pkg.rf_wf_same _ _ (by decide) (by decide)
  · exact .inl ((Pkg.setCause_phase ..).trans (Pkg.setPhase_phase _ _ (by decide)))
  · have h3 : g3.runs = g2.runs := runs_flows g2 _ _
    have h4 : g4.runs = g3.runs := runs_pr g3 _ _
    exact (held_runs g4 3 0).trans (h4.trans (h3.trans ((ledgerCleared_runs g1).trans hruns)))

theorem restored_logAt (h : g.Restored c) (code x1 x2 x3 a0 a1 a2 : Nat) : (g.logAt code x1 x2 x3 a0 a1 a2).Restored c := by
  obtain ⟨hseal, hepoch, hphase, hruns⟩ := h
  refine ⟨?_, ?_, ?_, (runs_of_rests (rests_logAt ..)).trans hruns⟩
  · rwa [Pkg.sealed, Pkg.logAt_rd _ _ _ _ _ _ _ _ (by decide)]
  · rwa [Pkg.rf, Pkg.logAt_rd _ _ _ _ _ _ _ _ (by decide)]
  · rwa [Pkg.phase, Pkg.rf, Pkg.logAt_rd _ _ _ _ _ _ _ _ (by decide)]

theorem restored_digestErr (h : g.Restored c) (t : Nat) (l : Loc) : (g.digestErr t l).Restored c := by
  unfold Pkg.digestErr Pkg.logHub
  exact restored_logAt h ..

/-- A halt leaves the restored state, but for the phase. -/
theorem restored_halt (h : g.Restored c) (cause : Nat) : (g.halt cause).Restored c := by
  unfold Pkg.halt
  split
  · exact h
  · obtain ⟨hseal, hepoch, -, hruns⟩ := h
    refine restored_logAt ⟨?_, ?_, .inr ((Pkg.setCause_phase ..).trans (Pkg.setPhase_phase _ _ (by decide))), (held_runs ..).trans hruns⟩ ..
    · rwa [Pkg.sealed, held_rd _ _ _ (by decide)]
    · rwa [Pkg.rf, held_rd _ _ _ (by decide)]

end

/-- What a package forgets as it takes its state from a cut (R352). -/
def Pkg.unloaded (g : Pkg) (c : Cut) : Pkg :=
  let g := g.mbtReset.armsClear
  let g := { g with ctab := [], tr := { passes := g.tr.passes } }
  let g := g.collRevert c.step
  g.copyRegs c.regs cutPlain

theorem unloaded_runs (g : Pkg) (c : Cut) : (g.unloaded c).runs = g.runs := by
  unfold Pkg.unloaded
  extract_lets g1 g2 g3
  have h1 : g1.rests = g.rests := (rests_armsClear _).trans (rests_mbtReset g)
  have h2 : g2.rests = g1.rests := runs_forgets g1 _ _
  have h3 : g3.rests = g2.rests := rests_collRevert ..
  exact (runs_copyRegs ..).trans (runs_of_rests (h3.trans (h2.trans h1)))

/-- Scale slots, input queues and stream slots as a cut has them (R352). -/
def Pkg.reloaded (g : Pkg) (c : Cut) : Pkg :=
  let g := g.scaleRestore c
  let g := (g.liveQueues.filter (fun p => g.qInput p.1 p.2)).foldl (fun g p =>
    let i := g.ix p.1 p.2
    (g.setIx p.1 p.2 { p := i.m, c := i.m, m := i.m, l := i.m }).setCred p.1 p.2 (g.qSize p.1 p.2) 0) g
  g.strmRestore c ((c.step + 1) % 2 ^ 32)

theorem reloaded_runs (g : Pkg) (c : Cut) : (g.reloaded c).runs = g.runs := by
  unfold Pkg.reloaded
  extract_lets g1 g2
  have h1 : g1.rests = g.rests := rests_scaleRestore ..
  have h2 : g2.rests = g1.rests := foldl_keeps_mem (P := Pkg.rests) _ _ fun x p hp =>
    (rests_setCred ..).trans (rests_setIx _ _ _ (liveQueues_mem (List.mem_of_mem_filter hp)).2)
  exact runs_of_rests ((rests_strmRestore ..).trans (h2.trans h1))

section
variable {s : Pack} {k : Nat} {c : Cut}

/-- The cut's effect on its package: what was in flight is gone, the queues of records are flushed, and the state is the cut's. -/
theorem restoreCut_eq : s.restoreCut k c =
    let t := (s.quiesce k).on k (fun g => g.unloaded c)
    (((t.g k).liveQueues.filter (fun p => qClass p.2 == 1 || qClass p.2 == 2)).foldl (fun s p => s.qFlush k p.1 p.2) t).on k
      (fun g => (g.reloaded c).sealedBy c) := rfl

/-- A package that takes its state from a cut (R352). -/
theorem restoreCut_restored (hstep : c.step < 2 ^ 32) : ((s.restoreCut k c).g k).Restored c := by
  rw [restoreCut_eq]
  extract_lets t
  have h1 : ((s.quiesce k).g k).runs = ([], []) := by
    obtain ⟨h, -, hq⟩ := quiesce_g s k
    rw [hq]
    rfl
  have h2 : (t.g k).runs = ([], []) := by
    rw [show t.g k = _ from Pack.on_g_self .., unloaded_runs, h1]
  rw [Pack.on_g_self]
  refine sealedBy_restored hstep ((reloaded_runs ..).trans (.trans (runs_of_rests ?_) h2))
  exact foldl_keeps_mem (P := fun p : Pack => (p.g k).rests) _ _ fun p x hx => rests_qFlush p k (liveQueues_mem (List.mem_of_mem_filter hx)).2 x.1
/-- A change that keeps restored states restored, at whatever package. -/
theorem restored_on {f : Pkg → Pkg} (hf : ∀ g : Pkg, g.Restored c → (f g).Restored c) (j : Nat) {s : Pack} (h : (s.g k).Restored c) :
    ((s.on j f).g k).Restored c := by
  by_cases hj : j = k
  · subst hj
    rw [Pack.on_g_self]
    exact hf _ h
  · rwa [Pack.on_g_ne _ _ (Ne.symm hj)]

/-- Blocks that do not verify are logged and halt the pack; the restored state stays (R352). -/
theorem restored_verifyFail (js : List Nat) (h : (s.g k).Restored c) : ((s.verifyFail k js).g k).Restored c := by
  unfold Pack.verifyFail Pack.haltAll Pack.onMembers
  refine List.foldlRecOn (motive := fun p : Pack => (p.g k).Restored c) _ _ ?_ fun p hp j _ => restored_on (fun g hg => restored_halt hg 8) j hp
  refine List.foldlRecOn (motive := fun p : Pack => (p.g k).Restored c) _ _ h fun p hp j _ => ?_
  exact List.foldlRecOn (motive := fun p : Pack => (p.g k).Restored c) _ _ hp fun p hp x _ => restored_on (fun g hg => restored_digestErr hg x.1 x.2) j hp

variable {cs : List Cut} (hleads : (s.g k).leads = true) (hphase : (s.g k).phase = 3)
include hleads hphase

/-- An image whose codes do not verify is refused (R352). -/
theorem restore_refused : s.restore k cs false = s.on k (fun g => g.wb (rProt 0) 30 true) := by
  unfold Pack.restore
  dsimp only
  rw [if_neg (by simp [hleads, hphase]), if_pos (by simp [cutsOk])]

/-- An image of a pack of one restores its package (R352). -/
theorem restore_restored (hmem : (s.g k).mem = 2 ^ (s.g k).pos) (hok : cutsOk [c] true = true) (hpos : c.pos = (s.g k).pos) (hstep : c.step < 2 ^ 32)
    (halone : s.members k = [k]) : ((s.restore k [c] true).g k).Restored c := by
  have hall : (positions (s.g k).mem).all (fun p => [c].any (fun c => c.pos == p)) = true := by
    refine List.all_eq_true.mpr fun p hp => ?_
    have hbit : (2 ^ (s.g k).pos).testBit p = true := hmem ▸ (List.mem_filter.mp hp).2
    rw [Nat.testBit_two_pow, decide_eq_true_eq] at hbit
    simp [hpos, hbit]
  have hone : (s.members k).foldl (fun s j => match [c].find? (fun c => c.pos == (s.g j).pos) with
      | some c => s.restoreCut j c
      | none => s) s = s.restoreCut k c := by
    rw [halone, List.foldl_cons, List.foldl_nil, List.find?_cons_of_pos (by simp [hpos])]
  unfold Pack.restore
  extract_lets g t
  have hgood : ¬ ((!cutsOk [c] true) = true ∨ (!(positions g.mem).all (fun p => [c].any (fun c => c.pos == p))) = true) := by
    rintro (h | h)
    · exact Bool.false_ne_true (((Bool.not_eq_true' _).mp h).symm.trans hok)
    · exact Bool.false_ne_true (((Bool.not_eq_true' _).mp h).symm.trans hall)
  rw [if_neg (by simp [g, hleads, hphase]), if_neg hgood]
  have ht : (t.g k).Restored c := by
    rw [show t = _ from hone]
    exact restoreCut_restored hstep
  split
  · exact ht
  · exact restored_verifyFail _ ht
end

end Sys2Proof.Machine
end

section
/-! PROOFS. Reverts: the obligation -/

namespace Sys2Proof.Machine

/-! ## The obligation -/

section
variable {s : State} {k step epoch p : Nat} {rs : List (Nat × Nat)}

/-- A command that leaves the pack as it was. -/
theorem leaves_unchanged {c : Instr} {h : Pack → Pack} (hup : (s.pack.g k).hubUp = true) (hc : exec c s = .next (s.onPack (fun s => s.atHub k h))) (hh : h s.pack = s.pack) :
    Leaves c s (fun q => (∀ j, q.g j = s.pack.g j) ∧ q.mem = s.pack.mem) :=
  leaves_atHub hup hc (by rw [hh]; exact ⟨fun _ => rfl, rfl⟩)

theorem tk_answered (g : Pkg) (r : Prot) (m : Msg) (x u c : Nat) : (({ g with pr := r } : Pkg).send m).tk x u c = g.tk x u c := rfl

/-- A holder report at a home that still waits for others. -/
theorem leaves_holderReport_partial (hup : (s.pack.g k).hubUp = true) (h : (s.pack.g k).rb (rLedger 0) 30 = true)
    (hone : ∃ h ∈ positions ((s.pack.g k).mem &&& (2 ^ 64 - 1 - (s.pack.g k).pr.gone % 2 ^ 64)), h ≠ p ∧ ∀ x ∈ (s.pack.g k).pr.reps, x.1 ≠ h) :
    Leaves (.holderReport k p rs) s (fun q => (q.g k).pr.reps = (p, rs) :: (s.pack.g k).pr.reps.filter (fun x => x.1 != p) ∧ (q.g k).sent = (s.pack.g k).sent ∧
      q.mem = s.pack.mem) :=
  leaves_hubPkg hup rfl fun q hq hmem => by
    rw [hq, takeReport_partial h hone]
    exact ⟨rfl, rfl, hmem⟩

/-- The last holder report: what failed dies held is written off, and the home answers (R322). -/
theorem leaves_holderReport_full (hup : (s.pack.g k).hubUp = true) (h : (s.pack.g k).rb (rLedger 0) 30 = true)
    (hall : ∀ h ∈ positions ((s.pack.g k).mem &&& (2 ^ 64 - 1 - (s.pack.g k).pr.gone % 2 ^ 64)), h = p ∨ ∃ x ∈ (s.pack.g k).pr.reps, x.1 = h) :
    Leaves (.holderReport k p rs) s (fun q => (q.g k).pr.reps = [] ∧ (q.g k).sent.head? = some (.reclaimDone (s.pack.g k).pos) ∧ q.mem = s.pack.mem ∧
      (∀ x, x < 48 → (s.pack.g k).siteSt x ≠ .active → ∀ u c, u < 64 → c < 64 → (q.g k).tk x u c = {})) :=
  leaves_hubPkg hup rfl fun q hq hmem => by
    rw [hq, takeReport_full h hall]
    exact ⟨rfl, rfl, hmem, fun x hx hdead u c hu hc => (tk_answered _ _ _ x u c).trans (writeOff_tk ((s.pack.g k).reportedBy p rs) hx hdead hu hc)⟩

/-- REVERT_DONE at the leader. -/
theorem leaves_revertDone (hup : (s.pack.g k).hubUp = true) (hleads : (s.pack.g k).leads = true) (hstep : step = (s.pack.g k).sealed) :
    let g := s.pack.g k
    Leaves (.revertDone k p step) s (fun q => (q.g k).ld.reverting = g.ld.reverting.filter (· != p) ∧
      (q.g k).takeSt = (if g.ld.reverting.filter (· != p) = [] ∧ g.ld.reverting ≠ [] then
        (if g.pr.gone &&& g.mem ≠ 0 then 2 else if s.pack.owesHost k = true then 5 else 0) else g.takeSt) ∧
      (q.g k).sent = g.sent ∧ q.mem = s.pack.mem) := by
  intro g
  refine leaves_atHub hup rfl ?_
  obtain ⟨hrev, htake, hsent⟩ := doneBy_says g p (s.pack.owesHost k)
  rw [revertDone_eq hleads hstep, Pack.on_g_self]
  exact ⟨hrev, htake, hsent, Pack.on_mem ..⟩

variable {v w : W32}

/-- What a write of PROT.CTL leaves as it lands, where only the bit it names is a command. -/
theorem bits_setB {i j : Nat} (hi : i < 32) (hne : j ≠ i) (h : bit v j = false) : bit (setB v i true) j = false := (bit_setB_apart v true hi hne).trans h

/-- PROT.CTL.REVERT lands at a package that does not lead (R343). -/
theorem lands_revert_idle (h22 : bit v 22 = false) (h21 : bit v 21 = false) (h20 : bit v 20 = false) (hleads : (s.pack.g k).leads = false) :
    Lands s k { key := rProt 0, site := 62, off := 0x40000, v := setB v 23 true, x := {} } (fun q =>
      (q.g k).autorev = bit v 29 ∧ (q.g k).autotk = bit v 28 ∧ (q.g k).rlim = fld v 27 24 ∧ (q.g k).mirv = bit v 17 ∧
      (q.g k).takeSt = (s.pack.g k).takeSt ∧ (q.g k).sent = (s.pack.g k).sent ∧ q.mem = s.pack.mem) := by
  refine lands_protCtl ?_
  rw [protCtl_revert _ _ _ _ _ (bits_setB (by decide) (by decide) h20) (bit_setB_same _ _ (by decide)) (bits_setB (by decide) (by decide) h22)
    (bits_setB (by decide) (by decide) h21), revert_idle hleads]
  obtain ⟨hauto, htk, hlim, hmirv⟩ := controlled_says ((s.pack.g k).arrived (rProt 0)) (setB v 23 true)
  obtain ⟨-, -, hsent⟩ := landed_keeps s.pack k (setB v 23 true)
  obtain ⟨-, -, -, -, -, -, -, -, -, htake, -⟩ := landed_stands s.pack k (setB v 23 true)
  rw [landed_g] at *
  exact ⟨hauto.trans (bit_setB_apart _ _ (by decide) (by decide)), htk.trans (bit_setB_apart _ _ (by decide) (by decide)),
    hlim.trans (fld_setB_apart _ _ (by decide) (.inr (by decide))), hmirv.trans (bit_setB_apart _ _ (by decide) (by decide)), htake, hsent, rfl⟩

/-- PROT.CTL.REVERT lands at the leader (R343, R344). -/
theorem lands_revert (h22 : bit v 22 = false) (h21 : bit v 21 = false) (h20 : bit v 20 = false) (hleads : (s.pack.g k).leads = true)
    (hrun : ¬ ((s.pack.g k).phase = 4 ∧ (s.pack.g k).cause = 0xA)) (hok : ¬ ((s.pack.g k).phase = 4 ∧ (s.pack.g k).cause = 5))
    (hcommit : (s.pack.g k).committing = false) (hrev : (s.pack.g k).ld.reverting = []) (hlim : fld v 27 24 = 0 ∨ (s.pack.g k).revcnt < fld v 27 24) :
    let g := s.pack.g k
    Lands s k { key := rProt 0, site := 62, off := 0x40000, v := setB v 23 true, x := {} } (fun q =>
      (q.g k).takeSt = 1 ∧ (q.g k).revcnt = min 255 (g.revcnt + 1) ∧ (q.g k).ld.reverting = positions (g.mem &&& (2 ^ 64 - 1 - g.pr.gone % 2 ^ 64)) ∧
      (q.g k).sent = .revert g.sealed g.epoch :: g.sent ∧ q.mem = s.pack.mem) := by
  intro g
  refine lands_protCtl ?_
  rw [protCtl_revert _ _ _ _ _ (bits_setB (by decide) (by decide) h20) (bit_setB_same _ _ (by decide)) (bits_setB (by decide) (by decide) h22)
    (bits_setB (by decide) (by decide) h21)]
  exact revert_lands hleads hrun hok hcommit hrev (by rwa [fld_setB_apart _ _ (by decide) (.inr (by decide))])

section
variable {c : Cut} {crc : Bool} (h23 : bit v 23 = false) (h21 : bit v 21 = false) (h20 : bit v 20 = false) (hleads : (s.pack.g k).leads = true)
  (hphase : (s.pack.g k).phase = 3)
include h23 h21 h20 hleads hphase

/-- PROT.CTL.RESTORE of an image that does not verify lands (R352). -/
theorem lands_restore_refused (hcrc : crc = false) :
    Lands s k { key := rProt 0, site := 62, off := 0x40000, v := setB v 22 true, x := { cuts := [c], crc := crc } } (fun q =>
      (q.g k).rb (rProt 0) 30 = true ∧ (q.g k).sealed = (s.pack.g k).sealed ∧ (q.g k).phase = 3 ∧ q.mem = s.pack.mem) := by
  subst hcrc
  refine lands_protCtl ?_
  obtain ⟨lleads, -, -, -, -, lphase, -, lsealed, -⟩ := landed_stands s.pack k (setB v 22 true)
  rw [protCtl_restore _ _ _ _ _ (bits_setB (by decide) (by decide) h20) (bits_setB (by decide) (by decide) h23) (bit_setB_same _ _ (by decide))
    (bits_setB (by decide) (by decide) h21), restore_refused (lleads.trans hleads) (lphase.trans hphase), Pack.on_g_self]
  refine ⟨Pkg.rb_wb_same _ _ _ (by decide), ?_, ?_, Pack.on_mem ..⟩
  · rw [Pkg.sealed, Pkg.rd_wb, if_neg (by decide)]
    exact lsealed
  · rw [Pkg.phase, Pkg.rf, Pkg.rd_wb, if_neg (by decide)]
    exact lphase.trans hphase

/-- PROT.CTL.RESTORE of a pack of one lands (R352). -/
theorem lands_restore (hmem : (s.pack.g k).mem = 2 ^ (s.pack.g k).pos) (hcrc : crc = true) (hok : cutsOk [c] true = true) (hpos : c.pos = (s.pack.g k).pos)
    (hstep : c.step < 2 ^ 32) (halone : s.pack.members k = [k]) :
    Lands s k { key := rProt 0, site := 62, off := 0x40000, v := setB v 22 true, x := { cuts := [c], crc := crc } } (fun q =>
      (q.g k).sealed = c.step ∧ (q.g k).rf rSealEpoch 15 0 = c.epoch % 65536 ∧ ((q.g k).phase = 3 ∨ (q.g k).phase = 4) ∧
      (q.g k).loads = [] ∧ (q.g k).eops = []) := by
  subst hcrc
  refine lands_protCtl ?_
  obtain ⟨lleads, -, lpos, lmem, -, lphase, -⟩ := landed_stands s.pack k (setB v 22 true)
  rw [protCtl_restore _ _ _ _ _ (bits_setB (by decide) (by decide) h20) (bits_setB (by decide) (by decide) h23) (bit_setB_same _ _ (by decide))
    (bits_setB (by decide) (by decide) h21)]
  obtain ⟨hseal, hepoch, hph, hruns⟩ := restore_restored (lleads.trans hleads) (lphase.trans hphase) (by rw [lmem, lpos, hmem]) hok (hpos.trans lpos.symm) hstep
    ((landed_members s.pack k _).trans halone)
  obtain ⟨hloads, heops⟩ := Prod.mk.inj hruns
  exact ⟨hseal, hepoch, hph, hloads, heops⟩
end

section
variable (h23 : bit v 23 = false) (h22 : bit v 22 = false) (h20 : bit v 20 = false)
include h23 h22 h20

/-- PROT.CTL.UNASSIGN lands at a ready pack of one (R354). -/
theorem lands_unassign (h : (s.pack.g k).lready = true) :
    Lands s k { key := rProt 0, site := 62, off := 0x40000, v := setB v 21 true, x := {} } (fun q =>
      (q.g k).assigned = false ∧ (q.g k).leads = false ∧ (q.g k).epoch = 0 ∧ (q.g k).mem = 0 ∧ (q.g k).pos = (s.pack.g k).pos ∧ q.mem = s.pack.mem) := by
  refine lands_protCtl ?_
  obtain ⟨-, -, lpos, -, -, -, -, -, -, -, -, -, lready⟩ := landed_stands s.pack k (setB v 21 true)
  obtain ⟨hassigned, hleads, hepoch, hmem, hpos⟩ := unassign_says _ (lready.trans h)
  rw [protCtl_unassign _ _ _ _ _ (bits_setB (by decide) (by decide) h20) (bits_setB (by decide) (by decide) h23) (bits_setB (by decide) (by decide) h22)
    (bit_setB_same _ _ (by decide)), Pack.on_g_self]
  exact ⟨hassigned, hleads, hepoch, hmem, hpos.trans lpos, rfl⟩

/-- PROT.CTL.UNASSIGN lands where it may not act (R354). -/
theorem lands_unassign_idle (h : (s.pack.g k).lready = false) :
    Lands s k { key := rProt 0, site := 62, off := 0x40000, v := setB v 21 true, x := {} } (fun q =>
      (q.g k).assigned = (s.pack.g k).assigned ∧ (q.g k).epoch = (s.pack.g k).epoch ∧ (q.g k).mem = (s.pack.g k).mem ∧ (q.g k).mode = (s.pack.g k).mode ∧
      q.mem = s.pack.mem) := by
  refine lands_protCtl ?_
  obtain ⟨-, lassigned, -, lmem, lepoch, -, -, -, -, -, -, lmode, lready⟩ := landed_stands s.pack k (setB v 21 true)
  have hidle : ((s.pack.landed k (setB v 21 true)).g k).unassign = (s.pack.landed k (setB v 21 true)).g k := if_pos (by rw [lready, h]; rfl)
  rw [protCtl_unassign _ _ _ _ _ (bits_setB (by decide) (by decide) h20) (bits_setB (by decide) (by decide) h23) (bits_setB (by decide) (by decide) h22)
    (bit_setB_same _ _ (by decide)), Pack.on_g_self, hidle]
  exact ⟨lassigned, lepoch, lmem, lmode, rfl⟩
end
end

/-- Settles O54. -/
theorem revertsAndReclaims : Obligations.RevertsAndReclaims := by
  unfold Obligations.RevertsAndReclaims
  intro s k step epoch p rs m v c crc g stopped survivors same started control ctl
  refine ⟨fun hup => ⟨fun hleads hrun hok => ⟨fun hcommit => gives_of_atHub rfl hup (revertTo_pending hleads hrun hok hcommit), fun hcommit hrev => ⟨?_, ?_, ?_⟩,
    fun hcommit hrev => ⟨?_, ?_⟩⟩, ?_, ?_, ?_, ?_, ?_, ?_, ?_, ?_, ?_, ?_, ?_⟩, ?_, ?_, ?_, ?_⟩
  · intro hlim hauto
    refine leaves_atHub hup rfl ?_
    rw [Pack.revertRequest, revertTo_starts (host := false) hleads hrun hok hcommit hrev hlim hauto]
    exact startRevert_says s.pack k g.sealed
  · intro hphase hassigned hmem hpos hlim
    refine leaves_atHub hup rfl ?_
    rw [Pack.revertRequest, revertTo_limit hleads hrun hok hcommit hrev ⟨hpos, hlim⟩]
    obtain ⟨h4, h7⟩ := haltAll_says (cause := 7) (by decide) hassigned hmem hphase
    exact ⟨h4, h7, Pack.haltAll_mem ..⟩
  · intro hphase hassigned hmem hlim hauto
    refine leaves_atHub hup rfl ?_
    rw [Pack.revertRequest, revertTo_manual (host := false) hleads hrun hok hcommit hrev hlim hauto]
    obtain ⟨h4, h6⟩ := haltAll_says (cause := 6) (by decide) hassigned hmem hphase
    exact ⟨h4, h6, Pack.haltAll_mem ..⟩
  · intro hnone howes
    refine leaves_atHub hup rfl ?_
    rw [Pack.revertRequest, revertTo_running hleads hrun hok hcommit hrev, if_pos (by rw [show (s.pack.g k).ld.reclaiming = [] from hnone, howes]; rfl)]
    exact restartRevert_says s.pack k
  · intro hother
    refine gives_of_atHub rfl hup ?_
    rw [Pack.revertRequest, revertTo_running hleads hrun hok hcommit hrev, if_neg]
    rw [Bool.and_eq_true, List.isEmpty_iff]
    rintro ⟨hnone, howes⟩
    exact hother.elim (fun h => h hnone) fun h => Bool.false_ne_true (h.symm.trans howes)
  · intro hepoch hseal hstep hcommit hassigned hparted
    refine ⟨fun howes => leaves_atHub hup rfl (takeRevert_reclaims hassigned hparted hepoch hcommit hstep hseal howes),
      fun hgone hled howes hrepair hne => leaves_atHub hup rfl (takeRevert_reverts hassigned hparted hepoch hcommit hstep hseal hgone hled howes hrepair hne)⟩
  · intro hassigned hparted
    exact ⟨fun hepoch => gives_of_atHub rfl hup (takeRevert_stale hassigned hparted hepoch),
      fun hepoch h => gives_of_atHub rfl hup (takeRevert_waits hassigned hparted hepoch h),
      fun hepoch hcommit hstep hseal => gives_of_atHub rfl hup (takeRevert_other hassigned hparted hepoch hcommit hstep hseal)⟩
  · exact fun h => gives_of_atHub rfl hup (takeRevert_out h)
  · exact fun hleads hstep => leaves_revertDone hup hleads hstep
  · exact fun h => leaves_unchanged hup rfl (revertDone_other h)
  · exact fun hstep hassigned hparted => leaves_atHub hup rfl (reclaim_says hstep hassigned hparted)
  · exact fun h => leaves_still hup rfl (takeReport_none h)
  · exact leaves_holderReport_partial hup
  · exact leaves_holderReport_full hup
  · intro hleads hparted hin
    exact ⟨fun h => gives_of_atHub rfl hup (reclaimDone_strikes hleads hparted hin h),
      fun hall halone hrev hrepair hne => leaves_atHub hup rfl (reclaimDone_reverts hleads hparted hin hall halone hrev hrepair hne)⟩
  · exact fun h => leaves_unchanged hup rfl (reclaimDone_other h)
  · rintro ⟨hw, hm⟩
    exact ⟨gives_protCtl hw hm rfl, gives_protCtl hw hm rfl, gives_protCtl hw hm rfl⟩
  · exact fun h22 h21 h20 => ⟨lands_revert_idle h22 h21 h20, lands_revert h22 h21 h20⟩
  · exact fun h23 h21 h20 => ⟨lands_restore_refused h23 h21 h20,
      fun hleads _ hphase hmem hcrc hok hpos hstep halone => lands_restore h23 h21 h20 hleads hphase hmem hcrc hok hpos hstep halone⟩
  · exact fun h23 h22 h20 => ⟨lands_unassign h23 h22 h20, lands_unassign_idle h23 h22 h20⟩

end Sys2Proof.Machine
end

section
/-! PROOFS. Resets: what a reset leaves -/

namespace Sys2Proof.Machine

/-! ## Fuses across a reset -/

/-- What a reset leaves of the fuses: an advance of SVNCTR may stop half-way (R418, R423). -/
def Pkg.FusesKept (g : Pkg) (k : Nat) (q : Pkg) : Prop := if g.advancing = true then
    q.fz.rev = g.fz.rev ∧ g.svnctr k ≤ q.svnctr k ∧ q.svnctr k ≤ max (g.svnctr k) (min 63 (g.rf (rKey 4) 15 8)) else q.fz = g.fz

theorem fusesKept_of_fz {g p q : Pkg} {k : Nat} (hfz : q.fz = p.fz) (h : g.FusesKept k p) : g.FusesKept k q := by
  unfold Pkg.FusesKept Pkg.svnctr at h ⊢
  rw [hfz]
  exact h

theorem svnctr_le (g : Pkg) (k : Nat) : g.svnctr k ≤ 63 := Nat.min_le_left ..

/-- The target of an advance. -/
theorem advSvn_svnctr {g : Pkg} (k : Nat) (hrun : g.bphase = 2) : (g.advSvn k).svnctr k = max (g.svnctr k) (min 63 (g.rf (rKey 4) 15 8)) := by
  unfold Pkg.advSvn
  rw [if_neg (not_not.mpr hrun)]
  show min 63 (max (Config.svnCounter k % 64) (max (g.svnctr k) (min 63 (g.rf (rKey 4) 15 8)))) = _
  unfold Pkg.svnctr
  omega

section
variable (s : Pack) (k : Nat)

/-- An abandoned advance: SVNCTR stands between its old value and the target, and nothing else of the package changes but the write that commanded it. -/
theorem advAbort_says : (s.g k).FusesKept k ((s.advAbort k).g k) ∧ ∃ z ps, (s.advAbort k).g k = { s.g k with fz := z, posts := ps } := by
  unfold Pack.advAbort
  extract_lets g d old
  by_cases hadv : g.advancing = true
  · rw [if_neg (by simp [hadv]), Pack.on_g_self]
    refine ⟨?_, _, _, rfl⟩
    unfold Pkg.FusesKept
    have hrun : g.bphase = 2 := beq_iff_eq.mp (Bool.and_eq_true_iff.mp hadv).1
    have htarget := advSvn_svnctr k hrun
    have hle : (g.advSvn k).svnctr k ≤ 63 := svnctr_le ..
    have hold : old ≤ (g.advSvn k).svnctr k := by
      rw [htarget]
      exact Nat.le_max_left ..
    have hmod : d.1 % ((g.advSvn k).svnctr k - old + 1) < (g.advSvn k).svnctr k - old + 1 := Nat.mod_lt _ (by omega)
    have hsvn : Config.svnCounter k % 64 ≤ old := by
      show _ ≤ min 63 (max (Config.svnCounter k % 64) g.fz.svn)
      omega
    rw [if_pos hadv, ← htarget]
    refine ⟨rfl, ?_, ?_⟩
    · show old ≤ min 63 (max (Config.svnCounter k % 64) (old + d.1 % ((g.advSvn k).svnctr k - old + 1)))
      omega
    · show min 63 (max (Config.svnCounter k % 64) (old + d.1 % ((g.advSvn k).svnctr k - old + 1))) ≤ _
      omega
  · rw [if_pos (by simpa using hadv)]
    refine ⟨?_, g.fz, g.posts, rfl⟩
    unfold Pkg.FusesKept
    rw [if_neg hadv]

/-- A package that is cut off discards only requests of its own. -/
theorem isolate_g : ∃ l, (s.isolate k).g k = { s.g k with qops := l } := by
  refine ⟨(s.g k).qops.filter (fun x => x.r.t.pkg != k), ?_⟩
  have hself (x : Pkg) : Pkg.isolated s k k x = { x with qops := x.qops.filter (fun y => y.r.t.pkg != k) } := if_pos (.inl rfl)
  exact (mget_mmap_self (d := coldPkg k) (f := Pkg.isolated s k) k (hself _) s.pkgs).trans (hself _)

/-- A package that stops: its advance is abandoned, and it is cut off. -/
theorem stopped_g : (s.g k).FusesKept k (((s.advAbort k).isolate k).g k) ∧
    ∃ z ps l, ((s.advAbort k).isolate k).g k = { s.g k with fz := z, posts := ps, qops := l } := by
  obtain ⟨hfuses, z, ps, habort⟩ := advAbort_says s k
  obtain ⟨l, hiso⟩ := isolate_g (s.advAbort k) k
  rw [hiso]
  exact ⟨fusesKept_of_fz rfl hfuses, z, ps, l, by rw [habort]⟩
end

/-! ## What a reset leaves -/

/-- A package with the registers that a reset leaves it. -/
def Pkg.renewed (g : Pkg) (k : Nat) (regs : Map W32) : Pkg :=
  { sites := fusedOut k, regs := regs, log := g.log, logSeq := g.logSeq, smb := g.smb, fz := g.fz, busy := g.busy.filter huskReg,
    posts := g.posts.filter (fun p => p.site == 62 && huskReg (hubR p.off)),
    hk := { g.hk with failed := false, answer := .none, d3 := false, barB := 36, msixOn := false, msixMask := false, cfg := [], aer := [], cpl := .written,
                      msi := none, spdm := 0 } }

theorem resetPkg_eq (g : Pkg) (k : Nat) : ∃ regs, g.resetPkg k = g.renewed k regs := by
  unfold Pkg.resetPkg
  dsimp only
  split
  · exact ⟨_, rfl⟩
  · exact ⟨_, rfl⟩

/-- Outside the Husk domain every register has its reset value. -/
theorem resetPkg_rd (g : Pkg) (k : Nat) {a : Nat} (h : huskReg a = false) : (g.resetPkg k).rd a = regReset a := by
  have hne {b : Nat} (hb : huskReg b = true) : a ≠ b := fun e => Bool.false_ne_true (h.symm.trans (e ▸ hb))
  have hkept (g' : Pkg) (hregs : g'.regs = g.regs.filter (fun p => huskReg p.1 && !(decide (hubR 0x17000 < p.1 ∧ p.1 < hubR 0x18000)))) :
      ((g'.setBphase 0).wb rPins 3 false).rd a = regReset a := by
    rw [Pkg.rd_wb, if_neg (hne (by decide)), Pkg.setBphase, Pkg.rd_wf, if_neg (hne (by decide)), Pkg.rd, hregs]
    exact mget_filter_gone _ (fun _ => by simp [h]) g.regs
  unfold Pkg.resetPkg
  dsimp only
  split
  · rw [Pkg.rd_wb, if_neg (hne (by decide)), hkept _ rfl]
  · exact hkept _ rfl

/-- What is new after a reset, and what is still what it was. -/
def Pkg.core (q : Pkg) : Fuses × Map LogRec × Map Bool × Map Thread × Map SiteSt × W32 × W32 :=
  (q.fz, q.log, q.started, q.thr, q.sites, q.rd rSealStat, q.rd rPipeMode)

/-- A package fresh from a reset. -/
def Pkg.FreshAs (g : Pkg) (k : Nat) (q : Pkg) : Prop :=
  g.FusesKept k q ∧ q.log = g.log ∧ q.started = [] ∧ q.phase = 0 ∧ q.mode = 0 ∧ q.thr = [] ∧ q.sites = fusedOut k

theorem freshAs_of_core {g p q : Pkg} {k : Nat} (hcore : q.core = p.core) (h : g.FreshAs k p) : g.FreshAs k q := by
  obtain ⟨hfuses, hlog, hstarted, hphase, hmode, hthr, hsites⟩ := h
  simp only [Pkg.core, Prod.mk.injEq] at hcore
  obtain ⟨cfz, clog, cstarted, cthr, csites, cstat, cmode⟩ := hcore
  exact ⟨fusesKept_of_fz cfz hfuses, clog.trans hlog, cstarted.trans hstarted, (congrArg (fld · 2 0) cstat).trans hphase,
    (congrArg (fld · 1 0) cmode).trans hmode, cthr.trans hthr, csites.trans hsites⟩

theorem core_wr (g : Pkg) {a : Nat} (v : W32) (h : a ≠ rSealStat ∧ a ≠ rPipeMode) : (g.wr a v).core = g.core := by
  unfold Pkg.core
  rw [Pkg.wr_rd_ne _ _ h.1.symm, Pkg.wr_rd_ne _ _ h.2.symm]
  rfl

theorem core_hk (g : Pkg) (h : Husk) : ({ g with hk := h } : Pkg).core = g.core := rfl

/-- A package that has been reset is fresh. -/
theorem resetPkg_fresh {g p : Pkg} {k : Nat} (hfuses : g.FusesKept k p) (hlog : p.log = g.log) : g.FreshAs k (p.resetPkg k) := by
  obtain ⟨regs, hreset⟩ := resetPkg_eq p k
  refine ⟨fusesKept_of_fz (by rw [hreset]; rfl) hfuses, by rw [hreset]; exact hlog, by rw [hreset]; rfl, ?_, ?_, by rw [hreset]; rfl, by rw [hreset]; rfl⟩
  · rw [Pkg.phase, Pkg.rf, resetPkg_rd _ _ (by decide)]
    decide
  · rw [Pkg.mode, Pkg.rf, resetPkg_rd _ _ (by decide)]
    decide

end Sys2Proof.Machine
end

section
/-! PROOFS. Resets: package resets, boots and loss of power -/

namespace Sys2Proof.Machine

/-! ## The role at a boot -/

/-- The role that LEAD_N gives (R298). -/
def Pkg.InRole (q : Pkg) (low : Bool) : Prop :=
  if low then q.leads = true ∧ q.assigned = true ∧ q.pos = 0 ∧ q.mem = 1 ∧ q.epoch = 1 else q.assigned = false

section
variable (g : Pkg)

theorem strapRole_low (h : g.hk.leadLow = true) : g.strapRole.InRole true := by
  unfold Pkg.strapRole
  rw [if_pos h]
  have hid : ((((g.wr rPackId 0x1C0).wr rMemLo 1).wr rMemHi 0).wf rPackEpoch 15 0 1).rd rPackId = 0x1C0 := by
    rw [Pkg.rd_wf, if_neg (by decide), Pkg.wr_rd_ne _ _ (by decide), Pkg.wr_rd_ne _ _ (by decide), Pkg.wr_rd_self]
  unfold Pkg.InRole
  rw [if_pos rfl]
  refine ⟨?_, ?_, ?_, ?_, ?_⟩
  · rw [Pkg.leads, Pkg.rb, hid]
    decide
  · rw [Pkg.assigned, Pkg.rb, hid]
    decide
  · rw [Pkg.pos, Pkg.rf, hid]
    decide
  · exact rd64_eq (a := 1) (b := 0) (by rw [Pkg.rd_wf, if_neg (by decide), Pkg.wr_rd_ne _ _ (by decide), Pkg.wr_rd_self])
      (by rw [Pkg.rd_wf, if_neg (by decide), Pkg.wr_rd_self])
  · exact (Pkg.rf_wf_same _ _ (by decide) (by decide)).trans rfl

theorem strapRole_high (h : g.hk.leadLow = false) : g.strapRole = g := if_neg (by rw [h]; exact Bool.false_ne_true)

/-- A role stays with the registers that hold it. -/
theorem inRole_of_rd {p q : Pkg} {low : Bool} (h : ∀ a ∈ [rPackId, rMemLo, rMemHi, rPackEpoch], q.rd a = p.rd a) (hp : p.InRole low) : q.InRole low := by
  have hid := h rPackId (by decide)
  unfold Pkg.InRole at hp ⊢
  split
  · next hlow =>
    rw [if_pos hlow] at hp
    obtain ⟨hleads, hassigned, hpos, hmem, hepoch⟩ := hp
    exact ⟨(congrArg (bit · 7) hid).trans hleads, (congrArg (bit · 6) hid).trans hassigned, (congrArg (fld · 5 0) hid).trans hpos,
      (mem_of_rd (h rMemLo (by decide)) (h rMemHi (by decide))).trans hmem, (congrArg (fld · 15 0) (h rPackEpoch (by decide))).trans hepoch⟩
  · next hlow =>
    rw [if_neg hlow] at hp
    exact (congrArg (bit · 6) hid).trans hp

theorem loadDie_mem {d : Nat} (h : g.loadDie = some d) : d = 41 ∨ d = 42 := by
  unfold Pkg.loadDie at h
  split at h
  · exact .inl (Option.some.inj h).symm
  · split at h
    · exact .inr (Option.some.inj h).symm
    · exact absurd h (by simp)

/-- The Husk once its package has booted. -/
def Husk.booted (h : Husk) : Husk := { h with state := 2, rst := false, failed := !h.ref }

/-- The boot's last act: the load die's region buffers are powered (R413). -/
def Pkg.loadGate (g : Pkg) : Pkg := match g.loadDie with
  | some d => g.wr (rGateB d) 0xF
  | none => g

theorem boot_eq : g.boot = ({ g with hk := g.hk.booted } : Pkg).strapRole.loadGate := rfl

theorem loadGate_hk : g.loadGate.hk = g.hk := by
  unfold Pkg.loadGate
  split <;> rfl

theorem strapRole_hk : g.strapRole.hk = g.hk := by
  unfold Pkg.strapRole
  split <;> rfl

theorem strapRole_sites : g.strapRole.sites = g.sites := by
  unfold Pkg.strapRole
  split <;> rfl

theorem loadGate_rd {a : Nat} (h : a ≠ rGateB 41 ∧ a ≠ rGateB 42) : g.loadGate.rd a = g.rd a := by
  unfold Pkg.loadGate
  split
  · next d hd =>
    rcases loadDie_mem g hd with rfl | rfl
    · exact Pkg.wr_rd_ne _ _ h.1
    · exact Pkg.wr_rd_ne _ _ h.2
  · rfl

theorem boot_hk : g.boot.hk = g.hk.booted := by rw [boot_eq, loadGate_hk, strapRole_hk]

theorem boot_core : g.boot.core = g.core := by
  have hgate (p : Pkg) : p.loadGate.core = p.core := by
    unfold Pkg.loadGate
    split
    · next d hd => rcases loadDie_mem p hd with rfl | rfl <;> exact core_wr _ _ (by decide)
    · rfl
  have hrole (p : Pkg) : p.strapRole.core = p.core := by
    unfold Pkg.strapRole
    split
    · exact (core_wr _ _ (by decide)).trans ((core_wr _ _ (by decide)).trans ((core_wr _ _ (by decide)).trans (core_wr _ _ (by decide))))
    · rfl
  rw [boot_eq, hgate, hrole, core_hk]

/-- A package that boots takes the role its strap gives; one that had no position has none without it. -/
theorem boot_role (h : g.hk.leadLow = false → g.assigned = false) : g.boot.InRole g.hk.leadLow := by
  rw [boot_eq]
  refine inRole_of_rd (p := ({ g with hk := g.hk.booted } : Pkg).strapRole) (fun a ha => loadGate_rd _ ?_) ?_
  · revert a
    decide
  · cases hlow : g.hk.leadLow with
    | true => exact strapRole_low _ hlow
    | false =>
      exact (strapRole_high ({ g with hk := g.hk.booted } : Pkg) hlow).symm ▸ h hlow

/-- The load die's region buffers are powered (R413). -/
theorem boot_gate {d : Nat} (h : g.loadDie = some d) : g.boot.rd (rGateB d) = 0xF#32 := by
  have hd : ({ g with hk := g.hk.booted } : Pkg).strapRole.loadDie = some d := by
    rw [← h]
    unfold Pkg.loadDie Pkg.hole Pkg.siteSt
    rw [strapRole_sites]
  rw [boot_eq, Pkg.loadGate, hd]
  exact Pkg.wr_rd_self ..
end

/-! ## Package resets and loss of power -/

/-- Stacks marked as in self-refresh. -/
def Pkg.stacksAsleep (l : List Nat) (g : Pkg) : Pkg := l.foldl (fun g j => g.wb (rStack j 0) 27 true) g

theorem rStack_ne (j : Nat) {a : Nat} (h : a % 0x100000 ≠ 0) : rStack j 0 ≠ a := by
  unfold rStack rk
  omega

theorem stacksAsleep_keeps (l : List Nat) (g : Pkg) : (g.stacksAsleep l).core = g.core ∧ (g.stacksAsleep l).hk = g.hk ∧ (g.stacksAsleep l).rd rPackId = g.rd rPackId := by
  unfold Pkg.stacksAsleep
  exact ⟨foldl_keeps (P := Pkg.core) (fun g j => core_wr g _ ⟨rStack_ne j (by decide), rStack_ne j (by decide)⟩) _ _,
    foldl_keeps (P := Pkg.hk) (by intro _ _; rfl) _ _, foldl_keeps (P := fun g : Pkg => g.rd rPackId) (fun g j => Pkg.wr_rd_ne _ _ (rStack_ne j (by decide)).symm) _ _⟩

theorem core_sk (g : Pkg) (x : Stacks) : ({ g with sk := x } : Pkg).core = g.core := rfl

/-- A package as it loses its power. -/
def Pkg.poweredDown (k : Nat) (s1 : Bool) (g : Pkg) : Pkg :=
  let b : Pkg := { g.resetPkg k with
    sk := if s1 then g.sk.asleep else {}
    hk := { (g.resetPkg k).hk with state := if s1 then 1 else 0, rst := false, failed := g.hk.failed && !g.hk.ref } }
  if s1 then b.stacksAsleep (List.range 12) else b

/-- A package as a reset leaves it before its boot. -/
def Pkg.resetAs (k : Nat) (stk : Bool) (l : List Nat) (g : Pkg) : Pkg :=
  ({ g.resetPkg k with sk := if stk then g.sk.asleep else {} } : Pkg).stacksAsleep l

/-- A reset package boots, unless PERST_N holds it. -/
def Pkg.bootOrHeld (g : Pkg) : Pkg := if g.hk.perst then { g with hk := { g.hk with state := 2, rst := true } } else g.boot

section
variable (s : Pack) (k : Nat)

theorem powerDown_g (s1 : Bool) : (s.powerDown k s1).g k = (((s.advAbort k).isolate k).g k).poweredDown k s1 := by
  show (((s.advAbort k).isolate k).on k (fun g => g.poweredDown k s1)).g k = _
  rw [Pack.on_g_self]

theorem pkgReset_g (stk : Bool) : ∃ l, (s.pkgReset k stk).g k = ((((s.advAbort k).isolate k).g k).resetAs k stk l).bootOrHeld := by
  refine ⟨(List.range 12).filter (fun j => stk && (((s.advAbort k).isolate k).g k).selfRef j), ?_⟩
  unfold Pack.pkgReset
  extract_lets t sref u v
  have hu : v.g k = (t.g k).resetAs k stk sref := Pack.on_g_self t k (fun g => g.resetAs k stk sref)
  rw [Pack.on_g_self, hu]
  rfl

/-- The bytes of a memory from which some are gone. -/
theorem memRd_filter (keep : Nat → Bool) (m : Mem) (a : Nat) : memRd (m.filter (fun c => keep c.1)) a = if keep a then memRd m a else memInit := by
  unfold memRd
  split
  · next h => exact mget_filter_of _ (fun _ => h) m
  · next h => exact mget_filter_gone _ (fun _ => Bool.eq_false_iff.mpr h) m

/-- A package without power is fresh, and its hub is down (R395, R396). -/
theorem powerDown_down (s1 : Bool) :
    let g := s.g k
    let q := (s.powerDown k s1).g k
    q.hk.state = (if s1 then 1 else 0) ∧ q.hubUp = false ∧ g.FreshAs k q ∧ q.hk.pwrok = g.hk.pwrok := by
  intro g q
  obtain ⟨hfuses, z, ps, l, hstop⟩ := stopped_g s k
  have hlog : (((s.advAbort k).isolate k).g k).log = g.log := by rw [hstop]
  have hpwrok : (((s.advAbort k).isolate k).g k).hk.pwrok = g.hk.pwrok := by rw [hstop]
  generalize hp : ((s.advAbort k).isolate k).g k = p at hfuses hlog hpwrok
  obtain ⟨regs, hreset⟩ := resetPkg_eq p k
  have hfresh := resetPkg_fresh hfuses hlog
  have hq : q.core = (p.resetPkg k).core ∧ q.hk = { (p.resetPkg k).hk with state := if s1 then 1 else 0, rst := false, failed := p.hk.failed && !p.hk.ref } := by
    rw [show q = _ from powerDown_g s k s1, hp]
    unfold Pkg.poweredDown
    cases s1 with
    | true =>
      obtain ⟨hcore, hhk, -⟩ := stacksAsleep_keeps (List.range 12) _
      exact ⟨hcore, hhk⟩
    | false => exact ⟨rfl, rfl⟩
  obtain ⟨hcore, hhk⟩ := hq
  refine ⟨by rw [hhk], ?_, freshAs_of_core hcore hfresh, ?_⟩
  · rw [Pkg.hubUp, Pkg.powered, hhk]
    cases s1 <;> simp
  · rw [hhk, hreset]
    exact hpwrok

theorem powerDown_keeps (s1 : Bool) : (s.powerDown k s1).mem = s.mem.filter (fun c => if s1 then keepStack k c.1 else keepOther k c.1) := by
  show ((s.advAbort k).isolate k).mem.filter _ = _
  rw [Pack.isolate_mem, Pack.advAbort_mem]

/-- A package that is reset is up, held by PERST_N or booted in its role (R397). -/
theorem pkgReset_up (stk : Bool) :
    let g := s.g k
    let q := (s.pkgReset k stk).g k
    q.hk.state = 2 ∧ q.hk.rst = g.hk.perst ∧ (g.hk.perst = false → q.InRole g.hk.leadLow) ∧ g.FreshAs k q ∧ q.hk.perst = g.hk.perst := by
  intro g q
  obtain ⟨hfuses, z, ps, l, hstop⟩ := stopped_g s k
  have hlog : (((s.advAbort k).isolate k).g k).log = g.log := by rw [hstop]
  have hhk0 : (((s.advAbort k).isolate k).g k).hk = g.hk := by rw [hstop]
  generalize hp : ((s.advAbort k).isolate k).g k = p at hfuses hlog hhk0
  obtain ⟨regs, hreset⟩ := resetPkg_eq p k
  have hfresh := resetPkg_fresh hfuses hlog
  obtain ⟨asleep, hq⟩ := pkgReset_g s k stk
  rw [hp] at hq
  have hb : (p.resetAs k stk asleep).core = (p.resetPkg k).core ∧ (p.resetAs k stk asleep).hk = (p.resetPkg k).hk ∧
      (p.resetAs k stk asleep).rd rPackId = (p.resetPkg k).rd rPackId := stacksAsleep_keeps asleep _
  generalize p.resetAs k stk asleep = b at hb hq
  obtain ⟨hcore, hhk, hid⟩ := hb
  have hperst : b.hk.perst = g.hk.perst := by
    rw [hhk, hreset, ← hhk0]
    rfl
  have hlow : b.hk.leadLow = g.hk.leadLow := by
    rw [hhk, hreset, ← hhk0]
    rfl
  have hassigned : b.assigned = false := by
    rw [Pkg.assigned, Pkg.rb, hid, resetPkg_rd _ _ (by decide)]
    decide
  rw [show q = _ from hq, Pkg.bootOrHeld]
  cases hcase : b.hk.perst with
  | true =>
    rw [if_pos rfl]
    exact ⟨rfl, hcase ▸ hperst, fun h => absurd (hcase.symm.trans (hperst.trans h)) (by decide), freshAs_of_core hcore hfresh, hperst⟩
  | false =>
    rw [if_neg Bool.false_ne_true]
    refine ⟨by rw [boot_hk]; rfl, ?_, fun _ => hlow ▸ boot_role b fun _ => hassigned, freshAs_of_core ((boot_core b).trans hcore) hfresh, ?_⟩
    · rw [boot_hk, ← hperst, hcase]
      rfl
    · rw [boot_hk]
      exact hperst

theorem pkgReset_keeps (stk : Bool) : (s.pkgReset k stk).mem = s.mem.filter (fun c => if stk then keepStack k c.1 else keepOther k c.1) := by
  show ((s.advAbort k).isolate k).mem.filter _ = _
  rw [Pack.isolate_mem, Pack.advAbort_mem]
end

end Sys2Proof.Machine
end

section
/-! PROOFS. Power states: wake, standby, off, package reset -/

namespace Sys2Proof.Machine

/-! ## Packages that go up and down -/

/-- Two states of a package that a reset cannot tell apart. -/
structure Pkg.Alike (g h : Pkg) : Prop where
  advancing : h.advancing = g.advancing
  fz : h.fz = g.fz
  target : h.rd (rKey 4) = g.rd (rKey 4)
  log : h.log = g.log
  perst : h.hk.perst = g.hk.perst
  leadLow : h.hk.leadLow = g.hk.leadLow

theorem fusesKept_alike {g h q : Pkg} {k : Nat} (ha : g.Alike h) (hq : h.FusesKept k q) : g.FusesKept k q := by
  unfold Pkg.FusesKept Pkg.svnctr Pkg.rf at hq ⊢
  rw [ha.advancing, ha.fz, ha.target] at hq
  exact hq

theorem freshAs_alike {g h q : Pkg} {k : Nat} (ha : g.Alike h) (hq : h.FreshAs k q) : g.FreshAs k q :=
  ⟨fusesKept_alike ha hq.1, ha.log ▸ hq.2.1, hq.2.2⟩

/-- Memory from which all is gone but what a test keeps. -/
def Pack.Wiped (s : Pack) (keep : Nat → Bool) (q : Pack) : Prop := ∀ a, memRd q.mem a = if keep a then memRd s.mem a else memInit

/-- A package that has gone up: fresh, in its role, its memory lost but for stacks in self-refresh (R397). -/
def Pack.UpFrom (s : Pack) (k : Nat) (stk : Bool) (q : Pack) : Prop :=
  (q.g k).hk.state = 2 ∧ (q.g k).hk.rst = (s.g k).hk.perst ∧ ((s.g k).hk.perst = false → (q.g k).InRole (s.g k).hk.leadLow) ∧ (s.g k).FreshAs k (q.g k) ∧
  s.Wiped (if stk then keepStack k else keepOther k) q

/-- A package that has gone down (R395, R396). -/
def Pack.DownFrom (s : Pack) (k : Nat) (s1 : Bool) (q : Pack) : Prop :=
  (q.g k).hk.state = (if s1 then 1 else 0) ∧ (q.g k).hubUp = false ∧ (s.g k).FreshAs k (q.g k) ∧ s.Wiped (if s1 then keepStack k else keepOther k) q

section
variable {s t q : Pack} {k : Nat} {b : Bool}

theorem wiped_of_filter (h : q.mem = s.mem.filter (fun c => if b then keepStack k c.1 else keepOther k c.1)) : s.Wiped (if b then keepStack k else keepOther k) q := by
  intro a
  rw [h]
  cases b with
  | true => exact memRd_filter (keepStack k) s.mem a
  | false => exact memRd_filter (keepOther k) s.mem a

theorem pkgReset_upFrom (s : Pack) (k : Nat) (stk : Bool) : s.UpFrom k stk (s.pkgReset k stk) := by
  obtain ⟨hstate, hrst, hrole, hfresh, -⟩ := pkgReset_up s k stk
  exact ⟨hstate, hrst, hrole, hfresh, wiped_of_filter (pkgReset_keeps s k stk)⟩

theorem powerDown_downFrom (s : Pack) (k : Nat) (s1 : Bool) : s.DownFrom k s1 (s.powerDown k s1) := by
  obtain ⟨hstate, hdown, hfresh, -⟩ := powerDown_down s k s1
  exact ⟨hstate, hdown, hfresh, wiped_of_filter (powerDown_keeps s k s1)⟩

variable (ha : (s.g k).Alike (t.g k)) (hmem : t.mem = s.mem)
include ha hmem

theorem upFrom_alike (h : t.UpFrom k b q) : s.UpFrom k b q := by
  obtain ⟨hstate, hrst, hrole, hfresh, hwiped⟩ := h
  rw [ha.perst] at hrst hrole
  rw [ha.leadLow] at hrole
  refine ⟨hstate, hrst, hrole, freshAs_alike ha hfresh, fun a => ?_⟩
  rw [hwiped a, hmem]

theorem downFrom_alike (h : t.DownFrom k b q) : s.DownFrom k b q := by
  obtain ⟨hstate, hdown, hfresh, hwiped⟩ := h
  refine ⟨hstate, hdown, freshAs_alike ha hfresh, fun a => ?_⟩
  rw [hwiped a, hmem]
end

/-! ## Commands to the power block -/

section
variable {s : State} {k : Nat} {P : Pack → Prop}

/-- A posted write that is no command to the fuses leaves an advance of SVNCTR alone as it lands. -/
theorem arrived_advancing {x : Post} (hdue : Due s.pack k x) (hoff : x.off ≠ 0x16000) : ((s.pack.g k).arrived x.key).advancing = (s.pack.g k).advancing := by
  have hposts : ((s.pack.g k).posts.filter (fun p => p.key != x.key)).any (fun p => p.site == 62 && p.off == 0x16000 && bit p.v 4) =
      (s.pack.g k).posts.any (fun p => p.site == 62 && p.off == 0x16000 && bit p.v 4) := by
    rw [Bool.eq_iff_iff, List.any_eq_true, List.any_eq_true]
    constructor
    · rintro ⟨p, hp, hfuse⟩
      exact ⟨p, List.mem_of_mem_filter hp, hfuse⟩
    · rintro ⟨p, hp, hfuse⟩
      refine ⟨p, List.mem_filter.mpr ⟨hp, bne_iff_ne.mpr fun hkey => hoff ?_⟩, hfuse⟩
      have hone : p ∈ [x] := hdue.only ▸ List.mem_filter.mpr ⟨hp, beq_iff_eq.mpr hkey⟩
      rw [← List.mem_singleton.mp hone]
      simp only [Bool.and_eq_true, beq_iff_eq] at hfuse
      exact hfuse.1.2
  exact congrArg ((s.pack.g k).bphase == 2 && ·) hposts

theorem arrived_alike {x : Post} (hdue : Due s.pack k x) (hoff : x.off ≠ 0x16000) :
    (s.pack.g k).Alike ((s.pack.on k (fun g => g.arrived x.key)).g k) := by
  rw [Pack.on_g_self]
  exact ⟨arrived_advancing hdue hoff, rfl, rfl, rfl, rfl, rfl⟩

theorem lands_pwrCmd {n : Nat} {x : WrX}
    (h : (s.pack.g k).Alike ((s.pack.on k (fun g => g.arrived (rPwr 0))).g k) → P ((s.pack.on k (fun g => g.arrived (rPwr 0))).pwrCmd k (mk32 n) x.stuck x.tests)) :
    Lands s k { key := rPwr 0, site := 62, off := 0x14008, v := mk32 n, x := x } P := fun site off hkey hdue =>
  ⟨_, gives_postedWriteComplete (b := .pwr) (o := 8) hkey (by decide : ¬ (hubR 0x30000 ≤ rPwr 0 ∧ rPwr 0 < hubR 0x40000)) hdue
    (by decide : blockOf 62 0x14008 = some (.pwr, 8)), h (arrived_alike hdue (by decide : 0x14008 ≠ 0x16000))⟩

/-- The package in which a command to the power block has landed. -/
theorem commanded_g (s : Pack) (k : Nat) : ((s.on k (fun g => g.arrived (rPwr 0))).g k).hk = (s.g k).hk ∧ ((s.on k (fun g => g.arrived (rPwr 0))).g k).mayLeave = (s.g k).mayLeave ∧
    ∀ a, ((s.on k (fun g => g.arrived (rPwr 0))).g k).rd a = (s.g k).rd a := by
  rw [Pack.on_g_self]
  exact ⟨rfl, rfl, fun _ => rfl⟩

/-- A command that is refused (R394). -/
def Pack.RefusedFrom (s : Pack) (k : Nat) (q : Pack) : Prop := (q.g k).rb (rPwr 0xC) 19 = true ∧ (q.g k).hk = (s.g k).hk ∧ q.mem = s.mem

theorem refuse_refused (s : Pack) (k : Nat) : s.RefusedFrom k ((s.on k (fun g => g.arrived (rPwr 0))).on k Pkg.refuse) := by
  unfold Pack.RefusedFrom
  rw [Pack.on_g_self, Pack.on_g_self]
  exact ⟨Pkg.rb_wb_same _ _ _ (by decide), rfl, rfl⟩

section
variable (p : Pack) (k : Nat) (v : W32) (stuck : Bool) (tests : List EdgeTest) (hrst : (p.g k).hk.rst = false)
include hrst

/-- PWR.CMD by its code, where no reset is held (R395 to R397). -/
theorem pwrCmd_wake (hv : fld v 31 28 = 1) : p.pwrCmd k v stuck tests = p.wake k := by
  unfold Pack.pwrCmd
  rw [if_neg (by simp [hrst])]
  simp only [hv]

theorem pwrCmd_standby (hv : fld v 31 28 = 2) : p.pwrCmd k v stuck tests = p.standby k (bit v 27) stuck := by
  unfold Pack.pwrCmd
  rw [if_neg (by simp [hrst])]
  simp only [hv]

theorem pwrCmd_off (hv : fld v 31 28 = 3) : p.pwrCmd k v stuck tests = p.off k (bit v 27) := by
  unfold Pack.pwrCmd
  rw [if_neg (by simp [hrst])]
  simp only [hv]

theorem pwrCmd_reset (hv : fld v 31 28 = 4) : p.pwrCmd k v stuck tests = p.pkgResetCmd k := by
  unfold Pack.pwrCmd
  rw [if_neg (by simp [hrst])]
  simp only [hv]

theorem pwrCmd_die (hv : fld v 31 28 = 5) : p.pwrCmd k v stuck tests = p.dieReset k (fld v 5 0) tests := by
  unfold Pack.pwrCmd
  rw [if_neg (by simp [hrst])]
  simp only [hv]
end

section
variable (hrst : (s.pack.g k).hk.rst = false)
include hrst

theorem commanded_rst : ((s.pack.on k (fun g => g.arrived (rPwr 0))).g k).hk.rst = false := (congrArg Husk.rst (commanded_g s.pack k).1).trans hrst

/-- A WAKE that may act (R396, R411). -/
theorem lands_wake (hstate : (s.pack.g k).hk.state ≠ 2) (hok : (s.pack.g k).hk.pwrok = true) (href : (s.pack.g k).hk.ref = true)
    (htrip : (s.pack.g k).rb (rPwr 0xC) 28 = false) :
    Lands s k { key := rPwr 0, site := 62, off := 0x14008, v := mk32 (1 * 2 ^ 28), x := {} } (fun q =>
      if Config.fuseError k = true then s.pack.RefusedFrom k q else s.pack.UpFrom k ((s.pack.g k).hk.state == 1) q) := by
  refine lands_pwrCmd fun ha => ?_
  obtain ⟨hhk, -, hrd⟩ := commanded_g s.pack k
  rw [pwrCmd_wake _ _ _ _ _ (commanded_rst hrst) (by decide : fld (mk32 (1 * 2 ^ 28)) 31 28 = 1)]
  unfold Pack.wake
  dsimp only
  rw [hhk, if_neg hstate, Pkg.rb, hrd, show bit ((s.pack.g k).rd (rPwr 0xC)) 28 = false from htrip]
  by_cases hfuse : Config.fuseError k = true
  · rw [if_pos hfuse, if_pos (by simp [hfuse])]
    exact refuse_refused s.pack k
  · rw [if_neg hfuse, if_neg (by simp [hok, href, hfuse])]
    exact upFrom_alike ha rfl (pkgReset_upFrom _ k _)

/-- A WAKE without power, reference clock or with a trip standing is refused (R396, R404). -/
theorem lands_wake_refused (hstate : (s.pack.g k).hk.state ≠ 2)
    (hbad : (s.pack.g k).hk.pwrok = false ∨ (s.pack.g k).hk.ref = false ∨ (s.pack.g k).rb (rPwr 0xC) 28 = true) :
    Lands s k { key := rPwr 0, site := 62, off := 0x14008, v := mk32 (1 * 2 ^ 28), x := {} } (s.pack.RefusedFrom k) := by
  refine lands_pwrCmd fun _ => ?_
  obtain ⟨hhk, -, hrd⟩ := commanded_g s.pack k
  rw [pwrCmd_wake _ _ _ _ _ (commanded_rst hrst) (by decide : fld (mk32 (1 * 2 ^ 28)) 31 28 = 1)]
  unfold Pack.wake
  dsimp only
  rw [hhk, if_neg hstate, if_pos]
  · exact refuse_refused s.pack k
  · rcases hbad with h | h | h
    · exact .inl (by rw [h]; rfl)
    · exact .inr (.inl (by rw [h]; rfl))
    · exact .inr (.inr (.inl (by rw [Pkg.rb, hrd]; exact h)))
end

section
variable (hup : (s.pack.g k).hubUp = true)
include hup

theorem up_husk : (s.pack.g k).hk.state = 2 ∧ (s.pack.g k).hk.rst = false := by
  simp only [Pkg.hubUp, Pkg.powered, Bool.and_eq_true, beq_iff_eq, Bool.not_eq_true'] at hup
  exact ⟨hup.1.1.2, hup.1.2⟩

/-- STANDBY and OFF of a package that may leave, or is forced to (R395, R396). -/
theorem lands_standby {force stuck : Bool} (hmay : force = true ∨ (s.pack.g k).mayLeave = true) :
    Lands s k { key := rPwr 0, site := 62, off := 0x14008, v := mk32 (2 * 2 ^ 28 + b2n force * 2 ^ 27), x := { stuck := stuck } }
      (s.pack.DownFrom k (!(force && stuck))) := by
  obtain ⟨hstate, hrst⟩ := up_husk hup
  refine lands_pwrCmd fun ha => ?_
  obtain ⟨hhk, hleave, -⟩ := commanded_g s.pack k
  rw [pwrCmd_standby _ _ _ _ _ (commanded_rst hrst) ((by decide : ∀ b, fld (mk32 (2 * 2 ^ 28 + b2n b * 2 ^ 27)) 31 28 = 2) force)]
  rw [(by decide : ∀ b, bit (mk32 (2 * 2 ^ 28 + b2n b * 2 ^ 27)) 27 = b) force]
  unfold Pack.standby
  dsimp only
  rw [hhk, hleave, if_neg]
  · exact downFrom_alike ha rfl (powerDown_downFrom _ k _)
  · rintro (h | ⟨hf, hm⟩)
    · exact h hstate
    · rcases hmay with h | h
      · simp [h] at hf
      · simp [h] at hm

theorem lands_off {force : Bool} (hmay : force = true ∨ (s.pack.g k).mayLeave = true) :
    Lands s k { key := rPwr 0, site := 62, off := 0x14008, v := mk32 (3 * 2 ^ 28 + b2n force * 2 ^ 27), x := {} } (s.pack.DownFrom k false) := by
  obtain ⟨hstate, hrst⟩ := up_husk hup
  refine lands_pwrCmd fun ha => ?_
  obtain ⟨hhk, hleave, -⟩ := commanded_g s.pack k
  rw [pwrCmd_off _ _ _ _ _ (commanded_rst hrst) ((by decide : ∀ b, fld (mk32 (3 * 2 ^ 28 + b2n b * 2 ^ 27)) 31 28 = 3) force)]
  rw [(by decide : ∀ b, bit (mk32 (3 * 2 ^ 28 + b2n b * 2 ^ 27)) 27 = b) force]
  unfold Pack.off
  dsimp only
  rw [hhk, hleave, if_neg]
  · exact downFrom_alike ha rfl (powerDown_downFrom _ k _)
  · rintro (h | ⟨hf, hm⟩)
    · rw [hstate] at h
      exact absurd h (by decide)
    · rcases hmay with h | h
      · simp [h] at hf
      · simp [h] at hm

/-- STANDBY and OFF of a package that may not leave are refused (R395). -/
theorem lands_standby_refused {stuck : Bool} (hmay : (s.pack.g k).mayLeave = false) :
    Lands s k { key := rPwr 0, site := 62, off := 0x14008, v := mk32 (2 * 2 ^ 28 + b2n false * 2 ^ 27), x := { stuck := stuck } } (s.pack.RefusedFrom k) := by
  obtain ⟨hstate, hrst⟩ := up_husk hup
  refine lands_pwrCmd fun _ => ?_
  obtain ⟨hhk, hleave, -⟩ := commanded_g s.pack k
  rw [pwrCmd_standby _ _ _ _ _ (commanded_rst hrst) (by decide : fld (mk32 (2 * 2 ^ 28 + b2n false * 2 ^ 27)) 31 28 = 2)]
  unfold Pack.standby
  dsimp only
  rw [hleave, if_pos (.inr ⟨by decide, by rw [hmay]; rfl⟩)]
  exact refuse_refused s.pack k

theorem lands_off_refused (hmay : (s.pack.g k).mayLeave = false) :
    Lands s k { key := rPwr 0, site := 62, off := 0x14008, v := mk32 (3 * 2 ^ 28 + b2n false * 2 ^ 27), x := {} } (s.pack.RefusedFrom k) := by
  obtain ⟨hstate, hrst⟩ := up_husk hup
  refine lands_pwrCmd fun _ => ?_
  obtain ⟨hhk, hleave, -⟩ := commanded_g s.pack k
  rw [pwrCmd_off _ _ _ _ _ (commanded_rst hrst) (by decide : fld (mk32 (3 * 2 ^ 28 + b2n false * 2 ^ 27)) 31 28 = 3)]
  unfold Pack.off
  dsimp only
  rw [hleave, if_pos (.inr ⟨by decide, by rw [hmay]; rfl⟩)]
  exact refuse_refused s.pack k

/-- PKGRESET (R397). -/
theorem lands_pkgReset : Lands s k { key := rPwr 0, site := 62, off := 0x14008, v := mk32 (4 * 2 ^ 28), x := {} } (s.pack.UpFrom k false) := by
  obtain ⟨hstate, hrst⟩ := up_husk hup
  refine lands_pwrCmd fun ha => ?_
  obtain ⟨hhk, -⟩ := commanded_g s.pack k
  rw [pwrCmd_reset _ _ _ _ _ (commanded_rst hrst) (by decide : fld (mk32 (4 * 2 ^ 28)) 31 28 = 4)]
  unfold Pack.pkgResetCmd
  rw [hhk, if_pos hstate]
  exact upFrom_alike ha rfl (pkgReset_upFrom _ k _)
end
end

end Sys2Proof.Machine
end

section
/-! PROOFS. Power states: DIERESET -/

namespace Sys2Proof.Machine

/-! ## Which sites stand, as ports go down -/

section
variable (g : Pkg)

theorem logAt_standing (code x1 x2 x3 a0 a1 a2 : Nat) : (g.logAt code x1 x2 x3 a0 a1 a2).standing = g.standing := by
  rw [Pkg.standing, Pkg.logAt_sites, Pkg.logAt_started, Pkg.standing]

/-- What the fall of a port leaves of its package: which sites stand, and what the Husk isolates. -/
def Pkg.outer (g : Pkg) : (Map SiteSt × Map Bool) × W32 := (g.standing, g.rd (rHusk 8))

theorem wr_outer {a : Nat} (v : W32) (h : a ≠ rHusk 8) : (g.wr a v).outer = g.outer := by
  rw [Pkg.outer, Pkg.wr_rd_ne _ _ h.symm]
  rfl

theorem logAt_outer (code x1 x2 x3 a0 a1 a2 : Nat) : (g.logAt code x1 x2 x3 a0 a1 a2).outer = g.outer := by
  rw [Pkg.outer, logAt_standing, Pkg.logAt_rd _ _ _ _ _ _ _ _ (by decide), Pkg.outer]

theorem send_outer (m : Msg) : (g.send m).outer = g.outer := rfl

theorem reverts_outer (upto : Nat) : (g.reverts upto).outer = g.outer := rfl

theorem setPhase_outer (n : Nat) : (g.setPhase n).outer = g.outer := by
  obtain ⟨m, hm⟩ := g.setPhase_eq n
  rw [hm]
  exact wr_outer g _ (by decide)

theorem halt_outer (cause : Nat) : (g.halt cause).outer = g.outer := by
  unfold Pkg.halt
  split
  · rfl
  · exact (logAt_outer ..).trans ((wr_outer _ _ (by decide)).trans (setPhase_outer g 4))

theorem linkClear_outer (n : Nat) : (g.linkClear n).outer = g.outer := (wr_outer _ _ (by decide)).trans rfl

theorem fencePort_outer (n : Nat) : (g.fencePort n).outer = g.outer := by
  unfold Pkg.fencePort
  split
  · exact (wr_outer _ _ (rPort_ne_hubR n (by decide : 0 < 0x1000) 0x15008)).trans (linkClear_outer g n)
  · rfl

theorem failPkg_outer : g.failPkg.outer = g.outer := by
  unfold Pkg.failPkg
  split
  · exact (wr_outer _ _ (by decide)).trans rfl
  · rfl

theorem partition_outer : g.partition.outer = g.outer := by
  unfold Pkg.partition
  split
  · rfl
  · extract_lets h
    have hh : h.outer = g.outer :=
      (logAt_outer ..).trans ((wr_outer _ _ (by decide)).trans ((wr_outer _ _ (by decide)).trans (setPhase_outer g 4)))
    refine (foldl_keeps (P := Pkg.outer) (fun g n => fencePort_outer g n) _ _).trans ?_
    exact (failPkg_outer h).trans hh

theorem portFell_outer (n : Nat) (beats : Bool) (far : Nat × Nat) : (g.portFell n beats far).outer = g.outer := by
  unfold Pkg.portFell
  exact (logAt_outer ..).trans ((wr_outer _ _ (rPort_ne_hubR n (by decide : 0 < 0x1000) 0x15008)).trans (linkClear_outer g n))
end

section
variable (s : Pack) (k i : Nat)

theorem haltAll_outer (cause : Nat) : ((s.haltAll i cause).g k).outer = (s.g k).outer :=
  foldl_keeps (P := fun p : Pack => (p.g k).outer) (fun p j => Pack.on_keeps (P := Pkg.outer) p j k (halt_outer _ cause)) _ _

theorem revertTo_outer (host : Bool) (upto : Nat) : ((s.revertTo i host upto).g k).outer = (s.g k).outer := by
  unfold Pack.revertTo
  dsimp only
  split_ifs
  · rfl
  · exact Pack.on_keeps (P := Pkg.outer) _ _ _ rfl
  · exact Pack.on_keeps (P := Pkg.outer) _ _ _ rfl
  · rfl
  · exact haltAll_outer s k i 7
  · rw [startRevert_eq]
    exact Pack.on_keeps (P := Pkg.outer) _ _ _ ((reverts_outer ..).trans ((wr_outer _ _ (by decide : rProt 4 ≠ rHusk 8)).trans (wr_outer _ _ (by decide : rProt 4 ≠ rHusk 8))))
  · exact haltAll_outer s k i 6

theorem succeed_outer : ((s.succeed i).g k).outer = (s.g k).outer := by
  unfold Pack.succeed
  dsimp only
  split_ifs
  · exact Pack.on_keeps (P := Pkg.outer) _ _ _ (partition_outer _)
  · exact (revertTo_outer _ k i _ _).trans (Pack.on_keeps (P := Pkg.outer) _ _ _
      ((send_outer ..).trans <| (wr_outer _ _ (by decide : rPackStat ≠ rHusk 8)).trans (wr_outer _ _ (by decide : rPackId ≠ rHusk 8))))
  · rfl

theorem declareLost_outer (p : Nat) : ((s.declareLost i p).g k).outer = (s.g k).outer := by
  unfold Pack.declareLost
  extract_lets g t h
  have hgone : (t.g k).outer = (s.g k).outer := Pack.on_keeps (P := Pkg.outer) _ _ _ rfl
  split_ifs
  · rfl
  · exact (Pack.on_keeps (P := Pkg.outer) _ _ _ (partition_outer _)).trans hgone
  · exact (revertTo_outer t k i _ _).trans hgone
  · exact (Pack.on_keeps (P := Pkg.outer) _ _ _ rfl).trans hgone
  · exact (succeed_outer t k i).trans hgone
  · exact hgone

theorem takePortDown_outer (pos port farPos farPort : Nat) : ((s.takePortDown i pos port farPos farPort).g k).outer = (s.g k).outer := by
  unfold Pack.takePortDown
  extract_lets a b g links t u
  have hlinks : (t.g k).outer = (s.g k).outer := Pack.on_keeps (P := Pkg.outer) _ _ _ rfl
  have hnear : (u.g k).outer = (s.g k).outer := by
    refine Eq.trans ?_ hlinks
    show ((if mget 0 links pos = 0 then t.declareLost i pos else t).g k).outer = _
    split
    · exact declareLost_outer t k i pos
    · rfl
  split_ifs
  · rfl
  · exact (declareLost_outer u k i farPos).trans hnear
  · exact hnear

/-- A port that goes DOWN takes no die with it. -/
theorem portDown_outer (n : Nat) (beats : Bool) : ((s.portDown i n beats).g k).outer = (s.g k).outer := by
  by_cases huse : PortInUse ((s.g i).portState n)
  · have hfell : ((s.on i (fun g => g.portFell n beats ((s.g i).farEnd n))).g k).outer = (s.g k).outer :=
      Pack.on_keeps (P := Pkg.outer) _ _ _ (portFell_outer ..)
    rw [s.portDown_inUse i beats huse]
    dsimp only
    split
    · exact (takePortDown_outer _ k i _ _ _ _).trans hfell
    · exact hfell
  · rw [s.portDown_unused i beats huse]
end

/-! ## DIERESET -/

section
variable {s : Pack} {k site : Nat}

/-- A site that is lost: its place is marked, whatever its ports carried. -/
theorem siteLost_places (x : SiteSt) : ((s.siteLost k site x).g k).standing = (mins (s.g k).sites site x, (s.g k).started) := by
  unfold Pack.siteLost
  extract_lets s0 gone s1 s2 s3
  have h0 : (s0.g k).standing = (s.g k).standing := foldl_keeps (P := fun p : Pack => (p.g k).standing) (fun p n => by
    beta_reduce
    split
    · exact congrArg Prod.fst (portDown_outer p k k n true)
    · rfl) _ _
  have h1 : (s1.g k).standing = (mins (s0.g k).sites site x, (s0.g k).started) := by
    show ((s0.on k _).g k).standing = _
    rw [Pack.on_g_self]
    refine (foldl_keeps (P := Pkg.standing) (fun g e => ?_) [0, 1, 2, 3, 4] { s0.g k with sites := mins (s0.g k).sites site x }).trans rfl
    split <;> rfl
  have h2 : (s2.g k).standing = (s1.g k).standing := foldl_keeps (P := fun p : Pack => (p.g k).standing) (fun p f => skipFlit_standing p f) ..
  have h3 : (s3.g k).standing = (s2.g k).standing :=
    foldl_keeps (P := fun p : Pack => (p.g k).standing) (fun p j => by
      beta_reduce
      split
      · exact stackPortDown_standing ..
      · rfl) ..
  have hall : (s3.g k).standing = (mins (s.g k).sites site x, (s.g k).started) :=
    (h3.trans (h2.trans h1)).trans (congrArg (fun y : Map SiteSt × Map Bool => (mins y.1 site x, y.2)) h0)
  split
  · exact (Pack.on_keeps (P := Pkg.standing) _ _ _ (failPkg_standing _)).trans hall
  · exact hall

/-- A die that is declared failed: a hole, and not started. -/
theorem dieFailed_places {reason : Nat} (hsite : site < 48) : ((s.dieFailed k site reason).g k).standing =
    if (s.g k).siteSt site = .active then (mins (s.g k).sites site .failed, mins (s.g k).started site false) else (s.g k).standing := by
  unfold Pack.dieFailed
  by_cases hst : (s.g k).siteSt site = .active
  · have hgo : ¬ (48 ≤ site ∨ (s.g k).siteSt site ≠ .active) := by simp [hst, hsite]
    rw [if_neg hgo, if_pos hst]
    dsimp only
    rw [Pack.on_g_self]
    have hlog (g : Pkg) : ((({ g with pr := { g.pr with bad := true } }).logHub 0x020E site reason 0).send (.revertReq g.pos 0x020E)).standing = g.standing :=
      logAt_standing ..
    have hstand := offersBack_standing ((s.g k).dieDrop site) site
    rw [hlog, siteLost_places, Pack.on_g_self]
    exact congrArg (fun x : Map SiteSt × Map Bool => (mins x.1 site SiteSt.failed, x.2)) hstand
  · rw [if_pos (.inr hst), if_neg hst]

/-- Whether a reset die's edges can run depends on which sites stand alone (R262, R263). -/
theorem edgesAble_congr {g h : Pkg} (hsites : h.sites = g.sites) (tests : List EdgeTest) : h.edgesAble k site tests = g.edgesAble k site tests := by
  have hhole (n : Nat) : h.hole n = g.hole n := by rw [Pkg.hole, Pkg.siteSt, hsites, Pkg.hole, Pkg.siteSt]
  unfold Pkg.edgesAble
  simp only [hhole]
  rfl

theorem poolSet_standing (g : Pkg) : g.poolSet.standing = g.standing := rfl

end

section
variable {s : State} {k site : Nat} {tests : List EdgeTest}

/-- DIERESET (R397). -/
theorem lands_dieReset (hup : (s.pack.g k).hubUp = true) (hsite : site < 48) (hoff : (s.pack.g k).siteSt site ≠ .off) :
    Lands s k { key := rPwr 0, site := 62, off := 0x14008, v := mk32 (5 * 2 ^ 28 + site % 64), x := { tests := tests } } (fun q =>
      (q.g k).siteSt site = (if ((s.pack.dieFailed k site 2).g k).edgesAble k site tests then .spare else .failed) ∧
      ((s.pack.g k).siteSt site = .active → mget false (q.g k).started site = false) ∧ q.mem = s.pack.mem) := by
  obtain ⟨hstate, hrst⟩ := up_husk hup
  refine lands_pwrCmd fun _ => ?_
  obtain ⟨hhk, -, -⟩ := commanded_g s.pack k
  have hword : ∀ n, n < 64 → fld (mk32 (5 * 2 ^ 28 + n)) 31 28 = 5 ∧ fld (mk32 (5 * 2 ^ 28 + n)) 5 0 = n := by decide
  obtain ⟨hcode, hfld⟩ := hword (site % 64) (Nat.mod_lt _ (by decide))
  rw [pwrCmd_die _ _ _ _ _ (commanded_rst hrst) hcode, hfld, Nat.mod_eq_of_lt (by omega)]
  have hst : (s.pack.on k (fun g => g.arrived (rPwr 0))).g k = (s.pack.g k).arrived (rPwr 0) := Pack.on_g_self ..
  have hsites : (((s.pack.on k (fun g => g.arrived (rPwr 0))).dieFailed k site 2).g k).standing = ((s.pack.dieFailed k site 2).g k).standing := by
    rw [dieFailed_places hsite, dieFailed_places hsite, hst]
    rfl
  unfold Pack.dieReset
  dsimp only
  rw [hhk, if_neg (by rw [hstate]; omega), hst, if_neg (show ¬ ((s.pack.g k).arrived (rPwr 0)).siteSt site = .off from hoff), Pack.on_g_self]
  refine ⟨?_, fun hactive => ?_, ?_⟩
  · rw [Pkg.siteSt, edgesAble_congr (congrArg Prod.fst hsites)]
    exact mget_mins_self ..
  · have hstarted : ((s.pack.dieFailed k site 2).g k).started = mins (s.pack.g k).started site false := by
      have hplaces := dieFailed_places (s := s.pack) (k := k) (reason := 2) hsite
      rw [if_pos hactive] at hplaces
      exact congrArg Prod.snd hplaces
    show mget false (((s.pack.on k (fun g => g.arrived (rPwr 0))).dieFailed k site 2).g k).started site = false
    rw [show (((s.pack.on k (fun g => g.arrived (rPwr 0))).dieFailed k site 2).g k).started = _ from congrArg Prod.snd hsites]
    exact (congrArg (mget false · site) hstarted).trans (mget_mins_self ..)
  · rw [Pack.on_mem, Pack.dieFailed_mem]
    rfl
end

end Sys2Proof.Machine
end

section
/-! PROOFS. Power states: the board's pins -/

namespace Sys2Proof.Machine

/-! ## The board's pins -/

/-- A command of the board leaves the pack as its meaning does. -/
theorem leaves_onPack {c : Instr} {s : State} {h : Pack → Pack} {P : Pack → Prop} (hc : exec c s = .next (s.onPack h)) (hP : P (h s.pack)) : Leaves c s P :=
  ⟨_, gives_of_onPack hc rfl, hP⟩

section
variable {s : Pack} {k : Nat}

/-- PWR_OK as the Husk sees it, and its bit in PWR.STAT. -/
def Pkg.pwrOkSeen (b : Bool) (g : Pkg) : Pkg := ({ g with hk := { g.hk with pwrok := b } }).wb (rPwr 0xC) 18 b

theorem pwrOkSeen_alike (b : Bool) (g : Pkg) : g.Alike (g.pwrOkSeen b) := by
  have hphase : (g.pwrOkSeen b).bphase = g.bphase := congrArg (fld · 30 28) (Pkg.wr_rd_ne _ _ (by decide))
  refine ⟨?_, rfl, Pkg.wr_rd_ne _ _ (by decide), rfl, rfl, rfl⟩
  unfold Pkg.advancing
  rw [hphase]
  rfl

theorem pwrOkSeen_bit (b : Bool) (g : Pkg) {i : Nat} (h : i ≠ 18) : (g.pwrOkSeen b).rb (rPwr 0xC) i = g.rb (rPwr 0xC) i := by
  unfold Pkg.pwrOkSeen
  rw [Pkg.rb, Pkg.rd_wb, if_pos rfl, bit_setB_apart _ _ (by decide) h]
  rfl

theorem pwrOkSeen_g (s : Pack) (k : Nat) (b : Bool) : (s.on k (fun g => g.pwrOkSeen b)).g k = (s.g k).pwrOkSeen b := Pack.on_g_self ..

theorem pwrOkRise_eq (hvaon : (s.g k).hk.vaon = true) : s.pwrOkRise k =
    if (s.g k).rb (rPwr 0) 29 = true ∧ (s.g k).hk.state ≠ 2 then (s.on k (fun g => g.pwrOkSeen true)).wake k else s.on k (fun g => g.pwrOkSeen true) := by
  have hauto : ((s.on k (fun g => g.pwrOkSeen true)).g k).rb (rPwr 0) 29 = (s.g k).rb (rPwr 0) 29 := by
    rw [pwrOkSeen_g, Pkg.rb, Pkg.pwrOkSeen, Pkg.rd_wb, if_neg (by decide)]
    rfl
  have hstate : ((s.on k (fun g => g.pwrOkSeen true)).g k).hk.state = (s.g k).hk.state := by
    rw [pwrOkSeen_g]
    rfl
  unfold Pack.pwrOkRise
  rw [if_neg (by simp [hvaon])]
  rw [← hauto, ← hstate]
  rfl

/-- PWR_OK rises where the package stays as it is (R430). -/
theorem pwrOkRise_seen (hvaon : (s.g k).hk.vaon = true) (h : (s.g k).rb (rPwr 0) 29 = false ∨ (s.g k).hk.state = 2) :
    ((s.pwrOkRise k).g k).hk = { (s.g k).hk with pwrok := true } ∧ ((s.pwrOkRise k).g k).rb (rPwr 0xC) 18 = true ∧ (s.pwrOkRise k).mem = s.mem := by
  rw [pwrOkRise_eq hvaon, if_neg (by rcases h with h | h <;> simp [h]), pwrOkSeen_g]
  exact ⟨rfl, Pkg.rb_wb_same _ _ _ (by decide), rfl⟩

/-- PWR_OK rises and wakes the package (R396, R430). -/
theorem pwrOkRise_wakes (hvaon : (s.g k).hk.vaon = true) (hauto : (s.g k).rb (rPwr 0) 29 = true) (hstate : (s.g k).hk.state ≠ 2) (href : (s.g k).hk.ref = true)
    (htrip : (s.g k).rb (rPwr 0xC) 28 = false) :
    if Config.fuseError k = true then ((s.pwrOkRise k).g k).hk = { (s.g k).hk with pwrok := true } ∧ ((s.pwrOkRise k).g k).rb (rPwr 0xC) 19 = true ∧
      (s.pwrOkRise k).mem = s.mem else s.UpFrom k ((s.g k).hk.state == 1) (s.pwrOkRise k) := by
  have hseen := pwrOkSeen_g s k true
  have hhk : ((s.on k (fun g => g.pwrOkSeen true)).g k).hk = { (s.g k).hk with pwrok := true } := by
    rw [hseen]
    rfl
  have hbit : ((s.on k (fun g => g.pwrOkSeen true)).g k).rb (rPwr 0xC) 28 = false := by rw [hseen, pwrOkSeen_bit _ _ (by decide), htrip]
  have halike : (s.g k).Alike ((s.on k (fun g => g.pwrOkSeen true)).g k) := by
    rw [hseen]
    exact pwrOkSeen_alike true _
  have hmem : (s.on k (fun g => g.pwrOkSeen true)).mem = s.mem := rfl
  have heq : s.pwrOkRise k = (s.on k (fun g => g.pwrOkSeen true)).wake k := (pwrOkRise_eq hvaon).trans (if_pos ⟨hauto, hstate⟩)
  rw [heq]
  generalize s.on k (fun g => g.pwrOkSeen true) = t at hhk hbit halike hmem
  have hstate' : (t.g k).hk.state = (s.g k).hk.state := by rw [hhk]
  have hclear : (!(t.g k).hk.pwrok) = false ∧ (!(t.g k).hk.ref) = false := by
    rw [hhk]
    exact ⟨rfl, by simpa using href⟩
  obtain ⟨hpwrok, href'⟩ := hclear
  by_cases hfuse : Config.fuseError k = true
  · have hwake : t.wake k = t.on k Pkg.refuse := by
      unfold Pack.wake
      dsimp only
      rw [hstate', if_neg hstate, if_pos (.inr (.inr (.inr hfuse)))]
    rw [if_pos hfuse, hwake, Pack.on_g_self]
    exact ⟨hhk, Pkg.rb_wb_same _ _ _ (by decide), hmem⟩
  · have hwake : t.wake k = t.pkgReset k ((s.g k).hk.state == 1) := by
      unfold Pack.wake
      dsimp only
      rw [hstate', if_neg hstate, if_neg (by rw [hpwrok, href', hbit]; simpa using hfuse)]
    rw [if_neg hfuse, hwake]
    exact upFrom_alike halike hmem (pkgReset_upFrom t k _)

/-- PWR_OK falls: the package goes to S3 (R430). -/
theorem pwrOkFall_down (hvaon : (s.g k).hk.vaon = true) (hstate : (s.g k).hk.state ≠ 0) :
    s.DownFrom k false (s.pwrOkFall k) ∧ ((s.pwrOkFall k).g k).hk.pwrok = false := by
  have heq : s.pwrOkFall k = (s.on k (fun g => g.pwrOkSeen false)).powerDown k false := by
    have hkept : ((s.on k (fun g => g.pwrOkSeen false)).g k).hk.state = (s.g k).hk.state := by
      rw [pwrOkSeen_g]
      rfl
    unfold Pack.pwrOkFall
    rw [if_neg (by simp [hvaon])]
    exact if_neg (hkept ▸ hstate)
  obtain ⟨-, -, -, hpwrok⟩ := powerDown_down (s.on k (fun g => g.pwrOkSeen false)) k false
  rw [heq]
  refine ⟨downFrom_alike (t := s.on k (fun g => g.pwrOkSeen false)) ?_ rfl (powerDown_downFrom _ k false), hpwrok.trans ?_⟩
  · rw [pwrOkSeen_g]
    exact pwrOkSeen_alike false _
  · rw [pwrOkSeen_g]
    rfl

/-- PERST_N as the Husk sees it. -/
def Pkg.perstSeen (b : Bool) (g : Pkg) : Pkg := { g with hk := { g.hk with perst := b } }

/-- PERST_N is asserted in P0 or P1: a package reset that it holds (R371). -/
theorem perstAssert_holds (hvaon : (s.g k).hk.vaon = true) (hstate : (s.g k).hk.state = 2) :
    let q := s.perstAssert k
    (q.g k).hk.state = 2 ∧ (q.g k).hk.rst = true ∧ (q.g k).hk.perst = true ∧ (s.g k).FreshAs k (q.g k) ∧ s.Wiped (keepOther k) q := by
  intro q
  have hg : (s.on k (fun g => g.perstSeen true)).g k = (s.g k).perstSeen true := Pack.on_g_self ..
  have hq : q = (s.on k (fun g => g.perstSeen true)).pkgReset k false := by
    show s.perstAssert k = _
    unfold Pack.perstAssert
    rw [if_neg (by simp [hvaon])]
    exact if_pos ((congrArg (·.hk.state) hg).trans hstate)
  obtain ⟨hst, hrst, -, ⟨hfuses, hlog, hrest⟩, hperst⟩ := pkgReset_up (s.on k (fun g => g.perstSeen true)) k false
  rw [hg] at hrst hfuses hlog hperst
  rw [hq]
  exact ⟨hst, hrst, hperst, ⟨hfuses, hlog, hrest⟩, wiped_of_filter (b := false) (pkgReset_keeps (s.on k (fun g => g.perstSeen true)) k false)⟩

/-- In S1 and S3 only the pin is seen (R371). -/
theorem perstAssert_seen (hvaon : (s.g k).hk.vaon = true) (hstate : (s.g k).hk.state ≠ 2) : s.perstAssert k = s.on k (fun g => g.perstSeen true) := by
  have hg : (s.on k (fun g => g.perstSeen true)).g k = (s.g k).perstSeen true := Pack.on_g_self ..
  unfold Pack.perstAssert
  rw [if_neg (by simp [hvaon])]
  exact if_neg fun h => hstate ((congrArg (·.hk.state) hg).symm.trans h)

section
variable {g : Pkg}

theorem perstRelease_seen (hvaon : g.hk.vaon = true) (hperst : g.hk.perst = true) (hstate : g.hk.state ≠ 2) : g.perstRelease = g.perstSeen false := by
  unfold Pkg.perstRelease
  rw [if_neg (by simp [hvaon, hperst])]
  exact if_neg fun h => hstate h.1

/-- PERST_N is released: the boot starts, without REFCLK in a package that stays failed (R371, R390, R431). -/
theorem perstRelease_boots (hvaon : g.hk.vaon = true) (hperst : g.hk.perst = true) (hstate : g.hk.state = 2) (hrst : g.hk.rst = true) :
    let q := g.perstRelease
    q.powered = true ∧ q.hubUp = g.hk.ref ∧ q.hk.perst = false ∧ (g.hk.leadLow = true → q.InRole g.hk.leadLow) ∧
    (∀ d, g.loadDie = some d → q.rd (rGateB d) = 0xF#32) := by
  intro q
  have hq : q = (g.perstSeen false).boot := by
    show g.perstRelease = _
    unfold Pkg.perstRelease
    rw [if_neg (by simp [hvaon, hperst])]
    exact if_pos ⟨hstate, hrst⟩
  have hhk : q.hk = (g.perstSeen false).hk.booted := by rw [hq, boot_hk]
  have hpow : q.powered = true := by
    rw [Pkg.powered, hhk]
    show (g.hk.vaon && true && true) = true
    rw [hvaon]
    rfl
  refine ⟨hpow, ?_, by rw [hhk]; rfl, fun hlow => ?_, fun d hd => ?_⟩
  · rw [Pkg.hubUp, hpow, hhk]
    show (true && !(!g.hk.ref)) = g.hk.ref
    cases g.hk.ref <;> rfl
  · rw [hq]
    exact boot_role (g.perstSeen false) fun h => absurd (hlow.symm.trans h) (by decide)
  · rw [hq]
    exact boot_gate (g.perstSeen false) hd

/-- REFCLK is lost in P0 or P1: the package has failed, and its threads and dies stand (R390). -/
theorem refLoss_says (k : Nat) (hvaon : g.hk.vaon = true) (href : g.hk.ref = true) (hstate : g.hk.state = 2) (hrst : g.hk.rst = false) :
    let q := g.refLoss
    q.hk.ref = false ∧ q.hk.failed = true ∧ q.started = [] ∧ q.rb (rPwr 0xC) 21 = true ∧ (∀ i, (mget ({} : Thread) q.thr i).st = .idle) ∧ q.faulted k = true := by
  intro q
  have hfail (h : Pkg) : h.failPkg.hk = h.hk ∧ h.failPkg.started = h.started ∧ h.failPkg.rb (rPwr 0xC) 21 = h.rb (rPwr 0xC) 21 ∧ h.failPkg.thr = h.thr := by
    unfold Pkg.failPkg
    split
    · refine ⟨rfl, rfl, ?_, rfl⟩
      rw [Pkg.rb, Pkg.rd_wb, if_neg (by decide)]
      rfl
    · exact ⟨rfl, rfl, rfl, rfl⟩
  have hq : ∃ h : Pkg, q = h.failPkg ∧ h.hk.ref = false ∧ h.hk.failed = true ∧ h.started = [] ∧ h.rb (rPwr 0xC) 21 = true ∧ h.thr = mmap (fun _ x => x.idled) g.thr := by
    show ∃ h : Pkg, g.refLoss = h.failPkg ∧ _
    unfold Pkg.refLoss
    rw [if_neg (by simp [hvaon, href])]
    extract_lets hk h
    have hh : h.hk = { g.hk with ref := false } := rfl
    have hbit : h.rb (rPwr 0xC) 21 = true := Pkg.rb_wb_same _ _ _ (by decide)
    rw [if_neg (by rw [hh]; simp [hstate, hrst])]
    exact ⟨_, rfl, rfl, rfl, rfl, hbit, rfl⟩
  obtain ⟨h, hq, href', hfailed, hstarted, hbit, hthr⟩ := hq
  obtain ⟨fhk, fstarted, fbit, fthr⟩ := hfail h
  rw [hq]
  refine ⟨by rw [fhk, href'], by rw [fhk, hfailed], by rw [fstarted, hstarted], by rw [fbit, hbit], fun i => ?_, ?_⟩
  · rw [fthr, hthr]
    exact idled_idle i g.thr
  · unfold Pkg.faulted
    rw [fbit, hbit]
    simp

/-- REFCLK is present again (R390, R396). -/
theorem refReturn_says : g.refReturn.hk = { g.hk with ref := true } ∧ g.refReturn.rb (rPwr 0xC) 21 = (g.hk.failed && g.rb (rPwr 0xC) 21) := by
  unfold Pkg.refReturn
  dsimp only
  cases hfail : g.hk.failed with
  | true =>
    rw [if_pos rfl]
    exact ⟨rfl, rfl⟩
  | false =>
    rw [if_neg Bool.false_ne_true]
    exact ⟨rfl, Pkg.rb_wb_same _ _ _ (by decide)⟩
end

/-- The trim word as the Husk sets it. -/
theorem trim_says {g : Pkg} {src port code : Nat} (hsrc : src < 4) (hport : port < 32) :
    let q := g.wr (rHusk 0) (setF (setF (setF (g.rd (rHusk 0)) 29 28 src) 27 23 port) 11 0 code)
    q.rf (rHusk 0) 29 28 = src ∧ q.rf (rHusk 0) 27 23 = port ∧ q.hk = g.hk := by
  intro q
  have hrd : q.rd (rHusk 0) = _ := Pkg.wr_rd_self ..
  refine ⟨?_, ?_, rfl⟩
  · rw [Pkg.rf, hrd, fld_setF_apart _ _ (by decide) (by decide) (.inr (by decide)), fld_setF_apart _ _ (by decide) (by decide) (.inr (by decide)),
      fld_setF_same _ _ (by decide) (by decide)]
    exact Nat.mod_eq_of_lt hsrc
  · rw [Pkg.rf, hrd, fld_setF_apart _ _ (by decide) (by decide) (.inr (by decide)), fld_setF_same _ _ (by decide) (by decide)]
    exact Nat.mod_eq_of_lt hport

/-- The Husk trims against REFCLK (R391). -/
theorem huskTrim_ref (hvaon : (s.g k).hk.vaon = true) (href : (s.g k).hk.ref = true) :
    ((s.huskTrim k).g k).rf (rHusk 0) 29 28 = 1 ∧ ((s.huskTrim k).g k).rf (rHusk 0) 27 23 = 0 ∧ ((s.huskTrim k).g k).hk = (s.g k).hk ∧ (s.huskTrim k).mem = s.mem := by
  unfold Pack.huskTrim
  extract_lets g d port set
  rw [if_neg (by simp [g, hvaon]), if_pos href, Pack.on_g_self]
  obtain ⟨hsrc, hport, hhk⟩ := trim_says (g := s.g k) (src := 1) (port := 0) (code := d.1) (by decide) (by decide)
  exact ⟨hsrc, hport, hhk, rfl⟩

/-- Without REFCLK and without a port to follow, the trim stays (R391). -/
theorem huskTrim_free (hvaon : (s.g k).hk.vaon = true) (href : (s.g k).hk.ref = false) (hports : ∀ n, n < 32 → (s.g k).portState n ≠ 2 ∧ (s.g k).portState n ≠ 3) :
    ((s.huskTrim k).g k).rf (rHusk 0) 29 28 = 0 ∧ ((s.huskTrim k).g k).rf (rHusk 0) 11 0 = (s.g k).rf (rHusk 0) 11 0 ∧ ((s.huskTrim k).g k).hk = (s.g k).hk ∧
    (s.huskTrim k).mem = s.mem := by
  have hnone : (List.range 32).find? (fun n => (s.g k).portState n == 2 || (s.g k).portState n == 3) = none :=
    List.find?_eq_none.mpr fun n hn => by simp [hports n (List.mem_range.mp hn)]
  unfold Pack.huskTrim
  extract_lets g d port set
  rw [if_neg (by simp [g, hvaon]), if_neg (by simp [g, href]), show port = none from hnone]
  dsimp only
  rw [Pack.on_g_self]
  refine ⟨?_, ?_, rfl, rfl⟩
  · rw [Pkg.rf, Pkg.wr_rd_self, fld_setF_apart _ _ (by decide) (by decide) (.inr (by decide)), fld_setF_same _ _ (by decide) (by decide)]
    rfl
  · rw [Pkg.rf, Pkg.wr_rd_self, fld_setF_apart _ _ (by decide) (by decide) (.inl (by decide)), fld_setF_apart _ _ (by decide) (by decide) (.inl (by decide)), Pkg.rf]

/-! VAON -/

/-- VAON rises: a power-on reset (R397, R410). -/
theorem vaonRise_says (s : Pack) (k : Nat) :
    let q := s.vaonRise k
    (q.g k).hk.vaon = true ∧ (q.g k).hk.state = 0 ∧ (s.g k).FusesKept k (q.g k) ∧ (q.g k).log = [] ∧ (q.g k).InRole (s.g k).hk.leadLow ∧ s.Wiped (keepOther k) q := by
  intro q
  obtain ⟨hfuses, -⟩ := stopped_g s k
  have hmem : q.mem = s.mem.filter (fun c => keepOther k c.1) := by
    show ((s.advAbort k).isolate k).mem.filter _ = _
    rw [Pack.isolate_mem, Pack.advAbort_mem]
  obtain ⟨b, hq, hfz, hhk, hlog, hid⟩ : ∃ b : Pkg, q.g k = b.strapRole ∧ b.fz = (((s.advAbort k).isolate k).g k).fz ∧
      b.hk = { perst := (s.g k).hk.perst, ref := (s.g k).hk.ref, leadLow := (s.g k).hk.leadLow } ∧ b.log = [] ∧ b.assigned = false := by
    refine ⟨_, Pack.on_g_self .., ?_⟩
    split
    · exact ⟨rfl, rfl, rfl, (by decide : bit (regReset rPackId) 6 = false)⟩
    · refine ⟨rfl, rfl, rfl, ?_⟩
      rw [Pkg.assigned, Pkg.rb, Pkg.rd_wb, if_neg (by decide)]
      exact (by decide : bit (regReset rPackId) 6 = false)
  have hrole : b.strapRole.InRole (s.g k).hk.leadLow := by
    cases hlow : (s.g k).hk.leadLow with
    | true => exact strapRole_low b (by rw [hhk]; exact hlow)
    | false =>
      rw [strapRole_high b (by rw [hhk]; exact hlow)]
      exact hid
  have hkept : b.strapRole.fz = b.fz ∧ b.strapRole.log = b.log := by
    unfold Pkg.strapRole
    split <;> exact ⟨rfl, rfl⟩
  rw [hq, strapRole_hk, hhk]
  refine ⟨rfl, rfl, fusesKept_of_fz (hkept.1.trans hfz) hfuses, hkept.2.trans hlog, hrole, fun a => ?_⟩
  rw [hmem]
  exact memRd_filter (keepOther k) s.mem a

/-- A package whose Husk has no supply. -/
def Pkg.unplugged (k : Nat) (h : Husk) (z : Fuses) : Pkg :=
  { sites := fusedOut k, fz := z, hk := { vaon := false, perst := h.perst, ref := h.ref, leadLow := h.leadLow } }

/-- VAON is removed (R431). -/
theorem vaonLoss_says (s : Pack) (k : Nat) :
    let q := s.vaonLoss k
    (q.g k).hk.vaon = false ∧ (q.g k).hubUp = false ∧ (s.g k).FusesKept k (q.g k) ∧ (q.g k).regs = [] ∧ s.Wiped (keepOther k) q := by
  intro q
  obtain ⟨hfuses, -⟩ := stopped_g s k
  have hmem : q.mem = s.mem.filter (fun c => keepOther k c.1) := by
    show ((s.advAbort k).isolate k).mem.filter _ = _
    rw [Pack.isolate_mem, Pack.advAbort_mem]
  have hq : q.g k = Pkg.unplugged k (s.g k).hk (((s.advAbort k).isolate k).g k).fz := Pack.on_g_self ..
  rw [hq]
  refine ⟨rfl, rfl, fusesKept_of_fz rfl hfuses, rfl, fun a => ?_⟩
  rw [hmem]
  exact memRd_filter (keepOther k) s.mem a
end

end Sys2Proof.Machine
end

section
/-! PROOFS. The Husk: isolation, mailbox, quotes -/

namespace Sys2Proof.Machine

/-! ## HUSK.ISO -/

section
variable (k : Nat) (v : W32)

/-- The ports that a word of HUSK.ISO holds go DOWN. -/
def Pack.isolated (s : Pack) (m : Nat) : Pack := (List.range m).foldl (fun s n => if bit v n then s.portDown k n false else s) s

theorem isolated_succ (s : Pack) (m : Nat) : Pack.isolated k v s (m + 1) = if bit v m then (Pack.isolated k v s m).portDown k m false else Pack.isolated k v s m := by
  simp only [Pack.isolated, List.range_succ, List.foldl_append, List.foldl_cons, List.foldl_nil]

/-- Each port that the word names is out of use, and no port comes back. -/
theorem isolated_says (s : Pack) : ∀ m, s.PortsLapse (Pack.isolated k v s m) ∧ ((Pack.isolated k v s m).g k).rd (rHusk 8) = (s.g k).rd (rHusk 8) ∧
    ∀ n, n < m → bit v n = true → ¬ PortInUse (((Pack.isolated k v s m).g k).portState n)
  | 0 => ⟨.refl s, rfl, fun n hn => absurd hn (Nat.not_lt_zero n)⟩
  | m + 1 => by
    obtain ⟨hlapse, hword, hout⟩ := isolated_says s m
    rw [isolated_succ]
    split
    · next hm =>
      have hstep := (Pack.isolated k v s m).portDown_lapses k m false
      refine ⟨hlapse.trans hstep, (congrArg Prod.snd (portDown_outer (Pack.isolated k v s m) k k m false)).trans hword, fun n hn hbit => ?_⟩
      by_cases hnm : n = m
      · subst hnm
        exact Pack.portDown_portState _ k n false
      · have hn' := hout n (by omega) hbit
        rw [(hstep k n).stays hn']
        exact hn'
    · next hm =>
      refine ⟨hlapse, hword, fun n hn hbit => hout n ?_ hbit⟩
      have : n ≠ m := fun h => hm (h ▸ hbit)
      omega
end

section
variable {s : State} {k : Nat} {P : Pack → Prop} {v : W32}

/-- A write of HUSK.ISO lands (R405). -/
theorem lands_iso : Lands s k { key := rHusk 4, site := 62, off := 0x15008, v := v, x := {} } (fun q => (q.g k).rd (rHusk 8) = v ∧
    ∀ n, n < 32 → bit v n = true → (q.g k).portState n = if 1 ≤ (s.pack.g k).portState n ∧ (s.pack.g k).portState n ≤ 3 then 4 else (s.pack.g k).portState n) := by
  intro site off hkey hdue
  refine ⟨_, gives_postedWriteComplete (b := .husk) (o := 8) hkey (by decide : ¬ (hubR 0x30000 ≤ rHusk 4 ∧ rHusk 4 < hubR 0x40000)) hdue
    (by decide : blockOf 62 0x15008 = some (.husk, 8)), ?_⟩
  have hg : ((s.pack.on k (fun g => g.arrived (rHusk 4))).on k (fun g => g.wr (rHusk 8) v)).g k = ((s.pack.g k).arrived (rHusk 4)).wr (rHusk 8) v := by
    rw [Pack.on_g_self, Pack.on_g_self]
  have hport (n : Nat) : (((s.pack.on k (fun g => g.arrived (rHusk 4))).on k (fun g => g.wr (rHusk 8) v)).g k).portState n = (s.pack.g k).portState n := by
    rw [hg]
    exact Pkg.wr_hubR_portState ..
  obtain ⟨hlapse, hword, hout⟩ := isolated_says k v ((s.pack.on k (fun g => g.arrived (rHusk 4))).on k (fun g => g.wr (rHusk 8) v)) 32
  show ((Pack.isolated k v _ 32).g k).rd (rHusk 8) = v ∧ ∀ n, n < 32 → bit v n = true → ((Pack.isolated k v _ 32).g k).portState n = _
  refine ⟨hword.trans (by rw [hg, Pkg.wr_rd_self]), fun n hn hbit => ?_⟩
  rw [(hlapse k n).down (hout n hn hbit), hport]

/-! ## The mailbox -/

theorem lands_mbctl (hP : ∀ p : Pack, p.g k = ((s.pack.g k).arrived (rHusk 4)).mbctlWrite v → p.mem = s.pack.mem → P p) :
    Lands s k { key := rHusk 4, site := 62, off := 0x15004, v := v, x := {} } P :=
  lands_of_on (b := .husk) (o := 4) (by decide : blockOf 62 0x15004 = some (.husk, 4)) (by decide : rHusk 4 < hubR 0x30000) (fun g => g.mbctlWrite v)
    (fun _ _ => rfl) hP

theorem send_word {len : Nat} (h : len ≤ 256) : bit (mk32 (2 ^ 28 + len % 512)) 28 = true ∧ bit (mk32 (2 ^ 28 + len % 512)) 27 = false ∧
    fld (mk32 (2 ^ 28 + len % 512)) 8 0 = len := by
  have hall : ∀ n, n < 257 → bit (mk32 (2 ^ 28 + n)) 28 = true ∧ bit (mk32 (2 ^ 28 + n)) 27 = false ∧ fld (mk32 (2 ^ 28 + n)) 8 0 = n := by decide +kernel
  rw [Nat.mod_eq_of_lt (by omega)]
  exact hall len (by omega)

/-- HSEND with no message waiting for the board (R407). -/
theorem lands_hsend {len : Nat} (hlen : len ≤ 256) (h : (s.pack.g k).rb (rHusk 4) 30 = false) :
    Lands s k { key := rHusk 4, site := 62, off := 0x15004, v := mk32 (2 ^ 28 + len % 512), x := {} } (fun q =>
      (q.g k).rf (rHusk 4) 8 0 = len ∧ (q.g k).rb (rHusk 4) 30 = true ∧ (q.g k).rb (rHusk 4) 29 = (s.pack.g k).rb (rHusk 4) 29 ∧ q.mem = s.pack.mem) := by
  obtain ⟨h28, h27, hfld⟩ := send_word hlen
  refine lands_mbctl fun p hp hmem => ?_
  have hq : p.g k = (((s.pack.g k).arrived (rHusk 4)).wf (rHusk 4) 8 0 len).wb (rHusk 4) 30 true := by
    rw [hp]
    unfold Pkg.mbctlWrite
    dsimp only
    rw [h28, h27, hfld, if_pos rfl, if_neg Bool.false_ne_true]
    exact if_neg (by rw [show ((s.pack.g k).arrived (rHusk 4)).rb (rHusk 4) 30 = false from h]; exact Bool.false_ne_true)
  have hrd : (p.g k).rd (rHusk 4) = setB (setF ((s.pack.g k).rd (rHusk 4)) 8 0 len) 30 true := by
    rw [hq, Pkg.rd_wb, if_pos rfl, Pkg.rd_wf, if_pos rfl, Pkg.arrived_rd]
  refine ⟨?_, ?_, ?_, hmem⟩
  · rw [Pkg.rf, hrd, fld_setB_apart _ _ (by decide) (.inl (by decide)), fld_setF_same _ _ (by decide) (by decide)]
    exact Nat.mod_eq_of_lt (by omega)
  · rw [Pkg.rb, hrd]
    exact bit_setB_same _ _ (by decide)
  · rw [Pkg.rb, hrd, bit_setB_apart _ _ (by decide) (by decide), bit_setF_apart _ _ (by decide) (by decide) (.inr (by decide)), Pkg.rb]

/-- HSEND while a message waits for the board is refused (R407). -/
theorem lands_hsend_refused {len : Nat} (hlen : len ≤ 256) (h : (s.pack.g k).rb (rHusk 4) 30 = true) :
    Lands s k { key := rHusk 4, site := 62, off := 0x15004, v := mk32 (2 ^ 28 + len % 512), x := {} } (fun q =>
      s.pack.RefusedFrom k q ∧ (q.g k).rd (rHusk 4) = (s.pack.g k).rd (rHusk 4)) := by
  obtain ⟨h28, h27, -⟩ := send_word hlen
  refine lands_mbctl fun p hp hmem => ?_
  have hq : p.g k = ((s.pack.g k).arrived (rHusk 4)).refuse := by
    rw [hp]
    unfold Pkg.mbctlWrite
    dsimp only
    rw [h28, h27, if_pos rfl, if_neg Bool.false_ne_true]
    exact if_pos h
  unfold Pack.RefusedFrom
  rw [hq]
  refine ⟨⟨Pkg.rb_wb_same _ _ _ (by decide), rfl, hmem⟩, ?_⟩
  rw [Pkg.refuse, Pkg.rd_wb, if_neg (by decide), Pkg.arrived_rd]

/-- BACK (R407). -/
theorem lands_back (h28 : bit v 28 = false) :
    Lands s k { key := rHusk 4, site := 62, off := 0x15004, v := setB v 27 true, x := {} } (fun q =>
      (q.g k).rb (rHusk 4) 29 = false ∧ (q.g k).rf (rHusk 4) 8 0 = fld v 8 0 ∧ (q.g k).rb (rHusk 4) 30 = (s.pack.g k).rb (rHusk 4) 30 ∧ q.mem = s.pack.mem) := by
  refine lands_mbctl fun p hp hmem => ?_
  have hq : p.g k = (((s.pack.g k).arrived (rHusk 4)).wf (rHusk 4) 8 0 (fld v 8 0)).wb (rHusk 4) 29 false := by
    rw [hp]
    unfold Pkg.mbctlWrite
    dsimp only
    rw [bit_setB_same _ _ (by decide), if_pos rfl, bit_setB_apart v true (by decide : 27 < 32) (by decide : 28 ≠ 27), h28, if_neg Bool.false_ne_true,
      fld_setB_apart _ _ (by decide) (.inl (by decide))]
    rfl
  have hrd : (p.g k).rd (rHusk 4) = setB (setF ((s.pack.g k).rd (rHusk 4)) 8 0 (fld v 8 0)) 29 false := by
    rw [hq, Pkg.rd_wb, if_pos rfl, Pkg.rd_wf, if_pos rfl, Pkg.arrived_rd]
  refine ⟨?_, ?_, ?_, hmem⟩
  · rw [Pkg.rb, hrd]
    exact bit_setB_same _ _ (by decide)
  · rw [Pkg.rf, hrd, fld_setB_apart _ _ (by decide) (.inl (by decide)), fld_setF_same _ _ (by decide) (by decide)]
    exact Nat.mod_eq_of_lt (fld_lt ..)
  · rw [Pkg.rb, hrd, bit_setB_apart _ _ (by decide) (by decide), bit_setF_apart _ _ (by decide) (by decide) (.inr (by decide)), Pkg.rb]
end

/-! ## Quotes -/

theorem fixLen_length (n : Nat) (bs : List Byte) : (fixLen n bs).length = n := by
  unfold fixLen
  rw [List.length_take, List.length_append, List.length_replicate]
  omega

theorem huskBytes_length (g : Pkg) (o n : Nat) : (g.huskBytes o n).length = n := by
  unfold Pkg.huskBytes
  rw [List.length_take, List.length_flatMap]
  simp only [leBytes_length, List.map_const', List.sum_replicate, List.length_range, smul_eq_mul]
  omega

/-- The first parts of a quote's body by their lengths. -/
theorem quote_parts {a b c t : List Byte} (ha : a.length = 4) (hb : b.length = 8) (hc : c.length = 32) :
    (a ++ (b ++ (c ++ t))).take 4 = a ∧ ((a ++ (b ++ (c ++ t))).drop 4).take 8 = b ∧ ((a ++ (b ++ (c ++ t))).drop 12).take 32 = c := by
  refine ⟨List.take_left' ha, ?_, ?_⟩
  · rw [List.drop_left' ha]
    exact List.take_left' hb
  · rw [show 12 = 4 + 8 from rfl, ← List.drop_drop, List.drop_left' ha, List.drop_left' hb]
    exact List.take_left' hc

section
variable {s : Pack} {k : Nat}

/-- The body of a quote begins with its mark, the serial and the nonce, and has 128 bytes (R408). -/
theorem qreq_takes (h : (s.g k).hk.quote = none) : ∃ x, ((s.qreq k).g k).hk.quote = some x ∧ x.length = 128 ∧ x.take 4 = leBytes 0x4855534B 4 ∧
    (x.drop 4).take 8 = leBytes (serialOf k) 8 ∧ (x.drop 12).take 32 = (s.g k).huskBytes 0x300 32 ∧ ((s.qreq k).g k).regs = (s.g k).regs ∧ (s.qreq k).mem = s.mem := by
  unfold Pack.qreq
  extract_lets g d r body
  have hr : r.2.g k = s.g k ∧ r.2.mem = s.mem := by
    show (Prod.snd (match g.newestSeq with
      | some n => (n, s)
      | none => (d.1 % 2 ^ 32, d.2))).g k = _ ∧ (Prod.snd (match g.newestSeq with
      | some n => (n, s)
      | none => (d.1 % 2 ^ 32, d.2))).mem = _
    split <;> exact ⟨rfl, rfl⟩
  have hlen : body.length = 128 := by
    simp only [body, List.length_append, leBytes_length, huskBytes_length, fixLen_length, List.length_replicate]
  obtain ⟨t, ht⟩ : ∃ t, body = leBytes 0x4855534B 4 ++ (leBytes (serialOf k) 8 ++ (g.huskBytes 0x300 32 ++ t)) := by
    simp only [body, List.append_assoc]
    exact ⟨_, rfl⟩
  obtain ⟨hmark, hserial, hnonce⟩ := quote_parts (t := t) (leBytes_length 4 0x4855534B) (leBytes_length 8 (serialOf k)) (huskBytes_length g 0x300 32)
  rw [if_neg (by simp [g, h]), Pack.on_g_self, hr.1]
  rw [← ht] at hmark hserial hnonce
  exact ⟨body, rfl, hlen, hmark, hserial, hnonce, rfl, hr.2⟩

theorem qreq_busy (h : (s.g k).hk.quote.isSome = true) : s.qreq k = s := if_pos h
end

end Sys2Proof.Machine
end

section
/-! PROOFS. The Husk: what is stored of a quote -/

namespace Sys2Proof.Machine

/-! ## Words of a byte string -/

theorem leVal_lt : ∀ l : List Byte, leVal l < 256 ^ l.length
  | [] => Nat.one_pos
  | b :: l => by
    have hb : b.toNat < 256 := b.isLt
    have hl := leVal_lt l
    rw [List.length_cons, Nat.pow_succ, leVal]
    omega

theorem leBytes_leVal : ∀ l : List Byte, leBytes (leVal l) l.length = l
  | [] => rfl
  | b :: l => by
    have hb : b.toNat < 256 := b.isLt
    rw [List.length_cons, leBytes, leVal, show (b.toNat + 256 * leVal l) / 256 = leVal l by omega, leBytes_leVal l]
    refine congrArg (· :: l) (BitVec.eq_of_toNat_eq ?_)
    rw [BitVec.toNat_ofNat]
    omega

/-- A word of a byte string, written out again. -/
theorem leBytes_wordOf {bs : List Byte} {w : Nat} (h : 4 * w + 4 ≤ bs.length) : leBytes (wordOf bs w).toNat 4 = (bs.drop (4 * w)).take 4 := by
  have hlen : (fixLen 4 (bs.drop (4 * w))).length = 4 := fixLen_length ..
  have hcut : fixLen 4 (bs.drop (4 * w)) = (bs.drop (4 * w)).take 4 := by
    unfold fixLen
    exact List.take_append_of_le_length (by rw [List.length_drop]; omega)
  have hlt : leVal (fixLen 4 (bs.drop (4 * w))) < 2 ^ 32 := lt_of_lt_of_eq (leVal_lt _) (by rw [hlen]; rfl)
  rw [wordOf, toNat_mk32 hlt, ← hcut]
  exact (congrArg (leBytes _) hlen.symm).trans (leBytes_leVal _)

/-- A byte string is its words. -/
theorem words_bytes {bs : List Byte} : ∀ m, 4 * m ≤ bs.length → (List.range m).flatMap (fun w => leBytes (wordOf bs w).toNat 4) = bs.take (4 * m)
  | 0, _ => by simp
  | m + 1, h => by
    rw [List.range_succ, List.flatMap_append, words_bytes m (by omega), List.flatMap_singleton, leBytes_wordOf (by omega), ← List.take_add]
    rfl

/-! Registers filled one after the other -/

section
variable {f : Nat → Nat} {v : Nat → W32}

theorem fill_rd_out {a : Nat} (g : Pkg) (n : Nat) (h : ∀ w, w < n → f w ≠ a) : ((List.range n).foldl (fun g w => g.wr (f w) (v w)) g).rd a = g.rd a :=
  foldl_keeps_mem (P := fun g : Pkg => g.rd a) _ _ fun g w hw => Pkg.wr_rd_ne _ _ (h w (List.mem_range.mp hw)).symm

theorem fill_rd_in (hf : ∀ i j, f i = f j → i = j) (g : Pkg) : ∀ n w, w < n → ((List.range n).foldl (fun g w => g.wr (f w) (v w)) g).rd (f w) = v w
  | 0, w, h => absurd h (Nat.not_lt_zero w)
  | n + 1, w, h => by
    rw [List.range_succ, List.foldl_append, List.foldl_cons, List.foldl_nil]
    by_cases hw : w = n
    · subst hw
      exact Pkg.wr_rd_self ..
    · rw [Pkg.wr_rd_ne _ _ fun e => hw (hf _ _ e)]
      exact fill_rd_in hf g n w (by omega)
end

/-! ## A quote that is signed -/

section
variable {g : Pkg} {o : Nat} {bs : List Byte}

theorem rHusk_inj (o : Nat) (i j : Nat) (h : rHusk (o + 4 * i) = rHusk (o + 4 * j)) : i = j := by
  unfold rHusk hubR rk at h
  omega

theorem huskFill_rd {a : Nat} (h : ∀ w, w < (bs.length + 3) / 4 → rHusk (o + 4 * w) ≠ a) : (g.huskFill o bs).rd a = g.rd a := fill_rd_out (v := wordOf bs) g _ h

/-- A buffer reads back what has been filled in. -/
theorem huskFill_bytes {n : Nat} (hn : 4 * n ≤ bs.length) : (g.huskFill o bs).huskBytes o (4 * n) = bs.take (4 * n) := by
  unfold Pkg.huskBytes
  have hwords : (List.range ((4 * n + 3) / 4)).flatMap (fun w => leBytes ((g.huskFill o bs).rd (rHusk (o + 4 * w))).toNat 4) =
      (List.range n).flatMap (fun w => leBytes (wordOf bs w).toNat 4) := by
    rw [show (4 * n + 3) / 4 = n by omega]
    refine List.flatMap_congr fun w hw => ?_
    have hw' := List.mem_range.mp hw
    rw [show (g.huskFill o bs).rd (rHusk (o + 4 * w)) = wordOf bs w from fill_rd_in (f := fun w => rHusk (o + 4 * w)) (v := wordOf bs) (rHusk_inj o) g _ w (by omega)]
  rw [hwords, words_bytes n hn, List.take_take, Nat.min_self]

/-- Another buffer is as it was. -/
theorem huskFill_other {o' n : Nat} (h : ∀ w w', w < (bs.length + 3) / 4 → w' < (n + 3) / 4 → o + 4 * w ≠ o' + 4 * w') :
    (g.huskFill o bs).huskBytes o' n = g.huskBytes o' n := by
  unfold Pkg.huskBytes
  refine congrArg (List.take n) (List.flatMap_congr fun w' hw' => ?_)
  rw [huskFill_rd fun w hw e => h w w' hw (List.mem_range.mp hw') (by unfold rHusk hubR rk at e; omega)]
end

section
variable {s : Pack} {k : Nat} {body : List Byte}

/-- The quote is stored; DONE reads 1 where it is for the nonce that stands (R408). -/
theorem quoteDone_says (hquote : (s.g k).hk.quote = some body) (hlen : body.length = 128) :
    ((s.quoteDone k).g k).hk.quote = none ∧ ((s.quoteDone k).g k).huskBytes 0x400 128 = body ∧
    ((s.quoteDone k).g k).rb (rHusk 0xC) 30 = (decide ((body.drop 12).take 32 = (s.g k).huskBytes 0x300 32) || (s.g k).rb (rHusk 0xC) 30) ∧
    (s.quoteDone k).mem = s.mem := by
  obtain ⟨sig, hsig, hq⟩ : ∃ sig : List Byte, sig.length = 64 ∧ s.quoteDone k = s.draw.2.on k (fun g =>
      let g := (g.huskFill 0x400 (body ++ sig)).onHk (fun h => { h with quote := none })
      if (body.drop 12).take 32 = g.huskBytes 0x300 32 then g.wb (rHusk 0xC) 30 true else g) := by
    refine ⟨fixLen 64 (Config.sm2Sign k s.draw.1 body), fixLen_length .., ?_⟩
    unfold Pack.quoteDone
    rw [hquote]
  have hbs : (body ++ sig).length = 192 := by rw [List.length_append, hlen, hsig]
  have hstored : ((s.g k).huskFill 0x400 (body ++ sig)).huskBytes 0x400 128 = body := by
    rw [huskFill_bytes (n := 32) (by omega)]
    exact List.take_left' hlen
  have hnonce : ((s.g k).huskFill 0x400 (body ++ sig)).huskBytes 0x300 32 = (s.g k).huskBytes 0x300 32 := huskFill_other fun w w' hw hw' => by omega
  have hdone : ((s.g k).huskFill 0x400 (body ++ sig)).rd (rHusk 0xC) = (s.g k).rd (rHusk 0xC) := huskFill_rd fun w hw => by
    unfold rHusk hubR rk
    omega
  have hg : (s.quoteDone k).g k = if (body.drop 12).take 32 = (s.g k).huskBytes 0x300 32 then
      (((s.g k).huskFill 0x400 (body ++ sig)).onHk (fun h => { h with quote := none })).wb (rHusk 0xC) 30 true
      else ((s.g k).huskFill 0x400 (body ++ sig)).onHk (fun h => { h with quote := none }) := by
    rw [hq, Pack.on_g_self, ← hnonce]
    rfl
  generalize (s.g k).huskFill 0x400 (body ++ sig) = f at hstored hnonce hdone hg
  have hmem : (s.quoteDone k).mem = s.mem := by
    rw [hq]
    rfl
  rw [hg]
  split
  · next hsame =>
    refine ⟨rfl, ?_, ?_, hmem⟩
    · rw [← hstored]
      unfold Pkg.huskBytes
      refine congrArg (List.take 128) (List.flatMap_congr fun w hw => ?_)
      rw [Pkg.rd_wb, if_neg]
      · rfl
      · unfold rHusk hubR rk
        omega
    · rw [decide_eq_true hsame]
      exact Pkg.rb_wb_same _ _ _ (by decide)
  · next hother =>
    refine ⟨rfl, hstored, ?_, hmem⟩
    rw [decide_eq_false hother]
    exact congrArg (bit · 30) hdone

/-- A write of a word of HUSK.NONCE clears DONE (R408). -/
theorem nonceWrite_says (g : Pkg) {j : Nat} (hj : j < 8) (v : W32) : (g.nonceWrite j v).rd (rHusk (0x300 + 4 * j)) = v ∧ (g.nonceWrite j v).rb (rHusk 0xC) 30 = false := by
  unfold Pkg.nonceWrite
  refine ⟨?_, Pkg.rb_wb_same _ _ _ (by decide)⟩
  rw [Pkg.rd_wb, if_neg, Pkg.wr_rd_self]
  unfold rHusk hubR rk
  omega

/-- The lend-ready timer (R435). -/
theorem lendPulse_eq (g : Pkg) (k : Nat) : g.lendPulse k = if g.hk.pulse = true ∨ (g.rb rPins 30 = true ∧ g.lready = true ∧ g.faulted k = false) then
    { g with hk := { g.hk with pulse := !g.hk.pulse } } else g := by
  unfold Pkg.lendPulse
  cases hpulse : g.hk.pulse with
  | true =>
    rw [if_pos rfl, if_pos (.inl rfl)]
    rfl
  | false =>
    rw [if_neg Bool.false_ne_true]
    by_cases h : g.rb rPins 30 = true ∧ g.lready = true ∧ g.faulted k = false
    · rw [if_pos (by simp [h]), if_pos (.inr h)]
      rfl
    · rw [if_neg (by simpa [and_assoc] using h), if_neg (by simpa using h)]
end

end Sys2Proof.Machine
end

section
/-! PROOFS. The boot: LOAD -/

namespace Sys2Proof.Machine

/-! ## LOAD -/

/-- The codes of LOAD's checks fit ERR (R415). -/
theorem headErr_lt {g : Pkg} {k e : Nat} {h : List Byte} (he : g.headErr k h = some e) : e < 16 := by
  unfold Pkg.headErr at he
  dsimp only at he
  split_ifs at he <;> cases he <;> decide

theorem bphase_lt (g : Pkg) : g.bphase < 8 := fld_lt ..

theorem setBphase_says (g : Pkg) {p : Nat} (hp : p < 8) : (g.setBphase p).bphase = p ∧ (g.setBphase p).rf (rKey 0) 27 24 = g.rf (rKey 0) 27 24 :=
  ⟨(Pkg.rf_wf_same _ _ (by decide) (by decide)).trans (Nat.mod_eq_of_lt hp), Pkg.rf_wf_apart _ _ (by decide) (by decide) (.inl (by decide))⟩

theorem bootErr_says (g : Pkg) {e : Nat} (he : e < 16) : (g.bootErr e).rf (rKey 0) 27 24 = e ∧ (g.bootErr e).bphase = g.bphase :=
  ⟨(Pkg.rf_wf_same _ _ (by decide) (by decide)).trans (Nat.mod_eq_of_lt he), Pkg.rf_wf_apart _ _ (by decide) (by decide) (.inr (by decide))⟩

theorem loadFail_says (g : Pkg) {e : Nat} (he : e < 16) : (g.loadFail e).bphase = 3 ∧ (g.loadFail e).rf (rKey 0) 27 24 = e := by
  obtain ⟨hphase, herr⟩ := setBphase_says (g.bootErr e) (p := 3) (by decide)
  exact ⟨hphase, herr.trans (bootErr_says g he).1⟩

/-- What LOAD makes of a header's first failing check (R415). -/
def Pkg.Loaded (g q : Pkg) : Option Nat → Prop
  | some err => q.rf (rKey 0) 27 24 = err ∧ q.bphase = 3
  | none => q.bphase = 1 ∧ q.rf (rKey 0) 27 24 = g.rf (rKey 0) 27 24

section
variable {s : Pack} {k : Nat} {l : Loc} (hup : (s.g k).hubUp = true)
include hup

theorem load_busy (h : (s.g k).bphase = 1 ∨ (s.g k).bphase = 2) : s.load k = s.on k (fun g => g.bootErr 8) := by
  unfold Pack.load
  dsimp only
  rw [if_neg (by simp [hup]), if_pos h]

theorem load_says (h1 : (s.g k).bphase ≠ 1) (h2 : (s.g k).bphase ≠ 2) (hloc : (s.g k).loadLoc k = some l) :
    (s.load k).mem = s.mem ∧ (s.g k).Loaded ((s.load k).g k) ((s.g k).headErr k (s.bytes l 4096)) := by
  have hload : s.load k = match (s.g k).headErr k (s.bytes l 4096) with
      | some e => s.on k (fun g => g.loadFail e)
      | none => s.on k (fun g => g.setBphase 1) := by
    unfold Pack.load
    dsimp only
    rw [if_neg (by simp [hup]), if_neg (by omega), hloc] <;> rfl
  cases herr : (s.g k).headErr k (s.bytes l 4096) with
  | some e =>
    rw [herr] at hload
    obtain ⟨hphase, hcode⟩ := loadFail_says (s.g k) (headErr_lt herr)
    rw [hload]
    refine ⟨rfl, ?_⟩
    rw [Pack.on_g_self]
    exact ⟨hcode, hphase⟩
  | none =>
    rw [herr] at hload
    obtain ⟨hphase, hcode⟩ := setBphase_says (s.g k) (p := 1) (by decide)
    rw [hload]
    refine ⟨rfl, ?_⟩
    rw [Pack.on_g_self]
    exact ⟨hphase, hcode⟩
end

/-- The load area is region memory of the load die. -/
theorem loadLoc_says {g : Pkg} {k : Nat} {l : Loc} (h : g.loadLoc k = some l) : l.pk = k ∧ l.site < 48 ∧ l.space = 2 := by
  obtain ⟨d, hd, rfl⟩ := Option.map_eq_some_iff.mp h
  refine ⟨rfl, ?_, rfl⟩
  show d < 48
  rcases loadDie_mem g hd with rfl | rfl <;> decide

theorem bytes_loadLoc {g : Pkg} {k : Nat} {l : Loc} (h : g.loadLoc k = some l) (p : Pack) (n : Nat) : p.bytes l n = memRdN p.mem l.key n := by
  obtain ⟨-, -, hspace⟩ := loadLoc_says h
  have hloc (g : Pkg) : g.ringLoc l = l := if_neg (by omega)
  rw [Pack.bytes, hloc]

/-! A write of KEY.BCTL -/

/-- A package that has taken a write of BCTL with LOAD. -/
def Pkg.loadSeen (g : Pkg) : Pkg := (g.arrived (rFuse 0)).wb (rKey 0) 22 (g.rb (rKey 0) 22 && !bit (mk32 (2 ^ 23)) 22)

theorem loadSeen_says (g : Pkg) : g.loadSeen.bphase = g.bphase ∧ g.loadSeen.rf (rKey 0) 27 24 = g.rf (rKey 0) 27 24 := by
  have hrd : g.loadSeen.rd (rKey 0) = setB (g.rd (rKey 0)) 22 (g.rb (rKey 0) 22 && !bit (mk32 (2 ^ 23)) 22) := by
    rw [Pkg.loadSeen, Pkg.rd_wb, if_pos rfl, Pkg.arrived_rd]
  refine ⟨?_, ?_⟩
  · rw [Pkg.bphase, Pkg.rf, hrd, fld_setB_apart _ _ (by decide) (.inr (by decide))]
    rfl
  · rw [Pkg.rf, hrd, fld_setB_apart _ _ (by decide) (.inr (by decide))]
    rfl

section
variable {s : State} {k : Nat} {l : Loc} {P : Pack → Prop}

theorem lands_load (hP : ∀ p : Pack, p.g k = (s.pack.g k).loadSeen → p.mem = s.pack.mem → P (p.load k)) :
    Lands s k { key := rFuse 0, site := 62, off := 0x17000, v := mk32 (2 ^ 23), x := {} } P := fun site off hkey hdue => by
  refine ⟨_, gives_postedWriteComplete (b := .keyb) (o := 0) hkey (by decide : ¬ (hubR 0x30000 ≤ rFuse 0 ∧ rFuse 0 < hubR 0x40000)) hdue
    (by decide : blockOf 62 0x17000 = some (.keyb, 0)), ?_⟩
  have hblk (p : Pack) : p.blkWrite k 62 .keyb 0 (mk32 (2 ^ 23)) {} = (p.on k (fun g => g.wb (rKey 0) 22 (g.rb (rKey 0) 22 && !bit (mk32 (2 ^ 23)) 22))).load k := by
    show p.keyWrite k 0 (mk32 (2 ^ 23)) = _
    unfold Pack.keyWrite
    rw [if_pos rfl]
    exact if_pos (by decide : bit (mk32 (2 ^ 23)) 23 = true)
  rw [hblk]
  refine hP _ ?_ rfl
  rw [Pack.on_g_self, Pack.on_g_self]
  rfl

variable (hup : (s.pack.g k).hubUp = true)
include hup

/-- LOAD while an image is being verified or runs (R415). -/
theorem lands_load_busy (h : (s.pack.g k).bphase = 1 ∨ (s.pack.g k).bphase = 2) :
    Lands s k { key := rFuse 0, site := 62, off := 0x17000, v := mk32 (2 ^ 23), x := {} } (fun q =>
      (q.g k).rf (rKey 0) 27 24 = 8 ∧ (q.g k).bphase = (s.pack.g k).bphase ∧ q.mem = s.pack.mem) :=
  lands_load fun p hp hmem => by
    obtain ⟨hphase, -⟩ := loadSeen_says (s.pack.g k)
    obtain ⟨hcode, hsame⟩ := bootErr_says (p.g k) (e := 8) (by decide)
    rw [load_busy (by rw [hp]; exact hup) (by rw [hp, hphase]; exact h), Pack.on_g_self]
    exact ⟨hcode, by rw [hsame, hp, hphase], hmem⟩

/-- LOAD in WAIT or FAILED (R415). -/
theorem lands_load_checks (h1 : (s.pack.g k).bphase ≠ 1) (h2 : (s.pack.g k).bphase ≠ 2) (hloc : (s.pack.g k).loadLoc k = some l) :
    Lands s k { key := rFuse 0, site := 62, off := 0x17000, v := mk32 (2 ^ 23), x := {} } (fun q =>
      q.mem = s.pack.mem ∧ (s.pack.g k).Loaded (q.g k) ((s.pack.g k).headErr k (s.pack.bytes l 4096))) :=
  lands_load fun p hp hmem => by
    obtain ⟨hphase, hcode⟩ := loadSeen_says (s.pack.g k)
    have hbytes : p.bytes l 4096 = s.pack.bytes l 4096 := by rw [bytes_loadLoc hloc, bytes_loadLoc hloc, hmem]
    have hhead : (p.g k).headErr k (s.pack.bytes l 4096) = (s.pack.g k).headErr k (s.pack.bytes l 4096) := by
      rw [hp]
      rfl
    obtain ⟨hkept, hload⟩ := load_says (s := p) (by rw [hp]; exact hup) (by rw [hp, hphase]; exact h1) (by rw [hp, hphase]; exact h2) (by rw [hp]; exact hloc)
    refine ⟨hkept.trans hmem, ?_⟩
    rw [hbytes, hhead] at hload
    revert hload
    cases (s.pack.g k).headErr k (s.pack.bytes l 4096) with
    | some e => exact id
    | none => exact fun h => ⟨h.1, h.2.trans (by rw [hp, hcode])⟩
end

/-! ## The signature is verified -/

theorem imgF_byte (h : List Byte) (lo : Nat) : imgF h lo 1 < 256 := by
  have hlen : ((h.drop lo).take 1).length ≤ 1 := List.length_take_le ..
  exact lt_of_lt_of_le (leVal_lt _) (le_of_le_of_eq (Nat.pow_le_pow_right (by decide) hlen) (by decide))

/-- KEY.MDIG's registers hold a digest. -/
def Pkg.digested (g : Pkg) (dg : List Byte) : Pkg := (List.range 8).foldl (fun g w => g.wr (rKey (0x80 + 4 * w)) (wordOf dg w)) g

theorem rKey_inj {i j : Nat} (h : rKey i = rKey j) : i = j := by
  unfold rKey hubR rk at h
  omega

theorem digested_fw (g : Pkg) (dg : List Byte) : (g.digested dg).fw = g.fw := foldl_keeps (P := Pkg.fw) (by intro _ _; rfl) _ _

theorem digested_rd (g : Pkg) (dg : List Byte) {w : Nat} (hw : w < 8) : (g.digested dg).rd (rKey (0x80 + 4 * w)) = wordOf dg w :=
  fill_rd_in (f := fun w => rKey (0x80 + 4 * w)) (v := wordOf dg) (fun i j e => by have := rKey_inj e; omega) g 8 w hw

/-- The package in which a verified image is installed (R416). -/
def Pkg.installed (g : Pkg) (l : Loc) (h img dg : List Byte) : Pkg :=
  (((({ g with fw := img } : Pkg).digested dg).wr (rKey 4) (mk32 (imgF h 7 1 * 256 + imgF h 6 1))).wf (rGateB l.site) 3 0 0).setBphase 2

section
variable (g : Pkg) {l : Loc} (hl : l.site < 48) (h img dg : List Byte)

theorem wr_fw (a : Nat) (v : W32) : (g.wr a v).fw = g.fw := rfl

theorem installed_fw : (g.installed l h img dg).fw = img := by
  rw [Pkg.installed, Pkg.setBphase, Pkg.wf, wr_fw, Pkg.wf, wr_fw, wr_fw, digested_fw]

theorem installed_bphase : (g.installed l h img dg).bphase = 2 := (setBphase_says _ (by decide)).1

include hl in
theorem installed_rd {o : Nat} (ho : o ≠ 0) : (g.installed l h img dg).rd (rKey o) =
    ((({ g with fw := img } : Pkg).digested dg).wr (rKey 4) (mk32 (imgF h 7 1 * 256 + imgF h 6 1))).rd (rKey o) := by
  have hgate : rKey o ≠ rGateB l.site := by
    unfold rKey rGateB hubR rk
    omega
  unfold Pkg.installed
  rw [Pkg.setBphase, Pkg.rd_wf, if_neg fun e => ho (rKey_inj e), Pkg.rd_wf, if_neg hgate]

include hl in
theorem installed_mdig (hdg : dg.length = 32) : (g.installed l h img dg).mdig = dg := by
  have hword (w : Nat) (hw : w < 8) : (g.installed l h img dg).rd (rKey (0x80 + 4 * w)) = wordOf dg w := by
    rw [installed_rd g hl h img dg (by omega), Pkg.wr_rd_ne _ _ fun e => by have := rKey_inj e; omega]
    exact digested_rd _ dg hw
  unfold Pkg.mdig
  rw [if_pos (installed_bphase g h img dg), List.flatMap_congr (g := fun w => leBytes (wordOf dg w).toNat 4) fun w hw => by rw [hword w (List.mem_range.mp hw)],
    words_bytes 8 (by omega)]
  exact List.take_of_length_le (by omega)

/-- A field of a word made of two bytes. -/
theorem fld_two {a b : Nat} (ha : a < 256) (hb : b < 256) : fld (mk32 (a * 256 + b)) 15 8 = a := by
  rw [fld, toNat_mk32 (by omega), Nat.shiftRight_eq_div_pow]
  omega

include hl in
theorem installed_svn : (g.installed l h img dg).rf (rKey 4) 15 8 = imgF h 7 1 := by
  rw [Pkg.rf, installed_rd g hl h img dg (by decide), Pkg.wr_rd_self]
  exact fld_two (imgF_byte h 7) (imgF_byte h 6)
end

end Sys2Proof.Machine
end

section
/-! PROOFS. The boot: verified images, pushes, fuses -/

namespace Sys2Proof.Machine

/-! ## LOAD_COMPLETE -/

/-- An image in the load area: its header and its body. -/
def Pack.imageAt (s : Pack) (l : Loc) : List Byte := s.bytes l 4096 ++ s.bytes { l with off := 4096 } (imgF (s.bytes l 4096) 8 4)

/-- The image's signature verifies (R414). -/
def Pack.signed (s : Pack) (l : Loc) : Bool :=
  Config.sm2Verify fwIdent (((s.bytes l 4096).drop 64).take 64) (imgM (s.imageAt l)) (((s.bytes l 4096).drop 128).take 64)

/-- What the end of a verification leaves, by the header's first failing check (R415, R416). -/
def Pack.Completed (s : Pack) (k : Nat) (l : Loc) (q : Pack) : Option Nat → Prop
  | some err => (q.g k).bphase = 3 ∧ (q.g k).rf (rKey 0) 27 24 = err ∧ (q.g k).fw = (s.g k).fw ∧ q.mem = s.mem
  | none => if s.signed l = true then
      (q.g k).bphase = 2 ∧ (q.g k).fw = s.imageAt l ∧ (q.g k).mdig = fixLen 32 (Config.sm3 (imgM (s.imageAt l))) ∧
        (q.g k).rf (rKey 4) 15 8 = imgF (s.bytes l 4096) 7 1 ∧ s.Wiped (fun a => !(decide (l.key ≤ a ∧ a < l.key + 2 ^ 24))) q
    else (q.g k).bphase = 3 ∧ (q.g k).rf (rKey 0) 27 24 = 6 ∧ (q.g k).fw = (s.g k).fw ∧ q.mem = s.mem

section
variable {s : Pack} {k : Nat} {l : Loc}

/-- Memory without the load area. -/
def Pack.unloaded (s : Pack) (l : Loc) : Pack := { s with mem := s.mem.filter (fun c => !(decide (l.key ≤ c.1 ∧ c.1 < l.key + 2 ^ 24))) }

theorem loadComplete_eq (hup : (s.g k).hubUp = true) (h1 : (s.g k).bphase = 1) (hloc : (s.g k).loadLoc k = some l) :
    s.loadComplete k = match (s.g k).headErr k (s.bytes l 4096) with
      | some e => s.on k (fun g => g.loadFail e)
      | none => if s.signed l = true then
          (s.unloaded l).on k (fun g => g.installed l (s.bytes l 4096) (s.imageAt l) (fixLen 32 (Config.sm3 (imgM (s.imageAt l)))))
        else s.on k (fun g => g.loadFail 6) := by
  unfold Pack.loadComplete
  dsimp only
  rw [if_neg (by simp [hup, h1]), hloc]
  dsimp only
  cases (s.g k).headErr k (s.bytes l 4096) with
  | some e => rfl
  | none =>
    dsimp only
    change (if (!s.signed l) = true then _ else _) = _
    cases s.signed l with
    | true =>
      rw [if_neg (by decide), if_pos rfl]
      rfl
    | false =>
      rw [if_pos (by decide), if_neg Bool.false_ne_true]

theorem loadFail_fw (g : Pkg) (e : Nat) : (g.loadFail e).fw = g.fw := rfl

theorem loadComplete_says (hup : (s.g k).hubUp = true) (h1 : (s.g k).bphase = 1) (hloc : (s.g k).loadLoc k = some l) :
    s.Completed k l (s.loadComplete k) ((s.g k).headErr k (s.bytes l 4096)) := by
  have heq := loadComplete_eq hup h1 hloc
  cases herr : (s.g k).headErr k (s.bytes l 4096) with
  | some e =>
    rw [herr] at heq
    obtain ⟨hphase, hcode⟩ := loadFail_says (s.g k) (headErr_lt herr)
    rw [heq]
    unfold Pack.Completed
    dsimp only
    rw [Pack.on_g_self]
    exact ⟨hphase, hcode, rfl, rfl⟩
  | none =>
    rw [herr] at heq
    dsimp only at heq
    unfold Pack.Completed
    by_cases hsigned : s.signed l = true
    · rw [if_pos hsigned] at heq
      obtain ⟨-, hsite, -⟩ := loadLoc_says hloc
      rw [if_pos hsigned, heq, Pack.on_g_self]
      refine ⟨installed_bphase .., installed_fw .., installed_mdig _ hsite _ _ _ (fixLen_length ..), installed_svn _ hsite .., fun a => ?_⟩
      exact memRd_filter (fun a => !(decide (l.key ≤ a ∧ a < l.key + 2 ^ 24))) s.mem a
    · rw [if_neg hsigned] at heq
      obtain ⟨hphase, hcode⟩ := loadFail_says (s.g k) (e := 6) (by decide)
      rw [if_neg hsigned, heq, Pack.on_g_self]
      exact ⟨hphase, hcode, rfl, rfl⟩
end

/-! ## The leader's image -/

section
variable {s : Pack} {k j : Nat}

/-- The leader has pushed its image to a position (R417). -/
def Pkg.pushedTo (p : Nat) (x : Pkg) : Pkg := { x with ld := { x.ld with push := x.ld.push.filter (· != p) } }

theorem imagePush_busy (h : (s.g k).bphase = 1 ∨ (s.g k).bphase = 2) :
    s.imagePush k = s ∨ ∃ j, j ≠ k ∧ s.imagePush k = s.on j (fun x => x.pushedTo (s.g k).pos) := by
  unfold Pack.imagePush
  dsimp only
  split
  · exact .inl rfl
  · split
    · exact .inl rfl
    · next j hj =>
      split
      · exact .inl rfl
      · next hgo =>
        exact .inr ⟨j, fun e => hgo (.inl e), rfl⟩

/-- A push that finds the package in VERIFY or RUN is discarded (R417). -/
theorem imagePush_discarded (h : (s.g k).bphase = 1 ∨ (s.g k).bphase = 2) :
    (s.imagePush k).g k = s.g k ∧ (∀ i, ((s.imagePush k).g i).regs = (s.g i).regs) ∧ (s.imagePush k).mem = s.mem := by
  rcases imagePush_busy h with heq | ⟨j, hj, heq⟩
  · rw [heq]
    exact ⟨rfl, fun _ => rfl, rfl⟩
  · rw [heq]
    exact ⟨Pack.on_g_ne _ _ (Ne.symm hj), fun i => Pack.on_keeps (P := Pkg.regs) _ _ _ rfl, rfl⟩

theorem imagePush_none (hat : s.at k (s.g k).lpos = some j) (h : (s.g j).ld.push.contains (s.g k).pos = false) : s.imagePush k = s := by
  unfold Pack.imagePush
  dsimp only
  split
  · rfl
  · rw [hat]
    exact if_pos (.inr (.inr (.inr (by rw [h]; rfl))))

variable {l : Loc} (hup : (s.g k).hubUp = true) (hassigned : (s.g k).assigned = true) (h1 : (s.g k).bphase ≠ 1) (h2 : (s.g k).bphase ≠ 2)
  (hloc : (s.g k).loadLoc k = some l) (hat : s.at k (s.g k).lpos = some j) (hj : j ≠ k) (hrun : (s.g j).bphase = 2) (hleads : (s.g j).leads = true)
  (hpush : (s.g j).ld.push.contains (s.g k).pos = true)
include hup hassigned h1 h2 hloc hat hj hrun hleads hpush

theorem imagePush_eq : s.imagePush k = ((s.on j (fun x => x.pushedTo (s.g k).pos)).store l (s.g j).fw).load k := by
  unfold Pack.imagePush
  dsimp only
  rw [if_neg (by simp [hup, hassigned]), hat]
  dsimp only
  rw [if_neg (by simp only [not_or]; exact ⟨hj, by simp [hrun], by simp [hleads], by rw [hpush]; decide⟩), if_neg (by omega), hloc]
  rfl

/-- A push that finds the package in WAIT or FAILED is written to the load area and loaded (R417). -/
theorem imagePush_says : (s.imagePush k).mem = (s.store l (s.g j).fw).mem ∧
    ((s.imagePush k).g k).bphase = (if (s.g k).headErr k ((s.store l (s.g j).fw).bytes l 4096) = none then 1 else 3) ∧
    ((s.imagePush k).g j).ld.push.contains (s.g k).pos = false := by
  have heq := imagePush_eq hup hassigned h1 h2 hloc hat hj hrun hleads hpush
  obtain ⟨hpk, -, hspace⟩ := loadLoc_says hloc
  have hring (p : Pack) (bs : List Byte) : (p.store l bs).mem = memWrN p.mem l.key bs := by
    show memWrN p.mem ((p.g l.pk).ringLoc l).key bs = _
    rw [show (p.g l.pk).ringLoc l = l from if_neg (by omega)]
  have hg : ((s.on j (fun x => x.pushedTo (s.g k).pos)).store l (s.g j).fw).g k = s.g k := Pack.on_g_ne _ _ (Ne.symm hj)
  have hmem : ((s.on j (fun x => x.pushedTo (s.g k).pos)).store l (s.g j).fw).mem = (s.store l (s.g j).fw).mem := by
    rw [hring, hring]
    rfl
  have hgj : ((s.on j (fun x => x.pushedTo (s.g k).pos)).store l (s.g j).fw).g j = (s.g j).pushedTo (s.g k).pos := Pack.on_g_self ..
  generalize (s.on j (fun x => x.pushedTo (s.g k).pos)).store l (s.g j).fw = t at heq hg hmem hgj
  obtain ⟨hkept, hload⟩ := load_says (s := t) (k := k) (l := l) (by rw [hg]; exact hup) (by rw [hg]; exact h1) (by rw [hg]; exact h2) (by rw [hg]; exact hloc)
  have hbytes : t.bytes l 4096 = (s.store l (s.g j).fw).bytes l 4096 := by rw [bytes_loadLoc hloc, bytes_loadLoc hloc, hmem]
  rw [hg, hbytes] at hload
  rw [heq]
  refine ⟨hkept.trans hmem, ?_, ?_⟩
  · revert hload
    cases (s.g k).headErr k ((s.store l (s.g j).fw).bytes l 4096) with
    | some e => exact fun h => h.2.trans (if_neg (by simp)).symm
    | none => exact fun h => h.1.trans (if_pos rfl).symm
  · have hother : (t.load k).g j = t.g j := by
      unfold Pack.load
      dsimp only
      split
      · rfl
      · split
        · exact Pack.on_g_ne _ _ hj
        · split
          · exact Pack.on_g_ne _ _ hj
          · split
            · exact Pack.on_g_ne _ _ hj
            · exact Pack.on_g_ne _ _ hj
    rw [hother, hgj]
    simp [Pkg.pushedTo]
end

/-! ## Fuses -/

section
variable {s : State} {k : Nat} {P : Pack → Prop} {v : W32}

theorem lands_fuse (hP : ∀ p : Pack, p.g k = (if bit v 4 then ((s.pack.g k).arrived (rFuse 0)).advSvn k else (s.pack.g k).arrived (rFuse 0)).revoke k (fld v 3 0) →
    p.mem = s.pack.mem → P p) : Lands s k { key := rFuse 0, site := 62, off := 0x16000, v := v, x := {} } P :=
  lands_of_on (b := .fuse) (o := 0) (by decide : blockOf 62 0x16000 = some (.fuse, 0)) (by decide : rFuse 0 < hubR 0x30000)
    (fun g => (if bit v 4 then g.advSvn k else g).revoke k (fld v 3 0)) (fun _ _ => rfl) hP

theorem revoke_none (g : Pkg) (k : Nat) : g.revoke k 0 = g := by
  unfold Pkg.revoke
  exact if_pos (by decide)

/-- ADVSVN in RUN (R418). -/
theorem lands_advSvn (h : (s.pack.g k).bphase = 2) :
    Lands s k { key := rFuse 0, site := 62, off := 0x16000, v := mk32 (2 ^ 4), x := {} } (fun q =>
      (q.g k).fz = { (s.pack.g k).fz with svn := max ((s.pack.g k).svnctr k) (min 63 ((s.pack.g k).rf (rKey 4) 15 8)) } ∧ (q.g k).regs = (s.pack.g k).regs ∧
      q.mem = s.pack.mem) :=
  lands_fuse fun p hp hmem => by
    have hadv : ((s.pack.g k).arrived (rFuse 0)).advSvn k = { (s.pack.g k).arrived (rFuse 0) with
        fz := { (s.pack.g k).fz with svn := max ((s.pack.g k).svnctr k) (min 63 ((s.pack.g k).rf (rKey 4) 15 8)) } } := by
      unfold Pkg.advSvn
      rw [if_neg (not_not.mpr (show ((s.pack.g k).arrived (rFuse 0)).bphase = 2 from h))]
      rfl
    rw [hp, (by decide : bit (mk32 (2 ^ 4)) 4 = true), (by decide : fld (mk32 (2 ^ 4)) 3 0 = 0), if_pos rfl, revoke_none, hadv]
    exact ⟨rfl, rfl, hmem⟩

/-- ADVSVN without a running image is refused (R418). -/
theorem lands_advSvn_refused (h : (s.pack.g k).bphase ≠ 2) :
    Lands s k { key := rFuse 0, site := 62, off := 0x16000, v := mk32 (2 ^ 4), x := {} } (fun q =>
      (q.g k).fz = (s.pack.g k).fz ∧ (q.g k).rf (rKey 0) 27 24 = 8 ∧ q.mem = s.pack.mem) :=
  lands_fuse fun p hp hmem => by
    have hadv : ((s.pack.g k).arrived (rFuse 0)).advSvn k = ((s.pack.g k).arrived (rFuse 0)).bootErr 8 := if_pos h
    rw [hp, (by decide : bit (mk32 (2 ^ 4)) 4 = true), (by decide : fld (mk32 (2 ^ 4)) 3 0 = 0), if_pos rfl, revoke_none, hadv]
    exact ⟨rfl, (bootErr_says _ (by decide)).1, hmem⟩

/-- REVOKE (R419). -/
theorem lands_revoke {mask : Nat} (h : mask % 16 ≠ 0) :
    Lands s k { key := rFuse 0, site := 62, off := 0x16000, v := mk32 (mask % 16), x := {} } (fun q => q.mem = s.pack.mem ∧
      if keyProg k &&& (15 - ((s.pack.g k).keyRev k ||| mask % 16) % 16) = 0 then (q.g k).fz = (s.pack.g k).fz ∧ (q.g k).rf (rKey 0) 27 24 = 8
      else (q.g k).fz = { (s.pack.g k).fz with rev := (s.pack.g k).fz.rev ||| mask % 16 } ∧ (q.g k).regs = (s.pack.g k).regs) :=
  lands_fuse fun p hp hmem => by
    have hword : ∀ n, n < 16 → bit (mk32 n) 4 = false ∧ fld (mk32 n) 3 0 = n := by decide
    obtain ⟨h4, hfld⟩ := hword (mask % 16) (Nat.mod_lt _ (by decide))
    have hmod : mask % 16 % 16 = mask % 16 := Nat.mod_mod ..
    have hrev : ((s.pack.g k).arrived (rFuse 0)).keyRev k = (s.pack.g k).keyRev k := rfl
    rw [hp, h4, if_neg Bool.false_ne_true, hfld]
    refine ⟨hmem, ?_⟩
    unfold Pkg.revoke
    dsimp only
    rw [hmod, if_neg h, hrev]
    split
    · exact ⟨rfl, (bootErr_says _ (by decide)).1⟩
    · exact ⟨rfl, rfl⟩
end

end Sys2Proof.Machine
end

section
/-! PROOFS. Power states, the board and the boot: the obligation -/

namespace Sys2Proof.Machine

/-! ## Writes to the Husk's registers -/

section
variable {s : State} {k : Nat} {m : Master} {v : W32} {c : Instr}

/-- A privileged write that is posted (R379, R380). -/
theorem gives_posted {site off o key : Nat} {b : Blk} {x : WrX} (hw : Writable s.pack k m site off b o) (hpriv : pvMask b o ≠ 0)
    (hc : exec c s = .next (s.onPack (fun s => s.busWrite k m site off v x))) (hword : forbidden b o v = none) (hkey : busyKey site b o = some key) (hb : b ≠ .stream) :
    Gives c s (s.pack.posted k { key := key, site := site, off := off, v := v, x := x }) :=
  gives_of_onPack hc ((busWrite_served hw).trans (regWrite_posts_priv (hw.priv.resolve_right hpriv) hword hkey (hw.idle _ hkey) hb))

/-- The Husk's own WAKE reaches the power block of a package that is down (R396). -/
theorem gives_wake (hvaon : (s.pack.g k).hk.vaon = true) (hstate : (s.pack.g k).hk.state ≠ 2) (hidle : (s.pack.g k).busy.contains (rPwr 0) = false) :
    Gives (.wake k .husk) s (s.pack.posted k { key := rPwr 0, site := 62, off := 0x14008, v := mk32 (1 * 2 ^ 28), x := {} }) := by
  refine gives_of_onPack (h := fun p => p.busWrite k .husk 62 0x14008 (mk32 (1 * 2 ^ 28))) rfl ?_
  have hdown : (s.pack.g k).hubUp = false := by simp [Pkg.hubUp, Pkg.powered, hstate]
  have hbus : s.pack.busWrite k .husk 62 0x14008 (mk32 (1 * 2 ^ 28)) = s.pack.regWrite k .husk 62 .pwr 8 0x14008 (mk32 (1 * 2 ^ 28)) {} := by
    unfold Pack.busWrite
    dsimp only
    rw [(by decide : blockOf 62 0x14008 = some (.pwr, 8))]
    dsimp only
    rw [if_pos (by simp [hdown]), if_pos ⟨rfl, rfl, hvaon⟩]
  exact hbus.trans (regWrite_posts_priv rfl rfl rfl hidle (by decide))

theorem forbidden_mailbox (h : fld v 8 0 ≤ 256) : forbidden .husk 4 v = none := if_neg fun hbad => absurd hbad.2 (by omega)

/-- A write of the mailbox's control word is posted (R407). -/
theorem gives_mailbox (hw : Writable s.pack k m 62 0x15004 .husk 4) (hc : exec c s = .next (s.onPack (fun s => s.busWrite k m 62 0x15004 v)))
    (h : fld v 8 0 ≤ 256) : Gives c s (s.pack.posted k { key := rHusk 4, site := 62, off := 0x15004, v := v, x := {} }) :=
  gives_of_onPack hc (busWrite_posts hw rfl (forbidden_mailbox h) rfl (by decide))

theorem gives_qreq (hw : Writable s.pack k m 62 0x1500C .husk 0xC) : Gives (.qreq k m) s (s.pack.qreq k) := by
  refine gives_of_onPack (h := fun p => p.busWrite k m 62 0x1500C (mk32 (2 ^ 29))) rfl ((busWrite_served hw).trans ?_)
  rw [regWrite_now_priv (hw.priv.resolve_right (by decide)) rfl rfl]
  show s.pack.huskWrite k 0xC (mk32 (2 ^ 29)) = _
  unfold Pack.huskWrite
  rw [if_neg (by decide), if_neg (by decide), if_neg (by decide), if_pos rfl, if_pos (by decide)]

theorem gives_nonce {j : Nat} (hj : j < 8) (hw : Writable s.pack k m 62 (0x15300 + 4 * j) .husk (0x300 + 4 * j)) :
    Gives (.huskNonceWrite k m j v) s (s.pack.on k (fun g => g.nonceWrite j v)) := by
  refine gives_of_onPack (h := fun p => p.busWrite k m 62 (0x15300 + 4 * (j % 8)) v) rfl ?_
  rw [Nat.mod_eq_of_lt hj]
  refine (busWrite_served hw).trans ?_
  have hword : forbidden .husk (0x300 + 4 * j) v = none := if_neg fun hbad => absurd hbad.1 (by omega)
  rw [regWrite_now_priv (hw.priv.resolve_right ((by decide : ∀ j, j < 8 → pvMask .husk (0x300 + 4 * j) ≠ 0) j hj)) hword
    ((by decide : ∀ j, j < 8 → busyKey 62 .husk (0x300 + 4 * j) = none) j hj)]
  show s.pack.huskWrite k (0x300 + 4 * j) v = _
  unfold Pack.huskWrite
  rw [if_neg (by omega), if_neg (by omega), if_neg (by omega), if_neg (by omega), if_neg (by omega), if_neg (by omega), if_pos (by omega),
    show (0x300 + 4 * j - 0x300) / 4 = j by omega]
end

/-- Settles O59. -/
theorem powerStatesBoardAndBoot : Obligations.PowerStatesBoardAndBoot := by
  unfold Obligations.PowerStatesBoardAndBoot
  intro s k site len mask j w m force stuck tests v l body g h wiped role fuses fresh up down refused cmd fuse pw blow loads send took iso able two three hdr img leftOf
  refine ⟨gives_wake, fun hstate hrst => ⟨fun hok href htrip => lands_wake hrst hstate hok href htrip, fun hbad => lands_wake_refused hrst hstate hbad⟩,
    fun hw => ⟨gives_posted hw (by decide) rfl rfl rfl (by decide), gives_posted hw (by decide) rfl rfl rfl (by decide),
      gives_posted hw (by decide) rfl rfl rfl (by decide), gives_posted hw (by decide) rfl rfl rfl (by decide)⟩,
    fun hup => ⟨fun hmay => ⟨lands_standby hup hmay, lands_off hup hmay⟩, ?_, lands_pkgReset hup, lands_dieReset hup⟩,
    fun hvaon => ⟨?_, ?_, ?_, ?_, ?_, ?_, ?_, ?_, ?_, ?_⟩, ?_, ?_, ?_, ?_, ?_, ?_, ?_, ?_, ?_, ?_, ?_, ?_, ?_, ?_, ?_, ?_, ?_, ?_, ?_, ?_, ?_, ?_⟩
  · rintro rfl hmay
    exact ⟨lands_standby_refused hup hmay, lands_off_refused hup hmay⟩
  · exact fun hidle => leaves_onPack rfl (pwrOkRise_seen hvaon hidle)
  · exact fun hauto hstate href htrip => leaves_onPack rfl (pwrOkRise_wakes hvaon hauto hstate href htrip)
  · exact fun hstate => leaves_onPack rfl (pwrOkFall_down hvaon hstate)
  · exact fun hstate => leaves_onPack rfl (perstAssert_holds hvaon hstate)
  · exact fun hstate => gives_of_onPack rfl (perstAssert_seen hvaon hstate)
  · intro hperst hstate hrst
    obtain ⟨hpow, hhub, hseen, hrole, hgate⟩ := perstRelease_boots hvaon hperst hstate hrst
    rw [← show (s.pack.on k (fun g => g.perstRelease)).g k = g.perstRelease from Pack.on_g_self ..] at hpow hhub hseen hrole hgate
    refine leaves_onPack (h := fun p => p.on k (fun g => g.perstRelease)) rfl ?_
    exact ⟨hpow, hhub, hseen, hrole, hgate, rfl⟩
  · exact fun hperst hstate => gives_of_onPack (h := fun p => p.on k (fun g => g.perstRelease)) rfl (Pack.on_congr (perstRelease_seen hvaon hperst hstate))
  · intro href hstate hrst
    obtain ⟨hlost, hfailed, hstarted, hbit, hidle, hfault⟩ := refLoss_says k hvaon href hstate hrst
    refine leaves_onPack (h := fun p => p.on k (fun g => g.refLoss)) rfl ?_
    rw [Pack.on_g_self]
    exact ⟨hlost, hfailed, hstarted, hbit, hidle, hfault, rfl⟩
  · exact fun href => leaves_onPack rfl (huskTrim_ref hvaon href)
  · exact fun href hports => leaves_onPack rfl (huskTrim_free hvaon href hports)
  · obtain ⟨hhk, hbit⟩ := refReturn_says (g := g)
    refine leaves_onPack (h := fun p => p.on k (fun g => g.refReturn)) rfl ?_
    rw [Pack.on_g_self]
    exact ⟨hhk, hbit, rfl⟩
  · exact leaves_onPack rfl (vaonRise_says s.pack k)
  · exact leaves_onPack rfl (vaonLoss_says s.pack k)
  · intro hstate
    refine leaves_onPack (h := fun p => p.vaonInterlock k) rfl ?_
    rw [show s.pack.vaonInterlock k = s.pack.powerDown k false from if_neg hstate]
    exact powerDown_downFrom s.pack k false
  · exact fun hstate => gives_of_onPack (h := fun p => p.vaonInterlock k) rfl (if_pos hstate)
  · exact fun hw => ⟨fun hlen => gives_mailbox hw rfl ((send_word hlen).2.2.symm ▸ hlen),
      fun hlen => gives_mailbox hw rfl (by rwa [fld_setB_apart _ _ (by decide) (.inl (by decide))])⟩
  · exact fun hlen => ⟨lands_hsend hlen, lands_hsend_refused hlen⟩
  · exact fun h28 _ => lands_back h28
  · exact fun hw => gives_posted hw (by decide) rfl rfl rfl (by decide)
  · exact lands_iso
  · exact fun hw => ⟨fun hnone => ⟨_, gives_qreq hw, qreq_takes hnone⟩, fun hsome => ⟨_, gives_qreq hw, by rw [qreq_busy hsome]; exact ⟨rfl, rfl⟩⟩⟩
  · exact fun hquote hlen => leaves_onPack rfl (quoteDone_says hquote hlen)
  · intro hj hw
    obtain ⟨hword, hdone⟩ := nonceWrite_says g hj v
    rw [← show (s.pack.on k (fun g => g.nonceWrite j v)).g k = g.nonceWrite j v from Pack.on_g_self ..] at hword hdone
    exact ⟨_, gives_nonce hj hw, hword, hdone, rfl⟩
  · exact gives_of_onPack (h := fun p => p.on k (fun g => g.lendPulse k)) rfl (Pack.on_congr (lendPulse_eq g k))
  · exact fun hw => gives_posted hw (by decide) rfl rfl rfl (by decide)
  · exact fun hup => ⟨lands_load_busy hup, fun h1 h2 hloc => lands_load_checks hup h1 h2 hloc⟩
  · exact fun hup h1 hloc => leaves_onPack rfl (loadComplete_says hup h1 hloc)
  · exact fun hup hassigned h1 h2 hloc hat hj hrun hleads hpush => leaves_onPack rfl (imagePush_says hup hassigned h1 h2 hloc hat hj hrun hleads hpush)
  · exact fun hbusy => leaves_onPack rfl (imagePush_discarded hbusy)
  · exact fun hat hnone => gives_of_onPack rfl (imagePush_none hat hnone)
  · exact fun hw => ⟨gives_posted hw (by decide) rfl rfl rfl (by decide), gives_posted hw (by decide) rfl rfl rfl (by decide)⟩
  · exact ⟨lands_advSvn, lands_advSvn_refused, lands_revoke⟩

end Sys2Proof.Machine
end
